-- ==== Sys2Proof/Word.lean ====
section
/-! DEFINITION. The words of the M192 and their plainest arithmetic (R2 to R6). -/

namespace Sys2Proof

/-- A 32-bit word (R105, R336). -/
abbrev Word := BitVec 32
/-- A byte. -/
abbrev Byte := BitVec 8
/-- A 64-bit value such as TB or the accumulator (R56, R119). -/
abbrev DWord := BitVec 64

/-- A general register number of a room (R79). -/
abbrev Reg := Fin 32
/-- A room number (R79). -/
abbrev RoomId := Fin 100
/-- A lane number L0 to L7 (R72). -/
abbrev LaneId := Fin 8
/-- A field channel number CH000 to CH191 (00_scope). -/
abbrev ChanId := Fin 192
/-- A channel group G0 to G11. -/
abbrev GrpId := Fin 12
/-- A CAN port CAN0 to CAN3. -/
abbrev PortId := Fin 4
/-- A command ring C0 to C7 or completion ring Q0 to Q7 (R338). -/
abbrev RingId := Fin 8

/-- The group of a channel is n div 16 (00_scope, "Signals, pins and numbered units"). -/
def grpOf (c : ChanId) : GrpId := ⟨c.val / 16, by omega⟩

/-- The place of a channel within its group, n mod 16. -/
def idxOf (c : ChanId) : Fin 16 := ⟨c.val % 16, by omega⟩

/-- Channel 16g + i (R42). -/
def chanOf (g : GrpId) (i : Fin 16) : ChanId := ⟨16 * g.val + i.val, by omega⟩

/-- The main-clock cycles of a base tick, a microsecond and a second (R56). -/
def tickCycles : Nat := 20000
def usCycles : Nat := 400
def msCycles : Nat := 400000
def secCycles : Nat := 400000000

end Sys2Proof
end

