-- ==== Sys2Proof/Config.lean ====
section
/-! DEFINITION. What one part or one firmware image fixes, and the free values: constants without a body, about which
nothing can be proved (log entries 10 to 14). -/

namespace Sys2Proof.Config

/-- A stream of unconstrained 32-bit values, read by a counter of the state (log entry 10). -/
opaque freeWord : Nat → BitVec 32

/-- SHAKE256 of FIPS 202 with a 64-byte result (19_security_update); the standard's text is not in the spec (log entry 11). -/
opaque shake256 : List Byte → List Byte

/-- Falcon-1024 verification: public key, digest, signature (19_security_update; log entry 11). -/
opaque falconVerify : List Byte → List Byte → List Byte → Bool

/-- Falcon-1024 signing with the device identity key, 1280 bytes (R479, R490; log entry 11). -/
opaque identitySign : List Byte → List Byte

/-- Temperature in 0.001 °C of an RTD of `milliohm`, by IEC 60751; `true` for Pt1000 (R279; log entry 12). -/
opaque rtdTemp : Bool → Int → Int

/-- Temperature in 0.001 °C of a thermocouple of RANGE code `k` with the EMF in nV and the cold junction in 0.01 °C, by
IEC 60584-1 (R279; log entry 12). -/
opaque tcTemp : Nat → Int → Int → Int

/-- The span of the range of an RTD or thermocouple mode (MODE, RANGE) in mΩ or nV, which R294 needs and IEC 60751 and IEC 60584-1
give (log entry 12). -/
opaque trimSpan : Nat → Nat → Nat

/-- The slot schedule that the steward builds for a group, given index, RATE and SPS of its analogue channels: the last slot of each sample
within a second of 31 000 channel slots, with its channel (R274; log entry 13). -/
opaque slotSchedule : List (Nat × Nat × Nat) → List (Nat × Nat)

/-- Identity of the part (R337): serial number and hardware revision (log entry 14). -/
opaque serial : BitVec 64
opaque hwMajor : BitVec 8
opaque hwMinor : BitVec 8

/-- The image slots, the Clainram key hashes, the identity public key and certificate as the part left the factory
(R479, R491; log entry 14). -/
opaque factoryImage : Bool → List Byte
opaque clainramHash : Nat → List Byte
opaque identityPub : List Byte
opaque identityCert : Nat → BitVec 32

end Sys2Proof.Config
end

