-- ==== Sys2Proof/Syntax.lean ====
section
/-! DEFINITION. The commands of the M192: one constructor per row of spec/opcode_table.json. Every command names the main-clock
cycle `t` at which it happens (log entry 1); a lane instruction names the room that fetches it; a driver command names its
command ring and its 64-byte entry (R347); a post-road message carries its payload bytes (R377, R381). -/

namespace Sys2Proof

/-- The condition of a B-format branch (R110). -/
inductive Cond where
  | al | eq | ne | lt | ge | le | gt | lo | hs | ls | hi | mi | pl | vs | vc | bt | bf
deriving DecidableEq, Repr

/-- The special result register that MFS and MTS name (R122). -/
inductive Spr where
  | mlo | mhi | frs | quo | rem
deriving DecidableEq, Repr

/-- A memory with SECDED words, in the order of SCAN_ECC0 to SCAN_ECC4 (R86, R101). -/
inductive MemId where
  | code | data | image | regs | steward
deriving DecidableEq, Repr

/-- What the corrector finds in a word: valid, a single-bit error, or an uncorrectable error (R92, R94). -/
inductive EccResult where
  | clean | single | double
deriving DecidableEq, Repr

/-- Which read passes through the corrector (R92, R94, R95): the scrubber's next word of the lane memories, its next word of steward
memory, or a word that an instruction's fetch, operand read or memory access, or the steward core, reads. The word's address is the
command's next operand; the scrubber's place in the lane memories is its own (R95), and the address with it is 0. -/
inductive EccRead where
  | sweep
  | stewardSweep
  | lane (mem : MemId)
  | core
deriving DecidableEq, Repr

/-- The lines of J2 (R38, R39, R375): `present`, PAIR_PRESENT low while the cable is in place; `pref`, ROLEPREF tied to GND; `term`, the
partner terminates its lanes, as receiver detection senses it. -/
structure PairPins where
  present : Bool
  pref : Bool
  term : Bool
deriving DecidableEq, Repr

/-- One self-test of a bank's test word (R96): the pattern written, what is read back, and what the corrector reports of an injected
single-bit and an injected double-bit error. -/
structure SelfTest where
  pattern : Word
  back : Word
  one : EccResult
  two : EccResult
deriving DecidableEq, Repr

/-- What is latched at a hardware fault (R98, R101). `room` 127 when no room was involved; `mem` as SCAN_FEV0.MEM. -/
structure FaultEvidence where
  cause : BitVec 8
  lane : LaneId
  room : BitVec 7
  mem : BitVec 4
  pc : BitVec 20
  addr : BitVec 20
deriving DecidableEq, Repr

/-- A sample in a frame of an engine (R271, R273): the channel slot, 1 to 31, in which it ends, and what it read; for a 3-wire RTD `raw` and
`second` are the two drops of R279 in nV. -/
structure Sample where
  ch : ChanId
  raw : Int
  slot : Nat
  second : Int
deriving DecidableEq, Repr

/-- What an engine's 1 ms frame reads (R272, R295): whether the spare engine runs it, the zero check, the item whose turn it is, and the
channel samples. -/
structure EngineFrame where
  bySpare : Bool
  zeroOk : Bool
  resultOk : Bool
  zeroPpm : Int
  gainPpm : Int
  selfTestOk : Bool
  cjTemp : Option Int
  burnoutOpen : Bool
  samples : List Sample
deriving DecidableEq, Repr

/-- A flag of an analogue record (R277, R283). -/
inductive AFlag where
  | under | over | aopen | short | lowv | disc | limit
deriving DecidableEq, Repr

/-- A frame as the port receives it (R313, R314). `sofTb` is TB[31:0] of its start-of-frame edge. -/
structure CanFrame where
  ide : Bool
  id : BitVec 29
  fd : Bool
  brs : Bool
  remote : Bool
  payload : List Byte
  sofTb : BitVec 32
deriving DecidableEq, Repr

/-- How a transmission attempt ends (R319). -/
inductive TxResult where
  | sent | lostArbitration | error
deriving DecidableEq, Repr

/-- A bus error: its code and phase as CAN_LASTERR, whether the port was transmitting, and the ISO 11898-1 error count it
carries (R322, R330). -/
structure CanErr where
  code : BitVec 3
  dphase : Bool
  transmitter : Bool
  weight : Nat
deriving DecidableEq, Repr

/-- A register of the RTC read group (R421). -/
inductive RtcReg where
  | sub | time | date
deriving DecidableEq, Repr

/-- A path that reads the RTC group (R421). -/
inductive RtcPath where
  | bar0 | steward
deriving DecidableEq, Repr

/-- A 64-bit value split over two registers (R336). -/
inductive SplitPair where
  | cycle | fevTb | evaTb | evsTb | pser | serial | setup
deriving DecidableEq, Repr

/-- What a failed module request accessed (R334). -/
inductive DmaTarget where
  | buffer (c : RingId)
  | ring
deriving DecidableEq, Repr

/-- A 64-byte command entry without its opcode: FLAGS, TAG and bytes 4 to 63 (R347). -/
structure CmdEntry where
  flags : Byte
  tag : BitVec 16
  body : List Byte
deriving DecidableEq, Repr

/-- A resynchronisation block (R396): bytes of a room's data window, of its write-set words pending and committed, or a room's
record as little-endian words in the order g1-g31, PC, flags, MLO, MHI, FRS, QUO, REM, release TB. -/
inductive StreamBlock where
  | window (room : RoomId) (retained : Bool) (offset : Nat) (bytes : List Byte)
  | words (pend : Bool) (addr : Nat) (bytes : List Byte)
  | record (room : RoomId) (words : List Word)
  | passDone
deriving DecidableEq, Repr

/-- A command of the block: one constructor per row of the opcode table. -/
inductive Instr where
  /-- R134. Instruction that does nothing for one lane slot. -/
  | nop (t : Nat) (r : RoomId)
  /-- R134. Adds two registers into rd and sets Z N C V. -/
  | add (t : Nat) (r : RoomId) (rd ra rb : Reg)
  /-- R134. Subtracts rb from ra into rd and sets Z N C V. -/
  | sub (t : Nat) (r : RoomId) (rd ra rb : Reg)
  /-- R134. Adds two registers and the carry into rd. -/
  | adc (t : Nat) (r : RoomId) (rd ra rb : Reg)
  /-- R134. Subtracts rb and the borrow from ra into rd. -/
  | sbc (t : Nat) (r : RoomId) (rd ra rb : Reg)
  /-- R134. Bitwise and of two registers into rd. -/
  | and (t : Nat) (r : RoomId) (rd ra rb : Reg)
  /-- R134. Bitwise or of two registers into rd. -/
  | or (t : Nat) (r : RoomId) (rd ra rb : Reg)
  /-- R134. Bitwise exclusive or of two registers into rd. -/
  | xor (t : Nat) (r : RoomId) (rd ra rb : Reg)
  /-- R134. ra and not rb into rd. -/
  | andn (t : Nat) (r : RoomId) (rd ra rb : Reg)
  /-- R135. Logical left shift by rb[4:0], with C the last bit out. -/
  | shl (t : Nat) (r : RoomId) (rd ra rb : Reg)
  /-- R135. Logical right shift by rb[4:0], with C the last bit out. -/
  | shr (t : Nat) (r : RoomId) (rd ra rb : Reg)
  /-- R135. Arithmetic right shift by rb[4:0], with C the last bit out. -/
  | sar (t : Nat) (r : RoomId) (rd ra rb : Reg)
  /-- R134. Sets the flags from ra minus rb. -/
  | cmp (t : Nat) (r : RoomId) (ra rb : Reg)
  /-- R134. Signed minimum of two registers into rd. -/
  | min (t : Nat) (r : RoomId) (rd ra rb : Reg)
  /-- R134. Signed maximum of two registers into rd. -/
  | max (t : Nat) (r : RoomId) (rd ra rb : Reg)
  /-- R134. Unsigned minimum of two registers into rd. -/
  | minu (t : Nat) (r : RoomId) (rd ra rb : Reg)
  /-- R134. Unsigned maximum of two registers into rd. -/
  | maxu (t : Nat) (r : RoomId) (rd ra rb : Reg)
  /-- R134. Selects ra or rb into rd according to B. -/
  | sel (t : Nat) (r : RoomId) (rd ra rb : Reg)
  /-- R134. Writes the B flag into rd as 0 or 1. -/
  | getb (t : Nat) (r : RoomId) (rd : Reg)
  /-- R136. Adds a sign-extended immediate to ra. -/
  | addi (t : Nat) (r : RoomId) (rd ra : Reg) (imm : BitVec 16)
  /-- R136. Sets the flags from ra minus a sign-extended immediate. -/
  | cmpi (t : Nat) (r : RoomId) (ra : Reg) (imm : BitVec 16)
  /-- R136. And with a zero-extended immediate. -/
  | andi (t : Nat) (r : RoomId) (rd ra : Reg) (imm : BitVec 16)
  /-- R136. Or with a zero-extended immediate. -/
  | ori (t : Nat) (r : RoomId) (rd ra : Reg) (imm : BitVec 16)
  /-- R136. Exclusive or with a zero-extended immediate. -/
  | xori (t : Nat) (r : RoomId) (rd ra : Reg) (imm : BitVec 16)
  /-- R136. Loads the immediate into the upper half of rd. -/
  | lui (t : Nat) (r : RoomId) (rd : Reg) (imm : BitVec 16)
  /-- R136. Left shift by an immediate count. -/
  | shli (t : Nat) (r : RoomId) (rd ra : Reg) (n5 : BitVec 5)
  /-- R136. Logical right shift by an immediate count. -/
  | shri (t : Nat) (r : RoomId) (rd ra : Reg) (n5 : BitVec 5)
  /-- R136. Arithmetic right shift by an immediate count. -/
  | sari (t : Nat) (r : RoomId) (rd ra : Reg) (n5 : BitVec 5)
  /-- R136. Copies bit n of ra into B. -/
  | tst (t : Nat) (r : RoomId) (ra : Reg) (n5 : BitVec 5)
  /-- R137. Extracts a bit field of ra into rd. -/
  | bext (t : Nat) (r : RoomId) (rd ra : Reg) (p5 w5 : BitVec 5)
  /-- R137. Inserts the low bits of ra into a bit field of rd. -/
  | bins (t : Nat) (r : RoomId) (rd ra : Reg) (p5 w5 : BitVec 5)
  /-- R126. Starts a counted loop with an immediate bound in rc. -/
  | lpi (t : Nat) (r : RoomId) (rd : Reg) (imm : BitVec 16)
  /-- R126. Starts a counted loop with ra clamped to a bound-table entry and sets V. -/
  | lpr (t : Nat) (r : RoomId) (rd ra : Reg) (imm : BitVec 16)
  /-- R126. Decrements rc and branches back while it is not zero. -/
  | loop (t : Nat) (r : RoomId) (rd : Reg) (boff : BitVec 21)
  /-- R128. Bounded jump through a table of branches, or to its default. -/
  | jtab (t : Nat) (r : RoomId) (ra : Reg) (imm : BitVec 16)
  /-- R111. Conditional forward branch by a 21-bit offset. -/
  | b (t : Nat) (r : RoomId) (cond : Cond) (boff : BitVec 21)
  /-- R138. Loads a data-memory word from the room's windows. -/
  | lw (t : Nat) (r : RoomId) (rd ra : Reg) (imm : BitVec 16)
  /-- R138. Loads a sign-extended data-memory halfword. -/
  | lh (t : Nat) (r : RoomId) (rd ra : Reg) (imm : BitVec 16)
  /-- R138. Loads a zero-extended data-memory halfword. -/
  | lhu (t : Nat) (r : RoomId) (rd ra : Reg) (imm : BitVec 16)
  /-- R138. Loads a sign-extended data-memory byte. -/
  | lby (t : Nat) (r : RoomId) (rd ra : Reg) (imm : BitVec 16)
  /-- R138. Loads a zero-extended data-memory byte. -/
  | lbyu (t : Nat) (r : RoomId) (rd ra : Reg) (imm : BitVec 16)
  /-- R138. Stores a word into the room's data windows. -/
  | sw (t : Nat) (r : RoomId) (rd ra : Reg) (imm : BitVec 16)
  /-- R138. Stores a halfword into the room's data windows. -/
  | sh (t : Nat) (r : RoomId) (rd ra : Reg) (imm : BitVec 16)
  /-- R138. Stores a byte into the room's data windows. -/
  | sby (t : Nat) (r : RoomId) (rd ra : Reg) (imm : BitVec 16)
  /-- R138. Loads an image word from the snapshot or output buffer. -/
  | ilw (t : Nat) (r : RoomId) (rd ra : Reg) (imm : BitVec 16)
  /-- R138. Loads a sign-extended image halfword. -/
  | ilh (t : Nat) (r : RoomId) (rd ra : Reg) (imm : BitVec 16)
  /-- R138. Loads a zero-extended image halfword. -/
  | ilhu (t : Nat) (r : RoomId) (rd ra : Reg) (imm : BitVec 16)
  /-- R138. Loads a sign-extended image byte. -/
  | ilby (t : Nat) (r : RoomId) (rd ra : Reg) (imm : BitVec 16)
  /-- R138. Loads a zero-extended image byte. -/
  | ilbyu (t : Nat) (r : RoomId) (rd ra : Reg) (imm : BitVec 16)
  /-- R138. Stores a word into the room's image write set. -/
  | isw (t : Nat) (r : RoomId) (rd ra : Reg) (imm : BitVec 16)
  /-- R138. Stores a halfword into the room's image write set. -/
  | ish (t : Nat) (r : RoomId) (rd ra : Reg) (imm : BitVec 16)
  /-- R138. Stores a byte into the room's image write set. -/
  | isby (t : Nat) (r : RoomId) (rd ra : Reg) (imm : BitVec 16)
  /-- R114. Loads an image bit into rd and B. -/
  | ldb (t : Nat) (r : RoomId) (rd ra : Reg) (imm : BitVec 16)
  /-- R114. Stores bit 0 of rd into an image bit. -/
  | stb (t : Nat) (r : RoomId) (rd ra : Reg) (imm : BitVec 16)
  /-- R139. Sets an image bit when B is 1. -/
  | set (t : Nat) (r : RoomId) (ra : Reg) (imm : BitVec 16)
  /-- R139. Clears an image bit when B is 1. -/
  | rst (t : Nat) (r : RoomId) (ra : Reg) (imm : BitVec 16)
  /-- R140. Delivers the rising-edge count of a digital input since the previous release. -/
  | edgeR (t : Nat) (r : RoomId) (rd ra : Reg) (imm : BitVec 16)
  /-- R140. Delivers the falling-edge count of a digital input since the previous release. -/
  | edgeF (t : Nat) (r : RoomId) (rd ra : Reg) (imm : BitVec 16)
  /-- R140. Delivers the sum of both edge counts of a digital input. -/
  | edgeA (t : Nat) (r : RoomId) (rd ra : Reg) (imm : BitVec 16)
  /-- R148. On-delay timer on a 16-byte record using logical time. -/
  | ton (t : Nat) (r : RoomId) (rd ra : Reg) (imm : BitVec 16)
  /-- R148. Off-delay timer on a 16-byte record using logical time. -/
  | tof (t : Nat) (r : RoomId) (rd ra : Reg) (imm : BitVec 16)
  /-- R148. Pulse timer on a 16-byte record using logical time. -/
  | tp (t : Nat) (r : RoomId) (rd ra : Reg) (imm : BitVec 16)
  /-- R148. Accumulating timer on a 16-byte record. -/
  | tacc (t : Nat) (r : RoomId) (rd ra : Reg) (imm : BitVec 16)
  /-- R150. Up-counter on a rising edge of B. -/
  | ctu (t : Nat) (r : RoomId) (rd ra : Reg) (imm : BitVec 16)
  /-- R150. Down-counter on a rising edge of B. -/
  | ctd (t : Nat) (r : RoomId) (rd ra : Reg) (imm : BitVec 16)
  /-- R141. Evaluates 32 three-input truth-table functions at once. -/
  | bool3 (t : Nat) (r : RoomId) (rd ra rb rc : Reg) (tt : Byte)
  /-- R143. Issues a signed 64-bit multiply into MLO and MHI. -/
  | mul (t : Nat) (r : RoomId) (ra rb : Reg)
  /-- R143. Issues an unsigned 64-bit multiply into MLO and MHI. -/
  | mulu (t : Nat) (r : RoomId) (ra rb : Reg)
  /-- R144. Issues a signed multiply-accumulate into the accumulator. -/
  | mac (t : Nat) (r : RoomId) (ra rb : Reg)
  /-- R144. Issues an unsigned multiply-accumulate into the accumulator. -/
  | macu (t : Nat) (r : RoomId) (ra rb : Reg)
  /-- R143. Issues a binary32 addition into FRS. -/
  | fadd (t : Nat) (r : RoomId) (ra rb : Reg)
  /-- R143. Issues a binary32 subtraction into FRS. -/
  | fsub (t : Nat) (r : RoomId) (ra rb : Reg)
  /-- R143. Issues a binary32 multiplication into FRS. -/
  | fmul (t : Nat) (r : RoomId) (ra rb : Reg)
  /-- R143. Issues a binary32 division into FRS. -/
  | fdiv (t : Nat) (r : RoomId) (ra rb : Reg)
  /-- R145. Issues a binary32 minimum into FRS. -/
  | fmin (t : Nat) (r : RoomId) (ra rb : Reg)
  /-- R145. Issues a binary32 maximum into FRS. -/
  | fmax (t : Nat) (r : RoomId) (ra rb : Reg)
  /-- R145. Issues a binary32 comparison whose code goes to FRS. -/
  | fcmp (t : Nat) (r : RoomId) (ra rb : Reg)
  /-- R145. Issues a signed integer to binary32 conversion. -/
  | itof (t : Nat) (r : RoomId) (ra : Reg)
  /-- R145. Issues an unsigned integer to binary32 conversion. -/
  | utof (t : Nat) (r : RoomId) (ra : Reg)
  /-- R145. Issues a binary32 to signed integer conversion. -/
  | ftoi (t : Nat) (r : RoomId) (ra : Reg)
  /-- R124. Issues a signed division into QUO and REM. -/
  | div (t : Nat) (r : RoomId) (ra rb : Reg)
  /-- R124. Issues an unsigned division into QUO and REM. -/
  | divu (t : Nat) (r : RoomId) (ra rb : Reg)
  /-- R122. Moves a special result register into rd. -/
  | mfs (t : Nat) (r : RoomId) (rd : Reg) (spr : Spr)
  /-- R122. Moves ra into a special result register. -/
  | mts (t : Nat) (r : RoomId) (spr : Spr) (ra : Reg)
  /-- R131. Reads a feature register into rd. -/
  | rdfeat (t : Nat) (r : RoomId) (rd : Reg) (feat : Fin 4)
  /-- R152. Ends the room's period and sets it WAITING. -/
  | rest (t : Nat) (r : RoomId)
  /-- R153. Presents the application key to the night porter. -/
  | wdk (t : Nat) (r : RoomId) (ra : Reg)
  /-- R109. A word not admitted, fetched after code change, passes as an instruction that writes nothing. -/
  | invalidWordFetched (t : Nat) (r : RoomId) (word : Word)
  /-- R78. The multiply unit writes MLO and MHI of the issuing room 24 cycles after fetch. -/
  | macResultWrite (t : Nat) (r : RoomId)
  /-- R78. The floating-point unit writes FRS of the issuing room at its latency. -/
  | fpuResultWrite (t : Nat) (r : RoomId)
  /-- R78. The divider writes QUO and REM of the issuing room 144 cycles after fetch. -/
  | dividerResultWrite (t : Nat) (r : RoomId)
  /-- R97. The decode stage finds a too-early read, and a hardware fault follows after write-back. -/
  | distanceRuleBroken (t : Nat) (r : RoomId)
  /-- R185. At every base tick the sequencer commits, freezes staging, aligns groups, releases rooms and takes snapshots. -/
  | baseTick (t : Nat)
  /-- R85. At release plus period minus 2 us the pending values are frozen and the room is judged. -/
  | taskDeadline (t : Nat) (r : RoomId)
  /-- R186. Each group switches its received outputs at the scheduled instant on its field time. -/
  | outputCommitApply (t : Nat) (g : GrpId)
  /-- R74. Slot 0 of each base tick on each lane serves the scrubber, self-test or value edits. -/
  | maintenanceSlot (t : Nat) (lane : LaneId)
  /-- R95. The scrubber reads and checks one word in a maintenance or idle slot. -/
  | scrubRead (t : Nat) (rd : EccRead) (addr : Nat) (res : EccResult)
  /-- R96. Self-test writes, reads and injects errors into a bank's test word. -/
  | memorySelfTest (t : Nat) (bank : Nat) (test : SelfTest)
  /-- R98. Evidence is latched, fetching and heartbeats stop and output hand-over ends. -/
  | hardwareFault (t : Nat) (ev : FaultEvidence)
  /-- R98. Reset is entered 1 ms after a hardware fault with the latched cause. -/
  | faultResetEntry (t : Nat)
  /-- R69. Reset ends, TB starts at 0 and the boot ROM selects a steward image. -/
  | resetExit (t : Nat)
  /-- R69. The steward runs, reloads evidence, checks the guestbook and answers BAR0. -/
  | stewardStart (t : Nat)
  /-- R69. After judgement the stored code, retained data, modes, CAN ports and role are set up. -/
  | startupConfigLoad (t : Nat) (digestsOk : Bool) (engines : List Bool)
  /-- R383. The pair role is settled at start-up from QUIET_IN, HELLO, PREF and cable state. -/
  | roleSettle (t : Nat)
  /-- R70. The steward starts the stored configuration without a command when permitted. -/
  | autoStart (t : Nat)
  /-- R69. The PLL locks and the first judgement window starts. -/
  | pllLock (t : Nat)
  /-- R57. A 31.25 ms window count of the main clock ends and is judged. -/
  | clockMonitorWindow (t : Nat) (count : Nat)
  /-- R58. No judgement within 1 s of reference resets with cause 0x06. -/
  | clockJudgementTimeout (t : Nat)
  /-- R60. PLL loss of lock resets the module with cause 0x05. -/
  | pllLossOfLock (t : Nat)
  /-- R62. No reference edge for 1 ms switches the monitor to a group RC oscillator. -/
  | rtcOscillatorStopped (t : Nat)
  /-- R63. A newly available reference resumes judgement or monitoring. -/
  | referenceAppears (t : Nat)
  /-- R48. VSUP above V_ON for 1 ms asserts power-on reset and starts hold-up charging. -/
  | vsupValid (t : Nat)
  /-- R49. Hold-up storage is charged, NV writes are permitted. -/
  | holdUpCharged (t : Nat)
  /-- R50. VSUP below V_PF for 2 us asserts PFWARN_N and ends command acceptance. -/
  | vsupFail (t : Nat)
  /-- R50. After the NV writes the module enters reset with PFWARN_N still asserted. -/
  | powerFailResetEntry (t : Nat)
  /-- R35. RESET_N low for 1 us resets the whole module and every supervisor. -/
  | resetNAssert (t : Nat)
  /-- R35. RESET_N deasserted lets the module leave reset 1 ms later. -/
  | resetNDeassert (t : Nat)
  /-- R36. PERST_N resets only the PCIe endpoint and ring state. -/
  | perstNAssert (t : Nat)
  /-- R36. PERST_N deasserted lets the link train again. -/
  | perstNDeassert (t : Nat)
  /-- R26. Base-plate temperature is measured once per second and threshold records written. -/
  | temperatureMeasure (t : Nat) (centi : Int)
  /-- R261. The supervisor's count from the last alignment reaches T and safe states are applied. -/
  | supervisorTimeout (t : Nat) (g : GrpId)
  /-- R40. QUIET_IN silences outputs and CAN transmitters in hardware. -/
  | quietInAssert (t : Nat)
  /-- R325. QUIET_IN released leaves the pair protocol to decide who drives. -/
  | quietInDeassert (t : Nat)
  /-- R264. L+ below 16.5 V for 100 us unpowers the group's switches. -/
  | lplusLost (t : Nat) (g : GrpId)
  /-- R265. L+ above 18 V for 10 ms restarts the supervisor with power-on safe states. -/
  | lplusReturn (t : Nat) (g : GrpId) (volts10mV : Nat)
  /-- R265. The steward reloads the group's modes and programmed safe states. -/
  | groupConfigReload (t : Nat) (g : GrpId)
  /-- R241. The comparator of an input sees a change of raw level. -/
  | inputRawChange (t : Nat) (ch : ChanId) (level : Bool)
  /-- R242. A level held for the filter time is accepted as an edge with its stamp. -/
  | inputFilterAccept (t : Nat) (ch : ChanId)
  /-- R243. Input current below 0.2 mA for 100 ms sets OPEN, or clears it. -/
  | wireBreak (t : Nat) (ch : ChanId) (set : Bool)
  /-- R247. An overloaded output limits its current to 0.8-1.2 A. -/
  | currentLimit (t : Nat) (ch : ChanId) (on : Bool) (milliamp : Nat)
  /-- R247. 1 ms of limiting or a thermal limit switches the channel OFF and holds it. -/
  | shortCircuit (t : Nat) (ch : ChanId) (thermal : Bool)
  /-- R249. Group current above its limit sheds channels. -/
  | groupOvercurrent (t : Nat) (g : GrpId) (milliamps : List Nat)
  /-- R251. The clamp energy of a switch-off is measured and judged against EOFF. -/
  | demagEnergyMeasured (t : Nat) (ch : ChanId) (millijoule : Nat)
  /-- R252. The switch-off rate interval ends and a safe state of ON switches on. -/
  | rateHoldEnd (t : Nat) (ch : ChanId)
  /-- R254. Readback differing from the applied value for DISCT sets or clears DISC. -/
  | readbackDiscrepancy (t : Nat) (ch : ChanId) (set : Bool)
  /-- R255. Open-load condition held 20 ms sets or clears OPEN. -/
  | openLoad (t : Nat) (ch : ChanId) (set : Bool)
  /-- R271. A 1 ms engine frame runs its reference slot and channel slots. -/
  | engineFrame (t : Nat) (g : GrpId) (frame : EngineFrame)
  /-- R296. The spare engine is connected to the failed group 0.5 ms later. -/
  | spareConnect (t : Nat)
  /-- R296. The spare runs the group's admitted schedule from a frame start. -/
  | spareScheduleStart (t : Nat)
  /-- R277. An analogue input range or wiring flag sets or clears after its time. -/
  | analogueInputFlag (t : Nat) (ch : ChanId) (flag : AFlag) (set : Bool)
  /-- R283. An analogue output fault condition held for its time sets its flag. -/
  | analogueOutputFault (t : Nat) (ch : ChanId) (flag : AFlag) (set : Bool)
  /-- R314. A valid frame maps its bytes into staging for every matching filter. -/
  | canFrameReceived (t : Nat) (k : PortId) (frame : CanFrame)
  /-- R318. A window opens and its buffer's committed bytes are queued as a frame. -/
  | canWindowOpen (t : Nat) (k : PortId) (entry : Nat)
  /-- R319. The port starts a transmission attempt of a queued frame. -/
  | canTxAttempt (t : Nat) (k : PortId) (tdelay : Byte)
  /-- R319. A transmission attempt ends, sent, lost in arbitration or in error. -/
  | canTxComplete (t : Nat) (k : PortId) (result : TxResult)
  /-- R321. A frame not sent by CLOSE minus T is withdrawn and counted. -/
  | canFrameWithdraw (t : Nat) (k : PortId) (entry : Nat)
  /-- R322. A bus error updates counters and error states per ISO 11898-1. -/
  | canError (t : Nat) (k : PortId) (err : CanErr)
  /-- R322. Bus-off recovery completes after 128 recessive sequences. -/
  | canRecoveryComplete (t : Nat) (k : PortId)
  /-- R323. CAN_V+ lost sets NOPWR, withdraws frames and zeroes counters. -/
  | canVplusLost (t : Nat) (k : PortId)
  /-- R323. CAN_V+ returned restores termination and re-integrates the port. -/
  | canVplusReturn (t : Nat) (k : PortId)
  /-- R329. 1 s in DATA without a BRS frame locks at 2 Mbit/s. -/
  | rateDetectionDataTimeout (t : Nat) (k : PortId)
  /-- R329. The CAN_DET.TIME timeout ends detection in FAILED. -/
  | rateDetectionTimeout (t : Nat) (k : PortId)
  /-- R507. The transmitter releases a bus held dominant too long. -/
  | dominantTimeOut (t : Nat) (k : PortId)
  /-- R322. Write of CAN_CTRL.RECOVER starts bus-off recovery. -/
  | canRecover (t : Nat) (k : PortId)
  /-- R46. Write of CAN_CTRL.TERM sets the termination latch and stores it in NV. -/
  | canTermWrite (t : Nat) (k : PortId) (on : Bool)
  /-- R329. Write of CAN_DET.START starts rate detection or sets REFUSED. -/
  | canDetStart (t : Nat) (k : PortId)
  /-- R329. Write of CAN_DET.ABORT ends a detection in FAILED. -/
  | canDetAbort (t : Nat) (k : PortId)
  /-- R71. Write of CLK_RSTCTRL with the key resets the module with cause 0x0A. -/
  | driverReset (t : Nat) (val : Word)
  /-- R101. Write of SCAN_CLR.ECC clears the ECC counters. -/
  | scanClrEcc (t : Nat)
  /-- R101. Write of SCAN_CLR.PEAK clears peak, response and IDLEMIN values. -/
  | scanClrPeak (t : Nat)
  /-- R100. Write of SCAN_CLR.FEV clears the hardware-fault evidence. -/
  | scanClrFev (t : Nat)
  /-- R415. Write of NP_CLR.EV clears the night-porter evidence. -/
  | npClrEv (t : Nat)
  /-- R439. Keyed write of NV_PROT sets BP or LOCK. -/
  | nvProtWrite (t : Nat) (val : Word)
  /-- R487. Keyed write of SEC_CTRL.CONFIRM confirms a TRIAL image. -/
  | confirm (t : Nat) (val : Word)
  /-- R480. SEC_OWNCTRL ACTION 1 burns the lowest free owner slot. -/
  | ownerKeyEnrol (t : Nat) (val : Word)
  /-- R480. SEC_OWNCTRL ACTION 2 revokes an owner slot. -/
  | ownerKeyRevoke (t : Nat) (val : Word)
  /-- R404. Write of PAIR_CFG takes effect at once and is stored in the role record. -/
  | pairCfgWrite (t : Nat) (val : Word)
  /-- R427. Write of RTC_TRIM switches the crystal trim and copies it to NV. -/
  | rtcTrimWrite (t : Nat) (val : Word)
  /-- R432. A word write reaches the saddlebag in the backup domain. -/
  | saddlebagWrite (t : Nat) (w : Fin 32) (val : Word)
  /-- R421. A read of RTC_SUB, RTC_TIME or RTC_DATE takes or ends a snapshot. -/
  | rtcGroupRead (t : Nat) (reg : RtcReg) (path : RtcPath)
  /-- R421. A snapshot ends 1 s after it was taken. -/
  | rtcSnapshotExpiry (t : Nat) (path : RtcPath)
  /-- R336. A read of the low word of a 64-bit pair latches the high word. -/
  | splitValueRead (t : Nat) (pair : SplitPair)
  /-- R8. A write to a register with no row of its own sets RW fields and clears W1C bits. -/
  | registerWrite (t : Nat) (off : BitVec 16) (val : Word) (be : BitVec 4)
  /-- R341. HOST_CTRL.APPLY reads and checks the set-up table and starts polling. -/
  | apply (t : Nat) (table bell : Option (List Byte))
  /-- R342. HOST_CTRL.DISABLE stops polling and clears every ring. -/
  | disable (t : Nat)
  /-- R333. Bus Master Enable cleared or D3hot pauses all module memory requests. -/
  | busMasterDisable (t : Nat)
  /-- R333. Both conditions restored resume work at the next bell interval. -/
  | busMasterEnable (t : Nat)
  /-- R344. Once per bell interval the module reads the host half of the bell page. -/
  | bellPoll (t : Nat) (bell : Option (List Byte))
  /-- R344. At each interval end CYCLE and STATE are written and interrupts sent. -/
  | bellIntervalEnd (t : Nat)
  /-- R334. A failed module request fails the command or stops all rings. -/
  | dmaFailure (t : Nat) (target : DmaTarget)
  /-- R351. A completion held on a full ring is written once the driver frees space. -/
  | heldCompletionWrite (t : Nat) (q : RingId)
  /-- R348. A command with an unknown opcode completes with 0x0102. -/
  | unknownCommand (t : Nat) (c : RingId) (e : CmdEntry) (op : Byte)
  /-- R354. Command 0x10 loads a waybill into the module. -/
  | waybillLoad (t : Nat) (c : RingId) (e : CmdEntry) (dma : Option (List Byte))
  /-- R155. Command 0x11 starts admission of the loaded waybill. -/
  | admitWaybill (t : Nat) (c : RingId) (e : CmdEntry)
  /-- R157. The innkeeper ends an examination, storing or refusing with a detail record. -/
  | admissionComplete (t : Nat) (ms : Nat)
  /-- R355. Command 0x12 sets the run flag and schedules a start tick. -/
  | start (t : Nat) (c : RingId) (e : CmdEntry)
  /-- R355. At the start tick rooms are set up and first released. -/
  | startTick (t : Nat)
  /-- R356. Command 0x13 schedules a stop tick. -/
  | stop (t : Nat) (c : RingId) (e : CmdEntry)
  /-- R356. At the stop tick commits take effect, rooms stop and pending edits are discarded. -/
  | stopTick (t : Nat)
  /-- R356. 50 us after the stop tick every output takes its safe state on command. -/
  | stopSafeStates (t : Nat)
  /-- R214. Command 0x20 checks and queues a value-edit batch. -/
  | valueEdit (t : Nat) (c : RingId) (e : CmdEntry) (dma : Option (List Byte))
  /-- R215. At t_e the batch is written in the maintenance slots. -/
  | editBatchApply (t : Nat)
  /-- R220. Command 0x21 examines a swap waybill while the application runs. -/
  | swapStage (t : Nat) (c : RingId) (e : CmdEntry)
  /-- R220. Command 0x21 with flag bit 0 discards a staged swap. -/
  | swapDiscard (t : Nat) (c : RingId) (e : CmdEntry)
  /-- R225. Command 0x22 schedules the switch to a staged swap. -/
  | swapCommit (t : Nat) (c : RingId) (e : CmdEntry)
  /-- R225. At t_s changed rooms reset to the new version and migration runs. -/
  | swapSwitchTick (t : Nat)
  /-- R229. Command 0x22 with flag bit 0 stores the swap on trial as the configuration. -/
  | swapRelease (t : Nat) (c : RingId) (e : CmdEntry)
  /-- R228. Command 0x23 schedules a return to the old versions. -/
  | swapRollback (t : Nat) (c : RingId) (e : CmdEntry)
  /-- R228. At t_r the old versions resume with the reverse migration. -/
  | rollbackTick (t : Nat)
  /-- R357. Command 0x30 queues a read of a variable at a release. -/
  | variableRead (t : Nat) (c : RingId) (e : CmdEntry)
  /-- R357. The variable's bytes are read in the maintenance slots of the release. -/
  | variableReadApply (t : Nat)
  /-- R358. Command 0x31 queues a one-entry batch for a chosen release. -/
  | variableWriteAtRelease (t : Nat) (c : RingId) (e : CmdEntry)
  /-- R293. Command 0x40 step 1 measures the low calibration point. -/
  | calibrationLowPoint (t : Nat) (c : RingId) (e : CmdEntry) (mean : Int) (ok : Bool)
  /-- R293. Command 0x40 step 2 measures the high calibration point. -/
  | calibrationHighPoint (t : Nat) (c : RingId) (e : CmdEntry) (mean : Int) (ok : Bool)
  /-- R293. Command 0x40 step 3 computes and stores the user trim. -/
  | calibrationStore (t : Nat) (c : RingId) (e : CmdEntry)
  /-- R293. Command 0x40 step 4 discards the points held. -/
  | calibrationDiscard (t : Nat) (c : RingId) (e : CmdEntry)
  /-- R293. Command 0x40 step 5 removes the user trim. -/
  | factoryCalibration (t : Nat) (c : RingId) (e : CmdEntry)
  /-- R298. Command 0x41 returns a group to its own engine at a frame start. -/
  | spareEngineReturn (t : Nat) (c : RingId) (e : CmdEntry)
  /-- R423. Command 0x50 checks and stages a new calendar time. -/
  | rtcSet (t : Nat) (c : RingId) (e : CmdEntry)
  /-- R423. At a 32.768 kHz edge the staged time is committed and the latch set valid. -/
  | rtcSetCommit (t : Nat)
  /-- R424. Command 0x51 with flag 0 schedules adding one hour. -/
  | summerTimeAdd (t : Nat) (c : RingId) (e : CmdEntry)
  /-- R424. Command 0x51 with flag 1 schedules subtracting one hour. -/
  | summerTimeSubtract (t : Nat) (c : RingId) (e : CmdEntry)
  /-- R424. At the next second boundary the hour steps and DST changes. -/
  | summerTimeStep (t : Nat)
  /-- R428. Command 0x52 programs a comparator. -/
  | alarmSetUp (t : Nat) (c : RingId) (e : CmdEntry)
  /-- R430. The calendar takes a new value at a second boundary. -/
  | rtcSecond (t : Nat)
  /-- R429. Comparator 2's countdown expires and sets A2. -/
  | countdownExpiry (t : Nat)
  /-- R418. Backup voltage below 1.65 V clears the retention latch. -/
  | backupVoltageLow (t : Nat)
  /-- R453. Command 0x60 writes a driver record under the two-slot rule. -/
  | nvRecordWrite (t : Nat) (c : RingId) (e : CmdEntry) (dma : Option (List Byte))
  /-- R454. Command 0x61 returns the newest valid copy of a record. -/
  | nvRecordRead (t : Nat) (c : RingId) (e : CmdEntry)
  /-- R436. A page program ends with read-back, retry or failure, and the next starts. -/
  | nvPageProgramComplete (t : Nat) (ok : Bool)
  /-- R450. Complete points are folded into the base image in the background. -/
  | journalFold (t : Nat)
  /-- R446. Every 0.1 h of VSUP valid the hours count is incremented. -/
  | hoursIncrement (t : Nat)
  /-- R463. A queued record is placed in a free or replaceable slot of the book. -/
  | guestbookRecordWrite (t : Nat)
  /-- R462. A repeated record is rewritten at most every 100 ms and 1 s after the last repeat. -/
  | guestbookRepeatRewrite (t : Nat)
  /-- R467. Command 0x90 copies guestbook slots to the host. -/
  | guestbookRead (t : Nat) (c : RingId) (e : CmdEntry)
  /-- R362. At every DECIM-th commit of the source task a buffer is written with stamps. -/
  | publication (t : Nat) (p : Fin 4)
  /-- R395. Command 0x70 proposes a planned switch to the relief. -/
  | pairSwitch (t : Nat) (c : RingId) (e : CmdEntry)
  /-- R393. At S the primary stops driving and the relief takes the primary role. -/
  | plannedSwitch (t : Nat)
  /-- R394. A preferred relief in step for HOLD seconds proposes a switch back. -/
  | reversion (t : Nat)
  /-- R233. No relief confirmation by 20 base ticks before the switch abandons the command. -/
  | confirmTimeout (t : Nat)
  /-- R398. Command 0x71 starts resynchronisation again. -/
  | resync (t : Nat) (c : RingId) (e : CmdEntry)
  /-- R397. At a common release J the relief joins when every room's data arrived. -/
  | joinAttempt (t : Nat) (arrived : Bool) (blockRoom : Nat)
  /-- R484. Command 0x80 erases and programs a chunk of the inactive image slot. -/
  | updateChunk (t : Nat) (c : RingId) (e : CmdEntry) (dma : Option (List Byte))
  /-- R486. Command 0x81 checks the written slot, marks it TRIAL and resets. -/
  | activate (t : Nat) (c : RingId) (e : CmdEntry)
  /-- R490. Command 0x82 writes a signed attestation report. -/
  | attest (t : Nat) (c : RingId) (e : CmdEntry)
  /-- R487. After 600 s on a TRIAL image the steward confirms it. -/
  | trialConfirm (t : Nat)
  /-- R375. Training and HELLO exchange bring the post road up. -/
  | postRoadLinkUp (t : Nat)
  /-- R375. Loss of symbol lock for 1 us takes the link down and restarts training. -/
  | postRoadLinkDown (t : Nat)
  /-- R377. A HELLO is sent every 1 ms while the link is up. -/
  | helloSend (t : Nat)
  /-- R377. A received HELLO gives the partner's identity, role and configuration. -/
  | hello (t : Nat) (payload : List Byte)
  /-- R378. Each module sends a HEARTBEAT every 10 us. -/
  | heartbeatSend (t : Nat)
  /-- R378. A received HEARTBEAT updates phase measurement and partner state. -/
  | heartbeat (t : Nat) (payload : List Byte)
  /-- R378. No heartbeat 10 us after the previous one counts as missing. -/
  | heartbeatMissing (t : Nat)
  /-- R390. The relief becomes primary at its next base tick and asserts QUIET_OUT. -/
  | takeover (t : Nat)
  /-- R379. The relief receives the primary's INPUT frame of a base tick. -/
  | input (t : Nat) (payload : List Byte)
  /-- R387. The primary receives the relief's DIGEST frame. -/
  | digest (t : Nat) (payload : List Byte)
  /-- R387. No DIGEST by t plus 100 us makes the primary send OUTSTEP. -/
  | digestLate (t : Nat)
  /-- R390. A received power-fail notice makes the relief take over at the named tick. -/
  | powerfail (t : Nat) (payload : List Byte)
  /-- R232. A relief receives a forwarded value-edit batch with its t_e. -/
  | edit (t : Nat) (payload : List Byte)
  /-- R233. A SWAP control message proposes, confirms, rolls back or releases a swap. -/
  | swap (t : Nat) (payload : List Byte)
  /-- R356. A relief receives the stop tick from the primary. -/
  | stopMessage (t : Nat) (payload : List Byte)
  /-- R393. A SWITCH message proposes, confirms or refuses a planned switch. -/
  | switch (t : Nat) (payload : List Byte)
  /-- R387. A relief receives the primary's out-of-step notice. -/
  | outstep (t : Nat) (payload : List Byte)
  /-- R397. A JOIN message reports a join attempt and its outcome. -/
  | join (t : Nat) (payload : List Byte)
  /-- R400. The primary reports its switch current for a proof window. -/
  | proof (t : Nat) (payload : List Byte)
  /-- R388. The primary receives the relief's discrepancy map. -/
  | disc (t : Nat) (payload : List Byte)
  /-- R385. The relief receives the primary's stored waybill and admits it. -/
  | waybill (t : Nat) (payload : List Byte)
  /-- R396. The relief receives a resynchronisation block. -/
  | stream (t : Nat) (block : StreamBlock)
  /-- R388. A channel differing from the frame for DTIME is marked discrepant. -/
  | inputDiscrepancy (t : Nat) (ch : ChanId) (set : Bool)
  /-- R399. The relief closes its switch in parallel 240 us before the commit. -/
  | proofWindowOpen (t : Nat) (ch : ChanId)
  /-- R400. The relief opens its switch and judges the proof. -/
  | proofWindowClose (t : Nat) (ch : ChanId) (milliamp : Nat)
  /-- R402. Hourly the proof record is written and ages compared with AGELIM. -/
  | proofAgeUpdate (t : Nat)
  /-- R409. The steward presents its key at the night porter's internal port. -/
  | stewardKey (t : Nat) (key : BitVec 16)
  /-- R410. At the closing cycle missing keys are judged as service faults. -/
  | npWindowClose (t : Nat)
  /-- R412. The second period ends without recovery and the night porter expires. -/
  | npSecondPeriodEnd (t : Nat)
  /-- R413. After the started NV program completes the module resets with cause 0x04. -/
  | npResetEntry (t : Nat)
  /-- R51. The hold-up storage runs out while VSUP is still absent, so the logic becomes unpowered and a later return is a power-on with cause 0x01 instead of 0x02. -/
  | holdUpExhausted (t : Nat)
  /-- R392. The J2 PAIR_PRESENT line changes level, for example going high and so ending the QUIET_OUT assertion of a module that took over. -/
  | pairPresentChange (t : Nat) (pins : PairPins)
  /-- R18. The PCIe link leaves L0 from the host side while rings are active, and a host-silent record with source 1 is written. -/
  | pcieLinkDown (t : Nat)
  /-- R469. A completion held on a full completion ring for 1 s writes a host-silent record with source 4. -/
  | completionHeldTimeout (t : Nat) (q : RingId)
  /-- R367. Unmasking an MSI-X vector in the table sends the message whose pending bit was set while it was masked. -/
  | msixUnmask (t : Nat) (v : Fin 16)
  /-- R484. The flash erase and program of an update chunk end, NEXT advances and the chunk command completes. -/
  | updateChunkComplete (t : Nat)
  /-- R229. The flash and journal writes of a swap release end with the final record update, and the new configuration becomes the stored one. -/
  | swapReleaseComplete (t : Nat)
  /-- R323. After CAN_V+ returns, the port has integrated to the bus, sets CAN_EVT.PWRBACK and arms entries from the next bus cycle. -/
  | canPortIntegrated (t : Nat) (k : PortId)
  /-- R376. A post-road segment with a CRC error or an out-of-order SEQ is discarded, counted in PAIR_LINK.CRCERR, and its frame becomes incomplete. -/
  | discardedSegment (t : Nat)
deriving DecidableEq, Repr

/-- The cycle at which a command happens. -/
def Instr.time : Instr → Nat
  | .nop t _ => t
  | .add t _ _ _ _ => t
  | .sub t _ _ _ _ => t
  | .adc t _ _ _ _ => t
  | .sbc t _ _ _ _ => t
  | .and t _ _ _ _ => t
  | .or t _ _ _ _ => t
  | .xor t _ _ _ _ => t
  | .andn t _ _ _ _ => t
  | .shl t _ _ _ _ => t
  | .shr t _ _ _ _ => t
  | .sar t _ _ _ _ => t
  | .cmp t _ _ _ => t
  | .min t _ _ _ _ => t
  | .max t _ _ _ _ => t
  | .minu t _ _ _ _ => t
  | .maxu t _ _ _ _ => t
  | .sel t _ _ _ _ => t
  | .getb t _ _ => t
  | .addi t _ _ _ _ => t
  | .cmpi t _ _ _ => t
  | .andi t _ _ _ _ => t
  | .ori t _ _ _ _ => t
  | .xori t _ _ _ _ => t
  | .lui t _ _ _ => t
  | .shli t _ _ _ _ => t
  | .shri t _ _ _ _ => t
  | .sari t _ _ _ _ => t
  | .tst t _ _ _ => t
  | .bext t _ _ _ _ _ => t
  | .bins t _ _ _ _ _ => t
  | .lpi t _ _ _ => t
  | .lpr t _ _ _ _ => t
  | .loop t _ _ _ => t
  | .jtab t _ _ _ => t
  | .b t _ _ _ => t
  | .lw t _ _ _ _ => t
  | .lh t _ _ _ _ => t
  | .lhu t _ _ _ _ => t
  | .lby t _ _ _ _ => t
  | .lbyu t _ _ _ _ => t
  | .sw t _ _ _ _ => t
  | .sh t _ _ _ _ => t
  | .sby t _ _ _ _ => t
  | .ilw t _ _ _ _ => t
  | .ilh t _ _ _ _ => t
  | .ilhu t _ _ _ _ => t
  | .ilby t _ _ _ _ => t
  | .ilbyu t _ _ _ _ => t
  | .isw t _ _ _ _ => t
  | .ish t _ _ _ _ => t
  | .isby t _ _ _ _ => t
  | .ldb t _ _ _ _ => t
  | .stb t _ _ _ _ => t
  | .set t _ _ _ => t
  | .rst t _ _ _ => t
  | .edgeR t _ _ _ _ => t
  | .edgeF t _ _ _ _ => t
  | .edgeA t _ _ _ _ => t
  | .ton t _ _ _ _ => t
  | .tof t _ _ _ _ => t
  | .tp t _ _ _ _ => t
  | .tacc t _ _ _ _ => t
  | .ctu t _ _ _ _ => t
  | .ctd t _ _ _ _ => t
  | .bool3 t _ _ _ _ _ _ => t
  | .mul t _ _ _ => t
  | .mulu t _ _ _ => t
  | .mac t _ _ _ => t
  | .macu t _ _ _ => t
  | .fadd t _ _ _ => t
  | .fsub t _ _ _ => t
  | .fmul t _ _ _ => t
  | .fdiv t _ _ _ => t
  | .fmin t _ _ _ => t
  | .fmax t _ _ _ => t
  | .fcmp t _ _ _ => t
  | .itof t _ _ => t
  | .utof t _ _ => t
  | .ftoi t _ _ => t
  | .div t _ _ _ => t
  | .divu t _ _ _ => t
  | .mfs t _ _ _ => t
  | .mts t _ _ _ => t
  | .rdfeat t _ _ _ => t
  | .rest t _ => t
  | .wdk t _ _ => t
  | .invalidWordFetched t _ _ => t
  | .macResultWrite t _ => t
  | .fpuResultWrite t _ => t
  | .dividerResultWrite t _ => t
  | .distanceRuleBroken t _ => t
  | .baseTick t => t
  | .taskDeadline t _ => t
  | .outputCommitApply t _ => t
  | .maintenanceSlot t _ => t
  | .scrubRead t _ _ _ => t
  | .memorySelfTest t _ _ => t
  | .hardwareFault t _ => t
  | .faultResetEntry t => t
  | .resetExit t => t
  | .stewardStart t => t
  | .startupConfigLoad t _ _ => t
  | .roleSettle t => t
  | .autoStart t => t
  | .pllLock t => t
  | .clockMonitorWindow t _ => t
  | .clockJudgementTimeout t => t
  | .pllLossOfLock t => t
  | .rtcOscillatorStopped t => t
  | .referenceAppears t => t
  | .vsupValid t => t
  | .holdUpCharged t => t
  | .vsupFail t => t
  | .powerFailResetEntry t => t
  | .resetNAssert t => t
  | .resetNDeassert t => t
  | .perstNAssert t => t
  | .perstNDeassert t => t
  | .temperatureMeasure t _ => t
  | .supervisorTimeout t _ => t
  | .quietInAssert t => t
  | .quietInDeassert t => t
  | .lplusLost t _ => t
  | .lplusReturn t _ _ => t
  | .groupConfigReload t _ => t
  | .inputRawChange t _ _ => t
  | .inputFilterAccept t _ => t
  | .wireBreak t _ _ => t
  | .currentLimit t _ _ _ => t
  | .shortCircuit t _ _ => t
  | .groupOvercurrent t _ _ => t
  | .demagEnergyMeasured t _ _ => t
  | .rateHoldEnd t _ => t
  | .readbackDiscrepancy t _ _ => t
  | .openLoad t _ _ => t
  | .engineFrame t _ _ => t
  | .spareConnect t => t
  | .spareScheduleStart t => t
  | .analogueInputFlag t _ _ _ => t
  | .analogueOutputFault t _ _ _ => t
  | .canFrameReceived t _ _ => t
  | .canWindowOpen t _ _ => t
  | .canTxAttempt t _ _ => t
  | .canTxComplete t _ _ => t
  | .canFrameWithdraw t _ _ => t
  | .canError t _ _ => t
  | .canRecoveryComplete t _ => t
  | .canVplusLost t _ => t
  | .canVplusReturn t _ => t
  | .rateDetectionDataTimeout t _ => t
  | .rateDetectionTimeout t _ => t
  | .dominantTimeOut t _ => t
  | .canRecover t _ => t
  | .canTermWrite t _ _ => t
  | .canDetStart t _ => t
  | .canDetAbort t _ => t
  | .driverReset t _ => t
  | .scanClrEcc t => t
  | .scanClrPeak t => t
  | .scanClrFev t => t
  | .npClrEv t => t
  | .nvProtWrite t _ => t
  | .confirm t _ => t
  | .ownerKeyEnrol t _ => t
  | .ownerKeyRevoke t _ => t
  | .pairCfgWrite t _ => t
  | .rtcTrimWrite t _ => t
  | .saddlebagWrite t _ _ => t
  | .rtcGroupRead t _ _ => t
  | .rtcSnapshotExpiry t _ => t
  | .splitValueRead t _ => t
  | .registerWrite t _ _ _ => t
  | .apply t _ _ => t
  | .disable t => t
  | .busMasterDisable t => t
  | .busMasterEnable t => t
  | .bellPoll t _ => t
  | .bellIntervalEnd t => t
  | .dmaFailure t _ => t
  | .heldCompletionWrite t _ => t
  | .unknownCommand t _ _ _ => t
  | .waybillLoad t _ _ _ => t
  | .admitWaybill t _ _ => t
  | .admissionComplete t _ => t
  | .start t _ _ => t
  | .startTick t => t
  | .stop t _ _ => t
  | .stopTick t => t
  | .stopSafeStates t => t
  | .valueEdit t _ _ _ => t
  | .editBatchApply t => t
  | .swapStage t _ _ => t
  | .swapDiscard t _ _ => t
  | .swapCommit t _ _ => t
  | .swapSwitchTick t => t
  | .swapRelease t _ _ => t
  | .swapRollback t _ _ => t
  | .rollbackTick t => t
  | .variableRead t _ _ => t
  | .variableReadApply t => t
  | .variableWriteAtRelease t _ _ => t
  | .calibrationLowPoint t _ _ _ _ => t
  | .calibrationHighPoint t _ _ _ _ => t
  | .calibrationStore t _ _ => t
  | .calibrationDiscard t _ _ => t
  | .factoryCalibration t _ _ => t
  | .spareEngineReturn t _ _ => t
  | .rtcSet t _ _ => t
  | .rtcSetCommit t => t
  | .summerTimeAdd t _ _ => t
  | .summerTimeSubtract t _ _ => t
  | .summerTimeStep t => t
  | .alarmSetUp t _ _ => t
  | .rtcSecond t => t
  | .countdownExpiry t => t
  | .backupVoltageLow t => t
  | .nvRecordWrite t _ _ _ => t
  | .nvRecordRead t _ _ => t
  | .nvPageProgramComplete t _ => t
  | .journalFold t => t
  | .hoursIncrement t => t
  | .guestbookRecordWrite t => t
  | .guestbookRepeatRewrite t => t
  | .guestbookRead t _ _ => t
  | .publication t _ => t
  | .pairSwitch t _ _ => t
  | .plannedSwitch t => t
  | .reversion t => t
  | .confirmTimeout t => t
  | .resync t _ _ => t
  | .joinAttempt t _ _ => t
  | .updateChunk t _ _ _ => t
  | .activate t _ _ => t
  | .attest t _ _ => t
  | .trialConfirm t => t
  | .postRoadLinkUp t => t
  | .postRoadLinkDown t => t
  | .helloSend t => t
  | .hello t _ => t
  | .heartbeatSend t => t
  | .heartbeat t _ => t
  | .heartbeatMissing t => t
  | .takeover t => t
  | .input t _ => t
  | .digest t _ => t
  | .digestLate t => t
  | .powerfail t _ => t
  | .edit t _ => t
  | .swap t _ => t
  | .stopMessage t _ => t
  | .switch t _ => t
  | .outstep t _ => t
  | .join t _ => t
  | .proof t _ => t
  | .disc t _ => t
  | .waybill t _ => t
  | .stream t _ => t
  | .inputDiscrepancy t _ _ => t
  | .proofWindowOpen t _ => t
  | .proofWindowClose t _ _ => t
  | .proofAgeUpdate t => t
  | .stewardKey t _ => t
  | .npWindowClose t => t
  | .npSecondPeriodEnd t => t
  | .npResetEntry t => t
  | .holdUpExhausted t => t
  | .pairPresentChange t _ => t
  | .pcieLinkDown t => t
  | .completionHeldTimeout t _ => t
  | .msixUnmask t _ => t
  | .updateChunkComplete t => t
  | .swapReleaseComplete t => t
  | .canPortIntegrated t _ => t
  | .discardedSegment t => t

end Sys2Proof
end

