-- ==== Sys2Proof/Decode.lean ====
section
/-! DEFINITION. The words of the opcode table, of which no row gives bits, and the instruction words of the lanes (R106 to R110, R133 to
R151), which the table lists as commands without their encoding: a lane instruction comes as itself, and this decoder says which word of the
code store spells it. -/

namespace Sys2Proof

/-- The command that a word of `nbits` bits spells by the bits of the opcode table; no row has bits, so there is none. -/
def decodeTableWord (_nbits _w : Nat) : Option Instr := none

/-- A condition by its code (R110); 0x11 to 0x1F are reserved. -/
def decodeCond (c : Nat) : Option Cond :=
  [Cond.al, .eq, .ne, .lt, .ge, .le, .gt, .lo, .hs, .ls, .hi, .mi, .pl, .vs, .vc, .bt, .bf][c]?

/-- A special result register by its sel code (R122). -/
def decodeSpr (sel : Nat) : Option Spr := [Spr.mlo, .mhi, .frs, .quo, .rem][sel]?

/-- Major opcode 0x00, selected by func (R134). -/
def decodeLaneAlu (t : Nat) (r : RoomId) (rd ra rb : Reg) (func : Nat) : Option Instr :=
  if func = 0x000 then if rd = 0 ∧ ra = 0 ∧ rb = 0 then some (.nop t r) else none
  else if func = 0x001 then some (.add t r rd ra rb)
  else if func = 0x002 then some (.sub t r rd ra rb)
  else if func = 0x003 then some (.adc t r rd ra rb)
  else if func = 0x004 then some (.sbc t r rd ra rb)
  else if func = 0x005 then some (.and t r rd ra rb)
  else if func = 0x006 then some (.or t r rd ra rb)
  else if func = 0x007 then some (.xor t r rd ra rb)
  else if func = 0x008 then some (.andn t r rd ra rb)
  else if func = 0x009 then some (.shl t r rd ra rb)
  else if func = 0x00A then some (.shr t r rd ra rb)
  else if func = 0x00B then some (.sar t r rd ra rb)
  else if func = 0x00C then if rd = 0 then some (.cmp t r ra rb) else none
  else if func = 0x00D then some (.min t r rd ra rb)
  else if func = 0x00E then some (.max t r rd ra rb)
  else if func = 0x00F then some (.minu t r rd ra rb)
  else if func = 0x010 then some (.maxu t r rd ra rb)
  else if func = 0x011 then some (.sel t r rd ra rb)
  else if func = 0x012 then if ra = 0 ∧ rb = 0 then some (.getb t r rd) else none
  else none

/-- Major opcode 0x01, selected by func (R143); rd is zero, and rb too in the conversions. -/
def decodeLaneArith (t : Nat) (r : RoomId) (rd ra rb : Reg) (func : Nat) : Option Instr :=
  if rd ≠ 0 then none
  else if func = 0x001 then some (.mul t r ra rb)
  else if func = 0x002 then some (.mulu t r ra rb)
  else if func = 0x003 then some (.mac t r ra rb)
  else if func = 0x004 then some (.macu t r ra rb)
  else if func = 0x010 then some (.fadd t r ra rb)
  else if func = 0x011 then some (.fsub t r ra rb)
  else if func = 0x012 then some (.fmul t r ra rb)
  else if func = 0x013 then some (.fdiv t r ra rb)
  else if func = 0x014 then some (.fmin t r ra rb)
  else if func = 0x015 then some (.fmax t r ra rb)
  else if func = 0x016 then some (.fcmp t r ra rb)
  else if func = 0x017 then if rb = 0 then some (.itof t r ra) else none
  else if func = 0x018 then if rb = 0 then some (.utof t r ra) else none
  else if func = 0x019 then if rb = 0 then some (.ftoi t r ra) else none
  else if func = 0x020 then some (.div t r ra rb)
  else if func = 0x021 then some (.divu t r ra rb)
  else none

/-- The I format, major opcodes 0x02 to 0x10 (R136, R137, R142). -/
def decodeLaneImm (t : Nat) (r : RoomId) (op : Nat) (rd ra : Reg) (imm : BitVec 16) : Option Instr :=
  let n5 : BitVec 5 := imm.extractLsb' 0 5
  let w5 : BitVec 5 := imm.extractLsb' 5 5
  let short : Bool := imm.extractLsb' 5 11 == 0
  let field : Bool := imm.extractLsb' 10 6 == 0
  if op = 0x02 then some (.addi t r rd ra imm)
  else if op = 0x03 then if rd = 0 then some (.cmpi t r ra imm) else none
  else if op = 0x04 then some (.andi t r rd ra imm)
  else if op = 0x05 then some (.ori t r rd ra imm)
  else if op = 0x06 then some (.xori t r rd ra imm)
  else if op = 0x07 then if ra = 0 then some (.lui t r rd imm) else none
  else if op = 0x08 then if short then some (.shli t r rd ra n5) else none
  else if op = 0x09 then if short then some (.shri t r rd ra n5) else none
  else if op = 0x0A then if short then some (.sari t r rd ra n5) else none
  else if op = 0x0B then if short && rd == 0 then some (.tst t r ra n5) else none
  else if op = 0x0C then if field then some (.bext t r rd ra n5 w5) else none
  else if op = 0x0D then if field then some (.bins t r rd ra n5 w5) else none
  else if op = 0x0E then if ra = 0 then some (.lpi t r rd imm) else none
  else if op = 0x0F then some (.lpr t r rd ra imm)
  else if op = 0x10 then if rd = 0 then some (.jtab t r ra imm) else none
  else none

/-- The M format, major opcodes 0x14 to 0x2E, 0x34 and 0x35 (R138, R139, R140, R146, R150). -/
def decodeLaneMem (t : Nat) (r : RoomId) (op : Nat) (rd ra : Reg) (off : BitVec 16) : Option Instr :=
  if op = 0x14 then some (.lw t r rd ra off)
  else if op = 0x15 then some (.lh t r rd ra off)
  else if op = 0x16 then some (.lhu t r rd ra off)
  else if op = 0x17 then some (.lby t r rd ra off)
  else if op = 0x18 then some (.lbyu t r rd ra off)
  else if op = 0x19 then some (.sw t r rd ra off)
  else if op = 0x1A then some (.sh t r rd ra off)
  else if op = 0x1B then some (.sby t r rd ra off)
  else if op = 0x1C then some (.ilw t r rd ra off)
  else if op = 0x1D then some (.ilh t r rd ra off)
  else if op = 0x1E then some (.ilhu t r rd ra off)
  else if op = 0x1F then some (.ilby t r rd ra off)
  else if op = 0x20 then some (.ilbyu t r rd ra off)
  else if op = 0x21 then some (.isw t r rd ra off)
  else if op = 0x22 then some (.ish t r rd ra off)
  else if op = 0x23 then some (.isby t r rd ra off)
  else if op = 0x24 then some (.ldb t r rd ra off)
  else if op = 0x25 then some (.stb t r rd ra off)
  else if op = 0x26 then if rd = 0 then some (.set t r ra off) else none
  else if op = 0x27 then if rd = 0 then some (.rst t r ra off) else none
  else if op = 0x28 then some (.edgeR t r rd ra off)
  else if op = 0x29 then some (.edgeF t r rd ra off)
  else if op = 0x2A then some (.edgeA t r rd ra off)
  else if op = 0x2B then some (.ton t r rd ra off)
  else if op = 0x2C then some (.tof t r rd ra off)
  else if op = 0x2D then some (.tp t r rd ra off)
  else if op = 0x2E then some (.tacc t r rd ra off)
  else if op = 0x34 then some (.ctu t r rd ra off)
  else if op = 0x35 then some (.ctd t r rd ra off)
  else none

/-- Major opcode 0x38, selected by sub (R151). -/
def decodeLaneSpecial (t : Nat) (r : RoomId) (rd ra : Reg) (sel sub : Nat) : Option Instr :=
  if sub = 0x01 then if ra = 0 then (decodeSpr sel).map (.mfs t r rd) else none
  else if sub = 0x02 then if rd = 0 then (decodeSpr sel).map (fun p => .mts t r p ra) else none
  else if sub = 0x03 then if h : sel < 4 then if ra = 0 then some (.rdfeat t r rd ⟨sel, h⟩) else none else none
  else if sub = 0x10 then if rd = 0 ∧ ra = 0 ∧ sel = 0 then some (.rest t r) else none
  else if sub = 0x11 then if rd = 0 ∧ sel = 0 then some (.wdk t r ra) else none
  else none

/-- The lane instruction that a word of the code store spells when room r fetches it in cycle t (R106, R133); `none` for a word that R109
refuses: a reserved opcode, func, sel, sub or condition, or an unused field that is not zero. -/
def decodeLane (t : Nat) (r : RoomId) (w : BitVec 32) : Option Instr :=
  let op := (w.extractLsb' 26 6).toNat
  let rd : Reg := (w.extractLsb' 21 5).toFin
  let ra : Reg := (w.extractLsb' 16 5).toFin
  let rb : Reg := (w.extractLsb' 11 5).toFin
  let imm : BitVec 16 := w.extractLsb' 0 16
  if op = 0x00 then decodeLaneAlu t r rd ra rb (w.extractLsb' 0 11).toNat
  else if op = 0x01 then decodeLaneArith t r rd ra rb (w.extractLsb' 0 11).toNat
  else if op ≤ 0x10 then decodeLaneImm t r op rd ra imm
  else if 0x30 ≤ op ∧ op ≤ 0x33 then
    some (.bool3 t r rd ra rb (w.extractLsb' 6 5).toFin ((w.extractLsb' 26 2 : BitVec 2) ++ (w.extractLsb' 0 6 : BitVec 6)))
  else if op = 0x36 then (decodeCond rd.val).map (fun c => .b t r c (w.extractLsb' 0 21))
  else if op = 0x37 then some (.loop t r rd (w.extractLsb' 0 21))
  else if op = 0x38 then decodeLaneSpecial t r rd ra (w.extractLsb' 8 8).toNat (w.extractLsb' 0 8).toNat
  else decodeLaneMem t r op rd ra imm

end Sys2Proof
end

