-- ==== Sys2Proof/Machine/State.lean ====
section
/-! DEFINITION. The state of the M192 as plain data, and its value right after reset (R79 to R101, R183, R266, R300, R330, R337,
R368, R404, R415, R433, R456, R471, R492). INVENTORY.md lists every field with its rule and reset value. -/

namespace Sys2Proof.Machine

/-- A memory: (address, byte) pairs, addresses strictly rising, no entry equal to 0, which is what an unlisted address reads as. -/
abbrev Mem := List Host.Cell

/-- The state of a room (R79, R81). -/
inductive RoomSt where
  | unused | waiting | ready | stopped
deriving DecidableEq, Repr

/-- A data-memory load whose register is written at cycle `due` (R75). -/
structure LoadFlight where
  due : Nat
  rd : Reg
  val : Word
deriving DecidableEq, Repr

/-- A room (R79) with its operations in flight (R75, R78), windows (R88), snapshot buffer (R187), edge totals at its previous
release (R207), dirty retained blocks with
the instant of their marking (R447), the retained bytes changed in the period (R380) and scan figures (R101). `restDone` is the cycle in which its last REST completed
write-back (R85); `broken` the cycle of a hardware fault that an early read has caused and the PC of the reader (R97). -/
structure Room where
  g : Vector Word 32
  pc : BitVec 20
  z : Bool
  n : Bool
  c : Bool
  v : Bool
  b : Bool
  mlo : Word
  mhi : Word
  frs : Word
  quo : Word
  rem : Word
  acc : DWord
  load : Option LoadFlight
  macQ : List (Nat × DWord)
  fpuQ : List (Nat × Word)
  divQ : List (Nat × Word × Word)
  lane : LaneId
  prio : BitVec 7
  relTb : DWord
  st : RoomSt
  privBase : Nat
  privLen : Nat
  retBase : Nat
  retLen : Nat
  snap : Mem
  baseline : List (Nat × Nat × Nat)
  firstRel : Bool
  oow : Bool
  issued : Nat
  peak : BitVec 26
  resp : BitVec 26
  dirty : List (Nat × Nat)
  changed : List Nat
  jdead : Bool
  restDone : Nat
  broken : Option (Nat × BitVec 20)
  restAt : Option Nat
deriving DecidableEq, Repr

/-- A task entry of a waybill (R161). -/
structure Task where
  taskId : Nat
  lane : Nat
  prio : Nat
  k : Nat
  cls : Nat
  changed : Bool
  entry : Nat
  codeLen : Nat
  privLen : Nat
  retLen : Nat
  pubLen : Nat
deriving DecidableEq, Repr, Inhabited

/-- A variable entry (R162). -/
structure Var where
  id : Nat
  task : Nat
  retained : Bool
  editable : Bool
  typ : Nat
  offset : Nat
  size : Nat
deriving DecidableEq, Repr, Inhabited

/-- A channel entry (R163); `param` holds bytes 20 to 31 (R236, R269). -/
structure ChanCfg where
  ch : Nat
  mode : Nat
  owner : Nat
  rate : Nat
  sps : Nat
  iload : Nat
  eoff : Nat
  foff : Nat
  rload : Nat
  vloop : Nat
  param : List Byte
deriving DecidableEq, Repr, Inhabited

/-- The port entry of a CAN port (R308). -/
structure CanPortCfg where
  port : Nat
  mode : Nat
  auto : Bool
  autorec : Bool
  cycle : Nat
  bustask : Nat
  nbrp : Nat
  nsjw : Nat
  ntseg1 : Nat
  ntseg2 : Nat
  dbrp : Nat
  dtseg1 : Nat
  dtseg2 : Nat
  dsjw : Nat
  tdco : Nat
deriving DecidableEq, Repr, Inhabited

/-- A receive filter (R309). -/
structure CanFilter where
  port : Nat
  id : Nat
  mask : Nat
  ide : Bool
  fmt : Nat
  stamp : Bool
  src : Nat
  len : Nat
  dst : Nat
deriving DecidableEq, Repr, Inhabited

/-- A transmit buffer (R310). -/
structure CanBuf where
  port : Nat
  id : Nat
  ide : Bool
  fdf : Bool
  brs : Bool
  dlc : Nat
  txoff : Nat
deriving DecidableEq, Repr, Inhabited

/-- A cycle-table entry (R311). -/
structure CanCyc where
  port : Nat
  buf : Nat
  owner : Nat
  wopen : Nat
  wclose : Nat
deriving DecidableEq, Repr, Inhabited

/-- A migration entry (R223). -/
structure Migr where
  newVar : Nat
  oldVar : Nat
  op : Nat
  value : Nat
deriving DecidableEq, Repr, Inhabited

/-- A waybill as its sections give it (R159, R160). -/
structure Way where
  crc : Word
  pair : Bool
  swap : Bool
  super : Nat
  keyslot : Nat
  bytes : List Byte
  code : List Word
  bound : List Nat
  tasks : List Task
  vars : List Var
  chans : List ChanCfg
  ports : List CanPortCfg
  filters : List CanFilter
  bufs : List CanBuf
  cycs : List CanCyc
  feat : List Word
  migr : List Migr
deriving DecidableEq, Repr, Inhabited

/-- The analysis stored with a configuration (R157): room, window bases and worst cases per task, night-porter window, group
figures, lane slack, publication areas. -/
structure Analysis where
  rooms : List Nat
  privBase : List Nat
  retBase : List Nat
  pubBase : List Nat
  wcet : List Nat
  resp : List Nat
  npPeriod : Nat
  npOpen : Nat
  npClose : Nat
  slots : List Nat
  power : List Nat
  slack : List Nat
  swapSlots : Nat
deriving DecidableEq, Repr, Inhabited

/-- An admitted configuration. -/
structure Conf where
  way : Way
  an : Analysis
deriving DecidableEq, Repr, Inhabited

/-- Who awaits the completion of a command: ring, tag, opcode (R349) and the set-up of the rings it came under (R342). -/
structure CmdRef where
  ring : RingId
  tag : BitVec 16
  op : Byte
  gen : Nat
deriving DecidableEq, Repr

/-- What the module puts out: on the host link, the post road, the field links and the bus (log entry 4). -/
inductive Out where
  /-- a write of bytes of the completion entry of an index of Qq, at a host address (R339, R349, R350) -/
  | completion (q : RingId) (index : Nat) (addr : Nat) (bytes : List Byte)
  /-- a write to host memory at an address (R357, R454, R467, R490) -/
  | hostWrite (addr : Nat) (bytes : List Byte)
  /-- a word of the module half of the bell page (R343) -/
  | bell (off : Nat) (val : Nat)
  /-- the entry of an index of the guestbook ring E, at a host address (R339, R366) -/
  | gbPush (index : Nat) (addr : Nat) (bytes : List Byte)
  /-- a write of publication k of ring p, at a host address (R361, R362) -/
  | publish (p : Fin 4) (k : Nat) (addr : Nat) (bytes : List Byte)
  /-- an MSI-X message (R367) -/
  | msix (v : Fin 16)
  /-- a post-road frame of a TYPE (R377) -/
  | frame (typ : Nat) (bytes : List Byte)
  /-- a time-alignment message to a group (R185) -/
  | align (g : GrpId) (tb : Nat)
  /-- the hand-over of a channel's output word with its scheduled instant (R185) -/
  | handOver (c : ChanId) (word : Word) (tb : Nat)
  /-- the start of a CAN transmission attempt (R319) -/
  | canTx (k : PortId) (bytes : List Byte)
deriving DecidableEq, Repr

/-- What holds of the module as a whole: no VSUP, in a reset, out of reset before the steward runs, steward running. -/
inductive Phase where
  | unpowered | inReset | boot | bootHold | running
deriving DecidableEq, Repr

/-- The steps of a power failure (R50). -/
inductive PfStep where
  | none | failed | lastTick
deriving DecidableEq, Repr

/-- Supplies and system pins (R31, R34 to R40, R48 to R51). -/
structure Power where
  vsup : Bool
  charged : Bool
  pf : PfStep
  pfwarn : Bool
  faultN : Bool
  faultHold : Bool
  holdUpOut : Bool
  temp : Int
  over85 : Bool
  over95 : Bool
  resetN : Bool
  perstN : Bool
  quietIn : Bool
  quietOut : Bool
  pairPresent : Bool
  rolePrefPin : Bool
  rolePref : Bool
  prefSample : Option Bool
  faultAt : Option Nat
deriving DecidableEq, Repr

/-- Clock, monitor and reset registers (R57 to R71); `entryAt` the cycle of the last reset entry, `exitAt` the earliest cycle at which a
reset in progress may end, `none` while it awaits PLL lock or RESET_N. -/
structure Clk where
  judged : Bool
  refsrc : Bool
  rtcstop : Bool
  noref : Bool
  refgrp : BitVec 4
  plllock : Bool
  warn : Bool
  count : BitVec 20
  cntmin : BitVec 20
  cntmax : BitVec 20
  good : Nat
  judgeFrom : Nat
  cause : BitVec 8
  prev : BitVec 8
  total : BitVec 8
  recent : List Nat
  tsteward : Word
  tjudged : Word
  tfirst : Word
  entryAt : Nat
  exitAt : Option Nat
deriving DecidableEq, Repr

/-- A store of a lane whose memory stage falls in cycle `at'`: the byte that data memory or the pending image held before (R72, R98). -/
structure Undo where
  at' : Nat
  image : Bool
  addr : Nat
  old : Byte
deriving DecidableEq, Repr

/-- An instruction in the pipeline: its fetch cycle, its room, and that room before the fetch (R72, R98). -/
structure Flight where
  at' : Nat
  room : RoomId
  before : Room
deriving DecidableEq, Repr

/-- A word address at which a single-bit error was corrected, and when (R93). -/
structure EccHit where
  mem : MemId
  addr : Nat
  at' : Nat
deriving DecidableEq, Repr

/-- Scan engine status (R101) and its memories' scrub figures (R92 to R96); `faultAt` and `fcause` are cycle and cause of a hardware
fault that awaits its reset; `issueAt` the fetch cycle of a lane's last instruction, `tests` the banks' test words (R96), `writeBack` the
corrected words not yet written back (R92), `undo` and `flights` what a fault takes back of instructions in the pipeline (R98). -/
structure Scan where
  lanes : Bool
  oow : Bool
  sbe : Bool
  suspect : Bool
  sweeps : BitVec 16
  lastSweep : Nat
  scrubbed : Nat
  ecc : Vector (BitVec 24) 5
  eccAddr : BitVec 20
  eccMem : BitVec 4
  eccHits : List EccHit
  current : Vector (BitVec 7) 8
  used : Vector Nat 8
  idleMin : Vector (BitVec 12) 8
  fev : Vector Word 5
  faulted : Bool
  faultAt : Nat
  fcause : BitVec 8
  issueAt : Vector Nat 8
  tests : List (Nat × Word)
  writeBack : List (MemId × Nat)
  undo : List Undo
  flights : List Flight
deriving DecidableEq, Repr

/-- The image (R187 to R195): pending and committed copies, CAN receive staging, the words frozen at a deadline with the tasks whose
deadline has passed (R185 step 1), channels written since the start (R192). -/
structure Image where
  pend : Mem
  com : Mem
  canRx : Mem
  frozen : Mem
  closed : List Nat
  written : List Nat
deriving DecidableEq, Repr

/-- An examination in progress (R155, R220). -/
structure Exam where
  ref : Option CmdRef
  stage : Bool
deriving DecidableEq, Repr

/-- The innkeeper (R154 to R183). -/
structure Inn where
  loaded : Option (List Byte)
  exam : Option Exam
  refused : Bool
  result : BitVec 16
  time : BitVec 12
  detail : Vector Word 8
deriving DecidableEq, Repr

/-- A scheduled start: the tick, whether the run flag has been written, who awaits it (R355). -/
structure StartReq where
  tick : Nat
  flagOk : Bool
  ref : Option CmdRef
deriving DecidableEq, Repr

/-- A scheduled stop (R356) and the commands that await it. -/
structure StopReq where
  tick : Nat
  refs : List CmdRef
deriving DecidableEq, Repr

/-- The application: stored and running configuration, run flag, start and stop in progress (R70, R355, R356). -/
structure App where
  stored : Option Conf
  cur : Option Conf
  running : Bool
  runFlag : Bool
  held : Bool
  startTick : Nat
  start : Option StartReq
  stop : Option StopReq
  stopSafeAt : Option Nat
  code : Vector (List Word) 2
  half : Fin 2
  loaded : Bool
  hold : Bool
deriving DecidableEq, Repr

/-- A value-edit batch pending (R215): bytes by data-memory address. -/
structure Batch where
  task : Nat
  te : Nat
  entries : Nat
  writes : List (Nat × Byte)
  ref : Option CmdRef
deriving DecidableEq, Repr

/-- A variable read pending (R357). -/
structure VRead where
  task : Nat
  te : Nat
  addr : Nat
  len : Nat
  host : Nat
  ref : Option CmdRef
deriving DecidableEq, Repr

/-- The phases of a code swap (R230). -/
inductive SwapSt where
  | none | staged | pendSwitch | trial | pendRollback | releasing
deriving DecidableEq, Repr

/-- Value edits and the code swap (R211 to R233). -/
structure Edits where
  batches : List Batch
  reads : List VRead
  lastTe : List Nat
  swap : SwapSt
  new : Option Conf
  old : Option Conf
  tick : Nat
  slotEnd : Nat
  ref : Option CmdRef
  confirmed : Bool
  also : List CmdRef
deriving DecidableEq, Repr

/-- A calibration point: reference and measured value (R293). -/
structure CalPoint where
  ref : Int
  meas : Int
deriving DecidableEq, Repr

/-- What the stage of an analogue output does (R284 to R287): off and high impedance, standby, an alarm current, or a value driven
(nA or µV). -/
inductive AnaSt where
  | off | standby
  | alarm (high : Bool)
  | value (v : Int)
deriving DecidableEq, Repr

/-- A field channel: what its group holds and measures (R197, R198, R236 to R266, R277 to R300). `cfg` is the newest entry the group was given;
while the group has no modes it says what the stage is built as, and no more. `bypass`, `sink` and `excite` are the terminal's state of R43: the
current-input bypass closed, the digital input's load and the excitation on. `lastEdge`, `stamp` and the stamps of `hist` are model cycles, so
that no reset and no correction of TB moves them; `diffAt` is since when a relief's own staging differs from the frame (R388). -/
structure Chan where
  cfg : Option ChanCfg
  raw : Bool
  rawAt : Nat
  level : Bool
  rise : Nat
  fall : Nat
  lastEdge : Option Nat
  count : Word
  gateVal : Option Bool
  gateDefer : Nat
  recv : Option (Word × Nat)
  applied : Word
  lastCom : Option Word
  follow : Bool
  drive : Bool
  aout : AnaSt
  held : Bool
  cause : BitVec 3
  rearmed : Bool
  retries : Nat
  retrying : Bool
  offAt : Nat
  limiting : Bool
  rateUntil : Option Nat
  rateHeld : Bool
  copen : Bool
  cdisc : Bool
  changedAt : Nat
  edem : BitVec 10
  iload : BitVec 12
  value : Word
  stamp : Nat
  aux : Word
  stale : Bool
  spare : Bool
  hist : List (Nat × Int × Bool)
  underR : Bool
  overR : Bool
  short : Bool
  lowv : Bool
  lim : Bool
  clamped : Bool
  burn : Nat
  trimG : Int
  trimO : Int
  proofOpen : Bool
  proofTry : Option Nat
  proofHours : Option Nat
  proofFail : Bool
  proofFailLatch : Bool
  exer : Bool
  disc : Bool
  discLatch : Bool
  agedOut : Bool
  primMa : Option Nat
  bypass : Bool
  sink : Bool
  excite : Bool
  levelAt : Nat
  diffAt : Option Nat
deriving DecidableEq, Repr

/-- A field group: supervisor, supply and engine (R261 to R266, R271 to R300). `held` are the samples that wait for the next zero check, each
with its stamp and whether the spare engine took it; `sched` is the slot schedule of R274, the last slot of each sample within a second and its
channel in the group; `burnNext` is where the turn of the burnout tests stands (R272). -/
structure Group where
  lplus : Bool
  cfg : Bool
  supact : Bool
  supevt : Bool
  lploss : Bool
  grpoc : Bool
  lpv : BitVec 12
  igrp : BitVec 12
  timeout : BitVec 7
  supcount : BitVec 8
  lastAlign : Nat
  withhold : Bool
  almsel : Bool
  stopSafe : Bool
  relief : Bool
  protLatch : BitVec 16
  openLatch : BitVec 16
  discLatch : BitVec 16
  rateLatch : BitVec 16
  demag : BitVec 16
  engok : Bool
  engSince : Nat
  spare : Bool
  engfail : Bool
  failevt : Bool
  retevt : Bool
  failkind : BitVec 3
  fsBad : Bool
  zeroErr : BitVec 16
  gainErr : BitVec 16
  cjt : BitVec 16
  cjok : Bool
  held : List (Sample × Nat × Bool)
  frameAt : Nat
  afLatch : BitVec 16
  arLatch : BitVec 16
  calCh : BitVec 4
  calLow : Option CalPoint
  calHigh : Option CalPoint
  sched : List (Nat × Nat)
  burnNext : Nat
deriving DecidableEq, Repr

/-- The spare engine (R296 to R300). -/
structure Spare where
  engok : Bool
  assigned : Option GrpId
  failed : Bool
  takeevt : Bool
  takeovers : BitVec 8
  connected : Bool
  started : Bool
  since : Nat
  fsBad : Bool
  frameAt : Nat
deriving DecidableEq, Repr

/-- A queued CAN frame (R318, R319): its entry, payload, latest start of frame (TB), whether an attempt is in progress, and whether it
is withdrawn when that attempt fails (R327). -/
structure QFrame where
  entry : Nat
  payload : List Byte
  latest : Nat
  attempt : Bool
  final : Bool
deriving DecidableEq, Repr

/-- The states of automatic rate detection (R329). -/
inductive DetSt where
  | idle | nominal | data | locked | failed
deriving DecidableEq, Repr

/-- A CAN port (R302 to R330). -/
structure Can where
  cfg : Option CanPortCfg
  vplus : Bool
  active : Bool
  passive : Bool
  busoff : Bool
  restricted : Bool
  listen : Bool
  gate : Bool
  term : Bool
  termSet : Bool
  tec : Nat
  recc : Nat
  evt : BitVec 10
  evten : BitVec 10
  nbt : Word
  dbt : Word
  tdcv : BitVec 8
  lasterr : BitVec 4
  det : DetSt
  detNom : Nat
  detData : Nat
  detGood : Nat
  detDriver : Bool
  detSince : Nat
  detStart : Nat
  detRefused : Bool
  detTime : BitVec 8
  detNomRes : BitVec 3
  detDataRes : BitVec 3
  detValid : Bool
  detFail : Bool
  detFrames : BitVec 16
  rxcnt : Word
  txcnt : Word
  wdrcnt : Word
  ovrcnt : Word
  stale : BitVec 64
  hits : BitVec 64
  wdrmap : BitVec 256
  cycleStart : Option Nat
  armed : List Nat
  queue : List QFrame
  integrated : Bool
  recovering : Bool
  domRel : Bool
deriving DecidableEq, Repr

/-- A ring as set up (R340). -/
structure RingCfg where
  base : Nat
  logn : Nat
  enable : Bool
  irq : Bool
  cq : Nat
  task : Nat
  decim : Nat
  ranges : List (Nat × Nat)
deriving DecidableEq, Repr

/-- A completion waiting to be written (R349, R351). -/
structure Completion where
  ref : CmdRef
  status : BitVec 16
  result : List Byte
deriving DecidableEq, Repr

/-- Host interface (R331 to R370). `pubDue` are the commits that a publication ring owes, oldest first, with their bytes (R360); `gen` counts
set-ups; `outbox` are the write requests that wait while requests pause (R333), `mute` says that none is made until the next APPLY (R334);
`pollAt` and `endAt` are the earliest next poll and end of a bell interval (R344), `sentNow` the vectors 2 to 4 already sent in this one (R367). -/
structure HostIf where
  active : Bool
  busy : Bool
  dmaerr : Bool
  ringerr : Bool
  gbfull : Bool
  cqfull : Bool
  setuplo : Word
  setuphi : Word
  setupStatus : BitVec 16
  setupRing : BitVec 5
  ringErr : BitVec 21
  polls : Word
  cmds : Word
  belliv : Nat
  bellAddr : Nat
  rings : Vector RingCfg 21
  cmdTail : Vector Word 8
  cmdHead : Vector Word 8
  cqHead : Vector Word 8
  cqTail : Vector Word 8
  inProg : Vector (Option CmdRef) 8
  heldC : Vector (List Completion) 8
  heldSince : Vector Nat 8
  gbHead : Word
  gbTail : Word
  gbLost : Word
  pubNum : Vector Nat 4
  pubDue : Vector (List (Nat × List Byte)) 4
  gen : Nat
  busMaster : Bool
  linkUp : Bool
  msixMask : BitVec 16
  msixPend : BitVec 16
  evtPend : BitVec 16
  lateVec6 : Bool
  latch : List (SplitPair × Word)
  msixTable : Mem
  outbox : List Out
  mute : Bool
  pollAt : Nat
  endAt : Nat
  sentNow : BitVec 16
deriving DecidableEq, Repr

/-- What the partner last reported (R377, R378). -/
structure Partner where
  serial : BitVec 64
  version : BitVec 24
  role : BitVec 2
  pref : Bool
  stored : Bool
  swap : BitVec 2
  cfgid : Word
  analysis : DWord
  lplus : BitVec 12
  canv : BitVec 4
  hello : Bool
  single : Bool
  run : Bool
  rsync : Bool
deriving DecidableEq, Repr

/-- A planned switch proposed or confirmed (R393). -/
structure SwitchReq where
  tick : Nat
  confirmed : Bool
  ref : Option CmdRef
  reversion : Bool
deriving DecidableEq, Repr

/-- The staging of one channel as frozen at the newest base tick (R185 step 4, R379): edge totals with the group's own totals at that
tick, the last edge in units of 40 cycles of TB, and the sample's stamp in units of 10 000 cycles of TB, both negative for an instant before TB was 0. -/
structure Stg where
  rise : Nat
  fall : Nat
  ownRise : Nat
  ownFall : Nat
  lastEdge : Option Int
  count : Word
  iload : BitVec 16
  status : BitVec 16
  value : Word
  stamp : Int
  aux : Word
deriving DecidableEq, Repr, Inhabited

/-- The pair unit (R371 to R405); `due` is the base tick and REASON of a takeover to come, `streamed` the bytes of the first pass, `digDue` the
base ticks whose DIGEST is awaited, `waySent` the own and the partner's configuration ID of the last waybill sent, `trained` that the lanes have
trained, `sent` the blocks of the data windows that the resynchronisation has sent, by number, with their bytes (R396), `agesAt` when the proof record was last
written (R402). ROLE: 0 single, 1 primary, 2 relief in step, 3 relief out of step. -/
structure Pair where
  role : BitVec 2
  settled : Bool
  link : Bool
  partnerPwr : Bool
  rsync : Bool
  cfgdiff : Bool
  locked : Bool
  osreason : BitVec 3
  hold : BitVec 12
  dtime : BitVec 10
  agelim : BitVec 10
  evt : BitVec 10
  crcerr : BitVec 16
  trains : BitVec 8
  phErr : BitVec 16
  trim : BitVec 16
  attempts : BitVec 16
  blockRoom : BitVec 7
  progress : BitVec 7
  hyper : Word
  partner : Partner
  lastHb : Nat
  hbTb : BitVec 64
  missing : Nat
  hbSeen : Bool
  tbOff : Int
  epoch : Word
  reason : BitVec 3
  inStepSince : Nat
  frame : Option (Nat × List Byte)
  marked : Option Nat
  stg : Vector Stg 192
  words : Mem
  digDue : List Nat
  reqSwitch : Option SwitchReq
  joinRef : Option CmdRef
  joinTick : Nat
  passDone : Bool
  wayBuf : List Byte
  waySent : Option (Nat × Nat)
  due : Option (Nat × BitVec 3)
  streamed : Nat
  trained : Bool
  sent : List (Nat × List Byte)
  agesAt : Nat
deriving DecidableEq, Repr

/-- The night porter (R406 to R415); `start` is the TB at which the period in progress began, `second` the end of the second
period, `expAt` the TB of an expiry. -/
structure Porter where
  period : BitVec 29
  mode : Bool
  open' : BitVec 29
  close : BitVec 29
  start : Nat
  appok : Bool
  stwok : Bool
  stage : Bool
  warn : Bool
  wcause : BitVec 3
  warns : BitVec 16
  second : Nat
  faultAt : Nat
  winOpen : Nat
  closed : Bool
  appAfter : Bool
  stwAfter : Bool
  lastApp : BitVec 64
  lastStw : BitVec 64
  evinfo : BitVec 6
  evapc : BitVec 20
  evspc : Word
  evatb : BitVec 64
  evstb : BitVec 64
  expired : Bool
  expAt : Nat
deriving DecidableEq, Repr

/-- A calendar value (R426); `year` counts from 2000, weekday 0 is Monday. -/
structure Cal where
  second : Nat
  minute : Nat
  hour : Nat
  day : Nat
  month : Nat
  year : Nat
  weekday : Nat
deriving DecidableEq, Repr

/-- A comparator's set-up (R428). -/
structure Alarm where
  mode : BitVec 2
  mask : BitVec 6
  second : BitVec 6
  minute : BitVec 6
  hour : BitVec 5
  day : BitVec 5
  month : BitVec 4
  weekday : BitVec 3
deriving DecidableEq, Repr

/-- A snapshot of the RTC group (R421). -/
structure RtcSnap where
  sub : Nat
  cal : Cal
  dst : Bool
  num : BitVec 4
  at' : Nat
deriving DecidableEq, Repr

/-- The backup domain (R416 to R434); `secAt` is the cycle at which the current second began. -/
structure Backup where
  valid : Bool
  oscstop : Bool
  lostevt : Bool
  wrapped : Bool
  a1 : Bool
  a2 : Bool
  cell : BitVec 12
  vbak : BitVec 12
  trim : BitVec 6
  cal : Cal
  dst : Bool
  secAt : Nat
  alm1 : Alarm
  alm2 : Alarm
  cnt : BitVec 24
  cntAt : Nat
  saddle : Vector Word 32
  snapBar : Option RtcSnap
  snapStw : Option RtcSnap
  numBar : BitVec 4
  numStw : BitVec 4
  stagedSet : Option (Cal × Bool × CmdRef)
  dstStep : Option (Bool × Nat × CmdRef)
deriving DecidableEq, Repr

/-- What follows the last page program of a write (R437, R453). -/
inductive NvDone where
  | nothing
  | command (ref : CmdRef) (seq : Word)
  | startFlag
  | stopFlag
  | calib (ref : CmdRef) (ch : ChanId) (result : List Byte) (points : Bool)
  | fold (upto : Nat)
deriving DecidableEq, Repr

/-- A page program waiting or in progress: class of R437, address, bytes, whether it is a retry (R436). -/
structure NvJob where
  cls : Nat
  addr : Nat
  bytes : List Byte
  retry : Bool
  write : Nat
  done : NvDone
deriving DecidableEq, Repr

/-- A captured point of the retain journal (R447). -/
structure Point where
  task : Nat
  room : Nat
  blocks : List (Nat × List Byte)
deriving DecidableEq, Repr

/-- The NV store (R435 to R456). -/
structure Nv where
  mem : Mem
  busy : Option NvJob
  queue : List NvJob
  writes : Nat
  failed : List Nat
  ready : Bool
  pfail : Bool
  dupseq : Bool
  jover : Bool
  badrec : Bool
  lock : Bool
  jskips : Word
  pages : Word
  jseq : Nat
  folded : Nat
  point : Nat
  points : List Point
  lastHours : Nat
deriving DecidableEq, Repr

/-- A guestbook record as formed (R457). -/
structure GbRec where
  typ : Nat
  source : Nat
  sev : BitVec 2
  rtc : Option (Cal × Bool)
  repeats : Nat
  cycle : Nat
  seq : Word
  hours : Nat
  pcyc : Nat
  words : List Word
deriving DecidableEq, Repr

/-- A latched field bit that set while the steward did not run: its record is written once it runs (R267, R301). `words` are the
register offsets of the evidence. -/
structure LateEvt where
  typ : Nat
  source : Nat
  sev : BitVec 2
  words : List Nat
deriving DecidableEq, Repr

/-- The guestbook (R457 to R471): the queue, and the newest record formed with its place (`none` while queued); `unwritten` holds earlier records
that were repeated after their last writing, with their slots and the earliest cycle of their rewrite (R462). -/
structure Guest where
  queue : List GbRec
  last : Option GbRec
  lastAt : Nat
  lastSlot : Option Nat
  lastDirty : Bool
  lastWrite : Option Nat
  nextSeq : Word
  late : List LateEvt
  snapsev : BitVec 2
  snaps : Vector Word 8
  drops : Vector (BitVec 16) 4
  pfDropped : Nat
  bad : BitVec 13
  owed : List LateEvt
  unwritten : List (GbRec × Nat × Nat)
deriving DecidableEq, Repr

/-- The state of an image slot (R473). -/
inductive SlotSt where
  | empty | good | trial | old
deriving DecidableEq, Repr

/-- Boot, keys and updates (R472 to R494); `abandoned` and `failed` are the slots whose trial the last boot abandoned and whose check
failed at it, until the steward has recorded them. -/
structure Sec where
  active : Bool
  stA : SlotSt
  stB : SlotSt
  tries : Nat
  imgA : List Byte
  imgB : List Byte
  slot : Bool
  fallback : Bool
  failA : BitVec 3
  failB : BitVec 3
  abandoned : Option Bool
  failed : Option Bool
  svncnt : Nat
  cset : BitVec 4
  crev : BitVec 4
  chash : Vector (List Byte) 4
  oset : BitVec 4
  orev : BitVec 4
  ohash : Vector (List Byte) 4
  updNext : BitVec 25
  updActive : Bool
  chunk : Option (CmdRef × Nat × List Byte)
  ownStatus : BitVec 16
  ownSlot : BitVec 2
  enroll : Vector Word 16
deriving DecidableEq, Repr

/-- Faults of a step. The spec gives every command an effect, so no meaning of this model raises one. -/
inductive Fault where
  /-- Raised by nobody: kept so that a claim can name it. Safe. -/
  | none
deriving DecidableEq, Repr

/-- Refusals of a step. -/
inductive Refusal where
  /-- Raised by an arm of exec whose command has no meaning yet; in this model by none. Safe. -/
  | notModelled (mnemonic : String)
deriving DecidableEq, Repr

/-- The M192. `now` counts main-clock cycles of 2.5 ns from the first application of power and never restarts; `tb0` is its value
when TB was 0; `cycle` is the cycle number (R184); `fresh` numbers the free values read so far; `marks` are the W1C bits that the module has set,
each with its cycle and its register's BAR0 offset (R9). -/
structure State where
  now : Nat
  tb0 : Nat
  cycle : Nat
  phase : Phase
  pwr : Power
  clk : Clk
  scan : Scan
  rooms : Vector Room 100
  dmem : Mem
  img : Image
  inn : Inn
  app : App
  edits : Edits
  chans : Vector Chan 192
  groups : Vector Group 12
  spare : Spare
  cans : Vector Can 4
  host : HostIf
  pair : Pair
  np : Porter
  bk : Backup
  nv : Nv
  gb : Guest
  sec : Sec
  out : List Out
  fresh : Nat
  pending : List Instr
  marks : List (Nat × Nat × Nat)
deriving DecidableEq, Repr

/-- A room in its reset condition (R67, R81): UNUSED, everything zero. -/
def Room.init : Room where
  g := Vector.replicate 32 0
  pc := 0
  z := false
  n := false
  c := false
  v := false
  b := false
  mlo := 0
  mhi := 0
  frs := 0
  quo := 0
  rem := 0
  acc := 0
  load := none
  macQ := []
  fpuQ := []
  divQ := []
  lane := 0
  prio := 0
  relTb := 0
  st := .unused
  privBase := 0
  privLen := 0
  retBase := 0
  retLen := 0
  snap := []
  baseline := []
  firstRel := true
  oow := false
  issued := 0
  peak := 0
  resp := 0
  dirty := []
  changed := []
  jdead := false
  restDone := 0
  broken := none
  restAt := none

/-- Pins and supplies right after a power-on reset: VSUP present, the hold-up storage not yet charged, PFWARN_N deasserted at reset
exit (R69 step 5), FAULT_N asserted until the steward runs (R34); inputs open or at rest (log entry 6). -/
def Power.init : Power where
  vsup := true
  charged := false
  pf := .none
  pfwarn := false
  faultN := true
  faultHold := false
  holdUpOut := false
  temp := 0
  over85 := false
  over95 := false
  resetN := false
  perstN := false
  quietIn := false
  quietOut := false
  pairPresent := false
  rolePrefPin := false
  rolePref := false
  prefSample := none
  faultAt := none

/-- The clock block (R71); the PLL has locked before reset exit (R69 step 3), cause 0x01. -/
def Clk.init : Clk where
  judged := false
  refsrc := false
  rtcstop := false
  noref := false
  refgrp := 0
  plllock := true
  warn := false
  count := 0
  cntmin := 0xFFFFF
  cntmax := 0
  good := 0
  judgeFrom := 0
  cause := 0x01
  prev := 0
  total := 0
  recent := []
  tsteward := 0
  tjudged := 0
  tfirst := 0
  entryAt := 0
  exitAt := none

/-- Scan status (R101): CURRENT 127, IDLEMIN 0xFFF; SCAN_FEV without evidence. -/
def Scan.init : Scan where
  lanes := true
  oow := false
  sbe := false
  suspect := false
  sweeps := 0
  lastSweep := 0
  scrubbed := 0
  ecc := Vector.replicate 5 0
  eccAddr := 0
  eccMem := 0
  eccHits := []
  current := Vector.replicate 8 127
  used := Vector.replicate 8 0
  idleMin := Vector.replicate 8 0xFFF
  fev := Vector.replicate 5 0
  faulted := false
  faultAt := 0
  fcause := 0
  issueAt := Vector.replicate 8 0
  tests := []
  writeBack := []
  undo := []
  flights := []

def Image.init : Image where
  pend := []
  com := []
  canRx := []
  frozen := []
  closed := []
  written := []

def Inn.init : Inn where
  loaded := none
  exam := none
  refused := false
  result := 0
  time := 0
  detail := Vector.replicate 8 0

def App.init : App where
  stored := none
  cur := none
  running := false
  runFlag := false
  held := false
  startTick := 0
  start := none
  stop := none
  stopSafeAt := none
  code := Vector.replicate 2 []
  half := 0
  loaded := false
  hold := false

def Edits.init : Edits where
  batches := []
  reads := []
  lastTe := []
  swap := .none
  new := none
  old := none
  tick := 0
  slotEnd := 0
  ref := none
  confirmed := false
  also := []

/-- A channel without a mode (R44): everything at rest. -/
def Chan.init : Chan where
  cfg := none
  raw := false
  rawAt := 0
  level := false
  rise := 0
  fall := 0
  lastEdge := none
  count := 0
  gateVal := some false
  gateDefer := 0
  recv := none
  applied := 0
  lastCom := none
  follow := false
  drive := false
  aout := .off
  held := false
  cause := 0
  rearmed := false
  retries := 0
  retrying := false
  offAt := 0
  limiting := false
  rateUntil := none
  rateHeld := false
  copen := false
  cdisc := false
  changedAt := 0
  edem := 0
  iload := 0
  value := 0
  stamp := 0
  aux := 0
  stale := false
  spare := false
  hist := []
  underR := false
  overR := false
  short := false
  lowv := false
  lim := false
  clamped := false
  burn := 0
  trimG := 0
  trimO := 0
  proofOpen := false
  proofTry := none
  proofHours := none
  proofFail := false
  proofFailLatch := false
  exer := false
  disc := false
  discLatch := false
  agedOut := false
  primMa := none
  bypass := true
  sink := false
  excite := false
  levelAt := 0
  diffAt := none

/-- A group after L+ has come up: power-on safe states applied, no modes (R30, R265); log entry 6 for L+ present and for the ALMSEL strap (R42),
here open, which selects the high alarm: DESIGN CHOICE, the spec gives the strap no level of its own. -/
def Group.init : Group where
  lplus := true
  cfg := false
  supact := true
  supevt := false
  lploss := false
  grpoc := false
  lpv := 0
  igrp := 0
  timeout := 0
  supcount := 0
  lastAlign := 0
  withhold := false
  almsel := false
  stopSafe := false
  relief := false
  protLatch := 0
  openLatch := 0
  discLatch := 0
  rateLatch := 0
  demag := 0
  engok := false
  engSince := 0
  spare := false
  engfail := false
  failevt := false
  retevt := false
  failkind := 0
  fsBad := false
  zeroErr := 0
  gainErr := 0
  cjt := 0
  cjok := false
  held := []
  frameAt := 0
  afLatch := 0
  arLatch := 0
  calCh := 0
  calLow := none
  calHigh := none
  sched := []
  burnNext := 0

def Spare.init : Spare where
  engok := false
  assigned := none
  failed := false
  takeevt := false
  takeovers := 0
  connected := false
  started := false
  since := 0
  fsBad := false
  frameAt := 0

/-- A CAN port (R330): NOPWR reads 1 until the port has found CAN_V+ (log entry 6), stale masks all ones. -/
def Can.init : Can where
  cfg := none
  vplus := false
  active := false
  passive := false
  busoff := false
  restricted := false
  listen := false
  gate := false
  term := false
  termSet := false
  tec := 0
  recc := 0
  evt := 0
  evten := 0
  nbt := 0
  dbt := 0
  tdcv := 0
  lasterr := 0
  det := .idle
  detNom := 0
  detData := 0
  detGood := 0
  detDriver := false
  detSince := 0
  detStart := 0
  detRefused := false
  detTime := 0
  detNomRes := 0
  detDataRes := 0
  detValid := false
  detFail := false
  detFrames := 0
  rxcnt := 0
  txcnt := 0
  wdrcnt := 0
  ovrcnt := 0
  stale := BitVec.allOnes 64
  hits := 0
  wdrmap := 0
  cycleStart := none
  armed := []
  queue := []
  integrated := false
  recovering := false
  domRel := false

def RingCfg.init : RingCfg where
  base := 0
  logn := 0
  enable := false
  irq := false
  cq := 0
  task := 0
  decim := 0
  ranges := []

/-- Host registers at reset (R368): everything 0, SETUPRES.RING 31; every MSI-X vector masked (PCIe; log entry 6). -/
def HostIf.init : HostIf where
  active := false
  busy := false
  dmaerr := false
  ringerr := false
  gbfull := false
  cqfull := false
  setuplo := 0
  setuphi := 0
  setupStatus := 0
  setupRing := 31
  ringErr := 0
  polls := 0
  cmds := 0
  belliv := 20
  bellAddr := 0
  rings := Vector.replicate 21 RingCfg.init
  cmdTail := Vector.replicate 8 0
  cmdHead := Vector.replicate 8 0
  cqHead := Vector.replicate 8 0
  cqTail := Vector.replicate 8 0
  inProg := Vector.replicate 8 none
  heldC := Vector.replicate 8 []
  heldSince := Vector.replicate 8 0
  gbHead := 0
  gbTail := 0
  gbLost := 0
  pubNum := Vector.replicate 4 0
  pubDue := Vector.replicate 4 []
  gen := 0
  busMaster := false
  linkUp := false
  msixMask := 0xFFFF
  msixPend := 0
  evtPend := 0
  lateVec6 := false
  latch := []
  msixTable := []
  outbox := []
  mute := false
  pollAt := 0
  endAt := 0
  sentNow := 0

def Partner.init : Partner where
  serial := 0
  version := 0
  role := 0
  pref := false
  stored := false
  swap := 0
  cfgid := 0
  analysis := 0
  lplus := 0
  canv := 0
  hello := false
  single := false
  run := false
  rsync := false

def Stg.init : Stg where
  rise := 0
  fall := 0
  ownRise := 0
  ownFall := 0
  lastEdge := none
  count := 0
  iload := 0
  status := 0
  value := 0
  stamp := 0
  aux := 0

/-- The pair unit at reset (R404): no role settled, BLOCKROOM 127; PAIR_CFG as a module without a valid role record (R403). -/
def Pair.init : Pair where
  role := 0
  settled := false
  link := false
  partnerPwr := false
  rsync := false
  cfgdiff := false
  locked := false
  osreason := 0
  hold := 60
  dtime := 20
  agelim := 30
  evt := 0
  crcerr := 0
  trains := 0
  phErr := 0
  trim := 0
  attempts := 0
  blockRoom := 127
  progress := 0
  hyper := 0
  partner := Partner.init
  lastHb := 0
  hbTb := 0
  missing := 0
  hbSeen := false
  tbOff := 0
  epoch := 0
  reason := 0
  inStepSince := 0
  frame := none
  marked := none
  stg := Vector.replicate 192 Stg.init
  words := []
  digDue := []
  reqSwitch := none
  joinRef := none
  joinTick := 0
  passDone := false
  wayBuf := []
  waySent := none
  due := none
  streamed := 0
  trained := false
  sent := []
  agesAt := 0

/-- The night porter at reset exit (R407, R415): boot mode, period 40 000 000 cycles. -/
def Porter.init : Porter where
  period := 0x02625A00
  mode := false
  open' := 0
  close := 0x02625A00
  start := 0
  appok := false
  stwok := false
  stage := false
  warn := false
  wcause := 0
  warns := 0
  second := 0
  faultAt := 0
  winOpen := 0
  closed := false
  appAfter := false
  stwAfter := false
  lastApp := 0
  lastStw := 0
  evinfo := 0
  evapc := 0
  evspc := 0
  evatb := 0
  evstb := 0
  expired := false
  expAt := 0

/-- 2000-01-01 00:00:00, a Saturday (R420, R426). -/
def Cal.epoch : Cal where
  second := 0
  minute := 0
  hour := 0
  day := 1
  month := 1
  year := 0
  weekday := 5

def Alarm.off : Alarm where
  mode := 0
  mask := 0
  second := 0
  minute := 0
  hour := 0
  day := 0
  month := 0
  weekday := 0

/-- The backup domain whose supply has just come up from zero: latch lost, values of R420 (log entry 6). -/
def Backup.init : Backup where
  valid := false
  oscstop := false
  lostevt := false
  wrapped := false
  a1 := false
  a2 := false
  cell := 0
  vbak := 0
  trim := 0
  cal := Cal.epoch
  dst := false
  secAt := 0
  alm1 := Alarm.off
  alm2 := Alarm.off
  cnt := 0
  cntAt := 0
  saddle := Vector.replicate 32 0
  snapBar := none
  snapStw := none
  numBar := 0
  numStw := 0
  stagedSet := none
  dstStep := none

/-- The NV store of a new module: no record, no valid counter cell, an empty guestbook (R445; log entry 7). -/
def Nv.init : Nv where
  mem := []
  busy := none
  queue := []
  writes := 0
  failed := []
  ready := false
  pfail := false
  dupseq := false
  jover := false
  badrec := false
  lock := false
  jskips := 0
  pages := 0
  jseq := 0
  folded := 0
  point := 0
  points := []
  lastHours := 0

def Guest.init : Guest where
  queue := []
  last := none
  lastAt := 0
  lastSlot := none
  lastDirty := false
  lastWrite := none
  nextSeq := 0
  late := []
  snapsev := 0
  snaps := Vector.replicate 8 0
  drops := Vector.replicate 4 0
  pfDropped := 0
  bad := 0
  owed := []
  unwritten := []

/-- The security block of a part as delivered: slot A GOOD and running, Clainram key slots 0 to 3 set, open (R479, R481; log
entry 6). -/
def Sec.init : Sec where
  active := false
  stA := .good
  stB := .empty
  tries := 0
  imgA := Config.factoryImage false
  imgB := Config.factoryImage true
  slot := false
  fallback := false
  failA := 0
  failB := 0
  abandoned := none
  failed := none
  svncnt := 0
  cset := 0xF
  crev := 0
  chash := #v[Config.clainramHash 0, Config.clainramHash 1, Config.clainramHash 2, Config.clainramHash 3]
  oset := 0
  orev := 0
  ohash := Vector.replicate 4 []
  updNext := 0
  updActive := false
  chunk := none
  ownStatus := 0
  ownSlot := 0
  enroll := Vector.replicate 16 0

/-- The machine right after a power-on reset of a new part: reset has just been left, TB is 0, the boot ROM has selected slot A and
the steward does not run yet (R69 step 5). -/
def State.reset : State where
  now := 0
  tb0 := 0
  cycle := 0
  phase := .boot
  pwr := Power.init
  clk := Clk.init
  scan := Scan.init
  rooms := Vector.replicate 100 Room.init
  dmem := []
  img := Image.init
  inn := Inn.init
  app := App.init
  edits := Edits.init
  chans := Vector.replicate 192 Chan.init
  groups := Vector.replicate 12 Group.init
  spare := Spare.init
  cans := Vector.replicate 4 Can.init
  host := HostIf.init
  pair := Pair.init
  np := Porter.init
  bk := Backup.init
  nv := Nv.init
  gb := Guest.init
  sec := Sec.init
  out := []
  fresh := 0
  pending := []
  marks := []

end Sys2Proof.Machine
end

