-- ==== Sys2Proof/Machine/Ops.lean ====
section
/-! DEFINITION. Named operations over bytes, memories, vectors and time (R2 to R6, R56, R91), and the CRCs of the spec. -/

namespace Sys2Proof.Machine

/-! ### Bits and bytes -/

/-- A truth value as the number 0 or 1. -/
def b2n (b : Bool) : Nat := if b then 1 else 0

/-- Bits [lo + w - 1 : lo] of a number (R4). -/
def fld (n lo w : Nat) : Nat := n / 2 ^ lo % 2 ^ w

/-- Bit i of a number as a truth value (R4). -/
def bit (n i : Nat) : Bool := n / 2 ^ i % 2 == 1

/-- A register made of fields (lowest bit, width, value); the reserved bits are zero (R11). -/
def pack (fs : List (Nat × Nat × Nat)) : Word :=
  BitVec.ofNat 32 (fs.foldr (fun f acc => f.2.2 % 2 ^ f.2.1 * 2 ^ f.1 + acc) 0)

/-- A little-endian value of k bytes (R3). -/
def toLe : Nat → Nat → List Byte
  | 0, _ => []
  | k + 1, n => BitVec.ofNat 8 n :: toLe k (n / 256)

/-- The number that little-endian bytes spell (R3). -/
def ofLe : List Byte → Nat
  | [] => 0
  | b :: r => b.toNat + 256 * ofLe r

/-- Byte i of a structure; bytes it does not have read as zero. -/
def byteAt (bs : List Byte) (i : Nat) : Byte := bs.getD i 0

/-- n bytes of a structure from offset i, zero beyond its end. -/
def slice (bs : List Byte) (i : Nat) : Nat → List Byte
  | 0 => []
  | n + 1 => byteAt bs i :: slice bs (i + 1) n

def u8 (bs : List Byte) (i : Nat) : Nat := (byteAt bs i).toNat
def u16 (bs : List Byte) (i : Nat) : Nat := ofLe (slice bs i 2)
def u24 (bs : List Byte) (i : Nat) : Nat := ofLe (slice bs i 3)
def u32 (bs : List Byte) (i : Nat) : Nat := ofLe (slice bs i 4)
def u48 (bs : List Byte) (i : Nat) : Nat := ofLe (slice bs i 6)
def u64 (bs : List Byte) (i : Nat) : Nat := ofLe (slice bs i 8)

/-- A number of w bits read as two's complement. -/
def sgn (w n : Nat) : Int := if n % 2 ^ w < 2 ^ (w - 1) then (n % 2 ^ w : Nat) else (n % 2 ^ w : Nat) - (2 ^ w : Nat)

/-- Two's complement of w bits of an integer. -/
def unsgn (w : Nat) (i : Int) : Nat := (i % ((2 ^ w : Nat) : Int)).toNat

/-- The smallest number of bits of m values that are 1, as a mask. -/
def maskOf (p : Nat → Bool) : Nat → Nat
  | 0 => 0
  | n + 1 => maskOf p n + (if p n then 2 ^ n else 0)

/-- Rounded-up quotient. -/
def ceilDiv (a b : Nat) : Nat := (a + b - 1) / b

/-- Nearest integer quotient, halves away from zero (R279: values are rounded to the nearest unit of the record). -/
def roundDiv (a : Int) (b : Nat) : Int :=
  if 0 ≤ a then ((a.toNat * 2 + b) / (2 * b) : Nat) else -((((-a).toNat * 2 + b) / (2 * b) : Nat) : Int)

/-- A value kept within limits. -/
def clampI (lo hi x : Int) : Int := if x < lo then lo else if hi < x then hi else x

/-! ### CRC -/

/-- One bit of a reflected CRC with polynomial `p`. -/
def crcBit {w : Nat} (p c : BitVec w) : BitVec w := if c.toNat % 2 = 1 then (c >>> 1) ^^^ p else c >>> 1

def crcBits {w : Nat} (p : BitVec w) : Nat → BitVec w → BitVec w
  | 0, c => c
  | n + 1, c => crcBits p n (crcBit p c)

def crcBytes {w : Nat} (p : BitVec w) : List Byte → BitVec w → BitVec w
  | [], c => c
  | b :: r, c => crcBytes p r (crcBits p 8 (c ^^^ b.setWidth w))

/-- CRC-32 of IEEE 802.3: polynomial 0x04C1_1DB7 reflected, initial value and final XOR all ones (PRESUMED: the standard's form). -/
def crc32 (bs : List Byte) : Word := ~~~ crcBytes (0xEDB88320 : BitVec 32) bs (BitVec.allOnes 32)

/-- The CRC-64 of R380: 0x42F0_E1EB_A9EA_3693 reflected, initial value and final XOR all ones. -/
def crc64 (bs : List Byte) : DWord := ~~~ crcBytes (0xC96C5795D7870F42 : BitVec 64) bs (BitVec.allOnes 64)

/-! ### Memories -/

/-- What an address of a memory holds: the listed byte, or 0. -/
def Mem.get : Mem → Nat → Byte
  | [], _ => 0
  | (k, v) :: r, a => if k = a then v else if a < k then 0 else Mem.get r a

/-- Writing one byte; writing 0 removes the entry, so the form stays canonical. -/
def Mem.put : Mem → Nat → Byte → Mem
  | [], a, b => if b = 0 then [] else [(a, b)]
  | (k, v) :: r, a, b =>
    if a < k then (if b = 0 then (k, v) :: r else (a, b) :: (k, v) :: r)
    else if k = a then (if b = 0 then r else (a, b) :: r)
    else (k, v) :: Mem.put r a b

/-- The canonical form from a lower bound on: addresses strictly rising, no byte 0. -/
def Mem.wfFrom : Nat → Mem → Bool
  | _, [] => true
  | lo, (k, v) :: r => decide (lo ≤ k) && (v != 0) && Mem.wfFrom (k + 1) r

/-- The canonical form of a memory. -/
def Mem.wf (m : Mem) : Bool := Mem.wfFrom 0 m

/-- n bytes from address a. -/
def Mem.read (m : Mem) (a : Nat) : Nat → List Byte
  | 0 => []
  | n + 1 => m.get a :: Mem.read m (a + 1) n

/-- Writing bytes from address a on. -/
def Mem.write : Mem → Nat → List Byte → Mem
  | m, _, [] => m
  | m, a, b :: r => Mem.write (m.put a b) (a + 1) r

/-- Writing scattered bytes. -/
def Mem.writeAll (m : Mem) (ws : List (Nat × Byte)) : Mem := ws.foldl (fun m w => m.put w.1 w.2) m

/-- A memory made of chunks; each chunk overwrites what later ones hold. -/
def Mem.ofChunks (cs : List (Nat × List Byte)) : Mem := cs.foldr (fun c m => m.write c.1 c.2) []

/-- Clearing n bytes from address a on. -/
def Mem.clear (m : Mem) (a n : Nat) : Mem := m.filter (fun c => decide (c.1 < a) || decide (a + n ≤ c.1))

def Mem.word (m : Mem) (a : Nat) : Word := BitVec.ofNat 32 (ofLe (m.read a 4))
def Mem.u32 (m : Mem) (a : Nat) : Nat := ofLe (m.read a 4)

/-! ### Vectors -/

/-- Entry i of a vector replaced by what a function makes of it. -/
def upd {α : Type} {n : Nat} (v : Vector α n) (i : Fin n) (f : α → α) : Vector α n := v.set i.val (f v[i]) i.isLt

/-- The entry of a vector at a number, when there is one. -/
def vget {α : Type} {n : Nat} (v : Vector α n) (i : Nat) (d : α) : α := v.toList.getD i d

/-- Entry number i of a vector replaced, when there is one. -/
def vset {α : Type} {n : Nat} (v : Vector α n) (i : Nat) (x : α) : Vector α n :=
  if h : i < n then v.set i x h else v

/-- All numbers below n as indices. -/
def fins (n : Nat) : List (Fin n) := List.finRange n

/-- The index that a number names, when it is below n. -/
def toFin? (n i : Nat) : Option (Fin n) := if h : i < n then some ⟨i, h⟩ else none

/-! ### State -/

/-- The instant of a command: time never runs backwards (log entry 1). -/
def State.at (s : State) (t : Nat) : State := { s with now := max s.now t }

/-- TB (R56): main-clock cycles from reset exit, shifted to the pair's common timebase (R373). -/
def State.tb (s : State) : Nat := (((s.now : Int) - s.tb0 + s.pair.tbOff) % ((2 ^ 64 : Nat) : Int)).toNat

/-- The model cycle at which TB has a value. -/
def State.cycleOfTb (s : State) (tb : Nat) : Nat := ((tb : Int) + s.tb0 - s.pair.tbOff).toNat

/-- TB at a model cycle, negative before TB began. -/
def State.signedTb (s : State) (cyc : Nat) : Int := (cyc : Int) - s.tb0 + s.pair.tbOff

/-- A group's data path is up: L+ present and the group configured (R200). -/
def Group.up (p : Group) : Bool := p.lplus && p.cfg

def State.updRoom (s : State) (r : RoomId) (f : Room → Room) : State := { s with rooms := upd s.rooms r f }
def State.updChan (s : State) (c : ChanId) (f : Chan → Chan) : State := { s with chans := upd s.chans c f }
def State.updGrp (s : State) (g : GrpId) (f : Group → Group) : State := { s with groups := upd s.groups g f }
def State.updCan (s : State) (k : PortId) (f : Can → Can) : State := { s with cans := upd s.cans k f }

/-- Every room, channel, group or port replaced by what a function makes of it. -/
def State.mapRooms (s : State) (f : Room → Room) : State := { s with rooms := s.rooms.map f }
def State.mapChans (s : State) (f : Chan → Chan) : State := { s with chans := s.chans.map f }
def State.mapGroups (s : State) (f : Group → Group) : State := { s with groups := s.groups.map f }
def State.mapCans (s : State) (f : Can → Can) : State := { s with cans := s.cans.map f }

/-- Something leaves the module (log entry 4). -/
def State.emit (s : State) (o : Out) : State := { s with out := s.out ++ [o] }

/-- The module sets W1C bits of the register at a BAR0 offset in this cycle: a write of 1 to them in the same cycle does not clear them (R9). -/
def State.mark (s : State) (off bits : Nat) : State :=
  { s with marks := (s.now, off, bits) :: s.marks.filter (fun x => x.1 == s.now) }

/-- The bits of a register that the module has set in this cycle (R9). -/
def State.marked (s : State) (off : Nat) : Nat :=
  (s.marks.filter (fun x => x.1 == s.now && x.2.1 == off)).foldl (fun m x => m ||| x.2.2) 0

/-- A write request to host memory: it waits while Bus Master Enable is 0 or the function is not in D0 (R333), and is not made at all after a
DMA failure on the rings (R334). -/
def State.request (s : State) (o : Out) : State :=
  if s.host.mute then s
  else if s.host.busMaster then s.emit o
  else { s with host := { s.host with outbox := s.host.outbox ++ [o] } }

/-- The host address of the entry of index i in a ring whose entries have a size (R339): entry i mod N. -/
def RingCfg.entryAddr (g : RingCfg) (size i : Nat) : Nat := g.base + size * (i % 2 ^ g.logn)

/-- A free value: unconstrained, and a new one every time (log entry 10). -/
def State.free (s : State) : Word × State := (Config.freeWord s.fresh, { s with fresh := s.fresh + 1 })

/-- The room has instructions to issue: READY, its REST not yet fetched (R81, R83). -/
def Room.ready (v : Room) : Bool := v.st == .ready && v.restAt.isNone

/-- The state of a room at an instant: REST makes it WAITING when it completes write-back (R81). -/
def Room.stAt (v : Room) (now : Nat) : RoomSt :=
  match v.restAt with
  | some x => if v.st = .ready ∧ x ≤ now then .waiting else v.st
  | none => v.st

/-- The steward runs (R69 step 6). -/
def State.steward (s : State) : Bool := s.phase == .running

/-- Saturating count of w bits. -/
def satInc {w : Nat} (x : BitVec w) : BitVec w := if x = BitVec.allOnes w then x else x + 1

/-! ### Tasks and rooms of the running configuration -/

/-- The running configuration's task with an index. -/
def Conf.task (c : Conf) (i : Nat) : Option Task := c.way.tasks[i]?

/-- The room that a task of the running configuration has (R80). -/
def State.roomOf (s : State) (i : Nat) : Option RoomId :=
  match s.app.cur with
  | none => none
  | some c => match c.an.rooms[i]? with
    | none => none
    | some r => toFin? 100 r

/-- The task index that a room runs, in the running configuration. -/
def State.taskOf (s : State) (r : RoomId) : Option Nat :=
  match s.app.cur with
  | none => none
  | some c => (List.range c.way.tasks.length).find? (fun i => c.an.rooms[i]? == some r.val)

/-- The period of a task in base ticks, 0 when there is none. -/
def State.period (s : State) (i : Nat) : Nat :=
  match s.app.cur with
  | none => 0
  | some c => ((c.task i).map Task.k).getD 0

/-- The task is released at cycle number n (R164, R184). -/
def State.releasedAt (s : State) (i n : Nat) : Bool :=
  s.app.running && decide (s.app.startTick ≤ n) && decide (0 < s.period i) && (n - s.app.startTick) % s.period i == 0

/-- Number of tasks of the running configuration. -/
def State.taskCount (s : State) : Nat := match s.app.cur with | none => 0 | some c => c.way.tasks.length

/-- The first word of the code-store half that holds the running code (log entry 8). -/
def State.codeBase (s : State) : Nat := s.app.half.val * 524288

/-- The place of a task's entry in the code store. -/
def State.entryPc (s : State) (i : Nat) : BitVec 20 :=
  match s.app.cur with
  | none => 0
  | some c => BitVec.ofNat 20 (s.codeBase + ((c.task i).map Task.entry).getD 0)

/-! ### Setting up rooms (R80, R81) -/

/-- The room of task i as it waits for its first release: registers zero, PC at the entry. Dirty marks of the retained window and the
figures of SCAN_ROOM stay. -/
def State.setUpRoom (s : State) (c : Conf) (i : Nat) : State :=
  match c.task i, (c.an.rooms[i]?).bind (toFin? 100) with
  | some t, some r => s.updRoom r (fun v => { Room.init with
      pc := BitVec.ofNat 20 (s.codeBase + t.entry)
      lane := BitVec.toFin (BitVec.ofNat 3 t.lane)
      prio := BitVec.ofNat 7 t.prio
      st := .waiting
      privBase := c.an.privBase.getD i 0
      privLen := t.privLen
      retBase := c.an.retBase.getD i 0
      retLen := t.retLen
      dirty := v.dirty
      jdead := v.jdead
      oow := v.oow
      peak := v.peak
      resp := v.resp })
  | _, _ => s

/-- Every room a configuration assigns is set up; the others are UNUSED. -/
def State.setUpRooms (s : State) (c : Conf) : State :=
  let s := { s with rooms := s.rooms.mapFinIdx (fun r v _ => if c.an.rooms.contains r then v else Room.init) }
  (List.range c.way.tasks.length).foldl (fun s i => s.setUpRoom c i) s

/-! ### Channel modes (R235, R268) -/

/-- Digital-input modes Type 1 and Type 3. -/
def ChanCfg.isDin (c : ChanCfg) : Bool := c.mode == 1 || c.mode == 2
def ChanCfg.isCounter (c : ChanCfg) : Bool := c.mode == 3
def ChanCfg.isDout (c : ChanCfg) : Bool := c.mode == 8 || c.mode == 9
def ChanCfg.isReadback (c : ChanCfg) : Bool := c.mode == 9
def ChanCfg.isAin (c : ChanCfg) : Bool := decide (0x10 ≤ c.mode) && decide (c.mode ≤ 0x1F)
def ChanCfg.isAout (c : ChanCfg) : Bool := decide (0x20 ≤ c.mode) && decide (c.mode ≤ 0x22)
def ChanCfg.isAnalogue (c : ChanCfg) : Bool := c.isAin || c.isAout
def ChanCfg.isOutput (c : ChanCfg) : Bool := c.isDout || c.isAout
/-- The modes whose channel has a state bit (R235). -/
def ChanCfg.hasState (c : ChanCfg) : Bool := c.isDin || c.isCounter || c.isReadback

/-- The CHAN entry of a channel in the running configuration. -/
def State.chanCfg (s : State) (n : Nat) : Option ChanCfg :=
  match s.app.cur with
  | none => none
  | some c => c.way.chans.find? (fun e => e.ch == n)

def u8p (c : ChanCfg) (byte : Nat) : Nat := u8 c.param (byte - 20)
def ChanCfg.safe (c : ChanCfg) : Nat := u8p c 20
def ChanCfg.timeout (c : ChanCfg) : Nat := u16 c.param 2
def ChanCfg.range (c : ChanCfg) : Nat := fld (u8p c 21) 0 4

/-! ### Engine slots (R271, R273, R274) -/

/-- Index in its group, RATE and SPS of the analogue channels of a group, which its slot schedule serves (R176, R274). -/
def schedUse (w : Way) (g : Nat) : List (Nat × Nat × Nat) :=
  (w.chans.filter (fun e => e.ch / 16 == g && e.isAnalogue)).map (fun e => (e.ch % 16, e.rate, e.sps))

/-- Channel slots in a second: 31 of each 1 ms frame. -/
def slotsPerSecond : Nat := 31000

/-- The cycle within field time at which channel slot k begins, slots counted from TB 0 without the reference slots. -/
def slotStart (k : Nat) : Nat := k / 31 * 400000 + (k % 31 + 1) * 12500

/-- The slots that a sample of SPS slots occupies whose last slot is k; the schedule goes round. -/
def sampleSlots (k sps : Nat) : List Nat := (List.range sps).map (fun j => (k + slotsPerSecond - j % slotsPerSecond) % slotsPerSecond)

/-- A schedule is one of R274: each channel has exactly RATE samples in the second, no slot serves two, and after each sample of a channel the
next one starts within 2 / RATE. -/
def schedOk (use : List (Nat × Nat × Nat)) (sched : List (Nat × Nat)) : Bool :=
  let spsOf : Nat → Nat := fun i => ((use.find? (fun u => u.1 == i)).map (fun u => u.2.2)).getD 0
  let taken := sched.flatMap (fun x => sampleSlots x.1 (spsOf x.2))
  sched.all (fun (x : Nat × Nat) => decide (x.1 < slotsPerSecond) && decide (0 < spsOf x.2)) && decide taken.Nodup &&
    use.all (fun u =>
      let mine := (sched.filter (fun x => x.2 == u.1)).map (fun x => slotStart ((sampleSlots x.1 u.2.2).getLastD 0))
      mine.length == u.2.1 && mine.all (fun a => mine.any (fun b =>
        let d := (b + 400000000 - a) % 400000000
        decide ((if d = 0 then 400000000 else d) * u.2.1 ≤ 800000000))))

end Sys2Proof.Machine
end

