-- ==== Sys2Proof/Machine/NvOps.lean ====
section
/-! DEFINITION. The NV store's layout, records, counters and queue of page programs (R435 to R446). -/

namespace Sys2Proof.Machine

/-- The greatest data length of a record (R443, R444; log entry 15). 0: not a record. -/
def recSize (rec : Nat) : Nat :=
  if rec = 1 then 5 else if rec = 2 then 24 else if rec = 3 then 4 else if rec = 4 then 1
  else if rec = 5 then 1536 else if rec = 6 then 768 else if rec = 7 then 1 else if rec = 8 then 4
  else if 0x100 ≤ rec ∧ rec ≤ 0x13B then 4096 else 0

/-- Where slot 0 or 1 of a record begins: the steward's placement for system records (log entry 15), R444 for driver records. -/
def recAddr (rec slot : Nat) : Nat :=
  if rec < 0x100 then 0x1000 + 0xE00 * (rec - 1) + 0x700 * slot
  else 0x80000 + 0x20000 * ((rec - 0x100) / 15) + 0x2200 * ((rec - 0x100) % 15) + 0x1100 * slot

/-- A slot header and its data (R440). -/
def slotBytes (rec seq : Nat) (data : List Byte) : List Byte :=
  let a := toLe 2 rec ++ toLe 2 data.length ++ toLe 4 seq
  let z := toLe 4 0
  a ++ toLe 4 (crc32 (a ++ z ++ data)).toNat ++ z ++ data

/-- What a slot holds when it is valid (R441): SEQ and data. -/
def slotRead (m : Mem) (rec slot : Nat) : Option (Nat × List Byte) :=
  let h := m.read (recAddr rec slot) 16
  let len := u16 h 2
  if u16 h 0 = rec ∧ 1 ≤ len ∧ len ≤ recSize rec then
    let data := m.read (recAddr rec slot + 16) len
    if (crc32 (slice h 0 8 ++ slice h 12 4 ++ data)).toNat = u32 h 8 then some (u32 h 4, data) else none
  else none

/-- a is newer than b (R441). -/
def newer (a b : Nat) : Bool :=
  let d := (a + 2 ^ 32 - b % 2 ^ 32) % 2 ^ 32
  decide (1 ≤ d) && decide (d < 2 ^ 31)

/-- The newest valid copy of a record (R441): its slot, SEQ and data; and whether two valid slots carry one SEQ. -/
def recRead (m : Mem) (rec : Nat) : Option (Nat × Nat × List Byte) :=
  match slotRead m rec 0, slotRead m rec 1 with
  | none, none => none
  | some (q, d), none => some (0, q, d)
  | none, some (q, d) => some (1, q, d)
  | some (q0, d0), some (q1, d1) =>
    if q0 = q1 then (if q0 % 2 = 0 then some (0, q0, d0) else some (1, q1, d1))
    else if newer q0 q1 then some (0, q0, d0) else some (1, q1, d1)

/-- The record slot that an address lies in, when that slot is valid. -/
def slotAt (m : Mem) (a : Nat) : Option (Nat × Nat) :=
  let recs := (List.range 8).map (· + 1) ++ (List.range 60).map (· + 0x100)
  (recs.flatMap (fun r => [(r, 0), (r, 1)])).find? (fun x =>
    decide (recAddr x.1 x.2 ≤ a) && decide (a < recAddr x.1 x.2 + 16 + recSize x.1) && (slotRead m x.1 x.2).isSome)

/-- Two valid slots with one SEQ (R441). -/
def recDup (m : Mem) (rec : Nat) : Bool :=
  match slotRead m rec 0, slotRead m rec 1 with
  | some (q0, _), some (q1, _) => q0 == q1
  | _, _ => false

/-- Where and with which SEQ the next write of a record goes (R442). -/
def recNext (m : Mem) (rec : Nat) : Nat × Nat :=
  match recRead m rec with
  | none => (0, 0)
  | some (slot, q, _) =>
    let other := 1 - slot
    if (q + 1) % 2 = other then (other, (q + 1) % 2 ^ 32) else (other, (q + 2) % 2 ^ 32)

/-- The data of a record, empty when it does not exist. -/
def recData (m : Mem) (rec : Nat) : List Byte :=
  match recRead m rec with
  | none => []
  | some (_, _, d) => d

/-- The NV content once every program waiting has been carried out. -/
def Nv.settled (n : Nv) : Mem :=
  (n.busy.toList ++ n.queue).foldl (fun m j => m.write j.addr j.bytes) n.mem

/-- Bytes cut into pieces that each lie in one 256-byte page (R436). -/
def pageCuts : Nat → Nat → List Byte → List (Nat × List Byte)
  | 0, _, _ => []
  | fuel + 1, a, bs =>
    if bs = [] then []
    else
      let room := 256 - a % 256
      if bs.length ≤ room then [(a, bs)]
      else (a, bs.take room) :: pageCuts fuel (a + room) (bs.drop room)

/-- The page programs of a slot, data pages first and the header page last (R442). -/
def slotPages (addr : Nat) (bs : List Byte) : List (Nat × List Byte) :=
  match pageCuts 20 addr bs with
  | [] => []
  | h :: rest => rest ++ [h]

/-- Queueing the page programs of one write; the last one carries what follows the write. -/
def Nv.enqueue (n : Nv) (cls : Nat) (pages : List (Nat × List Byte)) (done : NvDone) : Nv :=
  let last := pages.length - 1
  let jobs := pages.mapIdx (fun i p =>
    { cls := cls, addr := p.1, bytes := p.2, retry := false, write := n.writes, done := if i = last then done else .nothing })
  { n with queue := n.queue ++ jobs, writes := n.writes + 1 }

/-- A journal page may be overwritten only after it has been folded (R450). -/
def Nv.allowed (n : Nv) (j : NvJob) : Bool := j.cls != 2 || decide (u32 j.bytes 0 < n.folded + 512)

/-- The next program the controller takes: the first of the first non-empty class (R437). -/
def Nv.pick (n : Nv) : Option NvJob :=
  [1, 2, 3, 4, 5].findSome? (fun c => n.queue.find? (fun j => j.cls == c && n.allowed j))

/-- The controller starts the next program when it is free and writes are permitted (R437, R438); the power-loss sequence
belongs to class 1. Queued programs wait during a power failure. -/
def Nv.start (n : Nv) : Nv :=
  match n.busy with
  | some _ => n
  | none =>
    if n.ready then
      match n.pick with
      | none => n
      | some j => { n with busy := some j, queue := n.queue.erase j }
    else n

/-- A write is queued and the controller starts it when it can. -/
def State.nvWrite (s : State) (cls : Nat) (pages : List (Nat × List Byte)) (done : NvDone) : State :=
  { s with nv := (s.nv.enqueue cls pages done).start }

/-- Writing a record under the two-slot rule (R442). -/
def State.recWrite (s : State) (cls rec : Nat) (data : List Byte) (done : Nat → NvDone) : State :=
  let p := recNext s.nv.settled rec
  s.nvWrite cls (slotPages (recAddr rec p.1) (slotBytes rec p.2 data)) (done p.2)

/-- A counter cell (R445): its value when it is valid. -/
def cellRead (m : Mem) (base i : Nat) : Option Nat :=
  let b := m.read (base + 4 * i) 4
  let v := u24 b 0
  if u8 b 3 = (BitVec.ofNat 8 ((u8 b 0 + u8 b 1 + u8 b 2 + 0x5A) % 256) ^^^ 0xFF).toNat ∧ v % 8 = i then some v else none

/-- A counter's count: the largest value among its valid cells (R445). -/
def counter (m : Mem) (base : Nat) : Nat :=
  (List.range 8).foldl (fun a i => match cellRead m base i with | some v => max a v | none => a) 0

def hoursBase : Nat := 0
def cyclesBase : Nat := 0x20

/-- Operating hours in 0.1 h and power cycles (R445). -/
def State.hours (s : State) : Nat := counter s.nv.mem hoursBase
def State.pcyc (s : State) : Nat := counter s.nv.mem cyclesBase

/-- Incrementing a counter: the value bytes, then the check byte in a later program (R446). -/
def State.countUp (s : State) (cls base : Nat) : State :=
  let v := min (counter s.nv.settled base + 1) 0xFFFFFF
  let a := base + 4 * (v % 8)
  let b := toLe 3 v
  let chk := BitVec.ofNat 8 ((u8 b 0 + u8 b 1 + u8 b 2 + 0x5A) % 256) ^^^ 0xFF
  s.nvWrite cls [(a, b), (a + 3, [chk])] .nothing

/-- The protected part of the application half (R439), kept in record 0x0007. -/
def State.bp (s : State) : Nat := u8 (recData s.nv.settled 7) 0 % 4

/-- The bytes of configuration record 0x0001: the configuration ID and the run flag (R443; log entry 15). -/
def confRecord (id : Word) (run : Bool) : List Byte := toLe 4 id.toNat ++ [BitVec.ofNat 8 (b2n run)]

end Sys2Proof.Machine
end

