-- ==== Sys2Proof/Machine/Regs.lean ====
section
/-! DEFINITION. What every register of BAR0 reads (R335 to R337 and the register tables R71, R101, R183, R266, R300, R330, R368,
R404, R415, R433, R456, R471, R492). `barWord` is the live value, as the internal path reads it (R460). -/

namespace Sys2Proof.Machine

/-! ### Identity (R337, R131) -/

/-- FEATn (R131); `arith` is the lane class of the reading room. -/
def feature (n : Nat) (arith : Bool) : Word :=
  if n = 0 then pack [(0, 7, 0x7F), (7, 1, b2n arith), (8, 4, 8), (12, 4, 2), (16, 6, 32)]
  else if n = 1 then pack [(0, 8, 100), (8, 8, 1), (16, 8, 0)]
  else if n = 3 then pack [(0, 5, 20), (5, 5, 21), (10, 5, 19)]
  else 0

/-- ID_STATE.APP: 0 nothing stored, 1 stopped, 2 running, 3 held. -/
def State.appState (s : State) : Nat :=
  if s.app.running then 2 else if s.app.held then 3 else if s.app.stored.isSome then 1 else 0

/-- A code swap is on trial (R225 to R230). -/
def State.trial (s : State) : Bool :=
  match s.edits.swap with
  | .trial | .pendRollback | .releasing => true
  | _ => false

/-- The image slot that runs. -/
def Sec.image (c : Sec) (slot : Bool) : List Byte := if slot then c.imgB else c.imgA
def Sec.slotState (c : Sec) (slot : Bool) : SlotSt := if slot then c.stB else c.stA

def slotCode : SlotSt → Nat
  | .empty => 0
  | .good => 1
  | .trial => 2
  | .old => 3

/-- Header VERSION of an image (R474). -/
def imageVersion (img : List Byte) : Nat := u24 img 8

def regId (s : State) (o : Nat) : Word :=
  if o = 0x00 then 0x3239314D else if o = 0x04 then 0x0000534D
  else if o = 0x08 then pack [(0, 8, Config.hwMinor.toNat), (8, 8, Config.hwMajor.toNat)]
  else if o = 0x0C then pack [(0, 24, imageVersion (s.sec.image s.sec.slot))]
  else if o = 0x10 then Config.serial.setWidth 32 else if o = 0x14 then (Config.serial >>> 32).setWidth 32
  else if o = 0x20 then feature 0 false else if o = 0x24 then feature 1 false
  else if o = 0x28 then feature 2 false else if o = 0x2C then feature 3 false
  else if o = 0x40 then pack [(0, 2, s.appState), (2, 2, s.pair.role.toNat), (4, 1, b2n s.trial), (5, 1, b2n s.inn.exam.isSome),
    (6, 1, b2n s.pwr.pfwarn)]
  else if o = 0x48 then BitVec.ofNat 32 s.cycle
  else if o = 0x4C then pack [(0, 16, s.cycle / 2 ^ 32)]
  else 0

/-! ### Clock and reset (R71) -/

/-- Resets with causes 0x04 and 0x07 to 0x09 in the last 60 s (R68). -/
def State.recent (s : State) : Nat := (s.clk.recent.filter (fun t => decide (s.now < t + 60 * secCycles))).length

def regClk (s : State) (o : Nat) : Word :=
  let c := s.clk
  if o = 0x00 then pack [(0, 1, b2n c.judged), (1, 1, b2n c.refsrc), (2, 1, b2n c.rtcstop), (3, 1, b2n c.noref), (4, 4, c.refgrp.toNat),
    (8, 1, b2n c.plllock), (9, 1, b2n c.warn)]
  else if o = 0x04 then c.count.setWidth 32 else if o = 0x08 then c.cntmin.setWidth 32 else if o = 0x0C then c.cntmax.setWidth 32
  else if o = 0x10 then pack [(0, 8, c.cause.toNat), (8, 8, c.prev.toNat)]
  else if o = 0x14 then pack [(0, 8, c.total.toNat), (8, 8, min 255 s.recent)]
  else if o = 0x20 then c.tsteward else if o = 0x24 then c.tjudged else if o = 0x28 then c.tfirst
  else 0

/-! ### Host rings (R368) -/

def regHost (s : State) (o : Nat) : Word :=
  let h := s.host
  if o = 0x04 then pack [(0, 1, b2n h.active), (1, 1, b2n h.busy), (2, 1, b2n h.dmaerr), (3, 1, b2n h.ringerr), (4, 1, b2n h.gbfull),
    (5, 1, b2n h.cqfull)]
  else if o = 0x08 then h.setuplo else if o = 0x0C then h.setuphi
  else if o = 0x10 then pack [(0, 16, h.setupStatus.toNat), (16, 5, h.setupRing.toNat)]
  else if o = 0x14 then h.ringErr.setWidth 32 else if o = 0x18 then h.polls else if o = 0x1C then h.cmds
  else 0

/-! ### Night porter (R415) -/

def regNp (s : State) (o : Nat) : Word :=
  let n := s.np
  if o = 0x00 then pack [(0, 29, n.period.toNat), (29, 1, b2n n.mode)]
  else if o = 0x04 then n.open'.setWidth 32 else if o = 0x08 then n.close.setWidth 32
  else if o = 0x0C then pack [(0, 1, b2n n.appok), (1, 1, b2n n.stwok), (2, 1, b2n n.stage), (3, 1, b2n n.warn), (4, 3, n.wcause.toNat)]
  else if o = 0x10 then pack [(0, 29, s.tb - n.start)]
  else if o = 0x14 then n.warns.setWidth 32
  else if o = 0x20 then n.evinfo.setWidth 32 else if o = 0x24 then n.evapc.setWidth 32 else if o = 0x28 then n.evspc
  else if o = 0x30 then n.evatb.setWidth 32 else if o = 0x34 then (n.evatb >>> 32).setWidth 32
  else if o = 0x38 then n.evstb.setWidth 32 else if o = 0x3C then (n.evstb >>> 32).setWidth 32
  else 0

/-! ### Backup domain (R421, R433) -/

/-- 32.768 kHz cycles into the current second (R421; log entry 16). -/
def State.rtcSub (s : State) : Nat := min 32767 ((s.now - s.bk.secAt) * 32768 / secCycles)

def rtcTimeWord (c : Cal) (snap : Nat) : Word :=
  pack [(0, 6, c.second), (8, 6, c.minute), (16, 5, c.hour), (24, 3, c.weekday), (28, 4, snap)]

def rtcDateWord (c : Cal) (dst : Bool) (snap : Nat) : Word :=
  pack [(0, 5, c.day), (8, 4, c.month), (12, 8, c.year), (20, 1, b2n dst), (28, 4, snap)]

/-- Countdown remaining in 1/64 s (R429; log entry 16). -/
def State.countdown (s : State) : Nat :=
  if s.bk.alm2.mode = 2 then s.bk.cnt.toNat - (s.now - s.bk.cntAt) * 64 / secCycles else 0

def almVal (a : Alarm) : Word :=
  pack [(0, 6, a.second.toNat), (8, 6, a.minute.toNat), (16, 5, a.hour.toNat), (24, 5, a.day.toNat)]
def almCfg (a : Alarm) : Word :=
  pack [(0, 2, a.mode.toNat), (8, 6, a.mask.toNat), (16, 4, a.month.toNat), (24, 3, a.weekday.toNat)]

/-- The supply of the backup domain (R416): 0 VSUP, else the higher of VBAK (1) and the internal cell (2). -/
def State.bkSource (s : State) : Nat := if s.pwr.vsup then 0 else if s.bk.cell.toNat < s.bk.vbak.toNat then 1 else 2

def regBk (s : State) (o : Nat) : Word :=
  let b := s.bk
  if o = 0x00 then pack [(0, 1, b2n b.valid), (1, 2, s.bkSource), (3, 1, b2n b.oscstop), (4, 1, b2n b.lostevt), (5, 1, b2n b.wrapped),
    (6, 1, b2n b.dstStep.isSome), (7, 1, b2n b.stagedSet.isSome), (8, 1, b2n b.a1), (9, 1, b2n b.a2)]
  else if o = 0x04 then pack [(0, 12, b.cell.toNat), (16, 12, b.vbak.toNat)]
  else if o = 0x08 then b.trim.setWidth 32
  else if o = 0x10 then pack [(0, 15, s.rtcSub)]
  else if o = 0x14 then rtcTimeWord b.cal 0 else if o = 0x18 then rtcDateWord b.cal b.dst 0
  else if o = 0x20 then almVal b.alm1 else if o = 0x24 then almCfg b.alm1
  else if o = 0x28 then almVal b.alm2 else if o = 0x2C then almCfg b.alm2
  else if o = 0x30 then pack [(0, 24, s.countdown)]
  else if 0x100 ≤ o ∧ o < 0x180 then vget b.saddle ((o - 0x100) / 4) 0
  else 0

/-! ### NV store (R456) -/

/-- The longest time since a block that is still dirty was first marked (R456). -/
def State.dirtyAge (s : State) : Nat :=
  s.rooms.toList.foldl (fun a v => v.dirty.foldl (fun a b => max a (s.now - b.2)) a) 0

def regNv (s : State) (o : Nat) : Word :=
  let n := s.nv
  if o = 0x00 then pack [(0, 1, b2n n.ready), (1, 1, b2n n.busy.isSome), (2, 1, b2n n.pfail), (3, 1, b2n n.dupseq), (4, 1, b2n n.jover),
    (5, 1, b2n n.badrec)]
  else if o = 0x04 then pack [(0, 2, s.bp), (2, 1, b2n n.lock)]
  else if o = 0x08 then pack [(0, 5, (n.queue.filter (fun j => j.cls == 2)).length), (8, 10, if n.ready then 512 - (n.jseq - n.folded) else 0),
    (20, 12, min 4095 (s.dirtyAge / msCycles))]
  else if o = 0x0C then n.jskips else if o = 0x10 then n.pages
  else if o = 0x20 then BitVec.ofNat 32 s.hours else if o = 0x24 then BitVec.ofNat 32 s.pcyc
  else 0

/-! ### Guestbook (R463 to R466, R471) -/

def gbAddr (slot : Nat) : Nat := 0x40000 + 64 * slot

/-- A slot of the book whose CRC matches (R457). -/
def gbValid (rec : List Byte) : Bool := u32 rec 60 == (crc32 (slice rec 0 60)).toNat

/-- A slot is free when its TYPE is 0 or its CRC fails (R463). -/
def gbFree (m : Mem) (slot : Nat) : Bool :=
  if m.get (gbAddr slot) = 0 then true else !gbValid (m.read (gbAddr slot) 64)

/-- The records of the book: slot, severity, SEQ. -/
def gbBook (m : Mem) : List (Nat × Nat × Nat) :=
  (List.range 4096).filterMap (fun i =>
    if gbFree m i then none else some (i, u8 (m.read (gbAddr i) 64) 2 % 4, u32 (m.read (gbAddr i) 64) 12))

/-- The newest record of a list of slots, severities and SEQs (R459). -/
def gbNewest : List (Nat × Nat × Nat) → Option (Nat × Nat)
  | [] => none
  | (i, _, q) :: r =>
    match gbNewest r with
    | none => some (i, q)
    | some (j, p) => if newer q p then some (i, q) else some (j, p)

/-- The record that a new one of a severity replaces in a full book (R463): the oldest of equal or lower severity. -/
def gbReplace (book : List (Nat × Nat × Nat)) (sev : Nat) : Option Nat :=
  (book.filter (fun r => decide (r.2.1 ≤ sev))).foldl (fun (best : Option (Nat × Nat)) r =>
    match best with
    | none => some (r.1, r.2.2)
    | some b => if newer b.2 r.2.2 then some (r.1, r.2.2) else some b) none |>.map Prod.fst

def regGb (s : State) (o : Nat) : Word :=
  let g := s.gb
  if o = 0x00 then
    let n := (gbBook s.nv.mem).length
    pack [(0, 13, n), (13, 1, b2n (n == 4096)), (16, 7, g.queue.length)]
  else if o = 0x04 then pack [(0, 12, ((gbNewest (gbBook s.nv.mem)).map Prod.fst).getD 0)]
  else if o = 0x08 then BitVec.ofNat 32 (((gbNewest (gbBook s.nv.mem)).map Prod.snd).getD 0)
  else if o = 0x0C then g.snapsev.setWidth 32
  else if o = 0x10 then pack [(0, 16, g.drops[0].toNat), (16, 16, g.drops[1].toNat)]
  else if o = 0x14 then pack [(0, 16, g.drops[2].toNat), (16, 16, g.drops[3].toNat)]
  else if o = 0x18 then g.bad.setWidth 32
  else if 0x20 ≤ o ∧ o < 0x40 then vget g.snaps ((o - 0x20) / 4) 0
  else 0

/-! ### CAN ports (R330) -/

/-- The port status word of R202. -/
def canWord (c : Can) : Nat :=
  b2n c.active + 2 * b2n c.passive + 4 * b2n c.busoff + 8 * b2n (!c.vplus) + 16 * b2n c.restricted +
    65536 * min 255 c.tec + 16777216 * min 255 c.recc

def detCode : DetSt → Bool
  | .nominal | .data => true
  | _ => false

def regCan (s : State) (k : Nat) (o : Nat) : Word :=
  let c := vget s.cans k Can.init
  if o = 0x00 then
    BitVec.ofNat 32 (canWord c + 32 * b2n c.listen + 64 * b2n c.gate + 128 * b2n (detCode c.det) + 256 * b2n c.term)
  else if o = 0x04 then c.evt.setWidth 32 else if o = 0x08 then c.evten.setWidth 32
  else if o = 0x0C then pack [(0, 1, b2n c.termSet)]
  else if o = 0x10 then c.nbt else if o = 0x14 then c.dbt else if o = 0x18 then c.tdcv.setWidth 32
  else if o = 0x1C then c.lasterr.setWidth 32
  else if o = 0x20 then pack [(2, 1, b2n (detCode c.det)), (3, 1, b2n c.detRefused), (8, 8, c.detTime.toNat)]
  else if o = 0x24 then pack [(0, 3, c.detNomRes.toNat), (4, 3, c.detDataRes.toNat), (8, 1, b2n c.detValid), (9, 1, b2n c.detFail),
    (16, 16, c.detFrames.toNat)]
  else if o = 0x30 then c.rxcnt else if o = 0x34 then c.txcnt else if o = 0x38 then c.wdrcnt else if o = 0x3C then c.ovrcnt
  else if o = 0x40 then c.stale.setWidth 32 else if o = 0x44 then (c.stale >>> 32).setWidth 32
  else if 0x80 ≤ o ∧ o < 0xA0 then (c.wdrmap >>> (8 * (o - 0x80))).setWidth 32
  else 0

/-! ### Groups and the spare engine (R266, R300) -/

def chanAt (s : State) (g i : Nat) : Chan := vget s.chans (16 * g + i) Chan.init

/-- A mask of the 16 channels of a group. -/
def grpMask (s : State) (g : Nat) (p : Chan → Bool) : Nat := maskOf (fun i => p (chanAt s g i)) 16

/-- The state bit of R199: the filtered level of the modes that have one. -/
def Chan.state (c : Chan) : Bool := match c.cfg with | none => false | some e => e.hasState && c.level

def Chan.outOfRange (c : Chan) : Bool := c.underR || c.overR
def Chan.aFault (c : Chan) : Bool :=
  match c.cfg with | none => false | some e => e.isAnalogue && (c.copen || c.short || c.lowv || c.cdisc)

/-- The figures of the stored analysis (R183). -/
def State.an (s : State) : Option Analysis := s.app.stored.map Conf.an

def regGrp (s : State) (g : Nat) (o : Nat) : Word :=
  let p := vget s.groups g Group.init
  if o = 0x00 then pack [(0, 1, b2n p.lplus), (1, 1, b2n p.cfg), (2, 1, b2n p.supact), (3, 1, b2n (p.lplus && s.pwr.quietIn)), (4, 1, b2n p.supevt),
    (5, 1, b2n p.lploss), (6, 1, b2n p.grpoc)]
  else if o = 0x04 then pack [(0, 12, p.lpv.toNat), (16, 12, p.igrp.toNat)]
  else if o = 0x08 then pack [(0, 7, p.timeout.toNat), (8, 8, p.supcount.toNat)]
  else if o = 0x10 then pack [(0, 16, grpMask s g Chan.state), (16, 16, grpMask s g Chan.drive)]
  else if o = 0x14 then pack [(0, 16, grpMask s g (fun c => c.held)), (16, 16, p.protLatch.toNat)]
  else if o = 0x18 then pack [(0, 16, grpMask s g (fun c => c.copen && (c.cfg.map (fun e => !e.isAnalogue)).getD false)), (16, 16, p.openLatch.toNat)]
  else if o = 0x1C then pack [(0, 16, grpMask s g (fun c => c.cdisc && (c.cfg.map (fun e => !e.isAnalogue)).getD false)), (16, 16, p.discLatch.toNat)]
  else if o = 0x20 then pack [(0, 16, grpMask s g (fun c => c.rateHeld)), (16, 16, p.rateLatch.toNat)]
  else if o = 0x24 then p.demag.setWidth 32
  else if 0x40 ≤ o ∧ o < 0x80 then
    let c := chanAt s g ((o - 0x40) / 4)
    pack [(0, 3, c.cause.toNat), (3, 2, min 3 c.retries), (8, 10, c.edem.toNat), (20, 12, c.iload.toNat)]
  else if o = 0x80 then pack [(0, 1, b2n p.engok), (1, 1, b2n p.spare), (2, 1, b2n (p.engfail && !p.spare)),
    (3, 1, b2n (p.lplus && (s.pwr.quietIn || p.relief))), (4, 1, b2n p.failevt), (5, 1, b2n p.retevt), (8, 3, p.failkind.toNat),
    (16, 15, match s.an with | none => 0 | some a => 31000 - a.slots.getD g 0)]
  else if o = 0x84 then pack [(0, 16, p.zeroErr.toNat), (16, 16, p.gainErr.toNat)]
  else if o = 0x88 then pack [(0, 16, p.cjt.toNat), (16, 1, b2n p.cjok)]
  else if o = 0x8C then pack [(0, 16, grpMask s g Chan.aFault), (16, 16, p.afLatch.toNat)]
  else if o = 0x90 then pack [(0, 16, grpMask s g Chan.outOfRange), (16, 16, p.arLatch.toNat)]
  else if o = 0x94 then pack [(0, 4, p.calCh.toNat), (4, 2, b2n p.calLow.isSome + b2n p.calHigh.isSome)]
  else if o = 0x98 then pack [(0, 16, grpMask s g (fun c => c.trimG != 0 || c.trimO != 0))]
  else if 0xC0 ≤ o ∧ o < 0x100 then
    let c := chanAt s g ((o - 0xC0) / 4)
    let q := chanAt s g ((o - 0xC0) / 4 - 1)
    match c.cfg, q.cfg with
    | some e, _ => if e.isAnalogue then c.value else 0
    | none, some f => if (o - 0xC0) / 4 % 2 = 1 ∧ (f.mode = 0x19 ∨ f.mode = 0x1A ∨ f.mode = 0x1C) then q.aux else 0
    | none, none => 0
  else 0

def regSpare (s : State) : Word :=
  let p := s.spare
  pack [(0, 1, b2n p.engok), (1, 1, b2n p.assigned.isSome), (2, 4, (p.assigned.map Fin.val).getD 0), (6, 1, b2n p.failed), (7, 1, b2n p.takeevt),
    (16, 8, p.takeovers.toNat)]

/-! ### Pair (R402, R404) -/

/-- The period of the task that owns a channel, 0 when none does. -/
def State.ownerPeriod (s : State) (n : Nat) : Nat :=
  match s.chanCfg n with
  | none => 0
  | some e => if e.isOutput then s.period e.owner else 0

def pairAge (s : State) (n : Nat) : Word :=
  let c := vget s.chans n Chan.init
  let k := s.ownerPeriod n
  let isOut := match s.chanCfg n with | none => false | some e => e.isDout
  if !isOut then 0
  else pack [(0, 24, match c.proofHours with | none => 0 | some h => min 0xFFFFFF ((s.hours - h) / 10)), (24, 1, b2n c.proofHours.isNone),
    (25, 1, b2n (decide (0 < k) && decide (k < 5)))]

def pairCfgWord (p : Pair) : Word := pack [(0, 12, p.hold.toNat), (12, 10, p.dtime.toNat), (22, 10, p.agelim.toNat)]

def regPair (s : State) (o : Nat) : Word :=
  let p := s.pair
  if o = 0x00 then pack [(0, 2, p.role.toNat), (2, 1, b2n p.link), (3, 1, b2n s.pwr.pairPresent), (4, 1, b2n s.pwr.rolePref),
    (5, 1, b2n s.pwr.quietIn), (6, 1, b2n s.pwr.quietOut), (7, 1, b2n p.partnerPwr), (8, 1, b2n p.rsync), (9, 1, b2n p.cfgdiff),
    (10, 1, b2n p.locked), (11, 3, p.osreason.toNat)]
  else if o = 0x04 then pairCfgWord p
  else if o = 0x08 then p.evt.setWidth 32
  else if o = 0x0C then pack [(0, 16, p.crcerr.toNat), (16, 8, p.trains.toNat)]
  else if o = 0x10 then pack [(0, 16, p.phErr.toNat), (16, 16, p.trim.toNat)]
  else if o = 0x14 then pack [(0, 16, p.attempts.toNat), (16, 7, p.blockRoom.toNat), (24, 7, p.progress.toNat)]
  else if o = 0x18 then p.hyper
  else if o = 0x20 then p.partner.serial.setWidth 32 else if o = 0x24 then (p.partner.serial >>> 32).setWidth 32
  else if 0x80 ≤ o ∧ o < 0xB0 then
    let g := (o - 0x80) / 4
    pack [(0, 16, grpMask s g (fun c => c.disc)), (16, 16, grpMask s g (fun c => c.discLatch))]
  else if 0x100 ≤ o ∧ o < 0x130 then
    let g := (o - 0x100) / 4
    pack [(0, 16, grpMask s g (fun c => c.proofFail)), (16, 16, grpMask s g (fun c => c.proofFailLatch))]
  else if 0x180 ≤ o ∧ o < 0x1B0 then pack [(0, 16, grpMask s ((o - 0x180) / 4) (fun c => c.exer))]
  else if 0x400 ≤ o ∧ o < 0x700 then pairAge s ((o - 0x400) / 4)
  else 0

/-! ### Innkeeper (R183) and scan engine (R101) -/

def regInn (s : State) (o : Nat) : Word :=
  let i := s.inn
  if o = 0x00 then pack [(0, 1, b2n i.exam.isSome), (1, 1, b2n i.loaded.isSome), (2, 1, b2n s.app.stored.isSome), (3, 1, b2n i.refused)]
  else if o = 0x04 then i.result.setWidth 32
  else if o = 0x08 then (s.app.stored.map (fun c => c.way.crc)).getD 0
  else if o = 0x0C then i.time.setWidth 32
  else if 0x20 ≤ o ∧ o < 0x40 then vget i.detail ((o - 0x20) / 4) 0
  else if 0x40 ≤ o ∧ o < 0x60 then
    match s.an with
    | none => pack [(0, 26, 0x3FFFFFF)]
    | some a => pack [(0, 26, a.slack.getD ((o - 0x40) / 4) 0x3FFFFFF)]
  else if 0x80 ≤ o ∧ o < 0xB0 then
    match s.an with
    | none => 0
    | some a => pack [(0, 15, a.slots.getD ((o - 0x80) / 4) 0), (16, 12, a.power.getD ((o - 0x80) / 4) 0)]
  else if 0x100 ≤ o ∧ o < 0x420 then
    match s.an with
    | none => 0
    | some a =>
      match a.rooms.idxOf? ((o - 0x100) / 8) with
      | none => 0
      | some t => pack [(0, 26, if o % 8 = 0 then a.wcet.getD t 0 else a.resp.getD t 0)]
  else 0

def roomStCode : RoomSt → Nat
  | .unused => 0
  | .waiting => 1
  | .ready => 2
  | .stopped => 3

def regScan (s : State) (o : Nat) : Word :=
  let c := s.scan
  if o = 0x00 then pack [(0, 1, b2n (s.rooms.toList.any (fun r => r.st == .waiting || r.st == .ready))), (1, 1, b2n c.oow), (2, 1, b2n c.sbe),
    (3, 1, b2n c.suspect)]
  else if o = 0x04 then pack [(0, 16, c.sweeps.toNat), (16, 8, min 255 ((s.now - c.lastSweep) / secCycles)), (24, 7, c.scrubbed * 100 / 1707736)]
  else if 0x10 ≤ o ∧ o < 0x24 then (vget c.ecc ((o - 0x10) / 4) 0).setWidth 32
  else if o = 0x24 then pack [(0, 20, c.eccAddr.toNat), (20, 4, c.eccMem.toNat)]
  else if 0x40 ≤ o ∧ o < 0x60 then
    let k := (o - 0x40) / 4
    pack [(0, 7, (s.rooms.toList.filter (fun r => r.st != .unused && r.lane.val == k)).length), (8, 7, if s.now < vget c.issueAt k 0 + 8 then (vget c.current k 127).toNat else 127),
      (16, 12, (vget c.idleMin k 0xFFF).toNat)]
  else if 0x80 ≤ o ∧ o < 0x94 then vget c.fev ((o - 0x80) / 4) 0
  else if 0x200 ≤ o ∧ o < 0x200 + 1200 then
    let r := vget s.rooms ((o - 0x200) / 12) Room.init
    if (o - 0x200) % 12 = 0 then pack [(0, 2, roomStCode (r.stAt s.now)), (2, 3, r.lane.val), (5, 7, r.prio.toNat), (12, 1, b2n r.oow)]
    else if (o - 0x200) % 12 = 4 then r.peak.setWidth 32 else r.resp.setWidth 32
  else 0

/-! ### Security (R481, R491, R492) -/

/-- Byte i of SEC_IDCERT (R491). -/
def certByte (i : Nat) : Byte :=
  if i < 1793 then Config.identityPub.getD i 0
  else if i < 3074 then BitVec.ofNat 8 ((Config.identityCert (i / 4)).toNat / 256 ^ (i % 4))
  else 0

def secSlotWord (c : Sec) (slot : Bool) : Word :=
  if c.slotState slot = .empty then 0 else pack [(0, 24, imageVersion (c.image slot)), (24, 8, u8 (c.image slot) 6)]

def regSec (s : State) (o : Nat) : Word :=
  let c := s.sec
  if o = 0x00 then pack [(0, 1, b2n (c.oset == 0)), (1, 1, b2n (c.slotState c.slot == .trial)), (2, 1, b2n c.fallback)]
  else if o = 0x04 then pack [(0, 1, b2n c.slot), (1, 3, c.failA.toNat), (4, 3, c.failB.toNat), (7, 2, c.tries), (9, 2, slotCode c.stA),
    (11, 2, slotCode c.stB)]
  else if o = 0x08 then secSlotWord c false else if o = 0x0C then secSlotWord c true
  else if o = 0x10 then pack [(0, 25, c.updNext.toNat), (25, 1, b2n c.updActive)]
  else if o = 0x14 then pack [(0, 8, c.svncnt), (8, 4, c.cset.toNat), (12, 4, c.crev.toNat), (16, 4, c.oset.toNat), (20, 4, c.orev.toNat)]
  else if o = 0x24 then pack [(0, 16, c.ownStatus.toNat), (16, 2, c.ownSlot.toNat)]
  else if 0x40 ≤ o ∧ o < 0x80 then vget c.enroll ((o - 0x40) / 4) 0
  else if 0x100 ≤ o ∧ o < 0xE00 then
    BitVec.ofNat 32 (ofLe [certByte (o - 0x100), certByte (o - 0x100 + 1), certByte (o - 0x100 + 2), certByte (o - 0x100 + 3)])
  else 0

/-! ### The whole of BAR0 -/

/-- The live value of the register word at a byte offset (R336, R460); reserved offsets and the MSI-X table give zero. -/
def barWord (s : State) (off : Nat) : Word :=
  let o := off / 4 * 4
  if o < 0x400 then regId s o
  else if o < 0x800 then regClk s (o - 0x400)
  else if o < 0x1000 then regHost s (o - 0x800)
  else if o < 0x1400 then regNp s (o - 0x1000)
  else if o < 0x1800 then regBk s (o - 0x1400)
  else if o < 0x1C00 then regNv s (o - 0x1800)
  else if o < 0x2000 then regGb s (o - 0x1C00)
  else if o < 0x3000 then regCan s ((o - 0x2000) / 0x400) (o % 0x400)
  else if o < 0x3C00 then regGrp s ((o - 0x3000) / 0x100) (o % 0x100)
  else if o < 0x4000 then (if o = 0x3C00 then regSpare s else 0)
  else if o < 0x5000 then regPair s (o - 0x4000)
  else if o < 0x5800 then regInn s (o - 0x5000)
  else if o < 0x6000 then regScan s (o - 0x5800)
  else if o < 0x7000 then regSec s (o - 0x6000)
  else 0

end Sys2Proof.Machine
end

