-- ==== Sys2Proof/Machine/Events.lean ====
section
/-! DEFINITION. What every block shares: interrupts (R367), guestbook records (R457 to R464), completions (R349 to R351) and the
start of a driver command (R346 to R348). -/

namespace Sys2Proof.Machine

/-! ### Interrupts (R367) -/

/-- A message of a vector, or its pending bit while the vector is masked. -/
def State.msix (s : State) (v : Fin 16) : State :=
  if bit s.host.msixMask.toNat v.val then { s with host := { s.host with msixPend := s.host.msixPend ||| (1 <<< v.val) } }
  else s.emit (.msix v)

/-- A vector raised at the end of the bell interval of its event (vectors 0, 1, 5, 6, 7). -/
def State.raiseLater (s : State) (v : Fin 16) : State :=
  { s with host := { s.host with evtPend := s.host.evtPend ||| (1 <<< v.val) } }

/-- A vector raised within 10 µs (vectors 2, 3, 4), once in a bell interval; interrupt writes pause while Bus Master Enable is 0 (R333). -/
def State.raiseNow (s : State) (v : Fin 16) : State :=
  if s.host.busMaster then
    if bit s.host.sentNow.toNat v.val then s
    else { s.msix v with host := { (s.msix v).host with sentNow := s.host.sentNow ||| (1 <<< v.val) } }
  else s.raiseLater v

/-! ### Guestbook records -/

/-- The 64 bytes of a record (R457). -/
def GbRec.bytes (r : GbRec) : List Byte :=
  let rtc := match r.rtc with
    | none => [0, 0, 0, 0, 0, 0]
    | some (c, _) => [BitVec.ofNat 8 c.second, BitVec.ofNat 8 c.minute, BitVec.ofNat 8 c.hour, BitVec.ofNat 8 c.day, BitVec.ofNat 8 c.month,
        BitVec.ofNat 8 c.year]
  let dst := match r.rtc with | none => false | some (_, d) => d
  let b2 := r.sev.toNat + 4 * b2n r.rtc.isSome + 8 * b2n dst + 16 * r.words.length
  let snaps := (r.words ++ List.replicate (8 - r.words.length) (0 : Word)).flatMap (fun (w : Word) => toLe 4 w.toNat)
  let body := toLe 1 r.typ ++ toLe 1 r.source ++ toLe 1 b2 ++ [0] ++ toLe 2 r.repeats ++ toLe 6 r.cycle ++ toLe 4 r.seq.toNat ++
    toLe 3 r.hours ++ toLe 3 r.pcyc ++ rtc ++ snaps
  body ++ toLe 4 (crc32 body).toNat

/-- The configured snapshot words (R460). -/
def State.snapWords (s : State) : List Word :=
  (s.gb.snaps.toList.filter (fun w => bit w.toNat 0)).map (fun w => barWord s (fld w.toNat 2 14 * 4))

/-- What a new record leaves of the one before it: repeats that its slot does not hold yet are still to be written (R462). -/
def Guest.leftOver (g : Guest) : List (GbRec × Nat × Nat) :=
  match g.last, g.lastSlot with
  | some r, some slot => if g.lastDirty then [(r, slot, (g.lastWrite.map (· + 100 * msCycles)).getD 0)] else []
  | _, _ => []

/-- A drop counted by severity (R463, R464). -/
def Guest.drop (g : Guest) (sev : BitVec 2) : Guest := { g with drops := upd g.drops sev.toFin satInc }

/-- A record put into the queue of 64 (R464). -/
def Guest.push (g : Guest) (r : GbRec) : Guest :=
  if g.queue.length < 64 then { g with queue := g.queue ++ [r] }
  else
    match g.queue.find? (fun q => decide (q.sev ≤ r.sev)) with
    | some old => ({ g with queue := g.queue.erase old ++ [r] }).drop old.sev
    | none => g.drop r.sev

/-- The event repeats the newest record (R461). -/
def State.isRepeat (s : State) (typ src : Nat) (sev : BitVec 2) : Bool :=
  match s.gb.last with
  | none => false
  | some r => r.typ == typ && r.source == src && r.sev == sev && decide (r.repeats < 65535) && decide (s.now < s.gb.lastAt + secCycles)

/-- A guestbook event (R460, R461): a repeat of the newest record, or a new record with its evidence and snapshot words. -/
def State.gbEvent (s : State) (typ src : Nat) (sev : BitVec 2) (words : List Word) : State :=
  if s.isRepeat typ src sev then
    match s.gb.last with
    | none => s
    | some r =>
      let r' := { r with repeats := r.repeats + 1 }
      { s with gb := { s.gb with
          last := some r'
          lastAt := s.now
          lastDirty := true
          queue := s.gb.queue.map (fun q => if q.seq = r.seq then r' else q) } }
  else
    let ws := (words ++ (if s.gb.snapsev ≤ sev then s.snapWords else [])).take 8
    let r : GbRec :=
      { typ := typ
        source := src
        sev := sev
        rtc := if s.bk.valid then some (s.bk.cal, s.bk.dst) else none
        repeats := 1
        cycle := s.cycle % 2 ^ 48
        seq := s.gb.nextSeq
        hours := s.hours
        pcyc := s.pcyc
        words := ws }
    { s with gb := { s.gb.push r with
        last := some r
        lastAt := s.now
        lastSlot := none
        lastDirty := false
        lastWrite := none
        unwritten := s.gb.unwritten ++ s.gb.leftOver
        nextSeq := s.gb.nextSeq + 1 } }

def sevInfo : BitVec 2 := 0
def sevNotice : BitVec 2 := 1
def sevFault : BitVec 2 := 2
def sevCritical : BitVec 2 := 3

/-- The record of a latched group bit (R267, R301) with vector 6, its evidence read from register offsets; for a bit that sets while
the steward does not run both follow later. -/
def State.channelEvent (s : State) (typ src : Nat) (sev : BitVec 2) (offs : List Nat) : State :=
  if s.steward then (s.gbEvent typ src sev (offs.map (barWord s))).raiseLater 6
  else { s with
    gb := { s.gb with late := s.gb.late ++ [{ typ := typ, source := src, sev := sev, words := offs }] }
    host := { s.host with lateVec6 := true } }

/-- The records owed from the time when the steward did not run (R267); entries into safe states count as critical for a module that
runs alone, and as notice for an old primary. -/
def State.flushLate (s : State) (relief : Bool) : State :=
  let es := s.gb.late
  let s := { s with gb := { s.gb with late := [] } }
  es.foldl (fun s e => s.gbEvent e.typ e.source (if e.typ = 0x35 ∧ relief then sevNotice else e.sev) (e.words.map (barWord s))) s

/-- A record of the clock monitor with vector 5 (R61 to R63); while the steward does not run both follow once it does. -/
def State.clockEvent (s : State) (typ : Nat) (sev : BitVec 2) (off : Nat) : State :=
  if s.steward then (s.gbEvent typ 0 sev [barWord s off]).raiseLater 5
  else { s with gb := { s.gb with owed := s.gb.owed ++ [{ typ := typ, source := 0, sev := sev, words := [off] }] } }

/-- The clock records owed from the time when the steward did not run, with vector 5. -/
def State.flushOwed (s : State) : State :=
  let es := s.gb.owed
  es.foldl (fun s e => (s.gbEvent e.typ e.source e.sev (e.words.map (barWord s))).raiseLater 5) { s with gb := { s.gb with owed := [] } }

/-! ### Completions -/

/-- The index at which the next completion of Qq is written, and whether the ring has room for it (R351). -/
def HostIf.cqRoom (h : HostIf) (q : RingId) : Bool :=
  decide ((h.cqTail[q] - h.cqHead[q]).toNat < 2 ^ (vget h.rings (8 + q.val) RingCfg.init).logn)

/-- A completion entry (R349, R350). -/
def completionBytes (c : Completion) (cycle index n : Nat) : List Byte :=
  toLe 2 c.ref.tag.toNat ++ toLe 2 c.status.toNat ++ slice c.result 0 8 ++ toLe 3 (cycle % 2 ^ 24) ++
    [if (index / n) % 2 = 0 then 1 else 0]

/-- The completion ring of a command ring (R340). -/
def HostIf.cqOf (h : HostIf) (c : RingId) : RingId := BitVec.toFin (BitVec.ofNat 3 (vget h.rings c.val RingCfg.init).cq)

/-- A completion written to Qq at the next index: bytes 0 to 14, then byte 15 with PHASE in a request of its own (R350). -/
def State.writeCompletion (s : State) (q : RingId) (c : Completion) : State :=
  let h := s.host
  let i := h.cqTail[q].toNat
  let cfg := vget h.rings (8 + q.val) RingCfg.init
  let bs := completionBytes c s.cycle i (2 ^ cfg.logn)
  let a := cfg.entryAddr 16 i
  let s := (s.emit (.completion q i a (bs.take 15))).emit (.completion q i (a + 15) (bs.drop 15))
  let s := { s with host := { s.host with cqTail := upd h.cqTail q (· + 1), cmds := h.cmds + 1 } }
  if cfg.irq then s.raiseLater 0 else s

/-- Qq has no room for one completion more than those that wait for it (R351). -/
def HostIf.cqFull (h : HostIf) (q : RingId) : Bool :=
  decide (2 ^ (vget h.rings (8 + q.val) RingCfg.init).logn ≤ (h.cqTail[q] - h.cqHead[q]).toNat + h.heldC[q].length)

/-- A command completes (R349, R351): its completion is written, held when Qq is full, which sets CQFULL, or while requests are paused (R333),
and not written when the rings were stopped meanwhile (R342). -/
def State.complete (s : State) (ref : CmdRef) (status : BitVec 16) (result : List Byte) : State :=
  let h := s.host
  if h.active = true ∧ h.inProg[ref.ring] = some ref then
    let q := h.cqOf ref.ring
    let c : Completion := { ref := ref, status := status, result := result }
    let s := { s with host := { h with inProg := upd h.inProg ref.ring (fun _ => none) } }
    if h.busMaster = true ∧ h.cqRoom q = true ∧ h.heldC[q] = [] then s.writeCompletion q c
    else
      let s := { s with host := { s.host with
        heldC := upd s.host.heldC q (· ++ [c])
        heldSince := if h.cqFull q = true ∧ h.heldSince[q] = 0 then upd s.host.heldSince q (fun _ => s.now) else s.host.heldSince
        cqfull := s.host.cqfull || h.cqFull q } }
      if h.cqFull q then s.mark 0x804 32 else s
  else s

/-- The same for a command that may have none to answer. -/
def State.completeOpt (s : State) (ref : Option CmdRef) (status : BitVec 16) (result : List Byte) : State :=
  match ref with
  | none => s
  | some r => s.complete r status result

def State.completeAll (s : State) (refs : List CmdRef) (status : BitVec 16) (result : List Byte) : State :=
  refs.foldl (fun s r => s.complete r status result) s

/-- A record is pushed into ring E as it is written to the NV store (R366), or counted as lost when E is full. -/
def State.pushBook (s : State) (bytes : List Byte) : State :=
  let h := s.host
  let g := vget h.rings 20 RingCfg.init
  if h.active = true ∧ g.enable = true then
    if (h.gbTail - h.gbHead).toNat < 2 ^ g.logn then
      let i := h.gbTail.toNat
      let s := (s.request (.gbPush i (g.entryAddr 64 i) bytes)).request (.bell 0x840 ((i + 1) % 2 ^ 32))
      let s := { s with host := { s.host with gbTail := h.gbTail + 1 } }
      if g.irq then s.raiseLater 1 else s
    else
      let lost := satInc h.gbLost
      ({ s with host := { h with gbLost := lost, gbfull := true } }.mark 0x804 16).request (.bell 0x844 lost.toNat)
  else s

/-! ### Driver commands -/

end Sys2Proof.Machine

namespace Sys2Proof

open Sys2Proof.Machine

/-- Byte i of a command entry, 4 ≤ i < 64 (R347). -/
def CmdEntry.b (e : CmdEntry) (i : Nat) : Nat := u8 e.body (i - 4)
def CmdEntry.h (e : CmdEntry) (i : Nat) : Nat := u16 e.body (i - 4)
def CmdEntry.w (e : CmdEntry) (i : Nat) : Nat := u32 e.body (i - 4)
def CmdEntry.q (e : CmdEntry) (i : Nat) : Nat := u64 e.body (i - 4)

/-- Every byte outside the opcode's operands is zero, and so is every undefined flag bit (R347, R348 step 2). -/
def CmdEntry.formOk (e : CmdEntry) (flags : Nat) (used : List (Nat × Nat)) : Bool :=
  (e.flags.toNat &&& (255 - flags) == 0) &&
    (List.range 60).all (fun i => used.any (fun p => decide (p.1 ≤ i + 4) && decide (i + 4 < p.1 + p.2)) || byteAt e.body i == 0)

end Sys2Proof

namespace Sys2Proof.Machine

/-- The module begins a command of ring c (R346, R351): the rings run and may be accessed, the entry has been announced, the
previous command has completed, and no completion of its ring is held. -/
def State.mayBegin (s : State) (c : RingId) : Bool :=
  let h := s.host
  s.steward && h.active && h.busMaster && (vget h.rings c.val RingCfg.init).enable && !bit h.ringErr.toNat c.val &&
    h.inProg[c].isNone && (h.heldC[h.cqOf c]).isEmpty && h.cmdHead[c] != h.cmdTail[c]

/-- Taking a command: CMDHEAD advances and is written to the bell page (R343, R344). -/
def State.begin (s : State) (ref : CmdRef) : State :=
  let h := s.host
  let i := h.cmdHead[ref.ring] + 1
  ({ s with host := { h with cmdHead := upd h.cmdHead ref.ring (· + 1), inProg := upd h.inProg ref.ring (fun _ => some ref) } }).emit
    (.bell (0x800 + 4 * ref.ring.val) i.toNat)

/-- A status and the condition under which a command completes with it. -/
abbrev Check := Bool × BitVec 16

/-- The first check that fails (R348). -/
def firstFail : List Check → Option (BitVec 16)
  | [] => none
  | (bad, st) :: r => if bad then some st else firstFail r

/-- The checks of a command with the wrong-state status of a power failure under way (R50) behind the form and operand checks, as R348
orders them. -/
def withPower (pfail : Bool) (cs : List Check) : List Check :=
  cs.takeWhile (fun k => decide (k.2.toNat < 0x0105)) ++ (pfail, 0x0201) :: cs.dropWhile (fun k => decide (k.2.toNat < 0x0105))

/-- A driver command at instant t (R345 to R348): when it may begin it is taken; it completes with the first check that fails and
otherwise has its effect. A command that cannot begin changes nothing (log entry 2). -/
def State.command (s : State) (t : Nat) (c : RingId) (op : Nat) (e : CmdEntry) (checks : State → List Check) (act : CmdRef → State → State) : State :=
  let s := s.at t
  let ref : CmdRef := { ring := c, tag := e.tag, op := BitVec.ofNat 8 op, gen := s.host.gen }
  if s.mayBegin c then
    let s := s.begin ref
    match firstFail (withPower s.pwr.pfwarn (checks s)) with
    | some st => s.complete ref st []
    | none => act ref s
  else s

/-- Whether this module is a relief, to which primary-only commands answer 0x0701 (R348, R353). -/
def State.isRelief (s : State) : Bool := s.pair.role == 2 || s.pair.role == 3

/-- The module runs alone or as primary. -/
def State.leads (s : State) : Bool := !s.isRelief

end Sys2Proof.Machine
end

