-- ==== Sys2Proof/Machine/CanOps.lean ====
section
/-! DEFINITION. What the CAN ports share (R305 to R307, R316 to R330): events, withdrawals, bit timing, the mode a port is in, the bus
cycle and rate detection. -/

namespace Sys2Proof.Machine

/-- CAN_STAT, CAN_LASTERR and CAN_DETRES of a port. -/
def canReg (k : PortId) (o : Nat) : Nat := 0x2000 + 0x400 * k.val + o

/-! ### Events (R328, R330) -/

/-- A bit of CAN_EVT sets, and raises vector 7 where CAN_EVTEN permits it. -/
def State.canEvent (s : State) (k : PortId) (b : Nat) : State :=
  let on := s.cans[k].evten.getLsbD b
  let s := (s.updCan k (fun c => { c with evt := c.evt ||| (1 <<< b) })).mark (0x2004 + 0x400 * k.val) (2 ^ b)
  if on then s.raiseLater 7 else s

/-- A guestbook record of a port, written by the steward. -/
def State.canRecord (s : State) (k : PortId) (typ : Nat) (sev : BitVec 2) (words : List Word) : State :=
  if s.steward then s.gbEvent typ k.val sev words else s

/-! ### Withdrawal (R319, R321) -/

/-- The frame of an entry is withdrawn: counted, mapped, signalled and recorded. -/
def State.canWithdraw (s : State) (k : PortId) (entry : Nat) : State :=
  let s := s.updCan k (fun c => { c with
    queue := c.queue.filter (fun q => q.entry != entry)
    wdrcnt := c.wdrcnt + 1
    wdrmap := c.wdrmap ||| (1 <<< entry) })
  let s := s.mark (0x2080 + 0x400 * k.val + 4 * (entry / 32)) (2 ^ (entry % 32))
  (s.canEvent k 6).canRecord k 0x50 sevNotice [BitVec.ofNat 32 entry]

/-- Every queued frame of a port without an attempt in progress is withdrawn and no entry stays armed; a frame on the bus runs to its
end and is not retried (R327). -/
def State.canDrain (s : State) (k : PortId) : State :=
  let waiting := (s.cans[k].queue.filter (fun q => !q.attempt)).map QFrame.entry
  let s := s.updCan k (fun c => { c with armed := [], queue := c.queue.map (fun q => { q with final := true }) })
  waiting.foldl (fun s e => s.canWithdraw k e) s

/-- Every queued frame of a port is withdrawn, also one whose attempt has just been ended by the port's own state (R319, R323). -/
def State.canDrainAll (s : State) (k : PortId) : State :=
  let s := s.updCan k (fun c => { c with armed := [] })
  (s.cans[k].queue.map QFrame.entry).foldl (fun s e => s.canWithdraw k e) s

/-- R327. What a hardware fault does to the ports. -/
def State.canSilence (s : State) : State := (fins 4).foldl State.canDrain s

/-! ### Bit timing (R305 to R307, R330) -/

/-- CAN_NBT from its fields. -/
def nbtWord (brp seg1 seg2 sjw : Nat) : Word := pack [(0, 6, brp), (6, 9, seg1), (15, 8, seg2), (23, 8, sjw)]

/-- CAN_DBT from its fields: compensation is on above 1 Mbit/s, and an offset of 0 selects DBRP × (1 + DTSEG1). -/
def dbtWord (brp seg1 seg2 sjw tdco : Nat) : Word :=
  let fast := decide (brp * (1 + seg1 + seg2) < 80)
  pack [(0, 6, brp), (6, 6, seg1), (12, 5, seg2), (17, 5, sjw), (22, 1, b2n fast), (23, 7, if tdco = 0 then brp * (1 + seg1) else tdco)]

/-- Main-clock cycles of a nominal and of a data bit: five per CAN clock period (R303, R305). -/
def bitCycles (nbt dbt : Word) : Nat × Nat :=
  (5 * fld nbt.toNat 0 6 * (1 + fld nbt.toNat 6 9 + fld nbt.toNat 15 8), 5 * fld dbt.toNat 0 6 * (1 + fld dbt.toNat 6 6 + fld dbt.toNat 12 5))

/-- Payload bytes of a buffer's DLC (R310). -/
def canPayload (d : Nat) : Nat :=
  if d ≤ 8 then d else if d = 9 then 12 else if d = 10 then 16 else if d = 11 then 20 else if d = 12 then 24
  else if d = 13 then 32 else if d = 14 then 48 else 64

/-- Worst-case bits of a frame at the nominal and at the data rate (R320). -/
def frameBits (b : CanBuf) : Nat × Nat :=
  let n := canPayload b.dlc
  if b.fdf then
    let d := if n ≤ 16 then 33 + 10 * n else 38 + 10 * n
    let a := if b.ide then 57 else 34
    if b.brs then (a, d) else (a + d, 0)
  else if b.ide then (67 + 8 * n + (53 + 8 * n) / 4, 0) else (47 + 8 * n + (33 + 8 * n) / 4, 0)

/-- Worst-case cycles of a frame under a timing (R320). -/
def frameTime (b : CanBuf) (nbt dbt : Word) : Nat :=
  let c := bitCycles nbt dbt
  (frameBits b).1 * c.1 + (frameBits b).2 * c.2

/-- Nominal candidates in the order of R329, with CAN_DETRES.NOM, and their timing (R306). -/
def nomTiming (i : Nat) : Word :=
  if i = 0 then nbtWord 1 63 16 16 else if i = 1 then nbtWord 1 127 32 32 else if i = 2 then nbtWord 2 127 32 32 else nbtWord 4 127 32 32
def nomCode (i : Nat) : BitVec 3 := if i = 0 then 4 else if i = 1 then 3 else if i = 2 then 2 else 1

/-- Data candidates 8, 5, 4 and 2 Mbit/s, with CAN_DETRES.DATA, and their timing (R306). -/
def dataTiming (i : Nat) : Word :=
  if i = 0 then dbtWord 1 7 2 2 0 else if i = 1 then dbtWord 1 12 3 3 0 else if i = 2 then dbtWord 1 15 4 4 0 else dbtWord 1 31 8 8 0
def dataCode (i : Nat) : BitVec 3 := if i = 0 then 4 else if i = 1 then 3 else if i = 2 then 2 else 1

/-! ### The mode of a port (R308, R322 to R326, R329) -/

/-- Rate detection is running. -/
def Can.detecting (c : Can) : Bool := detCode c.det

/-- Detection has ended the port's part on the bus: failed, or finished on a port that the driver had put into it. -/
def Can.detHeld (c : Can) : Bool :=
  match c.det with
  | .failed => true
  | .locked => c.detDriver
  | _ => false

/-- The MODE of the port entry, 0 without one. -/
def Can.cfgMode (c : Can) : Nat := match c.cfg with | none => 0 | some p => p.mode

/-- The port takes part in the bus: on, supplied, integrated and not bus-off. -/
def Can.on (c : Can) : Bool := c.cfgMode != 0 && c.vplus && c.integrated && !c.busoff && !c.detecting && !c.detHeld

/-- The live mode bits after an event: LISTEN, RESTRICTED, the error state and the gate (R324 to R326, R330). -/
def Can.refresh (c : Can) (relief quiet : Bool) : Can :=
  let listen := c.vplus && (c.detecting || c.det == .failed || (c.on && c.cfgMode == 3))
  let pass := decide (128 ≤ c.tec) || decide (128 ≤ c.recc)
  { c with
    listen := listen
    restricted := c.on && !listen && (c.cfgMode == 2 || relief || quiet)
    active := c.on && !pass
    passive := c.on && pass
    gate := quiet || (c.gate && relief) }

def State.canRefresh (s : State) (k : PortId) : State := s.updCan k (fun c => c.refresh s.isRelief s.pwr.quietIn)
def State.canRefreshAll (s : State) : State := (fins 4).foldl State.canRefresh s

/-- The port arms and sends: MODE 1, not restricted, not listening, gate open, lanes not silent. -/
def State.canSends (s : State) (k : PortId) : Bool :=
  let c := s.cans[k]
  c.on && c.cfgMode == 1 && !c.restricted && !c.listen && !c.gate && s.scan.lanes && s.app.running

/-! ### Rate detection (R329) -/

/-- Detection starts in NOMINAL with the first candidate. -/
def Can.detBegin (c : Can) (driver : Bool) (now : Nat) : Can :=
  { c with
    det := .nominal
    detDriver := driver
    detNom := 0
    detData := 0
    detGood := 0
    detSince := now
    detStart := now
    detNomRes := 0
    detDataRes := 0
    detValid := false
    detFail := false
    detFrames := 0
    nbt := nomTiming 0
    dbt := 0 }

/-- NOMINAL at a candidate, the count at 0. -/
def Can.detNominal (c : Can) (i : Nat) : Can := { c with det := .nominal, detNom := i % 4, detGood := 0, nbt := nomTiming (i % 4), dbt := 0 }

/-- DATA at a candidate, the count at 0. -/
def Can.detDataAt (c : Can) (i now : Nat) : Can :=
  { c with
    det := .data
    detData := i % 4
    detGood := 0
    detSince := now
    dbt := dataTiming (i % 4) }

/-- The timing of a port's entry (R305, R307, R330); zero with AUTO or without an entry. -/
def Can.cfgTiming (c : Can) : Word × Word :=
  match c.cfg with
  | none => (0, 0)
  | some p => if p.auto ∨ p.mode = 0 then (0, 0)
    else (nbtWord p.nbrp p.ntseg1 p.ntseg2 p.nsjw, dbtWord p.dbrp p.dtseg1 p.dtseg2 p.dsjw p.tdco)

/-- R329. LOCKED applies the timing of R306; a detection the driver started leaves the port off. -/
def State.detLock (s : State) (k : PortId) (d : Nat) : State :=
  let s := s.updCan k (fun c =>
    { c with
      det := .locked
      detValid := true
      detNomRes := nomCode c.detNom
      detDataRes := dataCode d
      nbt := nomTiming c.detNom
      dbt := dataTiming d })
  (s.canEvent k 8).canRefresh k

/-- R329. FAILED: the port stays in listen-only mode, and every stale bit reads 1. -/
def State.detFailed (s : State) (k : PortId) : State :=
  let s := s.updCan k (fun c => { c with det := .failed, detFail := true, detValid := false, stale := BitVec.allOnes 64 })
  let s := (s.canEvent k 9).canRefresh k
  s.canRecord k 0x54 sevNotice [barWord s (canReg k 0x24)]

/-! ### Configuration and the bus cycle -/

/-- A port takes the entry of a configuration; with AUTO, rate detection starts, and a port that is off reports every stale bit as 1 (R308,
R329). -/
def State.canConfigure (s : State) (w : Option Way) (k : PortId) : State :=
  let p := w.bind (fun w => w.ports.find? (fun p => p.port == k.val))
  let s := s.updCan k (fun c =>
    let c := { c with cfg := p, det := .idle, detDriver := false }
    let c := { c with
      nbt := c.cfgTiming.1
      dbt := c.cfgTiming.2
      stale := if c.cfgMode = 0 then BitVec.allOnes 64 else c.stale }
    match p with
    | some e => if e.auto ∧ e.mode ≠ 0 ∧ c.vplus then c.detBegin false s.now else c
    | none => c)
  s.canRefresh k

/-- A bus cycle ends at a base tick: its stale mask (R316, R322). -/
def Can.endCycle (c : Can) : Can :=
  { c with
    stale := if c.on then ~~~c.hits else BitVec.allOnes 64
    hits := 0 }

/-- Cycle-table entries of a port, by index (R311). -/
def Way.entriesOf (w : Way) (k : Nat) : List CanCyc := w.cycs.filter (fun c => c.port == k)

/-- A bus cycle of a port begins at cycle number n: its entries are armed where the port sends (R317). -/
def State.canCycleStart (s : State) (w : Way) (k : PortId) (n : Nat) : State :=
  let entries := if s.canSends k then List.range (w.entriesOf k.val).length else []
  s.updCan k (fun c => { c with cycleStart := some n, armed := entries })

/-- A port's bus cycle begins, or ends and begins, at base tick n of a running application (R316). -/
def State.cycleAt (s : State) (k : PortId) (n : Nat) : Bool :=
  match s.cans[k].cfg with
  | none => false
  | some p => s.app.running && decide (s.app.startTick ≤ n) && p.mode != 0 && decide (0 < p.cycle) && (n - s.app.startTick) % p.cycle == 0

/-- The bus cycles that end at base tick n: their masks are in force before a release at n reads them (R202, R316). -/
def State.canClose (s : State) (n : Nat) : State :=
  (fins 4).foldl (fun s k => if s.cycleAt k n ∧ s.app.startTick < n then s.updCan k Can.endCycle else s) s

/-- The old primary of a planned switch at base tick n makes no release there (R393), and arms and opens no window from there on, so that
no frame is sent twice (R327). -/
def State.handsOver (s : State) (n : Nat) : Bool :=
  match s.pair.reqSwitch with
  | some q => q.confirmed && q.tick == n && s.pair.role == 1
  | none => false

/-- Bus cycles that begin at base tick n (R316, R317). -/
def State.canTick (s : State) (n : Nat) : State :=
  match s.app.cur with
  | none => s
  | some cf =>
    (fins 4).foldl (fun s k =>
      let s := if s.cycleAt k n then (s.updCan k (fun c => { c with hits := 0 })).canCycleStart cf.way k n else s
      if s.handsOver n then s.updCan k (fun c => { c with armed := [] }) else s) s

/-- The end of the bus cycles at a stop: queued frames are withdrawn and nothing is armed until the next start (R327, R356). -/
def State.canStop (s : State) : State :=
  (fins 4).foldl (fun s k => (s.canDrain k).updCan k (fun c => { c with cycleStart := none, hits := 0 })) s

/-- R326, R391. The relief that leads from now on arms the entries of the current bus cycle whose window opens at or after TB `from'`: base tick
n, after a takeover also 11 µs after the TB of the last good heartbeat. -/
def State.canTakeover (s : State) (from' : Nat) : State :=
  let s := s.canRefreshAll
  match s.app.cur with
  | none => s
  | some cf => (fins 4).foldl (fun s k =>
      match s.cans[k].cycleStart with
      | none => s
      | some m =>
        let es := cf.way.entriesOf k.val
        let due (i : Nat) : Bool := match es[i]? with
          | none => false
          | some e => decide (from' ≤ m * tickCycles + e.wopen * usCycles)
        if s.canSends k then s.updCan k (fun c => { c with armed := (List.range es.length).filter due }) else s) s

end Sys2Proof.Machine
end

