-- ==== Sys2Proof/Machine/Flags.lean ====
section
/-! DEFINITION. The flags of a room (R103, R104, R135) and the conditions of branches (R110). -/

namespace Sys2Proof.Machine

/-- Z and N from a result (R103). -/
def Room.setZN (v : Room) (w : Word) : Room := { v with z := w == 0, n := w.msb }

/-- C and V of a + b + carry: the carry out of bit 31, and a signed result that does not fit (R103). -/
def addCarry (a b : Word) (cin : Bool) : Bool := decide (2 ^ 32 ≤ a.toNat + b.toNat + b2n cin)
def addOverflow (a b : Word) (cin : Bool) : Bool :=
  let x := a.toInt + b.toInt + b2n cin
  decide (x < -(2 ^ 31)) || decide (2 ^ 31 ≤ x)

/-- C and V of a − b − borrow: C is 1 when there is no borrow (R103, R135). -/
def subCarry (a b : Word) (borrow : Bool) : Bool := decide (b.toNat + b2n borrow ≤ a.toNat)
def subOverflow (a b : Word) (borrow : Bool) : Bool :=
  let x := a.toInt - b.toInt - b2n borrow
  decide (x < -(2 ^ 31)) || decide (2 ^ 31 ≤ x)

def addResult (a b : Word) (cin : Bool) : Word := a + b + BitVec.ofNat 32 (b2n cin)
def subResult (a b : Word) (borrow : Bool) : Word := a - b - BitVec.ofNat 32 (b2n borrow)

/-- All four flags of an addition. -/
def Room.flagsAdd (v : Room) (a b : Word) (cin : Bool) : Room :=
  { v.setZN (addResult a b cin) with c := addCarry a b cin, v := addOverflow a b cin }

/-- All four flags of a subtraction or compare. -/
def Room.flagsSub (v : Room) (a b : Word) (borrow : Bool) : Room :=
  { v.setZN (subResult a b borrow) with c := subCarry a b borrow, v := subOverflow a b borrow }

/-- Z N and C of a shift by n with result w: for a count of 0 C keeps its value (R135). -/
def Room.flagsShift (v : Room) (w : Word) (n : Nat) (last : Bool) : Room :=
  { v.setZN w with c := if n = 0 then v.c else last }

/-- The last bit that a shift moves out (R135). -/
def shlOut (a : Word) (n : Nat) : Bool := a.getLsbD (32 - n)
def shrOut (a : Word) (n : Nat) : Bool := a.getLsbD (n - 1)

/-- A condition holds (R110). -/
def condHolds (c : Cond) (v : Room) : Bool :=
  match c with
  | .al => true
  | .eq => v.z
  | .ne => !v.z
  | .lt => v.n != v.v
  | .ge => v.n == v.v
  | .le => v.z || (v.n != v.v)
  | .gt => !v.z && (v.n == v.v)
  | .lo => !v.c
  | .hs => v.c
  | .ls => !v.c || v.z
  | .hi => v.c && !v.z
  | .mi => v.n
  | .pl => !v.n
  | .vs => v.v
  | .vc => !v.v
  | .bt => v.b
  | .bf => !v.b

end Sys2Proof.Machine
end

