-- ==== Sys2Proof/Machine/Float.lean ====
section
/-! DEFINITION. Binary32 arithmetic of the floating-point unit (R123, R145): round to nearest, ties to even; one quiet NaN. -/

namespace Sys2Proof.Machine

def qnan : Word := 0x7FC00000

def fSign (w : Word) : Bool := w.msb
def fExp (w : Word) : Nat := w.toNat / 2 ^ 23 % 256
def fFrac (w : Word) : Nat := w.toNat % 2 ^ 23
def fIsNan (w : Word) : Bool := fExp w == 255 && fFrac w != 0
def fIsInf (w : Word) : Bool := fExp w == 255 && fFrac w == 0
def fIsZero (w : Word) : Bool := fExp w == 0 && fFrac w == 0

/-- Magnitude of a finite value: mantissa × 2 ^ exponent. -/
def fMant (w : Word) : Nat := if fExp w = 0 then fFrac w else fFrac w + 2 ^ 23
def fPow (w : Word) : Int := if fExp w = 0 then -149 else (fExp w : Int) - 150

/-- A signed zero, an infinity. -/
def fZero (s : Bool) : Word := if s then 0x80000000 else 0
def fInf (s : Bool) : Word := if s then 0xFF800000 else 0x7F800000

/-- m / 2 ^ k to the nearest integer, ties to even. -/
def shiftRound (m k : Nat) : Nat :=
  let q := m / 2 ^ k
  let r := m % 2 ^ k
  let half := 2 ^ k / 2
  if k = 0 then m else if half < r ∨ (r = half ∧ q % 2 = 1) then q + 1 else q

/-- The binary32 value nearest to ± m × 2 ^ e; too large a magnitude gives the infinity. -/
def fRound (s : Bool) (m : Nat) (e : Int) : Word :=
  if m = 0 then fZero s
  else
    let q := max (e + (Nat.log2 m : Int) - 23) (-149)
    let mant := if q ≤ e then m * 2 ^ (e - q).toNat else shiftRound m (q - e).toNat
    let bits := (q + 149).toNat * 2 ^ 23 + mant
    if 0x7F800000 ≤ bits then fInf s else BitVec.ofNat 32 (bits + (if s then 2 ^ 31 else 0))

/-- A finite value as a signed multiple of 2 ^ e, for e at most its own exponent. -/
def fAligned (w : Word) (e : Int) : Int :=
  let m : Int := (fMant w * 2 ^ (fPow w - e).toNat : Nat)
  if fSign w then -m else m

def fNeg (w : Word) : Word := w ^^^ 0x80000000

def fAdd (a b : Word) : Word :=
  if fIsNan a || fIsNan b then qnan
  else if fIsInf a then (if fIsInf b && fSign a != fSign b then qnan else a)
  else if fIsInf b then b
  else
    let e := min (fPow a) (fPow b)
    let x := fAligned a e + fAligned b e
    if x = 0 then fZero (fSign a && fSign b) else fRound (decide (x < 0)) x.natAbs e

def fSub (a b : Word) : Word := if fIsNan b then qnan else fAdd a (fNeg b)

def fMul (a b : Word) : Word :=
  let s := fSign a != fSign b
  if fIsNan a || fIsNan b then qnan
  else if fIsInf a || fIsInf b then (if fIsZero a || fIsZero b then qnan else fInf s)
  else fRound s (fMant a * fMant b) (fPow a + fPow b)

def fDiv (a b : Word) : Word :=
  let s := fSign a != fSign b
  if fIsNan a || fIsNan b then qnan
  else if fIsInf a then (if fIsInf b then qnan else fInf s)
  else if fIsInf b then fZero s
  else if fIsZero b then (if fIsZero a then qnan else fInf s)
  else
    let n := fMant a * 2 ^ 64
    let q := n / fMant b
    let sticky := if n % fMant b = 0 then 0 else 1
    fRound s (2 * q + sticky) (fPow a - fPow b - 65)

/-- Rank of a value that is no NaN; −0 stands below +0 (R145). -/
def fRank (w : Word) : Int := if fSign w then -((w.toNat % 2 ^ 31 : Nat) : Int) - 1 else (w.toNat % 2 ^ 31 : Nat)

def fMin (a b : Word) : Word :=
  if fIsNan a && fIsNan b then qnan else if fIsNan a then b else if fIsNan b then a
  else if fRank b < fRank a then b else a

def fMax (a b : Word) : Word :=
  if fIsNan a && fIsNan b then qnan else if fIsNan a then b else if fIsNan b then a
  else if fRank a < fRank b then b else a

/-- 0 equal, 1 less, 2 greater, 3 unordered; the two zeros are equal (R145). -/
def fCmp (a b : Word) : Word :=
  if fIsNan a || fIsNan b then 3
  else if a = b || (fIsZero a && fIsZero b) then 0
  else if fRank a < fRank b then 1 else 2

def itof (a : Word) : Word := fRound (decide (a.toInt < 0)) a.toInt.natAbs 0
def utof (a : Word) : Word := fRound false a.toNat 0

/-- The nearest signed integer, ties to even, saturated; 0 for a NaN (R145). -/
def ftoi (a : Word) : Word :=
  if fIsNan a then 0
  else if fIsInf a then (if fSign a then 0x80000000 else 0x7FFFFFFF)
  else
    let m := if 0 ≤ fPow a then fMant a * 2 ^ (fPow a).toNat else shiftRound (fMant a) (-(fPow a)).toNat
    if fSign a then (if 2 ^ 31 ≤ m then 0x80000000 else BitVec.ofInt 32 (-(m : Int)))
    else (if 2 ^ 31 ≤ m then 0x7FFFFFFF else BitVec.ofNat 32 m)

/-- QUO and REM of DIV (R124). -/
def divS (a b : Word) : Word × Word :=
  if b = 0 then (0xFFFFFFFF, a)
  else (BitVec.ofInt 32 (a.toInt.tdiv b.toInt), BitVec.ofInt 32 (a.toInt.tmod b.toInt))

/-- QUO and REM of DIVU (R124). -/
def divU (a b : Word) : Word × Word := if b = 0 then (0xFFFFFFFF, a) else (a / b, a % b)

end Sys2Proof.Machine
end

