-- ==== Sys2Proof/Machine/Operands.lean ====
section
/-! DEFINITION. Operands of lane instructions: registers, immediates, window addresses (R88, R112), image addresses (R113, R114,
R190 to R196) and the write set (R90). -/

namespace Sys2Proof.Machine

/-! ### Registers and immediates -/

/-- A general register; g0 reads as zero (R79). -/
def Room.get (v : Room) (g : Reg) : Word := if g = 0 then 0 else v.g[g]

/-- Writing a general register; writes of g0 are discarded (R79). -/
def Room.put (v : Room) (g : Reg) (w : Word) : Room := if g = 0 then v else { v with g := upd v.g g (fun _ => w) }

def sx16 (i : BitVec 16) : Word := i.signExtend 32
def zx16 (i : BitVec 16) : Word := i.setWidth 32

/-- The address of an M-format instruction: ra plus the sign-extended offset, modulo 2³² (R111 to R114). -/
def effAddr (v : Room) (ra : Reg) (off : BitVec 16) : Word := v.get ra + sx16 off

/-- The sizes of an access (R112). -/
inductive Size where
  | byte | half | word
deriving DecidableEq, Repr

def Size.bytes : Size → Nat
  | .byte => 1
  | .half => 2
  | .word => 4

/-- The address with the bits cleared that the access ignores (R112). -/
def alignTo (sz : Size) (a : Word) : Nat := a.toNat / sz.bytes * sz.bytes

/-- A loaded value extended to 32 bits. -/
def extend (sz : Size) (signed : Bool) (bs : List Byte) : Word :=
  let n := ofLe bs
  match sz, signed with
  | .byte, true => (BitVec.ofNat 8 n).signExtend 32
  | .half, true => (BitVec.ofNat 16 n).signExtend 32
  | _, _ => BitVec.ofNat 32 n

/-! ### Data windows (R88, R89) -/

/-- The data-memory address that a room's address reaches, when it lies inside the window that bit 23 selects (R88). -/
def Room.window (v : Room) (a : Nat) : Option Nat :=
  if 2 ^ 24 ≤ a then none
  else if a < 2 ^ 23 then (if a < v.privLen then some (v.privBase + a) else none)
  else if a - 2 ^ 23 < v.retLen then some (v.retBase + (a - 2 ^ 23)) else none

/-- The access lies in the retained window. -/
def Room.inRetained (v : Room) (a : Nat) : Bool := decide (2 ^ 23 ≤ a) && decide (a - 2 ^ 23 < v.retLen) && decide (a < 2 ^ 24)

/-- A 64-byte block of a retained window becomes dirty (R447). -/
def markDirty (blocks : List (Nat × Nat)) (b now : Nat) : List (Nat × Nat) :=
  if blocks.any (fun x => x.1 == b) then blocks else blocks ++ [(b, now)]

/-- The report of an access outside windows, map or write set (R89): both OOW bits and a fault record with room, PC and address. -/
def State.reportOow (s : State) (r : RoomId) (pc : BitVec 20) (a : Nat) : State :=
  let s := { s.updRoom r (fun v => { v with oow := true }) with scan := { s.scan with oow := true } }
  let s := (s.mark 0x5800 2).mark (0x5A00 + 12 * r.val) 4096
  s.gbEvent 0x13 r.val sevFault [pc.setWidth 32, BitVec.ofNat 32 a]

/-- Offsets of a retained window from o on whose bytes a store changes, added to those changed before (R380). -/
def changedBytes (m : Mem) (a o : Nat) : List Byte → List Nat → List Nat
  | [], acc => acc
  | b :: r, acc => changedBytes m (a + 1) (o + 1) r (if m.get a = b ∨ acc.contains o = true then acc else acc ++ [o])

/-- The bytes at addresses a on before a store whose memory stage falls in cycle `at'`; stores past their memory stage are dropped. -/
def Scan.remember (c : Scan) (now at' : Nat) (image : Bool) (a : Nat) (old : List Byte) : Scan :=
  { c with undo := c.undo.filter (fun u => decide (now ≤ u.at')) ++
      old.mapIdx (fun i b => { at' := at', image := image, addr := a + i, old := b }) }

/-- Bytes stored into a room's windows, with the dirty marks of R447. -/
def State.storeData (s : State) (r : RoomId) (a m : Nat) (bs : List Byte) : State :=
  let old := s.dmem
  let s := { s with dmem := s.dmem.write m bs }
  if s.rooms[r].inRetained a then
    s.updRoom r (fun v => { v with
      dirty := markDirty v.dirty ((a - 2 ^ 23) / 64) s.now
      changed := changedBytes old m (a - 2 ^ 23) bs v.changed })
  else s

/-- The store of an instruction whose write falls in cycle `cyc` (R72): the memory stage, or the hand-off stage of a record. -/
def State.laneStoreData (s : State) (cyc : Nat) (r : RoomId) (a m : Nat) (bs : List Byte) : State :=
  { s with scan := s.scan.remember s.now cyc false m (s.dmem.read m bs.length) }.storeData r a m bs

/-! ### The image (R90, R113, R190 to R195, R204) -/

/-- Payload bytes of a DLC (R310). -/
def dlcBytes (d : Nat) : Nat :=
  if d ≤ 8 then d else if d = 9 then 12 else if d = 10 then 16 else if d = 11 then 20 else if d = 12 then 24
  else if d = 13 then 32 else if d = 14 then 48 else 64

/-- Buffers of a port in their order (R308). -/
def Way.bufsOf (w : Way) (k : Nat) : List CanBuf := w.bufs.filter (fun b => b.port == k)
def Way.cycsOf (w : Way) (k : Nat) : List CanCyc := w.cycs.filter (fun c => c.port == k)
def Way.filtersOf (w : Way) (k : Nat) : List CanFilter := w.filters.filter (fun f => f.port == k)
def Way.portOf (w : Way) (k : Nat) : Option CanPortCfg := w.ports.find? (fun p => p.port == k)

/-- Words of a transmit buffer: bytes from TXOFF up to the next multiple of 4 (R310). -/
def CanBuf.wordEnd (b : CanBuf) : Nat := b.txoff + ceilDiv (dlcBytes b.dlc) 4 * 4

/-- A task owns the CAN transmit byte x of port k: it owns an entry whose buffer's words hold it (R311). -/
def Way.ownsTx (w : Way) (task k x : Nat) : Bool :=
  (w.cycsOf k).any (fun c => c.owner == task &&
    (match (w.bufsOf k)[c.buf]? with
      | none => false
      | some b => decide (b.txoff ≤ x) && decide (x < b.wordEnd)))

/-- A task owns the image word at address a: its write set (R90, R194, R204). -/
def Conf.owns (c : Conf) (task a : Nat) : Bool :=
  if 0x1000 ≤ a ∧ a < 0x1300 then c.way.chans.any (fun e => e.ch == (a - 0x1000) / 4 && e.isOutput && e.owner == task)
  else if 0x2000 ≤ a ∧ a < 0x2400 then c.way.ownsTx task ((a - 0x2000) / 256) ((a - 0x2000) % 256)
  else if 0x40000 ≤ a ∧ a < 0x4C000 then
    match c.task task, c.an.pubBase[task]? with
    | some t, some b => decide (b + 4 ≤ a) && decide (a < b + 4 + t.pubLen)
    | _, _ => false
  else false

/-- The room's task owns the image word at address a. -/
def State.writable (s : State) (r : RoomId) (a : Nat) : Bool :=
  match s.app.cur, s.taskOf r with
  | some c, some i => c.owns i (a / 4 * 4)
  | _, _ => false

/-- The address holds an output word of a channel in an output mode, a transmit byte or a publication byte (R194, R195). -/
def State.outputArea (s : State) (a : Nat) : Bool :=
  if 0x1000 ≤ a ∧ a < 0x1300 then (match s.chanCfg ((a - 0x1000) / 4) with | none => false | some e => e.isOutput)
  else (decide (0x2000 ≤ a) && decide (a < 0x2400)) || (decide (0x40000 ≤ a) && decide (a < 0x4C000))

/-- What a room's load of an image byte returns (R115, R187, R190, R191, R195). -/
def State.imageByte (s : State) (r : RoomId) (a : Nat) : Byte :=
  if a < 0xC00 then s.rooms[r].snap.get a
  else if s.outputArea a then (if s.writable r a then s.img.pend.get a else s.img.com.get a)
  else 0

/-- What the commit due at the next base tick n makes of a byte of the committed copy: the frozen value of a task whose deadline has
passed, or its publication stamp (R185, R190, R204). -/
def State.nextByte (s : State) (n a : Nat) : Byte :=
  match s.app.cur with
  | none => s.img.com.get a
  | some c =>
    let stamped (i : Nat) : Bool := decide (((c.task i).map Task.pubLen).getD 0 ≠ 0) && decide (c.an.pubBase.getD i 0 ≤ a) &&
      decide (a < c.an.pubBase.getD i 0 + 4)
    match s.img.closed.find? (fun i => c.owns i (a / 4 * 4)), s.img.closed.find? stamped with
    | some _, _ => s.img.frozen.get a
    | none, some i => byteAt (toLe 4 (n % 2 ^ 32)) (a - c.an.pubBase.getD i 0)
    | none, none => s.img.com.get a

/-- The same for a load whose memory stage falls in the model cycle `cyc` (R72): at the commit cycle or later it returns the value
committed there (R191), also when the fetch came before it. -/
def State.imageByteAt (s : State) (cyc : Nat) (r : RoomId) (a : Nat) : Byte :=
  let n := (s.tb + (cyc - s.now)) / tickCycles
  if s.cycle < n ∧ ¬ a < 0xC00 ∧ s.outputArea a = true ∧ s.writable r a = false then s.nextByte n a else s.imageByte r a

def State.imageRead (s : State) (cyc : Nat) (r : RoomId) (a : Nat) : Nat → List Byte
  | 0 => []
  | n + 1 => s.imageByteAt cyc r a :: State.imageRead s cyc r (a + 1) n

/-- Storing bytes of one word into the pending copy in cycle `cyc`; a stored output word counts as written since the start (R192). -/
def State.imageWrite (s : State) (cyc a : Nat) (bs : List Byte) : State :=
  let n := (a - 0x1000) / 4
  { s with scan := s.scan.remember s.now cyc true a (s.img.pend.read a bs.length), img := { s.img with
      pend := s.img.pend.write a bs
      written := if 0x1000 ≤ a ∧ a < 0x1300 then (if s.img.written.contains n then s.img.written else s.img.written ++ [n])
        else s.img.written } }

/-- The bit of an image byte (R114). -/
def imageBitOf (b : Byte) (i : Nat) : Bool := b.getLsbD i
def setBit (b : Byte) (i : Nat) (x : Bool) : Byte := if x then b ||| (1 <<< i) else b &&& ~~~((1 : Byte) <<< i)

end Sys2Proof.Machine
end

