-- ==== Sys2Proof/Machine/Lane.lean ====
section
/-! DEFINITION. The issue of one instruction (R72 to R78, R83, R97, R105): which room fetches and when, which results it sees, and the
shapes that the instructions of a family share. -/

namespace Sys2Proof.Machine

/-- The first cycle at or after t that is a slot of lane k other than a maintenance slot (R72 to R74) or a switch slot (R225). -/
def State.fetchAt (s : State) (k : LaneId) (t : Nat) : Nat :=
  let t := max t s.edits.slotEnd
  let x := (s.at t).tb
  let y := x + (k.val + 8 - x % 8) % 8
  let z := if y % 20000 < 8 then y + 8 else y
  (s.at t).now + (z - x)

/-- The clock is judged (R59), the lanes fetch (R98), and the room is the READY room of highest priority on its lane (R83); a room whose
REST is in the pipeline has left READY before the lane's next slot. -/
def State.canIssue (s : State) (r : RoomId) : Bool :=
  s.steward && s.clk.judged && s.scan.lanes && s.rooms[r].ready &&
    s.rooms.toList.all (fun q => !(q.ready && q.lane == s.rooms[r].lane && decide (q.prio < s.rooms[r].prio)))

/-- Results due before the cycle reach their registers (R75, R78); writes of one register take effect in their order. -/
def Room.settle (v : Room) (cyc : Nat) : Room :=
  let v := match v.load with
    | some f => if f.due < cyc then { v.put f.rd f.val with load := none } else v
    | none => v
  let v := (v.macQ.filter (fun e => e.1 < cyc)).foldl (fun v e => { v with mlo := e.2.setWidth 32, mhi := (e.2 >>> 32).setWidth 32 }) v
  let v := { v with macQ := v.macQ.filter (fun e => !decide (e.1 < cyc)) }
  let v := (v.fpuQ.filter (fun e => e.1 < cyc)).foldl (fun v e => { v with frs := e.2 }) v
  let v := { v with fpuQ := v.fpuQ.filter (fun e => !decide (e.1 < cyc)) }
  let v := (v.divQ.filter (fun e => e.1 < cyc)).foldl (fun v e => { v with quo := e.2.1, rem := e.2.2 }) v
  { v with divQ := v.divQ.filter (fun e => !decide (e.1 < cyc)) }

/-- A load still in flight when this instruction reads its operands is written before any later one reads (R75). -/
def Room.landLoad (v : Room) : Room :=
  match v.load with
  | some f => { v.put f.rd f.val with load := none }
  | none => v

/-- An operation's place in a queue ordered by due cycle, after those issued before it (R120). -/
def insertDue {α : Type} (q : List (Nat × α)) (e : Nat × α) : List (Nat × α) :=
  q.takeWhile (fun x => decide (x.1 ≤ e.1)) ++ [e] ++ q.dropWhile (fun x => decide (x.1 ≤ e.1))

/-- One of the general registers awaits a data-memory load (R76, R97). -/
def loadPending (rs : List Reg) (v : Room) : Bool :=
  match v.load with
  | some f => f.rd != 0 && rs.contains f.rd
  | none => false

/-- The named special result register awaits a result (R97). -/
def sprPending (p : Spr) (v : Room) : Bool :=
  match p with
  | .mlo | .mhi => v.macQ != []
  | .frs => v.fpuQ != []
  | .quo | .rem => v.divQ != []

/-- What every instruction does at its issue: the PC advances (R105), the count of SCAN_ROOMPEAK and the lane's figures follow, a
load in flight lands behind the operand stage, and an early read arms the fault of R97. -/
def Room.issue (v : Room) (early : Bool) (c : Nat) : Room :=
  { v.landLoad with
    pc := v.pc + 1
    issued := v.issued + 1
    broken := if early then v.broken <|> some (c + 8, v.pc) else v.broken }

/-- SCAN_LANEk.CURRENT, the lane's used slots (R101), and the instruction now in the pipeline with the room as it was (R98). -/
def Scan.issue (c : Scan) (k : LaneId) (r : RoomId) (cyc : Nat) (before : Room) : Scan :=
  { c with
    current := upd c.current k (fun _ => BitVec.ofNat 7 r.val)
    issueAt := upd c.issueAt k (fun _ => cyc)
    used := upd c.used k (· + 1)
    flights := c.flights.filter (fun f => decide (cyc < f.at' + 8)) ++ [{ at' := cyc, room := r, before := before }] }

/-- The fetch of the instruction by room r at or after t. `act` gets the room as the operand stage reads it and the fetch cycle.
A room that cannot issue executes nothing (log entries 2 and 3). -/
def State.lane (s : State) (t : Nat) (r : RoomId) (early : Room → Bool) (act : Room → Nat → State → State) : State :=
  if s.canIssue r then
    let c := s.fetchAt s.rooms[r].lane t
    let v := s.rooms[r].settle (c + 2)
    let s := { s.updRoom r (fun _ => v.issue (early v) c) with now := c + 1, scan := s.scan.issue v.lane r c s.rooms[r] }
    act v c s
  else s.at t

/-- An instruction that writes one general register and flags: the result and what becomes of the flags. -/
def State.laneReg (s : State) (t : Nat) (r : RoomId) (rd : Reg) (reads : List Reg) (f : Room → Word) (g : Room → Room → Room) : State :=
  s.lane t r (loadPending reads) (fun v _ s => s.updRoom r (fun w => (g v w).put rd (f v)))

/-- An instruction that writes flags only. -/
def State.laneFlags (s : State) (t : Nat) (r : RoomId) (reads : List Reg) (g : Room → Room → Room) : State :=
  s.lane t r (loadPending reads) (fun v _ s => s.updRoom r (g v))

/-- An instruction that only selects the next one: its PC as a function of the room and the instruction's own index. -/
def State.laneJump (s : State) (t : Nat) (r : RoomId) (reads : List Reg) (f : Room → BitVec 20) : State :=
  s.lane t r (loadPending reads) (fun v _ s => s.updRoom r (fun w => { w with pc := f v }))

/-- A data-memory load (R75, R89, R138): the register is written at c + 14; outside the windows the value is zero and reported. -/
def State.laneLoad (s : State) (t : Nat) (r : RoomId) (rd ra : Reg) (off : BitVec 16) (sz : Size) (sg : Bool) : State :=
  s.lane t r (loadPending [ra]) (fun v c s =>
    let a := alignTo sz (effAddr v ra off)
    match v.window a with
    | some m => s.updRoom r (fun w => { w with load := some { due := c + 14, rd := rd, val := extend sz sg (s.dmem.read m sz.bytes) } })
    | none => (s.updRoom r (fun w => { w with load := some { due := c + 14, rd := rd, val := 0 } })).reportOow r v.pc a)

/-- A data-memory store (R89, R138). -/
def State.laneStore (s : State) (t : Nat) (r : RoomId) (rd ra : Reg) (off : BitVec 16) (sz : Size) : State :=
  s.lane t r (loadPending [rd, ra]) (fun v c s =>
    let a := alignTo sz (effAddr v ra off)
    match v.window a with
    | some m => s.laneStoreData (c + 5) r a m (toLe sz.bytes (v.get rd).toNat)
    | none => s.reportOow r v.pc a)

/-- An image load (R113, R138): outside the map zero, and reported. -/
def State.laneImgLoad (s : State) (t : Nat) (r : RoomId) (rd ra : Reg) (off : BitVec 16) (sz : Size) (sg : Bool) : State :=
  s.lane t r (loadPending [ra]) (fun v c s =>
    let a := alignTo sz (effAddr v ra off)
    if a < 2 ^ 19 then s.updRoom r (fun w => w.put rd (extend sz sg (s.imageRead (c + 5) r a sz.bytes)))
    else (s.updRoom r (fun w => w.put rd 0)).reportOow r v.pc a)

/-- An image store (R90, R113): outside the write set nothing changes, and it is reported. -/
def State.laneImgStore (s : State) (t : Nat) (r : RoomId) (rd ra : Reg) (off : BitVec 16) (sz : Size) : State :=
  s.lane t r (loadPending [rd, ra]) (fun v c s =>
    let a := alignTo sz (effAddr v ra off)
    if s.writable r a then s.imageWrite (c + 5) a (toLe sz.bytes (v.get rd).toNat) else s.reportOow r v.pc a)

/-- One image bit stored (R114): bit [2:0] of the byte at [21:3]. -/
def State.storeBit (s : State) (cyc : Nat) (r : RoomId) (pc : BitVec 20) (a : Nat) (x : Bool) : State :=
  if a < 2 ^ 22 ∧ s.writable r (a / 8) = true then
    s.imageWrite cyc (a / 8) [setBit (s.img.pend.get (a / 8)) (a % 8) x]
  else s.reportOow r pc a

/-- The channel whose state bit has an image bit address, when that channel is a Type 1 or Type 3 input (R140, R196). -/
def State.edgeChannel (s : State) (a : Nat) : Option Nat :=
  if 0x3000 ≤ a ∧ a < 0x3000 + 384 ∧ (a - 0x3000) % 32 < 16 then
    let n := (a - 0x3000) / 32 * 16 + (a - 0x3000) % 32
    match s.chanCfg n with
    | none => none
    | some e => if e.isDin then some n else none
  else none

/-- An EDGE instruction (R140): a count made of the snapshot's RISE and FALL. -/
def State.laneEdge (s : State) (t : Nat) (r : RoomId) (rd ra : Reg) (off : BitVec 16) (f : Nat → Nat → Nat) : State :=
  s.lane t r (loadPending [ra]) (fun v _ s =>
    let a := (effAddr v ra off).toNat
    let out (n : Nat) (s : State) : State := s.updRoom r (fun w => { w.put rd (BitVec.ofNat 32 n) with b := n != 0 })
    if a < 2 ^ 22 then
      match s.edgeChannel a with
      | some n =>
        let rec' := v.snap.read (8 * n) 4
        out (f (u16 rec' 0) (u16 rec' 2)) s
      | none => out 0 s
    else (out 0 s).reportOow r v.pc a)

/-- A timer or counter (R146): its 16-byte record is read and written back; outside the windows it computes on zeros and reports.
`f` gives from the record the new record, the value for rd and the output for B. -/
def State.laneRecord (s : State) (t : Nat) (r : RoomId) (rd ra : Reg) (off : BitVec 16)
    (f : Room → List Byte → List Byte × Nat × Bool) : State :=
  s.lane t r (loadPending [ra]) (fun v c s =>
    let a := (effAddr v ra off).toNat / 16 * 16
    let out (x : Nat) (q : Bool) (s : State) : State := s.updRoom r (fun w => { w.put rd (BitVec.ofNat 32 x) with b := q })
    match v.window a with
    | some m =>
      let y := f v (s.dmem.read m 16)
      out y.2.1 y.2.2 (s.laneStoreData (c + 6) r a m y.1)
    | none =>
      let y := f v (List.replicate 16 0)
      (out y.2.1 y.2.2 s).reportOow r v.pc a)

/-- An instruction of an arithmetic unit (R77, R78): on L0 to L5 it writes nothing. -/
def State.laneArith (s : State) (t : Nat) (r : RoomId) (reads : List Reg) (f : Room → Nat → Room → Room) : State :=
  s.lane t r (fun v => decide (6 ≤ v.lane.val) && loadPending reads v) (fun v c s =>
    if 6 ≤ v.lane.val then s.updRoom r (f v c) else s)

end Sys2Proof.Machine
end

