-- ==== Sys2Proof/Machine/Faults.lean ====
section
/-! DEFINITION. Hardware faults (R16, R97 to R101): what happens in the cycle in which one is detected. -/

namespace Sys2Proof.Machine

/-- A hardware fault or a night-porter expiry has been detected and reset has not been entered yet. -/
def State.halted (s : State) : Bool := s.scan.faulted || s.np.expired

/-- SCAN_FEV0 to SCAN_FEV4 (R101). -/
def fevWords (e : FaultEvidence) (more : Bool) (tb : Nat) : Vector Word 5 :=
  #v[pack [(0, 8, e.cause.toNat), (8, 3, e.lane.val), (11, 7, e.room.toNat), (18, 4, e.mem.toNat), (22, 1, b2n more)],
     e.pc.setWidth 32, e.addr.setWidth 32, BitVec.ofNat 32 tb, BitVec.ofNat 32 (tb / 2 ^ 32)]

/-- SCAN_FEV0.MORE set (R99). -/
def Scan.more (c : Scan) : Scan := { c with fev := c.fev.set 0 (c.fev[0] ||| (1 <<< 22)) }

/-- What becomes of a group's received values when the logic falls silent at TB f (R98 step 2): values handed over for tick t are
dropped when f is at most t − 800, kept when f is at least t − 200 (the crossing takes at most 1.5 µs), and in between the group has
received its part whole or not: the spec leaves it open, a free value decides per group (log entry 10). -/
def keepsHandOver (free : Word) (f tick : Nat) : Bool :=
  if f + 800 ≤ tick then false else if tick ≤ f + 200 then true else free.getLsbD 0

/-- The hand-over is cut short at TB f for every group (R98). -/
def State.cutHandOver (s : State) (f : Nat) : State :=
  let keep (n : Nat) (tick : Nat) : Bool := keepsHandOver (Config.freeWord (s.fresh + n / 16)) f tick
  { s with
    chans := s.chans.mapFinIdx (fun n c _ => match c.recv with
      | some (w, tick) => if keep n tick then { c with recv := some (w, tick) } else { c with recv := none }
      | none => c)
    fresh := s.fresh + 12 }

/-- Lanes stop, heartbeats stop, the hand-over is cut, CAN frames are withdrawn (R327), and FAULT_N is asserted 1 µs later until the first
commit after the restart (R34, R98, R413). -/
def State.silence (s : State) : State :=
  let s := (s.cutHandOver s.tb).canSilence
  { s with scan := { s.scan with lanes := false }, pwr := { s.pwr with
    faultAt := some (min (s.pwr.faultAt.getD (s.now + usCycles)) (s.now + usCycles))
    faultHold := true } }

/-- The level of FAULT_N: asserted in any reset and until the steward runs, and from 1 µs after a fault or an expiry (R34, R98 step 3). -/
def State.faultPin (s : State) : Bool := s.pwr.faultN || (match s.pwr.faultAt with | none => false | some x => decide (x ≤ s.now))

/-- Stores whose memory stage falls after this cycle are taken back, the newest first (R98 step 1). -/
def State.undoStores (s : State) : State :=
  (s.scan.undo.reverse.filter (fun u => decide (s.now < u.at'))).foldl (fun s u =>
    if u.image then { s with img := { s.img with pend := s.img.pend.put u.addr u.old } }
    else { s with dmem := s.dmem.put u.addr u.old }) s

/-- A room whose instruction has not reached write-back holds what it held before the fetch (R98 step 1). -/
def Room.before (v b : Room) : Room :=
  { v with
    g := b.g.set 0 0
    pc := b.pc
    z := b.z
    n := b.n
    c := b.c
    v := b.v
    b := b.b
    mlo := b.mlo
    mhi := b.mhi
    frs := b.frs
    quo := b.quo
    rem := b.rem
    load := b.load
    macQ := b.macQ
    fpuQ := b.fpuQ
    divQ := b.divQ
    restAt := b.restAt
    restDone := b.restDone
    peak := b.peak
    resp := b.resp }

/-- From a fault cycle on no result reaches its register: those due up to it are in, the others never come (R98 step 1). -/
def Room.cut (v : Room) (f : Nat) : Room :=
  { v.settle (f + 1) with
    load := none
    macQ := []
    fpuQ := []
    divQ := [] }

/-- No write of a stage in a cycle after this one takes effect (R98 step 1). -/
def State.cutPipeline (s : State) : State :=
  let s := s.undoStores
  let s := (s.scan.flights.reverse.filter (fun x => decide (s.now < x.at' + 7))).foldl (fun s x =>
    s.updRoom x.room (fun v => v.before x.before)) s
  let s := s.mapRooms (fun v => v.cut s.now)
  { s with scan := { s.scan with undo := [], flights := [] } }

/-- A hardware fault detected now (R98, R99): the first one latches its evidence, stops the lanes and is recorded; of two in one
cycle the lower cause counts as the first; a later one only sets MORE. -/
def State.hardwareFault (s : State) (e : FaultEvidence) : State :=
  if s.scan.faulted then
    if s.scan.faultAt = s.now ∧ e.cause < s.scan.fcause then
      { s with scan := { s.scan with fev := fevWords e true s.tb, fcause := e.cause } }
    else { s with scan := s.scan.more }
  else if s.np.expired = true ∧ s.np.expAt ≠ s.tb then { s with scan := s.scan.more }
  else
    let f := s.tb
    let s := s.silence.cutPipeline
    let s := { s with scan := { s.scan with fev := fevWords e false f, faulted := true, faultAt := s.now, fcause := e.cause } }
    if s.steward then s.gbEvent 0x03 e.cause.toNat sevCritical s.scan.fev.toList else s

end Sys2Proof.Machine
end

