-- ==== Sys2Proof/Machine/Field.lean ====
section
/-! DEFINITION. What drives the output channels (R203, R245 to R252, R260 to R263, R284 to R288) and how a commit reaches them. -/

namespace Sys2Proof.Machine

/-! ### Latched bits of a group (R266, R267, R300, R301) -/

/-- The register of the evidence word of a channel record: GRP_CHi or GRP_AVALi (R469). -/
def chReg (n : ChanId) (ana : Bool) : Nat := 0x3000 + 0x100 * (n.val / 16) + (if ana then 0xC0 else 0x40) + 4 * (n.val % 16)

/-- A latched bit of channel n, in the upper half of the group's register at `off`, sets: the first time it does, its record is written and vector 6 raised (R267, R301). -/
def State.latchChan (s : State) (n : ChanId) (rd : Group → BitVec 16) (wr : Group → BitVec 16 → Group) (off typ : Nat) (sev : BitVec 2)
    (ana : Bool) : State :=
  let g := grpOf n
  let m : BitVec 16 := 1 <<< (idxOf n).val
  let s := s.mark (0x3000 + 0x100 * g.val + off) (2 ^ (16 + (idxOf n).val))
  if rd s.groups[g] &&& m != 0 then s
  else
    let s := s.updGrp g (fun p => wr p (rd p ||| m))
    s.channelEvent typ n.val sev [chReg n ana]

def State.latchProt (s : State) (n : ChanId) : State :=
  s.latchChan n Group.protLatch (fun p x => { p with protLatch := x }) 0x14 0x30 sevFault false
def State.latchOpen (s : State) (n : ChanId) : State :=
  s.latchChan n Group.openLatch (fun p x => { p with openLatch := x }) 0x18 0x31 sevFault false
def State.latchDisc (s : State) (n : ChanId) : State :=
  s.latchChan n Group.discLatch (fun p x => { p with discLatch := x }) 0x1C 0x32 sevFault false
def State.latchRate (s : State) (n : ChanId) : State :=
  s.latchChan n Group.rateLatch (fun p x => { p with rateLatch := x }) 0x20 0x34 sevNotice false
def State.latchAFault (s : State) (n : ChanId) : State :=
  s.latchChan n Group.afLatch (fun p x => { p with afLatch := x }) 0x8C 0x40 sevFault true
def State.latchARange (s : State) (n : ChanId) : State :=
  s.latchChan n Group.arLatch (fun p x => { p with arLatch := x }) 0x90 0x41 sevNotice true

/-! ### Terminals (R43, R44, R278, R290) -/

/-- The modes whose first value is a temperature of an RTD. -/
def isRtd (e : ChanCfg) : Bool := e.mode == 0x18 || e.mode == 0x19 || e.mode == 0x1A
/-- The modes that need excitation, which a relief does not apply (R290). -/
def excited (e : ChanCfg) : Bool := isRtd e || e.mode == 0x1E

/-- The terminal's bypass, input load and excitation: those of the mode, while the group has L+ and modes, else those of a channel without a
mode, bypass closed and the rest off. -/
def Chan.terminal (c : Chan) (g : Group) : Chan :=
  match c.cfg with
  | none => { c with bypass := true, sink := false, excite := false }
  | some e =>
    let moded := g.lplus && g.cfg
    { c with
      bypass := !moded
      sink := moded && (e.isDin || e.isCounter)
      excite := moded && !g.relief && excited e }

/-! ### Digital outputs (R252, R260) -/

/-- The safe-state timeout of a group in ms (R239). -/
def timeoutOf (es : List ChanCfg) : Nat :=
  let ts := (es.filter ChanCfg.isOutput).map (fun e => if e.timeout = 0 then 5 else e.timeout)
  match ts with
  | [] => 5
  | t :: r => r.foldl min t

/-- The safe state of a digital output (R262): OFF, ON, or the last value committed. -/
def Chan.safeOn (c : Chan) (e : ChanCfg) : Bool :=
  if e.safe = 1 then true
  else if e.safe = 2 then (match c.lastCom with | some w => w.getLsbD 0 | none => false)
  else false

/-- Rows 6 to 8 of R260: the safe state until the first commit under R192, then the committed value. -/
def Chan.wantOn (c : Chan) (e : ChanCfg) : Bool :=
  if c.follow then (match c.lastCom with | some w => w.getLsbD 0 | none => false) else c.safeOn e

/-- Rows 1 to 3 and 5 of R260 keep the switch OFF. -/
def blockedOff (quiet : Bool) (g : Group) (c : Chan) : Bool := !g.lplus || quiet || c.held || (g.relief && !c.proofOpen)

/-- Row 4 of R260 (R252): inside the interval after a switch-off, or, for a channel that follows its commits, until a commit after
it. -/
def rateBlocks (c : Chan) (e : ChanCfg) (commit : Bool) : Bool :=
  decide (0 < e.eoff) && !c.drive && (c.rateUntil.isSome || (c.rateHeld && c.follow && !commit))

/-- The value that a digital output applies (R254): its committed value or safe state, OFF under the power-on table (R44). -/
def Chan.applies (c : Chan) (g : Group) (e : ChanCfg) : Bool := g.lplus && g.cfg && c.wantOn e

/-- The interval of R252 that a switch-off starts. -/
def Chan.interval (c : Chan) (e : ChanCfg) (now : Nat) : Option Nat :=
  if 0 < e.eoff then some (now + 100 * secCycles / (max 1 e.foff)) else c.rateUntil

/-- The switch of a digital output after an event; a switch-off starts the interval of R252. `changedAt` is the last change of the switch or
of the value applied. -/
def Chan.driven (c : Chan) (quiet commit : Bool) (g : Group) (e : ChanCfg) (now : Nat) : Chan :=
  let blocked := blockedOff quiet g c
  let value := c.applies g e
  let want := value || (g.relief && c.proofOpen)
  let rate := want && !blocked && rateBlocks c e commit
  let on := want && !blocked && !rate
  let held := if blocked then c.rateHeld && want else rate
  { c with
    drive := on
    applied := BitVec.ofNat 32 (b2n value)
    changedAt := if on = c.drive ∧ c.applied = BitVec.ofNat 32 (b2n value) then c.changedAt else now
    offAt := if c.drive && !on then now else c.offAt
    rateUntil := if c.drive && !on then c.interval e now else c.rateUntil
    rateHeld := held }

/-! ### Analogue outputs (R203, R284 to R287, R293) -/

/-- The limits of an analogue output's value (R203, R268, R284). -/
def aoutLimits (e : ChanCfg) : Int × Int :=
  if e.mode = 0x20 then (0, 24000000)
  else if e.mode = 0x22 then (3400000, 24000000)
  else if e.range = 1 then (0, 10000000) else (-10000000, 10000000)

/-- The value of an output word: unsigned nA, or signed µV (R203). -/
def aoutValue (e : ChanCfg) (w : Word) : Int := if e.mode = 0x21 then w.toInt else (w.toNat : Int)

/-- The word clamped to the range, and whether it was (R203). -/
def aoutClamp (e : ChanCfg) (w : Word) : Int × Bool :=
  let l := aoutLimits e
  let v := aoutValue e w
  (clampI l.1 l.2 v, decide (v < l.1) || decide (l.2 < v))

/-- The driven value under a user trim, so that the meter reads v (R293). -/
def trimOut (c : Chan) (v : Int) : Int := roundDiv ((v - c.trimO) * 1000000) (1000000 + c.trimG).toNat

/-- The alarm current of a loop-powered output: ALMDIR while the group is configured and powered, else the ALMSEL strap (R285). -/
def alarmOf (g : Group) (e : ChanCfg) : AnaSt :=
  if g.lplus && g.cfg then .alarm (bit (u8p e 21) 5) else .alarm (!g.almsel)

/-- The safe state of an analogue output (R286). -/
def Chan.safeAna (c : Chan) (g : Group) (e : ChanCfg) : AnaSt :=
  let none' : AnaSt := if e.mode = 0x22 then alarmOf g e else .off
  if e.safe = 3 then .value (trimOut c (aoutClamp e (BitVec.ofNat 32 (u32 e.param 4))).1)
  else if e.safe = 2 then (match c.lastCom with | some w => .value (trimOut c (aoutClamp e w).1) | none => none')
  else none'

/-- Rows 1 to 6 of R287; a group without modes has its power-on safe states (R44, R291). -/
def Chan.anaState (c : Chan) (quiet : Bool) (g : Group) (e : ChanCfg) : AnaSt :=
  if !g.lplus then (if e.mode = 0x22 then alarmOf g e else .off)
  else if quiet || g.relief then (if e.mode = 0x22 then .standby else .off)
  else if !g.cfg then (if e.mode = 0x22 then alarmOf g e else .off)
  else if !c.follow then c.safeAna g e
  else match c.lastCom with
    | some w => .value (trimOut c (aoutClamp e w).1)
    | none => c.safeAna g e

def Chan.drivenAna (c : Chan) (quiet : Bool) (g : Group) (e : ChanCfg) (now : Nat) : Chan :=
  let a := c.anaState quiet g e
  { c with
    aout := a
    applied := match a with | .value v => BitVec.ofInt 32 v | _ => 0
    clamped := match c.lastCom with | some w => c.follow && (aoutClamp e w).2 | none => false
    changedAt := if a = c.aout then c.changedAt else now }

/-! ### Events that drive outputs -/

/-- Channel n driven anew after an event, terminal and stage; `commit` when the event is its commit. A rate hold that begins is latched and recorded. -/
def State.driveChan (s : State) (n : ChanId) (commit : Bool) : State :=
  let g := s.groups[grpOf n]
  let s := s.updChan n (fun c => c.terminal g)
  let c := s.chans[n]
  match c.cfg with
  | none => s.updChan n (fun c => { c with drive := false, aout := .off, applied := 0 })
  | some e =>
    if e.isDout then
      let s' := s.updChan n (fun c => c.driven s.pwr.quietIn commit g e s.now)
      if !c.rateHeld && s'.chans[n].rateHeld then s'.latchRate n else s'
    else if e.isAout then s.updChan n (fun c => c.drivenAna s.pwr.quietIn g e s.now)
    else s

/-- The channels of a group. -/
def chansOf (g : GrpId) : List ChanId := (fins 16).map (chanOf g)

/-- Every channel of a group driven anew. -/
def State.driveGroup (s : State) (g : GrpId) : State := (chansOf g).foldl (fun s n => s.driveChan n false) s

/-- Every output of the module driven anew. -/
def State.driveAll (s : State) : State := (fins 12).foldl State.driveGroup s

/-- The supervisor stays in control until every output channel of the group follows its owner (R262). -/
def State.releaseSupervisor (s : State) (g : GrpId) : State :=
  let waits := (chansOf g).any (fun n => match s.chans[n].cfg with | none => false | some e => e.isOutput && !s.chans[n].follow)
  if s.groups[g].supact && !waits then s.updGrp g (fun p => { p with supact := false, stopSafe := false }) else s

/-- The supervisor of a group applies its safe states (R261, R262): no channel follows until its next first commit. -/
def State.applySafe (s : State) (g : GrpId) : State :=
  let s := s.updGrp g (fun p => { p with supact := true })
  let s := (chansOf g).foldl (fun s n => s.updChan n (fun c => { c with follow := false })) s
  s.driveGroup g

/-- What a commit does to a channel held OFF under R247 (R248): re-arming at 0, a retry at 1 where nothing else keeps the switch OFF (`free`).
A retry has succeeded, and the count of failed ones ends, at a commit of 1 that finds the channel ON for at least 1 ms and not limiting, or at
a commit of 0 (log entry 47). -/
def Chan.rearm (c : Chan) (e : ChanCfg) (v free : Bool) (now : Nat) : Chan :=
  if c.held then
    if !v then { c with held := false, retries := 0, retrying := false, rearmed := true }
    else if bit (u8p e 21) 3 && decide (c.retries < 3) && decide (c.offAt + secCycles ≤ now) && free then { c with held := false, retrying := true }
    else c
  else if !v || (c.drive && !c.limiting && decide (c.changedAt + msCycles ≤ now)) then { c with retries := 0, retrying := false }
  else c

/-- Nothing but the holding of R247 keeps the switch of a channel OFF at its commit of 1. -/
def State.switchFree (s : State) (n : ChanId) (e : ChanCfg) : Bool :=
  let g := s.groups[grpOf n]
  let c := s.chans[n]
  g.lplus && g.cfg && !s.pwr.quietIn && !g.relief && !(decide (0 < e.eoff) && c.rateUntil.isSome)

/-- A group applies the value of channel n at its commit (R186, R192, R203, R248, R260): the value is held as committed and the
channel follows it from now on. -/
def State.commitChan (s : State) (n : ChanId) (w : Word) : State :=
  match s.chans[n].cfg with
  | none => s
  | some e =>
    let free := s.switchFree n e
    let s := s.updChan n (fun c => { (c.rearm e (w.getLsbD 0) free s.now) with lastCom := some w, follow := true })
    s.driveChan n true

end Sys2Proof.Machine
end

