-- ==== Sys2Proof/Machine/Digital.lean ====
section
/-! DEFINITION. Events of the digital channels and of the field supervisors (R239 to R267, R193). -/

namespace Sys2Proof.Machine

/-- GRP_STAT, GRP_SUPPLY and GRP_SAFE of a group. -/
def grpReg (g : GrpId) (o : Nat) : Nat := 0x3000 + 0x100 * g.val + o

/-! ### Modes -/

/-- A channel whose mode is set anew (R208, R265): its counts, edges and held values start again; wiring, trims and proof record stay, and a
switch that goes OFF starts its interval (R252). -/
def Chan.anew (c : Chan) (e : Option ChanCfg) (now : Nat) : Chan :=
  { Chan.init with
    cfg := e
    raw := c.raw
    rawAt := c.rawAt
    changedAt := now
    levelAt := now
    offAt := if c.drive then now else c.offAt
    rateUntil := match c.drive, c.cfg with
      | true, some old => c.interval old now
      | _, _ => c.rateUntil
    stale := (e.map ChanCfg.isAnalogue).getD false
    trimG := c.trimG
    trimO := c.trimO
    proofTry := c.proofTry
    proofHours := c.proofHours
    proofFail := c.proofFail
    proofFailLatch := c.proofFailLatch
    exer := c.exer
    disc := c.disc
    discLatch := c.discLatch
    agedOut := c.agedOut }

/-- A channel receives the entry of a configuration: anew when it differs from the one held (R265). -/
def Chan.load (c : Chan) (e : Option ChanCfg) (now : Nat) : Chan := if c.cfg = e then c else c.anew e now

/-- The configuration whose modes the groups hold: the running one, else the stored one. -/
def State.fieldConf (s : State) : Option Conf := s.app.cur <|> s.app.stored

/-- The steward loads modes, programmed safe states, the timeout, the slot schedule and the role into a group with L+ (R239, R265, R274, R288);
before the role is settled the supervisor keeps the one it held. -/
def State.loadGroup (s : State) (c : Conf) (g : GrpId) : State :=
  if s.groups[g].lplus then
    let entry (n : ChanId) : Option ChanCfg := c.way.chans.find? (fun e => e.ch == n.val)
    let s := (chansOf g).foldl (fun s n => s.updChan n (fun x => x.load (entry n) s.now)) s
    let s := s.updGrp g (fun p => { p with
      cfg := true
      timeout := BitVec.ofNat 7 (timeoutOf ((chansOf g).filterMap entry))
      relief := if s.pair.settled then s.isRelief else p.relief
      sched := Config.slotSchedule (schedUse c.way g.val) })
    s.driveGroup g
  else s

/-! ### Supervisor and L+ -/

/-- The record of an entry into safe states (R267); it waits while the role is open, on which its severity depends. -/
def State.safeEvent (s : State) (g : GrpId) : State :=
  if s.steward = true ∧ s.pair.settled = false then
    { s with
      gb := { s.gb with late := s.gb.late ++ [{ typ := 0x35, source := g.val, sev := sevCritical, words := [grpReg g 0, grpReg g 8] }] }
      host := { s.host with lateVec6 := true } }
  else s.channelEvent 0x35 g.val (if s.steward ∧ s.isRelief then sevNotice else sevCritical) [grpReg g 0, grpReg g 8]

/-- R261, R262, R263. Logic silence reaches the safe-state timeout: the supervisor applies the safe states of every output, and alignment may
begin again; an entry is counted, latched and recorded unless it was already applying them. -/
def execSupervisorTimeout (t : Nat) (g : GrpId) (s : State) : Host.Outcome State Fault Refusal :=
  let s := s.at t
  let p := s.groups[g]
  let lim := if p.timeout = 0 then 5 else p.timeout.toNat
  .next (if p.lplus = true ∧ p.lastAlign + lim * msCycles ≤ s.now then
      let s := (s.applySafe g).updGrp g (fun p => { p with withhold := false })
      if p.supact then s
      else
        let s := (s.updGrp g (fun p => { p with supevt := true, supcount := satInc p.supcount })).mark (grpReg g 0) 16
        if p.supevt then s.raiseLater 6 else s.safeEvent g
    else s)

/-- A channel of a group that lost L+: switch unpowered, protection state gone, nothing held as committed (R262, R264). -/
def Chan.unpowered (c : Chan) : Chan :=
  { c with
    held := false
    retries := 0
    retrying := false
    limiting := false
    follow := false
    lastCom := none
    recv := none
    stale := (c.cfg.map ChanCfg.isAnalogue).getD false
    hist := []
    edem := 0
    iload := 0 }

/-- The lowest group with L+ that can serve as clock reference (R62). -/
def State.refGroup (s : State) : Option GrpId := (fins 12).find? (fun g => s.groups[g].lplus)

/-- The monitor's choice of a fall-back reference (R62, R63): the lowest group with L+, or none; after judgement a lost reference is
recorded. The count of good windows starts again with the new reference: DESIGN CHOICE, log entry 40. -/
def State.chooseRef (s : State) : State :=
  match s.refGroup with
  | some g => { s with clk := { s.clk with refsrc := true, refgrp := BitVec.ofNat 4 g.val, noref := false, good := 0 } }
  | none =>
    let s := { s with clk := { s.clk with refsrc := false, noref := true, good := 0 } }
    if s.clk.judged then s.clockEvent 0x07 sevFault 0x0400 else s

/-- R264. L+ of a group is lost. -/
def execLplusLost (t : Nat) (g : GrpId) (s : State) : Host.Outcome State Fault Refusal :=
  let s := s.at t
  if s.groups[g].lplus then
    let first := !s.groups[g].lploss
    let s := s.updGrp g (fun p => { p with
      lplus := false
      cfg := false
      supact := false
      lploss := true
      lpv := 0
      igrp := 0
      engok := false
      held := []
      cjok := false })
    let s := (s.mark (grpReg g 0) 32).driveGroup g
    let s := (chansOf g).foldl (fun s n => s.updChan n Chan.unpowered) s
    let s := s.driveGroup g
    let s := if first then s.channelEvent 0x36 g.val sevFault [grpReg g 4] else s.raiseLater 6
    .next (if s.clk.refsrc = true ∧ s.clk.refgrp.toNat = g.val then s.chooseRef else s)
  else .next s

/-- R264, R265. L+ returns: the supervisor starts with the power-on safe states, its latched bits are 0; without a running logic
side the modes are set anew. -/
def execLplusReturn (t : Nat) (g : GrpId) (volts10mV : Nat) (s : State) : Host.Outcome State Fault Refusal :=
  let s := s.at t
  if s.groups[g].lplus then .next s
  else
    let s := s.updGrp g (fun p => { Group.init with
      lpv := BitVec.ofNat 12 volts10mV
      almsel := p.almsel
      lastAlign := s.now
      spare := p.spare
      engfail := p.engfail
      calCh := p.calCh
      calLow := p.calLow
      calHigh := p.calHigh })
    let anew := !s.steward
    let s := (chansOf g).foldl (fun s n => s.updChan n (fun c => { (if anew then c.anew c.cfg s.now else c) with follow := false })) s
    .next (s.driveGroup g)

/-- R265. The steward reloads modes and programmed safe states after L+ has returned. -/
def execGroupConfigReload (t : Nat) (g : GrpId) (s : State) : Host.Outcome State Fault Refusal :=
  let s := s.at t
  match s.fieldConf with
  | none => .next s
  | some c => .next (if s.steward = true ∧ s.groups[g].cfg = false then s.loadGroup c g else s)

/-! ### Inputs -/

/-- FILTER in main-clock cycles (R236, R241). -/
def filterOf (e : ChanCfg) : Nat := u16 e.param 4 * 4000

/-- The gate channel of a counter (R236), when its GATE bit is set. -/
def gateOf (g : GrpId) (e : ChanCfg) : Option ChanId :=
  if e.isCounter && bit (u8p e 27) 7 then some (chanOf g ⟨fld (u8p e 27) 0 4, by unfold fld; omega⟩) else none

/-- The gate channel has decided its state at the stamps that waited for it (R244). -/
def Chan.gateDecided (c : Chan) (v : Bool) : Chan :=
  { c with
    gateVal := c.gateVal <|> some v
    count := if v then c.count + BitVec.ofNat 32 c.gateDefer else c.count
    gateDefer := 0 }

/-- Counters of a group that a channel gates learn its decided state. -/
def State.decideGate (s : State) (n : ChanId) (v : Bool) : State :=
  (chansOf (grpOf n)).foldl (fun s m =>
    match s.chans[m].cfg with
    | none => s
    | some e => if gateOf (grpOf n) e = some n then s.updChan m (fun c => c.gateDecided v) else s) s

/-- What the gate of a counter reads at a raw transition happening now: decided, or waiting for a change inside the gate's filter. -/
def State.gateNow (s : State) (n : ChanId) (e : ChanCfg) : Option Bool :=
  match gateOf (grpOf n) e with
  | none => some true
  | some q => if s.chans[q].raw = s.chans[q].level then some s.chans[q].level else none

/-- Whether an edge is one that the counter counts (R236 EDGESEL). -/
def edgeSelected (e : ChanCfg) (rising : Bool) : Bool :=
  if rising then bit (u8p e 26) 0 else bit (u8p e 26) 1

/-- An accepted edge of a channel (R207, R242, R244); its stamp is the cycle of the raw transition, which no EDGEAGE counts from when it lies
before TB began (R265). -/
def Chan.edge (c : Chan) (e : ChanCfg) (tb0 now : Nat) : Chan :=
  let counted := e.isCounter && edgeSelected e c.raw
  { c with
    level := c.raw
    rise := if c.raw then c.rise + 1 else c.rise
    fall := if c.raw then c.fall else c.fall + 1
    lastEdge := if tb0 ≤ c.rawAt then some c.rawAt else none
    levelAt := now
    count := if counted && c.gateVal == some true then c.count + 1 else c.count
    gateDefer := if counted && c.gateVal == none then c.gateDefer + 1 else c.gateDefer }

/-- The entry of a channel that filters a level: an input, a counter or an output that reads back, in a group with L+ and modes. -/
def State.filterCfg (s : State) (ch : ChanId) : Option ChanCfg :=
  match s.chans[ch].cfg with
  | none => none
  | some e => if e.hasState && s.groups[grpOf ch].lplus && s.groups[grpOf ch].cfg then some e else none

/-- The pending change of a channel is accepted (R241, R242). -/
def State.takeEdge (s : State) (ch : ChanId) (e : ChanCfg) : State :=
  let v := s.chans[ch].raw
  (s.updChan ch (fun c => c.edge e s.tb0 s.now)).decideGate ch v

/-- A pending change that must be accepted by now (R241): held for its filter F, or with F = 0 for 2.5 µs. -/
def State.ripeEdge (s : State) (ch : ChanId) : State :=
  let c := s.chans[ch]
  match s.filterCfg ch with
  | none => s
  | some e =>
    let due := if filterOf e = 0 then 1000 else filterOf e
    if c.raw ≠ c.level ∧ c.rawAt + due ≤ s.now then s.takeEdge ch e else s

/-- R241, R242. The comparator changes its level. A pending change that has held for its filter, or without a filter for 2.5 µs, is an edge
first; else a change back discards it. -/
def execInputRawChange (t : Nat) (ch : ChanId) (level : Bool) (s : State) : Host.Outcome State Fault Refusal :=
  let s := s.at t
  if s.chans[ch].raw = level ∨ s.groups[grpOf ch].lplus = false then .next s
  else
    let s := s.ripeEdge ch
    let c := s.chans[ch]
    let gate := match c.cfg with | none => some true | some e => s.gateNow ch e
    let s := s.updChan ch (fun c => { c with raw := level, rawAt := s.now, gateVal := gate })
    .next (if level = c.level then s.decideGate ch c.level else s)

/-- R241 to R244. The raw level has held for F, or without a filter for 0.5 µs, below which no pulse is seen: the change is accepted with the
stamp of its raw transition. -/
def execInputFilterAccept (t : Nat) (ch : ChanId) (s : State) : Host.Outcome State Fault Refusal :=
  let c := s.chans[ch]
  match s.filterCfg ch with
  | none => .next (s.at t)
  | some e =>
    if c.raw ≠ c.level then .next ((s.at (max t (c.rawAt + max 200 (filterOf e)))).takeEdge ch e)
    else .next (s.at t)

/-- OPEN of a digital channel sets or clears; its latched bit follows a rise (R266). -/
def State.setOpen (s : State) (ch : ChanId) (set : Bool) : State :=
  let had := s.chans[ch].copen
  let s := s.updChan ch (fun c => { c with copen := set })
  if set && !had then s.latchOpen ch else s

/-- R243. An input's current has stayed below, or at or above, 0.2 mA for 100 ms. -/
def execWireBreak (t : Nat) (ch : ChanId) (set : Bool) (s : State) : Host.Outcome State Fault Refusal :=
  let s := s.at t
  match s.chans[ch].cfg with
  | none => .next s
  | some e =>
    if (e.isDin || e.isCounter) = true ∧ bit (u8p e 21) 0 = true ∧ s.groups[grpOf ch].up = true then
      .next (s.setOpen ch set)
    else .next s

/-! ### Outputs -/

/-- The channel is a digital output whose group has L+ and modes. -/
def State.doutAt (s : State) (ch : ChanId) : Option ChanCfg :=
  match s.chans[ch].cfg with
  | none => none
  | some e => if e.isDout && s.groups[grpOf ch].up then some e else none

/-- R247. A channel begins or ends limiting its current. -/
def execCurrentLimit (t : Nat) (ch : ChanId) (on : Bool) (milliamp : Nat) (s : State) : Host.Outcome State Fault Refusal :=
  let s := s.at t
  match s.doutAt ch with
  | none => .next s
  | some _ => .next (s.updChan ch (fun c => { c with limiting := on && c.drive, iload := BitVec.ofNat 12 (min 4095 milliamp) }))

/-- A channel switches itself OFF and holds OFF for a reason (R247, R248): a retry that ends so counts. -/
def State.holdOff (s : State) (ch : ChanId) (cause : BitVec 3) : State :=
  let s := s.updChan ch (fun c => { c with
    held := true
    cause := cause
    limiting := false
    rearmed := false
    retries := if c.retrying then c.retries + 1 else c.retries
    retrying := false })
  (s.driveChan ch false).latchProt ch

/-- R247. 1 ms of limiting, or the thermal limit. -/
def execShortCircuit (t : Nat) (ch : ChanId) (thermal : Bool) (s : State) : Host.Outcome State Fault Refusal :=
  let s := s.at t
  match s.doutAt ch with
  | none => .next s
  | some _ =>
    .next (if s.chans[ch].drive = true ∧ (thermal || s.chans[ch].limiting) = true then s.holdOff ch (if thermal then 2 else 1) else s)

/-- The channels a group sheds (R249): first those above their ILOAD, then the others in descending order of current, ties by
descending channel number, until the current on L+, `total` at first, is below 4.0 A. `xs` lists (index, current, above ILOAD) of the ON channels. -/
def shed (xs : List (Nat × Nat × Bool)) (total : Nat) : List Nat :=
  let first := xs.filter (fun x => x.2.2)
  let rest := (xs.filter (fun x => !x.2.2)).mergeSort (fun a b => decide (b.2.1 < a.2.1) || (a.2.1 == b.2.1 && decide (b.1 ≤ a.1)))
  let left := total - (first.map (fun x => x.2.1)).foldl (· + ·) 0
  let more := rest.foldl (fun (acc : Nat × List Nat) x => if acc.1 < 4000 then acc else (acc.1 - x.2.1, acc.2 ++ [x.1])) (left, [])
  first.map Prod.fst ++ more.2

/-- R249. The group current has exceeded its limit; `milliamps` gives the 16 channel currents, whose sum is the current on L+. The channels shed
have their own records; R469 lists none for GRPOC itself (log entry 47). -/
def execGroupOvercurrent (t : Nat) (g : GrpId) (milliamps : List Nat) (s : State) : Host.Outcome State Fault Refusal :=
  let s := s.at t
  let total := (milliamps.take 16).foldl (· + ·) 0
  if s.groups[g].lplus = true ∧ 4400 < total then
    let xs := (fins 16).filterMap (fun i =>
      let n := chanOf g i
      match s.doutAt n with
      | none => none
      | some e => if s.chans[n].drive then some (i.val, milliamps.getD i.val 0, decide (e.iload < milliamps.getD i.val 0)) else none)
    let s := s.updGrp g (fun p => { p with grpoc := true, igrp := BitVec.ofNat 12 (min 4095 total) })
    let s := (s.mark (grpReg g 0) 64).raiseLater 6
    .next ((shed xs total).foldl (fun s i => match toFin? 16 i with | none => s | some i => s.holdOff (chanOf g i) 3) s)
  else .next s

/-- R251. The clamp energy of a switch-off has been measured. -/
def execDemagEnergyMeasured (t : Nat) (ch : ChanId) (millijoule : Nat) (s : State) : Host.Outcome State Fault Refusal :=
  let s := s.at t
  match s.doutAt ch with
  | none => .next s
  | some e =>
    let s := s.updChan ch (fun c => { c with edem := BitVec.ofNat 10 (min 1023 millijoule) })
    .next (if e.eoff * 11 + 50 < millijoule * 10 then
        let s := s.updGrp (grpOf ch) (fun p => { p with demag := p.demag ||| (1 <<< (idxOf ch).val) })
        let s := s.mark (grpReg (grpOf ch) 0x24) (2 ^ (idxOf ch).val)
        s.channelEvent 0x33 ch.val (if 250 < millijoule then sevCritical else sevFault) [chReg ch false]
      else s)

/-- R252. The interval after a switch-off ends; a safe state of ON waits no longer (R260). -/
def execRateHoldEnd (t : Nat) (ch : ChanId) (s : State) : Host.Outcome State Fault Refusal :=
  match s.chans[ch].rateUntil with
  | none => .next (s.at t)
  | some u =>
    let s := s.at (max t u)
    let s := s.updChan ch (fun c => { c with rateUntil := none })
    .next (if s.chans[ch].follow then s else s.driveChan ch false)

/-- DISCT in cycles (R236). -/
def disctOf (e : ChanCfg) : Nat := u16 e.param 6 * 40000

/-- The instant from which read-back level and applied value stand as they do, the comparison beginning 50 µs after a change of the value
(R254). -/
def Chan.comparedFrom (c : Chan) : Nat := max c.levelAt (c.changedAt + 50 * usCycles)

/-- R254. Read-back level and applied value have differed, or agreed, for DISCT; suspended while held OFF, silenced or without L+. A relief
compares with the value that both modules commit. -/
def execReadbackDiscrepancy (t : Nat) (ch : ChanId) (set : Bool) (s : State) : Host.Outcome State Fault Refusal :=
  match s.doutAt ch with
  | none => .next (s.at t)
  | some e =>
    let c := s.chans[ch]
    let differs := c.level != c.applies s.groups[grpOf ch] e
    if e.isReadback = true ∧ c.held = false ∧ c.rateHeld = false ∧ s.pwr.quietIn = false ∧ differs = set then
      let s := s.at (max t (c.comparedFrom + disctOf e))
      let had := s.chans[ch].cdisc
      let s := s.updChan ch (fun c => { c with cdisc := set })
      .next (if set && !had then s.latchDisc ch else s)
    else .next (s.at t)

/-- R255, R259. Open load for 20 ms, or no longer; a relief or a silenced module runs neither test. -/
def execOpenLoad (t : Nat) (ch : ChanId) (set : Bool) (s : State) : Host.Outcome State Fault Refusal :=
  let s := s.at t
  match s.doutAt ch with
  | none => .next s
  | some e =>
    let tests := if s.chans[ch].drive then bit (u8p e 21) 2 else bit (u8p e 21) 1
    if (set = false ∨ tests = true) ∧ s.groups[grpOf ch].relief = false ∧ s.pwr.quietIn = false then
      .next (s.setOpen ch set)
    else .next s

/-! ### Commits in the field -/

/-- R185, R186, R193. The group switches the values it has received whole, at their scheduled instant; without L+ or modes it
switches nothing. -/
def execOutputCommitApply (t : Nat) (g : GrpId) (s : State) : Host.Outcome State Fault Refusal :=
  match (chansOf g).findSome? (fun n => s.chans[n].recv) with
  | none => .next (s.at t)
  | some (_, tick) =>
    let s := s.at (max t (s.cycleOfTb tick))
    let go := s.groups[g].lplus && s.groups[g].cfg
    let s := (chansOf g).foldl (fun s n =>
      match s.chans[n].recv with
      | none => s
      | some (w, _) =>
        let s := s.updChan n (fun c => { c with recv := none })
        if go then s.commitChan n w else s) s
    .next (s.releaseSupervisor g)

end Sys2Proof.Machine
end

