-- ==== Sys2Proof/Machine/Analogue.lean ====
section
/-! DEFINITION. The group engines, the spare engine, analogue records and calibration (R268 to R301). -/

namespace Sys2Proof.Machine

/-! ### Samples and records (R275 to R279, R293) -/

/-- Cycles of a frame and of its reference slot (R271). -/
def frameCycles : Nat := 400000
def slotCycles : Nat := 12500

/-- LEADR of a 2-wire RTD or resistance channel (R269, R279). -/
def leadOf (e : ChanCfg) : Int := if e.mode = 0x18 ∨ e.mode = 0x1E then (u32 e.param 4 : Nat) else 0

/-- The measured quantity as it is before user trim (R279): of a 3-wire RTD the second drop minus the first, by the excitation current of 1.0 mA
or 0.25 mA; else a measured resistance without its declared leads. -/
def preTrim (e : ChanCfg) (raw second : Int) : Int :=
  if e.mode = 0x19 then roundDiv ((second - raw) * (if e.range = 1 then 4 else 1)) 1000 else raw - leadOf e

/-- The user trim of an input (R293). -/
def trimIn (c : Chan) (x : Int) : Int := roundDiv ((1000000 + c.trimG) * x) 1000000 + c.trimO

/-- The limits to which a mode measures (R277). -/
def measuredTo (e : ChanCfg) : Int × Int :=
  if e.mode = 0x10 then (-1000000, 30000000)
  else if e.mode = 0x11 ∨ e.mode = 0x12 then (if e.range = 1 then (-2000000, 12000000) else (-12000000, 12000000))
  else if e.mode = 0x1C then (-80000000, 80000000)
  else (0, 5000000)

/-- The modes whose odd record carries a second value (R197). -/
def hasAux (e : ChanCfg) : Bool := e.mode == 0x19 || e.mode == 0x1A || e.mode == 0x1C

/-- The cold junction of a thermocouple in 0.01 °C, when its source is valid (R279). -/
def State.coldJunction (s : State) (n : ChanId) (e : ChanCfg) : Option Int :=
  let src := u8p e 24 % 4
  let g := s.groups[grpOf n]
  if src = 0 then (if g.cjok then some g.cjt.toInt else none)
  else if src = 1 then
    let q := s.chans[chanOf (grpOf n) ⟨fld (u8p e 25) 0 4, by unfold fld; omega⟩]
    match q.cfg with
    | some f => if isRtd f && !q.stale && !q.copen && !q.short then some (roundDiv q.value.toInt 10) else none
    | none => none
  else some (sgn 16 (u16 e.param 6))

/-- The window of the line-frequency filter in cycles (R276). -/
def lineWindow (e : ChanCfg) : Option Nat :=
  let l := u8p e 22 % 4
  if e.isAin ∧ l = 1 then some 8000000 else if e.isAin ∧ l = 2 then some 6666800 else none

/-- What a record gets from a sample: the quantity, its stamp, and whether the filter's window is whole (R276, R296). -/
def Chan.filtered (c : Chan) (e : ChanCfg) (x : Int) (stamp : Nat) (bySpare : Bool) : Chan × Int × Nat × Bool :=
  match lineWindow e with
  | none => (c, x, stamp, true)
  | some w =>
    let h := (c.hist ++ [(stamp, x, bySpare)]).filter (fun p => decide (stamp < p.1 + w))
    let sum := (h.map (fun p => p.2.1)).foldl (· + ·) 0
    ({ c with hist := h }, roundDiv sum h.length, stamp - w / 2, !bySpare || h.all (fun p => p.2.2))

/-- The values of a record from the quantity x: the first value and the second (R197, R279). A thermocouple without a valid cold
junction has none. -/
def State.recordValues (s : State) (n : ChanId) (e : ChanCfg) (x : Int) : Option (Int × Int) :=
  if isRtd e then some (Config.rtdTemp (e.range == 1) x, x)
  else if e.mode = 0x1C then (s.coldJunction n e).map (fun cj => (Config.tcTemp e.range x cj, x))
  else some (x, 0)

/-- A released sample, its stamp in model cycles, reaches staging (R275 to R279, R282). -/
def State.takeSample (s : State) (z : Sample) (stamp : Nat) (bySpare : Bool) : State :=
  let n := z.ch
  let c := s.chans[n]
  match c.cfg with
  | none => s
  | some e =>
    if e.isAin then
      let l := measuredTo e
      let x := clampI l.1 l.2 (trimIn c (preTrim e z.raw z.second))
      let r := c.filtered e x stamp bySpare
      match s.recordValues n e r.2.1, r.2.2.2 with
      | some (v, a), true =>
        s.updChan n (fun _ => { r.1 with
          value := BitVec.ofInt 32 v
          aux := BitVec.ofInt 32 a
          stamp := r.2.2.1
          stale := false
          spare := bySpare })
      | _, _ => s.updChan n (fun _ => { r.1 with stale := true })
    else if e.isAout then
      s.updChan n (fun c => { c with
        value := BitVec.ofInt 32 z.raw
        stamp := stamp
        stale := false
        spare := bySpare })
    else s

/-! ### Failure of an engine and the spare (R295 to R299) -/

/-- The analogue records of a group hold their last good values (R209, R296). -/
def State.staleGroup (s : State) (g : GrpId) : State :=
  (chansOf g).foldl (fun s n => s.updChan n (fun c => { c with stale := c.stale || (c.cfg.map ChanCfg.isAnalogue).getD false })) s

/-- The record of a failed engine, vector 6 with it (R296, R297, R301). -/
def State.engineRecord (s : State) (g : GrpId) (sev : BitVec 2) : State :=
  s.channelEvent 0x42 g.val sev [grpReg g 0x80, grpReg g 0x84]

/-- The failure record of a group whose spare goes to a lower group in the same reference slot is critical (R297). -/
def Guest.raiseEngine (b : Guest) (g cycle : Nat) : Guest :=
  let up (r : GbRec) : GbRec := if r.typ = 0x42 ∧ r.source = g ∧ r.cycle = cycle then { r with sev := sevCritical } else r
  { b with queue := b.queue.map up, last := b.last.map up }

/-- Who gets the spare when engine g is declared failed in the reference slot of cycle d (R296, R297): the severity of g's record. -/
def State.assignSpare (s : State) (g : GrpId) (d : Nat) : State × BitVec 2 :=
  let p := s.spare
  let take : Spare := { p with
    assigned := some g
    connected := false
    started := false
    since := d
    fsBad := false }
  if p.failed ∨ !p.engok then (s, sevCritical)
  else match p.assigned with
    | none => ({ s with spare := take }, sevFault)
    | some h =>
      if p.since = d ∧ p.connected = false ∧ g.val < h.val then
        ({ s with spare := take, gb := s.gb.raiseEngine h.val (s.cycle % 2 ^ 48) }, sevFault)
      else (s, sevCritical)

/-- Engine g is declared failed in the reference slot that begins at cycle d (R295, R296). -/
def State.engineFailed (s : State) (g : GrpId) (d : Nat) : State :=
  let s := s.updGrp g (fun p => { p with
    engfail := true
    failevt := true
    held := [] })
  let s := s.mark (grpReg g 0x80) 16
  let s := s.staleGroup g
  let r := s.assignSpare g d
  r.1.engineRecord g r.2

/-- The spare fails while it serves group g (R297). -/
def State.spareFailed (s : State) (g : GrpId) : State :=
  let s := { s with spare := { s.spare with failed := true, engok := false } }
  let s := s.updGrp g (fun p => { p with
    spare := false
    engfail := true
    failevt := true
    held := [] })
  let s := s.mark (grpReg g 0x80) 16
  (s.staleGroup g).engineRecord g sevCritical

/-- The first check that a frame fails, as FAILKIND (R295, R300); 0 none. -/
def failKind (f : EngineFrame) (item : Nat) : Nat :=
  if !f.resultOk then 5
  else if !f.zeroOk then 1
  else if item = 6 ∧ f.selfTestOk = false then 4
  else if (item = 0 ∨ item = 7) ∧ 5000 < f.gainPpm.natAbs then 2
  else if item = 1 ∧ 5000 < f.gainPpm.natAbs then 3
  else 0

/-- The item is a full-scale reference (R272). -/
def fullScale (item : Nat) : Bool := item == 0 || item == 1 || item == 7

/-- The frame declares its engine failed (R295): a full-scale item only at its second reading in succession. -/
def declaresFailed (kind : Nat) (fsBad : Bool) : Bool := kind == 1 || kind == 4 || kind == 5 || (decide (2 ≤ kind) && decide (kind ≤ 3) && fsBad)

/-- The reference results in the registers of a group's own engine (R300). -/
def Group.reference (p : Group) (f : EngineFrame) (item kind now : Nat) : Group :=
  let ok := kind == 0
  { p with
    zeroErr := BitVec.ofInt 16 f.zeroPpm
    gainErr := if fullScale item then BitVec.ofInt 16 f.gainPpm else p.gainErr
    failkind := if ok then p.failkind else BitVec.ofNat 3 kind
    fsBad := if fullScale item then kind == 2 || kind == 3 else p.fsBad
    engSince := if ok && !p.engok then now else p.engSince
    engok := ok }

/-- The cold-junction item (R272, R300, R301). -/
def State.coldItem (s : State) (g : GrpId) (temp : Option Int) : State :=
  let had := s.groups[g].cjok
  match temp with
  | some v => s.updGrp g (fun p => { p with cjt := BitVec.ofInt 16 v, cjok := true })
  | none =>
    let s := s.updGrp g (fun p => { p with cjok := false })
    if had then s.channelEvent 0x45 g.val sevFault [grpReg g 0x88] else s

/-- STATUS.FAULT of an analogue channel rises or falls with a change of its flags; the latched bits follow a rise (R198, R300). -/
def State.setFlags (s : State) (n : ChanId) (f : Chan → Chan) : State :=
  let old := s.chans[n]
  let s := s.updChan n f
  let new := s.chans[n]
  let s := if new.aFault && !old.aFault then s.latchAFault n else s
  if new.outOfRange && !old.outOfRange then s.latchARange n else s

/-- A thermocouple with its burnout test on (R269, R279). -/
def burnTested (e : ChanCfg) : Bool := e.mode == 0x1C && bit (u8p e 21) 4

/-- The channel of a group whose burnout test comes next in turn (R272). -/
def State.burnTurn (s : State) (g : GrpId) : Option (Fin 16) :=
  ((List.range 16).filterMap (fun k => toFin? 16 ((s.groups[g].burnNext + k) % 16))).find? (fun i =>
    match s.chans[chanOf g i].cfg with
    | none => false
    | some e => burnTested e)

/-- The burnout test of the thermocouple in turn (R272, R279): OPEN after three tests in succession read open. A relief makes none (R290). -/
def State.burnoutItem (s : State) (g : GrpId) (isOpen : Bool) : State :=
  match s.burnTurn g, s.groups[g].relief with
  | some i, false =>
    (s.updGrp g (fun p => { p with burnNext := i.val + 1 })).setFlags (chanOf g i) (fun c => { c with
      burn := if isOpen then min 3 (c.burn + 1) else 0
      copen := isOpen && (c.copen || decide (2 ≤ c.burn)) })
  | _, _ => s

/-- The L+ voltage item (R272): the value measured is free (log entry 46). -/
def State.supplyItem (s : State) (g : GrpId) : State :=
  let (w, s) := s.free
  s.updGrp g (fun p => { p with lpv := w.setWidth 12 })

/-- The channel slot in which a sample of the frame that starts at TB `start` ends. -/
def endSlot (start slot : Nat) : Nat := 31 * (start / frameCycles) + (slot - 1)

/-- The samples that an engine of group g delivers in the frame that starts at TB `start`: those its slot schedule has there (R274), of its own
analogue channels, without those a relief does not excite (R290). -/
def State.deliverable (s : State) (g : GrpId) (start : Nat) (x : Sample) : Bool :=
  grpOf x.ch == g && s.groups[g].cfg && s.groups[g].sched.contains (endSlot start x.slot % slotsPerSecond, (idxOf x.ch).val) &&
    (match s.chans[x.ch].cfg with
    | none => false
    | some e => e.isAnalogue && !(s.groups[g].relief && excited e))

/-- SETTLE of a channel with excitation (R269). -/
def settleOf (e : ChanCfg) : Nat := if excited e then u8p e 23 % 16 else 0

/-- The TB of a sample that ends in a slot: the middle of its converting slots, the last SPS - SETTLE channel slots (R273). -/
def sampleTb (e : ChanCfg) (start slot : Nat) : Nat :=
  let k := endSlot start slot
  (slotStart (k + 1 - (e.sps - settleOf e)) + slotStart k + slotCycles) / 2

/-- The stamp of a sample, in model cycles. -/
def State.sampleStamp (s : State) (start : Nat) (x : Sample) : Nat :=
  match s.chans[x.ch].cfg with
  | none => s.cycleOfTb start
  | some e => s.cycleOfTb (sampleTb e start x.slot)

/-- The TB at which the next frame of an engine starts whose reference slot has not ended at TB x (R271). -/
def nextFrame (x earliest : Nat) : Nat := max (ceilDiv (x - slotCycles) frameCycles * frameCycles) earliest

/-- The spare's samples reach staging (R296 step 5): it measures for the group from now on. -/
def State.spareDelivers (s : State) (g : GrpId) : State := s.updGrp g (fun p => { p with spare := true })

/-- Unreleased samples pass to staging, and the frame's own samples wait for the next zero check (R275), each as one of the engine that took
it (R298). -/
def State.passSamples (s : State) (g : GrpId) (f : EngineFrame) (start : Nat) : State :=
  let old := s.groups[g].held
  let s := s.updGrp g (fun p => { p with held := [] })
  let s := if f.bySpare && !old.isEmpty then s.spareDelivers g else s
  let s := old.foldl (fun s x => s.takeSample x.1 x.2.1 x.2.2) s
  let new := (f.samples.filter (s.deliverable g start)).map (fun x => (x, s.sampleStamp start x, f.bySpare))
  s.updGrp g (fun p => { p with held := new })

/-- The spare's own reference items while it serves no group (R272, R298, R300): a failing one declares it failed as R295 gives. -/
def State.idleSpareFrame (s : State) (f : EngineFrame) : State :=
  let start := nextFrame s.tb s.spare.frameAt
  let item := start / frameCycles % 8
  let kind := failKind f item
  { s with
    now := s.cycleOfTb start + slotCycles
    spare := { s.spare with
      engok := kind == 0
      failed := s.spare.failed || declaresFailed kind s.spare.fsBad
      fsBad := if fullScale item then kind == 2 || kind == 3 else s.spare.fsBad
      frameAt := start + frameCycles } }

/-- What an engine that measures for a group does in its reference slot: the item in turn (R272), then the release of samples (R275). Items 0, 1,
3, 6 and 7 have no effect but their check. -/
def State.frameItem (s : State) (g : GrpId) (f : EngineFrame) (start : Nat) : State :=
  let item := start / frameCycles % 8
  let s := if item = 2 then s.coldItem g f.cjTemp else s
  let s := if item = 4 then s.supplyItem g else s
  let s := if item = 5 then s.burnoutItem g f.burnoutOpen else s
  s.passSamples g f start

/-- R271 to R276, R295. The next frame of an engine of group g, taken at the end of its reference slot: its checks, its item, the
release of the previous frame's samples, and its own samples. -/
def execEngineFrame (t : Nat) (g : GrpId) (f : EngineFrame) (s : State) : Host.Outcome State Fault Refusal :=
  let s := s.at t
  let serves := s.spare.assigned == some g && s.spare.connected && !s.spare.failed
  if f.bySpare = true ∧ s.spare.assigned = none then .next (s.idleSpareFrame f)
  else if s.groups[g].lplus = false ∨ (f.bySpare = true ∧ serves = false) then .next s
  else
    let start := nextFrame s.tb (if f.bySpare then s.spare.frameAt else s.groups[g].frameAt)
    let item := start / frameCycles % 8
    let kind := failKind f item
    let s := { s with now := s.cycleOfTb start + slotCycles }
    let fsBad := if f.bySpare then s.spare.fsBad else s.groups[g].fsBad
    let s := if f.bySpare then
        { s with spare := { s.spare with
            engok := kind == 0
            fsBad := if fullScale item then kind == 2 || kind == 3 else s.spare.fsBad
            frameAt := start + frameCycles } }
      else s.updGrp g (fun p => { p.reference f item kind s.now with frameAt := start + frameCycles })
    let measures := if f.bySpare then s.spare.started else !s.groups[g].engfail
    if declaresFailed kind fsBad then
      .next (if f.bySpare then s.spareFailed g else if s.groups[g].engfail then s else s.engineFailed g (s.now - slotCycles))
    else if measures then .next (s.frameItem g f start)
    else .next s

/-- R296 step 2. The spare is connected to the failed group. -/
def execSpareConnect (t : Nat) (s : State) : Host.Outcome State Fault Refusal :=
  match s.spare.assigned, s.spare.connected with
  | some _, false =>
    let s := s.at (max t (s.spare.since + 200000))
    .next { s with spare := { s.spare with connected := true } }
  | _, _ => .next (s.at t)

/-- R296 step 4. The spare takes over the group's admitted schedule at a frame start, 17 ms after the failure. -/
def execSpareScheduleStart (t : Nat) (s : State) : Host.Outcome State Fault Refusal :=
  match s.spare.assigned, s.spare.connected && !s.spare.started && !s.spare.failed with
  | some g, true =>
    let s := s.at (max t (s.spare.since + 17 * frameCycles))
    let first := !s.spare.takeevt
    let s := { s with spare := { s.spare with
      started := true
      takeevt := true
      takeovers := satInc s.spare.takeovers } }
    let s := s.mark 0x3C00 128
    .next (if first then s.channelEvent 0x44 g.val sevNotice [0x3C00] else s)
  | _, _ => .next (s.at t)

/-! ### Flags (R277, R283) -/

/-- VALUE lies below, or above, the limits of UNDER and OVER (R277, R279), where a mode has them. -/
def Chan.beyond (c : Chan) (e : ChanCfg) (low : Bool) : Option Bool :=
  let v := c.value.toInt
  let judge (lo hi : Int) : Option Bool := some (if low then decide (v < lo) else decide (hi < v))
  if e.mode = 0x10 then judge (if e.range = 1 then 3800000 else -50000) 20500000
  else if e.mode = 0x11 ∨ e.mode = 0x12 then judge (if e.range = 1 then -200000 else -10500000) 10500000
  else if isRtd e then judge (-200000) 850000
  else if e.mode = 0x1C then
    if e.range = 0 then judge (-200000) 1200000 else if e.range = 1 then judge (-200000) 1372000
    else if e.range = 2 then judge (-200000) 1300000 else if e.range = 3 then judge (-200000) 400000
    else if e.range = 4 then judge (-200000) 1000000 else if e.range = 7 then judge 250000 1820000 else judge 0 1768000
  else if e.mode = 0x1E then (if low then none else some (decide (4000000 < c.value.toNat)))
  else none

/-- Whether the newest values agree with a wiring flag of an input mode being set or clear (R277); `none` where the mode has no such flag. OPEN
of a thermocouple comes from its burnout test alone, OPEN of an RTD from its leads (R280). A quantity beyond the measured limit is delivered as
the limit (R209): there a current of 30 mA and a resistance of 5 kΩ are consistent with either. -/
def Chan.wiring (c : Chan) (e : ChanCfg) (f : AFlag) (set : Bool) : Bool :=
  match f with
  | .aopen =>
    if e.mode = 0x10 ∧ e.range = 1 then set == decide (c.value.toInt < 500000)
    else if e.mode = 0x1E then !set || decide (5000000 ≤ c.value.toNat)
    else isRtd e
  | .short =>
    if e.mode = 0x10 then !set || decide (30000000 ≤ c.value.toInt)
    else if isRtd e then set == decide (c.aux.toNat < (if e.range = 1 then 100000 else 10000))
    else false
  | _ => false

/-- A flag of a record set or cleared. -/
def Chan.put (c : Chan) (f : AFlag) (x : Bool) : Chan :=
  match f with
  | .under => { c with underR := x }
  | .over => { c with overR := x }
  | .aopen => { c with copen := x }
  | .short => { c with short := x }
  | .lowv => { c with lowv := x }
  | .disc => { c with cdisc := x }
  | .limit => { c with lim := x }

/-- R277, R280. A range or wiring flag of an input sets or clears, in agreement with the newest VALUE. -/
def execAnalogueInputFlag (t : Nat) (ch : ChanId) (flag : AFlag) (set : Bool) (s : State) : Host.Outcome State Fault Refusal :=
  let s := s.at t
  let c := s.chans[ch]
  match c.cfg with
  | none => .next s
  | some e =>
    let g := s.groups[grpOf ch]
    let applies := match flag with
      | .under => c.beyond e true == some set
      | .over => c.beyond e false == some set
      | f => c.wiring e f set
    if e.isAin = true ∧ g.up = true ∧ applies = true ∧ (g.relief && excited e) = false then .next (s.setFlags ch (fun c => c.put flag set))
    else .next s

/-- The value that an analogue output applies: what its stage drives, 0 when it drives none. -/
def Chan.driving (c : Chan) : Int := match c.aout with | .value v => v | _ => 0

/-- The measured value of an output lies further from the applied one than 0.2 mA or 0.1 V (R283). -/
def Chan.offValue (c : Chan) (e : ChanCfg) : Bool :=
  decide ((if e.mode = 0x21 then 100000 else 200000) < (c.value.toInt - c.driving).natAbs)

/-- Whether the measured value agrees with a fault flag of an output mode being set or clear (R283); the load resistance and the terminal voltage
have no register, so what depends on them comes with the command. -/
def Chan.outFault (c : Chan) (e : ChanCfg) (f : AFlag) (set : Bool) : Bool :=
  let low := decide (c.value.toInt < 500000)
  match f with
  | .aopen =>
    if e.mode = 0x20 then set == (low && decide (1000000 ≤ c.driving)) else e.mode == 0x22 && (!set || low)
  | .short => e.mode == 0x20 || (e.mode == 0x21 && (!set || c.lim))
  | .limit => e.mode == 0x21
  | .lowv => e.mode == 0x22 && (!set || decide (c.value.toInt + 50000 < c.driving))
  | .disc => set == c.offValue e
  | _ => false

/-- The earliest instant of a fault flag: DISC counts its 20 ms from 5 ms after each change of the applied value (R283). -/
def Chan.faultFrom (c : Chan) (f : AFlag) : Nat :=
  match f with
  | .disc => c.changedAt + 25 * msCycles
  | _ => 0

/-- R283. A fault flag of an output sets or clears after its time. -/
def execAnalogueOutputFault (t : Nat) (ch : ChanId) (flag : AFlag) (set : Bool) (s : State) : Host.Outcome State Fault Refusal :=
  let c := s.chans[ch]
  match c.cfg with
  | none => .next (s.at t)
  | some e =>
    if e.isAout = true ∧ s.groups[grpOf ch].up = true ∧ c.outFault e flag set = true then
      .next ((s.at (max t (if set then c.faultFrom flag else 0))).setFlags ch (fun c => c.put flag set))
    else .next (s.at t)

/-! ### Calibration (R292 to R294) -/

/-- CHANNEL of a calibration command, when it is a channel. -/
def calChan (e : CmdEntry) : Option ChanId := toFin? 192 (e.b 4)

/-- The entry of the channel that a calibration command names, in the group that holds it, when it has an analogue mode. -/
def State.calCfg (s : State) (e : CmdEntry) : Option (ChanId × ChanCfg) :=
  match calChan e with
  | none => none
  | some n => match s.chans[n].cfg with
    | none => none
    | some k => if k.isAnalogue then some (n, k) else none

/-- Spare slots per second of a group (R176, R300). -/
def State.spareSlots (s : State) (g : GrpId) : Nat := match s.an with | none => 31000 | some a => 31000 - a.slots.getD g.val 0

/-- The span of a range (R294). -/
def spanOf (e : ChanCfg) : Nat :=
  if e.mode = 0x10 then (if e.range = 1 then 16000000 else 20000000)
  else if e.mode = 0x11 ∨ e.mode = 0x12 ∨ e.mode = 0x21 then (if e.range = 1 then 10000000 else 20000000)
  else if e.mode = 0x1E then 4000000
  else if e.mode = 0x20 then 24000000
  else if e.mode = 0x22 then 20600000
  else Config.trimSpan e.mode e.range

/-- A measurement cannot be taken (R294, 0x0230): L+, an engine and a sound record are needed. -/
def State.cannotMeasure (s : State) (e : CmdEntry) (ok : Bool) : Bool :=
  match s.calCfg e with
  | none => false
  | some (n, _) =>
    let g := s.groups[grpOf n]
    !g.lplus || (g.engfail && !g.spare) || s.chans[n].stale || s.chans[n].aFault || !ok

/-- Another channel of the group holds points (R294, 0x0232). -/
def State.otherPoints (s : State) (e : CmdEntry) : Bool :=
  match s.calCfg e with
  | none => false
  | some (n, _) =>
    let g := s.groups[grpOf n]
    (g.calLow.isSome || g.calHigh.isSome) && g.calCh.toNat != (idxOf n).val

/-- The points that a channel holds. -/
def State.pointsOf (s : State) (n : ChanId) : Option CalPoint × Option CalPoint :=
  let g := s.groups[grpOf n]
  if g.calCh.toNat = (idxOf n).val then (g.calLow, g.calHigh) else (none, none)

/-- The checks of a measuring step (R294, R348). -/
def calTakeChecks (e : CmdEntry) (step : Nat) (ok : Bool) (s : State) : List Check :=
  [(!e.formOk 0 [(4, 1), (5, 1), (8, 4)], 0x0101), ((calChan e).isNone, 0x0103), (s.cannotMeasure e ok, 0x0230),
    ((match s.calCfg e with | none => false | some (n, k) => decide (s.spareSlots (grpOf n) < 32 * k.sps)), 0x0231),
    (s.otherPoints e, 0x0232), ((s.calCfg e).isNone || e.b 5 != step, 0x0130)]

/-- The effect of step 1 or 2 (R293), `mean` the mean of the samples, of a resistance before its leads: the point is held, and its measured or commanded value answered. -/
def State.takePoint (s : State) (ref : CmdRef) (e : CmdEntry) (high : Bool) (mean : Int) : State :=
  match s.calCfg e with
  | none => s
  | some (n, k) =>
    let m := if k.isAout then (aoutClamp k (s.chans[n].lastCom.getD 0)).1 else mean - leadOf k
    let p : CalPoint := { ref := sgn 32 (e.w 8), meas := m }
    let s := s.updGrp (grpOf n) (fun g => { g with
      calCh := BitVec.ofNat 4 (idxOf n).val
      calLow := if high then g.calLow else some p
      calHigh := if high then some p else g.calHigh })
    s.complete ref 0 (toLe 4 (unsgn 32 m) ++ toLe 4 64)

/-- R293. Step 1 takes the low point. -/
def execCalibrationLowPoint (t : Nat) (c : RingId) (e : CmdEntry) (mean : Int) (ok : Bool) (s : State) : Host.Outcome State Fault Refusal :=
  .next (s.command t c 0x40 e (calTakeChecks e 1 ok) (fun ref s => s.takePoint ref e false mean))

/-- R293. Step 2 takes the high point. -/
def execCalibrationHighPoint (t : Nat) (c : RingId) (e : CmdEntry) (mean : Int) (ok : Bool) (s : State) : Host.Outcome State Fault Refusal :=
  .next (s.command t c 0x40 e (calTakeChecks e 2 ok) (fun ref s => s.takePoint ref e true mean))

/-- G in ppm and O of the points held (R293); `none` when the two measured values agree, so that no finite G exists. -/
def calTrim (low high : Option CalPoint) : Option (Int × Int) :=
  match low, high with
  | some a, some b =>
    let d := b.meas - a.meas
    if d = 0 then none
    else
      let r := b.ref - a.ref
      let g := roundDiv ((if 0 < d then r - d else d - r) * 1000000) d.natAbs
      let sgnD : Int := if 0 < d then 1 else -1
      some (g, roundDiv (sgnD * (a.ref * d - r * a.meas)) d.natAbs)
  | some a, none => some (0, a.ref - a.meas)
  | none, some b => some (0, b.ref - b.meas)
  | none, none => none

/-- The two points lie less than 10 % of the span apart (R294). -/
def tooClose (span : Nat) (low high : Option CalPoint) : Bool :=
  match low, high with
  | some a, some b => decide ((b.ref - a.ref).natAbs * 10 < span)
  | _, _ => false

/-- The trim exceeds its limits (R294). -/
def trimTooLarge (span : Nat) : Option (Int × Int) → Bool
  | none => true
  | some (g, o) => decide (20000 < g.natAbs) || decide (span < o.natAbs * 100)

/-- The trims record with one channel's G and O replaced (R443). -/
def State.trimRecord (s : State) (n : ChanId) (g o : Int) : List Byte :=
  let d := slice (recData s.nv.settled 5) 0 1536
  d.take (8 * n.val) ++ toLe 4 (unsgn 32 g) ++ toLe 4 (unsgn 32 o) ++ d.drop (8 * n.val + 8)

/-- A trim is written to the NV store; it applies and the command completes when the write has ended (R293, R294). -/
def State.storeTrim (s : State) (ref : CmdRef) (n : ChanId) (g o : Int) (points : Bool) : State :=
  s.recWrite 4 5 (s.trimRecord n g o) (fun _ => .calib ref n (toLe 4 (unsgn 32 g) ++ toLe 4 (unsgn 32 o)) points)

/-- R293. Step 3 computes the trim from the points held and stores it. -/
def execCalibrationStore (t : Nat) (c : RingId) (e : CmdEntry) (s : State) : Host.Outcome State Fault Refusal :=
  let checks (s : State) : List Check :=
    let none' : List Check := [((s.calCfg e).isNone || e.b 5 != 3, 0x0130)]
    let own := match s.calCfg e with
      | none => none'
      | some (n, k) =>
        let p := s.pointsOf n
        [((p.1.isNone && p.2.isNone), 0x0233)] ++ none' ++
          [(tooClose (spanOf k) p.1 p.2, 0x0131), (trimTooLarge (spanOf k) (calTrim p.1 p.2), 0x0132)]
    [(!e.formOk 0 [(4, 1), (5, 1)], 0x0101), ((calChan e).isNone, 0x0103), (s.otherPoints e, 0x0232)] ++ own ++ [(!s.nv.ready, 0x0606)]
  .next (s.command t c 0x40 e checks (fun ref s =>
    match s.calCfg e with
    | none => s
    | some (n, _) =>
      let p := s.pointsOf n
      match calTrim p.1 p.2 with
      | none => s
      | some (g, o) => s.storeTrim ref n g o true))

/-- A group's points held are discarded (R293). -/
def Group.noPoints (g : Group) : Group := { g with calCh := 0, calLow := none, calHigh := none }

/-- R293, R294. Step 4 discards the points held; an entry with no step of R292 is refused in the same row. -/
def execCalibrationDiscard (t : Nat) (c : RingId) (e : CmdEntry) (s : State) : Host.Outcome State Fault Refusal :=
  .next (s.command t c 0x40 e (fun s => [(!e.formOk 0 [(4, 1), (5, 1)], 0x0101), ((calChan e).isNone, 0x0103), (s.otherPoints e, 0x0232),
    ((s.calCfg e).isNone || e.b 5 != 4, 0x0130)]) (fun ref s =>
      match s.calCfg e with
      | none => s
      | some (n, _) => (s.updGrp (grpOf n) Group.noPoints).complete ref 0 []))

/-- R293. Step 5 returns to the factory calibration: the trim becomes zero in the same way. -/
def execFactoryCalibration (t : Nat) (c : RingId) (e : CmdEntry) (s : State) : Host.Outcome State Fault Refusal :=
  .next (s.command t c 0x40 e (fun s => [(!e.formOk 0 [(4, 1), (5, 1)], 0x0101), ((calChan e).isNone, 0x0103), (s.otherPoints e, 0x0232),
    ((s.calCfg e).isNone || e.b 5 != 5, 0x0130), (!s.nv.ready, 0x0606)]) (fun ref s =>
      match s.calCfg e with
      | none => s
      | some (n, _) => s.storeTrim ref n 0 0 false))

/-- The user trims that the NV store holds (R443), in every channel. -/
def State.loadTrims (s : State) : State :=
  let d := recData s.nv.mem 5
  { s with chans := s.chans.mapFinIdx (fun n c _ => { c with
      trimG := sgn 32 (u32 d (8 * n))
      trimO := sgn 32 (u32 d (8 * n + 4)) }) }

/-- The store of a trim has ended (R293, R301): the trims apply, the points of a store step are gone, the record is written. -/
def State.trimStored (s : State) (ref : CmdRef) (n : ChanId) (result : List Byte) (points : Bool) : State :=
  let s := if points then s.loadTrims.updGrp (grpOf n) Group.noPoints else s.loadTrims
  let s := s.gbEvent 0x46 n.val sevInfo [BitVec.ofNat 32 (u32 result 0), BitVec.ofNat 32 (u32 result 4)]
  s.complete ref 0 result

/-! ### Return of the spare (R298) -/

/-- The cycle number of the first release of a task at or after n; n itself while no task runs. -/
def State.firstRelease (s : State) (n : Nat) : Nat :=
  let ks := (List.range s.taskCount).map (fun i => let k := max 1 (s.period i); max s.app.startTick (s.app.startTick + ceilDiv (n - s.app.startTick) k * k))
  match ks with
  | [] => n
  | k :: r => r.foldl min k

/-- R298. The group's own engine takes the schedule back at the next frame start. -/
def execSpareEngineReturn (t : Nat) (c : RingId) (e : CmdEntry) (s : State) : Host.Outcome State Fault Refusal :=
  let checks (s : State) : List Check :=
    let own := match toFin? 12 (e.b 4) with
      | none => []
      | some g =>
        let p := s.groups[g]
        [(s.spare.assigned != some g, (0x0234 : BitVec 16)), (!p.engok || decide (s.now < p.engSince + 10 * secCycles), 0x0235)]
    [(!e.formOk 0 [(4, 1)], 0x0101), ((toFin? 12 (e.b 4)).isNone, 0x0103)] ++ own
  .next (s.command t c 0x41 e checks (fun ref s =>
    match toFin? 12 (e.b 4) with
    | none => s
    | some g =>
      let f := ceilDiv s.tb frameCycles * frameCycles
      let s := { s with now := s.cycleOfTb f }
      let first := !s.groups[g].retevt
      let s := s.updGrp g (fun p => { p with
        spare := false
        engfail := false
        retevt := true })
      let s := s.mark (grpReg g 0x80) 32
      let s := { s with spare := { s.spare with
        assigned := none
        connected := false
        started := false } }
      let s := if first then s.channelEvent 0x43 g.val sevNotice [grpReg g 0x80] else s
      s.complete ref 0 (toLe 6 (s.firstRelease (ceilDiv (f + frameCycles + slotCycles) tickCycles)))))

end Sys2Proof.Machine
end

