-- ==== Sys2Proof/Machine/Journal.lean ====
section
/-! DEFINITION. The retain journal: points captured at REST, journal pages, folding and replay (R447 to R452). -/

namespace Sys2Proof.Machine

/-- Variables of a task in VAR order (R162). -/
def Way.varsOf (w : Way) (i : Nat) : List Var := w.vars.filter (fun v => v.task == i)

/-- LAYOUT of a task (R449). -/
def Way.layout (w : Way) (i : Nat) : Word :=
  crc32 (toLe 4 ((w.tasks[i]?.map Task.retLen).getD 0) ++
    ((w.varsOf i).filter Var.retained).flatMap (fun v => toLe 4 v.id ++ toLe 1 v.typ ++ toLe 4 v.offset ++ toLe 4 v.size))

/-- A changed task whose layout changed too (R219). -/
def Conf.newLayout (old new : Conf) (i : Nat) : Bool :=
  match old.task i, new.task i with
  | some a, some b => b.changed && (a.privLen != b.privLen || a.retLen != b.retLen || old.way.varsOf i != new.way.varsOf i)
  | _, _ => false

/-- The room runs a new-layout task on trial (R227, R448). -/
def State.onNewLayoutTrial (s : State) (i : Nat) : Bool :=
  s.trial && (match s.edits.old, s.app.cur with
    | some o, some n => o.newLayout n i
    | _, _ => false)

/-- Journal pages that a number of blocks takes (R449). -/
def pagesOf (blocks : Nat) : Nat := ceilDiv blocks 3

/-- Pages queued, and those of points awaiting their commit (R448). -/
def Nv.journalLoad (n : Nv) : Nat :=
  (n.queue.filter (fun j => j.cls == 2)).length + (n.points.map (fun p => pagesOf p.blocks.length)).foldl (· + ·) 0

/-- A capture that is skipped (R448). -/
def State.skipCapture (s : State) (r : RoomId) : State :=
  let s := { s with nv := { s.nv with jskips := s.nv.jskips + 1 } }
  if 48 < s.rooms[r].dirty.length ∧ s.rooms[r].jdead = false then
    let s := { s.updRoom r (fun v => { v with jdead := true }) with nv := { s.nv with jover := true } }
    s.gbEvent 0x8A r.val sevFault [barWord s 0x1808]
  else s

/-- The capture at a REST that completes write-back in cycle w (R447, R448). -/
def State.capture (s : State) (r : RoomId) (i w : Nat) : State :=
  let v := s.rooms[r]
  let n := v.dirty.length
  if n = 0 then s
  else
    let next := s.cycleOfTb (v.relTb.toNat + tickCycles * s.period i)
    if v.jdead = true ∨ next < w + 16 * n ∨ 16 < s.nv.journalLoad + pagesOf n ∨ s.onNewLayoutTrial i = true then s.skipCapture r
    else
      let blocks := v.dirty.map (fun b => (b.1, s.dmem.read (v.retBase + 64 * b.1) 64))
      { s.updRoom r (fun v => { v with dirty := [] }) with
        nv := { s.nv with points := s.nv.points ++ [{ task := i, room := r.val, blocks := blocks }] } }

/-- A journal page (R449). -/
def journalPage (jseq point taskId : Nat) (layout : Word) (first last : Bool) (bs : List (Nat × List Byte)) : List Byte :=
  let head := toLe 4 jseq ++ toLe 4 point ++ toLe 2 taskId ++ toLe 1 bs.length ++ toLe 1 (b2n first + 2 * b2n last) ++ toLe 4 layout.toNat ++
    (bs ++ List.replicate (3 - bs.length) (0, [])).flatMap (fun (b : Nat × List Byte) => toLe 4 (64 * b.1)) ++ toLe 32 0
  let data := bs.flatMap (fun (b : Nat × List Byte) => slice b.2 0 64) ++ List.replicate (64 * (3 - bs.length)) 0
  head ++ toLe 4 (crc32 (head ++ data)).toNat ++ data

/-- The blocks of a point three by three. -/
def chunks3 {α : Type} : Nat → List α → List (List α)
  | 0, _ => []
  | n + 1, xs => if xs.isEmpty then [] else xs.take 3 :: chunks3 n (xs.drop 3)

/-- The ring address of a journal page (R450). -/
def journalAddr (jseq : Nat) : Nat := 0x20000 + 256 * (jseq % 512)

/-- The pages of a point queued for the NV store at its task's commit (R447). -/
def State.queuePoint (s : State) (p : Point) : State :=
  match s.app.cur with
  | none => s
  | some c =>
    let cs := chunks3 17 p.blocks
    let tid := ((c.task p.task).map Task.taskId).getD 0
    let pages := cs.mapIdx (fun k bs =>
      (journalAddr (s.nv.jseq + k), journalPage (s.nv.jseq + k) s.nv.point tid (c.way.layout p.task) (k == 0) (k + 1 == cs.length) bs))
    let s := { s with nv := { s.nv with jseq := s.nv.jseq + cs.length, point := s.nv.point + 1 } }
    s.nvWrite 2 pages .nothing

/-- Queueing the points of the tasks that commit. -/
def State.queuePoints (s : State) (commits : Nat → Bool) : State :=
  let ps := s.nv.points.filter (fun p => commits p.task)
  let s := { s with nv := { s.nv with points := s.nv.points.filter (fun p => !commits p.task) } }
  ps.foldl State.queuePoint s

/-- Points whose commit never comes are dropped, and their blocks become dirty again (R447). -/
def State.dropPoints (s : State) : State :=
  let s' := s.nv.points.foldl (fun s p =>
    match toFin? 100 p.room with
    | none => s
    | some r => s.updRoom r (fun v => { v with dirty := p.blocks.foldl (fun d b => markDirty d b.1 s.now) v.dirty })) s
  { s' with nv := { s'.nv with points := [] } }

/-! ### Base image and replay -/

/-- Where task i's retained window lies in the base image: TASK order from 0x08000 (R450). -/
def Conf.baseAddr (c : Conf) (i : Nat) : Nat := 0x8000 + ((c.way.tasks.take i).map Task.retLen).foldl (· + ·) 0

/-- A page of the ring, valid when its CRC matches and it carries the JSEQ (R449, R451). -/
def pageAt (m : Mem) (j : Nat) : Option (List Byte) :=
  let p := m.read (journalAddr j) 256
  if u32 p 60 = (crc32 (slice p 0 60 ++ slice p 64 192)).toNat ∧ u32 p 0 = j % 2 ^ 32 then some p else none

/-- The complete points from page j on, in order, with the number of the page after each (R451). -/
def pointsFrom (m : Mem) : Nat → Nat → List (List Byte) → List (Nat × List (List Byte))
  | 0, _, _ => []
  | fuel + 1, j, acc =>
    match pageAt m j with
    | none => []
    | some p =>
      let acc := if bit (u8 p 11) 0 then [p] else acc ++ [p]
      let whole := match acc with
        | [] => false
        | q :: _ => bit (u8 q 11) 0 && bit (u8 p 11) 1
      if whole then (j + 1, acc) :: pointsFrom m fuel (j + 1) [] else pointsFrom m fuel (j + 1) acc

/-- The writes into the base image that a page gives under a configuration: nothing when TASKID or LAYOUT differ (R451). -/
def pageWrites (c : Conf) (p : List Byte) : List (Nat × List Byte) :=
  match c.way.tasks.findIdx? (fun t => t.taskId == u16 p 8) with
  | none => []
  | some i =>
    if (c.way.layout i).toNat = u32 p 12 then
      (List.range (u8 p 10 % 4)).map (fun k => (c.baseAddr i + u32 p (16 + 4 * k), slice p (64 + 64 * k) 64))
    else []

/-- The retained windows that a start restores: the base image with the complete points replayed (R451). -/
def Nv.restored (n : Nv) (c : Conf) : Mem :=
  let ps := pointsFrom n.mem 512 n.folded []
  ps.foldl (fun m p => p.2.foldl (fun m pg => (pageWrites c pg).foldl (fun m w => m.write w.1 w.2) m) m) n.mem

/-- R450. The complete points that stand in the ring are folded into the base image, then the fold record is updated. -/
def execJournalFold (t : Nat) (s : State) : Host.Outcome State Fault Refusal :=
  let s := s.at t
  match s.app.stored, s.steward with
  | some c, true =>
    let ps := (pointsFrom s.nv.mem 512 s.nv.folded []).filter (fun p => decide (p.1 ≤ s.nv.jseq))
    match ps.getLast? with
    | none => .next s
    | some (upto, _) =>
      let ws := ps.flatMap (fun p => p.2.flatMap (pageWrites c))
      let s := s.nvWrite 4 (ws.flatMap (fun w => pageCuts 3 w.1 w.2)) .nothing
      .next (s.recWrite 4 8 (toLe 4 (upto - 1)) (fun _ => .fold upto))
  | _, _ => .next s

end Sys2Proof.Machine
end

