-- ==== Sys2Proof/Machine/Porter.lean ====
section
/-! DEFINITION. The night porter: keys, windows, warning and expiry (R406 to R415, R153). -/

namespace Sys2Proof.Machine

def appKey : BitVec 16 := 0x3C5A
def stewardKeyValue : BitVec 16 := 0xA5C3

/-- The PC of the supervisor room of the running configuration (R414). -/
def State.supervisorPc (s : State) : BitVec 20 :=
  match s.app.cur with
  | none => 0
  | some c => match s.roomOf c.way.super with
    | none => 0
    | some r => s.rooms[r].pc

/-- The evidence latched at a warning or at expiry (R414); the steward core's PC is a free value (log entry 10). -/
def State.latchEvidence (s : State) (cause : Nat) (stage : Bool) : State :=
  let p := s.free
  let s := p.2
  { s with np := { s.np with
      evinfo := BitVec.ofNat 6 (cause + 8 * b2n stage + 16 + 32 * b2n s.np.mode)
      evapc := s.supervisorPc
      evspc := p.1
      evatb := s.np.lastApp
      evstb := s.np.lastStw } }

/-- The evidence words of a night-porter record (R469). -/
def State.npWords (s : State) : List Word :=
  [s.np.evinfo.setWidth 32, s.np.evapc.setWidth 32, s.np.evspc, s.np.evatb.setWidth 32, (s.np.evatb >>> 32).setWidth 32,
    s.np.evstb.setWidth 32, (s.np.evstb >>> 32).setWidth 32]

/-- Order in which causes of one cycle are recorded (R410): a faulty key (6, 4, 5) before missing keys, any before none. -/
def causeRank (c : Nat) : Nat := if c = 6 then 0 else if c = 4 then 1 else if c = 5 then 2 else if c = 0 then 4 else 3

/-- Expiry at this cycle (R412 to R414). -/
def State.npExpire (s : State) (cause : Nat) : State :=
  if s.np.expired then
    if s.np.expAt = s.tb ∧ causeRank cause < causeRank (s.np.evinfo.toNat % 8) then
      { s with np := { s.np with evinfo := BitVec.ofNat 6 (s.np.evinfo.toNat / 8 * 8 + cause) } }
    else s
  else
    let later := s.scan.faulted = true ∧ s.scan.faultAt ≠ s.now
    let s := s.latchEvidence cause true
    let s := { s with np := { s.np with expired := true, expAt := s.tb } }
    let s := s.silence
    if later then { s with scan := s.scan.more } else s

/-- The warning that a first service fault raises (R411). -/
def State.npWarn (s : State) (cause : Nat) : State :=
  let s := (s.latchEvidence cause false).mark 0x100C 8
  let s := { s with np := { s.np with
      stage := true
      warn := true
      wcause := BitVec.ofNat 3 cause
      warns := satInc s.np.warns
      second := s.tb + s.np.period.toNat
      faultAt := s.tb
      appAfter := false
      stwAfter := false } }
  let s := s.raiseNow 2
  if s.steward then s.gbEvent 0x70 cause sevFault s.npWords else s

/-- A further fault of the cycle of the warning belongs to it (R410, R411): the warning's cause, evidence and record follow the
faulty key's cause. -/
def State.npAmend (s : State) (cause : Nat) : State :=
  if causeRank cause < causeRank s.np.wcause.toNat then
    let s := { s with np := { s.np with
        wcause := BitVec.ofNat 3 cause
        evinfo := BitVec.ofNat 6 (s.np.evinfo.toNat / 8 * 8 + cause) } }
    match s.gb.last with
    | some r =>
      if r.typ = 0x70 then
        let r' := { r with source := cause, words := s.npWords }
        { s with gb := { s.gb with
            last := some r'
            queue := s.gb.queue.map (fun q => if q.seq = r.seq then r' else q) } }
      else s
    | none => s
  else s

/-- A service fault at this cycle (R410 to R412). -/
def State.npFault (s : State) (cause : Nat) : State :=
  if s.np.expired then s.npExpire cause
  else if s.np.stage then (if s.np.faultAt = s.tb then s.npAmend cause else s.npExpire cause)
  else s.npWarn cause

/-- Recovery (R412): both required keys accepted in windows that opened after the warning. -/
def State.npRecover (s : State) : State :=
  if s.np.stage ∧ s.np.stwAfter ∧ (s.np.appAfter ∨ !s.np.mode) then { s with np := { s.np with stage := false } } else s

/-- The window of the period in progress opened after the warning (R412). -/
def Porter.openedAfter (n : Porter) : Bool := decide (n.faultAt < n.start + n.open'.toNat)

/-- A key presented in this cycle by the supervisor room (`app`) or the steward (R409, R410). -/
def State.npKey (s : State) (app : Bool) (key : BitVec 16) : State :=
  let n := s.np
  let pos := s.tb - n.start
  let accepted := if app then n.appok else n.stwok
  if key ≠ (if app then appKey else stewardKeyValue) then s.npFault 6
  else if pos < n.open'.toNat ∨ n.close.toNat ≤ pos then s.npFault 4
  else if accepted then s.npFault 5
  else if n.expired then s
  else
    let fresh := n.stage && n.openedAfter
    let s := if app then
        { s with np := { n with appok := true, lastApp := BitVec.ofNat 64 s.tb, appAfter := n.appAfter || fresh } }
      else { s with np := { n with stwok := true, lastStw := BitVec.ofNat 64 s.tb, stwAfter := n.stwAfter || fresh } }
    s.npRecover

/-- A period begins at TB c: a new window, no key accepted in it. -/
def Porter.begin (n : Porter) (c : Nat) : Porter := { n with start := c, appok := false, stwok := false, closed := false }

/-- Boot mode from TB c (R407, R408). -/
def Porter.boot (n : Porter) (c : Nat) : Porter :=
  { n.begin c with mode := false, period := 0x02625A00, open' := 0, close := 0x02625A00 }

/-- Admitted mode from TB c with the figures of an analysis (R172, R407). -/
def Porter.admitted (n : Porter) (a : Analysis) (c : Nat) : Porter :=
  { n.begin c with
    mode := true
    period := BitVec.ofNat 29 a.npPeriod
    open' := BitVec.ofNat 29 a.npOpen
    close := BitVec.ofNat 29 a.npClose }

/-- The closing cycle of the window in progress, in model cycles. -/
def State.npCloseCycle (s : State) : Nat := s.cycleOfTb (s.np.start + s.np.close.toNat)

/-- The window closes now: the keys not accepted are judged together (R410), and in boot mode the next period begins (R407). -/
def State.npJudge (s : State) : State :=
  let needApp := s.np.mode && !s.np.appok
  let needStw := !s.np.stwok
  let s' := if needApp && needStw then s.npFault 3 else if needApp then s.npFault 1 else if needStw then s.npFault 2 else s
  if s'.np.mode then { s' with np := { s'.np with closed := true } }
  else { s' with np := s'.np.begin (s'.np.start + s'.np.close.toNat) }

/-- In boot mode no window is ever closed (R407): a period that is over by cycle t is judged before a key of that cycle, which belongs to the
period then in progress. -/
def State.npBootClose (s : State) (t : Nat) : State :=
  let ended (s : State) : Bool := decide (s.np.start + s.np.close.toNat ≤ (s.at t).tb)
  if s.np.mode = false ∧ s.np.expired = false ∧ ended s = true then
    let s := (s.at s.npCloseCycle).npJudge
    let tb := (s.at t).tb
    { s with np := { s.np with start := tb - (tb - s.np.start) % s.np.close.toNat } }
  else s

/-- R409. The steward's key reaches the internal port. -/
def execStewardKey (t : Nat) (key : BitVec 16) (s : State) : Host.Outcome State Fault Refusal :=
  .next (if s.steward then ((s.npBootClose t).at t).npKey false key else s.at t)

/-- R410. At the closing cycle the keys not accepted are judged together; in boot mode the next period begins (R407). -/
def execNpWindowClose (t : Nat) (s : State) : Host.Outcome State Fault Refusal :=
  if s.phase = .unpowered ∨ s.phase = .inReset ∨ s.np.closed = true ∨ s.np.expired = true then .next (s.at t)
  else
    .next (s.at (max t s.npCloseCycle)).npJudge

/-- R412. The second period ends without recovery, and the night porter expires. -/
def execNpSecondPeriodEnd (t : Nat) (s : State) : Host.Outcome State Fault Refusal :=
  if s.np.stage = true ∧ s.np.expired = false ∧ s.phase ≠ .unpowered ∧ s.phase ≠ .inReset then
    .next ((s.at (max t (s.cycleOfTb s.np.second))).npExpire 0)
  else .next (s.at t)

end Sys2Proof.Machine
end

