-- ==== Sys2Proof/Machine/Staging.lean ====
section
/-! DEFINITION. The staging frozen at a base tick, snapshots, commits, digests and INPUT frames (R185 to R209, R379, R380, R386). -/

namespace Sys2Proof.Machine

/-! ### Staging (R185 step 4, R197 to R200, R209) -/

/-- STATUS of a record (R198, R209); a digital output reports its holding as SHORT and its limiting and rate hold as LIMIT (R252, R256). -/
def Chan.status (c : Chan) (e : ChanCfg) (up : Bool) : Nat :=
  let stale := !up || (e.isAnalogue && c.stale)
  let short := if e.isDout then c.held else c.short
  let limit := if e.isDout then c.limiting || c.rateHeld else c.lim || c.clamped
  b2n stale + 2 * b2n c.underR + 4 * b2n c.overR + 8 * b2n c.copen + 16 * b2n short + 32 * b2n c.lowv + 64 * b2n c.cdisc +
    128 * b2n c.spare + 256 * b2n limit + 32768 * b2n (c.copen || short || c.lowv || c.cdisc)

/-- The fault bit of R199. -/
def faultBit (status : Nat) : Bool := bit status 0 || bit status 15

/-- A channel's own staging frozen now; edges counted since the previous base tick join the totals. -/
def State.ownStg (s : State) (n : ChanId) (old : Stg) : Stg :=
  let c := s.chans[n]
  match c.cfg with
  | none => Stg.init
  | some e =>
    let since (tot own : Nat) : Nat := if own ≤ tot then tot - own else tot
    { rise := old.rise + since c.rise old.ownRise
      fall := old.fall + since c.fall old.ownFall
      ownRise := c.rise
      ownFall := c.fall
      lastEdge := c.lastEdge.map (fun x => s.signedTb x / 40)
      count := c.count
      iload := c.iload.setWidth 16
      status := BitVec.ofNat 16 (c.status e s.groups[grpOf n].up)
      value := c.value
      stamp := s.signedTb c.stamp / 10000
      aux := c.aux }

/-- The status words, laid out as at image 0x0600 to 0x068F, and the CAN receive bytes (R199, R200, R202). -/
def State.ownWords (s : State) : Mem :=
  let fault (c : Chan) (g : GrpId) : Bool := match c.cfg with
    | none => false
    | some e => faultBit (c.status e s.groups[g].up)
  let grp := (fins 12).flatMap (fun g =>
    let p := s.groups[g]
    let st := grpMask s g.val Chan.state + 65536 * maskOf (fun i => fault (chanAt s g.val i) g) 16
    let w := b2n p.up + 2 * b2n p.spare + 4 * b2n (p.engfail && !p.spare) + 8 * b2n p.cjok + 65536 * p.cjt.toNat
    [(0x600 + 4 * g.val, toLe 4 st), (0x630 + 4 * g.val, toLe 4 w)])
  let can := (fins 4).flatMap (fun k =>
    [(0x660 + 8 * k.val, toLe 8 s.cans[k].stale.toNat), (0x680 + 4 * k.val, toLe 4 (canWord s.cans[k]))])
  (grp ++ can).foldl (fun m w => m.write w.1 w.2) s.img.canRx

/-! ### Records and snapshots (R187, R197, R201, R207) -/

/-- EDGEAGE in 100 ns, both ends taken in whole units so that a pair agrees (R197, R379; log entry 20). -/
def Stg.edgeAge (g : Stg) (tb : Nat) : Nat :=
  match g.lastEdge with
  | none => 0xFFFFFFFF
  | some e => min 0xFFFFFFFE (((tb / 40 : Nat) : Int) - e).toNat

/-- AGE in 25 µs (R197; log entry 20). -/
def Stg.age (g : Stg) (tb : Nat) : Nat := min 0xFFFF (((tb / 10000 : Nat) : Int) - g.stamp).toNat

/-- The 8 bytes of a channel's record (R197, R207). `zero` at a room's first release (R140). -/
def recordBytes (e : ChanCfg) (g : Stg) (base : Nat × Nat) (zero : Bool) (tb : Nat) : List Byte :=
  let none' := zero || g.status.getLsbD 0
  let r := if none' then 0 else min 0xFFFF (g.rise - base.1)
  let f := if none' then 0 else min 0xFFFF (g.fall - base.2)
  if e.isDin then toLe 2 r ++ toLe 2 f ++ toLe 4 (g.edgeAge tb)
  else if e.isCounter then toLe 4 g.count.toNat ++ toLe 4 (g.edgeAge tb)
  else if e.isReadback then toLe 2 r ++ toLe 2 f ++ toLe 2 g.iload.toNat ++ toLe 2 g.status.toNat
  else if e.isAnalogue then toLe 4 g.value.toNat ++ toLe 2 g.status.toNat ++ toLe 2 (g.age tb)
  else []

/-- The modes that use both records of an even/odd pair (R197). -/
def ChanCfg.isDouble (e : ChanCfg) : Bool := e.mode == 0x12 || hasAux e

/-- The channel edge totals that a room compares its next release with. -/
def baselineOf (stg : Vector Stg 192) (es : List ChanCfg) : List (Nat × Nat × Nat) :=
  es.filterMap (fun e => if e.isDin || e.isReadback then some (e.ch, (vget stg e.ch Stg.init).rise, (vget stg e.ch Stg.init).fall) else none)

def baseOf (b : List (Nat × Nat × Nat)) (n : Nat) : Nat × Nat :=
  match b.find? (fun x => x.1 == n) with
  | none => (0, 0)
  | some x => x.2

/-- The snapshot of a room at a release with TB `tb` (R187, R194, R201). -/
def snapshot (es : List ChanCfg) (stg : Vector Stg 192) (words : Mem) (v : Room) (tb cycle : Nat) : Mem :=
  let m := es.foldl (fun (m : Mem) e =>
    let g := vget stg e.ch Stg.init
    let m := m.write (8 * e.ch) (recordBytes e g (baseOf v.baseline e.ch) v.firstRel tb)
    if hasAux e then m.write (8 * e.ch + 8) (toLe 4 g.aux.toNat) else m) words
  (m.write 0x690 (toLe 8 tb)).write 0x698 (toLe 6 cycle)

/-! ### Release (R81, R84, R407) -/

/-- The configuration to which a switch or rollback turns at the base tick just begun (R225, R228). -/
def State.turningTo (s : State) : Option Conf :=
  if s.edits.confirmed && decide (s.edits.tick ≤ s.cycle) then
    match s.edits.swap with
    | .pendSwitch => s.edits.new
    | .pendRollback => s.edits.old
    | _ => none
  else none

/-- The entry at which a release of task i starts: at a switch that of the other half of the code store, to which an unchanged task moves with
this release (R221). -/
def State.releasePc (s : State) (i : Nat) : BitVec 20 :=
  match s.turningTo, s.roomOf i with
  | some c, some r => match c.an.rooms.idxOf? r.val with
    | some j => BitVec.ofNat 20 ((1 - s.app.half.val) * 524288 + ((c.task j).map Task.entry).getD 0)
    | none => s.entryPc i
  | _, _ => s.entryPc i

/-- Task i's room is released now (R81, R185 step 6): READY at its entry with its snapshot. A release of the supervisor room begins a
period of the night porter in admitted mode (R407). -/
def State.release (s : State) (i : Nat) : State :=
  match s.app.cur, s.roomOf i with
  | some c, some r =>
    let v := s.rooms[r]
    if v.stAt s.now = .waiting then
      let tb := s.tb
      let s := s.updRoom r (fun v => { v with
        st := .ready
        restAt := none
        relTb := BitVec.ofNat 64 tb
        pc := s.releasePc i
        issued := 0
        changed := []
        snap := snapshot c.way.chans s.pair.stg s.pair.words v tb s.cycle
        baseline := baselineOf s.pair.stg c.way.chans
        firstRel := false })
      let s := { s with clk := if s.clk.tfirst = 0 then { s.clk with tfirst := BitVec.ofNat 32 (tb / 400) } else s.clk }
      if i = c.way.super ∧ s.np.mode = true then { s with np := s.np.begin tb } else s
    else s
  | _, _ => s

/-- Every task with a release at cycle number n, but for those that `skip` names. -/
def State.releaseAll (s : State) (n : Nat) (skip : Nat → Bool) : State :=
  (List.range s.taskCount).foldl (fun s i => if s.releasedAt i n && !skip i then s.release i else s) s

/-! ### Deadline and commit (R85, R185 steps 1, 2 and 5, R190, R192, R204) -/

/-- The image words that a task owns, in ascending order (R380). -/
def Conf.wordsOf (c : Conf) (i : Nat) : List Nat :=
  let out := ((List.range 192).map (fun n => 0x1000 + 4 * n)).filter (c.owns i)
  let tx := ((List.range 256).map (fun n => 0x2000 + 4 * n)).filter (c.owns i)
  let len := ((c.task i).map Task.pubLen).getD 0
  out ++ tx ++ (List.range (len / 4)).map (fun k => c.an.pubBase.getD i 0 + 4 + 4 * k)

/-- Task i commits at cycle number n: its room's release in progress ends there (R184). -/
def State.commitsNow (s : State) (i n : Nat) : Bool :=
  match s.roomOf i with
  | none => false
  | some r =>
    let v := s.rooms[r]
    s.app.running && !v.firstRel && (v.st == .ready || v.st == .waiting) && decide (0 < s.period i) &&
      v.relTb.toNat + tickCycles * s.period i == tickCycles * n

/-- The frozen values of a task cross to their groups with the scheduled instant (R185 step 2): output words written since the start
(R192), to groups with L+. -/
def State.handOver (s : State) (c : Conf) (i tick : Nat) : State :=
  c.way.chans.foldl (fun s e =>
    match toFin? 192 e.ch with
    | none => s
    | some n =>
      if e.isOutput ∧ e.owner = i ∧ s.img.written.contains e.ch = true ∧ s.groups[grpOf n].lplus = true then
        let w := s.img.frozen.word (0x1000 + 4 * e.ch)
        (s.updChan n (fun x => { x with recv := some (w, tick) })).emit (.handOver n w tick)
      else s) s

/-- The deadline of task i, which commits at cycle number n (R85, R185): an overrun when its room has not completed REST; else its
pending values are frozen and handed over. -/
def State.deadline (s : State) (r : RoomId) (i n : Nat) : State :=
  match s.app.cur with
  | none => s
  | some c =>
    let v := s.rooms[r]
    let due := s.cycleOfTb (tickCycles * n - 800)
    if s.halted ∨ s.pwr.pf = .lastTick then s
    else if v.ready = true ∨ due ≤ v.restDone then
      s.hardwareFault { cause := 7, lane := v.lane, room := BitVec.ofNat 7 r.val, mem := 0, pc := v.pc, addr := 0 }
    else
      let froz := (c.wordsOf i).foldl (fun (m : Mem) a => m.write a (s.img.pend.read a 4)) s.img.frozen
      let s := { s with img := { s.img with frozen := froz, closed := s.img.closed ++ [i] } }
      s.handOver c i (tickCycles * n)

/-- The commit of task i at cycle number n: the frozen values become the committed ones, and the publication stamp is written. -/
def State.commitTask (s : State) (c : Conf) (i n : Nat) : State :=
  let com := (c.wordsOf i).foldl (fun (m : Mem) a => m.write a (s.img.frozen.read a 4)) s.img.com
  let com := if ((c.task i).map Task.pubLen).getD 0 = 0 then com else com.write (c.an.pubBase.getD i 0) (toLe 4 (n % 2 ^ 32))
  { s with img := { s.img with com := com } }

/-- The publications that the commit of task i at base tick n makes due (R360): every DECIM-th commit from the first on. Input areas
give the snapshot of the release at n, all other bytes the committed values. While requests pause none becomes due (R333; log entry 49). -/
def State.duePublications (s : State) (c : Conf) (i n : Nat) : State :=
  match s.roomOf i with
  | none => s
  | some r =>
    let input := snapshot c.way.chans s.pair.stg s.pair.words s.rooms[r] s.tb n
    let commit := (n - s.app.startTick) / max 1 (s.period i)
    let bytes (g : RingCfg) : List Byte := g.ranges.flatMap (fun x =>
      if x.1 < 0x1000 then input.read x.1 x.2 else s.img.com.read x.1 x.2)
    { s with host := { s.host with pubDue := s.host.pubDue.mapFinIdx (fun p x _ =>
        let g := vget s.host.rings (16 + p) RingCfg.init
        if s.host.active && s.host.busMaster && g.enable && g.task == i && commit % max 1 g.decim == 0 then x ++ [(n, bytes g)] else x) } }

/-! ### Digests and INPUT frames (R379, R380) -/

def insertNat (x : Nat) : List Nat → List Nat
  | [] => [x]
  | y :: r => if x ≤ y then x :: y :: r else y :: insertNat x r

def sortNats (xs : List Nat) : List Nat := xs.foldr insertNat []

/-- OUTD and RETD of task i after its commit (R380). -/
def State.digests (s : State) (c : Conf) (i : Nat) : List Byte :=
  let outd := crc64 ((c.wordsOf i).flatMap (fun a => s.img.com.read a 4))
  let retd := match s.roomOf i with
    | none => crc64 []
    | some r => crc64 ((sortNats s.rooms[r].changed).flatMap (fun o => toLe 4 o ++ s.dmem.read (s.rooms[r].retBase + o) 1))
  toLe 8 outd.toNat ++ toLe 8 retd.toNat

/-- The staging entry of a channel (R379). -/
def stagingEntry (e : ChanCfg) (old new : Stg) : List Byte :=
  let edge := match new.lastEdge with
    | none => 0xFFFFFFFF
    | some x => (x % 2 ^ 32).toNat
  let edges := toLe 2 (new.rise - old.rise) ++ toLe 2 (new.fall - old.fall)
  if e.isDin then edges ++ toLe 4 edge
  else if e.isCounter then toLe 4 new.count.toNat ++ toLe 4 edge
  else if e.isReadback then edges ++ toLe 2 new.iload.toNat ++ toLe 2 new.status.toNat
  else if e.isAnalogue then
    toLe 4 new.value.toNat ++ toLe 2 new.status.toNat ++ toLe 2 (new.stamp % 65536).toNat ++
      (if e.isDouble then (if hasAux e then toLe 4 new.aux.toNat else toLe 4 0) ++ toLe 4 0 else [])
  else []

/-- Length of a staging entry. -/
def entryLen (e : ChanCfg) : Nat :=
  if e.isDouble then 16 else if e.isDin || e.isCounter || e.isReadback || e.isAnalogue then 8 else 0

/-- CHAN entries in channel order. -/
def Way.chansInOrder (w : Way) : List ChanCfg := (List.range 192).filterMap (fun n => w.chans.find? (fun e => e.ch == n))

/-- The receive areas that filters map, in filter order, ports in order: address and length (R309, R379). -/
def Way.rxAreas (w : Way) : List (Nat × Nat) :=
  (List.range 4).flatMap (fun k => (w.filters.filter (fun f => f.port == k)).map (fun f =>
    (0x800 + 0x100 * k + f.dst, (if f.stamp then 4 else 0) + f.len)))

/-- The INPUT frame of a base tick (R379). -/
def inputFrame (w : Way) (cycle : Nat) (digests : List (List Byte)) (old new : Vector Stg 192) (words : Mem) : List Byte :=
  toLe 6 cycle ++ toLe 2 digests.length ++ toLe 8 0 ++ digests.flatten ++ words.read 0x600 144 ++
    w.chansInOrder.flatMap (fun e => stagingEntry e (vget old e.ch Stg.init) (vget new e.ch Stg.init)) ++
    w.rxAreas.flatMap (fun a => words.read a.1 a.2)

/-- Length of the INPUT frame with a number of digest entries. -/
def inputLen (w : Way) (nd : Nat) : Nat :=
  160 + 16 * nd + (w.chansInOrder.map entryLen).foldl (· + ·) 0 + (w.rxAreas.map Prod.snd).foldl (· + ·) 0

/-- The value with given low bits that is nearest below or at a limit. -/
def below (limit low modulus : Nat) : Int :=
  let x : Int := (limit / modulus * modulus + low : Nat)
  if x ≤ limit then x else x - modulus

/-- Staging of a channel from its entry in a frame of TB `tb` (R379, R386); the group's own totals are kept beside. -/
def Stg.ofEntry (e : ChanCfg) (old own : Stg) (bs : List Byte) (tb : Nat) : Stg :=
  let raw := u32 bs 4
  let edge : Option Int := if raw = 0xFFFFFFFF then none
    else match old.lastEdge with
      | some x => if x % 2 ^ 32 = (raw : Int) then some x else some (below (tb / 40) raw (2 ^ 32))
      | none => some (below (tb / 40) raw (2 ^ 32))
  let base : Stg := { Stg.init with
    rise := old.rise
    fall := old.fall
    ownRise := own.ownRise
    ownFall := own.ownFall }
  if e.isDin then { base with rise := old.rise + u16 bs 0, fall := old.fall + u16 bs 2, lastEdge := edge }
  else if e.isCounter then { base with count := BitVec.ofNat 32 (u32 bs 0), lastEdge := edge }
  else if e.isReadback then { base with
      rise := old.rise + u16 bs 0
      fall := old.fall + u16 bs 2
      iload := BitVec.ofNat 16 (u16 bs 4)
      status := BitVec.ofNat 16 (u16 bs 6) }
  else if e.isAnalogue then { base with
      value := BitVec.ofNat 32 (u32 bs 0)
      status := BitVec.ofNat 16 (u16 bs 4)
      stamp := if old.stamp % 65536 = (u16 bs 6 : Int) then old.stamp else below (tb / 10000) (u16 bs 6) 65536
      aux := BitVec.ofNat 32 (u32 bs 8) }
  else base

/-- The staging and words that a frame gives (R379, R386). A Type 1 or Type 3 input or a counter carries no STATUS: it is stale when
its fault bit is 1 in a group without LPLUS. -/
def ofFrame (w : Way) (bs : List Byte) (old own : Vector Stg 192) (tb : Nat) : Vector Stg 192 × Mem :=
  let nd := u16 bs 6
  let at0 := 16 + 16 * nd
  let words : Mem := Mem.write [] 0x600 (slice bs at0 144)
  let ups (n : Nat) : Bool := bit (u32 bs (at0 + 48 + 4 * (n / 16))) 0
  let r := w.chansInOrder.foldl (fun (acc : Vector Stg 192 × Nat) e =>
    let g := Stg.ofEntry e (vget old e.ch Stg.init) (vget own e.ch Stg.init) (slice bs acc.2 16) tb
    let g := if e.isDin || e.isCounter then { g with status := if ups e.ch then 0 else 1 } else g
    (vset acc.1 e.ch g, acc.2 + entryLen e)) (own, at0 + 144)
  let m := w.rxAreas.foldl (fun (acc : Mem × Nat) a => (acc.1.write a.1 (slice bs acc.2 a.2), acc.2 + a.2)) (words, r.2)
  (r.1, m.1)

end Sys2Proof.Machine
end

