-- ==== Sys2Proof/Machine/Form.lean ====
section
/-! DEFINITION. The form of a waybill (step 1 of R156): header, directory, sections and their entries, each with the fault that refuses it
(R159 to R163, R182, R204, R236, R237, R269, R270, R308 to R312, R514). A fault is a place (LOC) with its status. -/

namespace Sys2Proof.Machine

abbrev FormFault := Nat × Nat

/-! ### Header and directory (R159, R160) -/

/-- The first faulty field of the header, by byte offset and the CRC last (R159). -/
def headerFault (bs : List Byte) : Option Nat :=
  let reserved := ([22, 23] ++ (List.range 32).map (· + 32)).find? (fun i => byteAt bs i != 0)
  if u32 bs 0 ≠ 0x4C42574D then some 0
  else if u16 bs 4 ≠ 1 then some 4
  else if 4 ≤ u16 bs 6 then some 6
  else if u32 bs 8 ≠ bs.length then some 8
  else if u32 bs 12 < 4 ∨ 16 < u32 bs 12 then some 12
  else match reserved with
  | some i => some i
  | none => if (crc32 (bs.take 16 ++ toLe 4 0 ++ bs.drop 20)).toNat ≠ u32 bs 16 then some 16 else none

/-- A directory entry (R160) with its place. -/
structure Sect where
  typ : Nat
  rsv : Nat
  off : Nat
  len : Nat
  cnt : Nat
  loc : Nat
deriving DecidableEq, Repr

def sections (bs : List Byte) : List Sect :=
  (List.range (min 16 (u32 bs 12))).map (fun i =>
    let e := slice bs (64 + 16 * i) 16
    { typ := u16 e 0, rsv := u16 e 2, off := u32 e 4, len := u32 e 8, cnt := u32 e 12, loc := 64 + 16 * i })

/-- The entry size of a section type; 0 for SIG, `none` for no section type (R160). -/
def entrySize (typ : Nat) : Option Nat :=
  if typ = 1 ∨ typ = 2 then some 4
  else if typ = 3 ∨ typ = 5 then some 32
  else if typ = 4 ∨ typ = 7 ∨ typ = 8 ∨ typ = 9 then some 16
  else if typ = 6 then some 64
  else if typ = 0xFF then some 0
  else none

def findSect (ss : List Sect) (typ : Nat) : Option Sect := ss.find? (fun s => s.typ == typ)

/-- The entries of a section, each with its place in the waybill. -/
def entriesOf (bs : List Byte) (ss : List Sect) (typ : Nat) : List (Nat × List Byte) :=
  match findSect ss typ, entrySize typ with
  | some s, some (n + 1) =>
    let body := (bs.drop s.off).take (s.cnt * (n + 1))
    let rec cut : Nat → Nat → List Byte → List (Nat × List Byte)
      | 0, _, _ => []
      | k + 1, a, r => (a, r.take (n + 1)) :: cut k (a + n + 1) (r.drop (n + 1))
    cut s.cnt s.off body
  | _, _ => []

/-- The words of CODE. -/
def codeWords (bs : List Byte) (ss : List Sect) : List Word := (entriesOf bs ss 1).map (fun e => BitVec.ofNat 32 (ofLe e.2))

/-- Faults of the directory entries one by one: type, reserved bytes, duplicates, offset, extent, entry count, overlap with the header,
the directory or an entry before it, and a FEAT section of other than one entry (R160). -/
def directoryFaults (bs : List Byte) (ss : List Sect) : List FormFault :=
  let head := 64 + 16 * ss.length
  let one (i : Nat) (s : Sect) : List FormFault :=
    let before := ss.take i
    let sized := match entrySize s.typ with
      | none => false
      | some 0 => true
      | some n => s.len == s.cnt * n
    let clear := s.len == 0 || (decide (head ≤ s.off) && before.all (fun q => q.len == 0 || decide (q.off + q.len ≤ s.off) || decide (s.off + s.len ≤ q.off)))
    if !sized || s.rsv != 0 || before.any (fun q => q.typ == s.typ) || s.off % 16 != 0 || decide (bs.length < s.off + s.len) || !clear then
      [(s.loc, 0x0111)]
    else if s.typ = 8 ∧ s.cnt ≠ 1 then [(s.loc, 0x0112)]
    else []
  (ss.mapIdx one).flatten

/-- Faults of the directory as a whole: a required section missing (at the directory's start), the position of SIG, and sections other
than CODE beyond 512 KiB, at the entry with which they go beyond it (R154, R160). -/
def layoutFaults (bs : List Byte) (ss : List Sect) (usesLpr : Bool) : List FormFault :=
  let has (t : Nat) : Bool := (findSect ss t).isSome
  let missing := !has 1 || !has 3 || !has 8 || !has 0xFF || (bit (u16 bs 6) 1 && !has 9) || (usesLpr && !has 2)
  let sig := match findSect ss 0xFF with
    | none => []
    | some g => if ss.any (fun q => q.typ != 0xFF && decide (g.off ≤ q.off)) || g.off + g.len != bs.length then [(g.loc, 0x0111)] else []
  let sum (i : Nat) : Nat := ((ss.take i).map (fun q => if q.typ = 1 then 0 else q.len)).foldl (· + ·) 0
  let big := match ss.mapIdx (fun i q => (sum (i + 1), q.loc)) |>.find? (fun x => decide (0x80000 < x.1)) with
    | none => []
    | some x => [(x.2, 0x0118)]
  (if missing then [(64, 0x0111)] else []) ++ sig ++ big

/-! ### BOUND, FEAT, TASK and VAR (R160 to R162, R204) -/

def boundFaults (es : List (Nat × List Byte)) : List FormFault :=
  es.filterMap (fun e => if u32 e.2 0 < 1 ∨ 0xFFFFFF < u32 e.2 0 then some (e.1, 0x0111) else none)

/-- LANEARITH and reserved bits of FEAT (R131, R160). -/
def featFaults (es : List (Nat × List Byte)) : List FormFault :=
  es.flatMap (fun e =>
    (if bit (u32 e.2 0) 7 ∨ 2 ^ 22 ≤ u32 e.2 0 then [(e.1, 0x0112)] else []) ++
    (if 2 ^ 24 ≤ u32 e.2 4 then [(e.1 + 4, 0x0112)] else []) ++
    (if 2 ^ 15 ≤ u32 e.2 12 then [(e.1 + 12, 0x0112)] else []))

def parseTask (e : List Byte) : Task where
  taskId := u16 e 0
  lane := u8 e 2
  prio := u8 e 3
  k := u16 e 4
  cls := u8 e 6
  changed := bit (u8 e 7) 0
  entry := u32 e 8
  codeLen := u32 e 12
  privLen := u32 e 16
  retLen := u32 e 20
  pubLen := u32 e 24

/-- The fields of a TASK entry lie in their ranges (R161). -/
def taskFieldsOk (e : List Byte) : Bool :=
  let t := parseTask e
  decide (t.lane < 8) && decide (t.prio < 100) && decide (1 ≤ t.k) && decide (t.k ≤ 20000) && decide (t.cls < 2) && decide (u8 e 7 < 2) &&
    (t.cls == 0 || decide (6 ≤ t.lane)) && decide (t.entry < 2 ^ 20) && decide (t.codeLen < 2 ^ 20) && decide (t.privLen < 2 ^ 23) &&
    t.privLen % 64 == 0 && decide (t.retLen < 2 ^ 23) && t.retLen % 64 == 0 && decide (t.pubLen < 2 ^ 19) && t.pubLen % 4 == 0 && u32 e 28 == 0

/-- Two tasks that R161 does not let stand together. -/
def tasksClash (a b : Task) : Bool :=
  a.taskId == b.taskId || (a.lane == b.lane && a.prio == b.prio) ||
    (a.codeLen != 0 && b.codeLen != 0 && decide (a.entry < b.entry + b.codeLen) && decide (b.entry < a.entry + a.codeLen))

/-- Bytes that the publication areas of tasks take, stamps included (R204). -/
def pubTotal (ts : List Task) : Nat := (ts.map (fun t => if t.pubLen = 0 then 0 else t.pubLen + 4)).foldl (· + ·) 0

def taskFaults (super : Nat) (es : List (Nat × List Byte)) : List FormFault :=
  let ts := es.map (fun e => parseTask e.2)
  let one (i : Nat) (e : Nat × List Byte) : List FormFault :=
    let t := parseTask e.2
    if !taskFieldsOk e.2 || (ts.take i).any (tasksClash t) || decide (49152 < pubTotal (ts.take (i + 1))) then [(e.1, 0x0113)] else []
  (es.mapIdx one).flatten ++ (if es.length ≤ super then [(20, 0x0113)] else [])

def parseVar (e : List Byte) : Var where
  id := u32 e 0
  task := u16 e 4
  retained := bit (u8 e 6) 0
  editable := bit (u8 e 6) 1
  typ := u8 e 7
  offset := u32 e 8
  size := u32 e 12

def varFaults (ts : List Task) (es : List (Nat × List Byte)) : List FormFault :=
  let vs := es.map (fun e => parseVar e.2)
  let one (i : Nat) (e : Nat × List Byte) : List FormFault :=
    let v := parseVar e.2
    let fits := match ts[v.task]? with
      | none => false
      | some t => decide (v.offset + v.size ≤ if v.retained then t.retLen else t.privLen)
    if decide (4 ≤ u8 e.2 6) || !fits || (vs.take i).any (fun q => q.id == v.id) then [(e.1, 0x0114)] else []
  (es.mapIdx one).flatten

/-! ### CHAN (R163, R235 to R237, R268 to R270) -/

def parseChan (e : List Byte) : ChanCfg where
  ch := u16 e 0
  mode := u8 e 2
  owner := u16 e 4
  rate := u16 e 6
  sps := u8 e 8
  iload := u16 e 10
  eoff := u16 e 12
  foff := u16 e 14
  rload := u16 e 16
  vloop := u16 e 18
  param := slice e 20 12

/-- RANGE codes of an analogue mode (R268); 0 for no analogue mode. -/
def rangeCodes (mode : Nat) : Nat :=
  if mode = 0x1C then 8 else if mode = 0x1E ∨ mode = 0x20 ∨ mode = 0x22 then 1
  else if mode = 0x10 ∨ mode = 0x11 ∨ mode = 0x12 ∨ mode = 0x18 ∨ mode = 0x19 ∨ mode = 0x1A ∨ mode = 0x21 then 2 else 0

/-- The parameter fields of a mode as bit position and width within bytes 20 to 31 (R236, R269). -/
def paramFields (mode : Nat) : List (Nat × Nat) :=
  if mode = 1 ∨ mode = 2 then [(8, 1), (32, 16)]
  else if mode = 3 then [(8, 1), (12, 1), (32, 16), (48, 2), (56, 4), (63, 1)]
  else if mode = 8 then [(0, 8), (9, 3), (16, 16)]
  else if mode = 9 then [(0, 8), (9, 3), (16, 16), (32, 16), (48, 16)]
  else if mode = 0x10 ∨ mode = 0x11 ∨ mode = 0x12 then [(8, 4), (16, 2)]
  else if mode = 0x18 ∨ mode = 0x1E then [(8, 4), (16, 2), (24, 4), (32, 32)]
  else if mode = 0x19 ∨ mode = 0x1A then [(8, 4), (16, 2), (24, 4)]
  else if mode = 0x1C then [(8, 5), (16, 2), (32, 2), (40, 4), (48, 16)]
  else if mode = 0x20 ∨ mode = 0x21 then [(0, 8), (8, 4), (16, 16), (32, 32)]
  else if mode = 0x22 then [(0, 8), (8, 4), (13, 1), (16, 16), (32, 32)]
  else []

/-- Every parameter bit that the mode does not have is zero. -/
def paramOk (e : ChanCfg) : Bool :=
  let n := ofLe e.param
  (List.range 96).all (fun i => !bit n i || (paramFields e.mode).any (fun f => decide (f.1 ≤ i) && decide (i < f.1 + f.2)))

def ChanCfg.pf (e : ChanCfg) (lo w : Nat) : Nat := fld (ofLe e.param) lo w

/-- R236 and R237, but for the gate channel. -/
def digitalOk (e : ChanCfg) : Bool :=
  let none' := e.iload == 0 && e.eoff == 0 && e.foff == 0 && e.rload == 0 && e.vloop == 0
  let out := decide (1 ≤ e.iload) && decide (e.iload ≤ 500) && e.rload == 0 && e.vloop == 0 && decide (e.eoff ≤ 250) &&
    (e.eoff == 0 || e.foff != 0) && decide (e.pf 0 8 ≤ 2) && decide (e.pf 16 16 ≤ 100)
  e.rate == 0 && e.sps == 0 &&
    (if e.mode = 1 ∨ e.mode = 2 then none' && decide (e.pf 32 16 ≤ 2000)
     else if e.mode = 3 then none' && decide (e.pf 32 16 ≤ 2000) && e.pf 48 2 != 0 && (e.pf 63 1 == 1 || e.pf 56 4 == 0)
     else if e.mode = 8 then out
     else out && decide (e.pf 32 16 ≤ 2000) && decide (1 ≤ e.pf 48 16) && decide (e.pf 48 16 ≤ 1000))

/-- R269 and R270, but for the cold-junction channel. -/
def analogueOk (e : ChanCfg) : Bool :=
  let settle := if e.mode = 0x18 ∨ e.mode = 0x19 ∨ e.mode = 0x1A ∨ e.mode = 0x1E then e.pf 24 4 else 0
  let line := if e.isAin then e.pf 16 2 else 0
  decide (e.pf 8 4 < rangeCodes e.mode) && decide (1 ≤ e.rate) && decide (e.rate ≤ 32000) && decide (1 ≤ e.sps) && decide (e.sps ≤ 16) &&
    decide (settle + (if e.mode = 0x19 then 2 else 1) ≤ e.sps) && e.iload == 0 && e.eoff == 0 && e.foff == 0 &&
    (if e.isAin then e.rload == 0 else if e.mode = 0x21 then decide (1000 ≤ e.rload) else decide (e.rload ≤ if e.mode = 0x20 then 600 else 1000)) &&
    (if e.mode = 0x22 then decide (120 ≤ e.vloop) && decide (e.vloop ≤ 300) else e.vloop == 0) &&
    (!e.isAout || ((e.pf 0 8 == 0 || e.pf 0 8 == 2 || e.pf 0 8 == 3) && decide (e.pf 16 16 ≤ 100) && (e.pf 0 8 == 3 || e.pf 32 32 == 0))) &&
    (line == 0 || (line == 1 && e.rate % 50 == 0 && decide (300 ≤ e.rate)) || (line == 2 && e.rate % 60 == 0 && decide (360 ≤ e.rate))) &&
    ((e.mode != 0x18 && e.mode != 0x1E) || decide (e.pf 32 32 ≤ 100000)) &&
    (e.mode != 0x1C || (e.pf 32 2 != 3 && decide (-4000 ≤ sgn 16 (e.pf 48 16)) && decide (sgn 16 (e.pf 48 16) ≤ 8500))) &&
    (e.mode != 0x1A || e.ch % 4 == 0) && ((e.mode != 0x12 && e.mode != 0x19 && e.mode != 0x1C) || e.ch % 2 == 0)

/-- An RTD mode. -/
def ChanCfg.isRtd (e : ChanCfg) : Bool := e.mode == 0x18 || e.mode == 0x19 || e.mode == 0x1A

/-- The channel that a gate or a cold junction names is one that may serve it (R237, R270). -/
def chanRefOk (cs : List ChanCfg) (e : ChanCfg) : Bool :=
  let other (i : Nat) : Option ChanCfg := cs.find? (fun c => c.ch == e.ch / 16 * 16 + i)
  if e.mode = 3 ∧ e.pf 63 1 = 1 then
    match other (e.pf 56 4) with
    | none => false
    | some c => c.ch != e.ch && (c.mode == 1 || c.mode == 2)
  else if e.mode = 0x1C ∧ e.pf 32 2 = 1 then
    match other (e.pf 40 4) with
    | none => false
    | some c => c.isRtd
  else true

def chanFaults (ntasks : Nat) (es : List (Nat × List Byte)) : List FormFault :=
  let cs := es.map (fun e => parseChan e.2)
  let one (i : Nat) (e : Nat × List Byte) : List FormFault :=
    let c := parseChan e.2
    let digital := c.mode == 1 || c.mode == 2 || c.mode == 3 || c.mode == 8 || c.mode == 9
    let ok := decide (c.ch < 192) && u8 e.2 3 == 0 && u8 e.2 9 == 0 && (c.owner == 0xFFFF || decide (c.owner < ntasks)) &&
      (if digital then digitalOk c else rangeCodes c.mode != 0 && analogueOk c) && paramOk c && chanRefOk cs c &&
      (cs.take i).all (fun q => q.ch != c.ch)
    if ok then [] else [(e.1, 0x0115)]
  (es.mapIdx one).flatten

/-! ### CAN sections (R305, R308 to R312) -/

def parsePort (e : List Byte) : CanPortCfg where
  port := u8 e 1
  mode := u8 e 4
  auto := bit (u8 e 5) 0
  autorec := bit (u8 e 5) 1
  cycle := u16 e 6
  bustask := u16 e 8
  nbrp := u8 e 10
  nsjw := u8 e 11
  ntseg1 := u16 e 12
  ntseg2 := u8 e 14
  dbrp := u8 e 15
  dtseg1 := u8 e 16
  dtseg2 := u8 e 17
  dsjw := u8 e 18
  tdco := u8 e 19

def parseFilter (e : List Byte) : CanFilter where
  port := u8 e 1
  id := u32 e 4
  mask := u32 e 8
  ide := bit (u8 e 12) 0
  fmt := fld (u8 e 12) 1 2
  stamp := bit (u8 e 12) 3
  src := u8 e 13
  len := u8 e 14
  dst := u16 e 16

def parseBuf (e : List Byte) : CanBuf where
  port := u8 e 1
  id := u32 e 4
  ide := bit (u8 e 8) 0
  fdf := bit (u8 e 8) 1
  brs := bit (u8 e 8) 2
  dlc := u8 e 9
  txoff := u16 e 10

def parseCyc (e : List Byte) : CanCyc where
  port := u8 e 0
  buf := u8 e 1
  owner := u16 e 2
  wopen := u32 e 4
  wclose := u32 e 8

/-- Payload length of a DLC (R310). -/
def dlcLen (dlc : Nat) : Nat := if dlc ≤ 8 then dlc else [12, 16, 20, 24, 32, 48, 64].getD (dlc - 9) 64

/-- CAN clocks per bit. -/
def bitClocks (brp seg1 seg2 : Nat) : Nat := brp * (1 + seg1 + seg2)

/-- The timing fields as R305 wants them, or all zero under AUTO (R308). -/
def timingOk (p : CanPortCfg) : Bool :=
  if p.auto then
    p.nbrp == 0 && p.nsjw == 0 && p.ntseg1 == 0 && p.ntseg2 == 0 && p.dbrp == 0 && p.dtseg1 == 0 && p.dtseg2 == 0 && p.dsjw == 0 && p.tdco == 0
  else
    let r (lo hi x : Nat) : Bool := decide (lo ≤ x) && decide (x ≤ hi)
    let nb := bitClocks p.nbrp p.ntseg1 p.ntseg2
    let db := bitClocks p.dbrp p.dtseg1 p.dtseg2
    r 1 32 p.nbrp && r 2 256 p.ntseg1 && r 1 128 p.ntseg2 && r 1 p.ntseg2 p.nsjw && r 1 32 p.dbrp && r 1 32 p.dtseg1 && r 1 16 p.dtseg2 &&
      r 1 p.dtseg2 p.dsjw && decide (p.tdco < 128) && r 80 640 nb && r 10 nb db

/-- The identifier of a filter or a buffer (R309). -/
def idOk (id : Nat) (ide : Bool) : Bool := decide (id < if ide then 2 ^ 29 else 2 ^ 11)

def filterOk (e : List Byte) : Bool :=
  let f := parseFilter e
  idOk f.id f.ide && decide (f.mask < 2 ^ 29) && decide (u8 e 12 < 16) && f.fmt != 3 && decide (1 ≤ f.len) && decide (f.src + f.len ≤ 64) &&
    u8 e 15 == 0 && decide (f.dst + f.len + (if f.stamp then 4 else 0) ≤ 256) && (!f.stamp || f.dst % 4 == 0) && (slice e 18 46).all (· == 0)

def bufOk (e : List Byte) : Bool :=
  let b := parseBuf e
  idOk b.id b.ide && decide (u8 e 8 < 8) && (!b.brs || b.fdf) && decide (b.dlc < 16) && (b.fdf || decide (b.dlc ≤ 8)) && b.txoff % 4 == 0 &&
    decide (b.txoff < 256) && decide (b.txoff + dlcLen b.dlc ≤ 256) && (slice e 12 52).all (· == 0)

/-- Two receive areas of one port that overlap. -/
def areasOverlap (a b : CanFilter) : Bool :=
  let n (f : CanFilter) : Nat := f.len + (if f.stamp then 4 else 0)
  a.port == b.port && decide (a.dst < b.dst + n b) && decide (b.dst < a.dst + n a)

/-- The faults of CANCFG and CANCYC (R312). -/
def canFaults (ntasks : Nat) (cfg cyc : List (Nat × List Byte)) : List FormFault :=
  let kind (e : List Byte) : Nat := u8 e 0
  let ports := (cfg.filter (fun e => kind e.2 == 1)).map (fun e => parsePort e.2)
  let modeOf (k : Nat) : Nat := ((ports.find? (fun p => p.port == k)).map CanPortCfg.mode).getD 0
  let bufs := (cfg.filter (fun e => kind e.2 == 3)).map (fun e => parseBuf e.2)
  let one (i : Nat) (e : Nat × List Byte) : List FormFault :=
    let b := e.2
    let before := (cfg.take i).map Prod.snd
    let used := cyc.any (fun c => u8 c.2 0 == u8 b 1)
    let ok := decide (u8 b 1 < 4) && u16 b 2 == 0 &&
      (if kind b = 1 then
        let p := parsePort b
        before.all (fun q => kind q != 1 || u8 q 1 != p.port) && decide (p.mode < 4) && decide (u8 b 5 < 4) && timingOk p &&
          decide (1 ≤ p.cycle) && decide (p.cycle ≤ 20000) && (p.bustask == 0xFFFF || decide (p.bustask < ntasks)) &&
          (!used || p.bustask != 0xFFFF) && (slice b 20 44).all (· == 0)
      else if kind b = 2 then
        filterOk b && modeOf (u8 b 1) != 0 && before.all (fun q => kind q != 2 || !areasOverlap (parseFilter q) (parseFilter b))
      else if kind b = 3 then bufOk b && modeOf (u8 b 1) == 1
      else false)
    if ok then [] else [(e.1, 0x0116)]
  let entry (e : Nat × List Byte) : List FormFault :=
    let c := parseCyc e.2
    let ok := decide (c.port < 4) && modeOf c.port == 1 && decide (c.buf < 32) && decide (c.buf < (bufs.filter (fun b => b.port == c.port)).length) &&
      (c.owner == 0xFFFF || decide (c.owner < ntasks)) && decide (c.wopen < c.wclose) && u32 e.2 12 == 0
    if ok then [] else [(e.1, 0x0116)]
  (cfg.mapIdx one).flatten ++ cyc.flatMap entry

/-! ### The waybill -/

def parseMigr (e : List Byte) : Migr where
  newVar := u32 e 0
  oldVar := u32 e 4
  op := u8 e 8
  value := u32 e 12

def parseWay (bs : List Byte) : Way :=
  let ss := sections bs
  let es (t : Nat) : List (List Byte) := (entriesOf bs ss t).map Prod.snd
  { crc := BitVec.ofNat 32 (u32 bs 16)
    pair := bit (u16 bs 6) 0
    swap := bit (u16 bs 6) 1
    super := u16 bs 20
    keyslot := match findSect ss 0xFF with | none => 0 | some g => u8 bs g.off
    bytes := bs
    code := codeWords bs ss
    bound := (es 2).map (fun e => u32 e 0)
    tasks := (es 3).map parseTask
    vars := (es 4).map parseVar
    chans := (es 5).map parseChan
    ports := ((es 6).filter (fun e => u8 e 0 == 1)).map parsePort
    filters := ((es 6).filter (fun e => u8 e 0 == 2)).map parseFilter
    bufs := ((es 6).filter (fun e => u8 e 0 == 3)).map parseBuf
    cycs := (es 7).map parseCyc
    feat := match es 8 with
      | [] => []
      | f :: _ => (List.range 4).map (fun n => BitVec.ofNat 32 (u32 f (4 * n)))
    migr := (es 9).map parseMigr }

/-- The fault at the lowest LOC, and at one LOC the lowest status (R514). -/
def firstFault : List FormFault → Option FormFault
  | [] => none
  | f :: r =>
    match firstFault r with
    | none => some f
    | some g => if g.1 < f.1 ∨ (g.1 = f.1 ∧ g.2 < f.2) then some g else some f

end Sys2Proof.Machine
end

