-- ==== Sys2Proof/Machine/Verify.lean ====
section
/-! DEFINITION. The hardware verifier's walk over the instruction words: encodings (R106 to R109, R133 to R153), required features (R132),
bounded control flow (R125 to R130), distances (R116 to R121), longest paths (R167, R168) and the paths to WDK (R171, R172). -/

namespace Sys2Proof.Machine

/-! ### Instruction words -/

/-- What a word does to the flow of control. `goto` is a branch with cond AL. -/
inductive Kind where
  | plain
  | goto (off : Int)
  | branch (off : Int)
  | loop (rc : Nat) (off : Int)
  | lpi (rc : Nat) (n : Nat)
  | lpr (rc : Nat) (idx : Nat)
  | jtab (len : Nat)
  | rest
  | wdk
  | mts
deriving DecidableEq, Repr, Inhabited

/-- What the verifier needs of an instruction: whether the word is one, its flow, the registers it reads and writes with the distance of
R117, and whether it uses an arithmetic unit. Registers are numbered as in ARG1 of 0x0403; the flags, always readable at distance 1,
are left out, as is g0. -/
structure Ins where
  valid : Bool
  kind : Kind
  reads : List Nat
  writes : List (Nat × Nat)
  arith : Bool
deriving DecidableEq, Repr, Inhabited

def Ins.bad : Ins where
  valid := false
  kind := .plain
  reads := []
  writes := []
  arith := false

def Ins.mk' (ok : Bool) (kind : Kind) (reads : List Nat) (writes : List (Nat × Nat)) : Ins where
  valid := ok
  kind := kind
  reads := reads.filter (· != 0)
  writes := writes.filter (fun w => w.1 != 0)
  arith := false

/-- Major opcode 0x00 (R134). -/
def decodeAlu (n rd ra rb func : Nat) : Ins :=
  if func = 0 then .mk' (n == 0) .plain [] []
  else if func = 12 then .mk' (rd == 0) .plain [ra, rb] []
  else if func = 18 then .mk' (ra == 0 && rb == 0) .plain [] [(rd, 1)]
  else if func ≤ 17 then .mk' true .plain [ra, rb] [(rd, 1)]
  else .bad

/-- Major opcode 0x01 (R143). -/
def decodeArith (rd ra rb func : Nat) : Ins :=
  let fp (d : Nat) : List (Nat × Nat) := [(35, d)]
  let i :=
    if 1 ≤ func ∧ func ≤ 4 then Ins.mk' true .plain [ra, rb] [(33, 3), (34, 3)]
    else if func = 0x13 then Ins.mk' true .plain [ra, rb] (fp 12)
    else if 0x10 ≤ func ∧ func ≤ 0x16 then Ins.mk' true .plain [ra, rb] (fp 4)
    else if 0x17 ≤ func ∧ func ≤ 0x19 then Ins.mk' (rb == 0) .plain [ra] (fp 4)
    else if func = 0x20 ∨ func = 0x21 then Ins.mk' true .plain [ra, rb] [(36, 18), (37, 18)]
    else .bad
  { i with valid := i.valid && rd == 0, arith := true }

/-- The I format (R136). -/
def decodeImm (op rd ra imm : Nat) : Ins :=
  if op = 2 ∨ op = 4 ∨ op = 5 ∨ op = 6 then .mk' true .plain [ra] [(rd, 1)]
  else if op = 3 then .mk' (rd == 0) .plain [ra] []
  else if op = 7 then .mk' (ra == 0) .plain [] [(rd, 1)]
  else if op = 8 ∨ op = 9 ∨ op = 10 then .mk' (decide (imm < 32)) .plain [ra] [(rd, 1)]
  else if op = 11 then .mk' (rd == 0 && decide (imm < 32)) .plain [ra] []
  else if op = 12 then .mk' (decide (imm < 1024)) .plain [ra] [(rd, 1)]
  else if op = 13 then .mk' (decide (imm < 1024)) .plain [ra, rd] [(rd, 1)]
  else if op = 14 then .mk' (ra == 0) (.lpi rd imm) [] [(rd, 1)]
  else if op = 15 then .mk' true (.lpr rd imm) [ra] [(rd, 1)]
  else .mk' (rd == 0) (.jtab imm) [ra] []

/-- The M format (R138, R146, R150). -/
def decodeMem (op rd ra : Nat) : Ins :=
  if op ≤ 0x18 then .mk' true .plain [ra] [(rd, 2)]
  else if op ≤ 0x1B ∨ (0x21 ≤ op ∧ op ≤ 0x23) ∨ op = 0x25 then .mk' true .plain [ra, rd] []
  else if op = 0x26 ∨ op = 0x27 then .mk' (rd == 0) .plain [ra] []
  else .mk' true .plain [ra] [(rd, 1)]

/-- Major opcode 0x38 (R151). -/
def decodeSpecial (rd ra sel sub : Nat) : Ins :=
  if sub = 1 then .mk' (ra == 0 && decide (sel ≤ 4)) .plain [33 + sel] [(rd, 1)]
  else if sub = 2 then .mk' (rd == 0 && decide (sel ≤ 4)) .mts [ra] [(33 + sel, 1)]
  else if sub = 3 then .mk' (ra == 0 && decide (sel ≤ 3)) .plain [] [(rd, 1)]
  else if sub = 0x10 then .mk' (rd == 0 && ra == 0 && sel == 0) .rest [] []
  else if sub = 0x11 then .mk' (rd == 0 && sel == 0) .wdk [ra] []
  else .bad

/-- Flow, registers and unit of an instruction word by its fields (R106, R133). -/
def decodeFields (w : Word) : Ins :=
  let n := w.toNat
  let op := fld n 26 6
  let rd := fld n 21 5
  let ra := fld n 16 5
  let rb := fld n 11 5
  let off := sgn 21 (fld n 0 21)
  if op = 0 then decodeAlu n rd ra rb (fld n 0 11)
  else if op = 1 then decodeArith rd ra rb (fld n 0 11)
  else if op ≤ 0x10 then decodeImm op rd ra (fld n 0 16)
  else if op < 0x14 then .bad
  else if op ≤ 0x2E then decodeMem op rd ra
  else if op = 0x2F then .bad
  else if op ≤ 0x33 then .mk' true .plain [ra, rb, fld n 6 5] [(rd, 1)]
  else if op ≤ 0x35 then decodeMem op rd ra
  else if op = 0x36 then .mk' (decide (rd ≤ 0x10)) (if rd = 0 then .goto off else .branch off) [] []
  else if op = 0x37 then .mk' true (.loop rd off) [rd] [(rd, 1)]
  else if op = 0x38 then decodeSpecial rd ra (fld n 8 8) (fld n 0 8)
  else .bad

/-- An instruction word: one only where it spells an instruction (R109). -/
def decodeWord (w : Word) : Ins :=
  let i := decodeFields w
  { i with valid := i.valid && (decodeLane 0 ⟨0, by decide⟩ w).isSome }

/-- A code section decoded. -/
abbrev Code := Array Ins

def decodeCode (ws : List Word) : Code := (ws.map decodeWord).toArray

def Code.ins (c : Code) (i : Nat) : Ins := c.getD i Ins.bad

/-- Faults of instruction words and jump tables (R109, R128): indices in the section. A table or default that runs past the end of the CODE
section is the fault of its JTAB (DESIGN CHOICE, log entry 48). -/
def codeFaults (c : Code) : List Nat :=
  (List.range c.size).flatMap (fun i =>
    let x := c.ins i
    if !x.valid then [i]
    else match x.kind with
    | .jtab len =>
      if len = 0 ∨ c.size ≤ i + len then [i]
      else ((List.range len).map (· + (i + 1))).filter (fun j => match (c.ins j).kind with | .goto _ => !(c.ins j).valid | _ => true)
    | _ => [])

/-! ### Failures (R181) -/

/-- A failed check: status, task, place, arguments. -/
structure Fail where
  status : Nat
  task : Nat
  loc : Nat
  args : List Nat
deriving DecidableEq, Repr

/-- A task's code [a, e), cut at the end of CODE (R174). -/
def Task.span (t : Task) (c : Code) : Nat × Nat := (t.entry, max t.entry (min (t.entry + t.codeLen) c.size))

def indices (a e : Nat) : List Nat := (List.range (e - a)).map (· + a)

/-! ### Required features (R77, R132) -/

/-- The fields of FEAT0 to FEAT3: register, lowest bit, width, and how the requirement is met: 0 bit by bit, 1 not above, 2 equal. -/
def featFields : List (Nat × Nat × Nat × Nat) :=
  [(0, 0, 1, 0), (0, 1, 1, 0), (0, 2, 1, 0), (0, 3, 1, 0), (0, 4, 1, 0), (0, 5, 1, 0), (0, 6, 1, 0), (0, 8, 4, 1), (0, 12, 4, 1), (0, 16, 6, 1),
   (1, 0, 8, 1), (1, 8, 8, 2), (1, 16, 8, 1), (2, 0, 32, 0), (3, 0, 5, 1), (3, 5, 5, 1), (3, 10, 5, 1)]

def featFails (need have' : Nat → Nat) : List Fail :=
  featFields.filterMap (fun f =>
    let n := fld (need f.1) f.2.1 f.2.2.1
    let h := fld (have' f.1) f.2.1 f.2.2.1
    let bad := if f.2.2.2 = 1 then decide (h < n) else if f.2.2.2 = 2 then n != h else n &&& h != n
    if bad then some { status := 0x040D, task := 0xFFFF, loc := 0xFFFFFFFF, args := [f.1, f.2.1, n, h, 0] } else none)

/-- Arithmetic-unit instructions of tasks on L0 to L5. -/
def placementFails (c : Code) (ts : List Task) : List Fail :=
  (ts.mapIdx (fun k t =>
    if 6 ≤ t.lane then []
    else (indices (t.span c).1 (t.span c).2).filterMap (fun i =>
      if (c.ins i).arith then some { status := 0x040D, task := k, loc := i, args := [0, 7, 1, 0, 0] } else none))).flatten

/-! ### Control flow (R121, R125 to R130) -/

/-- The back edge of the LOOP at i cannot be taken: its start is LPI with a count of 1. -/
def Code.single (c : Code) (i rc : Nat) (off : Int) : Bool :=
  let t := (i : Int) + off
  decide (1 ≤ t) && (match (c.ins (t.toNat - 1)).kind with | .lpi r n => r == rc && n == 1 | _ => false)

/-- Where control goes from i without back edges and beyond REST (R121); targets may lie anywhere. -/
def Code.forward (c : Code) (i : Nat) : List Int :=
  match (c.ins i).kind with
  | .rest => []
  | .goto off => [(i : Int) + off]
  | .branch off => [(i : Int) + off, (i : Int) + 1]
  | .jtab len => (List.range (len + 1)).map (fun k => (i : Int) + 1 + k)
  | _ => [(i : Int) + 1]

/-- The successors of i inside a task [a, e), with the back edge of LOOP and the edge from REST to the entry (R121). -/
def Code.succ (c : Code) (a e i : Nat) : List Nat :=
  let back : List Int := match (c.ins i).kind with
    | .loop rc off => if c.single i rc off then [] else [(i : Int) + off]
    | .rest => [(a : Int)]
    | _ => []
  ((c.forward i ++ back).filter (fun d => decide ((a : Int) ≤ d) && decide (d < e))).map Int.toNat

/-- A counted loop: first instruction of the body, its LOOP, rc, and the start instruction's kind. -/
structure Loop where
  first : Nat
  last : Nat
  rc : Nat
  start : Kind
deriving DecidableEq, Repr

/-- The well-formed loops of a task: LOOP with offset at most 0 behind its start instruction (R126). -/
def Code.loops (c : Code) (a e : Nat) : List Loop :=
  (indices a e).filterMap (fun l =>
    match (c.ins l).kind with
    | .loop rc off =>
      let t := ((l : Int) + off).toNat
      if off ≤ 0 ∧ (a : Int) + 1 ≤ (l : Int) + off then
        match (c.ins (t - 1)).kind with
        | .lpi r n => if r = rc then some { first := t, last := l, rc := rc, start := .lpi r n } else none
        | .lpr r n => if r = rc then some { first := t, last := l, rc := rc, start := .lpr r n } else none
        | _ => none
      else none
    | _ => none)

/-- A failure of 0x0402 in one task: place, reason, related index. -/
abbrev FlowFault := Nat × Nat × Nat

/-- Reasons 1, 2, 3, 7 and 9 at one instruction. Whether rc is g0 is judged at the LOOP, which LOC names, and a JTAB with several targets beyond
the task names the lowest of them (DESIGN CHOICE, log entry 48). -/
def Code.flowAt (c : Code) (bounds : Nat) (ls : List Loop) (e i : Nat) : List FlowFault :=
  let idx (d : Int) : Nat := unsgn 32 d
  let jump (off : Int) : List FlowFault :=
    let d := (i : Int) + off
    if off ≤ 0 then [(i, 1, idx d)] else if (e : Int) ≤ d then [(i, 9, idx d)] else []
  match (c.ins i).kind with
  | .goto off => jump off
  | .branch off => jump off
  | .jtab len => if e ≤ i + 1 + len then [(i, 9, max e (i + 1))] else []
  | .lpi _ n => if n = 0 then [(i, 7, 0)] else []
  | .lpr _ k => if bounds ≤ k then [(i, 7, k)] else []
  | .loop rc off =>
    (if ls.any (fun l => l.last == i) then [] else [(i, 2, idx ((i : Int) + off))]) ++ (if rc = 0 then [(i, 3, idx ((i : Int) + off))] else [])
  | _ => []

/-- Reasons 4, 5 and 6: what concerns loop bodies. R181 gives LOC and ARG1 no more than 'instruction index' and 'related index', so the model
chooses: for 4 the writer and the LOOP, for 5 the branch and its target, for 6 the LOOP that ends later and the other LOOP. A body that begins
at another loop's LOOP overlaps that loop: the LOOP counts as the last instruction of its loop. DESIGN CHOICE, log entry 48. -/
def Code.flowLoops (c : Code) (ls : List Loop) (a e : Nat) : List FlowFault :=
  let body := ls.flatMap (fun l => (indices l.first l.last).filterMap (fun j =>
    if (c.ins j).writes.any (fun w => w.1 == l.rc) then some (j, 4, l.last) else none))
  let entry := (indices a e).flatMap (fun i =>
    match (c.ins i).kind with
    | .goto _ | .branch _ | .jtab _ =>
      (c.forward i).flatMap (fun d => ls.filterMap (fun l =>
        if (l.first : Int) ≤ d ∧ d ≤ l.last ∧ (i < l.first ∨ l.last < i) ∧ d ≠ (i : Int) + 1 then some (i, 5, d.toNat) else none))
    | _ => [])
  let over' := ls.flatMap (fun x => ls.filterMap (fun y =>
    if x.first < y.first ∧ y.first ≤ x.last ∧ x.last < y.last then some (y.last, 6, x.last) else none))
  body ++ entry ++ over'

/-- The instructions that control reaches from the entry: back edges add none. -/
def Code.reached (c : Code) (a e : Nat) : Array Bool :=
  (indices a e).foldl (fun (r : Array Bool) i =>
    if r.getD (i - a) false then
      (c.succ a e i).foldl (fun (r : Array Bool) d => r.setIfInBounds (d - a) true) r
    else r) ((Array.replicate (e - a) false).setIfInBounds 0 true)

/-- Reason 8: control runs off the end of the task's code; LOC is the last instruction and the related index the end (DESIGN CHOICE, log entry
48). -/
def Code.flowEnd (c : Code) (a e : Nat) : List FlowFault :=
  if e ≤ a then [(a, 8, 0)]
  else
    let i := e - 1
    let falls := match (c.ins i).kind with
      | .rest | .goto _ | .jtab _ => false
      | _ => true
    if (c.reached a e).getD (i - a) false && falls then [(i, 8, e)] else []

def flowLess (x y : FlowFault) : Bool := decide (x.1 < y.1) || (x.1 == y.1 && decide (x.2.1 < y.2.1))

/-- The least element of a list under an order. -/
def least {α : Type} (lt : α → α → Bool) : List α → Option α
  | [] => none
  | x :: r =>
    match least lt r with
    | none => some x
    | some y => if lt y x then some y else some x

/-- The failure of 0x0402 in a task, when there is one (R514). -/
def Code.flowFault (c : Code) (bounds : Nat) (t : Task) : Option FlowFault :=
  let p := t.span c
  let ls := c.loops p.1 p.2
  least flowLess ((indices p.1 p.2).flatMap (fun i => c.flowAt bounds ls p.2 i) ++ c.flowLoops ls p.1 p.2 ++ c.flowEnd p.1 p.2)

/-! ### Distances (R116 to R121) -/

/-- Instructions reached within a number of steps, first from `frontier` at distance d, that satisfy `p`; no path goes on beyond one that
satisfies `stop`. -/
def within (succ : Nat → List Nat) (p : Nat → Nat → Bool) (stop : Nat → Bool) : Nat → Nat → List Nat → List (Nat × Nat)
  | 0, _, _ => []
  | n + 1, d, fr =>
    (fr.filter (p d)).map (fun j => (j, d)) ++ within succ p stop n (d + 1) ((fr.filter (fun j => !stop j)).flatMap succ).eraseDups

/-- A broken distance rule: reader, register, distance, writer, distance needed. -/
abbrev DistFault := Nat × Nat × Nat × Nat × Nat

/-- The distance that a later write of special register x by y must keep from a write with distance `need` (R120). -/
def orderNeed (y : Ins) (x need : Nat) : Nat :=
  if y.writes.any (fun w => w.1 == x) then
    match y.kind with
    | .mts => need
    | _ => if need = 12 ∧ y.writes.any (fun w => w.1 == x && w.2 == 4) then 9 else 0
  else 0

/-- The broken distance rules of the results that instruction i writes. A refusal for the order of two writes (R120) has no reader: LOC is the
later writer and ARG0 the earlier one (DESIGN CHOICE, log entry 48). -/
def Code.distAt (c : Code) (a e i : Nat) : List DistFault :=
  (c.ins i).writes.flatMap (fun w =>
    if w.2 ≤ 1 then []
    else
      let writesX (j : Nat) : Bool := (c.ins j).writes.any (fun v => v.1 == w.1)
      let first := (c.succ a e i).eraseDups
      let early := (within (c.succ a e) (fun _ j => (c.ins j).reads.contains w.1) writesX (w.2 - 1) 1 first).map (fun r =>
        (r.1, w.1, r.2, i, w.2))
      let order :=
        if w.1 < 33 then []
        else (within (c.succ a e) (fun d j => decide (d < orderNeed (c.ins j) w.1 w.2)) (fun _ => false) (w.2 - 1) 1 first).map (fun r =>
          (r.1, w.1, r.2, i, orderNeed (c.ins r.1) w.1 w.2))
      early ++ order)

def distLess (x y : DistFault) : Bool :=
  decide (x.1 < y.1) || (x.1 == y.1 && (decide (x.2.1 < y.2.1) || (x.2.1 == y.2.1 && (decide (x.2.2.1 < y.2.2.1) ||
    (x.2.2.1 == y.2.2.1 && decide (x.2.2.2.1 < y.2.2.2.1))))))

/-- The failure of 0x0403 in a task (R514). -/
def Code.distFault (c : Code) (t : Task) : Option DistFault :=
  let p := t.span c
  least distLess ((indices p.1 p.2).flatMap (c.distAt p.1 p.2))

/-! ### Path lengths (R167, R168, R172) -/

/-- A loop collapsed to a node: passes counted, one pass, and its exits as target (`none` for REST) and count (R168). -/
structure Node where
  first : Nat
  last : Nat
  n : Nat
  w : Option Nat
  exits : List (Option Nat × Nat)
deriving DecidableEq, Repr

/-- The counts before each instruction of a region that starts at lo, and what leaves it. -/
structure Walk where
  vals : Array (Option Nat)
  outs : List (Option Nat × Nat)

def better (big : Bool) (x y : Nat) : Nat := if big then max x y else min x y

/-- A count v arrives at target d. -/
def Walk.reach (k : Walk) (big : Bool) (lo hi : Nat) (d : Option Nat) (v : Nat) : Walk :=
  match d with
  | none => { k with outs := (none, v) :: k.outs }
  | some t =>
    if lo ≤ t ∧ t ≤ hi then
      let new := match k.vals.getD (t - lo) none with
        | none => v
        | some u => better big u v
      { k with vals := k.vals.setIfInBounds (t - lo) (some new) }
    else { k with outs := (some t, v) :: k.outs }

/-- The longest or shortest counts from lo through [lo, hi], inner loops collapsed; `own` when hi is the region's own LOOP. -/
def Code.walk (c : Code) (nodes : List Node) (big own : Bool) (lo hi : Nat) : Walk :=
  let start : Walk := { vals := (Array.replicate (hi + 1 - lo) none).setIfInBounds 0 (some 0), outs := [] }
  (indices lo (hi + 1)).foldl (fun (k : Walk) i =>
    match k.vals.getD (i - lo) none with
    | none => k
    | some v =>
      match nodes.find? (fun m => m.first == i) with
      | some m =>
        let k := match m.w with
          | none => k
          | some w => k.reach big lo hi (some (m.last + 1)) (v + m.n * w)
        let full := if big then (m.n - 1) * m.w.getD 0 else 0
        m.exits.foldl (fun (k : Walk) x => k.reach big lo hi x.1 (v + full + x.2)) k
      | none =>
        if own && i == hi then k
        else match (c.ins i).kind with
        | .rest => k.reach big lo hi none (v + 1)
        | _ => (c.forward i).foldl (fun (k : Walk) d => k.reach big lo hi (some d.toNat) (v + 1)) k) start

/-- The nodes of a task's loops, innermost first: an inner LOOP stands before the outer one. -/
def Code.nodes (c : Code) (bounds : List Nat) (big : Bool) (ls : List Loop) : List Node :=
  ls.foldl (fun ns l =>
    let k := c.walk ns big true l.first l.last
    let n := match l.start with
      | .lpi _ n => n
      | .lpr _ b => if big then bounds.getD b 1 else 1
      | _ => 1
    let w := (k.vals.getD (l.last - l.first) none).map (· + 1)
    ns ++ [{ first := l.first, last := l.last, n := n, w := w, exits := k.outs }]) []

/-- C of a task (R168): the longest path from its entry to any REST. -/
def Code.wcet (c : Code) (bounds : List Nat) (t : Task) : Nat :=
  let p := t.span c
  if p.2 ≤ p.1 then 0
  else
    let k := c.walk (c.nodes bounds true (c.loops p.1 p.2)) true false p.1 (p.2 - 1)
    (k.outs.filter (fun o => o.1.isNone)).foldl (fun m o => max m o.2) 0

/-! ### WDK (R171, R172, R516) -/

def Code.isWdk (c : Code) (i : Nat) : Bool := match (c.ins i).kind with | .wdk => true | _ => false
def Code.isRest (c : Code) (i : Nat) : Bool := match (c.ins i).kind with | .rest => true | _ => false

def Code.wdks (c : Code) (t : Task) : List Nat := (indices (t.span c).1 (t.span c).2).filter c.isWdk

/-- For every instruction, whether a path without and a path with a WDK before it reach it. -/
def Code.wdkPaths (c : Code) (a e : Nat) : Array (Bool × Bool) :=
  (indices a e).foldl (fun (r : Array (Bool × Bool)) i =>
    let x := r.getD (i - a) (false, false)
    let y := if c.isWdk i then (false, x.1 || x.2) else x
    ((c.forward i).filter (fun d => decide ((a : Int) ≤ d) && decide (d < e))).foldl (fun (r : Array (Bool × Bool)) d =>
      let z := r.getD (d.toNat - a) (false, false)
      r.setIfInBounds (d.toNat - a) (z.1 || y.1, z.2 || y.2)) r) ((Array.replicate (e - a) (false, false)).setIfInBounds 0 (true, false))

/-- Reasons 1 to 5 of R171 in the order of R516: reason, task, place. -/
def Code.wdkFault (c : Code) (ts : List Task) (super : Nat) : Option (Nat × Nat × Nat) :=
  match ts[super]? with
  | none => none
  | some t =>
    let ws := c.wdks t
    let p := t.span c
    let r := c.wdkPaths p.1 p.2
    let other := (ts.mapIdx (fun k u => if k = super then none else (c.wdks u).head?.map (fun i => (k, i)))).findSome? id
    let inLoop := ws.find? (fun i => (c.loops p.1 p.2).any (fun l => decide (l.first ≤ i) && decide (i ≤ l.last)))
    let none' := (indices p.1 p.2).find? (fun i => c.isRest i && (r.getD (i - p.1) (false, false)).1)
    let twice := ws.find? (fun i => (r.getD (i - p.1) (false, false)).2)
    if ws = [] then some (1, super, 0xFFFFFFFF)
    else match other, inLoop, none', twice with
    | some (k, i), _, _, _ => some (2, k, i)
    | none, some i, _, _ => some (5, super, i)
    | none, none, some i, _ => some (3, super, i)
    | none, none, none, some i => some (4, super, i)
    | none, none, none, none => none

/-- n_min, n_max, and the WDK of lowest index that ends a longest path (R172, R516). -/
def Code.wdkCounts (c : Code) (bounds : List Nat) (t : Task) : Nat × Nat × Nat :=
  let p := t.span c
  let ls := c.loops p.1 p.2
  let vals (big : Bool) : Array (Option Nat) := (c.walk (c.nodes bounds big ls) big false p.1 (p.2 - 1)).vals
  let lo := vals false
  let hi := vals true
  let ws := c.wdks t
  let mins := ws.filterMap (fun i => (lo.getD (i - p.1) none).map (· + 1))
  let maxs := ws.filterMap (fun i => (hi.getD (i - p.1) none).map (fun v => (v + 1, i)))
  let nMax := maxs.foldl (fun m x => max m x.1) 0
  (match mins with
    | [] => 0
    | x :: r => r.foldl min x, nMax, ((maxs.find? (fun x => x.1 == nMax)).map Prod.snd).getD 0)

end Sys2Proof.Machine
end

