-- ==== Sys2Proof/Machine/Examine.lean ====
section
/-! DEFINITION. The innkeeper's examination of a waybill (R156 to R182, R219, R222, R223, R482, R483, R514, R516): the checks in table order, the
analysis of a configuration that passes, and the detail record. -/

namespace Sys2Proof.Machine

/-- D of R165. -/
def Task.deadlineSlots (t : Task) : Nat := 2500 * t.k - 101

/-! ### Response times (R169) -/

/-- The iteration of R169 from r: the value it ends at, and whether it is a response within D. -/
def iterate (c d extra : Nat) (hi : List (Nat × Nat)) : Nat → Nat → Nat × Bool
  | 0, r => (r, true)
  | n + 1, r =>
    let next := c + extra + ceilDiv r 2500 + (hi.map (fun h => ceilDiv r (2500 * h.1) * h.2)).foldl (· + ·) 0
    if d < next then (next, false) else if next = r then (r, true) else iterate c d extra hi n next

/-- K and C of the tasks above task i on its lane. -/
def above (ts : List Task) (cost : Nat → Nat) (t : Task) : List (Nat × Nat) :=
  ts.zipIdx.filterMap (fun u => if u.1.lane = t.lane ∧ u.1.prio < t.prio then some (u.1.k, cost u.2) else none)

/-- The response of a task with cost c, `extra` slots added to its r (R169, R180). -/
def response (ts : List Task) (cost : Nat → Nat) (extra : Nat) (t : Task) (c : Nat) : Nat × Bool :=
  iterate c t.deadlineSlots extra (above ts cost t) (t.deadlineSlots + 2) (c + extra)

/-- The failing task of R514: lowest lane, on it highest priority. -/
def worst (ts : List Task) (bad : Task → Nat → Bool) : Option (Task × Nat) :=
  least (fun x y => decide (x.1.lane < y.1.lane) || (x.1.lane == y.1.lane && decide (x.1.prio < y.1.prio)))
    (ts.zipIdx.filter (fun u => bad u.1 u.2))

def laneFail (ts : List Task) (cost : Nat → Nat) : Option Fail :=
  (worst ts (fun t i => !(response ts cost 0 t (cost i)).2)).map (fun u =>
    { status := 0x0401, task := u.2, loc := u.1.lane, args := [cost u.2, u.1.deadlineSlots, (response ts cost 0 u.1 (cost u.2)).1, u.1.prio, 0] })

/-! ### Code store, rooms and data memory (R173, R174, R222) -/

def storeFail (ts : List Task) (words : Nat) : Option Fail :=
  let total := (ts.map Task.codeLen).foldl (· + ·) 0
  if 524288 < total then some { status := 0x040B, task := 0xFFFF, loc := 0, args := [total, 524288, 0, 0, 0] }
  else match ts.zipIdx.find? (fun u => decide (words < u.1.entry + u.1.codeLen)) with
    | none => none
    | some u => some { status := 0x040B, task := u.2, loc := 0, args := [u.1.entry + u.1.codeLen, words, 0, 0, 0] }

/-- Windows one after the other in TASK order, the private one first (R166). -/
def packWindows : Nat → List Task → List (Nat × Nat)
  | _, [] => []
  | a, t :: r => (a, a + t.privLen) :: packWindows (a + t.privLen + t.retLen) r

/-- The lowest free 64-byte-aligned address for a window (R222). -/
def lowestFree (used : List (Nat × Nat)) (len : Nat) : Nat :=
  let ends := sortNats (0 :: used.map (fun u => u.1 + u.2))
  (ends.find? (fun a => used.all (fun u => decide (a + len ≤ u.1) || decide (u.1 + u.2 ≤ a)))).getD 0

/-- Lengths and addresses of a configuration's windows. -/
def Conf.windows (c : Conf) : List (Nat × Nat) :=
  (c.way.tasks.mapIdx (fun i t => [(c.an.privBase.getD i 0, t.privLen), (c.an.retBase.getD i 0, t.retLen)])).flatten

/-- The windows of a swap's tasks: new-layout tasks get new ones beside all old ones. -/
def swapWindows (old : Conf) (ts : List Task) (fresh : Nat → Bool) : List (Nat × Nat) :=
  ((ts.zipIdx.foldl (fun (acc : List (Nat × Nat) × List (Nat × Nat)) u =>
    if fresh u.2 then
      let p := lowestFree acc.2 u.1.privLen
      let used := (p, u.1.privLen) :: acc.2
      let r := lowestFree used u.1.retLen
      ((p, r) :: acc.1, (r, u.1.retLen) :: used)
    else ((old.an.privBase.getD u.2 0, old.an.retBase.getD u.2 0) :: acc.1, acc.2)) ([], old.windows)).1).reverse

def windowBytes (ts : List Task) : Nat := (ts.map (fun t => t.privLen + t.retLen)).foldl (· + ·) 0

/-- R173, for bytes requested in all and the windows given. -/
def memoryFail (ts : List Task) (bytes : Nat) (ws : List (Nat × Nat)) : Option Fail :=
  let ret := (ts.map Task.retLen).foldl (· + ·) 0
  let f (reason n lim : Nat) : Option Fail := some { status := 0x0404, task := 0xFFFF, loc := 0, args := [reason, n, lim, 0, 0] }
  let outside := ts.zipIdx.any (fun u => let w := ws.getD u.2 (0, 0); decide (0x200000 < w.1 + u.1.privLen) || decide (0x200000 < w.2 + u.1.retLen))
  if 100 < ts.length then f 1 ts.length 100
  else if 0x200000 < bytes ∨ outside = true then f 2 bytes 0x200000
  else if 98304 < ret then f 3 ret 98304
  else none

/-- Rooms (R166): those of the TASKIDs known, else the lowest free. -/
def assignRooms (known : List (Nat × Nat)) (ts : List Task) : List Nat :=
  let kept (t : Task) : Option Nat := (known.find? (fun k => k.1 == t.taskId)).map Prod.snd
  let taken := ts.filterMap kept
  (ts.foldl (fun (acc : List Nat × List Nat) t =>
    match kept t with
    | some r => (r :: acc.1, acc.2)
    | none =>
      let r := ((List.range 200).find? (fun r => !acc.2.contains r)).getD 0
      (r :: acc.1, r :: acc.2)) ([], taken)).1.reverse

/-- Publication areas (R204): stamp and area of every task that publishes, in TASK order. -/
def pubBases : Nat → List Task → List Nat
  | _, [] => []
  | a, t :: r => a :: pubBases (if t.pubLen = 0 then a else a + 4 + t.pubLen) r

/-! ### Ownership (R175, R311) -/

/-- The channels that a multi-channel mode occupies beside its first (R163). -/
def ChanCfg.alsoUses (e : ChanCfg) : List Nat :=
  if e.mode = 0x1A then [e.ch + 1, e.ch + 2, e.ch + 3] else if e.mode = 0x12 ∨ e.mode = 0x19 ∨ e.mode = 0x1C then [e.ch + 1] else []

/-- Two cycle entries give one word, or one buffer, to different owners. -/
def cycClash (w : Way) (a b : CanCyc) : Bool :=
  let span (c : CanCyc) : Nat × Nat := match (w.bufs.filter (fun x => x.port == c.port))[c.buf]? with
    | none => (0, 0)
    | some x => (x.txoff, x.txoff + (canPayload x.dlc + 3) / 4 * 4)
  a.port == b.port && a.owner != b.owner && a.owner != 0xFFFF && b.owner != 0xFFFF &&
    (a.buf == b.buf || (decide ((span a).1 < (span b).2) && decide ((span b).1 < (span a).2)))

/-- The failures of R175 as LOC, reason, TASK and second TASK. -/
def ownership (w : Way) : List (Nat × Nat × Nat × Nat) :=
  let chans := w.chans.flatMap (fun e =>
    (if e.isOutput && e.owner == 0xFFFF then [(e.ch, 2, 0xFFFF, 0xFFFF)] else []) ++
    (if !e.isOutput && e.owner != 0xFFFF then [(e.ch, 3, e.owner, 0xFFFF)] else []) ++
    (if w.chans.any (fun q => q.alsoUses.contains e.ch) then [(e.ch, 4, 0xFFFF, 0xFFFF)] else []))
  let cycs := w.cycs.flatMap (fun a =>
    (if a.owner = 0xFFFF then [(256 + a.port, 2, 0xFFFF, 0xFFFF)] else []) ++
    w.cycs.filterMap (fun b => if cycClash w a b then some (256 + a.port, 1, min a.owner b.owner, max a.owner b.owner) else none))
  chans ++ cycs

def ownershipFail (w : Way) : Option Fail :=
  (least (fun (x y : Nat × Nat × Nat × Nat) => decide (x.1 < y.1) || (x.1 == y.1 && (decide (x.2.1 < y.2.1) ||
    (x.2.1 == y.2.1 && (decide (x.2.2.1 < y.2.2.1) || (x.2.2.1 == y.2.2.1 && decide (x.2.2.2 < y.2.2.2))))))) (ownership w)).map (fun x =>
      { status := 0x040A, task := x.2.2.1, loc := x.1, args := [x.2.1, x.2.2.2, 0, 0, 0] })

/-! ### Group engines and heat (R176, R177, R238, R274) -/

def chansOfGroup (w : Way) (g : Nat) : List ChanCfg := w.chans.filter (fun e => e.ch / 16 == g)

def engineSlots (w : Way) (g : Nat) : Nat := ((chansOfGroup w g).map (fun e => e.rate * e.sps)).foldl (· + ·) 0

/-- The sum is above 31 000 slots, or the steward builds no slot schedule of R274 (log entry 13). -/
def engineFail (w : Way) : Option Fail :=
  ((List.range 12).find? (fun g =>
    let use := schedUse w g
    decide (31000 < engineSlots w g) || (use != [] && !schedOk use (Config.slotSchedule use)))).map (fun g =>
      { status := 0x0406, task := 0xFFFF, loc := g, args := [engineSlots w g, 31000, 0, 0, 0] })

/-- Counted dissipation of a channel in nW (R177). -/
def ChanCfg.heat (e : ChanCfg) : Nat :=
  let di (type3 : Bool) : Nat := if type3 then 90000000 else 45000000
  if e.mode = 1 then di false
  else if e.mode = 2 then di true
  else if e.mode = 3 then di (e.pf 12 1 == 1)
  else if e.isDout then 10000000 + 300 * e.iload ^ 2 + 10000 * e.eoff * e.foff
  else if e.mode = 0x10 then 30000000
  else if e.mode = 0x11 ∨ e.mode = 0x12 then 5000000 * (1 + e.alsoUses.length)
  else if e.isAin then 10000000 * (1 + e.alsoUses.length)
  else if e.mode = 0x20 then 30000000 + (720000000 - 576000 * e.rload)
  else if e.mode = 0x21 then 100000000
  else if e.mode = 0x22 then 2400000 * e.vloop - 576000 * e.rload
  else 0

def groupHeat (w : Way) (g : Nat) : Nat := ((chansOfGroup w g).map ChanCfg.heat).foldl (· + ·) 0
/-- INN_GRPg.POWER: whole mW, rounded up. -/
def groupPower (w : Way) (g : Nat) : Nat := ceilDiv (groupHeat w g) 1000000
def groupCurrent (w : Way) (g : Nat) : Nat := (((chansOfGroup w g).filter ChanCfg.isOutput).map ChanCfg.iload).foldl (· + ·) 0

def heatFail (w : Way) : Option Fail :=
  ((List.range 12).find? (fun g => decide (2500000000 < groupHeat w g) || decide (4000 < groupCurrent w g))).map (fun g =>
    { status := 0x0405, task := 0xFFFF, loc := g, args := [groupPower w g, 2500, groupCurrent w g, 4000, 0] })

/-! ### Bus cycle tables (R178, R320) -/

/-- Worst-case time in whole µs of a cycle entry's frame at its port's rates; an automatic port counts 125 kbit/s and 2 Mbit/s. -/
def cycTime (w : Way) (p : CanPortCfg) (c : CanCyc) : Nat :=
  match (w.bufs.filter (fun x => x.port == p.port))[c.buf]? with
  | none => 0
  | some b =>
    let t := if p.auto then frameTime b (nomTiming 3) (dataTiming 3)
      else frameTime b (nbtWord p.nbrp p.ntseg1 p.ntseg2 p.nsjw) (dbtWord p.dbrp p.dtseg1 p.dtseg2 p.dsjw p.tdco)
    ceilDiv t usCycles

/-- The failures of a port as entry index, reason, needed, available, task. A count that is too large names the first entry beyond the limit
(R312); the bus task of reason 5 has no entry and takes index 0 (DESIGN CHOICE, log entry 48). -/
def cycleFailures (w : Way) (k : Nat) : List (Nat × Nat × Nat × Nat × Nat) :=
  let es := (w.entriesOf k).zipIdx
  let count (n lim : Nat) : List (Nat × Nat × Nat × Nat × Nat) := if lim < n then [(lim, 1, n, lim, 0xFFFF)] else []
  let counts := count (w.filters.filter (fun f => f.port == k)).length 64 ++ count (w.bufs.filter (fun b => b.port == k)).length 32 ++
    count es.length 256
  match w.ports.find? (fun p => p.port == k) with
  | none => counts
  | some p =>
    let one := es.flatMap (fun e =>
      let c := e.1
      (es.filter (fun f => decide (e.2 < f.2) && decide (c.wopen < f.1.wclose) && decide (f.1.wopen < c.wclose))).map (fun f =>
        (e.2, 2, if c.wopen ≤ f.1.wopen then c.wclose else f.1.wclose, max c.wopen f.1.wopen, 0xFFFF)) ++
      (if c.wclose < c.wopen + cycTime w p c + 2 then [(e.2, 3, cycTime w p c + 2, c.wclose - c.wopen, 0xFFFF)] else []) ++
      (if 50 * p.cycle < c.wclose then [(e.2, 4, c.wclose, 50 * p.cycle, 0xFFFF)] else []))
    let bus := match w.tasks[p.bustask]? with
      | none => []
      | some t => if p.bustask ≠ 0xFFFF ∧ t.k ≠ p.cycle then [(0, 5, p.cycle, t.k, p.bustask)] else []
    counts ++ one ++ bus

def cycleFail (w : Way) : Option Fail :=
  (List.range 4).findSome? (fun k =>
    (least (fun (x y : Nat × Nat × Nat × Nat × Nat) => decide (x.1 < y.1) || (x.1 == y.1 && decide (x.2.1 < y.2.1))) (cycleFailures w k)).map (fun x =>
      { status := 0x0407, task := x.2.2.2.2, loc := k, args := [x.1, x.2.1, x.2.2.1, x.2.2.2.1, 0] }))

/-! ### Post road and switch slot (R179, R180, R224) -/

def roadFail (w : Way) : Option Fail :=
  let n := inputLen w w.tasks.length
  if 17000 < n then some { status := 0x0409, task := 0xFFFF, loc := 0, args := [n, 17000, 0, 0, 0] } else none

/-- M: bytes that the migration table copies. -/
def migrBytes (w : Way) : Nat :=
  (w.migr.map (fun m => ((w.vars.find? (fun v => v.id == m.newVar)).map Var.size).getD 0)).foldl (· + ·) 0

/-- S: slots that the switch takes on every lane. -/
def switchSlots (w : Way) : Nat := max 1 (ceilDiv (migrBytes w) 32)

def switchFail (old : Conf) (w : Way) (cost : Nat → Nat) : Option Fail :=
  let m := migrBytes w
  let big (i : Nat) : Nat := max (cost i) (old.an.wcet.getD i 0)
  let f (task a2 a3 a4 : Nat) : Fail := { status := 0x0408, task := task, loc := 0, args := [m, 40000, a2, a3, a4] }
  if 40000 < m then some (f 0xFFFF 0 0 0)
  else
    let r (t : Task) (i : Nat) : Nat × Bool := response w.tasks big (switchSlots w) t (big i)
    (worst w.tasks (fun t i => !(r t i).2)).map (fun u => f u.2 u.1.lane (r u.1 u.2).1 u.1.deadlineSlots)

/-! ### Night porter (R171, R172) -/

/-- Window of the supervisor: open and close, with R_w computed under the costs of R169. -/
def porterWindow (ts : List Task) (cost : Nat → Nat) (t : Task) (nMin nMax : Nat) : Nat × Nat :=
  let open' := 8 * (nMin + (nMin - 1) / 2499) + t.lane + 5
  let rw' := (response ts cost 0 t nMax).1
  (open', max (8 * (rw' - 1) + t.lane + 6) (open' + 4000))

def porterFail (c : Code) (w : Way) (cost : Nat → Nat) : Option Fail :=
  let f (reason task loc o x : Nat) : Option Fail := some { status := 0x040C, task := task, loc := loc, args := [reason, o, x, 0, 0] }
  match c.wdkFault w.tasks w.super, w.tasks[w.super]? with
  | some x, _ => f x.1 x.2.1 x.2.2 0 0
  | none, some t =>
    let n := c.wdkCounts w.bound t
    let p := porterWindow w.tasks cost t n.1 n.2.1
    if 20000 * t.k - 800 < p.2 then f 6 w.super n.2.2 p.1 p.2 else none
  | none, none => none

/-! ### Swap rules (R219, R223) -/

/-- The first place at which a section differs from that of the running configuration. -/
def sectionDiff (new old : List Byte) (typ : Nat) : List FormFault :=
  let es (bs : List Byte) : List (Nat × List Byte) := entriesOf bs (sections bs) typ
  let a := es new
  let b := es old
  match (List.range (max a.length b.length)).find? (fun i => (a[i]?).map Prod.snd != (b[i]?).map Prod.snd) with
  | none => []
  | some i => match a[i]?, findSect (sections new) typ with
    | some e, _ => [(e.1, 0x0119)]
    | none, some g => [(g.off + g.len, 0x0119)]
    | none, none => [(64, 0x0119)]

/-- Bound-table entries that a task's code names. -/
def Code.boundsOf (c : Code) (t : Task) : List Nat :=
  (indices (t.span c).1 (t.span c).2).filterMap (fun i => match (c.ins i).kind with | .lpr _ k => some k | _ => none)

/-- A task differs in what a swap may not change; `loc` is its entry's place. -/
def taskDiff (code : Code) (old : Conf) (new : Way) (places : Nat → List (Nat × List Byte)) (i : Nat) (loc : Nat) : List FormFault :=
  match old.task i, new.tasks[i]? with
  | some a, some b =>
    let fixed := a.taskId == b.taskId && a.lane == b.lane && a.prio == b.prio && a.k == b.k && a.cls == b.cls && a.pubLen == b.pubLen
    if !fixed then [(loc, 0x0119)]
    else if b.changed then []
    else
      let words := (List.range b.codeLen).find? (fun j => new.code[b.entry + j]? != old.way.code[a.entry + j]?)
      let va := old.way.varsOf i
      let vb := (places 4).filter (fun e => (parseVar e.2).task == i)
      let vars := (List.range (max va.length vb.length)).find? (fun j => va[j]? != (vb[j]?).map (fun e => parseVar e.2))
      (if a.codeLen != b.codeLen || a.privLen != b.privLen || a.retLen != b.retLen then [(loc, 0x0119)] else []) ++
      (match words with
        | none => []
        | some j => [(((places 1)[b.entry + j]?).elim loc Prod.fst, 0x0119)]) ++
      (match vars with
        | none => []
        | some j => [((vb[j]?).elim loc Prod.fst, 0x0119)]) ++
      (code.boundsOf b).filterMap (fun k =>
        if new.bound[k]? != old.way.bound[k]? then some (((places 2)[k]?).elim loc Prod.fst, 0x0119) else none)
  | _, _ => [(loc, 0x0119)]

/-- R219. -/
def swapFaults (code : Code) (old : Conf) (bs : List Byte) (new : Way) : List FormFault :=
  let ss := sections bs
  let places (t : Nat) : List (Nat × List Byte) := entriesOf bs ss t
  let at0 := ((findSect ss 3).map Sect.off).getD 0
  let n := max old.way.tasks.length new.tasks.length
  (if new.swap then [] else [(6, 0x0119)]) ++ (if new.super = old.way.super then [] else [(20, 0x0119)]) ++
    ((List.range n).map (fun i => taskDiff code old new places i (at0 + 32 * i))).flatten ++
    [5, 6, 7, 8].flatMap (sectionDiff bs old.way.bytes) ++
    (if new.tasks.any Task.changed then [] else [(at0, 0x0119)])

/-- R223: an entry of the migration table that may not stand. -/
def migrBad (old : Conf) (new : Conf) (before : List Migr) (e : List Byte) : Bool :=
  let m := parseMigr e
  let nv := new.way.vars.find? (fun v => v.id == m.newVar)
  let ov := old.way.vars.find? (fun v => v.id == m.oldVar)
  let okNew := match nv with
    | none => false
    | some v => old.newLayout new v.task
  let init := m.op == 4
  let okOld := if init then m.oldVar == 0xFFFFFFFF
    else m.oldVar != 0xFFFFFFFF && m.value == 0 && (match nv, ov with
      | some a, some b => a.task == b.task &&
        (if m.op = 1 then a.size == b.size
         else decide (b.size < a.size) && (b.size == 1 || b.size == 2 || b.size == 4) && (a.size == 2 || a.size == 4 || a.size == 8))
      | _, _ => false)
  !(okNew && okOld && decide (1 ≤ m.op) && decide (m.op ≤ 4) && (slice e 9 3).all (· == 0) && before.all (fun q => q.newVar != m.newVar))

def migrFaults (old new : Conf) (es : List (Nat × List Byte)) : List FormFault :=
  (es.mapIdx (fun i e => if migrBad old new ((es.take i).map (fun q => parseMigr q.2)) e.2 then [(e.1, 0x011A)] else [])).flatten

/-! ### Form and signature (steps 1 and 2 of R156) -/

/-- The form fault named (R514), none when the form is right. With a faulty directory only what lies before the sections is judged: the
directory, and SUPER against the number of tasks that the TASK section's entry gives. -/
def formFault (bs : List Byte) : Option FormFault :=
  match headerFault bs with
  | some loc => some (loc, 0x0110)
  | none =>
    let ss := sections bs
    let dir := directoryFaults bs ss
    if dir ≠ [] then
      let super : List FormFault := match findSect ss 3 with
        | none => []
        | some g => if g.cnt ≤ u16 bs 20 then [(20, 0x0113)] else []
      firstFault (super ++ dir ++ layoutFaults bs ss false)
    else
      let es (t : Nat) : List (Nat × List Byte) := entriesOf bs ss t
      let code := decodeCode (codeWords bs ss)
      let base := ((findSect ss 1).map Sect.off).getD 0
      let ts := (es 3).map (fun e => parseTask e.2)
      let usesLpr := code.any (fun i => match i.kind with | .lpr _ _ => true | _ => false)
      firstFault (layoutFaults bs ss usesLpr ++ boundFaults (es 2) ++ featFaults (es 8) ++ taskFaults (u16 bs 20) (es 3) ++ varFaults ts (es 4) ++
        chanFaults ts.length (es 5) ++ canFaults ts.length (es 6) (es 7) ++ (codeFaults code).map (fun i => (base + 4 * i, 0x0117)))

/-- The status of R483, 0 when the signature is right. -/
def signatureStatus (c : Sec) (bs : List Byte) : Nat :=
  match findSect (sections bs) 0xFF with
  | none => 0x050B
  | some g =>
    let sig := (bs.drop g.off).take g.len
    let key := slice sig 16 1793
    let slot := u8 sig 0
    let digest := Config.shake256 ((bs.take 16 ++ toLe 4 0 ++ bs.drop 20).take (g.off + 1824))
    let known := if slot = 0xFF then c.oset == 0
      else decide (slot < 4) && c.oset.getLsbD slot && !c.orev.getLsbD slot && c.ohash.toList.getD slot [] == Config.shake256 key
    if g.len ≠ 3104 ∨ (slice sig 1 15 ++ slice sig 1809 15).any (· != 0) = true then 0x050B
    else if known = false then 0x0506
    else if Config.falconVerify key digest (slice sig 1824 1280) then 0
    else 0x0501

/-! ### The examination -/

/-- What an examination gives: the detail record's fields, and the configuration that passes. -/
structure Report where
  status : Nat
  failMask : Nat
  skipMask : Nat
  task : Nat
  loc : Nat
  args : List Nat
  conf : Option Conf
deriving DecidableEq, Repr

/-- The detail record (R181). -/
def Report.bytes (r : Report) : List Byte :=
  toLe 2 r.status ++ toLe 2 r.failMask ++ toLe 2 r.skipMask ++ toLe 2 r.task ++ toLe 4 r.loc ++ (slice (r.args.flatMap (toLe 4)) 0 20)

/-- A refusal at step 1 or 2 (R182). -/
def Report.early (status loc : Nat) : Report where
  status := status
  failMask := 0
  skipMask := 0
  task := 0
  loc := loc
  args := []
  conf := none

/-- Whether a check ran, and its failure. -/
abbrev Judged := Bool × Option Fail

def Judged.passed (j : Judged) : Bool := j.1 && j.2.isNone

/-- The thirteen checks in the order of R156; `old` is the running configuration of a code swap. -/
def checks (old : Option Conf) (code : Code) (w : Way) (memory : Option Fail) (cost : Nat → Nat) : List (Nat × Judged) :=
  let always (f : Option Fail) : Judged := (true, f)
  let when (b : Bool) (f : Option Fail) : Judged := if b then (true, f) else (false, none)
  let flow := (w.tasks.zipIdx).findSome? (fun u => (code.flowFault w.bound.length u.1).map (fun x =>
    ({ status := 0x0402, task := u.2, loc := x.1, args := [x.2.1, x.2.2, 0, 0, 0] } : Fail)))
  let dist := (w.tasks.zipIdx).findSome? (fun u => (code.distFault u.1).map (fun x =>
    ({ status := 0x0403, task := u.2, loc := x.1, args := [x.2.2.2.1, x.2.1, x.2.2.1, x.2.2.2.2, 0] } : Fail)))
  let feat := (featFails (fun n => (w.feat.getD n 0).toNat) (fun n => (feature n false).toNat) ++ placementFails code w.tasks).head?
  let own := ownershipFail w
  let lane := when (flow.isNone && memory.isNone) (laneFail w.tasks cost)
  [(0x040D, always feat), (0x0402, always flow), (0x0403, always dist), (0x040B, always (storeFail w.tasks w.code.length)),
   (0x0404, always memory), (0x040A, always own), (0x0401, lane), (0x040C, when flow.isNone (porterFail code w cost)),
   (0x0406, when own.isNone (engineFail w)), (0x0405, when own.isNone (heatFail w)), (0x0407, when own.isNone (cycleFail w)),
   (0x0409, when w.pair (roadFail w)),
   (0x0408, match old with
     | none => (false, none)
     | some o => when lane.passed (switchFail o w cost))]

/-- The analysis of a waybill that passes (R157, R166, R170, R172, R176, R177, R180, R183). -/
def analyse (code : Code) (w : Way) (rooms : List Nat) (ws : List (Nat × Nat)) (cost : Nat → Nat) : Analysis :=
  let resp := w.tasks.mapIdx (fun i t => (response w.tasks cost 0 t (cost i)).1)
  let np := match w.tasks[w.super]? with
    | none => (0, 0, 0)
    | some t =>
      let n := code.wdkCounts w.bound t
      let p := porterWindow w.tasks cost t n.1 n.2.1
      (20000 * t.k, p.1, p.2)
  let slack (k : Nat) : Nat :=
    (w.tasks.zipIdx.filter (fun u => u.1.lane == k)).foldl (fun m u => min m (u.1.deadlineSlots - resp.getD u.2 0)) 0x3FFFFFF
  { rooms := rooms
    privBase := ws.map Prod.fst
    retBase := ws.map Prod.snd
    pubBase := pubBases 0x40000 w.tasks
    wcet := w.tasks.mapIdx (fun i _ => cost i)
    resp := resp
    npPeriod := np.1
    npOpen := np.2.1
    npClose := np.2.2
    slots := (List.range 12).map (engineSlots w)
    power := (List.range 12).map (groupPower w)
    slack := (List.range 8).map slack
    swapSlots := switchSlots w }

/-- Step 3 of R156 for a waybill of the right form and signature. -/
def judge (old : Option Conf) (known : List (Nat × Nat)) (w : Way) : Report :=
  let code := decodeCode w.code
  let costs := w.tasks.map (code.wcet w.bound)
  let cost (i : Nat) : Nat := costs.getD i 0
  let bare : Conf := { way := w, an := default }
  let fresh (i : Nat) : Bool := match old with
    | none => true
    | some o => o.newLayout bare i
  let added := (w.tasks.zipIdx.filter (fun u => fresh u.2)).map Prod.fst
  let ws := match old with
    | none => packWindows 0 w.tasks
    | some o => swapWindows o w.tasks fresh
  let bytes := windowBytes added + (match old with | none => 0 | some o => (o.windows.map Prod.snd).foldl (· + ·) 0)
  let cs := checks old code w (memoryFail w.tasks bytes ws) cost
  let mask (p : Judged → Bool) : Nat := (cs.map (fun c => if p c.2 then 2 ^ (c.1 - 0x0401) else 0)).foldl (· + ·) 0
  let skip := mask (fun j => !j.1)
  match cs.findSome? (fun c => c.2.2) with
  | some f =>
    { status := f.status, failMask := mask (fun j => j.2.isSome), skipMask := skip, task := f.task, loc := f.loc, args := f.args, conf := none }
  | none =>
    { status := 0, failMask := 0, skipMask := skip, task := 0xFFFF, loc := 0, args := [],
      conf := some { way := w, an := analyse code w (assignRooms known w.tasks) ws cost } }

/-- The faults of R219 and R223, which staging adds to the form checks. -/
def stageFault (old : Conf) (bs : List Byte) : Option FormFault :=
  let w := parseWay bs
  match firstFault (swapFaults (decodeCode w.code) old bs w) with
  | some f => some f
  | none => firstFault (migrFaults old { way := w, an := default } (entriesOf bs (sections bs) 9))

/-- R156: the examination of waybill bytes; `old` as in `judge`. -/
def examine (sec : Sec) (old : Option Conf) (known : List (Nat × Nat)) (bs : List Byte) : Report :=
  match formFault bs with
  | some f => .early f.2 f.1
  | none =>
    match old.bind (fun o => stageFault o bs) with
    | some f => .early f.2 f.1
    | none =>
      let st := signatureStatus sec bs
      if st ≠ 0 then .early st 0 else judge old known (parseWay bs)

end Sys2Proof.Machine
end

