-- ==== Sys2Proof/Machine/Can.lean ====
section
/-! DEFINITION. Commands of the CAN ports (R302 to R330, R46, R507). -/

namespace Sys2Proof.Machine

/-! ### Reception (R313 to R316) -/

/-- A frame matches a filter (R313). -/
def CanFilter.hit (f : CanFilter) (x : CanFrame) : Bool :=
  !x.remote && x.ide == f.ide && (x.id.toNat &&& f.mask) == (f.id &&& f.mask) &&
    (f.fmt == 0 || (f.fmt == 1 && !x.fd) || (f.fmt == 2 && x.fd)) && decide (f.src + f.len ≤ x.payload.length)

/-- What a matching filter writes: the stamp, then the mapped bytes, at its place among the receive bytes (R309, R314, R315). -/
def CanFilter.write (f : CanFilter) (k : Nat) (x : CanFrame) : Nat × List Byte :=
  (0x800 + 0x100 * k + f.dst, (if f.stamp then toLe 4 x.sofTb.toNat else []) ++ slice x.payload f.src f.len)

/-- The filters that a frame matches, with their numbers. -/
def matching (fs : List CanFilter) (x : CanFrame) : List (Nat × CanFilter) :=
  (fs.zipIdx.map (fun p => (p.2, p.1))).filter (fun p => p.2.hit x)

/-- A matching filter's bytes reach staging (R314); a second frame within one bus cycle is an overwrite. -/
def State.canMap (s : State) (k : PortId) (x : CanFrame) (f : Nat × CanFilter) : State :=
  let w := f.2.write k.val x
  let s := { s with img := { s.img with canRx := s.img.canRx.write w.1 w.2 } }
  let again := s.cans[k].hits.getLsbD f.1
  let s := s.updCan k (fun c => { c with
    hits := if c.cycleStart.isSome then c.hits ||| (1 <<< f.1) else c.hits
    ovrcnt := if again then c.ovrcnt + 1 else c.ovrcnt })
  if again then s.canEvent k 7 else s

/-- A successful reception lowers the receive error count (ISO 11898-1, R322), outside restricted and listen-only operation. -/
def Can.goodRx (c : Can) : Can :=
  if c.restricted || c.listen then c
  else { c with recc := if 127 < c.recc then 127 else c.recc - 1 }

/-- Good frames seen by a detection (R329). -/
def satAdd16 (x : BitVec 16) : BitVec 16 := satInc x

/-- R313 to R316, R329. A valid frame arrives. -/
def execCanFrameReceived (t : Nat) (k : PortId) (frame : CanFrame) (s : State) : Host.Outcome State Fault Refusal :=
  let s := s.at t
  let c := s.cans[k]
  if c.vplus = false then .next s
  else
    match c.det with
    | .nominal =>
      let s := s.updCan k (fun c => { c with rxcnt := c.rxcnt + 1, detFrames := satAdd16 c.detFrames, detGood := c.detGood + 1 })
      .next (if 2 ≤ s.cans[k].detGood then s.updCan k (fun c => c.detDataAt 0 s.now) else s)
    | .data =>
      let s := s.updCan k (fun c => { c with
        rxcnt := c.rxcnt + 1
        detFrames := satAdd16 c.detFrames
        detGood := if frame.fd && frame.brs then c.detGood + 1 else c.detGood })
      .next (if 2 ≤ s.cans[k].detGood then s.detLock k s.cans[k].detData else s)
    | _ =>
      if c.on then
        let s := (s.updCan k (fun c => { c.goodRx with rxcnt := c.rxcnt + 1 })).canRefresh k
        match s.app.cur <|> s.app.stored with
        | none => .next s
        | some cf => .next ((matching (cf.way.filters.filter (fun f => f.port == k.val)) frame).foldl (fun s f => s.canMap k frame f) s)
      else .next s

/-! ### Transmission (R317 to R321) -/

/-- R318. A window opens: the committed payload is copied and the frame queued. -/
def execCanWindowOpen (t : Nat) (k : PortId) (entry : Nat) (s : State) : Host.Outcome State Fault Refusal :=
  let c := s.cans[k]
  match s.app.cur, c.cycleStart with
  | some cf, some n =>
    match (cf.way.entriesOf k.val)[entry]? with
    | none => .next (s.at t)
    | some e =>
      match (cf.way.bufs.filter (fun b => b.port == k.val))[e.buf]? with
      | none => .next (s.at t)
      | some b =>
        if c.armed.contains entry then
          let start := n * tickCycles
          let s := s.at (max t (s.cycleOfTb (start + e.wopen * usCycles)))
          let q : QFrame :=
            { entry := entry
              payload := s.img.com.read (0x2000 + 0x100 * k.val + b.txoff) (canPayload b.dlc)
              latest := start + e.wclose * usCycles - frameTime b c.nbt c.dbt
              attempt := false
              final := false }
          .next (s.updCan k (fun c => { c with armed := c.armed.erase entry, queue := c.queue ++ [q] }))
        else .next (s.at t)
  | _, _ => .next (s.at t)

/-- The frame as it goes out: identifier, formats, DLC, payload (log entry 4). -/
def canFrameBytes (b : CanBuf) (payload : List Byte) : List Byte :=
  toLe 4 b.id ++ [BitVec.ofNat 8 (b2n b.ide + 2 * b2n b.fdf + 4 * b2n b.brs), BitVec.ofNat 8 b.dlc] ++ payload

/-- The transmit buffer of a cycle-table entry. -/
def State.bufOf (s : State) (k : PortId) (entry : Nat) : Option CanBuf :=
  match s.app.cur with
  | none => none
  | some cf => match (cf.way.entriesOf k.val)[entry]? with
    | none => none
    | some e => (cf.way.bufs.filter (fun b => b.port == k.val))[e.buf]?

/-- R319. The port starts an attempt of the first queued frame whose start of frame still lies at or before CLOSE − T. -/
def execCanTxAttempt (t : Nat) (k : PortId) (tdelay : Byte) (s : State) : Host.Outcome State Fault Refusal :=
  let s := s.at t
  let c := s.cans[k]
  if c.on && !c.gate && !c.listen && !c.restricted && c.queue.all (fun q => !q.attempt) then
    match c.queue.find? (fun q => decide (s.tb ≤ q.latest) && !q.final) with
    | none => .next s
    | some q =>
      match s.bufOf k q.entry with
      | none => .next s
      | some b =>
        let s := s.updCan k (fun c => { c with
          queue := c.queue.map (fun x => if x.entry = q.entry then { x with attempt := true } else x)
          tdcv := if b.fdf && bit c.dbt.toNat 22 then tdelay else c.tdcv
          domRel := false })
        .next (s.emit (.canTx k (canFrameBytes b q.payload)))
  else .next s

/-- R319, R327. The attempt in progress ends; a frame that may not be retried is withdrawn. -/
def execCanTxComplete (t : Nat) (k : PortId) (result : TxResult) (s : State) : Host.Outcome State Fault Refusal :=
  let s := s.at t
  match s.cans[k].queue.find? QFrame.attempt with
  | none => .next s
  | some q =>
    match result with
    | .sent =>
      .next ((s.updCan k (fun c => { c with
        queue := c.queue.filter (fun x => x.entry != q.entry)
        txcnt := c.txcnt + 1
        tec := c.tec - 1
        domRel := false })).canRefresh k)
    | _ =>
      let s := s.updCan k (fun c => { c with
        queue := c.queue.map (fun x => { x with attempt := false })
        domRel := false })
      .next (if q.final then s.canWithdraw k q.entry else s)

/-- R319, R321. A frame that was not sent by CLOSE − T is withdrawn. -/
def execCanFrameWithdraw (t : Nat) (k : PortId) (entry : Nat) (s : State) : Host.Outcome State Fault Refusal :=
  match s.cans[k].queue.find? (fun q => q.entry == entry) with
  | none => .next (s.at t)
  | some q =>
    if q.attempt then .next (s.at t)
    else .next ((s.at (max t (s.cycleOfTb (q.latest + 1)))).canWithdraw k entry)

/-! ### Errors (R322, R329) -/

/-- R322. The port enters bus-off: frames withdrawn, nothing armed, every stale bit 1; recovery begins at once with AUTOREC. -/
def State.canBusOff (s : State) (k : PortId) : State :=
  let s := (s.updCan k (fun c => { c with
    busoff := true
    stale := BitVec.allOnes 64
    recovering := match c.cfg with | none => false | some p => p.autorec })).canRefresh k
  let s := (s.canDrainAll k).canEvent k 2
  s.canRecord k 0x52 sevFault [barWord s (canReg k 0), barWord s (canReg k 0x1C)]

/-- The error counts after an error (R322). -/
def Can.count (c : Can) (e : CanErr) : Can :=
  if e.transmitter then { c with tec := c.tec + e.weight } else { c with recc := c.recc + e.weight }

/-- R322, R324, R329. A bus error. -/
def execCanError (t : Nat) (k : PortId) (err : CanErr) (s : State) : Host.Outcome State Fault Refusal :=
  let s := s.at t
  let c := s.cans[k]
  let last : BitVec 4 := BitVec.ofNat 4 (err.code.toNat + 8 * b2n err.dphase)
  if c.vplus = false then .next s
  else
    match c.det with
    | .nominal =>
      .next (s.updCan k (fun c => { (if err.dphase then { c with detGood := 0 } else c.detNominal (c.detNom + 1)) with lasterr := last }))
    | .data =>
      .next (s.updCan k (fun c => { (if err.dphase then c.detDataAt (c.detData + 1) s.now else c.detNominal (c.detNom + 1)) with lasterr := last }))
    | _ =>
      if c.on then
        if c.restricted || c.listen then .next (s.updCan k (fun c => { c with lasterr := last }))
        else
          let s := s.updCan k (fun c => { (c.count err) with lasterr := last })
          let d := s.cans[k]
          let s := if (96 ≤ d.tec ∧ c.tec < 96) ∨ (96 ≤ d.recc ∧ c.recc < 96) then s.canEvent k 0 else s
          if 256 ≤ d.tec then .next (s.canBusOff k)
          else
            let s := s.canRefresh k
            .next (if s.cans[k].passive && !c.passive then
                let s := s.canEvent k 1
                s.canRecord k 0x51 sevNotice [barWord s (canReg k 0)]
              else s)
      else .next s

/-- R322. The 128 sequences have been seen: the port is error-active again. -/
def execCanRecoveryComplete (t : Nat) (k : PortId) (s : State) : Host.Outcome State Fault Refusal :=
  let s := s.at t
  if s.cans[k].busoff = true ∧ s.cans[k].recovering = true then
    .next (((s.updCan k (fun c => { c with
      busoff := false
      recovering := false
      tec := 0
      recc := 0 })).canRefresh k).canEvent k 3)
  else .next s

/-- R322. CAN_CTRL.RECOVER starts recovery of a port that is bus-off. -/
def execCanRecover (t : Nat) (k : PortId) (s : State) : Host.Outcome State Fault Refusal :=
  let s := s.at t
  .next (if s.steward then s.updCan k (fun c => { c with recovering := c.recovering || c.busoff }) else s)

/-! ### Supply (R46, R323) -/

/-- R323. CAN_V+ is lost. -/
def execCanVplusLost (t : Nat) (k : PortId) (s : State) : Host.Outcome State Fault Refusal :=
  let s := s.at t
  if s.cans[k].vplus then
    let s := s.canDrainAll k
    let s := (s.updCan k (fun c => { c with
      vplus := false
      integrated := false
      busoff := false
      recovering := false
      tec := 0
      recc := 0
      term := false
      det := if c.detecting then .idle else c.det
      stale := BitVec.allOnes 64 })).canRefresh k
    let s := s.canEvent k 4
    .next (s.canRecord k 0x53 sevFault [barWord s (canReg k 0)])
  else .next s

/-- The termination setting of a port that the NV store holds (R443). -/
def State.termStored (s : State) (k : PortId) : Bool := bit (u8 (recData s.nv.settled 3) k.val) 0

/-- The steward applies a port's stored termination setting (R46). -/
def State.applyTerm (s : State) (k : PortId) : State :=
  let on := s.termStored k
  s.updCan k (fun c => { c with termSet := on, term := on && c.vplus })

/-- R323, R329. CAN_V+ returns: the steward applies the stored termination setting; with AUTO, rate detection starts. -/
def execCanVplusReturn (t : Nat) (k : PortId) (s : State) : Host.Outcome State Fault Refusal :=
  let s := s.at t
  if s.cans[k].vplus then .next s
  else
    let s := s.updCan k (fun c => { c with vplus := true, integrated := false })
    let s := if s.steward then s.applyTerm k else s
    let s := s.updCan k (fun c => match c.cfg with
      | some p => if p.auto ∧ p.mode ≠ 0 then c.detBegin false s.now else c
      | none => c)
    .next (s.canRefresh k)

/-- R323. The port has integrated to the bus. -/
def execCanPortIntegrated (t : Nat) (k : PortId) (s : State) : Host.Outcome State Fault Refusal :=
  let s := s.at t
  let c := s.cans[k]
  if c.vplus = true ∧ c.integrated = false ∧ c.cfgMode ≠ 0 then
    .next (((s.updCan k (fun c => { c with integrated := true })).canRefresh k).canEvent k 5)
  else .next s

/-- R46. CAN_CTRL.TERM sets the latch, and the steward stores it. -/
def execCanTermWrite (t : Nat) (k : PortId) (on : Bool) (s : State) : Host.Outcome State Fault Refusal :=
  let s := s.at t
  if s.steward then
    let s := s.updCan k (fun c => { c with termSet := on, term := on && c.vplus })
    .next (s.recWrite 4 3 (s.cans.toList.map (fun c => BitVec.ofNat 8 (b2n c.termSet))) (fun _ => .nothing))
  else .next s

/-- R507. The transmitter has been dominant for its time-out and releases the bus until the controller sends recessive. -/
def execDominantTimeOut (t : Nat) (k : PortId) (s : State) : Host.Outcome State Fault Refusal :=
  let s := s.at t
  .next (if s.cans[k].vplus then s.updCan k (fun c => { c with domRel := true }) else s)

/-! ### Rate detection (R329) -/

/-- R329. 1 s in DATA without a frame with BRS. -/
def execRateDetectionDataTimeout (t : Nat) (k : PortId) (s : State) : Host.Outcome State Fault Refusal :=
  let c := s.cans[k]
  if c.det = .data ∧ c.detGood = 0 then .next ((s.at (max t (c.detSince + secCycles))).detLock k 3)
  else .next (s.at t)

/-- R329. The timeout of CAN_DET.TIME. -/
def execRateDetectionTimeout (t : Nat) (k : PortId) (s : State) : Host.Outcome State Fault Refusal :=
  let c := s.cans[k]
  if c.detecting = true ∧ c.detTime ≠ 0 then .next ((s.at (max t (c.detStart + c.detTime.toNat * secCycles))).detFailed k)
  else .next (s.at t)

/-- R329. CAN_DET.START: for a port that is off in the running configuration, or for any port when no application runs. -/
def execCanDetStart (t : Nat) (k : PortId) (s : State) : Host.Outcome State Fault Refusal :=
  let s := s.at t
  let c := s.cans[k]
  if s.steward then
    if (!s.app.running || c.cfgMode == 0) && !c.detecting then .next ((s.updCan k (fun c => c.detBegin true s.now)).canRefresh k)
    else .next ((s.updCan k (fun c => { c with detRefused := true })).mark (0x2020 + 0x400 * k.val) 8)
  else .next s

/-- R329. CAN_DET.ABORT ends a detection in FAILED. -/
def execCanDetAbort (t : Nat) (k : PortId) (s : State) : Host.Outcome State Fault Refusal :=
  let s := s.at t
  .next (if s.steward && s.cans[k].detecting then s.detFailed k else s)

end Sys2Proof.Machine
end

