-- ==== Sys2Proof/Machine/PairOps.lean ====
section
/-! DEFINITION. What the pair unit shares with the cycle sequencer (R371 to R405, R489): events, role changes, falling out of step,
takeover, and what its frames carry. -/

namespace Sys2Proof.Machine

/-! ### Events and the role record -/

/-- Bits of PAIR_EVT (R404). -/
def evTakeover : Nat := 0
def evLost : Nat := 1
def evOutstep : Nat := 2
def evInstep : Nat := 3
def evMismatch : Nat := 4
def evCable : Nat := 5
def evProofFail : Nat := 6
def evDisc : Nat := 7
def evSwitch : Nat := 8
def evQuieted : Nat := 9

/-- A bit of PAIR_EVT; vector 3 when it sets (R404). -/
def State.pairEvent (s : State) (b : Nat) : State :=
  let s := s.mark 0x4008 (2 ^ b)
  if s.pair.evt.getLsbD b then s
  else { s with pair := { s.pair with evt := s.pair.evt ||| (1 <<< b) } }.raiseNow 3

/-- Vector 3 for a latched bit of a channel that was `old` before (R404). -/
def State.latchVector (s : State) (old : Bool) : State := if old then s else s.raiseNow 3

/-- The role record (R403). -/
def State.roleRecord (s : State) : List Byte :=
  let p := s.pair
  toLe 1 p.role.toNat ++ toLe 1 p.reason.toNat ++ toLe 2 0 ++ toLe 4 p.epoch.toNat ++ toLe 4 s.hours ++ toLe 8 p.partner.serial.toNat ++
    toLe 4 (pairCfgWord p).toNat

def State.writeRole (s : State) : State := s.recWrite 4 2 s.roleRecord (fun _ => .nothing)

/-- The role reaches every group's supervisor and the CAN ports (R288, R324). -/
def State.applyRole (s : State) : State :=
  let rel := s.isRelief
  let s := (fins 12).foldl (fun s g => if s.groups[g].lplus then s.updGrp g (fun p => { p with relief := rel }) else s) s
  s.driveAll.canRefreshAll

/-- A role change (R382): role record, vector 3, guestbook record, supervisors. REASON 0 where R403 lists none (log entry 21). -/
def State.setRole (s : State) (role : BitVec 2) (reason : BitVec 3) (sev : BitVec 2) : State :=
  let s := { s with pair := { s.pair with
    role := role
    reason := reason
    epoch := s.pair.epoch + 1 } }
  let s := (s.writeRole.raiseNow 3).gbEvent 0x60 role.toNat sev
    [BitVec.ofNat 32 (u32 s.roleRecord 0), BitVec.ofNat 32 (u32 s.roleRecord 4)]
  s.applyRole

/-! ### Relief out of step -/

/-- Every running room becomes STOPPED (R81, R382). -/
def State.stopRooms (s : State) : State :=
  s.mapRooms (fun v => if v.st = .waiting ∨ v.st = .ready then { v with st := .stopped, restAt := none } else v)

/-- ANALYSIS (R489). -/
def Conf.analysisCrc (c : Conf) : DWord :=
  let tasks := (List.range c.way.tasks.length).flatMap (fun i =>
    [c.an.rooms.getD i 0, ((c.task i).map Task.lane).getD 0, ((c.task i).map Task.prio).getD 0])
  let rooms := (List.range 100).flatMap (fun r => match c.an.rooms.idxOf? r with
    | none => [0, 0]
    | some i => [c.an.wcet.getD i 0, c.an.resp.getD i 0])
  let grps := (List.range 12).flatMap (fun g => [c.an.slots.getD g 0, c.an.power.getD g 0])
  crc64 ((tasks ++ rooms ++ [c.an.npOpen, c.an.npClose] ++ grps).flatMap (toLe 4))

/-- Steward versions and analyses of the two modules let them pair (R489). -/
def State.mayPair (s : State) : Bool :=
  let own := imageVersion (s.sec.image s.sec.slot)
  let theirs := s.pair.partner.version.toNat
  let same := s.app.stored.isSome && (s.app.stored.map (fun c => c.way.crc)).getD 0 == s.pair.partner.cfgid &&
    (s.app.stored.map (fun c => BitVec.ofNat 64 c.analysisCrc.toNat)).getD 0 == s.pair.partner.analysis
  fld own 16 8 == fld theirs 16 8 && (fld own 8 8 == fld theirs 8 8 || same)

/-- The partner's swap is on trial and the same one is staged here: the driver's resync command is awaited (R233). -/
def State.awaitsResync (s : State) : Bool := s.edits.swap == .staged && s.pair.partner.swap == 2

/-- The post road is up and the configurations match: resynchronisation may run (R385, R396). -/
def State.maySync (s : State) : Bool := s.pair.link && !s.pair.cfgdiff && s.mayPair

/-- Resynchronisation begins anew (R396): while the road is up and the configurations match. -/
def State.restartSync (s : State) : State :=
  { s with pair := { s.pair with
    rsync := s.maySync && !s.awaitsResync
    attempts := 0
    blockRoom := 127
    progress := 0
    passDone := false
    streamed := 0
    frame := none
    marked := none } }

/-- The night porter's boot mode from now on (R407). -/
def State.npBoot (s : State) : State := { s with np := s.np.boot s.tb }

/-- Batches and reads whose release has not come complete with 0x0228 (R217). -/
def State.discardEdits (s : State) : State :=
  let refs := s.edits.batches.map Batch.ref ++ s.edits.reads.map VRead.ref
  let s := { s with edits := { s.edits with batches := [], reads := [] } }
  refs.foldl (fun s r => s.completeOpt r 0x0228 []) s

/-- A switch, rollback or release that the relief has not confirmed is given up with a status (R233). -/
def State.abandonSwap (s : State) (st : BitVec 16) : State :=
  let back : SwapSt := match s.edits.swap with
    | .pendSwitch => .staged
    | .pendRollback | .releasing => .trial
    | x => x
  ({ s with edits := { s.edits with swap := back, ref := none, also := [] } }.completeOpt s.edits.ref st []).completeAll s.edits.also st []

/-- What commands of the driver await on a module that leaves its role (R217, R353, R398; log entry 30). -/
def State.dropCommands (s : State) : State :=
  let s := s.discardEdits
  let s := match s.app.start with
    | none => s
    | some q => { s with app := { s.app with start := none } }.completeOpt q.ref 0x0701 []
  let s := match s.app.stop with
    | none => s
    | some q => if s.app.running then { s with app := { s.app with stop := none } }.completeAll q.refs 0x0701 [] else s
  let s := if s.edits.confirmed then s else s.abandonSwap 0x0703
  { s with pair := { s.pair with joinRef := none } }.completeOpt s.pair.joinRef 0x0707 []

/-- The module is RELIEF OUT from now on: rooms stopped, no application running, nothing pending, boot mode. -/
def State.becomeOut (s : State) (reason : BitVec 3) (sev : BitVec 2) : State :=
  let s := (s.dropCommands.stopRooms.dropPoints).npBoot
  let s := { s with app := { s.app with running := false } }
  let s := s.restartSync
  s.setRole 3 reason sev

/-- R387. A relief falls out of step for a reason; reason 1 has its own record. -/
def State.fallOut (s : State) (why : BitVec 3) : State :=
  if s.pair.role = 2 then
    let s := { s with pair := { s.pair with osreason := why } }
    let s := s.becomeOut 0 sevNotice
    let s := s.pairEvent evOutstep
    if why = 1 then s else s.gbEvent 0x62 why.toNat sevNotice [BitVec.ofNat 32 s.cycle]
  else s

/-- R387 case 1. A digest of task i differs at cycle number n. -/
def State.mismatch (s : State) (n i : Nat) : State :=
  ((s.gbEvent 0x61 0 sevFault [BitVec.ofNat 32 n, BitVec.ofNat 32 i]).pairEvent evMismatch).fallOut 1

/-! ### Takeover (R290, R326, R390, R402) -/

/-- Age of an output's proof in hours, none when never proven (R402). -/
def State.proofAge (s : State) (n : Nat) : Option Nat := ((vget s.chans n Chan.init).proofHours).map (fun h => (s.hours - h) / 10)

/-- The age of an output exceeds AGELIM. -/
def State.overAge (s : State) (n : Nat) : Bool :=
  decide (0 < s.pair.agelim.toNat) && (match s.proofAge n with
    | none => true
    | some h => decide (s.pair.agelim.toNat * 24 < h))

/-- Digital outputs of the running configuration. -/
def State.provable (s : State) : List Nat :=
  match s.app.cur with
  | none => []
  | some c => (c.way.chansInOrder.filter ChanCfg.isDout).map ChanCfg.ch

/-- Records of the outputs whose age exceeds AGELIM (R402). -/
def State.ageRecords (s : State) (ns : List Nat) (sev : BitVec 2) : State :=
  ns.foldl (fun s n => s.gbEvent 0x65 n sev [pairAge s n]) s

/-- Channels whose excitation starts only now carry the last value of the primary's snapshot as stale (R290). -/
def State.startExcitation (s : State) : State :=
  { s with chans := s.chans.mapFinIdx (fun n c _ => match c.cfg with
    | some e =>
      if excited e then
        let g := vget s.pair.stg n Stg.init
        { c with
          stale := true
          value := g.value
          aux := g.aux
          stamp := (g.stamp * 10000 + s.tb0 - s.pair.tbOff).toNat }
      else c
    | none => c) }

/-- A relief in step becomes primary; its ports arm the windows that open at or after TB `from'` (R326, R390, R391, R393). -/
def State.lead (s : State) (reason : BitVec 3) (sev : BitVec 2) (from' : Nat) : State :=
  let s := { s with
    pair := { s.pair with
      frame := none
      marked := none
      due := none
      missing := 0
      inStepSince := s.now } }
  let s := s.startExcitation
  (s.setRole 1 reason sev).canTakeover from'

/-- The relief takes over at base tick n (R390 step 2, R391, R402). -/
def State.takeOver (s : State) (reason : BitVec 3) (n : Nat) : State :=
  let s := { s with pwr := { s.pwr with quietOut := s.pwr.pairPresent } }
  let s := (s.lead reason sevCritical (max (tickCycles * n) (s.pair.hbTb.toNat + 11 * usCycles))).pairEvent evTakeover
  s.ageRecords (s.provable.filter s.overAge) sevFault

/-! ### What frames carry -/

/-- The swap field of HELLO. -/
def Edits.helloCode (e : Edits) : Nat :=
  match e.swap with
  | .none => 0
  | .staged => 1
  | _ => 2

/-- The configuration ID that HELLO names: that of the stored configuration, and while a swap is on trial that of the version on trial (log
entry 45). -/
def State.confId (s : State) : Nat :=
  match s.edits.swap with
  | .trial | .pendRollback | .releasing => (s.edits.new.map (fun c => c.way.crc.toNat)).getD 0
  | _ => (s.app.stored.map (fun c => c.way.crc.toNat)).getD 0

/-- HELLO (R377). -/
def State.helloBytes (s : State) : List Byte :=
  toLe 8 Config.serial.toNat ++ toLe 3 (imageVersion (s.sec.image s.sec.slot)) ++ toLe 1 s.pair.role.toNat ++
    toLe 1 (b2n s.pwr.rolePref + 2 * b2n s.app.runFlag + 4 * b2n s.app.stored.isSome + 8 * s.edits.helloCode) ++ toLe 3 0 ++
    toLe 4 s.confId ++ toLe 4 s.pair.epoch.toNat ++ toLe 8 ((s.app.stored.map (fun c => c.analysisCrc.toNat)).getD 0)

/-- HEARTBEAT (R378). -/
def State.heartbeatBytes (s : State) : List Byte :=
  let p := s.pair
  toLe 8 s.tb ++ toLe 6 s.cycle ++ toLe 1 p.role.toNat ++
    toLe 1 (b2n s.pwr.quietOut + 2 * b2n s.pwr.quietIn + 4 * b2n s.app.running + 8 * b2n p.rsync) ++
    toLe 8 p.hbTb.toNat ++ toLe 4 (if p.lastHb = 0 then 0 else s.now - p.lastHb) ++
    toLe 2 (maskOf (fun g => (vget s.groups g Group.init).lplus) 12) ++ toLe 1 (maskOf (fun k => (vget s.cans k Can.init).vplus) 4) ++ toLe 1 0

/-- A HELLO goes out once the lanes have trained; the road is up when the HELLO has been exchanged (R375, R377). -/
def State.sendHello (s : State) : State := if s.pair.trained then s.emit (.frame 1 s.helloBytes) else s

/-- A frame goes out while the road is up (R375, R377). -/
def State.sendFrame (s : State) (typ : Nat) (bytes : List Byte) : State := if s.pair.link then s.emit (.frame typ bytes) else s

/-- The edges of a room's channels that a record carries: rising and falling edges counted from the room's release to the newest base tick. -/
def State.recordEdges (s : State) (c : Conf) (v : Room) : List Nat :=
  (c.way.chansInOrder.filter (fun e => e.isDin || e.isReadback)).flatMap (fun e =>
    let g := vget s.pair.stg e.ch Stg.init
    [g.rise - (baseOf v.baseline e.ch).1, g.fall - (baseOf v.baseline e.ch).2])

/-- A room's record as it is sent (R396; log entry 32). -/
def State.recordWords (s : State) (c : Conf) (v : Room) : List Nat :=
  (List.range 31).map (fun i => (vget v.g (i + 1) 0).toNat) ++
    [v.pc.toNat, b2n v.z + 2 * b2n v.n + 4 * b2n v.c + 8 * b2n v.v + 16 * b2n v.b, v.mlo.toNat, v.mhi.toNat, v.frs.toNat, v.quo.toNat, v.rem.toNat,
      v.relTb.toNat % 2 ^ 32, v.relTb.toNat / 2 ^ 32] ++ s.recordEdges c v

/-- The 64-byte blocks of one window. -/
def windowBlocks (m : Mem) (room kind base len : Nat) : List (Nat × List Byte) :=
  (List.range (ceilDiv len 64)).map (fun k =>
    ((room * 4 + kind) * 65536 + k, toLe 1 kind ++ toLe 1 room ++ toLe 2 0 ++ toLe 4 (64 * k) ++ m.read (base + 64 * k) (min 64 (len - 64 * k))))

/-- What a primary streams of task i (R396): windows, write-set words, pending and committed, and the room's record, each with its number and
its bytes as they go out (the layout is the model's, log entry 32). -/
def State.taskBlocks (s : State) (c : Conf) (i : Nat) : List (Nat × List Byte) :=
  let r := c.an.rooms.getD i 0
  let len (f : Task → Nat) : Nat := ((c.task i).map f).getD 0
  let word (kind : Nat) (m : Mem) (k a : Nat) : Nat × List Byte := ((r * 4 + 2) * 65536 + 2 * k + kind, toLe 1 2 ++ toLe 1 kind ++ toLe 2 0 ++ toLe 4 a ++ m.read a 4)
  windowBlocks s.dmem r 0 (c.an.privBase.getD i 0) (len Task.privLen) ++ windowBlocks s.dmem r 1 (c.an.retBase.getD i 0) (len Task.retLen) ++
    (c.wordsOf i).mapIdx (fun k a => word 0 s.img.com k a) ++ (c.wordsOf i).mapIdx (fun k a => word 1 s.img.pend k a) ++
    [((r * 4 + 3) * 65536, toLe 1 3 ++ toLe 1 r ++ toLe 2 0 ++ (s.recordWords c (vget s.rooms r Room.init)).flatMap (toLe 4))]

/-- The blocks of WAITING rooms that the relief does not hold as they stand: never sent, or changed since (R396). -/
def State.dueBlocks (s : State) (c : Conf) : List (Nat × List Byte) :=
  ((List.range c.way.tasks.length).filter (fun i => (vget s.rooms (c.an.rooms.getD i 0) Room.init).stAt s.now == .waiting)).flatMap (fun i =>
    (s.taskBlocks c i).filter (fun b => s.pair.sent.lookup b.1 != some b.2))

/-- A primary streams to a relief that resynchronises, 93 blocks in a base tick (R179, R396), and tells the end of the first pass. -/
def State.streamTick (s : State) : State :=
  match s.app.cur with
  | none => s
  | some c =>
    if s.pair.link = true ∧ s.pair.partner.role = 3 ∧ s.pair.partner.rsync = true ∧ s.app.running = true then
      let now := (s.dueBlocks c).take 93
      let s := now.foldl (fun s b => s.sendFrame 6 b.2) s
      let sent := now ++ s.pair.sent.filter (fun x => !now.any (fun b => b.1 == x.1))
      let s := { s with pair := { s.pair with sent := sent } }
      if (List.range c.way.tasks.length).all (fun i => (s.taskBlocks c i).all (fun b => sent.any (fun x => x.1 == b.1))) then
        s.sendFrame 6 (toLe 1 4 ++ toLe 3 0)
      else s
    else { s with pair := { s.pair with sent := [] } }

/-- A control message (R381). -/
def State.sendControl (s : State) (op : Nat) (args : List Byte) : State :=
  s.sendFrame 5 (toLe 1 op ++ toLe 1 0 ++ toLe 2 args.length ++ args ++ List.replicate ((4 - args.length % 4) % 4) 0)

/-- The partner is a relief in step, as its last heartbeat tells (R378). -/
def State.reliefInStep (s : State) : Bool := s.pair.role == 1 && s.pair.link && s.pair.hbSeen && s.pair.partner.role == 2

end Sys2Proof.Machine
end

