-- ==== Sys2Proof/Machine/Reset.lean ====
section
/-! DEFINITION. Resets, the clock monitor, supplies, system pins and start-up (R26, R28 to R71, R263, R265, R299, R420, R431, R451,
R466, R475 to R478). -/

namespace Sys2Proof.Machine

/-! ### What a reset clears (R67) -/

/-- A channel after a reset of the logic side that leaves its supervisor's table in place (R29, R265): group and stage go on, what the
logic side held is gone, and no stamp refers to the old TB. -/
def Chan.logicReset (c : Chan) : Chan :=
  { c with
    lastEdge := none
    stale := (c.cfg.map ChanCfg.isAnalogue).getD false
    spare := false
    hist := []
    proofOpen := false
    proofTry := none
    proofFail := false
    proofFailLatch := false
    exer := false
    disc := false
    discLatch := false
    agedOut := false
    primMa := none }

/-- A group after the same reset: engines are checked again (R299), and calibration points are gone. -/
def Group.logicReset (p : Group) : Group :=
  { p with
    engok := false
    engSince := 0
    spare := false
    engfail := false
    failkind := 0
    fsBad := false
    held := []
    frameAt := 0
    cjok := false
    supcount := 0
    zeroErr := 0
    gainErr := 0
    cjt := 0
    calCh := 0
    calLow := none
    calHigh := none }

/-- No alignment for a group with L+ before its supervisor applies the safe states of every output (R263). -/
def State.withholdAll (s : State) : State :=
  (fins 12).foldl (fun s g =>
    let follows := (chansOf g).any (fun n => s.chans[n].follow)
    s.updGrp g (fun p => { p with withhold := p.lplus && (!p.supact || follows) })) s

/-- RESET_N resets every supervisor with L+ (R30, R35): power-on safe states, no modes; every mode is set anew (R265). -/
def State.resetSupervisors (s : State) : State :=
  (fins 12).foldl (fun s g =>
    if s.groups[g].lplus then
      let s := s.updGrp g (fun p => { Group.init with almsel := p.almsel, lastAlign := s.now, lpv := p.lpv })
      let s := (chansOf g).foldl (fun s n => s.updChan n (fun c => c.anew c.cfg s.now)) s
      s.driveGroup g
    else s) s

/-- What every reset of the module clears and keeps (R67); `power` for a power-on. -/
def State.clear (s : State) (power : Bool) : State :=
  let s := if s.halted then s else s.cutHandOver s.tb
  let nv := s.nv
  { s with
    cycle := 0
    rooms := Vector.replicate 100 Room.init
    dmem := []
    img := Image.init
    inn := Inn.init
    app := { App.init with
      stored := s.app.stored
      runFlag := s.app.runFlag }
    edits := Edits.init
    chans := s.chans.map Chan.logicReset
    groups := s.groups.map Group.logicReset
    spare := { Spare.init with takeovers := if power then 0 else s.spare.takeovers }
    cans := s.cans.map (fun c => { Can.init with
      vplus := c.vplus
      term := c.term
      termSet := c.termSet })
    host := { HostIf.init with lateVec6 := s.host.lateVec6 }
    pair := { Pair.init with
      partnerPwr := s.pair.partnerPwr
      agesAt := s.now }
    scan := { Scan.init with fev := s.scan.fev, lastSweep := s.now }
    np := { s.np with
      expired := false
      stage := false
      warn := false
      wcause := 0
      warns := 0
      lastApp := 0
      lastStw := 0 }
    bk := { s.bk with
      snapBar := none
      snapStw := none
      numBar := 0
      numStw := 0
      stagedSet := none
      dstStep := none }
    nv := { Nv.init with
      mem := nv.mem
      busy := nv.busy.map (fun j => { j with done := .nothing })
      writes := nv.writes
      lock := nv.lock && !power }
    gb := { Guest.init with late := s.gb.late, owed := s.gb.owed }
    sec := { s.sec with
      updNext := 0
      updActive := false
      chunk := none
      ownStatus := 0
      ownSlot := 0
      enroll := Vector.replicate 16 0 } }

/-- Causes after which the clock is judged again (R67), and those for which the PLL locks again (R66). -/
def rejudged (cause : BitVec 8) : Bool := cause == 1 || cause == 2 || cause == 3 || cause == 5 || cause == 6
def relocks (cause : BitVec 8) : Bool := cause == 1 || cause == 2 || cause == 5 || cause == 6
/-- Causes that RECENT counts (R68). -/
def recentCause (cause : BitVec 8) : Bool := cause == 4 || cause == 7 || cause == 8 || cause == 9
/-- Causes that are a hardware fault under R16 or a night-porter expiry (R34). -/
def faultCause (cause : BitVec 8) : Bool := decide (4 ≤ cause) && decide (cause ≤ 9)

/-- The clock and reset registers after the entry of a reset (R66, R67, R71). -/
def Clk.enter (c : Clk) (cause prev total : BitVec 8) (recent : List Nat) (now : Nat) (held : Bool) : Clk :=
  { Clk.init with
    judged := c.judged && !rejudged cause
    plllock := c.plllock && !relocks cause
    judgeFrom := now
    cause := cause
    prev := if cause = 1 then 0 else prev
    total := if cause = 1 then 0 else satInc total
    recent := if recentCause cause then now :: recent else recent
    entryAt := now
    exitAt := if relocks cause || cause == 3 || held then none else some (now + 440000) }

/-- The module is out of reset and powered. -/
def State.awake (s : State) : Bool :=
  match s.phase with
  | .boot | .bootHold | .running => true
  | _ => false

/-- A reset is entered with a cause (R66). One that arises during a reset is not recorded, except in its first cycle, where the lower
code counts, and except power-on. -/
def State.enterReset (s : State) (cause : BitVec 8) : State :=
  let first := s.phase != .inReset
  let same := decide (s.clk.entryAt = s.now) && decide (cause < s.clk.cause)
  if first || same || cause == 1 then
    let recent := s.clk.recent.filter (fun t => decide (s.now < t + 60 * secCycles) && (first || t != s.now))
    let s' := s.clear (cause == 1)
    let s' := { s' with
      phase := .inReset
      app := { s'.app with hold := decide (3 ≤ ((if recentCause cause then s.now :: recent else recent)).length) }
      clk := s.clk.enter cause (if first then s.clk.cause else s.clk.prev) (if first then s.clk.total else s.clk.total - 1) recent s.now s.pwr.resetN
      pwr := { s.pwr with
        charged := s.pwr.charged && cause != 1 && cause != 2
        pf := .none
        pfwarn := cause == 1 || cause == 2 || !s.pwr.vsup || s.pwr.pf != PfStep.none
        faultN := true
        faultAt := none
        faultHold := (s.pwr.faultHold && cause != 1) || faultCause cause
        prefSample := none
        quietOut := false } }
    let s' := if cause = 3 ∨ (s.pwr.resetN = true ∧ s.pwr.vsup = true) then s'.resetSupervisors else s'
    (s'.withholdAll.driveAll).canRefreshAll
  else s

/-- VSUP is lost without charged storage, or the storage is exhausted (R49, R51): the logic side is unpowered. -/
def State.powerDown (s : State) : State :=
  let s := s.clear true
  { s with
    phase := .unpowered
    clk := { s.clk with judged := false, plllock := false }
    nv := { s.nv with busy := none }
    pwr := { s.pwr with
      vsup := false
      charged := false
      pf := .none
      pfwarn := true
      faultN := true
      faultHold := false
      faultAt := none
      prefSample := none
      holdUpOut := true
      quietOut := false } }

/-! ### Reset entries -/

/-- R71. CLK_RSTCTRL with key and RESET. During the sequence of a power failure it is ignored: DESIGN CHOICE, log entry 41. -/
def execDriverReset (t : Nat) (val : Word) (s : State) : Host.Outcome State Fault Refusal :=
  let s := s.at t
  .next (if s.steward = true ∧ val.getLsbD 0 = true ∧ fld val.toNat 16 16 = 0xB00C ∧ s.pwr.pf = .none then s.enterReset 0x0A else s)

/-- The cause of the reset that a hardware fault or an expiry brings (R66): that of the first, the lower one of one cycle. -/
def State.haltCause (s : State) : BitVec 8 :=
  if s.np.expired ∧ (s.scan.faulted = false ∨ s.cycleOfTb s.np.expAt ≤ s.scan.faultAt) then 4 else s.scan.fcause

/-- R98. 1 ms after a hardware fault, reset is entered. -/
def execFaultResetEntry (t : Nat) (s : State) : Host.Outcome State Fault Refusal :=
  if s.scan.faulted = true ∧ s.phase ≠ .inReset ∧ s.phase ≠ .unpowered then
    let s := s.at (max t (s.scan.faultAt + msCycles))
    .next (s.enterReset s.haltCause)
  else .next (s.at t)

/-- R413. Reset is entered 1 µs after an expiry, or when the page program in progress has completed, at most 200 µs after it. -/
def execNpResetEntry (t : Nat) (s : State) : Host.Outcome State Fault Refusal :=
  let e := s.cycleOfTb s.np.expAt
  let s' := s.at (max t (e + usCycles))
  if s.np.expired = true ∧ s.phase ≠ .inReset ∧ s.phase ≠ .unpowered ∧ (s.nv.busy = none ∨ e + 200 * usCycles ≤ s'.now) then
    .next (s'.enterReset s.haltCause)
  else .next (s.at t)

/-! ### Supplies and pins -/

/-- Who awaits the page program in progress: the one operation that a power failure lets complete (R52). -/
def Nv.awaited (n : Nv) : Option CmdRef :=
  match n.busy.map NvJob.done with
  | some (.command ref _) => some ref
  | some (.calib ref _ _ _) => some ref
  | _ => none

/-- What a VSUP failure abandons and drops (R50, R52, R464): examination, swap steps not yet reached, batches, reads, a scheduled start or
stop, a planned switch or join, an update chunk, queued records and NV writes other than journal pages. Their commands get no completion
(DESIGN CHOICE, log entry 42). -/
def State.abandon (s : State) : State :=
  let swap : SwapSt := match s.edits.swap with
    | .trial | .pendRollback | .releasing => .trial
    | _ => .none
  { s with
    inn := { s.inn with exam := none }
    edits := { s.edits with
      swap := swap
      new := if swap = .trial then s.edits.new else none
      confirmed := false
      ref := none
      batches := []
      reads := []
      also := [] }
    app := { s.app with start := none, stop := none }
    pair := { s.pair with joinRef := none, reqSwitch := none }
    bk := { s.bk with stagedSet := none, dstStep := none }
    host := { s.host with inProg := s.host.inProg.map (fun x => if x = s.nv.awaited then x else none) }
    sec := { s.sec with chunk := none, updActive := false }
    gb := { s.gb.queue.foldl (fun g r => g.drop r.sev) s.gb with queue := [], unwritten := [], pfDropped := s.gb.queue.length }
    nv := { s.nv with queue := s.nv.queue.filter (fun j => j.cls == 2), ready := false } }

/-- R49, R50. VSUP fails; during a reset nothing is left of the sequence but PFWARN_N (R31). -/
def execVsupFail (t : Nat) (s : State) : Host.Outcome State Fault Refusal :=
  let s := s.at t
  if s.pwr.vsup = false then .next s
  else if s.pwr.charged = false then .next s.powerDown
  else if s.phase = .inReset then .next { s with pwr := { s.pwr with vsup := false, pfwarn := true } }
  else if s.pwr.pf = .none then
    let s := { s with pwr := { s.pwr with vsup := false, pf := .failed, pfwarn := true } }
    let s := if s.host.linkUp && s.steward then s.raiseNow 4 else s
    .next s.abandon
  else .next { s with pwr := { s.pwr with vsup := false } }

/-- R48, R51. VSUP has become valid. A RESET_N that is still low acts from now on, when a reset is in progress. -/
def execVsupValid (t : Nat) (s : State) : Host.Outcome State Fault Refusal :=
  let s := s.at t
  if s.pwr.vsup then .next s
  else
    let s := { s with pwr := { s.pwr with vsup := true, holdUpOut := false } }
    .next (if s.phase = .unpowered then s.enterReset 1
      else if s.phase = .inReset ∧ s.pwr.resetN = true then { s with clk := { s.clk with exitAt := none } }.resetSupervisors
      else s)

/-- R51. The storage is exhausted while VSUP is absent. -/
def execHoldUpExhausted (t : Nat) (s : State) : Host.Outcome State Fault Refusal :=
  let s := s.at t
  .next (if s.pwr.vsup = false ∧ s.phase ≠ .unpowered then s.powerDown else s)

/-- R49, R69 step 8, R438. The storage is charged and the clock judged: NV writes are permitted, and after a loss of VSUP the power-cycle count advances (R446). -/
def execHoldUpCharged (t : Nat) (s : State) : Host.Outcome State Fault Refusal :=
  let s := s.at t
  if s.pwr.vsup = true ∧ s.phase ≠ .unpowered ∧ s.phase ≠ .inReset ∧ s.pwr.pf = .none ∧ s.nv.ready = false ∧ s.steward = true ∧ s.clk.judged = true then
    let s := { s with pwr := { s.pwr with charged := true }, nv := { s.nv with ready := true } }
    .next (if s.clk.cause = 1 ∨ s.clk.cause = 2 then s.countUp 4 cyclesBase else { s with nv := s.nv.start })
  else .next s

/-- R50. The writes of the power-loss sequence are done; the module enters reset. -/
def execPowerFailResetEntry (t : Nat) (s : State) : Host.Outcome State Fault Refusal :=
  let s := s.at t
  if s.pwr.pf = .lastTick ∧ s.nv.busy = none ∧ s.nv.queue.all (fun j => j.cls != 1) = true then
    .next (s.enterReset 2)
  else .next s

/-- R35, R51. RESET_N has been low for 1 µs. -/
def execResetNAssert (t : Nat) (s : State) : Host.Outcome State Fault Refusal :=
  let s := s.at t
  let s := { s with pwr := { s.pwr with resetN := true } }
  if s.phase = .unpowered ∨ s.pwr.pf ≠ .none ∨ s.pwr.vsup = false then .next s
  else if s.phase = .inReset then .next ({ s with
    clk := { s.clk with exitAt := none }
    pwr := { s.pwr with prefSample := none } }.resetSupervisors)
  else .next (s.enterReset 3)

/-- The earliest end of a reset whose cause alone fixes its length (R66). -/
def Clk.minExit (c : Clk) : Nat := if relocks c.cause || c.cause == 3 then 0 else c.entryAt + 440000

/-- R35, R66. RESET_N is deasserted: the module leaves reset 1 ms later. After a reset of cause 0x03, in which the PLL stays locked, judgement
has its 1 s from here: DESIGN CHOICE, log entry 39. -/
def execResetNDeassert (t : Nat) (s : State) : Host.Outcome State Fault Refusal :=
  let s := s.at t
  let s := { s with pwr := { s.pwr with resetN := false } }
  if s.phase = .inReset ∧ s.clk.plllock = true then
    .next { s with
      pwr := { s.pwr with prefSample := none }
      clk := { s.clk with
        exitAt := some (max s.clk.minExit (s.now + msCycles))
        judgeFrom := if s.clk.cause = 3 then s.now else s.clk.judgeFrom } }
  else .next s

/-- R69. The PLL locks; with RESET_N high the reset ends 1 ms later (R66). Judgement has its 1 s from here (R58), also when the PLL locks
again after a loss of lock before judgement. -/
def execPllLock (t : Nat) (s : State) : Host.Outcome State Fault Refusal :=
  let s := s.at t
  if s.phase = .inReset ∧ s.pwr.vsup = true ∧ s.clk.plllock = false then
    .next { s with
      pwr := { s.pwr with prefSample := none }
      clk := { s.clk with
        plllock := true
        judgeFrom := s.now
        good := 0
        exitAt := if s.pwr.resetN then none else some (max s.clk.minExit (s.now + msCycles)) } }
  else if s.awake = true ∧ s.clk.plllock = false then
    .next { s with clk := { s.clk with
      plllock := true
      judgeFrom := s.now
      good := 0 } }
  else .next s

/-- R36. PERST_N resets the PCIe endpoint and the host-ring state only; with rings active the interval is a silent host. A vector 6 still owed
(R267) stays owed. -/
def State.endpointReset (s : State) : State :=
  { s with host := { HostIf.init with gen := s.host.gen, lateVec6 := s.host.lateVec6 } }

def execPerstNAssert (t : Nat) (s : State) : Host.Outcome State Fault Refusal :=
  let s := s.at t
  if s.pwr.perstN then .next s
  else
    let s := { s with pwr := { s.pwr with perstN := true } }
    let s := if s.steward then s.gbEvent 0x09 2 sevNotice [barWord s 0x0804] else s
    .next s.endpointReset

/-- R36. The link may train again. -/
def execPerstNDeassert (t : Nat) (s : State) : Host.Outcome State Fault Refusal :=
  let s := s.at t
  .next { s with pwr := { s.pwr with perstN := false }, host := { s.host with linkUp := s.steward } }

/-- R26. One measurement of the base-plate temperature, in 0.01 °C. -/
def execTemperatureMeasure (t : Nat) (centi : Int) (s : State) : Host.Outcome State Fault Refusal :=
  let s := s.at t
  if s.steward then
    let w := BitVec.ofInt 32 centi
    let s := { s with pwr := { s.pwr with temp := centi } }
    let s := if 8500 < centi ∧ s.pwr.over85 = false then
        { s with pwr := { s.pwr with over85 := true } }.gbEvent 0x08 0 sevNotice [w]
      else if centi ≤ 8000 then { s with pwr := { s.pwr with over85 := false } } else s
    .next (if 9500 < centi ∧ s.pwr.over95 = false then
        { s with pwr := { s.pwr with over95 := true } }.gbEvent 0x08 0 sevFault [w]
      else if centi ≤ 9000 then { s with pwr := { s.pwr with over95 := false } } else s)
  else .next s

/-! ### The clock monitor -/

/-- The limits of a window: against a fall-back reference the ±5 % band serves judgement and monitoring (R57, R62); the warning band is the same
for every reference (R61). -/
def Clk.inJudge (c : Clk) (n : Nat) : Bool :=
  if c.refsrc then decide (742188 ≤ n) && decide (n ≤ 820312) else decide (780469 ≤ n) && decide (n ≤ 782031)
def Clk.inMonitor (c : Clk) (n : Nat) : Bool :=
  if c.refsrc then decide (742188 ≤ n) && decide (n ≤ 820312) else decide (777344 ≤ n) && decide (n ≤ 785156)
def Clk.inWarning (n : Nat) : Bool := decide (779688 ≤ n) && decide (n ≤ 782812)

/-- Judged figures of a window (R71): COUNT, and MIN and MAX once judged. -/
def Clk.counted (c : Clk) (n : Nat) : Clk :=
  { c with
    count := BitVec.ofNat 20 n
    cntmin := if c.judged && decide (n < c.cntmin.toNat) then BitVec.ofNat 20 n else c.cntmin
    cntmax := if c.judged && decide (c.cntmax.toNat < n) then BitVec.ofNat 20 n else c.cntmax }

/-- The cycle of the hardware fault or expiry that awaits its reset. -/
def State.haltAt (s : State) : Nat := if s.scan.faulted then s.scan.faultAt else s.cycleOfTb s.np.expAt

/-- A clock fault resets the module at once (R60); SCAN_FEV holds scan-engine causes only (R101). One that follows another fault only
sets MORE (R99), but of two in one cycle the lower code counts (R66). One that arises during a reset is not recorded (R66). -/
def State.clockFault (s : State) (cause : BitVec 8) : State :=
  if s.awake = false then s
  else if s.halted then
    let s' := { s with scan := s.scan.more }
    if s.haltAt = s.now ∧ cause < s.haltCause then s'.silence.enterReset cause else s'
  else s.silence.enterReset cause

/-- R57 to R61. A window of 1024 reference cycles ends with a count, in a reset too once the PLL has locked (R58); the monitor runs from the
reference. A judgement passed before reset exit shows CLK_TJUDGED 0. -/
def execClockMonitorWindow (t : Nat) (count : Nat) (s : State) : Host.Outcome State Fault Refusal :=
  let s := s.at t
  if s.phase = .unpowered ∨ s.clk.plllock = false ∨ s.clk.noref = true then .next s
  else
    let s := { s with clk := s.clk.counted count }
    if s.clk.judged then
      if s.clk.inMonitor count = false then .next (s.clockFault 5)
      else if Clk.inWarning count = false then
        let s := { s with clk := { s.clk with warn := true } }.mark 0x400 512
        .next (s.clockEvent 0x05 sevNotice 0x0404)
      else .next s
    else if s.clk.inJudge count = false then .next { s with clk := { s.clk with good := 0 } }
    else if s.clk.good < 2 then .next { s with clk := { s.clk with good := s.clk.good + 1 } }
    else .next { s with clk := { s.clk with
        good := 0
        judged := true
        tjudged := if s.awake then BitVec.ofNat 32 (s.tb / 400) else 0 } }

/-- R58. 1 s with a reference and no judgement. -/
def execClockJudgementTimeout (t : Nat) (s : State) : Host.Outcome State Fault Refusal :=
  if s.awake = true ∧ s.clk.judged = false ∧ s.clk.noref = false ∧ s.clk.plllock = true then
    .next ((s.at (max t (s.clk.judgeFrom + secCycles))).clockFault 6)
  else .next (s.at t)

/-- R60. The PLL loses lock; before judgement the module waits for it to lock again (R58), as R60 binds a judged clock. -/
def execPllLossOfLock (t : Nat) (s : State) : Host.Outcome State Fault Refusal :=
  let s := s.at t
  if s.awake = true ∧ s.clk.plllock = true ∧ s.clk.judged = true then .next (s.clockFault 5)
  else .next { s with clk := { s.clk with
    plllock := false
    good := 0
    exitAt := if s.phase = .inReset then none else s.clk.exitAt } }

/-- R62, R418. The RTC oscillator has stopped: the latch is lost, and the monitor takes a group's oscillator. -/
def execRtcOscillatorStopped (t : Nat) (s : State) : Host.Outcome State Fault Refusal :=
  let s := s.at t
  let s := { s with bk := { s.bk with
    valid := false
    oscstop := true
    alm1 := { s.bk.alm1 with mode := 0 }
    alm2 := { s.bk.alm2 with mode := 0 } } }.mark 0x1400 8
  if s.phase ≠ .unpowered ∧ s.clk.refsrc = false ∧ s.clk.noref = false then
    let s := { s with clk := { s.clk with rtcstop := true } }.mark 0x400 4
    let s := s.chooseRef
    .next (s.clockEvent 0x06 sevFault 0x0400)
  else .next s

/-- R63. A reference appears: a group's oscillator, else the RTC crystal; judgement has its 1 s from here. -/
def execReferenceAppears (t : Nat) (s : State) : Host.Outcome State Fault Refusal :=
  let s := s.at t
  if s.phase ≠ .unpowered ∧ s.clk.noref = true then
    let g := s.refGroup
    .next { s with clk := { s.clk with
      noref := false
      refsrc := g.isSome
      refgrp := BitVec.ofNat 4 ((g.map Fin.val).getD 0)
      good := 0
      judgeFrom := s.now } }
  else .next s

/-! ### Boot (R475 to R477) -/

/-- Segment i of an image header: OFFSET, LEN, TYPE (R474). -/
def segment (img : List Byte) (i : Nat) : Nat × Nat × Nat := (u32 img (64 + 80 * i), u32 img (68 + 80 * i), u8 img (72 + 80 * i))

def imageLength (img : List Byte) : Nat := u32 img 12

/-- LENGTH as R474 allows. -/
def lengthOk (n : Nat) : Bool := n % 4096 == 0 && decide (8192 ≤ n) && decide (n ≤ 0x1800000)

/-- MAGIC, FORMAT and the segment table (R474, R475 step 1). -/
def headerOk (img : List Byte) : Bool :=
  let n := u16 img 16
  let segs := (List.range n).map (segment img)
  u32 img 0 == 0x4957464D && u16 img 4 == 1 && lengthOk (imageLength img) && decide (1 ≤ n) && decide (n ≤ 8) &&
    segs.all (fun g => g.1 % 4096 == 0 && decide (4096 ≤ g.1) && decide (g.1 + g.2.1 ≤ imageLength img) && decide (1 ≤ g.2.2) && decide (g.2.2 ≤ 5)) &&
    (List.range n).all (fun i => (slice img (73 + 80 * i) 7).all (· == 0)) &&
    decide (segs.Pairwise (fun a b => a.1 + a.2.1 ≤ b.1 ∨ b.1 + b.2.1 ≤ a.1 ∨ a.2.1 = 0 ∨ b.2.1 = 0)) &&
    u8 img 72 == 1 && decide (u32 img 68 ≤ 0x100000)

/-- The digest of segment i matches. -/
def digestOk (img : List Byte) (i : Nat) : Bool :=
  Config.shake256 ((img.drop (segment img i).1).take (segment img i).2.1) == slice img (80 + 80 * i) 64

/-- The failure code of R475, 0 when the slot passes. -/
def imageCheck (c : Sec) (img : List Byte) : Nat :=
  let key := u8 img 7 % 4
  if !headerOk img then 1
  else if Config.hwMajor.toNat < u8 img 11 then 2
  else if !c.cset.getLsbD key || c.crev.getLsbD key || Config.shake256 (slice img 704 1793) != c.chash.toList.getD key [] then 3
  else if u8 img 6 < c.svncnt then 4
  else if !Config.falconVerify (slice img 704 1793) (Config.shake256 (slice img 0 2512)) (slice img 2512 1280) then 5
  else if !digestOk img 0 then 6
  else 0

def Sec.setState (c : Sec) (slot : Bool) (x : SlotSt) : Sec := if slot then { c with stB := x } else { c with stA := x }

/-- The boot ROM's first candidate and whether there is a second, after its record write (R476 step 1). -/
def Sec.candidates (c : Sec) : Sec × Bool × Bool :=
  let trial := if c.slotState c.active = .trial then some c.active else if c.slotState (!c.active) = .trial then some (!c.active) else none
  match trial with
  | some x =>
    if c.tries < 3 then ({ c with tries := c.tries + 1 }, x, true)
    else ({ (c.setState x .empty) with active := !x, abandoned := some x }, !x, false)
  | none => (c, c.active, c.slotState (!c.active) == .good || c.slotState (!c.active) == .old)

/-- The boot ROM's selection (R476): the slot that boots, or none. -/
def Sec.boot (c : Sec) : Sec × Bool :=
  let p := ({ c with fallback := false, failA := 0, failB := 0, abandoned := none, failed := none } : Sec).candidates
  let c := p.1
  let x := p.2.1
  let code (c : Sec) (y : Bool) : BitVec 3 := BitVec.ofNat 3 (imageCheck c (c.image y))
  let setFail (c : Sec) (y : Bool) (k : BitVec 3) : Sec := if y then { c with failB := k } else { c with failA := k }
  if code c x = 0 then ({ c with slot := x }, true)
  else
    let c := { setFail c x (code c x) with fallback := true, failed := some x }
    if p.2.2 = true ∧ code c (!x) = 0 then ({ c with slot := !x }, true)
    else (if p.2.2 then setFail c (!x) (code c (!x)) else c, false)

/-- The level at ROLEPREF changes; R39 samples it 1 ms before reset exit. -/
def State.setPref (s : State) (pin : Bool) : State :=
  let sampled := match s.phase, s.clk.exitAt with
    | .inReset, some e => decide (e ≤ s.now + msCycles)
    | _, _ => false
  { s with pwr := { s.pwr with
    rolePrefPin := pin
    prefSample := if sampled then s.pwr.prefSample <|> some s.pwr.rolePrefPin else none } }

/-- R69 step 5, R476. Reset ends: TB starts at 0, ROLEPREF holds its sample (R39), the night porter starts in boot mode (R407), and the
boot ROM selects an image, or holds (R477). -/
def execResetExit (t : Nat) (s : State) : Host.Outcome State Fault Refusal :=
  match s.phase, s.clk.exitAt with
  | .inReset, some e =>
    if s.pwr.vsup = true ∧ s.pwr.resetN = false then
      let s := s.at (max t e)
      let b := s.sec.boot
      .next { s with
        tb0 := s.now
        cycle := 0
        phase := if b.2 then .boot else .bootHold
        sec := b.1
        clk := { s.clk with exitAt := none }
        np := s.np.boot 0
        chans := s.chans.map (fun c => { c with recv := none, lastEdge := none })
        pwr := { s.pwr with
          pfwarn := false
          rolePref := s.pwr.prefSample.getD s.pwr.rolePrefPin
          prefSample := none } }
    else .next (s.at t)
  | _, _ => .next (s.at t)

/-! ### The steward's start (R69 step 6) -/

/-- The newest record of the book among some types: its eight words. -/
def newestOf (m : Mem) (types : List Nat) : Option (List Word) :=
  match gbNewest ((gbBook m).filter (fun r => types.contains (m.get (gbAddr r.1)).toNat)) with
  | none => none
  | some (slot, _) => some ((List.range 8).map (fun k => m.word (gbAddr slot + 28 + 4 * k)))

/-- R100, R414, R470. After a power-on the evidence registers are reloaded from the newest records. -/
def State.reloadEvidence (s : State) : State :=
  let s := match newestOf s.nv.mem [0x03] with
    | none => { s with scan := { s.scan with fev := Vector.replicate 5 0 } }
    | some w => { s with scan := { s.scan with fev := #v[w.getD 0 0, w.getD 1 0, w.getD 2 0, w.getD 3 0, w.getD 4 0] } }
  let w := (newestOf s.nv.mem [0x70, 0x71]).getD []
  { s with np := { s.np with
      evinfo := (w.getD 0 0).setWidth 6
      evapc := (w.getD 1 0).setWidth 20
      evspc := w.getD 2 0
      evatb := (w.getD 4 0) ++ (w.getD 3 0)
      evstb := (w.getD 6 0) ++ (w.getD 5 0) } }

/-- R420. The retention latch found lost. -/
def State.latchLost (s : State) : State :=
  let d := recData s.nv.mem 4
  let s := { s with bk := { s.bk with
      lostevt := true
      cal := Cal.epoch
      dst := false
      secAt := s.now
      saddle := Vector.replicate 32 0
      trim := BitVec.ofNat 6 (u8 d 0) } }
  s.gbEvent 0x80 0 sevFault [barWord s 0x1404]

/-- R466. Slots of the book with TYPE set and a CRC that fails. -/
def gbBad (m : Mem) : Nat := ((List.range 4096).filter (fun i => m.get (gbAddr i) != 0 && !gbValid (m.read (gbAddr i) 64))).length

/-- R459, R466. The scan of the guestbook: SEQ continues from the newest record. -/
def State.scanBook (s : State) : State :=
  let m := s.nv.mem
  let next : Word := match gbNewest (gbBook m) with
    | none => 0
    | some (_, q) => BitVec.ofNat 32 (q + 1)
  { s with gb := { s.gb with nextSeq := next, bad := BitVec.ofNat 13 (gbBad m) } }

/-- Every record number of the NV store (R443, R444). -/
def allRecs : List Nat := (List.range 8).map (· + 1) ++ (List.range 60).map (· + 0x100)

/-- A record whose slots hold something and no valid copy (R456 BADREC). -/
def recBad (m : Mem) (rec' : Nat) : Bool :=
  let span := if rec' < 0x100 then 0xE00 else 0x2200
  (recRead m rec').isNone && m.any (fun c => decide (recAddr rec' 0 ≤ c.1) && decide (c.1 < recAddr rec' 0 + span))

/-- R441, R456. The records are checked; equal sequence numbers are recorded. -/
def State.checkRecords (s : State) : State :=
  let dups := allRecs.filter (recDup s.nv.mem)
  let s := { s with nv := { s.nv with dupseq := dups != [], badrec := allRecs.any (recBad s.nv.mem) } }
  dups.foldl (fun s r => s.gbEvent 0x89 0 sevNotice [BitVec.ofNat 32 r]) s

/-- R403, R402. What the role record and the proof record hold. -/
def State.loadPairRecord (s : State) : State :=
  let d := recData s.nv.mem 2
  let w := u32 d 20
  let p := recData s.nv.mem 6
  let s := if d = [] then s else { s with pair := { s.pair with
      epoch := BitVec.ofNat 32 (u32 d 4)
      hold := BitVec.ofNat 12 (fld w 0 12)
      dtime := BitVec.ofNat 10 (fld w 12 10)
      agelim := BitVec.ofNat 10 (fld w 22 10) } }
  { s with chans := s.chans.mapFinIdx (fun n c _ => { c with proofHours := if p = [] ∨ u32 p (4 * n) = 0xFFFFFFFF then none else some (u32 p (4 * n)) }) }

/-- The record of a hardware fault that has not been written before its reset (R16, R98): always after a clock fault; else when the
newest such record of the book does not carry the evidence. -/
def State.owedFault (s : State) : State :=
  let c := s.clk.cause
  let same (w : List Word) : List Word := w.take 5 |>.mapIdx (fun i x => if i = 0 then x &&& ~~~((1 : Word) <<< 22) else x)
  let held := (newestOf s.nv.mem [0x03]).map same == some (same s.scan.fev.toList)
  if c = 5 ∨ c = 6 ∨ ((c = 7 ∨ c = 8 ∨ c = 9) ∧ held = false) then s.gbEvent 0x03 c.toNat sevCritical s.scan.fev.toList else s

/-- Records about the image that booted (R494). -/
def State.bootRecords (s : State) : State :=
  let s := match s.sec.abandoned with
    | some x => s.gbEvent 0x93 (b2n x) sevCritical [barWord s 0x6004]
    | none => s
  let s := match s.sec.failed with
    | some x => s.gbEvent 0x91 (b2n x) sevFault [barWord s 0x6004]
    | none => s
  let x := b2n s.sec.slot
  s.gbEvent 0x90 x sevInfo [barWord s 0x6004, barWord s (0x6008 + 4 * x)]

/-- An alarm flag of the backup domain, recorded (R431). -/
def State.alarmRecord (s : State) (k : Nat) : State := (s.gbEvent 0x83 k sevInfo [barWord s 0x1400]).raiseLater 5

/-- The steward begins to run (R69 step 6): FAULT_N follows R34, the PCIe link may train. -/
def State.stewardRuns (s : State) : State :=
    { s with
      phase := .running
      clk := { s.clk with tsteward := BitVec.ofNat 32 (s.tb / 400) }
      pwr := { s.pwr with faultN := s.pwr.faultHold }
      host := { s.host with linkUp := !s.pwr.perstN } }

/-- R69 step 6. The steward runs; the records owed since the reset follow (R61 to R63). -/
def execStewardStart (t : Nat) (s : State) : Host.Outcome State Fault Refusal :=
  let s := s.at t
  if s.phase = .boot then
    let s := s.stewardRuns
    let s := if s.clk.cause = 1 then s.reloadEvidence else s
    let s := (s.scanBook).gbEvent 0x01 s.clk.cause.toNat sevInfo [barWord s 0x0410, barWord s 0x0414]
    let s := s.flushOwed
    let s := if s.gb.bad = 0 then s else s.gbEvent 0x8B 0 sevNotice [barWord s 0x1C18]
    let s := if s.bk.valid then s else s.latchLost
    let s := s.checkRecords.bootRecords
    let s := s.owedFault
    let s := if s.clk.cause = 4 then s.gbEvent 0x71 (s.np.evinfo.toNat % 8) sevCritical s.npWords else s
    let s := s.loadPairRecord.loadTrims
    let s := if s.bk.a1 then s.alarmRecord 1 else s
    .next (if s.bk.a2 then s.alarmRecord 2 else s)
  else .next s

/-! ### Step 9 of R69 -/

/-- R299. The engines' check before the groups are configured; `oks` gives the group engines, then the spare. Which check an engine fails is
free, 1 to 5 (log entry 46). -/
def State.checkEngines (s : State) (oks : List Bool) : State :=
  let s := { s with spare := { s.spare with engok := oks.getD 12 true, failed := !oks.getD 12 true } }
  (fins 12).foldl (fun s g =>
    if s.groups[g].lplus = false then s
    else
      let ok := oks.getD g.val true
      let (w, s) := s.free
      let s := s.updGrp g (fun p => { p with
        engok := ok
        engSince := s.now
        failkind := if ok then p.failkind else BitVec.ofNat 3 (w.toNat % 5 + 1) })
      if ok then s else s.engineFailed g s.now) s

/-- R451. The retained windows of the stored configuration, from the base image with the journal replayed, in data memory. -/
def State.restoreRetained (s : State) (c : Conf) : State :=
  let m := s.nv.restored c
  let dm := (List.range c.way.tasks.length).foldl (fun (d : Mem) i =>
    d.write (c.an.retBase.getD i 0) (m.read (c.baseAddr i) ((c.task i).map Task.retLen |>.getD 0))) s.dmem
  { s with dmem := dm }

/-- The ring's next page and point after what it holds (R450, R451). -/
def State.openJournal (s : State) : State :=
  let d := recData s.nv.mem 8
  let from' := if d = [] then 0 else (u32 d 0 + 1) % 2 ^ 32
  let rec' := (List.range 512).takeWhile (fun k => (pageAt s.nv.mem (from' + k)).isSome)
  let last := (pageAt s.nv.mem (from' + rec'.length - 1)).map (fun p => u32 p 4 + 1)
  { s with nv := { s.nv with
      folded := from'
      jseq := from' + rec'.length
      point := if rec' = [] then 0 else last.getD 0 } }

/-- The stored configuration in force at a start: record 0x0001 valid and naming it (R70, R443). -/
def State.confRecordOk (s : State) : Bool :=
  match s.app.stored with
  | none => false
  | some c => u32 (recData s.nv.mem 1) 0 == c.way.crc.toNat && recData s.nv.mem 1 != []

/-- The newest record waiting is written at once, in the slot of R463: before a reset that the steward itself makes (R478, R486). -/
def State.bookNow (s : State) : State :=
  match s.gb.queue.getLast? with
  | none => s
  | some e =>
    match (List.range 4096).find? (gbFree s.nv.mem) <|> gbReplace (gbBook s.nv.mem) e.sev.toNat with
    | none => s
    | some slot => { s with nv := { s.nv with mem := s.nv.mem.write (gbAddr slot) e.bytes } }.pushBook e.bytes

/-- R478. A segment digest of the booted image fails. -/
def State.badSegment (s : State) : State :=
  let x := s.sec.slot
  let s := { s with sec := { (s.sec.setState x .empty) with active := !x } }
  (s.gbEvent 0x91 (b2n x) sevFault [barWord s 0x6004]).bookNow.enterReset 0x0B

/-- A first release may be made: the clock is judged (R59), the hold-up storage charged (R49), step 9 of R69 done, and neither a fault nor a
power failure is under way. -/
def State.mayRelease (s : State) : Bool :=
  s.steward && s.clk.judged && s.nv.ready && s.app.loaded && !s.halted && s.pwr.pf == .none

/-- PAIR_HYPER (R404): base ticks between common releases of all tasks. -/
def Conf.hyper (c : Conf) : Word := BitVec.ofNat 32 (min 0xFFFFFFFF ((c.way.tasks.map Task.k).foldl Nat.lcm 1))

/-- R69 step 9. Digests of the remaining segments, engines, stored code, retained variables, modes, CAN ports. -/
def execStartupConfigLoad (t : Nat) (digestsOk : Bool) (engines : List Bool) (s : State) : Host.Outcome State Fault Refusal :=
  let s := s.at t
  if s.steward = true ∧ s.clk.judged = true ∧ s.nv.ready = true ∧ s.pwr.pf = .none ∧ s.app.running = false then
    if digestsOk = false then .next s.badSegment
    else
      let s := (s.checkEngines engines).openJournal
      let s := { s with app := { s.app with
        runFlag := s.confRecordOk && bit (u8 (recData s.nv.mem 1) 4) 0
        loaded := true } }
      let s := (fins 4).foldl State.applyTerm s
      match s.app.stored with
      | none => .next s
      | some c =>
        let s := s.restoreRetained c
        let s := { s with app := { s.app with
          half := 0
          code := s.app.code.set 0 c.way.code }, pair := { s.pair with hyper := c.hyper } }
        let s := (fins 12).foldl (fun s g => s.loadGroup c g) s
        .next ((fins 4).foldl (fun s k => s.canConfigure (some c.way) k) s)
  else .next s

/-! ### Step 10 of R69 -/

/-- A start with a first release at the first base tick from a cycle number on (R355): the rooms of the stored configuration are WAITING
from here (R81). -/
def State.scheduleStart (s : State) (tick : Nat) (flagOk : Bool) (ref : Option CmdRef) : State :=
  let s := match s.app.stored with
    | none => s
    | some c => s.setUpRooms c
  { s with app := { s.app with start := some { tick := tick, flagOk := flagOk, ref := ref } } }

/-- R68, R70. The steward starts the stored configuration without a command, or holds it. -/
def execAutoStart (t : Nat) (s : State) : Host.Outcome State Fault Refusal :=
  let s := s.at t
  if s.steward = true ∧ s.clk.judged = true ∧ s.nv.ready = true ∧ s.pwr.pf = .none ∧ s.app.running = false ∧ s.app.start = none ∧
      s.halted = false ∧ s.confRecordOk = true ∧ s.app.runFlag = true ∧ s.app.held = false ∧ s.app.loaded = true then
    if s.app.hold then
      let s := { s with app := { s.app with held := true } }
      .next (s.gbEvent 0x04 0 sevCritical [barWord s 0x0414])
    else if s.isRelief = true ∨ (s.app.stored.map (fun c => c.way.pair)).getD false && s.pair.settled == false then .next s
    else .next (s.scheduleStart (s.cycle + 1) true none)
  else .next s

end Sys2Proof.Machine
end

