-- ==== Sys2Proof/Machine/Admit.lean ====
section
/-! DEFINITION. Loading and admitting waybills and staging swaps (R154 to R157, R166, R181, R183, R219, R220, R354, R452). -/

namespace Sys2Proof.Machine

/-! ### Load (R154, R354) -/

/-- A waybill's CODE section is larger than 2 MiB. -/
def codeTooLarge (bs : List Byte) : Bool := ((findSect (sections bs) 1).map (fun g => decide (0x200000 < g.len))).getD false

def loadChecks (e : CmdEntry) (dma : Option (List Byte)) (s : State) : List Check :=
  [(!e.formOk 0 [(4, 12)], 0x0101),
   (decide (e.w 4 < 256) || decide (0x300000 < e.w 4), 0x0103),
   (e.q 8 % 8 != 0, 0x0104),
   (s.inn.exam.isSome, 0x0212),
   (s.edits.swap != .none, 0x0222),
   (dma.isNone, 0x0105),
   (codeTooLarge (slice (dma.getD []) 0 (e.w 4)), 0x0106)]

/-- The waybill loaded, its code in the free half of the code store. -/
def State.loadWaybill (s : State) (bs : List Byte) : State :=
  { s with
    inn := { s.inn with loaded := some bs }
    app := { s.app with code := upd s.app.code (1 - s.app.half) (fun _ => codeWords bs (sections bs)) } }

/-- R354. Command 0x10. `dma` is what the buffer holds. -/
def execWaybillLoad (t : Nat) (c : RingId) (e : CmdEntry) (dma : Option (List Byte)) (s : State) : Host.Outcome State Fault Refusal :=
  .next (s.command t c 0x10 e (loadChecks e dma) (fun ref s =>
    let bs := slice (dma.getD []) 0 (e.w 4)
    (s.loadWaybill bs).complete ref 0 (toLe 4 bs.length ++ toLe 4 (u32 bs 16))))

/-! ### Requests (R155, R220) -/

/-- The examination of the loaded waybill begins. -/
def State.beginExam (s : State) (ref : Option CmdRef) (stage : Bool) : State :=
  { s with inn := { s.inn with exam := some { ref := ref, stage := stage } } }

/-- R155. Command 0x11. -/
def execAdmit (t : Nat) (c : RingId) (e : CmdEntry) (s : State) : Host.Outcome State Fault Refusal :=
  .next (s.command t c 0x11 e
    (fun s => [(!e.formOk 0 [], 0x0101), (s.app.running || s.app.start.isSome, 0x0211), (s.inn.exam.isSome, 0x0210)])
    (fun ref s => s.beginExam (some ref) false))

/-- An application runs here, or on the primary of a relief out of step (R220, R233). -/
def State.applies (s : State) : Bool := s.app.running || (s.pair.role == 3 && s.pair.partner.run)

/-- A batch is pending for a task that the loaded swap waybill changes. -/
def State.batchOfChanged (s : State) : Bool :=
  let ts := (parseWay (s.inn.loaded.getD [])).tasks
  s.edits.batches.any (fun b => ((ts[b.task]?).map Task.changed).getD false)

/-- R220. Command 0x21 with flag bit 0 clear. -/
def execSwapStage (t : Nat) (c : RingId) (e : CmdEntry) (s : State) : Host.Outcome State Fault Refusal :=
  .next (s.command t c 0x21 e
    (fun s => [(!e.formOk 1 [], 0x0101), (s.inn.exam.isSome, 0x0210), (!s.applies, 0x0220), (s.edits.swap != .none, 0x0222),
      (s.batchOfChanged, 0x0221)])
    (fun ref s => s.beginExam (some ref) true))

/-- R220, R230. Command 0x21 with flag bit 0 set. -/
def execSwapDiscard (t : Nat) (c : RingId) (e : CmdEntry) (s : State) : Host.Outcome State Fault Refusal :=
  .next (s.command t c 0x21 e
    (fun s => [(!e.formOk 1 [], 0x0101), (s.edits.swap == .pendSwitch || s.edits.swap == .pendRollback, 0x0227),
      (s.edits.swap != .staged, 0x0223)])
    (fun ref s => { s with edits := { s.edits with swap := .none, new := none } }.complete ref 0 []))

/-! ### Setting up windows (R166, R452) -/

/-- The retained window that task i of a new configuration starts with: that of the task with its TASKID and LAYOUT, else zeros (R452). -/
def State.keptWindow (s : State) (old : Option Conf) (c : Conf) (i : Nat) : List Byte :=
  let len := ((c.task i).map Task.retLen).getD 0
  match old, c.task i with
  | some o, some t =>
    match o.way.tasks.findIdx? (fun q => q.taskId == t.taskId) with
    | some j => if o.way.layout j = c.way.layout i then s.dmem.read (o.an.retBase.getD j 0) len else List.replicate len 0
    | none => List.replicate len 0
  | _, _ => List.replicate len 0

/-- The page programs of a record's next write. -/
def State.recPages (s : State) (rec' : Nat) (data : List Byte) : List (Nat × List Byte) :=
  let p := recNext s.nv.settled rec'
  slotPages (recAddr rec' p.1) (slotBytes rec' p.2 data)

/-- What a new stored configuration writes into the NV store: the base image with its retained windows, the journal folded up to its end, and
last the configuration record. All is done when the command that stores it completes (R157, R229; log entry 31), and page programs of the
former base image still waiting have no effect. -/
def State.commitConf (s : State) (c : Conf) (windows : List (List Byte)) (run : Bool) : State :=
  let base := (windows.mapIdx (fun i w => pageCuts 400 (c.baseAddr i) w)).flatten
  let ws := base ++ s.recPages 8 (toLe 4 ((s.nv.jseq + 2 ^ 32 - 1) % 2 ^ 32)) ++ s.recPages 1 (confRecord c.way.crc run)
  let mem := ws.foldl (fun (m : Mem) w => m.write w.1 w.2) s.nv.mem
  let inBase (j : NvJob) : Bool := decide (0x8000 ≤ j.addr) && decide (j.addr < 0x20000)
  { s with nv := { s.nv with
    mem := mem
    pages := s.nv.pages + BitVec.ofNat 32 ws.length
    folded := s.nv.jseq
    queue := s.nv.queue.filter (fun j => !inBase j)
    busy := s.nv.busy.map (fun j => if inBase j then { j with bytes := mem.read j.addr j.bytes.length } else j) } }

/-- Modes and CAN ports take a configuration (R265, R308). -/
def State.configureField (s : State) (c : Conf) : State :=
  let s := (fins 12).foldl (fun s g => s.loadGroup c g) s
  (fins 4).foldl (fun s k => s.canConfigure (some c.way) k) s

/-- The configurations of the two modules differ (R385): IDs, one of them without a configuration, or a swap on one side only. A staged
swap is compared with a partner's version on trial (R233). -/
def State.cfgDiffers (s : State) : Bool :=
  let p := s.pair.partner
  let mine := s.edits.helloCode
  let id := if mine = 1 ∧ p.swap = 2 then (s.edits.new.map (fun c => c.way.crc.toNat)).getD 0 else s.confId
  p.hello && (s.app.stored.isSome != p.stored || (p.stored && !(mine == 2 && p.swap == 1) && id != p.cfgid.toNat) || (mine == 2 && p.swap.toNat == 0) ||
    (mine == 0 && p.swap.toNat == 2))

/-- A new stored configuration in a pair (R382, R384, R385, R404): without PAIR the module says so with a HELLO of ROLE 0, stops the post road
and is single; with PAIR on a single module the role is open again. -/
def State.storedPair (s : State) (c : Conf) : State :=
  let s := { s with pair := { s.pair with hyper := c.hyper, cfgdiff := s.cfgDiffers } }
  if c.way.pair then
    if s.pair.role = 0 then { s with pair := { s.pair with settled := false } } else if s.pair.role = 3 then s.restartSync else s
  else if s.pair.role = 0 then { s with pair := { s.pair with settled := true, link := false, trained := false } }.flushLate false
  else
    let s := s.setRole 0 0 sevNotice
    let s := s.sendHello
    { s with pair := { s.pair with settled := true, link := false, trained := false, rsync := false } }

/-- R157, R80, R452. The admitted configuration replaces the stored one; its code is in the half that was free, and no receive byte of the
former one stays (R195). -/
def State.store (s : State) (c : Conf) : State :=
  let windows := (List.range c.way.tasks.length).map (s.keptWindow s.app.stored c)
  let s := { s with
    dmem := Mem.ofChunks (windows.mapIdx (fun i w => (c.an.retBase.getD i 0, w)))
    app := { s.app with
      stored := some c
      cur := some c
      runFlag := false
      half := 1 - s.app.half }
    img := { s.img with canRx := [] } }
  let s := s.mapRooms (fun v => { v with dirty := [], jdead := false })
  let s := (s.setUpRooms c).commitConf c windows false
  (s.configureField c).storedPair c

/-! ### Completion (R156, R157, R181, R183, R220, R483) -/

/-- TASKIDs and rooms of the running or stored configuration (R166). -/
def State.knownRooms (s : State) : List (Nat × Nat) :=
  match s.app.cur <|> s.app.stored with
  | none => []
  | some c => (c.way.tasks.map Task.taskId).zip c.an.rooms

/-- What the innkeeper's registers show of an examination that took `ms` milliseconds. -/
def Inn.report (i : Inn) (r : Report) (ms : Nat) : Inn :=
  { i with
    loaded := none
    exam := none
    refused := r.status != 0
    result := BitVec.ofNat 16 r.status
    time := BitVec.ofNat 12 ms
    detail := Vector.ofFn (fun k => BitVec.ofNat 32 (u32 r.bytes (4 * k.val))) }

/-- The examination of the loaded waybill; a swap is compared with the running configuration. -/
def State.examineLoaded (s : State) (stage : Bool) : Report :=
  examine s.sec (if stage then s.app.cur <|> s.app.stored else none) s.knownRooms (s.inn.loaded.getD [])

/-- The record of a refused signature: the KEYSLOT and the status (R483, R469). -/
def State.signatureRecord (s : State) (r : Report) (bs : List Byte) : State :=
  if r.status / 256 = 5 then
    s.gbEvent 0x95 (((findSect (sections bs) 0xFF).map (fun g => u8 bs g.off)).getD 0) sevNotice [BitVec.ofNat 32 r.status]
  else s

/-- R157, R220. The examination in progress ends. A staging whose application has stopped meanwhile completes with 0x0220; an admission that
passes ends once the NV store may be written (R438). -/
def execAdmissionComplete (t : Nat) (ms : Nat) (s : State) : Host.Outcome State Fault Refusal :=
  let s := s.at t
  match s.inn.exam with
  | none => .next s
  | some x =>
    if x.stage = true ∧ s.applies = false then
      .next ({ s with inn := { s.inn with exam := none } }.completeOpt x.ref 0x0220 [])
    else
      let r := s.examineLoaded x.stage
      if x.stage = false ∧ r.conf.isSome = true ∧ s.nv.ready = false then .next s
      else
      let s := s.signatureRecord r (s.inn.loaded.getD [])
      let s := { s with inn := s.inn.report r ms }
      match r.conf with
      | none => .next (s.completeOpt x.ref (BitVec.ofNat 16 r.status) (r.bytes.take 8))
      | some c =>
        if x.stage then
          .next ({ s with edits := { s.edits with swap := .staged, new := some c } }.completeOpt x.ref 0
            (toLe 4 c.way.crc.toNat ++ toLe 2 c.an.swapSlots ++ toLe 2 0))
        else .next ((s.store c).completeOpt x.ref 0 (toLe 4 c.way.crc.toNat ++ toLe 4 0))

end Sys2Proof.Machine
end

