-- ==== Sys2Proof/Machine/Arith.lean ====
section
/-! DEFINITION. The arithmetic units, special result registers and feature registers (R75, R78, R109, R119 to R124, R131, R143 to R145, R151). -/

namespace Sys2Proof.Machine

/-- A product or accumulated sum: the accumulator takes it at once (R119), MLO and MHI 24 cycles after the fetch (R75). -/
def Room.mulIssue (w : Room) (c : Nat) (x : DWord) : Room := { w with acc := x, macQ := insertDue w.macQ (c + 24, x) }

/-- A floating-point operation: FRS is written `lat` cycles after the fetch (R75). -/
def Room.fpuIssue (w : Room) (c lat : Nat) (x : Word) : Room := { w with fpuQ := insertDue w.fpuQ (c + lat, x) }

/-- A division: QUO and REM are written 144 cycles after the fetch (R75). -/
def Room.divIssue (w : Room) (c : Nat) (x : Word × Word) : Room := { w with divQ := insertDue w.divQ (c + 144, x) }

/-- 64-bit products (R143). -/
def mulS (a b : Word) : DWord := BitVec.ofInt 64 (a.toInt * b.toInt)
def mulU (a b : Word) : DWord := BitVec.ofNat 64 (a.toNat * b.toNat)

/-- R143. s(ra) × s(rb). -/
def execMul (t : Nat) (r : RoomId) (ra rb : Reg) (s : State) : Host.Outcome State Fault Refusal :=
  .next (s.laneArith t r [ra, rb] (fun v c w => w.mulIssue c (mulS (v.get ra) (v.get rb))))

/-- R143. u(ra) × u(rb). -/
def execMulu (t : Nat) (r : RoomId) (ra rb : Reg) (s : State) : Host.Outcome State Fault Refusal :=
  .next (s.laneArith t r [ra, rb] (fun v c w => w.mulIssue c (mulU (v.get ra) (v.get rb))))

/-- R143, R144. acc + s(ra) × s(rb), modulo 2⁶⁴. -/
def execMac (t : Nat) (r : RoomId) (ra rb : Reg) (s : State) : Host.Outcome State Fault Refusal :=
  .next (s.laneArith t r [ra, rb] (fun v c w => w.mulIssue c (v.acc + mulS (v.get ra) (v.get rb))))

/-- R143, R144. acc + u(ra) × u(rb), modulo 2⁶⁴. -/
def execMacu (t : Nat) (r : RoomId) (ra rb : Reg) (s : State) : Host.Outcome State Fault Refusal :=
  .next (s.laneArith t r [ra, rb] (fun v c w => w.mulIssue c (v.acc + mulU (v.get ra) (v.get rb))))

/-- R143. FRS = ra + rb in binary32. -/
def execFadd (t : Nat) (r : RoomId) (ra rb : Reg) (s : State) : Host.Outcome State Fault Refusal :=
  .next (s.laneArith t r [ra, rb] (fun v c w => w.fpuIssue c 32 (fAdd (v.get ra) (v.get rb))))

/-- R143. FRS = ra − rb in binary32. -/
def execFsub (t : Nat) (r : RoomId) (ra rb : Reg) (s : State) : Host.Outcome State Fault Refusal :=
  .next (s.laneArith t r [ra, rb] (fun v c w => w.fpuIssue c 32 (fSub (v.get ra) (v.get rb))))

/-- R143. FRS = ra × rb in binary32. -/
def execFmul (t : Nat) (r : RoomId) (ra rb : Reg) (s : State) : Host.Outcome State Fault Refusal :=
  .next (s.laneArith t r [ra, rb] (fun v c w => w.fpuIssue c 32 (fMul (v.get ra) (v.get rb))))

/-- R143. FRS = ra ÷ rb in binary32. -/
def execFdiv (t : Nat) (r : RoomId) (ra rb : Reg) (s : State) : Host.Outcome State Fault Refusal :=
  .next (s.laneArith t r [ra, rb] (fun v c w => w.fpuIssue c 96 (fDiv (v.get ra) (v.get rb))))

/-- R143. FRS = the smaller in binary32. -/
def execFmin (t : Nat) (r : RoomId) (ra rb : Reg) (s : State) : Host.Outcome State Fault Refusal :=
  .next (s.laneArith t r [ra, rb] (fun v c w => w.fpuIssue c 32 (fMin (v.get ra) (v.get rb))))

/-- R143. FRS = the larger in binary32. -/
def execFmax (t : Nat) (r : RoomId) (ra rb : Reg) (s : State) : Host.Outcome State Fault Refusal :=
  .next (s.laneArith t r [ra, rb] (fun v c w => w.fpuIssue c 32 (fMax (v.get ra) (v.get rb))))

/-- R143. FRS = the comparison code in binary32. -/
def execFcmp (t : Nat) (r : RoomId) (ra rb : Reg) (s : State) : Host.Outcome State Fault Refusal :=
  .next (s.laneArith t r [ra, rb] (fun v c w => w.fpuIssue c 32 (fCmp (v.get ra) (v.get rb))))

/-- R143. FRS = s(ra) as binary32. -/
def execItof (t : Nat) (r : RoomId) (ra : Reg) (s : State) : Host.Outcome State Fault Refusal :=
  .next (s.laneArith t r [ra] (fun v c w => w.fpuIssue c 32 (itof (v.get ra))))

/-- R143. FRS = u(ra) as binary32. -/
def execUtof (t : Nat) (r : RoomId) (ra : Reg) (s : State) : Host.Outcome State Fault Refusal :=
  .next (s.laneArith t r [ra] (fun v c w => w.fpuIssue c 32 (utof (v.get ra))))

/-- R143. FRS = ra as a signed integer. -/
def execFtoi (t : Nat) (r : RoomId) (ra : Reg) (s : State) : Host.Outcome State Fault Refusal :=
  .next (s.laneArith t r [ra] (fun v c w => w.fpuIssue c 32 (ftoi (v.get ra))))

/-- R124, R143. QUO and REM, signed. -/
def execDiv (t : Nat) (r : RoomId) (ra rb : Reg) (s : State) : Host.Outcome State Fault Refusal :=
  .next (s.laneArith t r [ra, rb] (fun v c w => w.divIssue c (divS (v.get ra) (v.get rb))))

/-- R124, R143. QUO and REM, unsigned. -/
def execDivu (t : Nat) (r : RoomId) (ra rb : Reg) (s : State) : Host.Outcome State Fault Refusal :=
  .next (s.laneArith t r [ra, rb] (fun v c w => w.divIssue c (divU (v.get ra) (v.get rb))))

/-- The special result register that MFS reads (R122). -/
def Room.spr (v : Room) : Spr → Word
  | .mlo => v.mlo
  | .mhi => v.mhi
  | .frs => v.frs
  | .quo => v.quo
  | .rem => v.rem

/-- MTS writes one; MLO and MHI replace their half of the accumulator (R122, R144). -/
def Room.setSpr (v : Room) (p : Spr) (x : Word) : Room :=
  match p with
  | .mlo => { v with mlo := x, acc := (v.acc.extractLsb' 32 32) ++ x }
  | .mhi => { v with mhi := x, acc := x ++ (v.acc.setWidth 32) }
  | .frs => { v with frs := x }
  | .quo => { v with quo := x }
  | .rem => { v with rem := x }

/-- R122, R151. rd = the special result register. -/
def execMfs (t : Nat) (r : RoomId) (rd : Reg) (spr : Spr) (s : State) : Host.Outcome State Fault Refusal :=
  .next (s.lane t r (sprPending spr) (fun v _ s => s.updRoom r (fun w => w.put rd (v.spr spr))))

/-- R122, R151. The special result register = ra. -/
def execMts (t : Nat) (r : RoomId) (spr : Spr) (ra : Reg) (s : State) : Host.Outcome State Fault Refusal :=
  .next (s.lane t r (loadPending [ra]) (fun v _ s => s.updRoom r (fun w => w.setSpr spr (v.get ra))))

/-- R131. rd = FEATn; LANEARITH is the lane class of the room. -/
def execRdfeat (t : Nat) (r : RoomId) (rd : Reg) (feat : Fin 4) (s : State) : Host.Outcome State Fault Refusal :=
  .next (s.laneReg t r rd [] (fun v => feature feat.val (decide (6 ≤ v.lane.val))) (fun _ w => w))

/-- R109. A word that is no instruction writes nothing; the next instruction is at PC + 1. -/
def execInvalidWordFetched (t : Nat) (r : RoomId) (_word : Word) (s : State) : Host.Outcome State Fault Refusal :=
  .next (s.lane t r (fun _ => false) (fun _ _ s => s))

/-- The results of one unit that are due, written (R75, R78). -/
def Room.landMac (v : Room) (now : Nat) : Room :=
  let v' := (v.macQ.filter (fun e => e.1 ≤ now)).foldl (fun v e => { v with mlo := e.2.setWidth 32, mhi := (e.2 >>> 32).setWidth 32 }) v
  { v' with macQ := v.macQ.filter (fun e => !decide (e.1 ≤ now)) }
def Room.landFpu (v : Room) (now : Nat) : Room :=
  let v' := (v.fpuQ.filter (fun e => e.1 ≤ now)).foldl (fun v e => { v with frs := e.2 }) v
  { v' with fpuQ := v.fpuQ.filter (fun e => !decide (e.1 ≤ now)) }
def Room.landDiv (v : Room) (now : Nat) : Room :=
  let v' := (v.divQ.filter (fun e => e.1 ≤ now)).foldl (fun v e => { v with quo := e.2.1, rem := e.2.2 }) v
  { v' with divQ := v.divQ.filter (fun e => !decide (e.1 ≤ now)) }

/-- R75, R78. The result due is written to MLO and MHI at c + 24, whichever room is issuing. -/
def execMacResultWrite (t : Nat) (r : RoomId) (s : State) : Host.Outcome State Fault Refusal :=
  .next ((s.at t).updRoom r (fun v => v.landMac (s.at t).now))

/-- R75, R78. The result due is written to FRS at c + 32, or c + 96 for FDIV, whichever room is issuing. -/
def execFpuResultWrite (t : Nat) (r : RoomId) (s : State) : Host.Outcome State Fault Refusal :=
  .next ((s.at t).updRoom r (fun v => v.landFpu (s.at t).now))

/-- R75, R78. The result due is written to QUO and REM at c + 144, whichever room is issuing. -/
def execDividerResultWrite (t : Nat) (r : RoomId) (s : State) : Host.Outcome State Fault Refusal :=
  .next ((s.at t).updRoom r (fun v => v.landDiv (s.at t).now))

end Sys2Proof.Machine
end

