-- ==== Sys2Proof/Machine/Backup.lean ====
section
/-! DEFINITION. The backup domain: calendar, comparators, snapshots, saddlebag and its commands (R416 to R433). -/

namespace Sys2Proof.Machine

/-! ### The calendar (R426) -/

/-- A leap year, counted from 2000 (R426). -/
def leap (y : Nat) : Bool := y % 4 == 0 && y != 100

def daysIn (y m : Nat) : Nat :=
  if m = 2 then (if leap y then 29 else 28) else if m = 4 ∨ m = 6 ∨ m = 9 ∨ m = 11 then 30 else 31

/-- Days of the years before year y and of the months before month m. -/
def daysBefore (y m : Nat) : Nat := 365 * y + (y + 3) / 4 - (if 100 < y then 1 else 0) + ((List.range (m - 1)).map (fun k => daysIn y (k + 1))).foldl (· + ·) 0

/-- The weekday of a date; 2000-01-01 is weekday 5. -/
def weekdayOf (y m d : Nat) : Nat := (daysBefore y m + d - 1 + 5) % 7

/-- The day after; `true` when the calendar wraps after 2199-12-31. -/
def Cal.nextDay (c : Cal) : Cal × Bool :=
  let w := (c.weekday + 1) % 7
  if c.day < daysIn c.year c.month then ({ c with day := c.day + 1, weekday := w }, false)
  else if c.month < 12 then ({ c with day := 1, month := c.month + 1, weekday := w }, false)
  else if c.year < 199 then ({ c with day := 1, month := 1, year := c.year + 1, weekday := w }, false)
  else ({ c with day := 1, month := 1, year := 0, weekday := 5 }, true)

def Cal.nextHour (c : Cal) : Cal × Bool :=
  if c.hour < 23 then ({ c with hour := c.hour + 1 }, false) else ({ c with hour := 0 } : Cal).nextDay

/-- The next second (R426). -/
def Cal.next (c : Cal) : Cal × Bool :=
  if c.second < 59 then ({ c with second := c.second + 1 }, false)
  else
    let c := { c with second := 0 }
    if c.minute < 59 then ({ c with minute := c.minute + 1 }, false) else ({ c with minute := 0 } : Cal).nextHour

/-- The day before; none before 2000-01-01. -/
def Cal.prevDay (c : Cal) : Option Cal :=
  let w := (c.weekday + 6) % 7
  if 1 < c.day then some { c with day := c.day - 1, weekday := w }
  else if 1 < c.month then some { c with day := daysIn c.year (c.month - 1), month := c.month - 1, weekday := w }
  else if 0 < c.year then some { c with day := 31, month := 12, year := c.year - 1, weekday := w }
  else none

/-- One hour later or earlier, none outside 2000 to 2199 (R424). -/
def Cal.shift (c : Cal) (sub : Bool) : Option Cal :=
  if sub then (if 0 < c.hour then some { c with hour := c.hour - 1 } else ({ c with hour := 23 } : Cal).prevDay)
  else
    let p := c.nextHour
    if p.2 then none else some p.1

/-! ### Comparators (R429 to R431) -/

/-- A MODE 1 comparator matches: every unmasked field equals the calendar (R429). -/
def Alarm.hit (a : Alarm) (c : Cal) : Bool :=
  let ok (k x y : Nat) : Bool := a.mask.getLsbD k || x == y
  a.mode == 1 && ok 0 a.second.toNat c.second && ok 1 a.minute.toNat c.minute && ok 2 a.hour.toNat c.hour && ok 3 a.day.toNat c.day &&
    ok 4 a.month.toNat c.month && ok 5 a.weekday.toNat c.weekday

/-- An event flag sets; while the steward runs it is recorded with vector 5 (R431). -/
def State.alarmFlag (s : State) (k : Nat) : State :=
  let s := { s with bk := if k = 1 then { s.bk with a1 := true } else { s.bk with a2 := true } }
  let s := s.mark 0x1400 (if k = 1 then 256 else 512)
  if s.steward then s.alarmRecord k else s

/-- The comparators compare with a new calendar value (R430). -/
def State.compareAlarms (s : State) : State :=
  let s' := if s.bk.alm1.hit s.bk.cal then s.alarmFlag 1 else s
  if s.bk.alm2.hit s.bk.cal then s'.alarmFlag 2 else s'

/-! ### Seconds -/

/-- The calendar takes its next second at a boundary. -/
def Backup.second (b : Backup) : Backup :=
  let p := b.cal.next
  { b with
    cal := p.1
    wrapped := b.wrapped || p.2
    secAt := b.secAt + secCycles }

/-- Seconds up to a boundary. -/
def Backup.upTo (b : Backup) (due : Nat) : Backup :=
  let b := if b.secAt < due then b.second else b
  if b.secAt < due then b.second else b

/-- The summer-time step at its boundary (R424). -/
def State.stepDst (s : State) : State :=
  match s.bk.dstStep with
  | none => s
  | some (sub, due, ref) =>
    let b := s.bk.upTo due
    let s := { s with bk := { b with
      cal := (b.cal.shift sub).getD b.cal
      dst := !sub
      dstStep := none } }
    let s := s.compareAlarms
    let s := if s.steward then s.gbEvent 0x82 0 sevInfo [] else s
    s.complete ref 0 []

/-- R424. The step is made. -/
def execSummerTimeStep (t : Nat) (s : State) : Host.Outcome State Fault Refusal :=
  match s.bk.dstStep with
  | none => .next (s.at t)
  | some (_, due, _) => .next (s.at (max t due)).stepDst

/-- R426, R430. The calendar's next second; the boundary of a summer-time step makes the step. -/
def execRtcSecond (t : Nat) (s : State) : Host.Outcome State Fault Refusal :=
  let due := s.bk.secAt + secCycles
  let s := s.at (max t due)
  let steps := match s.bk.dstStep with | some (_, d, _) => d == due | none => false
  if steps then .next s.stepDst else .next { s with bk := s.bk.second }.compareAlarms

/-- R429. The countdown of comparator 2 expires. -/
def execCountdownExpiry (t : Nat) (s : State) : Host.Outcome State Fault Refusal :=
  if s.bk.alm2.mode = 2 then
    let s := s.at (max t (s.bk.cntAt + (s.bk.cnt.toNat - 1) * 6250000))
    let s := { s with bk := { s.bk with alm2 := { s.bk.alm2 with mode := 0 } } }
    .next (s.alarmFlag 2)
  else .next (s.at t)

/-- R418. The backup voltage falls below 1.65 V: the latch is lost, and both comparators go off. -/
def execBackupVoltageLow (t : Nat) (s : State) : Host.Outcome State Fault Refusal :=
  let s := s.at t
  .next { s with bk := { s.bk with
    valid := false
    alm1 := { s.bk.alm1 with mode := 0 }
    alm2 := { s.bk.alm2 with mode := 0 } } }

/-! ### Reading (R421, R422) -/

/-- The snapshot that a read of the group returns, and the count of its path after it. -/
def State.rtcSnap (s : State) (path : RtcPath) : RtcSnap × BitVec 4 :=
  let p := match path with
    | .bar0 => (s.bk.snapBar, s.bk.numBar)
    | .steward => (s.bk.snapStw, s.bk.numStw)
  let fresh : RtcSnap := { sub := s.rtcSub, cal := s.bk.cal, dst := s.bk.dst, num := p.2 + 1, at' := s.now }
  match p.1 with
  | some x => if s.now < x.at' + secCycles then (x, p.2) else (fresh, p.2 + 1)
  | none => (fresh, p.2 + 1)

/-- What a read of a register of the group delivers (R421, R422). -/
def State.rtcRead (s : State) (reg : RtcReg) (path : RtcPath) : Word :=
  let x := (s.rtcSnap path).1
  match reg with
  | .sub => pack [(0, 15, x.sub), (28, 4, x.num.toNat)]
  | .time => rtcTimeWord x.cal x.num.toNat
  | .date => rtcDateWord x.cal x.dst x.num.toNat

/-- R421. A read takes a snapshot when its path holds none; a read of RTC_DATE ends it. -/
def execRtcGroupRead (t : Nat) (reg : RtcReg) (path : RtcPath) (s : State) : Host.Outcome State Fault Refusal :=
  let s := s.at t
  if s.steward then
    let x := s.rtcSnap path
    let held := match reg with | .date => none | _ => some x.1
    match path with
    | .bar0 => .next { s with bk := { s.bk with snapBar := held, numBar := x.2 } }
    | .steward => .next { s with bk := { s.bk with snapStw := held, numStw := x.2 } }
  else .next s

/-- R421. A snapshot ends 1 s after it was taken. -/
def execRtcSnapshotExpiry (t : Nat) (path : RtcPath) (s : State) : Host.Outcome State Fault Refusal :=
  match path with
  | .bar0 => match s.bk.snapBar with
    | none => .next (s.at t)
    | some x =>
      let s := s.at (max t (x.at' + secCycles))
      .next { s with bk := { s.bk with snapBar := none } }
  | .steward => match s.bk.snapStw with
    | none => .next (s.at t)
    | some x =>
      let s := s.at (max t (x.at' + secCycles))
      .next { s with bk := { s.bk with snapStw := none } }

/-! ### Commands (R423 to R428) -/

/-- A set or a step is pending (R425). -/
def Backup.waits (b : Backup) : Bool := b.stagedSet.isSome || b.dstStep.isSome

/-- The calendar value that an entry of 0x50 gives. -/
def calOf (e : CmdEntry) : Cal :=
  { second := e.b 10
    minute := e.b 9
    hour := e.b 8
    day := e.b 7
    month := e.b 6
    year := e.h 4 - 2000
    weekday := weekdayOf (e.h 4 - 2000) (e.b 6) (e.b 7) }

def rtcSetChecks (e : CmdEntry) (s : State) : List Check :=
  [(!e.formOk 0 [(4, 8)] || decide (1 < e.b 11), 0x0101),
   (decide (e.h 4 < 2000) || decide (2199 < e.h 4) || decide (e.b 6 < 1) || decide (12 < e.b 6) || decide (e.b 7 < 1) || decide (31 < e.b 7) ||
      decide (23 < e.b 8) || decide (59 < e.b 9) || decide (59 < e.b 10), 0x0103),
   (s.bk.waits, 0x0260),
   (decide (daysIn (e.h 4 - 2000) (e.b 6) < e.b 7), 0x0150)]

/-- R423. Command 0x50 stages a new time. -/
def execRtcSet (t : Nat) (c : RingId) (e : CmdEntry) (s : State) : Host.Outcome State Fault Refusal :=
  .next (s.command t c 0x50 e (rtcSetChecks e) (fun ref s =>
    { s with bk := { s.bk with stagedSet := some (calOf e, bit (e.b 11) 0, ref) } }))

/-- R423. The staged time is committed with the divider at zero; the latch becomes valid. -/
def execRtcSetCommit (t : Nat) (s : State) : Host.Outcome State Fault Refusal :=
  let s := s.at t
  match s.bk.stagedSet with
  | none => .next s
  | some (cal, dst, ref) =>
    let s := { s with bk := { s.bk with
      cal := cal
      dst := dst
      secAt := s.now
      valid := true
      wrapped := false
      stagedSet := none } }
    let s := if s.steward then s.gbEvent 0x81 0 sevInfo [] else s
    .next (s.complete ref 0 [])

/-- The boundary of a step: the first second boundary more than 61 µs after acceptance (R424). -/
def State.dstDue (s : State) : Nat :=
  let b := s.bk.secAt + secCycles
  if s.now + 61 * usCycles < b then b else b + secCycles

/-- The calendar value at the step's boundary before the step. -/
def State.dstBase (s : State) : Cal := (s.bk.upTo s.dstDue).cal

def dstChecks (e : CmdEntry) (sub : Bool) (s : State) : List Check :=
  [(!e.formOk 1 [], 0x0101),
   (s.bk.waits, 0x0260),
   (s.bk.dst == !sub, 0x0261),
   ((s.dstBase.shift sub).isNone, 0x0262)]

/-- The step of a summer-time command is scheduled (R424). -/
def State.scheduleDst (s : State) (sub : Bool) (ref : CmdRef) : State :=
  { s with bk := { s.bk with dstStep := some (sub, s.dstDue, ref) } }

/-- R424. Command 0x51 with FLAGS bit 0 = 0. -/
def execSummerTimeAdd (t : Nat) (c : RingId) (e : CmdEntry) (s : State) : Host.Outcome State Fault Refusal :=
  .next (s.command t c 0x51 e (dstChecks e false) (fun ref s => s.scheduleDst false ref))

/-- R424. Command 0x51 with FLAGS bit 0 = 1. -/
def execSummerTimeSubtract (t : Nat) (c : RingId) (e : CmdEntry) (s : State) : Host.Outcome State Fault Refusal :=
  .next (s.command t c 0x51 e (dstChecks e true) (fun ref s => s.scheduleDst true ref))

/-- A field of a comparator lies outside its range when it is not masked, or is not zero when it is (R428). -/
def badField (mask k lo hi x : Nat) : Bool := if bit mask k then x != 0 else decide (x < lo) || decide (hi < x)

def alarmChecks (e : CmdEntry) (_ : State) : List Check :=
  let m := e.h 6
  [(!e.formOk 0 [(4, 10), (16, 4)] || decide (63 < m), 0x0101),
   (decide (e.b 4 < 1) || decide (2 < e.b 4) || decide (2 < e.b 5) || badField m 0 0 59 (e.b 8) || badField m 1 0 59 (e.b 9) ||
      badField m 2 0 23 (e.b 10) || badField m 3 1 31 (e.b 11) || badField m 4 1 12 (e.b 12) || badField m 5 0 6 (e.b 13) ||
      (e.b 5 == 2 && e.b 4 == 1) || (e.b 5 == 2 && (decide (e.w 16 < 1) || decide (16777215 < e.w 16))) || (e.b 5 != 2 && e.w 16 != 0), 0x0103)]

/-- The set-up that an entry of 0x52 gives. -/
def alarmOfEntry (e : CmdEntry) : Alarm :=
  { mode := BitVec.ofNat 2 (e.b 5)
    mask := BitVec.ofNat 6 (e.h 6)
    second := BitVec.ofNat 6 (e.b 8)
    minute := BitVec.ofNat 6 (e.b 9)
    hour := BitVec.ofNat 5 (e.b 10)
    day := BitVec.ofNat 5 (e.b 11)
    month := BitVec.ofNat 4 (e.b 12)
    weekday := BitVec.ofNat 3 (e.b 13) }

/-- R428. Command 0x52 programs a comparator and clears its flag. -/
def execAlarmSetUp (t : Nat) (c : RingId) (e : CmdEntry) (s : State) : Host.Outcome State Fault Refusal :=
  .next (s.command t c 0x52 e (alarmChecks e) (fun ref s =>
    let s := if e.b 4 = 1 then { s with bk := { s.bk with alm1 := alarmOfEntry e, a1 := false } }
      else { s with bk := { s.bk with
        alm2 := alarmOfEntry e
        a2 := false
        cnt := BitVec.ofNat 24 (e.w 16)
        cntAt := s.now } }
    s.complete ref 0 []))

/-! ### Register writes (R427, R432) -/

/-- R427. RTC_TRIM; the steward copies the value into the NV store at every change. -/
def execRtcTrimWrite (t : Nat) (val : Word) (s : State) : Host.Outcome State Fault Refusal :=
  let s := s.at t
  if s.steward then
    let same : Bool := s.bk.trim == val.setWidth 6
    let s := { s with bk := { s.bk with trim := val.setWidth 6 } }
    .next (if same then s else s.recWrite 4 4 (toLe 1 (fld val.toNat 0 6)) (fun _ => .nothing))
  else .next s

/-- R432. A word of the saddlebag. -/
def execSaddlebagWrite (t : Nat) (w : Fin 32) (val : Word) (s : State) : Host.Outcome State Fault Refusal :=
  let s := s.at t
  .next (if s.steward then { s with bk := { s.bk with saddle := upd s.bk.saddle w (fun _ => val) } } else s)

end Sys2Proof.Machine
end

