-- ==== Sys2Proof/Machine/Book.lean ====
section
/-! DEFINITION. The NV store's programs and commands, and the guestbook's writes and reads (R366, R436 to R446, R453 to R456, R461 to
R468). -/

namespace Sys2Proof.Machine

/-! ### Page programs (R436, R437) -/

/-- The bytes that a program which failed its read-back leaves: unconstrained, one free value each (log entry 10). -/
def freeBytes : Nat → Nat → List Byte
  | 0, _ => []
  | n + 1, k => (Config.freeWord k).setWidth 8 :: freeBytes n (k + 1)

/-- A write has ended, whole: what awaits it (R293, R355, R356, R450, R453). -/
def State.written (s : State) (d : NvDone) : State :=
  match d with
  | .nothing => s
  | .command ref seq => s.complete ref 0 (toLe 4 seq.toNat)
  | .startFlag =>
    match s.app.start with
    | none => s
    | some q => { s with app := { s.app with
        runFlag := true
        start := some { q with flagOk := true, tick := max q.tick (s.cycle + 1) } } }
  | .stopFlag =>
    match s.app.stop with
    | none => s
    | some q => { s with app := { s.app with runFlag := false, stop := none } }.completeAll q.refs 0 (toLe 6 q.tick)
  | .calib ref ch result points => s.trimStored ref ch result points
  | .fold upto => { s with nv := { s.nv with folded := max s.nv.folded upto } }

/-- A write has ended with a program failure (R436). -/
def State.writeFailed (s : State) (d : NvDone) : State :=
  match d with
  | .nothing => s
  | .command ref _ => s.complete ref 0x0605 []
  | .startFlag =>
    match s.app.start with
    | none => s
    | some q => { s with app := { s.app with start := none } }.completeOpt q.ref 0x0605 []
  | .stopFlag =>
    match s.app.stop with
    | none => s
    | some q => { s with app := { s.app with stop := none } }.completeAll q.refs 0x0605 []
  | .calib ref _ _ _ => s.complete ref 0x0605 []
  | .fold _ => s

/-- What a write carries to its end: the mark of its last program. -/
def Nv.doneOf (n : Nv) (j : NvJob) : NvDone :=
  match (j :: n.queue.filter (fun q => q.write == j.write)).find? (fun q => q.done != .nothing) with
  | none => .nothing
  | some q => q.done

/-- The controller takes its next program, except while a power failure waits for its last base tick (R50). -/
def State.nvNext (s : State) : State := { s with nv := s.nv.start }

/-- A record slot whose program has failed twice is left with a CRC that fails (R442): among the bytes that the program leaves, those that would
make a valid slot do not occur. -/
def spoiled (m : Mem) (j : NvJob) : Mem :=
  if j.bytes ≠ [] ∧ (slotAt m j.addr).isSome = true then m.write j.addr [m.get j.addr ^^^ 1] else m

/-- R436. The program in progress ends; `ok` when the read-back matches. -/
def execNvPageProgramComplete (t : Nat) (ok : Bool) (s : State) : Host.Outcome State Fault Refusal :=
  let s := s.at t
  match s.nv.busy with
  | none => .next s
  | some j =>
    let s := { s with nv := { s.nv with pages := s.nv.pages + 1 } }
    if ok then
      let s := { s with nv := { s.nv with
        busy := none
        mem := s.nv.mem.write j.addr j.bytes } }
      .next (s.written j.done).nvNext
    else
      let left := s.nv.mem.write j.addr (freeBytes j.bytes.length s.fresh)
      let s := { s with fresh := s.fresh + j.bytes.length, nv := { s.nv with mem := left } }
      if j.retry = false then .next { s with nv := { s.nv with busy := some { j with retry := true } } }
      else
        let d := s.nv.doneOf j
        let s := { s with nv := { s.nv with mem := spoiled s.nv.mem j } }
        let s := { s with nv := { s.nv with
          busy := none
          pfail := true
          queue := s.nv.queue.filter (fun q => q.write != j.write) } }
        let s := s.mark 0x1800 4
        let s := if s.steward then s.gbEvent 0x88 0 sevFault [BitVec.ofNat 32 (j.addr / 256 * 256)] else s
        .next (s.writeFailed d).nvNext

/-! ### Commands (R439, R453 to R455) -/

/-- The record lies in a protected quarter (R439). -/
def State.protected' (s : State) (rec' : Nat) : Bool :=
  let q := (rec' - 0x100) / 15
  decide (0x100 ≤ rec') && (if s.bp = 1 then q == 3 else if s.bp = 2 then decide (2 ≤ q) else s.bp == 3)

def nvWriteChecks (e : CmdEntry) (dma : Option (List Byte)) (s : State) : List Check :=
  [(!e.formOk 0 [(4, 12)], 0x0101),
   (decide (e.h 6 < 1) || decide (4096 < e.h 6), 0x0103),
   (e.q 8 % 8 != 0, 0x0104),
   (recSize (e.h 4) == 0 || decide (e.h 4 < 0x100), 0x0601),
   (s.protected' (e.h 4), 0x0604),
   (!s.nv.ready, 0x0606),
   (dma.isNone, 0x0105)]

/-- R453. Command 0x60. `dma` is what the buffer holds. -/
def execNvRecordWrite (t : Nat) (c : RingId) (e : CmdEntry) (dma : Option (List Byte)) (s : State) : Host.Outcome State Fault Refusal :=
  .next (s.command t c 0x60 e (nvWriteChecks e dma) (fun ref s =>
    s.recWrite 5 (e.h 4) (slice (dma.getD []) 0 (e.h 6)) (fun seq => .command ref (BitVec.ofNat 32 seq))))

def nvReadChecks (e : CmdEntry) (s : State) : List Check :=
  [(!e.formOk 0 [(4, 12)], 0x0101),
   (decide (e.h 6 < 1) || decide (4096 < e.h 6), 0x0103),
   (e.q 8 % 8 != 0, 0x0104),
   (recSize (e.h 4) == 0, 0x0601),
   ((recRead s.nv.mem (e.h 4)).isNone, 0x0603)]

/-- R454. Command 0x61. -/
def execNvRecordRead (t : Nat) (c : RingId) (e : CmdEntry) (s : State) : Host.Outcome State Fault Refusal :=
  .next (s.command t c 0x61 e (nvReadChecks e) (fun ref s =>
    match recRead s.nv.mem (e.h 4) with
    | none => s.complete ref 0x0603 []
    | some (_, seq, data) =>
      if e.h 6 < data.length then s.complete ref 0x0602 (toLe 4 0 ++ toLe 2 data.length)
      else (s.request (.hostWrite (e.q 8) data)).complete ref 0 (toLe 4 seq ++ toLe 2 data.length)))

/-- R439. NV_PROT with its key: BP unless locked, and the lock, which a write of 0 leaves. -/
def execNvProtWrite (t : Nat) (val : Word) (s : State) : Host.Outcome State Fault Refusal :=
  let s := s.at t
  if s.steward = true ∧ fld val.toNat 16 16 = 0xB10C then
    let s' := if s.nv.lock then s else s.recWrite 4 7 (toLe 1 (fld val.toNat 0 2)) (fun _ => .nothing)
    .next { s' with nv := { s'.nv with lock := s.nv.lock || val.getLsbD 2 } }
  else .next s

/-- R446. 0.1 h of VSUP valid has passed since the last increment. -/
def execHoursIncrement (t : Nat) (s : State) : Host.Outcome State Fault Refusal :=
  if s.steward = true ∧ s.nv.ready = true ∧ s.pwr.pf = .none then
    let due := s.nv.lastHours + 360 * secCycles
    let s := s.at (max t (s.cycleOfTb due))
    let s := { s with nv := { s.nv with lastHours := due } }
    .next (s.countUp 4 hoursBase)
  else .next (s.at t)

/-! ### The guestbook (R366, R461 to R464) -/

/-- Where a new record of a severity goes (R463): the lowest free slot, else the oldest record it may replace. -/
def bookSlot (m : Mem) (sev : BitVec 2) : Option Nat :=
  match (List.range 4096).find? (gbFree m) with
  | some i => some i
  | none => gbReplace (gbBook m) sev.toNat

/-- R463. The oldest queued record is placed, or dropped. -/
def execGuestbookRecordWrite (t : Nat) (s : State) : Host.Outcome State Fault Refusal :=
  let s := s.at t
  match s.gb.queue with
  | [] => .next s
  | r :: rest =>
    if s.steward = true ∧ s.nv.ready = true ∧ s.pwr.pf = .none then
      let newest := (s.gb.last.map GbRec.seq) == some r.seq
      match bookSlot s.nv.settled r.sev with
      | none => .next { s with gb := { s.gb with queue := rest }.drop r.sev }
      | some slot =>
        let s := { s with gb := { s.gb with
          queue := rest
          lastSlot := if newest then some slot else if s.gb.lastSlot = some slot then none else s.gb.lastSlot
          unwritten := s.gb.unwritten.filter (fun x => x.2.1 != slot)
          lastDirty := s.gb.lastDirty && !newest
          lastWrite := if newest then none else s.gb.lastWrite } }
        .next ((s.nvWrite 3 [(gbAddr slot, r.bytes)] .nothing).pushBook r.bytes)
    else .next s

/-- A record is rewritten in its slot. -/
def State.rewriteBook (s : State) (slot : Nat) (r : GbRec) : State := (s.nvWrite 3 [(gbAddr slot, r.bytes)] .nothing).pushBook r.bytes

/-- R462. A record repeated since it was written is rewritten in its slot: at once after the first repeat, then at most every 100 ms; one that is
no longer the newest comes first. -/
def execGuestbookRepeatRewrite (t : Nat) (s : State) : Host.Outcome State Fault Refusal :=
  if s.steward = true ∧ s.nv.ready = true ∧ s.pwr.pf = .none then
    match s.gb.unwritten, s.gb.last, s.gb.lastSlot with
    | x :: rest, _, _ =>
      let s := s.at (max t x.2.2)
      .next ({ s with gb := { s.gb with unwritten := rest } }.rewriteBook x.2.1 x.1)
    | [], some r, some slot =>
      if s.gb.lastDirty = true then
        let s := s.at (max t ((s.gb.lastWrite.map (· + 100 * msCycles)).getD 0))
        .next ({ s with gb := { s.gb with lastDirty := false, lastWrite := some s.now } }.rewriteBook slot r)
      else .next (s.at t)
    | _, _, _ => .next (s.at t)
  else .next (s.at t)

/-- An entry of a guestbook read (R467). -/
def bookEntry (m : Mem) (slot : Nat) : List Byte :=
  let bs := m.read (gbAddr slot) 64
  if gbFree m slot then
    let body := [0, if byteAt bs 0 = 0 then 0 else 1] ++ toLe 58 0
    body ++ toLe 4 (crc32 body).toNat
  else bs

def bookReadChecks (e : CmdEntry) (_ : State) : List Check :=
  [(!e.formOk 0 [(4, 12)], 0x0101),
   (decide (4095 < e.h 4) || decide (e.h 6 < 1) || decide (4096 < e.h 6), 0x0103),
   (e.q 8 % 8 != 0, 0x0104)]

/-- R467. Command 0x90. -/
def execGuestbookRead (t : Nat) (c : RingId) (e : CmdEntry) (s : State) : Host.Outcome State Fault Refusal :=
  .next (s.command t c 0x90 e (bookReadChecks e) (fun ref s =>
    let m := s.nv.mem
    let slots := (List.range (e.h 6)).map (fun j => (e.h 4 + j) % 4096)
    let full := slots.filter (fun i => !gbFree m i)
    let newest := ((gbNewest (gbBook m)).map Prod.fst).getD 0xFFFF
    (s.request (.hostWrite (e.q 8) (slots.flatMap (bookEntry m)))).complete ref 0 (toLe 2 full.length ++ toLe 2 newest)))

end Sys2Proof.Machine
end

