-- ==== Sys2Proof/Machine/Control.lean ====
section
/-! DEFINITION. Branches, counted loops and jump tables (R110, R111, R126, R128, R142). -/

namespace Sys2Proof.Machine

/-- The index of an instruction plus a sign-extended 21-bit offset (R111). -/
def branchTo (pc : BitVec 20) (off : BitVec 21) : BitVec 20 := pc + off.setWidth 20

/-- R110, R111, R142. Conditional branch. -/
def execB (t : Nat) (r : RoomId) (cond : Cond) (boff : BitVec 21) (s : State) : Host.Outcome State Fault Refusal :=
  .next (s.laneJump t r [] (fun v => if condHolds cond v then branchTo v.pc boff else v.pc + 1))

/-- R126. rc = zx16(imm). -/
def execLpi (t : Nat) (r : RoomId) (rd : Reg) (imm : BitVec 16) (s : State) : Host.Outcome State Fault Refusal :=
  .next (s.laneReg t r rd [] (fun _ => zx16 imm) (fun _ w => w))

/-- The bound-table entry that an LPR names (R126). -/
def State.bound (s : State) (idx : BitVec 16) : Option Nat :=
  match s.app.cur with
  | none => none
  | some c => c.way.bound[idx.toNat]?

/-- The count of LPR, clamped to 1..b, and whether it was clamped (R126). -/
def lprCount (a : Word) (b : Nat) : Word × Bool :=
  if a.toNat = 0 then (1, true) else if b < a.toNat then (BitVec.ofNat 32 b, true) else (a, false)

/-- R126. rc = ra clamped to the bound; V. With no such bound the instruction writes nothing. -/
def execLpr (t : Nat) (r : RoomId) (rd ra : Reg) (imm : BitVec 16) (s : State) : Host.Outcome State Fault Refusal :=
  .next (match s.bound imm with
    | some b => s.laneReg t r rd [ra] (fun v => (lprCount (v.get ra) b).1) (fun v w => { w with v := (lprCount (v.get ra) b).2 })
    | none => s.lane t r (fun _ => false) (fun _ _ s => s))

/-- R126, R142. rc = rc − 1; back to the body while it is not zero. -/
def execLoop (t : Nat) (r : RoomId) (rd : Reg) (boff : BitVec 21) (s : State) : Host.Outcome State Fault Refusal :=
  .next (s.lane t r (loadPending [rd]) (fun v _ s => s.updRoom r (fun w =>
    { w.put rd (v.get rd - 1) with pc := if v.get rd - 1 != 0 then branchTo v.pc boff else v.pc + 1 })))

/-- R128. Entry ra of the table, or its default. -/
def execJtab (t : Nat) (r : RoomId) (ra : Reg) (imm : BitVec 16) (s : State) : Host.Outcome State Fault Refusal :=
  .next (s.laneJump t r [ra] (fun v =>
    v.pc + 1 + (if (v.get ra).toNat < imm.toNat then BitVec.ofNat 20 (v.get ra).toNat else BitVec.ofNat 20 imm.toNat)))

end Sys2Proof.Machine
end

