-- ==== Sys2Proof/Machine/Host.lean ====
section
/-! DEFINITION. The host interface: set-up of the rings, the bell page, bus-master state, DMA failures, publications, MSI-X, split
reads and register writes (R8, R18, R331 to R351, R360 to R369, R469). -/

namespace Sys2Proof.Machine

/-! ### Set-up (R338 to R342, R365) -/

/-- Every ring stops and its state is cleared (R334, R342): completions of commands in progress are not written, what their own requests still
owe the host stays. -/
def State.stopRings (s : State) : State :=
  { s with host := { s.host with
      active := false
      busy := false
      outbox := s.host.outbox.filter (fun o => match o with | .hostWrite _ _ => true | _ => false)
      rings := Vector.replicate 21 RingCfg.init
      cmdTail := Vector.replicate 8 0
      cmdHead := Vector.replicate 8 0
      cqHead := Vector.replicate 8 0
      cqTail := Vector.replicate 8 0
      inProg := Vector.replicate 8 none
      heldC := Vector.replicate 8 []
      heldSince := Vector.replicate 8 0
      gbHead := 0
      gbTail := 0
      pubNum := Vector.replicate 4 0
      pubDue := Vector.replicate 4 [] } }

def zeroFrom (bs : List Byte) (a n : Nat) : Bool := (slice bs a n).all (· == 0)

/-- Ring entry r of a set-up table (R340). -/
def setupEntry (table : List Byte) (r : Nat) : List Byte := slice table (64 + 64 * r) 64

/-- Reserved bytes and unused fields of entry r are zero (R340). -/
def entryReservedOk (e : List Byte) (r : Nat) : Bool :=
  if !bit (u8 e 9) 0 then zeroFrom e 0 64
  else if r < 8 then decide (u8 e 8 < 16) && u8 e 9 == 1 && decide (u8 e 10 < 8) && zeroFrom e 11 53
  else if 16 ≤ r ∧ r < 20 then decide (u8 e 8 < 16) && decide (u8 e 9 < 4) && zeroFrom e 10 2 && zeroFrom e 48 16
  else decide (u8 e 8 < 16) && decide (u8 e 9 < 4) && zeroFrom e 10 54

/-- The ring that an entry describes. -/
def parseRing (e : List Byte) : RingCfg where
  base := u64 e 0
  logn := u8 e 8
  enable := bit (u8 e 9) 0
  irq := bit (u8 e 9) 1
  cq := u8 e 10
  task := u16 e 12
  decim := u16 e 14
  ranges := ((List.range 4).map (fun j => (u32 e (16 + 8 * j), u32 e (20 + 8 * j)))).filter (fun x => x.2 != 0)

/-- L and the stride of a publication ring (R361). -/
def RingCfg.pubLen (g : RingCfg) : Nat := (g.ranges.map Prod.snd).foldl (· + ·) 0
def RingCfg.stride (g : RingCfg) : Nat := ceilDiv (g.pubLen + 72) 64 * 64

/-- Bytes of host memory that ring r takes. -/
def RingCfg.extent (g : RingCfg) (r : Nat) : Nat :=
  2 ^ g.logn * (if r < 8 then 64 else if r < 16 then 16 else if r < 20 then g.stride else 64)

/-- The areas of the image map (R194): first address and length. -/
def imageAreas : List (Nat × Nat) :=
  [(0, 0x600), (0x600, 0x30), (0x630, 0x30), (0x660, 0x20), (0x680, 0x10), (0x690, 0x10), (0x800, 0x400), (0x1000, 0x300), (0x2000, 0x400),
   (0x40000, 0xC000)]

def rangeOk (x : Nat × Nat) : Bool :=
  x.1 % 4 == 0 && x.2 % 4 == 0 && imageAreas.any (fun a => decide (a.1 ≤ x.1) && decide (x.1 + x.2 ≤ a.1 + a.2))

def disjoint (a m b n : Nat) : Bool := decide (a + m ≤ b) || decide (b + n ≤ a)

/-- Entry r as R341 wants it, given the rings of all entries and the bell page's address. -/
def ringOk (rings : List RingCfg) (bellAddr r : Nat) : Bool :=
  let g := rings.getD r RingCfg.init
  let lognOk := if 16 ≤ r ∧ r < 20 then decide (1 ≤ g.logn) && decide (g.logn ≤ 6) else decide (4 ≤ g.logn) && decide (g.logn ≤ 12)
  let pubOk := g.ranges.all rangeOk && decide (1 ≤ g.pubLen) && decide (g.pubLen ≤ 4096) && decide (1 ≤ g.decim) && decide (g.decim ≤ 1000)
  !g.enable ||
    (lognOk && g.base % 64 == 0 && disjoint g.base (g.extent r) bellAddr 4096 &&
      (List.range r).all (fun q =>
        let h := rings.getD q RingCfg.init
        !h.enable || disjoint g.base (g.extent r) h.base (h.extent q)) &&
      (if r < 8 then (rings.getD (8 + g.cq) RingCfg.init).enable else true) &&
      (if 16 ≤ r ∧ r < 20 then pubOk else true))

/-- The publication rings that exceed the limit of R365 when they are counted in index order: a ring's traffic counts when it is within
the limit together with those counted before. -/
def overLimit (rings : List RingCfg) (c : Option Conf) : List Nat :=
  let step (acc : Nat × Nat × List Nat) (r : Nat) : Nat × Nat × List Nat :=
    let g := rings.getD r RingCfg.init
    let k := ((c.bind (fun c => c.task g.task)).map Task.k).getD 0
    if g.enable = false ∨ k = 0 then acc
    else
      let den := k * max 1 g.decim
      let num := acc.1 * den + g.stride * 20000 * acc.2.1
      if 50000000 * (acc.2.1 * den) < num then (acc.1, acc.2.1, acc.2.2 ++ [r]) else (num, acc.2.1 * den, acc.2.2)
  ((List.range 4).map (· + 16) |>.foldl step (0, 1, [])).2.2

/-- R365 at a start or a switch: rings beyond the limit are disabled. -/
def State.limitPublications (s : State) (c : Conf) : State :=
  let bad := overLimit s.host.rings.toList (some c)
  if bad = [] ∨ s.host.active = false then s
  else
    let rings := bad.foldl (fun (v : Vector RingCfg 21) r => vset v r { vget v r RingCfg.init with enable := false }) s.host.rings
    let err := bad.foldl (fun (e : BitVec 21) r => e ||| (1 <<< r)) s.host.ringErr
    { s with host := { s.host with
        rings := rings
        ringErr := err
        ringerr := true } }.mark 0x804 8

/-- The first failure of R341: status and SETUPRES.RING; bandwidth is judged after the entries (R365). -/
def setupFailure (s : State) (table bell : Option (List Byte)) : Option (BitVec 16 × Nat) :=
  match table with
  | none => some (0x0105, 31)
  | some tb =>
    let rings := (List.range 21).map (fun r => parseRing (setupEntry tb r))
    let iv := u16 tb 6
    let addr := u64 tb 8
    if !zeroFrom tb 16 48 then some (0x0101, 31)
    else match (List.range 21).find? (fun r => !entryReservedOk (setupEntry tb r) r) with
    | some r => some (0x0101, r)
    | none =>
      if u32 tb 0 ≠ 0x474E5248 ∨ u16 tb 4 ≠ 1 ∨ (iv ≠ 0 ∧ (iv < 5 ∨ 1000 < iv)) ∨ addr % 4096 ≠ 0 then some (0x0140, 31)
      else match (List.range 21).find? (fun r => !ringOk rings addr r) with
      | some r => some (0x0141, r)
      | none =>
        match overLimit rings (s.app.cur <|> s.app.stored) with
        | r :: _ => some (0x0142, r)
        | [] =>
          match bell with
          | none => some (0x0105, 31)
          | some b => if zeroFrom b 0 32 && zeroFrom b 64 36 then none else some (0x0143, 31)

/-- R341. HOST_CTRL.APPLY. `table` and `bell` are what the module reads, `none` for a DMA failure. While requests pause (R333) the steward has
set BUSY and waits to read; then the next APPLY of the model is the end of that one (log entry 9). -/
def execApply (t : Nat) (table bell : Option (List Byte)) (s : State) : Host.Outcome State Fault Refusal :=
  let s := s.at t
  if s.steward = false ∨ s.host.active = true then .next s
  else if s.host.busMaster = false then .next { s with host := { s.host with busy := true } }
  else
    let s := { s with host := { s.host with ringErr := 0, busy := false } }
    match setupFailure s table bell with
    | some (st, r) => .next { s with host := { s.host with
        setupStatus := st
        setupRing := BitVec.ofNat 5 r } }
    | none =>
      let tb := table.getD []
      let s := s.stopRings
      .next { s with host := { s.host with
          active := true
          mute := false
          setupStatus := 0
          setupRing := 31
          polls := 0
          cmds := 0
          gbLost := 0
          belliv := if u16 tb 6 = 0 then 20 else u16 tb 6
          pollAt := s.now
          endAt := s.now + (if u16 tb 6 = 0 then 20 else u16 tb 6) * usCycles
          bellAddr := u64 tb 8
          rings := Vector.ofFn (fun r => parseRing (setupEntry tb r.val))
          gen := s.host.gen + 1 } }

/-- R342. HOST_CTRL.DISABLE. -/
def execDisable (t : Nat) (s : State) : Host.Outcome State Fault Refusal :=
  let s := s.at t
  .next (if s.steward then s.stopRings else s)

/-! ### The bell page (R334, R343 to R345) -/

/-- A DMA failure on the bell page or a ring (R334, R469). -/
def State.ringFailure (s : State) : State :=
  let s := { s.stopRings with host := { s.stopRings.host with dmaerr := true, mute := true, outbox := [] } }.mark 0x804 4
  s.gbEvent 0x09 3 sevNotice [barWord s 0x0804]

/-- The rings may be accessed (R333). -/
def State.mayAccess (s : State) : Bool := s.steward && s.host.active && s.host.busMaster

/-- CMDTAIL c of the bell page lies more than N ahead of CMDHEAD c on a ring in use (R345). -/
def HostIf.tailBad (h : HostIf) (bs : List Byte) (c : Nat) : Bool :=
  let g := vget h.rings c RingCfg.init
  g.enable && decide (2 ^ g.logn < (BitVec.ofNat 32 (u32 bs (4 * c)) - vget h.cmdHead c 0).toNat)
def HostIf.overrun (h : HostIf) (bs : List Byte) : Bool := (List.range 8).any (h.tailBad bs)

/-- What a read of the host half of the bell page gives (R344, R345). -/
def HostIf.takeBell (h : HostIf) (bs : List Byte) : HostIf :=
  let m := maskOf (h.tailBad bs) 8
  { h with
    polls := h.polls + 1
    linkUp := true
    cmdTail := Vector.ofFn (fun c => BitVec.ofNat 32 (u32 bs (4 * c.val)))
    cqHead := Vector.ofFn (fun q => BitVec.ofNat 32 (u32 bs (0x40 + 4 * q.val)))
    gbHead := BitVec.ofNat 32 (u32 bs 0x60)
    ringErr := h.ringErr ||| BitVec.ofNat 21 m
    ringerr := h.ringerr || m != 0 }

/-- R344. The module reads offsets 0x000 to 0x07F of the bell page, no sooner than 2 µs short of BELLIV after the poll before. -/
def execBellPoll (t : Nat) (bell : Option (List Byte)) (s : State) : Host.Outcome State Fault Refusal :=
  if s.mayAccess then
    let s := s.at (max t s.host.pollAt)
    match bell with
    | none => .next s.ringFailure
    | some bs =>
      let h := s.host.takeBell bs
      let s := { s with host := { h with pollAt := s.now + (h.belliv - 2) * usCycles } }
      .next (if HostIf.overrun h bs then s.mark 0x804 8 else s)
  else .next (s.at t)

/-- The vectors raised during the interval are sent, or wait for their masks (R367), and those whose masks fell while requests paused; vector 6
for what set while the steward did not run goes out after an APPLY (R267). -/
def State.sendVectors (s : State) : State :=
  let h := s.host
  let late := h.lateVec6 && h.active
  let due := (if late then h.evtPend ||| (1 <<< 6) else h.evtPend) ||| (h.msixPend &&& ~~~h.msixMask)
  let s := { s with host := { h with
    evtPend := 0
    lateVec6 := h.lateVec6 && !late
    msixPend := h.msixPend &&& h.msixMask
    sentNow := 0 } }
  (fins 16).foldl (fun s v => if bit due.toNat v.val then s.msix v else s) s

/-- The write requests that waited are made (R333). -/
def State.flushOutbox (s : State) : State := { s with out := s.out ++ s.host.outbox, host := { s.host with outbox := [] } }

/-- R344, R367. The end of a bell interval: the requests that waited, CYCLE and STATE, and the interrupts. While no rings are active the interval
is that of reset, and interrupts alone go out. -/
def execBellIntervalEnd (t : Nat) (s : State) : Host.Outcome State Fault Refusal :=
  if s.steward = true ∧ s.host.busMaster = true then
    let s := s.at (max t s.host.endAt)
    let s := { s.flushOutbox with host := { s.flushOutbox.host with endAt := s.now + s.host.belliv * usCycles } }
    let s := if s.host.active then (s.emit (.bell 0x880 (s.cycle % 2 ^ 48))).emit (.bell 0x888 (barWord s 0x40).toNat) else s
    .next s.sendVectors
  else .next (s.at t)

/-- R333. Bus Master Enable is cleared, or the function enters D3hot. -/
def execBusMasterDisable (t : Nat) (s : State) : Host.Outcome State Fault Refusal :=
  let s := s.at t
  .next { s with host := { s.host with busMaster := false } }

/-- R333. Bus Master Enable is 1 in D0 again. -/
def execBusMasterEnable (t : Nat) (s : State) : Host.Outcome State Fault Refusal :=
  let s := s.at t
  .next (if s.steward then { s with host := { s.host with busMaster := true } } else s)

/-- R334. A request of the module fails. A buffer still to be accessed is that of a variable read (R357). -/
def execDmaFailure (t : Nat) (target : DmaTarget) (s : State) : Host.Outcome State Fault Refusal :=
  let s := s.at t
  if s.mayAccess then
    match target with
    | .ring => .next s.ringFailure
    | .buffer c =>
      match s.host.inProg[c] with
      | none => .next s
      | some ref =>
        if s.edits.reads.any (fun v => v.ref == some ref) then
          let s := { s with edits := { s.edits with reads := s.edits.reads.filter (fun v => v.ref != some ref) } }
          .next (s.complete ref 0x0105 [])
        else .next s
  else .next s

/-- R333, R351. The first completion held for Qq is written once there is room and the requests before it have been made. -/
def execHeldCompletionWrite (t : Nat) (q : RingId) (s : State) : Host.Outcome State Fault Refusal :=
  let s := s.at t
  match s.host.heldC[q] with
  | [] => .next s
  | c :: rest =>
    if s.mayAccess = true ∧ s.host.outbox = [] ∧ s.host.cqRoom q = true then
      let s := { s with host := { s.host with
          heldC := upd s.host.heldC q (fun _ => rest)
          heldSince := upd s.host.heldSince q (fun _ => if rest = [] then 0 else s.now) } }
      .next (s.writeCompletion q c)
    else .next s

/-- R469. A completion has been held on a full ring for 1 s. -/
def execCompletionHeldTimeout (t : Nat) (q : RingId) (s : State) : Host.Outcome State Fault Refusal :=
  let since := s.host.heldSince[q]
  if s.steward = true ∧ since ≠ 0 ∧ s.host.heldC[q] ≠ [] then
    let s := s.at (max t (since + secCycles))
    let s := { s with host := { s.host with heldSince := upd s.host.heldSince q (fun _ => 0) } }
    .next (s.gbEvent 0x09 4 sevNotice [barWord s 0x0804])
  else .next (s.at t)

/-- R18, R469. The PCIe link leaves L0 from the host side. -/
def execPcieLinkDown (t : Nat) (s : State) : Host.Outcome State Fault Refusal :=
  let s := s.at t
  if s.steward = true ∧ s.host.linkUp = true then
    let s := { s with host := { s.host with linkUp := false } }
    .next (if s.host.active then s.gbEvent 0x09 1 sevNotice [barWord s 0x0804] else s)
  else .next s

/-! ### Commands without an effect of their own -/

/-- The opcodes of R353. -/
def opcodes : List Nat :=
  [0x10, 0x11, 0x12, 0x13, 0x20, 0x21, 0x22, 0x23, 0x30, 0x31, 0x40, 0x41, 0x50, 0x51, 0x52, 0x60, 0x61, 0x70, 0x71, 0x80, 0x81, 0x82, 0x90]

/-- R348. A command with an opcode that R353 does not list. -/
def execUnknownCommand (t : Nat) (c : RingId) (e : CmdEntry) (op : Byte) (s : State) : Host.Outcome State Fault Refusal :=
  if opcodes.contains op.toNat then .next (s.at t)
  else .next (s.command t c op.toNat e (fun _ => [(true, 0x0102)]) (fun ref s => s.complete ref 0x0102 []))

/-! ### Publications (R360 to R364) -/

/-- Header and DATA of a publication, bytes 8 to 63 + L of its buffer (R361). -/
def pubBody (cycle task : Nat) (data : List Byte) : List Byte := toLe 6 cycle ++ toLe 2 task ++ toLe 4 data.length ++ toLe 44 0 ++ data

/-- Publication k of ring p written to its buffer (k - 1) mod N at `a` in the order of R362: END odd, header and DATA, START, END, PUBNEW. -/
def State.publish (s : State) (p : Fin 4) (k a : Nat) (body : List Byte) : State :=
  let e := a + 8 + body.length
  ((((s.emit (.publish p k e (toLe 8 (2 * k - 1)))).emit (.publish p k (a + 8) body)).emit (.publish p k a (toLe 8 (2 * k)))).emit
    (.publish p k e (toLe 8 (2 * k)))).emit (.bell (0x850 + 4 * p.val) (k % 2 ^ 32))

/-- R362. The oldest publication that ring p owes is written. -/
def execPublication (t : Nat) (p : Fin 4) (s : State) : Host.Outcome State Fault Refusal :=
  let s := s.at t
  let g := vget s.host.rings (16 + p.val) RingCfg.init
  match s.host.pubDue[p] with
  | [] => .next s
  | (n, data) :: rest =>
    if s.mayAccess = true ∧ g.enable = true then
      let k := s.host.pubNum[p] + 1
      let s := { s with host := { s.host with
          pubNum := upd s.host.pubNum p (· + 1)
          pubDue := upd s.host.pubDue p (fun _ => rest) } }
      let s := s.publish p k (g.entryAddr g.stride (k - 1)) (pubBody n g.task data)
      .next (if g.irq then s.raiseLater 0 else s)
    else .next s

/-! ### MSI-X (R367) and split reads (R336) -/

/-- Unmasking a vector sends the message that waited; while requests pause it waits on (R333). -/
def State.unmask (s : State) (v : Fin 16) : State :=
  let h := s.host
  let m : BitVec 16 := 1 <<< v.val
  if h.msixPend &&& m != 0 && h.busMaster then
    { s with host := { h with msixMask := h.msixMask &&& ~~~m, msixPend := h.msixPend &&& ~~~m } }.emit (.msix v)
  else { s with host := { h with msixMask := h.msixMask &&& ~~~m } }

/-- R367. The driver unmasks vector v in the MSI-X table. -/
def execMsixUnmask (t : Nat) (v : Fin 16) (s : State) : Host.Outcome State Fault Refusal :=
  let s := s.at t
  if s.steward then
    let a := 16 * v.val + 12
    let s := { s with host := { s.host with msixTable := s.host.msixTable.put a (s.host.msixTable.get a &&& 0xFE) } }
    .next (s.unmask v)
  else .next s

/-- Byte offsets of the low and the high word of a pair (R336). -/
def splitOffsets : SplitPair → Nat × Nat
  | .cycle => (0x48, 0x4C)
  | .fevTb => (0x588C, 0x5890)
  | .evaTb => (0x1030, 0x1034)
  | .evsTb => (0x1038, 0x103C)
  | .pser => (0x4020, 0x4024)
  | .serial => (0x10, 0x14)
  | .setup => (0x808, 0x80C)

/-- R336. A read of the low word latches the high word. -/
def execSplitValueRead (t : Nat) (pair : SplitPair) (s : State) : Host.Outcome State Fault Refusal :=
  let s := s.at t
  if s.steward then
    let w := barWord s (splitOffsets pair).2
    .next { s with host := { s.host with latch := (pair, w) :: s.host.latch.filter (fun x => x.1 != pair) } }
  else .next s

/-- The MSI-X table and pending-bit array as the host reads them (R331). -/
def State.msixWord (s : State) (o : Nat) : Word :=
  if o < 0xF100 then
    let a := o - 0xF000
    if a % 16 = 12 then (s.host.msixTable.word a &&& ~~~(1 : Word)) ||| BitVec.ofNat 32 (b2n (bit s.host.msixMask.toNat (a / 16)))
    else s.host.msixTable.word a
  else if o = 0xF800 then s.host.msixPend.setWidth 32
  else 0

/-- What a read of a BAR0 word returns (R336): the latched half of a pair, else the live value; the RTC group under its snapshot
(R421). -/
def State.hostRead (s : State) (off : Nat) : Word :=
  let o := off / 4 * 4
  match s.host.latch.find? (fun x => (splitOffsets x.1).2 == o) with
  | some x => x.2
  | none =>
    if 0xF000 ≤ o then s.msixWord o
    else if o = 0x1410 then s.rtcRead .sub .bar0
    else if o = 0x1414 then s.rtcRead .time .bar0
    else if o = 0x1418 then s.rtcRead .date .bar0
    else barWord s o

/-- A host read of a BAR0 word with what it leaves: a latched high word is returned once (R336). -/
def State.takeRead (s : State) (off : Nat) : Word × State :=
  (s.hostRead off, { s with host := { s.host with latch := s.host.latch.filter (fun x => (splitOffsets x.1).2 != off / 4 * 4) } })

/-! ### Register writes (R8 to R12, R336) -/

/-- Bits of x that a W1C write leaves. -/
def w1c {w : Nat} (x : BitVec w) (val : Word) (lo : Nat) : BitVec w := x &&& ~~~((val >>> lo).setWidth w)

/-- A W1C flag at bit b. -/
def w1cB (x : Bool) (val : Word) (b : Nat) : Bool := x && !val.getLsbD b

/-- Writes to the blocks of clock, host rings, night porter, backup domain, NV store and guestbook. -/
def State.writeLow (s : State) (o : Nat) (v : Word) : State :=
  if o = 0x400 then { s with clk := { s.clk with
      rtcstop := w1cB s.clk.rtcstop v 2
      warn := w1cB s.clk.warn v 9 } }
  else if o = 0x804 then { s with host := { s.host with
      dmaerr := w1cB s.host.dmaerr v 2
      ringerr := w1cB s.host.ringerr v 3
      gbfull := w1cB s.host.gbfull v 4
      cqfull := w1cB s.host.cqfull v 5 } }
  else if o = 0x808 then { s with host := { s.host with setuplo := v } }
  else if o = 0x80C then { s with host := { s.host with
      setuphi := v
      latch := s.host.latch.filter (fun x => x.1 != .setup) } }
  else if o = 0x100C then { s with np := { s.np with warn := w1cB s.np.warn v 3 } }
  else if o = 0x1400 then { s with bk := { s.bk with
      oscstop := w1cB s.bk.oscstop v 3
      lostevt := w1cB s.bk.lostevt v 4
      a1 := w1cB s.bk.a1 v 8
      a2 := w1cB s.bk.a2 v 9 } }
  else if o = 0x1800 then { s with nv := { s.nv with
      pfail := w1cB s.nv.pfail v 2
      dupseq := w1cB s.nv.dupseq v 3
      badrec := w1cB s.nv.badrec v 5 } }
  else if o = 0x1C0C then { s with gb := { s.gb with snapsev := v.setWidth 2 } }
  else if 0x1C20 ≤ o ∧ o < 0x1C40 then { s with gb := { s.gb with snaps := vset s.gb.snaps ((o - 0x1C20) / 4) (v &&& 0xFFFD) } }
  else s

/-- Writes to a CAN port's block (R330). -/
def Can.writeReg (c : Can) (o : Nat) (v : Word) : Can :=
  if o = 0x04 then { c with evt := w1c c.evt v 0 }
  else if o = 0x08 then { c with evten := v.setWidth 10 }
  else if o = 0x20 then { c with
      detRefused := w1cB c.detRefused v 3
      detTime := (v >>> 8).setWidth 8 }
  else if 0x80 ≤ o ∧ o < 0xA0 then { c with wdrmap := c.wdrmap &&& ~~~(v.setWidth 256 <<< (8 * (o - 0x80))) }
  else c

/-- Writes to a group's block (R266, R300). -/
def Group.writeReg (p : Group) (o : Nat) (v : Word) : Group :=
  if o = 0x00 then { p with
      supevt := w1cB p.supevt v 4
      lploss := w1cB p.lploss v 5
      grpoc := w1cB p.grpoc v 6 }
  else if o = 0x14 then { p with protLatch := w1c p.protLatch v 16 }
  else if o = 0x18 then { p with openLatch := w1c p.openLatch v 16 }
  else if o = 0x1C then { p with discLatch := w1c p.discLatch v 16 }
  else if o = 0x20 then { p with rateLatch := w1c p.rateLatch v 16 }
  else if o = 0x24 then { p with demag := w1c p.demag v 0 }
  else if o = 0x80 then { p with
      failevt := w1cB p.failevt v 4
      retevt := w1cB p.retevt v 5 }
  else if o = 0x8C then { p with afLatch := w1c p.afLatch v 16 }
  else if o = 0x90 then { p with arLatch := w1c p.arLatch v 16 }
  else p

/-- The 16 channels of a group changed by a function of their number. -/
def State.mapGroupChans (s : State) (g : Nat) (f : Nat → Chan → Chan) : State :=
  { s with chans := s.chans.mapFinIdx (fun n c _ => if n / 16 = g then f (n % 16) c else c) }

/-- Writes to the pair block (R404). -/
def State.writePair (s : State) (o : Nat) (v : Word) : State :=
  if o = 0x08 then { s with pair := { s.pair with evt := w1c s.pair.evt v 0 } }
  else if 0x80 ≤ o ∧ o < 0xB0 then s.mapGroupChans ((o - 0x80) / 4) (fun i c => { c with discLatch := w1cB c.discLatch v (16 + i) })
  else if 0x100 ≤ o ∧ o < 0x130 then
    s.mapGroupChans ((o - 0x100) / 4) (fun i c => { c with proofFailLatch := w1cB c.proofFailLatch v (16 + i) })
  else if 0x180 ≤ o ∧ o < 0x1B0 then s.mapGroupChans ((o - 0x180) / 4) (fun i c => { c with exer := v.getLsbD i })
  else s

/-- Writes to the scan block (R101). -/
def State.writeScan (s : State) (o : Nat) (v : Word) : State :=
  if o = 0 then { s with scan := { s.scan with
      oow := w1cB s.scan.oow v 1
      sbe := w1cB s.scan.sbe v 2
      suspect := w1cB s.scan.suspect v 3 } }
  else if 0x200 ≤ o ∧ o < 0x200 + 1200 ∧ (o - 0x200) % 12 = 0 then
    match toFin? 100 ((o - 0x200) / 12) with
    | none => s
    | some r => s.updRoom r (fun x => { x with oow := w1cB x.oow v 12 })
  else s

/-- A byte-enabled write to the MSI-X table, which follows PCIe; a vector whose mask bit it clears is unmasked. -/
def State.writeMsix (s : State) (o : Nat) (v : Word) (be : BitVec 4) : State :=
  let a := o - 0xF000
  let tab := (List.range 4).foldl (fun (m : Mem) i =>
    if be.getLsbD i then m.put (a + i) ((v >>> (8 * i)).setWidth 8) else m) s.host.msixTable
  let s := { s with host := { s.host with msixTable := tab } }
  match toFin? 16 (a / 16) with
  | none => s
  | some k =>
    if a % 16 = 12 ∧ be.getLsbD 0 = true then
      if v.getLsbD 0 then { s with host := { s.host with msixMask := s.host.msixMask ||| (1 <<< k.val) } } else s.unmask k
    else s

/-- R8, R9, R336. A write to a register that has no command of its own: RW fields take the value, W1C bits written 1 clear, but for those that
the module sets in the same cycle. -/
def execRegisterWrite (t : Nat) (off : BitVec 16) (val : Word) (be : BitVec 4) (s : State) : Host.Outcome State Fault Refusal :=
  let s := s.at t
  let o := off.toNat / 4 * 4
  let val := val &&& ~~~(BitVec.ofNat 32 (s.marked o))
  if s.steward = false then .next s
  else if 0xF000 ≤ o ∧ o < 0xF100 then .next (s.writeMsix o val be)
  else if be ≠ 0xF then .next s
  else if o < 0x2000 then .next (s.writeLow o val)
  else if o < 0x3000 then
    match toFin? 4 ((o - 0x2000) / 0x400) with
    | none => .next s
    | some k => .next (s.updCan k (fun c => c.writeReg (o % 0x400) val))
  else if o < 0x3C00 then
    match toFin? 12 ((o - 0x3000) / 0x100) with
    | none => .next s
    | some g => .next (s.updGrp g (fun p => p.writeReg (o % 0x100) val))
  else if o = 0x3C00 then .next { s with spare := { s.spare with takeevt := w1cB s.spare.takeevt val 7 } }
  else if o < 0x4000 then .next s
  else if o < 0x5000 then .next (s.writePair (o - 0x4000) val)
  else if 0x5800 ≤ o ∧ o < 0x6000 then .next (s.writeScan (o - 0x5800) val)
  else if o = 0x6000 then .next { s with sec := { s.sec with fallback := w1cB s.sec.fallback val 2 } }
  else if 0x6040 ≤ o ∧ o < 0x6080 then .next { s with sec := { s.sec with enroll := vset s.sec.enroll ((o - 0x6040) / 4) val } }
  else .next s

end Sys2Proof.Machine
end

