-- ==== Sys2Proof/Machine/Scan.lean ====
section
/-! DEFINITION. The cycle sequencer, deadlines, scrubbing, self-test and hardware-fault events (R50, R74, R85, R92 to R101, R184 to R192,
R316, R379, R386, R387). -/

namespace Sys2Proof.Machine

/-! ### The base tick (R50, R185) -/

/-- A task that a configuration marks as changed (R161). -/
def changedIn (c : Option Conf) (i : Nat) : Bool := ((c.bind (fun c => c.task i)).map Task.changed).getD false

/-- Base tick n releases task i only later, or not at all: at or after a stop tick (R356), at a planned switch on the old primary (R393),
and at the switch or rollback of a changed task, which releases it itself (R225, R228). -/
def State.skips (s : State) (i n : Nat) : Bool :=
  (match s.app.stop with | some q => decide (q.tick ≤ n) | none => false) ||
  (match s.pair.reqSwitch with | some q => q.confirmed && q.tick == n && s.pair.role == 1 | none => false) ||
  (s.edits.confirmed && s.edits.tick == n && (match s.edits.swap with
    | .pendSwitch => changedIn s.edits.new i
    | .pendRollback => changedIn s.app.cur i
    | _ => false))

/-- The idle slots of the base tick that ends (R101). -/
def Scan.endTick (c : Scan) : Scan :=
  { c with
    idleMin := c.idleMin.mapFinIdx (fun k x _ => BitVec.ofNat 12 (min x.toNat (2499 - vget c.used k 0)))
    used := Vector.replicate 8 0 }

/-- The relief's own staging of channel n differs from the primary's frame (R388): the state bit of an input or counter, or an analogue VALUE by
more than 0.5 % of the range's span. -/
def State.differs (s : State) (n : ChanId) (own frame : Stg) (words : Mem) : Bool :=
  match s.chans[n].cfg with
  | none => false
  | some e =>
    if e.isDin || e.isCounter then bit (words.word (0x600 + 4 * (n.val / 16))).toNat (n.val % 16) != s.chans[n].state
    else e.isAin && !excited e && decide (spanOf e < 200 * (own.value.toInt - frame.value.toInt).natAbs)

/-- The takeover after missed heartbeats comes at base tick n or has come, so its rooms read the relief's own staging (R390 step 2). -/
def State.ownAt (s : State) (n : Nat) : Bool :=
  match s.pair.due with
  | some (k, 2) => s.pair.role == 2 && decide (k ≤ n)
  | _ => false

/-- The staging frozen at base tick n (R185 step 4): the primary's frame on a relief that holds it whole, else the module's own; a relief
in step marks a tick without its frame (R386). A relief out of step follows the frames so that its edge totals are the primary's when it
joins (log entry 32). The comparison of R388 keeps since when each channel differs. -/
def State.freezeStaging (s : State) (n : Nat) : State :=
  let old := s.pair.stg
  let own : Vector Stg 192 := Vector.ofFn (fun c => s.ownStg c old[c])
  let ownWords := s.ownWords
  let plain : State := { s with pair := { s.pair with stg := own, words := ownWords } }
  if s.isRelief ∧ (s.pair.role = 2 ∨ s.pair.cfgdiff = false) then
    let frame := match s.pair.frame, s.fieldConf with
      | some (k, bs), some c => if k = n ∧ bs.length = inputLen c.way (u16 bs 6) then some (c.way, bs) else none
      | _, _ => none
    match frame with
    | some (w, bs) =>
      let r := ofFrame w bs old own (tickCycles * n)
      let diff (c : ChanId) : Bool := s.differs c (vget own c Stg.init) (vget r.1 c Stg.init) r.2
      let chans := Vector.ofFn (fun c : ChanId => { s.chans[c] with diffAt := if diff c then some (s.chans[c].diffAt.getD s.now) else none })
      if s.ownAt n then { plain with chans := chans } else { s with chans := chans, pair := { s.pair with stg := r.1, words := r.2 } }
    | none => if s.pair.role = 2 ∧ s.ownAt n = false then { plain with pair := { plain.pair with marked := some n } } else plain
  else plain.mapChans (fun c => { c with diffAt := none })

/-- What is measured at a base tick: the current of each switch that is ON and of each L+, and the voltages of VBAK and the internal cell. Free
values (R253, R266, R433; log entry 46). -/
def State.measure (s : State) : State :=
  { s with
    fresh := s.fresh + 206
    bk := { s.bk with
      cell := (Config.freeWord (s.fresh + 204)).setWidth 12
      vbak := (Config.freeWord (s.fresh + 205)).setWidth 12 }
    chans := s.chans.mapFinIdx (fun n c _ => { c with iload := if c.drive then (Config.freeWord (s.fresh + n)).setWidth 12 else 0 })
    groups := s.groups.mapFinIdx (fun g p _ => { p with igrp := if p.lplus then (Config.freeWord (s.fresh + 192 + g)).setWidth 12 else 0 }) }

/-- Time alignment to every group with L+ once the clock is judged; after a reset a group gets none until its supervisor applies its
safe states (R59, R261, R263). -/
def State.alignGroups (s : State) : State :=
  if s.clk.judged ∧ s.steward then
    (fins 12).foldl (fun s g =>
      let p := s.groups[g]
      if p.lplus ∧ p.withhold = false then
        (s.updGrp g (fun p => { p with lastAlign := s.now })).emit (.align g s.tb)
      else s) s
  else s

/-- The tasks that commit at base tick n and whose deadline has passed; a deadline not yet judged is judged first. -/
def State.closeTasks (s : State) (n : Nat) : State :=
  (List.range s.taskCount).foldl (fun s i =>
    match s.roomOf i with
    | none => s
    | some r => if s.commitsNow i n ∧ s.img.closed.contains i = false then s.deadline r i n else s) s

/-- The tasks whose values base tick n commits. -/
def State.closing (s : State) (n : Nat) : List Nat :=
  (List.range s.taskCount).filter (fun i => s.img.closed.contains i && s.commitsNow i n)

/-- The commits of base tick n (R185 step 5), with FAULT_N ending (R34) and the journal points queued (R447). -/
def State.commitAll (s : State) (n : Nat) : State :=
  match s.app.cur with
  | none => s
  | some c =>
    let is := s.closing n
    let s := is.foldl (fun s i => s.commitTask c i n) s
    let s := is.foldl (fun s i => s.duePublications c i n) s
    let s := if is = [] then s else { s with pwr := { s.pwr with faultN := false, faultHold := false, faultAt := none } }
    let s := s.queuePoints (fun i => is.contains i)
    { s with img := { s.img with closed := [] } }

/-- The digest entries of tasks, in TASK order (R379). -/
def State.digestsOf (s : State) (is : List Nat) : List (Nat × List Byte) :=
  match s.app.cur with
  | none => []
  | some c => is.map (fun i => (i, s.digests c i))

/-- R387 case 1 on a relief: its digests against those of the frame of base tick n. -/
def State.compareDigests (s : State) (n : Nat) (mine : List (Nat × List Byte)) : State :=
  match s.pair.role, s.pair.frame with
  | 2, some (k, bs) =>
    if k = n then
      match mine.zipIdx.find? (fun d => decide (u16 bs 6 ≤ d.2) || slice bs (16 + 16 * d.2) 16 != d.1.2) with
      | some d => s.mismatch n d.1.1
      | none => s
    else s
  | _, _ => s

/-- What a pair sends at base tick n: a primary its INPUT frame, whether its application runs or not (R379), and blocks to a relief that
resynchronises (R396), a relief in step its DIGEST (R377). -/
def State.tickFrames (s : State) (old : Vector Stg 192) (n : Nat) (mine : List (Nat × List Byte)) : State :=
    if s.pair.role = 1 then
      let w := (s.fieldConf.map Conf.way).getD default
      let s := s.sendFrame 3 (inputFrame w n (mine.map Prod.snd) old s.pair.stg s.pair.words)
      let s := if mine ≠ [] ∧ s.reliefInStep then { s with pair := { s.pair with digDue := s.pair.digDue ++ [n] } } else s
      s.streamTick
    else if s.pair.role = 2 ∧ mine ≠ [] then s.sendFrame 4 (toLe 6 n ++ toLe 2 mine.length ++ toLe 8 0 ++ (mine.map Prod.snd).flatten)
    else s

/-- The hours cell, when at least 0.05 h has passed since the last increment (R446). -/
def State.lastHours (s : State) : State := if s.nv.lastHours + 180 * secCycles ≤ s.tb then s.countUp 1 hoursBase else s

/-- What the last base tick still does on lanes that have not stopped before (R50 step 3): its bus cycles end, its staging is frozen, its
commits take effect, and a primary sends the INPUT frame of this tick (R379, R390) before the power-fail notice. -/
def State.lastCommits (s : State) (n : Nat) : State :=
  let old := s.pair.stg
  let s := ((s.measure.canClose n).freezeStaging n).closeTasks n
  if s.halted then s
  else
    let is := s.closing n
    let s := s.commitAll n
    let s := s.tickFrames old n (s.digestsOf is)
    s.sendFrame 7 (toLe 6 n)

/-- R50 step 4. The power-loss record, the newest of the guestbook, takes the slot of R463 at once, in class 1, before any that waits. -/
def State.lossRecord (s : State) : State :=
  let slot := (List.range 4096).find? (gbFree s.nv.mem) <|> gbReplace (gbBook s.nv.mem) 1
  let nv : Nv := { s.nv with ready := true }
  match s.gb.last, slot with
  | some r, some slot => { s with
      gb := { s.gb with queue := [] }
      nv := nv.enqueue 1 [(gbAddr slot, r.bytes)] .nothing }.pushBook r.bytes
  | _, _ => { s with
      gb := { (s.gb.drop sevNotice) with queue := [] }
      nv := nv }

/-- R50 steps 3 to 5: the last base tick, also after a hardware fault. Journal pages go first, then the power-loss record and the hours cell,
all in class 1. -/
def State.lastTick (s : State) (n : Nat) : State :=
  let s := if s.halted then { s with img := { s.img with closed := [] } } else s.lastCommits n
  let flush : Nv := { s.nv with queue := s.nv.queue.map (fun j => { j with cls := 1 }) }
  let s := { s with
    scan := { s.scan with lanes := false }
    pwr := { s.pwr with pf := .lastTick }
    nv := flush }
  if s.steward then
    let s := (s.gbEvent 0x02 0 sevNotice [BitVec.ofNat 32 s.gb.pfDropped, BitVec.ofNat 32 n]).lossRecord.lastHours
    { s with nv := s.nv.start }
  else s

/-- R184, R185. Base tick n = the cycle number plus 1. Bus cycles that end at it have their masks in force before the snapshots (R202). -/
def execBaseTick (t : Nat) (s : State) : Host.Outcome State Fault Refusal :=
  if s.awake = false then .next (s.at t)
  else
    let n := s.cycle + 1
    let s := s.at (max t (s.cycleOfTb (tickCycles * n)))
    let s := { s with cycle := n, scan := s.scan.endTick }
    if s.pwr.pf = .failed then .next (s.lastTick n)
    else if s.halted ∨ s.pwr.pf = .lastTick then .next { s with img := { s.img with closed := [] } }
    else
      let old := s.pair.stg
      let s := (((s.measure.canClose n).freezeStaging n).alignGroups).closeTasks n
      if s.halted then .next s
      else
        let is := s.closing n
        let s := s.commitAll n
        let mine := s.digestsOf is
        let s := s.canTick n
        let s := s.tickFrames old n mine
        let s := s.compareDigests n mine
        .next (s.releaseAll n (fun i => s.skips i n))

/-- R85, R185 steps 1 and 2. The deadline of the task of room r for the next base tick. -/
def execTaskDeadline (t : Nat) (r : RoomId) (s : State) : Host.Outcome State Fault Refusal :=
  let n := s.cycle + 1
  match s.taskOf r with
  | none => .next (s.at t)
  | some i =>
    if s.awake = true ∧ s.commitsNow i n = true ∧ s.img.closed.contains i = false then
      .next ((s.at (max t (s.cycleOfTb (tickCycles * n - 800)))).deadline r i n)
    else .next (s.at t)

/-! ### Maintenance, scrubbing and self-test (R74, R92 to R96) -/

/-- R74. Slot 0 of a lane: nothing issues in it; corrected words are written back (R92). -/
def execMaintenanceSlot (t : Nat) (lane : LaneId) (s : State) : Host.Outcome State Fault Refusal :=
  let s := s.at t
  .next (if s.scan.lanes then { s with scan := { s.scan with
      current := upd s.scan.current lane (fun _ => 127)
      writeBack := [] } } else s)

/-- Words that the scrubber sweeps in each memory, and all of them (R86, R95). -/
def memWords (m : MemId) : Nat :=
  match m with
  | .code => 1048576
  | .data => 524288
  | .image => 131072
  | .regs => 3800
  | .steward => 393216
def sweepWords : Nat := 1707736

/-- SCAN_FEV0.MEM of a memory, and its place among SCAN_ECC0 to 4 (R101). -/
def memCode (m : MemId) : Nat :=
  match m with
  | .code => 1
  | .data => 2
  | .image => 3
  | .regs => 4
  | .steward => 5
def memIdx (m : MemId) : Fin 5 :=
  match m with
  | .code => 0
  | .data => 1
  | .image => 2
  | .regs => 3
  | .steward => 4

/-- The word that place x of the sweep over the lane memories reads (R95): code store, data memory, image memory, register file, each from
address 0 up (DESIGN CHOICE, log entry 43). -/
def sweepWord (x : Nat) : MemId × Nat :=
  if x < 1048576 then (.code, x) else if x < 1572864 then (.data, x - 1048576)
  else if x < 1703936 then (.image, x - 1572864) else (.regs, x - 1703936)

/-- One more word swept; at the end of a sweep the next begins. -/
def Scan.swept (c : Scan) (now : Nat) : Scan :=
  if c.scrubbed + 1 < sweepWords then { c with scrubbed := c.scrubbed + 1 }
  else { c with scrubbed := 0, sweeps := c.sweeps + 1, lastSweep := now }

/-- This cycle lies in the maintenance slots of a base tick, and not one that carries a value edit (R215). -/
def State.inMaintenance (s : State) : Bool := decide (s.tb % 20000 < 8) && !s.edits.lastTe.contains (s.tb / 20000)

/-- The scrubber has this slot (R95): a maintenance slot of seven base ticks out of eight, or an idle slot of its lane. -/
def State.scrubSlot (s : State) : Bool :=
  if s.tb % 20000 < 8 then s.inMaintenance && s.tb / 20000 % 8 != 0
  else s.rooms.toList.all (fun v => !(v.ready && v.lane.val == s.tb % 8))

/-- Self-test has this slot (R96): a maintenance slot of every eighth base tick. -/
def State.testSlot (s : State) : Bool := s.inMaintenance && s.tb / 20000 % 8 == 0

/-- The word belongs to the admitted configuration (R94): its code in either half of the code store that holds some of it, its tasks' windows,
the image words of its channels, ports and tasks, the registers of its rooms. Of the image every input word counts, and of the rest what a
task owns (DESIGN CHOICE, log entry 43). -/
def State.usedWord (s : State) (m : MemId) (a : Nat) : Bool :=
  let cs := s.app.cur.toList ++ s.app.stored.toList ++ s.edits.new.toList ++ s.edits.old.toList
  match m with
  | .code => decide (a % 524288 < (if a < 524288 then s.app.code[0] else s.app.code[1]).length)
  | .data => cs.any (fun c => (List.range c.way.tasks.length).any (fun i =>
      let t := (c.task i).getD default
      (decide (c.an.privBase.getD i 0 ≤ 4 * a) && decide (4 * a < c.an.privBase.getD i 0 + t.privLen)) ||
        (decide (c.an.retBase.getD i 0 ≤ 4 * a) && decide (4 * a < c.an.retBase.getD i 0 + t.retLen))))
  | .image => cs.any (fun c => decide (4 * a < 0x1000) || (List.range c.way.tasks.length).any (fun i => c.owns i (4 * a)))
  | .regs => cs.any (fun c => c.an.rooms.contains (a / 38))
  | .steward => true

/-- Zero written into a word that no configuration uses (R94). An UNUSED room's registers are zero already (R81). -/
def State.zeroWord (s : State) (m : MemId) (a : Nat) : State :=
  match m with
  | .code => { s with app := { s.app with
      code := s.app.code.mapFinIdx (fun h w _ => if h = a / 524288 then w.set (a % 524288) 0 else w) } }
  | .data => { s with dmem := s.dmem.clear (4 * a) 4 }
  | .image => { s with img := { s.img with pend := s.img.pend.clear (4 * a) 4, com := s.img.com.clear (4 * a) 4 } }
  | .regs | .steward => s

/-- A corrected single-bit error (R92), and the suspect word of R93. After its record the word's hits are dropped, so that sixteen more give
another one, and a reset forgets all hits (DESIGN CHOICE, log entry 43). -/
def State.corrected (s : State) (m : MemId) (a : Nat) : State :=
  let hits : List EccHit := s.scan.eccHits.filter (fun h => decide (s.now < h.at' + 86400 * secCycles)) ++ [{ mem := m, addr := a, at' := s.now }]
  let same := hits.filter (fun h => h.mem == m && h.addr == a)
  let s := { s with scan := { s.scan with
    sbe := true
    ecc := upd s.scan.ecc (memIdx m) satInc
    eccAddr := BitVec.ofNat 20 a
    eccMem := BitVec.ofNat 4 (memCode m)
    eccHits := hits } }.mark 0x5800 4
  let s := if s.steward then s.gbEvent 0x10 (memCode m) sevNotice [barWord s 0x5824] else s
  if same.length = 16 then
    let s := { s with scan := { s.scan with suspect := true, eccHits := hits.filter (fun h => !(h.mem == m && h.addr == a)) } }.mark 0x5800 8
    if s.steward then s.gbEvent 0x11 (memCode m) sevFault [BitVec.ofNat 32 a] else s
  else s

/-- Evidence of an uncorrectable error: the instruction whose access it was, when a lane met it (R101). -/
def State.eccEvidence (s : State) (m : MemId) (a : Nat) (byLane : Bool) : FaultEvidence :=
  let plain : FaultEvidence :=
    { cause := 8, lane := 0, room := 127, mem := BitVec.ofNat 4 (memCode m), pc := 0, addr := BitVec.ofNat 20 a }
  match byLane, s.scan.flights.getLast? with
  | true, some x => { plain with lane := x.before.lane, room := BitVec.ofNat 7 x.room.val, pc := x.before.pc }
  | _, _ => plain

/-- A read passes through the corrector (R92, R94): a corrected word awaits its write-back, an uncorrectable one is a hardware fault unless it is
the scrubber that finds it in a word no configuration uses. -/
def State.eccRead (s : State) (m : MemId) (a : Nat) (res : EccResult) (scrubber byLane : Bool) : State :=
  match res with
  | .clean => s
  | .single =>
    let s := s.corrected m a
    { s with scan := { s.scan with writeBack := s.scan.writeBack ++ [(m, a)] } }
  | .double =>
    if scrubber = true ∧ s.usedWord m a = false then
      let s := s.zeroWord m a
      if s.steward then s.gbEvent 0x12 (memCode m) sevFault [BitVec.ofNat 32 a] else s
    else s.hardwareFault (s.eccEvidence m a byLane)

/-- R92, R94, R95. A read and what the corrector finds: the scrubber's next word of the lane memories, in a slot that it has, a word of steward
memory swept or read, or a word that an instruction reads. -/
def execScrubRead (t : Nat) (rd : EccRead) (a : Nat) (res : EccResult) (s : State) : Host.Outcome State Fault Refusal :=
  let s := s.at t
  if s.awake = false ∨ s.halted = true then .next s
  else
    match rd with
    | .sweep =>
      if s.scrubSlot then
        let w := sweepWord s.scan.scrubbed
        .next ({ s with scan := { s.scan.swept s.now with writeBack := [] } }.eccRead w.1 w.2 res true false)
      else .next s
    | .stewardSweep => .next (if a < memWords .steward then s.eccRead .steward a res true false else s)
    | .lane m => .next (if m ≠ .steward ∧ a < memWords m then s.eccRead m a res false true else s)
    | .core => .next (if a < memWords .steward then s.eccRead .steward a res false false else s)

/-- The result that R96 expects: the pattern comes back, the single-bit error is corrected, the double-bit error reported. -/
def testPasses (x : SelfTest) : Bool := x.back == x.pattern && x.one == .single && x.two == .double

/-- R96. Self-test of a bank in a slot that it has; a result that differs from the expected one is a hardware fault. The test word lies outside
the address map; SCAN_FEV2.ADDR holds the bank number (DESIGN CHOICE, log entry 43). -/
def execMemorySelfTest (t : Nat) (bank : Nat) (test : SelfTest) (s : State) : Host.Outcome State Fault Refusal :=
  let s := s.at t
  if s.awake = true ∧ s.halted = false ∧ s.testSlot = true then
    let s := { s with scan := { s.scan with tests := (bank, test.pattern) :: s.scan.tests.filter (fun x => x.1 != bank) } }
    .next (if testPasses test then s
      else s.hardwareFault { cause := 8, lane := 0, room := 127, mem := 6, pc := 0, addr := BitVec.ofNat 20 bank })
  else .next s

/-! ### Hardware faults (R94, R97, R98, R64) -/

/-- R98. A hardware fault is detected now: an uncorrectable error met by a lane or the steward, a failed crossing queue, or any other of
the causes that SCAN_FEV holds. -/
def execHardwareFault (t : Nat) (ev : FaultEvidence) (s : State) : Host.Outcome State Fault Refusal :=
  let s := s.at t
  .next (if s.awake = true ∧ 7 ≤ ev.cause ∧ ev.cause ≤ 9 then s.hardwareFault ev else s)

/-- R97. The fault of an early read, in the cycle after the write-back of the instruction that made it. -/
def execDistanceRuleBroken (t : Nat) (r : RoomId) (s : State) : Host.Outcome State Fault Refusal :=
  match s.rooms[r].broken with
  | none => .next (s.at t)
  | some (c, pc) =>
    let s := s.at (max t c)
    let v := s.rooms[r]
    let s := s.updRoom r (fun v => { v with broken := none })
    .next (if s.awake then
        s.hardwareFault { cause := 9, lane := v.lane, room := BitVec.ofNat 7 r.val, mem := 0, pc := pc, addr := 0 }
      else s)

/-! ### SCAN_CLR (R100, R101) -/

/-- R101. SCAN_CLR.ECC. -/
def execScanClrEcc (t : Nat) (s : State) : Host.Outcome State Fault Refusal :=
  let s := s.at t
  .next (if s.steward then { s with scan := { s.scan with
      ecc := Vector.replicate 5 0
      eccAddr := 0
      eccMem := 0 } } else s)

/-- R101. SCAN_CLR.PEAK. -/
def execScanClrPeak (t : Nat) (s : State) : Host.Outcome State Fault Refusal :=
  let s := s.at t
  if s.steward then
    let s := s.mapRooms (fun v => { v with peak := 0, resp := 0 })
    .next { s with scan := { s.scan with idleMin := Vector.replicate 8 0xFFF } }
  else .next s

/-- R100. SCAN_CLR.FEV. -/
def execScanClrFev (t : Nat) (s : State) : Host.Outcome State Fault Refusal :=
  let s := s.at t
  .next (if s.steward then { s with scan := { s.scan with fev := Vector.replicate 5 0 } } else s)

/-- R415. NP_CLR.EV. -/
def execNpClrEv (t : Nat) (s : State) : Host.Outcome State Fault Refusal :=
  let s := s.at t
  .next (if s.steward then { s with np := { s.np with
      evinfo := 0
      evapc := 0
      evspc := 0
      evatb := 0
      evstb := 0 } } else s)

end Sys2Proof.Machine
end

