-- ==== Sys2Proof/Machine/Edits.lean ====
section
/-! DEFINITION. Value edits and variable reads (R211 to R218, R357, R358), start and stop (R355, R356, R383). -/

namespace Sys2Proof.Machine

/-! ### The tick of a batch or read (R215, R358) -/

/-- Cycle number te is far enough from every batch and read accepted before. -/
def State.teFree (s : State) (te : Nat) : Bool := s.edits.lastTe.all (fun x => decide (x + 32 ≤ te) || decide (te + 32 ≤ x))

/-- Releases of a period from te on, the first one that is far enough from the others. -/
def State.findTe (s : State) (k : Nat) : Nat → Nat → Nat
  | 0, te => te
  | n + 1, te => if s.teFree te then te else s.findTe k n (te + k)

/-- The first release of task i at or after cycle number n. -/
def State.releaseFrom (s : State) (i n : Nat) : Nat :=
  let k := max 1 (s.period i)
  s.app.startTick + ceilDiv (n - s.app.startTick) k * k

/-- t_e of R215. -/
def State.chooseTe (s : State) (i : Nat) : Nat :=
  s.findTe (max 1 (s.period i)) (64 * (s.edits.lastTe.length + 1)) (s.releaseFrom i (s.cycle + 4))

/-- CYCLE of a write at release may be t_e (R358). -/
def State.teAllowed (s : State) (i te : Nat) : Bool :=
  s.releasedAt i te && decide (s.cycle + 4 ≤ te) && decide (te ≤ s.cycle + 2 ^ 20) && s.teFree te

/-! ### Variables -/

def State.findVar (s : State) (id : Nat) : Option Var := s.app.cur.bind (fun c => c.way.vars.find? (fun v => v.id == id))

/-- Where a variable lies in data memory (R162). -/
def State.varAddr (s : State) (v : Var) : Nat :=
  match s.app.cur with
  | none => 0
  | some c => (if v.retained then c.an.retBase.getD v.task 0 else c.an.privBase.getD v.task 0) + v.offset

/-- Data words that bytes lie in. -/
def wordsIn (as : List Nat) : Nat := (as.map (· / 4)).eraseDups.length

/-! ### Batches (R212 to R217) -/

/-- The entries of a batch: VARID, OFFSET, bytes; none when they do not fill it or a pad byte is not zero (R213). -/
def batchEntries : Nat → List Byte → Option (List (Nat × Nat × List Byte))
  | 0, bs => if bs = [] then some [] else none
  | n + 1, bs =>
    if bs = [] then some []
    else
      let len := u16 bs 6
      let size := 8 + (len + 3) / 4 * 4
      if bs.length < 8 ∨ len = 0 ∨ bs.length < size ∨ (slice bs (8 + len) (size - 8 - len)).any (· != 0) = true then none
      else (batchEntries n (bs.drop size)).map (fun r => (u32 bs 0, u16 bs 4, slice bs 8 len) :: r)

/-- The bytes that entries write, by data-memory address; none when one lies outside its variable. -/
def State.entryWrites (s : State) (es : List (Nat × Nat × List Byte)) : Option (List (Nat × Byte)) :=
  es.foldr (fun e acc =>
    match acc, s.findVar e.1 with
    | some ws, some v =>
      if e.2.1 + e.2.2.length ≤ v.size then some (e.2.2.mapIdx (fun i b => (s.varAddr v + e.2.1 + i, b)) ++ ws) else none
    | some ws, none => some ws
    | none, _ => none) (some [])

/-- The checks of R214 in its order. -/
def State.batchStatus (s : State) (task : Nat) (es : Option (List (Nat × Nat × List Byte))) : Nat :=
  match es with
  | none => 0x0120
  | some es =>
    match s.entryWrites es with
    | none => 0x0120
    | some ws =>
      let as := ws.map Prod.fst
      let vs := es.map (fun e => s.findVar e.1)
      if as.eraseDups.length ≠ as.length ∨ 8 < wordsIn as then 0x0120
      else if vs.any Option.isNone then 0x0121
      else if vs.any (fun v => match v with | some v => !v.editable | none => false) then 0x0122
      else if vs.any (fun v => match v with | some v => v.task != task | none => false) then 0x0123
      else 0

/-- A task that a swap changes, while one exists (R230). -/
def State.swapChanges (s : State) (i : Nat) : Bool := s.edits.swap != .none && changedIn s.edits.new i

/-- The wrong-state checks of a value edit. -/
def State.editChecks (s : State) (task : Nat) : List Check :=
  [(!s.app.running && s.leads, 0x0220), (s.swapChanges task, 0x0226), (s.edits.batches.any (fun b => b.task == task), 0x0221), (s.isRelief, 0x0701)]

/-- An accepted batch waits for its t_e; a primary forwards it (R232). -/
def State.acceptBatch (s : State) (ref : Option CmdRef) (task te : Nat) (bs : List Byte) : State :=
  let es := (batchEntries bs.length bs).getD []
  let b : Batch := { task := task, te := te, entries := es.length, writes := (s.entryWrites es).getD [], ref := ref }
  let s := { s with edits := { s.edits with
    batches := s.edits.batches ++ [b]
    lastTe := te :: s.edits.lastTe.filter (fun x => decide (s.cycle < x + 64)) } }
  if s.pair.role = 1 then s.sendControl 1 (toLe 6 te ++ toLe 2 task ++ bs) else s

def editFormChecks (e : CmdEntry) (s : State) : List Check :=
  [(!e.formOk 0 [(4, 12)], 0x0101),
   (decide (e.h 6 < 12) || decide (256 < e.h 6) || e.h 6 % 4 != 0 || (s.app.running && decide (s.taskCount ≤ e.h 4)), 0x0103),
   (e.q 8 % 8 != 0, 0x0104)]

/-- R214, R215. Command 0x20. `dma` is what the buffer holds. -/
def execValueEdit (t : Nat) (c : RingId) (e : CmdEntry) (dma : Option (List Byte)) (s : State) : Host.Outcome State Fault Refusal :=
  let bs := slice (dma.getD []) 0 (e.h 6)
  .next (s.command t c 0x20 e (fun s => editFormChecks e s ++ s.editChecks (e.h 4) ++ [(dma.isNone, 0x0105)])
    (fun ref s =>
      let st := s.batchStatus (e.h 4) (batchEntries bs.length bs)
      if st ≠ 0 then s.complete ref (BitVec.ofNat 16 st) []
      else s.acceptBatch (some ref) (e.h 4) (s.chooseTe (e.h 4)) bs))

/-- The batch of one entry that a write at release stands for (R358). -/
def oneEntry (e : CmdEntry) : List Byte :=
  let n := e.h 10
  toLe 4 (e.w 4) ++ toLe 2 (e.h 8) ++ toLe 2 n ++ slice e.body 16 n ++ List.replicate ((4 - n % 4) % 4) 0

/-- R358. Command 0x31. -/
def execVariableWriteAtRelease (t : Nat) (c : RingId) (e : CmdEntry) (s : State) : Host.Outcome State Fault Refusal :=
  let n := e.h 10
  let cyc := u48 e.body 8
  let task (s : State) : Nat := ((s.findVar (e.w 4)).map Var.task).getD 0xFFFF
  .next (s.command t c 0x31 e
    (fun s => [(!e.formOk 0 [(4, 14), (20, 32)] || (slice e.body (16 + n) (32 - n)).any (· != 0), 0x0101),
      (decide (n < 1) || decide (32 < n), 0x0103)] ++ s.editChecks (task s))
    (fun ref s =>
      let bs := oneEntry e
      let i := task s
      let st := s.batchStatus i (batchEntries bs.length bs)
      if st ≠ 0 then s.complete ref (BitVec.ofNat 16 st) []
      else if cyc ≠ 0 ∧ s.teAllowed i cyc = false then s.complete ref 0x0250 []
      else s.acceptBatch (some ref) i (if cyc = 0 then s.chooseTe i else cyc) bs))

/-- A byte written into a window of a task's room, with the marks of a store (R218). -/
def State.pokeByte (s : State) (r : RoomId) (a : Nat) (b : Byte) : State :=
  let v := s.rooms[r]
  let logical := if v.retBase ≤ a ∧ a < v.retBase + v.retLen then 2 ^ 23 + (a - v.retBase) else a - v.privBase
  s.storeData r logical a [b]

/-- The batch is written, its command completes, and the record is written (R215, R216). -/
def State.applyBatch (s : State) (b : Batch) : State :=
  match s.roomOf b.task with
  | none => s
  | some r =>
    let s := b.writes.foldl (fun s w => s.pokeByte r w.1 w.2) s
    let s := s.gbEvent 0x20 r.val sevInfo [BitVec.ofNat 32 b.entries, BitVec.ofNat 32 b.te]
    s.completeOpt b.ref 0 (toLe 6 b.te)

/-- The release of t_e comes: no stop tick lies at or before it (R217, R356). -/
def State.teComes (s : State) (te : Nat) : Bool := match s.app.stop with | none => true | some q => decide (te < q.tick)

/-- R215. The maintenance slots of a base tick write the batch whose release it is; one whose release a stop leaves out waits for the stop
tick (R217). -/
def execEditBatchApply (t : Nat) (s : State) : Host.Outcome State Fault Refusal :=
  let s := s.at t
  if s.app.running = true ∧ s.halted = false then
    let due := s.edits.batches.filter (fun b => decide (b.te ≤ s.cycle) && s.teComes b.te)
    let s := { s with edits := { s.edits with batches := s.edits.batches.filter (fun b => !(decide (b.te ≤ s.cycle) && s.teComes b.te)) } }
    .next (due.foldl State.applyBatch s)
  else .next s

/-! ### Variable reads (R357) -/

/-- The own checks of a read: unknown, outside its variable, or in more than 8 data words. -/
def State.readStatus (s : State) (e : CmdEntry) : Nat :=
  match s.findVar (e.w 4) with
  | none => 0x0121
  | some v =>
    if v.size < e.h 8 + e.h 10 ∨ 8 < wordsIn ((List.range (e.h 10)).map (· + (s.varAddr v + e.h 8))) then 0x0120 else 0

/-- R357. Command 0x30. -/
def execVariableRead (t : Nat) (c : RingId) (e : CmdEntry) (s : State) : Host.Outcome State Fault Refusal :=
  .next (s.command t c 0x30 e
    (fun s => [(!e.formOk 0 [(4, 8), (16, 8)], 0x0101), (decide (e.h 10 < 1) || decide (32 < e.h 10), 0x0103), (e.q 16 % 8 != 0, 0x0104),
      (!s.app.running, 0x0220)])
    (fun ref s =>
      let st := s.readStatus e
      match s.findVar (e.w 4) with
      | none => s.complete ref 0x0121 []
      | some v =>
        if st ≠ 0 then s.complete ref (BitVec.ofNat 16 st) []
        else
          let te := s.chooseTe v.task
          let r : VRead := { task := v.task, te := te, addr := s.varAddr v + e.h 8, len := e.h 10, host := e.q 16, ref := some ref }
          { s with edits := { s.edits with
            reads := s.edits.reads ++ [r]
            lastTe := te :: s.edits.lastTe.filter (fun x => decide (s.cycle < x + 64)) } }))

/-- The bytes go to the host, then the completion; after a DISABLE the read runs to its end without one (R342). -/
def State.applyRead (s : State) (r : VRead) : State :=
  match r.ref with
  | none => s
  | some ref =>
    (s.request (.hostWrite r.host (s.dmem.read r.addr r.len))).complete ref 0 (toLe 6 r.te)

/-- R357. The maintenance slots of a release read the variable whose release it is. -/
def execVariableReadApply (t : Nat) (s : State) : Host.Outcome State Fault Refusal :=
  let s := s.at t
  if s.app.running = true ∧ s.halted = false then
    let due := s.edits.reads.filter (fun r => decide (r.te ≤ s.cycle) && s.teComes r.te)
    let s := { s with edits := { s.edits with reads := s.edits.reads.filter (fun r => !(decide (r.te ≤ s.cycle) && s.teComes r.te)) } }
    .next (due.foldl State.applyRead s)
  else .next s

/-! ### Start (R355, R383) -/

/-- The pair does not let a start run (step 3 of R383): the role is open, the cable present, and the partner powered or unknown. -/
def State.partnerUnknown (s : State) : Bool :=
  !s.pair.settled && ((s.app.stored.map (fun c => c.way.pair)).getD false) && s.pwr.pairPresent && (s.pair.partnerPwr || s.pair.link)

/-- Steps 4 and 5 of R383: a start makes an unsettled module of a pair the primary. -/
def State.settleByStart (s : State) : State :=
  if s.pair.settled = false ∧ (s.app.stored.map (fun c => c.way.pair)).getD false = true then
    { s.setRole 1 1 sevNotice with pair := { (s.setRole 1 1 sevNotice).pair with settled := true } }.flushLate false
  else s

/-- R355. Command 0x12: the run flag is written, then the start tick is due. -/
def execStart (t : Nat) (c : RingId) (e : CmdEntry) (s : State) : Host.Outcome State Fault Refusal :=
  .next (s.command t c 0x12 e
    (fun s => [(!e.formOk 0 [], 0x0101), (s.app.stored.isNone, 0x0240), (s.app.running || s.app.start.isSome, 0x0241), (s.inn.exam.isSome, 0x0242),
      (s.isRelief, 0x0701), (s.partnerUnknown, 0x0704)])
    (fun ref s =>
      match s.app.stored with
      | none => s.complete ref 0x0240 []
      | some cf =>
        let s := s.settleByStart
        let s := { s with app := { s.app with held := false } }
        let s := s.scheduleStart (s.cycle + 40) false (some ref)
        s.recWrite 4 1 (confRecord cf.way.crc true) (fun _ => .startFlag)))

/-- Committed values in which every publication stamp reads zero, as it does until the first commit (R204). -/
def Conf.zeroStamps (c : Conf) (m : Mem) : Mem :=
  (List.range c.way.tasks.length).foldl (fun (m : Mem) i =>
    if ((c.task i).map Task.pubLen).getD 0 = 0 then m else m.write (c.an.pubBase.getD i 0) (toLe 4 0)) m

/-- The configuration begins to run at the cycle number of the base tick just begun (R81, R164, R192, R407, R452). -/
def State.launch (s : State) (c : Conf) : State :=
  let s := { s with
    app := { s.app with
      cur := some c
      running := true
      startTick := s.cycle
      start := none
      held := false
      stopSafeAt := none }
    img := { s.img with
      written := []
      closed := []
      com := c.zeroStamps s.img.com }
    edits := Edits.init
    dmem := (List.range c.way.tasks.length).foldl (fun (m : Mem) i =>
      m.clear (c.an.privBase.getD i 0) (((c.task i).map Task.privLen).getD 0)) s.dmem
    np := s.np.admitted c.an s.tb }
  let s := s.mapChans (fun x => { x with follow := false })
  let s := (s.setUpRooms c).limitPublications c
  (s.canTick s.cycle).releaseAll s.cycle (fun _ => false)

/-- R355. The start tick, due once the run flag is written and steps 7 to 9 of R69 are done. -/
def execStartTick (t : Nat) (s : State) : Host.Outcome State Fault Refusal :=
  let s := s.at t
  match s.app.start, s.app.stored with
  | some q, some c =>
    if q.flagOk = true ∧ q.tick ≤ s.cycle ∧ s.mayRelease = true ∧ s.app.running = false then
      .next ((s.launch c).completeOpt q.ref 0 (toLe 6 s.cycle))
    else .next s
  | _, _ => .next s

/-! ### Stop (R356) -/

/-- What R230 answers to a stop while a swap exists. -/
def State.stopSwap (s : State) : List Check :=
  [(s.edits.swap == .pendSwitch || s.edits.swap == .pendRollback, 0x0227), (s.edits.swap == .trial || s.edits.swap == .releasing, 0x0225)]

/-- A stop is due at a cycle number; a staged swap and calibration points held are discarded (R230, R294). -/
def State.scheduleStop (s : State) (tick : Nat) (refs : List CmdRef) : State :=
  { s with
    app := { s.app with stop := some { tick := tick, refs := refs } }
    groups := s.groups.map Group.noPoints
    edits := if s.edits.swap = .staged then { s.edits with swap := .none, new := none } else s.edits }

/-- R356. Command 0x13; a primary forwards the stop tick. A second stop before the stop tick completes with the first (log entry 33). -/
def execStop (t : Nat) (c : RingId) (e : CmdEntry) (s : State) : Host.Outcome State Fault Refusal :=
  .next (s.command t c 0x13 e
    (fun s => [(!e.formOk 0 [], 0x0101), (!s.app.running, 0x0220)] ++ s.stopSwap ++ [(s.isRelief, 0x0701)])
    (fun ref s =>
      match s.app.stop with
      | some q => s.scheduleStop q.tick (q.refs ++ [ref])
      | none =>
      let s := s.scheduleStop (s.cycle + 4) [ref]
      if s.pair.role = 1 then s.sendControl 3 (toLe 6 (s.cycle + 4)) else s))

/-- The application ends at the stop tick; a resynchronisation awaited by a command ends with it (R398). -/
def State.halt (s : State) : State :=
  let s := { s with app := { s.app with running := false, stopSafeAt := some (s.now + tickCycles) } }
  let s := (s.stopRooms.dropPoints.canStop).discardEdits
  let s := { s.npBoot with pair := { s.npBoot.pair with joinRef := none } }.completeOpt s.pair.joinRef 0x0707 []
  match s.app.stored with
  | none => s
  | some c => s.recWrite 4 1 (confRecord c.way.crc false) (fun _ => .stopFlag)

/-- R356. The stop tick, after the commits of its base tick. -/
def execStopTick (t : Nat) (s : State) : Host.Outcome State Fault Refusal :=
  let s := s.at t
  match s.app.stop with
  | none => .next s
  | some q => .next (if s.app.running = true ∧ q.tick ≤ s.cycle ∧ s.halted = false then s.halt else s)

/-- R356. 50 µs after the stop tick the supervisors apply the safe states on command: nothing is counted or signalled. -/
def execStopSafeStates (t : Nat) (s : State) : Host.Outcome State Fault Refusal :=
  match s.app.stopSafeAt with
  | none => .next (s.at t)
  | some at' =>
    let s := s.at (max t at')
    let s := { s with app := { s.app with stopSafeAt := none } }
    .next ((fins 12).foldl (fun s g =>
      if s.groups[g].lplus then { s.applySafe g with groups := upd (s.applySafe g).groups g (fun p => { p with stopSafe := true }) } else s) s)

end Sys2Proof.Machine
end

