-- ==== Sys2Proof/Machine/IntLogic.lean ====
section
/-! DEFINITION. Integer, logic, immediate and Boolean instructions (R134 to R137, R141). -/

namespace Sys2Proof.Machine

/-- R134. Nothing but the slot. -/
def execNop (t : Nat) (r : RoomId) (s : State) : Host.Outcome State Fault Refusal :=
  .next (s.lane t r (fun _ => false) (fun _ _ s => s))

/-- R134. rd = ra + rb; Z N C V. -/
def execAdd (t : Nat) (r : RoomId) (rd ra rb : Reg) (s : State) : Host.Outcome State Fault Refusal :=
  .next (s.laneReg t r rd [ra, rb] (fun v => addResult (v.get ra) (v.get rb) false) (fun v w => w.flagsAdd (v.get ra) (v.get rb) false))

/-- R134. rd = ra − rb; Z N C V. -/
def execSub (t : Nat) (r : RoomId) (rd ra rb : Reg) (s : State) : Host.Outcome State Fault Refusal :=
  .next (s.laneReg t r rd [ra, rb] (fun v => subResult (v.get ra) (v.get rb) false) (fun v w => w.flagsSub (v.get ra) (v.get rb) false))

/-- R134. rd = ra + rb + C; Z N C V. -/
def execAdc (t : Nat) (r : RoomId) (rd ra rb : Reg) (s : State) : Host.Outcome State Fault Refusal :=
  .next (s.laneReg t r rd [ra, rb] (fun v => addResult (v.get ra) (v.get rb) v.c) (fun v w => w.flagsAdd (v.get ra) (v.get rb) v.c))

/-- R134. rd = ra − rb − (1 − C); Z N C V. -/
def execSbc (t : Nat) (r : RoomId) (rd ra rb : Reg) (s : State) : Host.Outcome State Fault Refusal :=
  .next (s.laneReg t r rd [ra, rb] (fun v => subResult (v.get ra) (v.get rb) (!v.c)) (fun v w => w.flagsSub (v.get ra) (v.get rb) (!v.c)))

/-- R134. rd = ra and rb; Z N. -/
def execAnd (t : Nat) (r : RoomId) (rd ra rb : Reg) (s : State) : Host.Outcome State Fault Refusal :=
  .next (s.laneReg t r rd [ra, rb] (fun v => v.get ra &&& v.get rb) (fun v w => w.setZN (v.get ra &&& v.get rb)))

/-- R134. rd = ra or rb; Z N. -/
def execOr (t : Nat) (r : RoomId) (rd ra rb : Reg) (s : State) : Host.Outcome State Fault Refusal :=
  .next (s.laneReg t r rd [ra, rb] (fun v => v.get ra ||| v.get rb) (fun v w => w.setZN (v.get ra ||| v.get rb)))

/-- R134. rd = ra xor rb; Z N. -/
def execXor (t : Nat) (r : RoomId) (rd ra rb : Reg) (s : State) : Host.Outcome State Fault Refusal :=
  .next (s.laneReg t r rd [ra, rb] (fun v => v.get ra ^^^ v.get rb) (fun v w => w.setZN (v.get ra ^^^ v.get rb)))

/-- R134. rd = ra and not rb; Z N. -/
def execAndn (t : Nat) (r : RoomId) (rd ra rb : Reg) (s : State) : Host.Outcome State Fault Refusal :=
  .next (s.laneReg t r rd [ra, rb] (fun v => v.get ra &&& ~~~(v.get rb)) (fun v w => w.setZN (v.get ra &&& ~~~(v.get rb))))

/-- R134. rd = the smaller of s(ra) and s(rb); Z N. -/
def execMin (t : Nat) (r : RoomId) (rd ra rb : Reg) (s : State) : Host.Outcome State Fault Refusal :=
  .next (s.laneReg t r rd [ra, rb] (fun v => if (v.get rb).slt (v.get ra) then v.get rb else v.get ra) (fun v w => w.setZN (if (v.get rb).slt (v.get ra) then v.get rb else v.get ra)))

/-- R134. rd = the larger of s(ra) and s(rb); Z N. -/
def execMax (t : Nat) (r : RoomId) (rd ra rb : Reg) (s : State) : Host.Outcome State Fault Refusal :=
  .next (s.laneReg t r rd [ra, rb] (fun v => if (v.get ra).slt (v.get rb) then v.get rb else v.get ra) (fun v w => w.setZN (if (v.get ra).slt (v.get rb) then v.get rb else v.get ra)))

/-- R134. rd = the smaller of u(ra) and u(rb); Z N. -/
def execMinu (t : Nat) (r : RoomId) (rd ra rb : Reg) (s : State) : Host.Outcome State Fault Refusal :=
  .next (s.laneReg t r rd [ra, rb] (fun v => if (v.get rb).ult (v.get ra) then v.get rb else v.get ra) (fun v w => w.setZN (if (v.get rb).ult (v.get ra) then v.get rb else v.get ra)))

/-- R134. rd = the larger of u(ra) and u(rb); Z N. -/
def execMaxu (t : Nat) (r : RoomId) (rd ra rb : Reg) (s : State) : Host.Outcome State Fault Refusal :=
  .next (s.laneReg t r rd [ra, rb] (fun v => if (v.get ra).ult (v.get rb) then v.get rb else v.get ra) (fun v w => w.setZN (if (v.get ra).ult (v.get rb) then v.get rb else v.get ra)))

/-- R134, R135. rd = ra << rb[4:0]; Z N C. -/
def execShl (t : Nat) (r : RoomId) (rd ra rb : Reg) (s : State) : Host.Outcome State Fault Refusal :=
  .next (s.laneReg t r rd [ra, rb] (fun v => (v.get ra) <<< ((v.get rb).toNat % 32)) (fun v w => w.flagsShift ((v.get ra) <<< ((v.get rb).toNat % 32)) ((v.get rb).toNat % 32) (shlOut (v.get ra) ((v.get rb).toNat % 32))))

/-- R134, R135. rd = ra >> rb[4:0], logical; Z N C. -/
def execShr (t : Nat) (r : RoomId) (rd ra rb : Reg) (s : State) : Host.Outcome State Fault Refusal :=
  .next (s.laneReg t r rd [ra, rb] (fun v => (v.get ra) >>> ((v.get rb).toNat % 32)) (fun v w => w.flagsShift ((v.get ra) >>> ((v.get rb).toNat % 32)) ((v.get rb).toNat % 32) (shrOut (v.get ra) ((v.get rb).toNat % 32))))

/-- R134, R135. rd = ra >> rb[4:0], copying bit 31; Z N C. -/
def execSar (t : Nat) (r : RoomId) (rd ra rb : Reg) (s : State) : Host.Outcome State Fault Refusal :=
  .next (s.laneReg t r rd [ra, rb] (fun v => (v.get ra).sshiftRight ((v.get rb).toNat % 32)) (fun v w => w.flagsShift ((v.get ra).sshiftRight ((v.get rb).toNat % 32)) ((v.get rb).toNat % 32) (shrOut (v.get ra) ((v.get rb).toNat % 32))))

/-- R134. Flags of ra − rb. -/
def execCmp (t : Nat) (r : RoomId) (ra rb : Reg) (s : State) : Host.Outcome State Fault Refusal :=
  .next (s.laneFlags t r [ra, rb] (fun v w => w.flagsSub (v.get ra) (v.get rb) false))

/-- R134. rd = ra when B = 1, else rb; no flag. -/
def execSel (t : Nat) (r : RoomId) (rd ra rb : Reg) (s : State) : Host.Outcome State Fault Refusal :=
  .next (s.laneReg t r rd [ra, rb] (fun v => if v.b then v.get ra else v.get rb) (fun _ w => w))

/-- R134. rd = B, as 0 or 1; no flag. -/
def execGetb (t : Nat) (r : RoomId) (rd : Reg) (s : State) : Host.Outcome State Fault Refusal :=
  .next (s.laneReg t r rd [] (fun v => BitVec.ofNat 32 (b2n v.b)) (fun _ w => w))

/-- R136. rd = ra + sx16(imm); Z N C V. -/
def execAddi (t : Nat) (r : RoomId) (rd ra : Reg) (imm : BitVec 16) (s : State) : Host.Outcome State Fault Refusal :=
  .next (s.laneReg t r rd [ra] (fun v => addResult (v.get ra) (sx16 imm) false) (fun v w => w.flagsAdd (v.get ra) (sx16 imm) false))

/-- R136. Flags of ra − sx16(imm). -/
def execCmpi (t : Nat) (r : RoomId) (ra : Reg) (imm : BitVec 16) (s : State) : Host.Outcome State Fault Refusal :=
  .next (s.laneFlags t r [ra] (fun v w => w.flagsSub (v.get ra) (sx16 imm) false))

/-- R136. rd = ra and zx16(imm); Z N. -/
def execAndi (t : Nat) (r : RoomId) (rd ra : Reg) (imm : BitVec 16) (s : State) : Host.Outcome State Fault Refusal :=
  .next (s.laneReg t r rd [ra] (fun v => v.get ra &&& zx16 imm) (fun v w => w.setZN (v.get ra &&& zx16 imm)))

/-- R136. rd = ra or zx16(imm); Z N. -/
def execOri (t : Nat) (r : RoomId) (rd ra : Reg) (imm : BitVec 16) (s : State) : Host.Outcome State Fault Refusal :=
  .next (s.laneReg t r rd [ra] (fun v => v.get ra ||| zx16 imm) (fun v w => w.setZN (v.get ra ||| zx16 imm)))

/-- R136. rd = ra xor zx16(imm); Z N. -/
def execXori (t : Nat) (r : RoomId) (rd ra : Reg) (imm : BitVec 16) (s : State) : Host.Outcome State Fault Refusal :=
  .next (s.laneReg t r rd [ra] (fun v => v.get ra ^^^ zx16 imm) (fun v w => w.setZN (v.get ra ^^^ zx16 imm)))

/-- R136. rd = imm << 16; no flag. -/
def execLui (t : Nat) (r : RoomId) (rd : Reg) (imm : BitVec 16) (s : State) : Host.Outcome State Fault Refusal :=
  .next (s.laneReg t r rd [] (fun _ => zx16 imm <<< 16) (fun _ w => w))

/-- R136. As SHL with count n; Z N C. -/
def execShli (t : Nat) (r : RoomId) (rd ra : Reg) (n5 : BitVec 5) (s : State) : Host.Outcome State Fault Refusal :=
  .next (s.laneReg t r rd [ra] (fun v => (v.get ra) <<< n5.toNat) (fun v w => w.flagsShift ((v.get ra) <<< n5.toNat) n5.toNat (shlOut (v.get ra) n5.toNat)))

/-- R136. As SHR with count n; Z N C. -/
def execShri (t : Nat) (r : RoomId) (rd ra : Reg) (n5 : BitVec 5) (s : State) : Host.Outcome State Fault Refusal :=
  .next (s.laneReg t r rd [ra] (fun v => (v.get ra) >>> n5.toNat) (fun v w => w.flagsShift ((v.get ra) >>> n5.toNat) n5.toNat (shrOut (v.get ra) n5.toNat)))

/-- R136. As SAR with count n; Z N C. -/
def execSari (t : Nat) (r : RoomId) (rd ra : Reg) (n5 : BitVec 5) (s : State) : Host.Outcome State Fault Refusal :=
  .next (s.laneReg t r rd [ra] (fun v => (v.get ra).sshiftRight n5.toNat) (fun v w => w.flagsShift ((v.get ra).sshiftRight n5.toNat) n5.toNat (shrOut (v.get ra) n5.toNat)))

/-- R136. B = bit n of ra. -/
def execTst (t : Nat) (r : RoomId) (ra : Reg) (n5 : BitVec 5) (s : State) : Host.Outcome State Fault Refusal :=
  .next (s.laneFlags t r [ra] (fun v w => { w with b := (v.get ra).getLsbD n5.toNat }))

/-- The mask of a field of w5 + 1 bits (R137). -/
def fieldMask (w5 : BitVec 5) : Nat := 2 ^ (w5.toNat + 1) - 1

/-- BEXT: the field of ra at p (R137). -/
def bextResult (a : Word) (p5 w5 : BitVec 5) : Word := BitVec.ofNat 32 (a.toNat / 2 ^ p5.toNat &&& fieldMask w5)

/-- BINS: the low bits of ra put into rd at p, truncated to 32 bits (R137). -/
def binsResult (d a : Word) (p5 w5 : BitVec 5) : Word :=
  let m := BitVec.ofNat 32 (fieldMask w5 * 2 ^ p5.toNat)
  (d &&& ~~~m) ||| BitVec.ofNat 32 ((a.toNat &&& fieldMask w5) * 2 ^ p5.toNat)

/-- R137. Bit-field extract; Z N. -/
def execBext (t : Nat) (r : RoomId) (rd ra : Reg) (p5 w5 : BitVec 5) (s : State) : Host.Outcome State Fault Refusal :=
  .next (s.laneReg t r rd [ra] (fun v => bextResult (v.get ra) p5 w5) (fun v w => w.setZN (bextResult (v.get ra) p5 w5)))

/-- R137. Bit-field insert, which reads rd too; no flag. -/
def execBins (t : Nat) (r : RoomId) (rd ra : Reg) (p5 w5 : BitVec 5) (s : State) : Host.Outcome State Fault Refusal :=
  .next (s.laneReg t r rd [rd, ra] (fun v => binsResult (v.get rd) (v.get ra) p5 w5) (fun _ w => w))

/-- BOOL3 of three words under a truth table (R141): bit i of the result is bit 4·ra[i] + 2·rb[i] + rc[i] of the table. -/
def bool3 (a b c : Word) (tt : Byte) : Word :=
  let pick (i : Nat) : Word := if tt.getLsbD i then BitVec.allOnes 32 else 0
  (pick 0 &&& ~~~a &&& ~~~b &&& ~~~c) ||| (pick 1 &&& ~~~a &&& ~~~b &&& c) ||| (pick 2 &&& ~~~a &&& b &&& ~~~c) |||
    (pick 3 &&& ~~~a &&& b &&& c) ||| (pick 4 &&& a &&& ~~~b &&& ~~~c) ||| (pick 5 &&& a &&& ~~~b &&& c) |||
    (pick 6 &&& a &&& b &&& ~~~c) ||| (pick 7 &&& a &&& b &&& c)

/-- R141. 32 three-input functions; Z and B = rd[0]. -/
def execBool3 (t : Nat) (r : RoomId) (rd ra rb rc : Reg) (tt : Byte) (s : State) : Host.Outcome State Fault Refusal :=
  .next (s.laneReg t r rd [ra, rb, rc] (fun v => bool3 (v.get ra) (v.get rb) (v.get rc) tt) (fun v w => { w with z := bool3 (v.get ra) (v.get rb) (v.get rc) tt == 0, b := (bool3 (v.get ra) (v.get rb) (v.get rc) tt).getLsbD 0 }))

end Sys2Proof.Machine
end

