-- ==== Sys2Proof/Machine/LoadStore.lean ====
section
/-! DEFINITION. Loads and stores of data memory, image bytes and image bits, and EDGE (R112 to R115, R138 to R140). -/

namespace Sys2Proof.Machine

/-- R138. rd = word of the room's windows. -/
def execLw (t : Nat) (r : RoomId) (rd ra : Reg) (imm : BitVec 16) (s : State) : Host.Outcome State Fault Refusal :=
  .next (s.laneLoad t r rd ra imm .word false)

/-- R138. rd = sign-extended halfword of the room's windows. -/
def execLh (t : Nat) (r : RoomId) (rd ra : Reg) (imm : BitVec 16) (s : State) : Host.Outcome State Fault Refusal :=
  .next (s.laneLoad t r rd ra imm .half true)

/-- R138. rd = zero-extended halfword of the room's windows. -/
def execLhu (t : Nat) (r : RoomId) (rd ra : Reg) (imm : BitVec 16) (s : State) : Host.Outcome State Fault Refusal :=
  .next (s.laneLoad t r rd ra imm .half false)

/-- R138. rd = sign-extended byte of the room's windows. -/
def execLby (t : Nat) (r : RoomId) (rd ra : Reg) (imm : BitVec 16) (s : State) : Host.Outcome State Fault Refusal :=
  .next (s.laneLoad t r rd ra imm .byte true)

/-- R138. rd = zero-extended byte of the room's windows. -/
def execLbyu (t : Nat) (r : RoomId) (rd ra : Reg) (imm : BitVec 16) (s : State) : Host.Outcome State Fault Refusal :=
  .next (s.laneLoad t r rd ra imm .byte false)

/-- R138. Stores the low word of rd into the room's windows. -/
def execSw (t : Nat) (r : RoomId) (rd ra : Reg) (imm : BitVec 16) (s : State) : Host.Outcome State Fault Refusal :=
  .next (s.laneStore t r rd ra imm .word)

/-- R138. Stores the low half of rd into the room's windows. -/
def execSh (t : Nat) (r : RoomId) (rd ra : Reg) (imm : BitVec 16) (s : State) : Host.Outcome State Fault Refusal :=
  .next (s.laneStore t r rd ra imm .half)

/-- R138. Stores the low byte of rd into the room's windows. -/
def execSby (t : Nat) (r : RoomId) (rd ra : Reg) (imm : BitVec 16) (s : State) : Host.Outcome State Fault Refusal :=
  .next (s.laneStore t r rd ra imm .byte)

/-- R138. rd = word of the image. -/
def execIlw (t : Nat) (r : RoomId) (rd ra : Reg) (imm : BitVec 16) (s : State) : Host.Outcome State Fault Refusal :=
  .next (s.laneImgLoad t r rd ra imm .word false)

/-- R138. rd = sign-extended halfword of the image. -/
def execIlh (t : Nat) (r : RoomId) (rd ra : Reg) (imm : BitVec 16) (s : State) : Host.Outcome State Fault Refusal :=
  .next (s.laneImgLoad t r rd ra imm .half true)

/-- R138. rd = zero-extended halfword of the image. -/
def execIlhu (t : Nat) (r : RoomId) (rd ra : Reg) (imm : BitVec 16) (s : State) : Host.Outcome State Fault Refusal :=
  .next (s.laneImgLoad t r rd ra imm .half false)

/-- R138. rd = sign-extended byte of the image. -/
def execIlby (t : Nat) (r : RoomId) (rd ra : Reg) (imm : BitVec 16) (s : State) : Host.Outcome State Fault Refusal :=
  .next (s.laneImgLoad t r rd ra imm .byte true)

/-- R138. rd = zero-extended byte of the image. -/
def execIlbyu (t : Nat) (r : RoomId) (rd ra : Reg) (imm : BitVec 16) (s : State) : Host.Outcome State Fault Refusal :=
  .next (s.laneImgLoad t r rd ra imm .byte false)

/-- R138. Stores the low word of rd into the room's write set. -/
def execIsw (t : Nat) (r : RoomId) (rd ra : Reg) (imm : BitVec 16) (s : State) : Host.Outcome State Fault Refusal :=
  .next (s.laneImgStore t r rd ra imm .word)

/-- R138. Stores the low half of rd into the room's write set. -/
def execIsh (t : Nat) (r : RoomId) (rd ra : Reg) (imm : BitVec 16) (s : State) : Host.Outcome State Fault Refusal :=
  .next (s.laneImgStore t r rd ra imm .half)

/-- R138. Stores the low byte of rd into the room's write set. -/
def execIsby (t : Nat) (r : RoomId) (rd ra : Reg) (imm : BitVec 16) (s : State) : Host.Outcome State Fault Refusal :=
  .next (s.laneImgStore t r rd ra imm .byte)

/-- R114. rd and B = the image bit; outside the map 0, and reported. -/
def execLdb (t : Nat) (r : RoomId) (rd ra : Reg) (imm : BitVec 16) (s : State) : Host.Outcome State Fault Refusal :=
  .next (s.lane t r (loadPending [ra]) (fun v c s =>
    let a := (effAddr v ra imm).toNat
    let out (x : Bool) (s : State) : State := s.updRoom r (fun w => { w.put rd (BitVec.ofNat 32 (b2n x)) with b := x })
    if a < 2 ^ 22 then out (imageBitOf (s.imageByteAt (c + 5) r (a / 8)) (a % 8)) s
    else (out false s).reportOow r v.pc a))

/-- R114. The image bit = bit 0 of rd. -/
def execStb (t : Nat) (r : RoomId) (rd ra : Reg) (imm : BitVec 16) (s : State) : Host.Outcome State Fault Refusal :=
  .next (s.lane t r (loadPending [rd, ra]) (fun v c s => s.storeBit (c + 5) r v.pc (effAddr v ra imm).toNat ((v.get rd).getLsbD 0)))

/-- R139. The image bit = 1 when B = 1; otherwise no access at all. -/
def execSet (t : Nat) (r : RoomId) (ra : Reg) (imm : BitVec 16) (s : State) : Host.Outcome State Fault Refusal :=
  .next (s.lane t r (loadPending [ra]) (fun v c s => if v.b then s.storeBit (c + 5) r v.pc (effAddr v ra imm).toNat true else s))

/-- R139. The image bit = 0 when B = 1; otherwise no access at all. -/
def execRst (t : Nat) (r : RoomId) (ra : Reg) (imm : BitVec 16) (s : State) : Host.Outcome State Fault Refusal :=
  .next (s.lane t r (loadPending [ra]) (fun v c s => if v.b then s.storeBit (c + 5) r v.pc (effAddr v ra imm).toNat false else s))

/-- R140. Rising edges since the previous release. -/
def execEdgeR (t : Nat) (r : RoomId) (rd ra : Reg) (imm : BitVec 16) (s : State) : Host.Outcome State Fault Refusal :=
  .next (s.laneEdge t r rd ra imm (fun rise _ => rise))

/-- R140. Falling edges since the previous release. -/
def execEdgeF (t : Nat) (r : RoomId) (rd ra : Reg) (imm : BitVec 16) (s : State) : Host.Outcome State Fault Refusal :=
  .next (s.laneEdge t r rd ra imm (fun _ fall => fall))

/-- R140. The sum of both saturated counts. -/
def execEdgeA (t : Nat) (r : RoomId) (rd ra : Reg) (imm : BitVec 16) (s : State) : Host.Outcome State Fault Refusal :=
  .next (s.laneEdge t r rd ra imm (fun rise fall => rise + fall))

end Sys2Proof.Machine
end

