-- ==== Sys2Proof/Machine/Swap.lean ====
section
/-! DEFINITION. Switch, rollback and release of a code swap (R221 to R230), and the exchange of a pair (R231 to R234). -/

namespace Sys2Proof.Machine

/-! ### The tick of a switch (R225) -/

/-- The first base tick from cycle number n on that releases every task that a configuration marks as changed. -/
def State.commonRelease (s : State) (c : Option Conf) (n : Nat) : Nat :=
  let ks := ((c.map (fun c => c.way.tasks)).getD []).filter Task.changed |>.map Task.k
  let k := max 1 (ks.foldl Nat.lcm 1)
  s.app.startTick + ceilDiv (n - s.app.startTick) k * k

/-- A swap is pending: from the acceptance of a switch or rollback until it completes (R230). -/
def Edits.pending (e : Edits) : Bool := e.swap == .pendSwitch || e.swap == .pendRollback
/-- On trial until a release has completed (R227, R229). -/
def Edits.onTrial (e : Edits) : Bool := e.swap == .trial || e.swap == .releasing

/-- A rollback accepted during a release gives the release up: its commands complete as no longer on trial (DESIGN CHOICE, log entry 44). -/
def State.dropRelease (s : State) : State :=
  if s.edits.swap = .releasing then
    ({ s with edits := { s.edits with swap := .trial, ref := none, also := [] } }.completeOpt s.edits.ref 0x0224 []).completeAll s.edits.also 0x0224 []
  else s

/-- A relief in step holds another swap state than the command needs (R233). -/
def State.reliefDiffers (s : State) (code : Nat) : Bool := s.reliefInStep && s.pair.partner.swap.toNat != code

def swapId (c : Option Conf) : Nat := (c.map (fun c => c.way.crc.toNat)).getD 0

/-- A switch, rollback or release begins: with a relief in step it is proposed and must be confirmed; a primary without one goes on alone
(R233). `code` is that of the SWAP message. -/
def State.beginSwap (s : State) (ref : CmdRef) (st : SwapSt) (code tick : Nat) : State :=
  let alone := !s.reliefInStep
  let s := { s with edits := { s.edits with
    swap := st
    tick := tick
    ref := some ref
    confirmed := alone } }
  if alone then (if s.pair.role = 1 then s.gbEvent 0x22 0 sevNotice [BitVec.ofNat 32 (swapId s.edits.new)] else s)
  else s.sendControl 2 (toLe 1 code ++ toLe 6 tick ++ toLe 4 (swapId s.edits.new))

/-- R225, R233. Command 0x22 with flag bit 0 clear. -/
def execSwapCommit (t : Nat) (c : RingId) (e : CmdEntry) (s : State) : Host.Outcome State Fault Refusal :=
  .next (s.command t c 0x22 e
    (fun s => [(!e.formOk 1 [], 0x0101), (s.edits.pending, 0x0227), (s.edits.swap != .staged || (!s.app.running && s.leads), 0x0223), (s.isRelief, 0x0701),
      (s.reliefDiffers 1, 0x0702)])
    (fun ref s => s.beginSwap ref .pendSwitch 0 (s.commonRelease s.edits.new (s.cycle + 40))))

/-- R228, R233. Command 0x23. -/
def execSwapRollback (t : Nat) (c : RingId) (e : CmdEntry) (s : State) : Host.Outcome State Fault Refusal :=
  .next (s.command t c 0x23 e
    (fun s => [(!e.formOk 0 [], 0x0101), (s.edits.pending, 0x0227), (!s.edits.onTrial, 0x0224),
      (s.isRelief, 0x0701), (s.reliefDiffers 2, 0x0702)])
    (fun ref s => s.dropRelease.beginSwap ref .pendRollback 2 (s.commonRelease s.app.cur (s.cycle + 40))))

/-- R229, R233. Command 0x22 with flag bit 0 set; one that comes during a release completes with it (log entry 44). -/
def execSwapRelease (t : Nat) (c : RingId) (e : CmdEntry) (s : State) : Host.Outcome State Fault Refusal :=
  .next (s.command t c 0x22 e
    (fun s => [(!e.formOk 1 [], 0x0101), (s.edits.pending, 0x0227), (!s.edits.onTrial, 0x0224),
      (s.isRelief, 0x0701), (s.reliefDiffers 2, 0x0702)])
    (fun ref s => if s.edits.swap = .releasing then { s with edits := { s.edits with also := s.edits.also ++ [ref] } }
      else s.beginSwap ref .releasing 3 (s.cycle + 40)))

/-! ### Migration (R223, R224, R228) -/

/-- Address and size of a variable of a configuration. -/
def Conf.place (c : Conf) (id : Nat) : Option (Nat × Nat) :=
  (c.way.vars.find? (fun v => v.id == id)).map (fun v =>
    ((if v.retained then c.an.retBase.getD v.task 0 else c.an.privBase.getD v.task 0) + v.offset, v.size))

/-- The bytes that an entry gives a new variable of n bytes from the bytes of the old one (R223). -/
def Migr.newBytes (m : Migr) (old : List Byte) (n : Nat) : List Byte :=
  let pad : Byte := if m.op = 2 ∧ (old.getLast?.getD 0).getLsbD 7 = true then 0xFF else 0
  if m.op = 4 then (List.range n).map (fun i => BitVec.ofNat 8 (m.value / 256 ^ (i % 4)))
  else (old ++ List.replicate n pad).take n

/-- The entries carried out in table order from the old windows into the new ones. -/
def migrate (old new : Conf) (m : Mem) : Mem :=
  new.way.migr.foldl (fun (m : Mem) x =>
    match new.place x.newVar with
    | none => m
    | some (a, n) =>
      let src := match old.place x.oldVar with
        | none => []
        | some (b, k) => m.read b k
      m.write a (x.newBytes src n)) m

/-- The table reversed (R228): copies go back, a widened variable gives its low bytes, INIT does nothing. -/
def migrateBack (old new : Conf) (m : Mem) : Mem :=
  new.way.migr.foldl (fun (m : Mem) x =>
    match new.place x.newVar, old.place x.oldVar with
    | some (a, _), some (b, k) => if x.op = 4 then m else m.write b (m.read a k)
    | _, _ => m) m

/-- The new windows of new-layout tasks, cleared (R224). -/
def clearNew (old new : Conf) (m : Mem) : Mem :=
  (List.range new.way.tasks.length).foldl (fun (m : Mem) i =>
    if old.newLayout new i then
      let t := (new.task i).getD default
      (m.clear (new.an.privBase.getD i 0) t.privLen).clear (new.an.retBase.getD i 0) t.retLen
    else m) m

/-! ### Switch and rollback (R225, R228) -/

/-- The room of a changed task set to its new entry and windows; its edge counts go on (R226), and the marks of a window that it leaves are
dropped. -/
def State.turnRoom (s : State) (from' to' : Conf) (i : Nat) : State :=
  match (to'.an.rooms[i]?).bind (toFin? 100) with
  | none => s
  | some r =>
    let v := s.rooms[r]
    let moved := from'.newLayout to' i || to'.newLayout from' i
    (s.setUpRoom to' i).updRoom r (fun w => { w with
      baseline := v.baseline
      firstRel := v.firstRel
      dirty := if moved then [] else v.dirty })

/-- The module turns from one version to the other at the base tick just begun (steps 2 to 5 of R225); `marks` names the configuration whose
CHANGED flags count. Without an application running (a relief out of step) only the versions turn. -/
def State.turn (s : State) (from' to' marks : Conf) (slots : Nat) (mem : Mem → Mem) : State :=
  let s := { s with
    app := { s.app with
      cur := some to'
      half := 1 - s.app.half }
    edits := { s.edits with confirmed := false }
    dmem := mem s.dmem }
  let is := (List.range to'.way.tasks.length).filter (fun i => ((marks.task i).map Task.changed).getD false)
  let s := is.foldl (fun s i => s.turnRoom from' to' i) s
  if s.app.running then
    let s := { s with edits := { s.edits with slotEnd := s.now + 8 * (slots + 1) } }
    let s := { s with np := { s.np with
      open' := BitVec.ofNat 29 to'.an.npOpen
      close := BitVec.ofNat 29 to'.an.npClose } }
    let s := s.limitPublications to'
    is.foldl (fun s i => if s.releasedAt i s.cycle then s.release i else s) s
  else s.stopRooms

/-- A pending switch or rollback is due: confirmed, its base tick begun. -/
def State.swapDue (s : State) (st : SwapSt) : Bool :=
  s.edits.swap == st && s.edits.confirmed && decide (s.edits.tick ≤ s.cycle) && !s.halted && s.steward && s.pwr.pf == .none && (s.app.running || s.pair.role == 3)

/-- R225. The switch base tick, after its commits. -/
def execSwapSwitchTick (t : Nat) (s : State) : Host.Outcome State Fault Refusal :=
  let s := s.at t
  match s.app.cur, s.edits.new with
  | some o, some n =>
    if s.swapDue .pendSwitch then
      let ref := s.edits.ref
      let s := s.turn o n n n.an.swapSlots (fun m => migrate o n (clearNew o n m))
      let s := { s with edits := { s.edits with
        swap := .trial
        old := some o
        ref := none
        confirmed := false } }
      let s := s.gbEvent 0x21 0 sevNotice [n.way.crc, BitVec.ofNat 32 s.cycle]
      .next (s.completeOpt ref 0 (toLe 6 s.cycle))
    else .next s
  | _, _ => .next s

/-- R228. The rollback base tick, after its commits. -/
def execRollbackTick (t : Nat) (s : State) : Host.Outcome State Fault Refusal :=
  let s := s.at t
  match s.app.cur, s.edits.old with
  | some n, some o =>
    if s.swapDue .pendRollback then
      let ref := s.edits.ref
      let s := s.turn n o n n.an.swapSlots (migrateBack o n)
      let s := { s with edits := { s.edits with
        swap := .none
        new := none
        old := none
        ref := none
        confirmed := false } }
      .next (s.completeOpt ref 0 (toLe 6 s.cycle))
    else .next s
  | _, _ => .next s

/-! ### Release (R229) -/

/-- The retained windows that the release stores: those of new-layout tasks as they stand, the others from the journal. -/
def State.releasedWindows (s : State) (o n : Conf) : List (List Byte) :=
  let kept := ({ s.nv with mem := s.nv.settled } : Nv).restored o
  (List.range n.way.tasks.length).map (fun i =>
    let len := ((n.task i).map Task.retLen).getD 0
    if o.newLayout n i then s.dmem.read (n.an.retBase.getD i 0) len else kept.read (o.baseAddr i) len)

/-- The record update that makes the new configuration the stored one. -/
def State.storeReleased (s : State) (o n : Conf) : State :=
  let s := s.commitConf n (s.releasedWindows o n) true
  { s with
    app := { s.app with stored := some n }
    edits := { s.edits with
      swap := .none
      new := none
      old := none
      ref := none
      confirmed := false } }

/-- R229. The writes of a release end with the final record update. -/
def execSwapReleaseComplete (t : Nat) (s : State) : Host.Outcome State Fault Refusal :=
  let s := s.at t
  match s.app.cur, s.edits.old with
  | some n, some o =>
    if s.edits.swap = .releasing ∧ s.edits.confirmed = true ∧ s.steward = true then
      let ref := s.edits.ref
      let also := s.edits.also
      let s := { s with edits := { s.edits with also := [] } }
      .next ((((s.storeReleased o n).storedPair n).completeOpt ref 0 []).completeAll also 0 [])
    else .next s
  | _, _ => .next s

/-! ### The exchange with the partner (R233, R393) -/

/-- R233, R393. Twenty base ticks before the tick proposed, a switch, rollback, release or planned switch not confirmed is given up. -/
def execConfirmTimeout (t : Nat) (s : State) : Host.Outcome State Fault Refusal :=
  let s := s.at t
  let waits := s.edits.pending || s.edits.swap == .releasing
  let s := if waits = true ∧ s.edits.confirmed = false ∧ s.edits.tick ≤ s.cycle + 20 then s.abandonSwap 0x0703 else s
  match s.pair.reqSwitch with
  | none => .next s
  | some q =>
    .next (if q.confirmed = false ∧ q.tick ≤ s.cycle + 20 then
      { s with pair := { s.pair with reqSwitch := none } }.completeOpt q.ref 0x0703 []
    else s)

/-- A relief in step does what its primary proposes, when its own swap is the same one, and confirms. -/
def State.acceptSwap (s : State) (st : SwapSt) (tick : Nat) : State :=
  let s := { s with edits := { s.edits with
    swap := st
    tick := tick
    ref := none
    confirmed := true } }
  s.sendControl 2 (toLe 1 1 ++ toLe 6 tick ++ toLe 4 (swapId s.edits.new))

/-- A relief whose swap is another one, or that has none, answers with its own configuration ID and does not act (R233; log entry 45). -/
def State.refuseSwap (s : State) (tick : Nat) : State := s.sendControl 2 (toLe 1 1 ++ toLe 6 tick ++ toLe 4 (swapId s.edits.new))

/-- R233. A SWAP message: code, base tick, configuration ID. A confirmation that names another configuration completes the command with
0x0702. A proposal is confirmed up to 20 base ticks before its tick. -/
def execSwap (t : Nat) (payload : List Byte) (s : State) : Host.Outcome State Fault Refusal :=
  let s := s.at t
  let code := u8 payload 0
  let tick := u48 payload 1
  let same := s.edits.new.isSome && u32 payload 7 == swapId s.edits.new
  if s.steward = false then .next s
  else if s.pair.role = 2 then
    if same = false ∧ (code = 0 ∨ code = 2 ∨ code = 3) then .next (s.refuseSwap tick)
    else if tick < s.cycle + 20 then .next s
    else if code = 0 ∧ s.edits.swap = .staged then .next (s.acceptSwap .pendSwitch tick)
    else if code = 2 ∧ s.edits.onTrial = true then .next (s.acceptSwap .pendRollback tick)
    else if code = 3 ∧ s.edits.swap = .trial then .next (s.acceptSwap .releasing tick)
    else .next s
  else if s.pair.role = 1 ∧ code = 1 ∧ (s.edits.pending || s.edits.swap == .releasing) = true ∧ s.edits.confirmed = false ∧ tick = s.edits.tick then
    .next (if same then { s with edits := { s.edits with confirmed := true } } else s.abandonSwap 0x0702)
  else .next s

end Sys2Proof.Machine
end

