-- ==== Sys2Proof/Machine/Pair.lean ====
section
/-! DEFINITION. Commands and messages of a redundant pair (R19, R20, R40, R371 to R405). -/

namespace Sys2Proof.Machine

/-! ### Settling the role (R382 to R384) -/

/-- The module belongs to a pair: its stored configuration has PAIR set, or it has none. -/
def State.inPair (s : State) : Bool := (s.app.stored.map (fun c => c.way.pair)).getD true

/-- The role of R383, `none` while the driver must decide. -/
def State.roleByStart (s : State) : Option (BitVec 2) :=
  let p := s.pair
  if s.inPair = false then some 0
  else if s.pwr.quietIn then some 3
  else if p.link = true ∧ p.partner.hello = true ∧ p.partner.role = 1 then some 3
  else if p.link = true ∧ p.partner.hello = true then
    if s.pwr.rolePref = p.partner.pref then some (if Config.serial.toNat < p.partner.serial.toNat then 1 else 3)
    else some (if s.pwr.rolePref then 1 else 3)
  else if s.pwr.pairPresent = true ∧ p.partnerPwr = false then some 1
  else none

/-- R383. Step 9 of R69. The records that waited for the role follow (R267). -/
def execRoleSettle (t : Nat) (s : State) : Host.Outcome State Fault Refusal :=
  let s := s.at t
  if s.steward = true ∧ s.clk.judged = true ∧ s.app.loaded = true ∧ s.pair.settled = false then
    match s.roleByStart with
    | none => .next (s.flushLate false)
    | some r =>
      let s := { s with pair := { s.pair with settled := true } }
      if r = 0 then .next (s.flushLate false)
      else if r = 3 then .next ((s.restartSync.setRole 3 1 sevNotice).flushLate true)
      else .next ((s.setRole 1 1 sevNotice).flushLate false)
  else .next s

/-! ### QUIET (R40, R325, R392) -/

/-- R40, R325, R382. QUIET_IN is asserted: outputs and transmitters are silenced in hardware, and a primary falls out. -/
def execQuietInAssert (t : Nat) (s : State) : Host.Outcome State Fault Refusal :=
  let s := s.at t
  if s.pwr.quietIn then .next s
  else
    let s := { s with pwr := { s.pwr with quietIn := true } }.driveAll
    let s := s.mapCans (fun c => { c with queue := c.queue.map (fun q => { q with attempt := false }) })
    let s := s.canRefreshAll
    let out : Bool := s.steward && s.pair.role == 1
    .next (if out then (s.becomeOut 7 sevNotice).pairEvent evQuieted else s)

/-- R193, R325. QUIET_IN is released. -/
def execQuietInDeassert (t : Nat) (s : State) : Host.Outcome State Fault Refusal :=
  let s := s.at t
  .next ({ s with pwr := { s.pwr with quietIn := false } }.driveAll).canRefreshAll

/-- R38, R39, R375, R392. The lines of J2 change. -/
def execPairPresentChange (t : Nat) (pins : PairPins) (s : State) : Host.Outcome State Fault Refusal :=
  let s := (s.at t).setPref pins.pref
  .next { s with
    pwr := { s.pwr with
      pairPresent := pins.present
      quietOut := s.pwr.quietOut && pins.present }
    pair := { s.pair with partnerPwr := pins.present && pins.term } }

/-! ### PAIR_CFG (R403, R404) -/

/-- R404. A write of PAIR_CFG, stored in the role record. -/
def execPairCfgWrite (t : Nat) (val : Word) (s : State) : Host.Outcome State Fault Refusal :=
  let s := s.at t
  if s.steward then
    .next { s with pair := { s.pair with
      hold := BitVec.ofNat 12 (fld val.toNat 0 12)
      dtime := BitVec.ofNat 10 (fld val.toNat 12 10)
      agelim := BitVec.ofNat 10 (fld val.toNat 22 10) } }.writeRole
  else .next s

/-! ### The post road (R375 to R377) -/

/-- R59, R375, R384. Both lanes have trained, once the clock is judged and while the partner terminates its lanes: the HELLO goes out. -/
def execPostRoadLinkUp (t : Nat) (s : State) : Host.Outcome State Fault Refusal :=
  let s := s.at t
  if s.steward = true ∧ s.inPair = true ∧ s.pwr.pairPresent = true ∧ s.pair.partnerPwr = true ∧ s.clk.judged = true ∧
      s.pair.trained = false then
    let s := { s with pair := { s.pair with
      trained := true
      trains := satInc s.pair.trains
      partner := Partner.init
      sent := []
      waySent := none } }
    .next s.sendHello
  else .next s

/-- R375. Symbol lock is lost: an attempt to resynchronise ends (R398). -/
def execPostRoadLinkDown (t : Nat) (s : State) : Host.Outcome State Fault Refusal :=
  let s := s.at t
  let ref := s.pair.joinRef
  let s := { s with pair := { s.pair with
    link := false
    trained := false
    rsync := false
    locked := false
    passDone := false
    sent := []
    joinRef := none
    partner := { s.pair.partner with hello := false } } }
  .next (s.completeOpt ref 0x0707 [])

/-- R376. A segment is discarded. -/
def execDiscardedSegment (t : Nat) (s : State) : Host.Outcome State Fault Refusal :=
  let s := s.at t
  .next { s with pair := { s.pair with crcerr := satInc s.pair.crcerr } }

/-- R377. A HELLO is due. -/
def execHelloSend (t : Nat) (s : State) : Host.Outcome State Fault Refusal :=
  let s := s.at t
  .next (if s.steward then s.sendHello else s)

/-- The waybill message in segments of at most 256 bytes (R376, R381, R385). -/
def wayChunks : Nat → Nat → List Byte → List (List Byte)
  | 0, _, _ => []
  | n + 1, off, bs =>
    if bs = [] then []
    else
      let part := bs.take 248
      let pad := List.replicate ((4 - part.length % 4) % 4) (0 : Byte)
      (toLe 1 9 ++ toLe 1 0 ++ toLe 2 (4 + part.length) ++ toLe 4 off ++ part ++ pad) :: wayChunks n (off + 248) (bs.drop 248)

/-- R385. A primary whose relief has no configuration, or another one, and no swap sends its stored waybill, once for each pair of IDs. -/
def State.offerWaybill (s : State) : State :=
  let p := s.pair.partner
  let theirs := if p.stored then p.cfgid.toNat + 1 else 0
  match s.app.stored with
  | none => s
  | some c =>
    if s.pair.role = 1 ∧ p.role = 3 ∧ theirs ≠ c.way.crc.toNat + 1 ∧ s.edits.swap = .none ∧ s.pair.waySent ≠ some (c.way.crc.toNat, theirs) then
      let s := { s with pair := { s.pair with waySent := some (c.way.crc.toNat, theirs) } }
      (wayChunks (c.way.bytes.length + 1) 0 c.way.bytes).foldl (fun s b => s.sendFrame 6 b) s
    else s

/-- What a HELLO tells of the partner; one that falls back to ROLE 0 has become single (R384). -/
def Partner.hear (p : Partner) (bs : List Byte) : Partner :=
  let role : BitVec 2 := BitVec.ofNat 2 (u8 bs 11)
  { p with
    serial := BitVec.ofNat 64 (u64 bs 0)
    version := BitVec.ofNat 24 (u24 bs 8)
    role := role
    pref := bit (u8 bs 12) 0
    stored := bit (u8 bs 12) 2
    swap := BitVec.ofNat 2 (fld (u8 bs 12) 3 2)
    cfgid := BitVec.ofNat 32 (u32 bs 16)
    analysis := BitVec.ofNat 64 (u64 bs 24)
    hello := true
    single := role == 0 && (p.single || p.role != 0) }

/-- R375, R377, R385, R396, R489. A HELLO is received: the first after training takes the road up. -/
def execHello (t : Nat) (payload : List Byte) (s : State) : Host.Outcome State Fault Refusal :=
  let s := s.at t
  if s.steward = true ∧ s.pair.trained = true then
    let s := { s with pair := { s.pair with link := true, partner := s.pair.partner.hear payload } }
    let s := { s with pair := { s.pair with cfgdiff := s.cfgDiffers } }
    let s := if s.pair.role ≠ 3 then s
      else if s.pair.rsync then { s with pair := { s.pair with rsync := s.maySync } }
      else s.restartSync
    .next s.offerWaybill
  else .next s

/-! ### Heartbeats (R19, R20, R373, R374, R378, R386, R392) -/

/-- R374, R378. A heartbeat is due at a TB multiple of 4000; a primary's trim returns to zero by 1 ppm a second. None is sent from a hardware
fault, an expiry or the last base tick of a power failure on (R50, R98, R413). -/
def execHeartbeatSend (t : Nat) (s : State) : Host.Outcome State Fault Refusal :=
  let s := s.at t
  if s.awake = true ∧ s.halted = false ∧ s.pwr.pf ≠ .lastTick then
    let s := s.sendFrame 2 s.heartbeatBytes
    let x := s.pair.trim
    let back : BitVec 16 := if x = 0 then 0 else if x.msb then x + 1 else x - 1
    .next (if s.pair.role = 1 ∧ s.tb / 4000 % 25000 = 0 then { s with pair := { s.pair with trim := back } } else s)
  else .next s

/-- The phase error in cycles that a heartbeat shows a relief (R374): its TB against the primary's less 40 µs, the one-way delay being half the
round trip. -/
def State.phaseError (s : State) (bs : List Byte) : Option Int :=
  let echo := u64 bs 16
  let trip : Int := (s.tb : Int) - echo - u32 bs 24
  if echo = 0 ∨ trip < 0 ∨ 40000 < trip then none
  else some ((s.tb : Int) - ((u64 bs 0 : Int) + trip / 2 - 16000))

/-- TB moved by d cycles, and the cycle number with it (R373); instants kept in TB move along. -/
def State.shiftTb (s : State) (d : Int) : State :=
  let mv (x : Nat) : Nat := (x + d).toNat
  let s := { s with pair := { s.pair with tbOff := s.pair.tbOff + d } }
  { s with
    cycle := s.tb / tickCycles
    np := { s.np with
      start := mv s.np.start
      second := mv s.np.second
      faultAt := mv s.np.faultAt
      expAt := mv s.np.expAt }
    nv := { s.nv with lastHours := mv s.nv.lastHours } }

/-- R373, R374, R387 case 4. A relief measures its phase: out of step it aligns, in step an error above 1 µs puts it out. TRIM is a free value
within ±120 ppm. -/
def State.measurePhase (s : State) (bs : List Byte) : State :=
  match s.phaseError bs with
  | none => s
  | some e =>
    let (w, s) := s.free
    let trim : Int := (w.toNat % 961 : Nat) - 480
    let s := { s with pair := { s.pair with trim := BitVec.ofInt 16 trim } }
    let outside : Bool := s.pair.role == (3 : BitVec 2)
    if outside then
      let s := s.shiftTb (-e)
      { s with pair := { s.pair with phErr := 0, locked := true } }
    else
      let s := { s with pair := { s.pair with
        phErr := BitVec.ofInt 16 (clampI (-32768) 32767 e)
        locked := decide (-40 ≤ e) && decide (e ≤ 40) } }
      if e < -400 ∨ 400 < e then s.fallOut 4 else s

/-- What a heartbeat tells of the partner. -/
def Partner.beat (p : Partner) (bs : List Byte) : Partner :=
  { p with
    role := BitVec.ofNat 2 (u8 bs 14)
    run := bit (u8 bs 15) 2
    rsync := bit (u8 bs 15) 3
    lplus := BitVec.ofNat 12 (u16 bs 28)
    canv := BitVec.ofNat 4 (u8 bs 30) }

/-- R378, R385, R386, R390, R392. A heartbeat is received; one that shows an application that this relief does not run, as after a start
command, leaves it RELIEF OUT. -/
def execHeartbeat (t : Nat) (payload : List Byte) (s : State) : Host.Outcome State Fault Refusal :=
  let s := s.at t
  if s.awake = true ∧ s.pair.link = true then
    let s := { s with pair := { s.pair with
      partner := s.pair.partner.beat payload
      lastHb := s.now
      hbTb := BitVec.ofNat 64 (u64 payload 0)
      missing := 0
      hbSeen := true } }
    let s := if s.pair.role = 1 ∧ s.pair.partner.role = 2 then { s with pwr := { s.pwr with quietOut := false } } else s
    let s := if s.isRelief then s.measurePhase payload else s
    let late := match s.pair.marked with
      | some n => s.pair.role == 2 && decide (tickCycles * n < u64 payload 0)
      | none => false
    let s := if late then s.fallOut 2 else s
    let s := if s.pair.role = 2 ∧ s.app.running = false ∧ s.pair.partner.run = true then s.becomeOut 0 sevNotice else s
    .next (if s.pair.role = 2 ∧ bit (u8 payload 15) 1 = true then { s with pair := { s.pair with due := some (s.cycle + 1, 4) } } else s)
  else .next s

/-- The cable is taken to be absent (R20). -/
def State.cableLost (s : State) : State :=
  let s := if s.pair.role = 2 then s.becomeOut 0 sevNotice else s
  (s.pairEvent evCable).gbEvent 0x66 0 sevFault [barWord s 0x4000]

/-- The partner is lost without takeover (R382). -/
def State.partnerLost (s : State) : State :=
  let s := if s.pair.role = 2 then s.becomeOut 0 sevNotice else s
  (s.pairEvent evLost).gbEvent 0x67 0 sevFault [barWord s 0x4000]

/-- Three heartbeats are missing (R19 to R21, R382, R384). -/
def State.heartbeatsLost (s : State) : State :=
  let s := { s with pair := { s.pair with hbSeen := false } }
  if s.pair.partner.single then s.partnerLost
  else if s.isRelief = true ∧ s.pwr.pairPresent = false then s.cableLost
  else if s.pair.role = 2 then { s with pair := { s.pair with due := some (s.cycle + 1, 2) } }
  else s.partnerLost

/-- R378. No heartbeat has come 10 µs after the previous one. -/
def execHeartbeatMissing (t : Nat) (s : State) : Host.Outcome State Fault Refusal :=
  if s.steward = true ∧ s.pair.hbSeen = true ∧ s.pair.role ≠ 0 then
    let s := s.at (max t (s.pair.lastHb + 4000 * (s.pair.missing + 1)))
    let s := { s with pair := { s.pair with missing := s.pair.missing + 1 } }
    .next (if s.pair.missing = 3 then s.heartbeatsLost else s)
  else .next (s.at t)

/-- R390. The takeover at the base tick just begun; not while QUIET_IN silences this module (R19). -/
def execTakeover (t : Nat) (s : State) : Host.Outcome State Fault Refusal :=
  let s := s.at t
  match s.pair.due with
  | none => .next s
  | some (n, reason) =>
    if s.pair.role = 2 ∧ n ≤ s.cycle ∧ s.pwr.quietIn = false ∧ s.halted = false ∧ s.steward = true ∧ s.pwr.pf = .none then .next (s.takeOver reason s.cycle)
    else .next s

/-- R390. A power-fail notice that names base tick L. -/
def execPowerfail (t : Nat) (payload : List Byte) (s : State) : Host.Outcome State Fault Refusal :=
  let s := s.at t
  .next (if s.pair.role = 2 ∧ s.steward = true then { s with pair := { s.pair with due := some (u48 payload 0, 3) } } else s)

/-! ### Lock-step (R386, R387) -/

/-- R379, R386. An INPUT frame arrives whole, before its base tick. -/
def execInput (t : Nat) (payload : List Byte) (s : State) : Host.Outcome State Fault Refusal :=
  let s := s.at t
  let n := u48 payload 0
  .next (if s.awake = true ∧ s.isRelief = true ∧ s.cycle < n then { s with pair := { s.pair with frame := some (n, payload) } } else s)

/-- R387 case 3. A DIGEST arrives. -/
def execDigest (t : Nat) (payload : List Byte) (s : State) : Host.Outcome State Fault Refusal :=
  let s := s.at t
  .next { s with pair := { s.pair with digDue := s.pair.digDue.filter (fun n => n % 2 ^ 48 != u48 payload 0) } }

/-- R387 case 3. 100 µs after a base tick its DIGEST has not come. -/
def execDigestLate (t : Nat) (s : State) : Host.Outcome State Fault Refusal :=
  match s.pair.digDue with
  | [] => .next (s.at t)
  | n :: rest =>
    let s := s.at (max t (s.cycleOfTb (tickCycles * n + 40000)))
    .next ({ s with pair := { s.pair with digDue := rest } }.sendControl 5 (toLe 1 3))

/-- R387. An OUTSTEP message. -/
def execOutstep (t : Nat) (payload : List Byte) (s : State) : Host.Outcome State Fault Refusal :=
  let s := s.at t
  .next (if s.steward then s.fallOut (BitVec.ofNat 3 (u8 payload 0)) else s)

/-- R232. An EDIT message: t_e, TASK, batch. -/
def execEdit (t : Nat) (payload : List Byte) (s : State) : Host.Outcome State Fault Refusal :=
  let s := s.at t
  let te := u48 payload 0
  let bs := payload.drop 8
  .next (if s.steward = true ∧ s.pair.role = 2 ∧ s.cycle < te ∧ s.batchStatus (u16 payload 6) (batchEntries bs.length bs) = 0 then
    s.acceptBatch none (u16 payload 6) te bs else s)

/-- R356, R387 case 5. A STOP message. -/
def execStopMessage (t : Nat) (payload : List Byte) (s : State) : Host.Outcome State Fault Refusal :=
  let s := s.at t
  if s.steward = true ∧ s.pair.role = 2 then
    .next (if s.cycle < u48 payload 0 then s.scheduleStop (u48 payload 0) [] else s.fallOut 5)
  else .next s

/-! ### Planned switch (R393 to R395) -/

/-- R395. Command 0x70. -/
def execPairSwitch (t : Nat) (c : RingId) (e : CmdEntry) (s : State) : Host.Outcome State Fault Refusal :=
  .next (s.command t c 0x70 e
    (fun s => [(!e.formOk 0 [], 0x0101), (s.isRelief, 0x0701), (!s.inPair, 0x0708), (!s.reliefInStep, 0x0705), (s.pair.reqSwitch.isSome, 0x0703)])
    (fun ref s =>
      let q : SwitchReq := { tick := s.cycle + 40, confirmed := false, ref := some ref, reversion := false }
      { s with pair := { s.pair with reqSwitch := some q } }.sendControl 4 (toLe 1 0 ++ toLe 6 q.tick)))

/-- R394. A preferred relief that has been in step for HOLD seconds proposes to switch back. -/
def execReversion (t : Nat) (s : State) : Host.Outcome State Fault Refusal :=
  let p := s.pair
  if s.steward = true ∧ p.role = 2 ∧ s.pwr.rolePref = true ∧ p.hold ≠ 0 ∧ p.reqSwitch = none ∧ p.link = true then
    let s := s.at (max t (p.inStepSince + p.hold.toNat * secCycles))
    let q : SwitchReq := { tick := s.cycle + 40, confirmed := false, ref := none, reversion := true }
    .next ({ s with pair := { s.pair with reqSwitch := some q } }.sendControl 4 (toLe 1 0 ++ toLe 6 q.tick))
  else .next (s.at t)

/-- A proposal of the partner is accepted when it comes 20 base ticks ahead and nothing stands against it. -/
def State.answerSwitch (s : State) (tick : Nat) : State :=
  let ok := decide (s.cycle + 20 ≤ tick) && s.pair.reqSwitch.isNone && !s.pwr.quietIn && s.app.stop.isNone && s.app.running
  if ok then
    let q : SwitchReq := { tick := tick, confirmed := true, ref := none, reversion := s.pair.role == 1 }
    { s with pair := { s.pair with reqSwitch := some q } }.sendControl 4 (toLe 1 1 ++ toLe 6 tick)
  else s.sendControl 4 (toLe 1 2 ++ toLe 6 tick)

/-- R393. A SWITCH message: code and S. -/
def execSwitch (t : Nat) (payload : List Byte) (s : State) : Host.Outcome State Fault Refusal :=
  let s := s.at t
  let code := u8 payload 0
  let tick := u48 payload 1
  if s.steward = false ∨ (s.pair.role ≠ 1 ∧ s.pair.role ≠ 2) then .next s
  else if code = 0 then .next (s.answerSwitch tick)
  else
    match s.pair.reqSwitch with
    | none => .next s
    | some q =>
      if q.confirmed = true ∨ q.tick ≠ tick then .next s
      else if code = 1 ∧ s.cycle + 20 ≤ tick then .next { s with pair := { s.pair with reqSwitch := some { q with confirmed := true } } }
      else .next ({ s with pair := { s.pair with reqSwitch := none } }.completeOpt q.ref 0x0703 [])

/-- R393. S: the old primary stops driving 40 µs after its commit at S; the relief drives from its own S. -/
def execPlannedSwitch (t : Nat) (s : State) : Host.Outcome State Fault Refusal :=
  match s.pair.reqSwitch with
  | none => .next (s.at t)
  | some q =>
    let reason : BitVec 3 := if q.reversion then 6 else 5
    if q.confirmed = true ∧ q.tick ≤ s.cycle ∧ s.steward = true ∧ s.halted = false ∧ s.pwr.pf = .none then
      if s.pair.role = 1 then
        let s := s.at (max t (s.cycleOfTb (tickCycles * q.tick + 16000)))
        let s := { s with pair := { s.pair with reqSwitch := none } }.completeOpt q.ref 0 (toLe 6 q.tick)
        .next ((s.becomeOut reason sevNotice).pairEvent evSwitch)
      else if s.pair.role = 2 then
        let s := s.at t
        let s := { s with pair := { s.pair with reqSwitch := none } }
        .next ((s.lead reason sevNotice (tickCycles * s.cycle)).pairEvent evSwitch)
      else .next { s.at t with pair := { s.pair with reqSwitch := none } }
    else .next (s.at t)

/-! ### Resynchronisation (R385, R396 to R398) -/

/-- A commanded resynchronisation (R233, R398). -/
def State.commandSync (s : State) : State := { s.restartSync with pair := { s.restartSync.pair with rsync := s.maySync } }

/-- R398. Command 0x71. On a primary it is passed on to the relief as a JOIN message of cycle number 0 (log entry 45). -/
def execResync (t : Nat) (c : RingId) (e : CmdEntry) (s : State) : Host.Outcome State Fault Refusal :=
  .next (s.command t c 0x71 e
    (fun s => [(!e.formOk 0 [], 0x0101), (!s.inPair, 0x0708), (!s.pair.link || s.pair.role == 0, 0x0704),
      (s.pair.partner.hello && !s.mayPair, 0x0508),
      (s.pair.cfgdiff && (s.edits.swap != .none || s.pair.partner.swap != 0), 0x0706)])
    (fun ref s =>
      if s.pair.role = 2 ∨ s.reliefInStep = true then s.complete ref 0 (toLe 6 s.pair.joinTick)
      else
        let old := s.pair.joinRef
        let s := if s.pair.role = 3 then s.commandSync else s.sendControl 6 (toLe 6 0 ++ toLe 1 0)
        { s with pair := { s.pair with joinRef := some ref } }.completeOpt old 0x0707 []))

/-- The configuration that a relief joins with: the swap staged on it when the primary's is on trial (R233), else its own. -/
def State.joinConf (s : State) : Option Conf :=
  if s.edits.swap = .staged ∧ s.pair.partner.swap = 2 then s.edits.new else s.app.cur <|> s.app.stored

/-- Windows, words and records that a first pass carries, in bytes. -/
def Conf.streamBytes (c : Conf) : Nat :=
  windowBytes c.way.tasks + ((List.range c.way.tasks.length).map (fun i => 8 * (c.wordsOf i).length + 160)).foldl (· + ·) 0

/-- A room's record (R396): g1–g31, PC, flags, MLO, MHI, FRS, QUO, REM, release TB, then for every channel with edge counts, in channel order,
the rising and falling edges counted from the release to the receiver's base tick (log entry 32). -/
def Room.fromRecord (v : Room) (c : Conf) (stg : Vector Stg 192) (ws : List Word) : Room :=
  let w (i : Nat) : Word := ws.getD i 0
  let f := w 32
  let es := c.way.chansInOrder.filter (fun e => e.isDin || e.isReadback)
  { v with
    g := Vector.ofFn (fun r => if r.val = 0 then 0 else w (r.val - 1))
    pc := (w 31).setWidth 20
    z := f.getLsbD 0
    n := f.getLsbD 1
    c := f.getLsbD 2
    v := f.getLsbD 3
    b := f.getLsbD 4
    mlo := w 33
    mhi := w 34
    frs := w 35
    quo := w 36
    rem := w 37
    relTb := (w 39) ++ (w 38)
    baseline := es.mapIdx (fun k e =>
      let g := vget stg e.ch Stg.init
      (e.ch, g.rise - (w (40 + 2 * k)).toNat, g.fall - (w (41 + 2 * k)).toNat))
    firstRel := false }

/-- A block of the stream taken in (R396). -/
def State.takeBlock (s : State) (c : Conf) (b : StreamBlock) : State :=
  match b with
  | .window room retained off bytes =>
    match c.an.rooms.idxOf? room.val with
    | none => s
    | some i =>
      let base := if retained then c.an.retBase.getD i 0 else c.an.privBase.getD i 0
      let len := ((c.task i).map (fun x => if retained then x.retLen else x.privLen)).getD 0
      if off + bytes.length ≤ len then { s with dmem := s.dmem.write (base + off) bytes } else s
  | .words pend addr bytes =>
    { s with img := if pend then { s.img with pend := s.img.pend.write addr bytes } else { s.img with com := s.img.com.write addr bytes } }
  | .record room ws => s.updRoom room (fun v => v.fromRecord c s.pair.stg ws)
  | .passDone => { s with pair := { s.pair with passDone := true, progress := 100 } }

/-- Bytes of a block. -/
def streamLen : StreamBlock → Nat
  | .window _ _ _ bs => bs.length
  | .words _ _ bs => bs.length
  | .record _ _ => 160
  | .passDone => 0

/-- R396. A resynchronisation block arrives. -/
def execStream (t : Nat) (block : StreamBlock) (s : State) : Host.Outcome State Fault Refusal :=
  let s := s.at t
  match s.joinConf with
  | none => .next s
  | some c =>
    if s.steward = true ∧ s.pair.role = 3 ∧ s.pair.rsync = true then
      let n := s.pair.streamed + streamLen block
      let s := { s with pair := { s.pair with
        streamed := n
        progress := if s.pair.passDone then 100 else BitVec.ofNat 7 (min 99 (100 * n / max 1 c.streamBytes)) } }
      .next (s.takeBlock c block)
    else .next s

/-- Base tick n releases every task, as the release TBs in the rooms' records tell (R397). -/
def State.commonAt (s : State) (c : Conf) (n : Nat) : Bool :=
  (c.way.tasks.zipIdx).all (fun u =>
    let r := vget s.rooms (c.an.rooms.getD u.2 0) Room.init
    let last := r.relTb.toNat / tickCycles
    decide (last < n) && (n - last) % max 1 u.1.k == 0)

/-- The whole INPUT frame of base tick n is here. -/
def State.wholeFrame (s : State) (c : Conf) (n : Nat) : Bool :=
  match s.pair.frame with
  | none => false
  | some (k, bs) => k == n && bs.length == inputLen c.way (u16 bs 6)

/-- A room ready to be released at the join: its place in the configuration, its record kept. -/
def State.joinRoom (s : State) (c : Conf) (i : Nat) : State :=
  match (c.an.rooms[i]?).bind (toFin? 100) with
  | none => s
  | some r =>
    let v := s.rooms[r]
    (s.setUpRoom c i).updRoom r (fun w => { v with
      pc := w.pc
      lane := w.lane
      prio := w.prio
      st := .waiting
      privBase := w.privBase
      privLen := w.privLen
      retBase := w.retBase
      retLen := w.retLen
      dirty := []
      jdead := false })

/-- The retained windows written into the journal's base image after a join (R397), but those of a new layout on trial (R227). -/
def State.saveWindows (s : State) (c : Conf) : State :=
  match s.app.stored with
  | none => s
  | some o =>
    let ws := (List.range o.way.tasks.length).flatMap (fun i =>
      if o.newLayout c i then [] else pageCuts 400 (o.baseAddr i) (s.dmem.read (c.an.retBase.getD i 0) (((o.task i).map Task.retLen).getD 0)))
    let s := if ws = [] then s else s.nvWrite 4 ws .nothing
    s.recWrite 4 8 (toLe 4 ((s.nv.jseq + 2 ^ 32 - 1) % 2 ^ 32)) (fun _ => .fold s.nv.jseq)

/-- The relief joins at base tick J (R397): its rooms are released there, and it is in step. -/
def State.join (s : State) (c : Conf) (j : Nat) : State :=
  let turned := s.edits.swap == .staged && s.pair.partner.swap == 2
  let s := { s with
    app := { s.app with
      cur := some c
      running := true
      startTick := j
      half := if turned then 1 - s.app.half else s.app.half }
    edits := if turned then { s.edits with swap := .trial, old := s.app.cur <|> s.app.stored } else s.edits
    img := { s.img with
      written := (c.way.chans.filter ChanCfg.isOutput).map ChanCfg.ch
      closed := [] }
    np := s.np.admitted c.an s.tb
    pair := { s.pair with
      rsync := false
      marked := none
      due := none
      missing := 0
      joinTick := j
      hyper := c.hyper
      inStepSince := s.now } }
  let s := (List.range c.way.tasks.length).foldl (fun s i => s.joinRoom c i) s
  let s := (s.saveWindows c).limitPublications c
  let s := (s.setRole 2 0 sevNotice).pairEvent evInstep
  let s := (s.canTick j).releaseAll j (fun _ => false)
  let ref := s.pair.joinRef
  let s := { s with pair := { s.pair with joinRef := none } }
  (s.sendControl 6 (toLe 6 j ++ toLe 1 1)).completeOpt ref 0 (toLe 6 j)

/-- R397. The join attempt at the base tick just begun; `arrived` when every room's dirty blocks and record have come in time, else `blockRoom`
is the room still sending. -/
def execJoinAttempt (t : Nat) (arrived : Bool) (blockRoom : Nat) (s : State) : Host.Outcome State Fault Refusal :=
  let s := s.at t
  match s.joinConf with
  | none => .next s
  | some c =>
    let j := s.cycle
    if s.mayRelease = true ∧ s.pair.role = 3 ∧ s.pair.rsync = true ∧ s.pair.passDone = true ∧ s.commonAt c j = true then
      let s := s.sendControl 6 (toLe 6 j ++ toLe 1 0)
      if arrived = true ∧ s.wholeFrame c j = true then .next (s.join c j)
      else
        let s := { s with pair := { s.pair with
          attempts := satInc s.pair.attempts
          blockRoom := if arrived then s.pair.blockRoom else BitVec.ofNat 7 blockRoom } }
        .next (s.sendControl 6 (toLe 6 j ++ toLe 1 2))
    else .next s

/-- R381, R392, R397, R398. A JOIN message: J, then attempt, success or abandoned; an attempt that a primary sends is its driver's resync
command. -/
def execJoin (t : Nat) (payload : List Byte) (s : State) : Host.Outcome State Fault Refusal :=
  let s := s.at t
  let j := u48 payload 0
  let code := u8 payload 6
  if s.steward = true ∧ s.pair.role = 1 ∧ code = 1 then
    let ref := s.pair.joinRef
    .next ({ s with
      pwr := { s.pwr with quietOut := false }
      pair := { s.pair with
        joinTick := j
        joinRef := none
        partner := { s.pair.partner with role := 2 } } }.completeOpt ref 0 (toLe 6 j))
  else if s.steward = true ∧ s.pair.role = 3 ∧ code = 0 then .next s.commandSync
  else if s.steward = true ∧ s.pair.role = 1 ∧ code = 2 then .next { s with pair := { s.pair with attempts := satInc s.pair.attempts } }
  else .next s

/-- R385. A piece of the primary's stored waybill. The whole is admitted without a command; a swap that the relief was left with is given up. -/
def execWaybill (t : Nat) (payload : List Byte) (s : State) : Host.Outcome State Fault Refusal :=
  let s := s.at t
  let off := u32 payload 0
  let buf := (if off = 0 then [] else s.pair.wayBuf) ++ payload.drop 4
  if s.steward = true ∧ s.pair.role = 3 ∧ s.app.running = false ∧ s.inn.exam = none ∧ (off = 0 ∨ off = s.pair.wayBuf.length) then
    if 16 ≤ buf.length ∧ u32 buf 8 ≤ buf.length then
      let s := { s with
        pair := { s.pair with wayBuf := [] }
        edits := { s.edits with swap := .none, new := none, old := none, confirmed := false } }
      .next ((s.loadWaybill (buf.take (u32 buf 8))).beginExam none false)
    else .next { s with pair := { s.pair with wayBuf := buf } }
  else .next s

/-! ### Discrepancies (R388) -/

/-- Modes whose channels a relief compares (R290, R388). -/
def comparedMode (e : ChanCfg) : Bool := e.isDin || e.isCounter || e.isReadback || (e.isAin && !excited e)

/-- The map of discrepant channels. -/
def State.discMap (s : State) : List Byte := toLe 24 (maskOf (fun n => (vget s.chans n Chan.init).disc) 192)

/-- A channel becomes discrepant, or no longer is. -/
def State.setDisc (s : State) (n : ChanId) (on : Bool) : State :=
  if on = s.chans[n].disc then s
  else
    let old := s.chans[n].discLatch
    let s := s.updChan n (fun c => { c with disc := on, discLatch := c.discLatch || on })
    if on then
      let s := s.mark (0x4080 + 4 * (n.val / 16)) (2 ^ (16 + n.val % 16))
      ((s.pairEvent evDisc).latchVector old).gbEvent 0x63 n.val sevFault [barWord s (0x4080 + 4 * (n.val / 16))]
    else s

/-- The discrepancy time PAIR_CFG.DTIME, 0 selecting 20 ms, in cycles (R404). -/
def Pair.discTime (p : Pair) : Nat := (if p.dtime = 0 then 20 else p.dtime.toNat) * msCycles

/-- When channel n becomes discrepant (R388), `none` while it agrees: after DTIME of difference from the frame, and at once for an output with
readback whose DISC is set. -/
def State.discDue (s : State) (n : ChanId) : Option Nat :=
  match s.chans[n].cfg with
  | none => none
  | some e =>
    if e.isReadback then (if s.chans[n].cdisc then some 0 else none)
    else if comparedMode e then s.chans[n].diffAt.map (fun x => x + s.pair.discTime)
    else none

/-- R388. A channel has differed from the frame for DTIME, or agrees again. -/
def execInputDiscrepancy (t : Nat) (ch : ChanId) (set : Bool) (s : State) : Host.Outcome State Fault Refusal :=
  let judge (t : Nat) : State := ((s.at t).setDisc ch set).sendControl 8 ((s.at t).setDisc ch set).discMap
  let ok : Bool := match s.chans[ch].cfg with
    | none => false
    | some e => comparedMode e
  let on : Bool := s.steward && s.isRelief && ok
  if on then
    match s.discDue ch, set with
    | some x, true => .next (judge (max t x))
    | none, false => .next (judge t)
    | _, _ => .next (s.at t)
  else .next (s.at t)

/-- R388. The relief's map on the primary. -/
def execDisc (t : Nat) (payload : List Byte) (s : State) : Host.Outcome State Fault Refusal :=
  let s := s.at t
  let m := ofLe (slice payload 0 24)
  .next (if s.steward = true ∧ s.pair.role = 1 then (fins 192).foldl (fun s n => s.setDisc n (bit m n.val)) s else s)

/-! ### Proofs (R399 to R402) -/

/-- The conditions of R399 for channel n. -/
def State.mayProve (s : State) (n : ChanId) : Bool :=
  let c := s.chans[n]
  let g := grpOf n
  match c.cfg with
  | none => false
  | some e =>
    s.pair.role == 2 && s.steward && e.isDout && decide (5 ≤ s.period e.owner) && (s.img.com.word (0x1000 + 4 * n.val)).getLsbD 0 &&
      !s.pwr.quietIn && s.groups[g].up && s.pair.partner.lplus.getLsbD g.val && !c.held && !c.rateHeld && c.rateUntil.isNone &&
      (c.exer || (match c.proofTry with | none => true | some x => decide (x + 10 * secCycles ≤ s.now))) &&
      (chansOf g).all (fun q => !s.chans[q].proofOpen)

/-- The base tick of the commit at which a channel's proof window ends: that of its owner's release in progress (R399). -/
def State.proofEnd (s : State) (n : ChanId) : Nat :=
  match s.chans[n].cfg with
  | none => 0
  | some e => match s.roomOf e.owner with
    | none => 0
    | some r => s.rooms[r].relTb.toNat / tickCycles + s.period e.owner

/-- R399. A proof window begins, 240 µs before that commit: the relief closes its switch. -/
def execProofWindowOpen (t : Nat) (ch : ChanId) (s : State) : Host.Outcome State Fault Refusal :=
  let s' := s.at (max t (s.cycleOfTb (tickCycles * s.proofEnd ch - 240 * usCycles)))
  if s.mayProve ch = true ∧ s'.tb + 40 * usCycles ≤ tickCycles * s.proofEnd ch then
    .next ((s'.updChan ch (fun c => { c with proofOpen := true, proofTry := some s'.now, primMa := none })).driveChan ch false)
  else .next (s.at t)

/-- R381, R400. The primary's switch current for the window that ends at the cycle number it names. -/
def execProof (t : Nat) (payload : List Byte) (s : State) : Host.Outcome State Fault Refusal :=
  let s := s.at t
  match toFin? 192 (u8 payload 0) with
  | none => .next s
  | some n => .next (if s.pair.role = 2 ∧ s.chans[n].proofOpen = true ∧ u48 payload 1 = s.proofEnd n then s.updChan n (fun c => { c with primMa := some (u16 payload 7) }) else s)

/-- The relief's share of the load current is enough (R400); without the primary's figure a proof does not pass. -/
def proofPasses (own : Nat) (prim : Option Nat) : Bool :=
  match prim with
  | none => false
  | some p => decide (own + p ≤ 5 * own) && decide (2 ≤ own + p)

/-- The value that the owner of channel n commits next: frozen at its deadline, pending before it. -/
def State.coming (s : State) (n : ChanId) (e : ChanCfg) : Bool :=
  ((if s.img.closed.contains e.owner then s.img.frozen else s.img.pend).word (0x1000 + 4 * n.val)).getLsbD 0

/-- R401. The relief's switch opens at the end of a window: while the primary still carries the load this is no switch-off, and with a commit of
OFF both switch off together, which starts the interval of R252. -/
def State.closeProof (s : State) (n : ChanId) : State :=
  let on := match s.chans[n].cfg with | none => false | some e => s.coming n e
  let s := s.updChan n (fun c => { c with
    proofOpen := false
    primMa := none
    drive := c.drive && !on
    changedAt := s.now })
  s.driveChan n false

/-- R400. The proof is judged. -/
def State.judgeProof (s : State) (n : ChanId) (passes : Bool) : State :=
  if passes then
    s.updChan n (fun c => { c with
      proofHours := some s.hours
      proofFail := false
      exer := false
      agedOut := false })
  else
    let old := s.chans[n].proofFailLatch
    let s := s.updChan n (fun c => { c with proofFail := true, proofFailLatch := true })
    let s := s.mark (0x4100 + 4 * (n.val / 16)) (2 ^ (16 + n.val % 16))
    ((s.pairEvent evProofFail).latchVector old).gbEvent 0x64 n.val sevFault [barWord s (0x4100 + 4 * (n.val / 16))]

/-- R381, R400. The primary reports the mean current of its own switch over a window that ends now. -/
def State.reportProof (s : State) (n : ChanId) (milliamp : Nat) : State :=
  if s.chans[n].drive then
    s.sendControl 7 (toLe 1 n.val ++ toLe 6 ((s.tb + tickCycles / 2) / tickCycles) ++ toLe 2 (min 65535 milliamp))
  else s

/-- R399 to R401. A proof window ends, 40 µs before the relief's base tick, with the module's mean switch current: a relief opens its switch and
judges the proof, a primary reports. -/
def execProofWindowClose (t : Nat) (ch : ChanId) (milliamp : Nat) (s : State) : Host.Outcome State Fault Refusal :=
  let c := s.chans[ch]
  if c.proofOpen = true then
    let s := s.at (max t (s.cycleOfTb (tickCycles * s.proofEnd ch - 40 * usCycles)))
    .next ((s.closeProof ch).judgeProof ch (proofPasses milliamp c.primMa))
  else .next (if s.pair.role = 1 ∧ s.steward = true then (s.at t).reportProof ch milliamp else s.at t)

/-- The NV proof record (R402; log entry 15): hours of the last passing proof of every channel. -/
def State.proofRecord (s : State) : List Byte := s.chans.toList.flatMap (fun c => toLe 4 (c.proofHours.getD 0xFFFFFFFF))

/-- R402. The hour is over: the proof record is written, and ages that first exceed AGELIM are recorded. -/
def execProofAgeUpdate (t : Nat) (s : State) : Host.Outcome State Fault Refusal :=
  if s.steward = true ∧ s.isRelief = true then
    let s := s.at (max t (s.pair.agesAt + 3600 * secCycles))
    let s := { s with pair := { s.pair with agesAt := s.now } }
    let s := s.recWrite 4 6 s.proofRecord (fun _ => .nothing)
    let ns := s.provable.filter (fun n => s.overAge n && !(vget s.chans n Chan.init).agedOut)
    let s := s.ageRecords ns sevNotice
    .next { s with chans := s.chans.mapFinIdx (fun n c _ => if ns.contains n then { c with agedOut := true } else c) }
  else .next (s.at t)

end Sys2Proof.Machine
end

