-- ==== Sys2Proof/Machine/Security.lean ====
section
/-! DEFINITION. Keys, updates, confirmation and attestation (R472 to R494). -/

namespace Sys2Proof.Machine

/-! ### Owner keys (R480, R481) -/

/-- The outcome of an action on the owner slots. -/
def State.ownResult (s : State) (st : BitVec 16) (slot : Option Nat) : State :=
  let s := { s with sec := { s.sec with
    ownStatus := st
    ownSlot := match slot with
      | none => s.sec.ownSlot
      | some n => BitVec.ofNat 2 n } }
  match slot with
  | none => s
  | some n => s.gbEvent 0x96 n sevNotice [barWord s 0x6014]

/-- What holds an action up before its own checks. -/
def State.ownBusy (s : State) : Option (BitVec 16) := if s.inn.exam.isSome then some 0x0242 else if s.app.running then some 0x0241 else none

/-- R480. ACTION 1 with its key: the lowest free slot takes the digest in SEC_ENROLL0–15. -/
def execOwnerKeyEnrol (t : Nat) (val : Word) (s : State) : Host.Outcome State Fault Refusal :=
  let s := s.at t
  if s.steward = true ∧ fld val.toNat 16 16 = 0xB0E5 ∧ fld val.toNat 0 2 = 1 then
    let digest := s.sec.enroll.toList.flatMap (fun (w : Word) => toLe 4 w.toNat)
    match s.ownBusy, (List.range 4).find? (fun i => !s.sec.oset.getLsbD i) with
    | some st, _ => .next (s.ownResult st none)
    | none, none => .next (s.ownResult 0x0509 none)
    | none, some i =>
      if digest.all (· == 0) then .next (s.ownResult 0x0509 none)
      else .next ({ s with sec := { s.sec with
          oset := s.sec.oset ||| (1 <<< i)
          ohash := vset s.sec.ohash i digest } }.ownResult 0 (some i))
  else .next s

/-- R480. Slot n may not be revoked: not set, revoked, the last valid one, or the one that signed the stored configuration. -/
def State.keepsKey (s : State) (n : Nat) : Bool :=
  let valid (i : Nat) : Bool := s.sec.oset.getLsbD i && !s.sec.orev.getLsbD i
  !valid n || (List.range 4).all (fun i => i == n || !valid i) || (s.app.stored.map (fun c => c.way.keyslot == n)).getD false

/-- R480. ACTION 2 with its key. -/
def execOwnerKeyRevoke (t : Nat) (val : Word) (s : State) : Host.Outcome State Fault Refusal :=
  let s := s.at t
  let n := fld val.toNat 2 2
  if s.steward = true ∧ fld val.toNat 16 16 = 0xB0E5 ∧ fld val.toNat 0 2 = 2 then
    match s.ownBusy with
    | some st => .next (s.ownResult st none)
    | none =>
      if s.keepsKey n then .next (s.ownResult 0x050A none)
      else .next ({ s with sec := { s.sec with orev := s.sec.orev ||| (1 <<< n) } }.ownResult 0 (some n))
  else .next s

/-! ### Updates (R484 to R486) -/

/-- Bytes laid over a slot at an offset: every sector that begins within them is erased first (R484). -/
def programChunk (img : List Byte) (off : Nat) (bs : List Byte) : List Byte :=
  let stop := off + bs.length
  let last := (stop - 1) / 65536 * 65536
  let erased := if off ≤ last then last + 65536 - stop else 0
  let head := (img ++ List.replicate (off - img.length) 0xFF).take off
  head ++ bs ++ List.replicate erased 0xFF ++ img.drop (stop + erased)

/-- The slot that updates write. -/
def Sec.spareSlot (c : Sec) : Bool := !c.active

def Sec.setImage (c : Sec) (slot : Bool) (img : List Byte) : Sec := if slot then { c with imgB := img } else { c with imgA := img }

def chunkChecks (e : CmdEntry) (dma : Option (List Byte)) (s : State) : List Check :=
  let off := e.w 4
  let n := e.w 8
  let len := imageLength (if off = 0 then dma.getD [] else s.sec.image s.sec.spareSlot)
  [(!e.formOk 0 [(4, 8), (16, 8)], 0x0101),
   (off % 4096 != 0 || decide (n < 4096) || decide (65536 < n) || n % 4096 != 0, 0x0103),
   (e.q 16 % 8 != 0, 0x0104),
   (s.sec.stA == .trial || s.sec.stB == .trial, 0x0270),
   (off != 0 && (!s.sec.updActive || off != s.sec.updNext.toNat), 0x0502),
   (dma.isNone, 0x0105),
   ((off == 0 && !lengthOk len) || decide (len < off + n), 0x0503)]

/-- R484, R485. Command 0x80: its erasing and programming begin. It does not begin while another 0x80 runs. -/
def execUpdateChunk (t : Nat) (c : RingId) (e : CmdEntry) (dma : Option (List Byte)) (s : State) : Host.Outcome State Fault Refusal :=
  if s.sec.chunk.isSome then .next (s.at t)
  else .next (s.command t c 0x80 e (chunkChecks e dma) (fun ref s =>
    let sec := if e.w 4 = 0 then { (s.sec.setState s.sec.spareSlot .empty) with updActive := true, updNext := 0 } else s.sec
    { s with sec := { sec with chunk := some (ref, e.w 4, slice (dma.getD []) 0 (e.w 8)) } }))

/-- R484. The chunk is in flash. -/
def execUpdateChunkComplete (t : Nat) (s : State) : Host.Outcome State Fault Refusal :=
  let s := s.at t
  match s.sec.chunk with
  | none => .next s
  | some (ref, off, bs) =>
    let x := s.sec.spareSlot
    let sec := s.sec.setImage x (programChunk (s.sec.image x) off bs)
    .next ({ s with sec := { sec with
      chunk := none
      updNext := BitVec.ofNat 25 (off + bs.length) } }.complete ref 0 (toLe 4 bs.length))

/-- The status of activation's own checks (R486, items 2 to 4). -/
def Sec.activateStatus (c : Sec) : Nat :=
  let img := c.image c.spareSlot
  let code := imageCheck c img
  if c.updActive = false ∨ c.updNext.toNat < imageLength img then 0x0504
  else if code = 1 ∨ code = 2 then 0x0507
  else if code = 3 then 0x0506
  else if code = 4 then 0x0505
  else if code = 5 ∨ code = 6 then 0x0501
  else if (List.range (u16 img 16)).all (digestOk img) then 0
  else 0x0501

/-- R485, R486. Command 0x81: the reset with cause 0x0B follows its completion at once (R353). -/
def execActivate (t : Nat) (c : RingId) (e : CmdEntry) (s : State) : Host.Outcome State Fault Refusal :=
  if s.sec.chunk.isSome then .next (s.at t)
  else .next (s.command t c 0x81 e
    (fun s => [(!e.formOk 0 [], 0x0101), (s.inn.exam.isSome, 0x0242), (s.edits.swap != .none, 0x0222)])
    (fun ref s =>
      let st := s.sec.activateStatus
      if st ≠ 0 then s.complete ref (BitVec.ofNat 16 st) []
      else
        let x := s.sec.spareSlot
        let img := s.sec.image x
        let s := { s with sec := { (s.sec.setState x .trial) with
          tries := 0
          active := x
          updActive := false } }
        let s := (s.gbEvent 0x94 (b2n x) sevNotice [BitVec.ofNat 32 (imageVersion img), BitVec.ofNat 32 (u8 img 6)])
        let s := if s.nv.ready then s.bookNow else s
        (s.complete ref 0 []).enterReset 0x0B))

/-! ### Confirmation (R487) -/

/-- The running slot is TRIAL. -/
def Sec.onTrial (c : Sec) : Bool := c.slotState c.slot == .trial

/-- R487: fuses, then both slot states in one record write. -/
def State.confirmImage (s : State) : State :=
  let c := s.sec
  let img := c.image c.slot
  let s := { s with sec := { ((c.setState c.slot .good).setState (!c.slot) .old) with
    tries := 0
    svncnt := max c.svncnt (u8 img 6)
    crev := c.crev ||| BitVec.ofNat 4 (u8 img 18) } }
  s.gbEvent 0x92 (b2n c.slot) sevNotice [barWord s 0x6014]

/-- R487. SEC_CTRL.CONFIRM with its key. -/
def execConfirm (t : Nat) (val : Word) (s : State) : Host.Outcome State Fault Refusal :=
  let s := s.at t
  .next (if s.steward = true ∧ val.getLsbD 0 = true ∧ fld val.toNat 16 16 = 0xC0F1 ∧ s.sec.onTrial = true then s.confirmImage else s)

/-- R487. 600 s after the clock was judged, without a reset since. -/
def execTrialConfirm (t : Nat) (s : State) : Host.Outcome State Fault Refusal :=
  if s.steward = true ∧ s.clk.judged = true ∧ s.sec.onTrial = true then
    .next ((s.at (max t (s.tb0 + 400 * s.clk.tjudged.toNat + 600 * secCycles))).confirmImage)
  else .next (s.at t)

/-! ### Attestation (R490) -/

/-- Bytes 0 to 263 of the report. -/
def State.reportBody (s : State) (nonce : List Byte) : List Byte :=
  let img := s.sec.image s.sec.slot
  let cfg := match s.app.stored with
    | none => List.replicate 64 (0 : Byte)
    | some c => slice (Config.shake256 c.way.bytes) 0 64
  toLe 4 0x5454414D ++ toLe 2 1 ++ toLe 2 0 ++ toLe 8 Config.serial.toNat ++ slice nonce 0 32 ++ toLe 6 s.cycle ++
    toLe 1 (barWord s 0x40).toNat ++ toLe 1 s.sec.svncnt ++ toLe 3 (imageVersion img) ++ toLe 1 (s.sec.oset.toNat + 16 * s.sec.orev.toNat) ++
    toLe 4 s.confId ++ slice (Config.shake256 (slice img 0 2512)) 0 64 ++ cfg ++ slice (Config.shake256 Config.identityPub) 0 64 ++ toLe 8 0

/-- R490. Command 0x82. -/
def execAttest (t : Nat) (c : RingId) (e : CmdEntry) (s : State) : Host.Outcome State Fault Refusal :=
  .next (s.command t c 0x82 e
    (fun _ => [(!e.formOk 0 [(4, 12), (16, 32)], 0x0101), (decide (e.w 4 < 2048) || decide (4096 < e.w 4), 0x0103), (e.q 8 % 8 != 0, 0x0104)])
    (fun ref s =>
      let body := s.reportBody (slice e.body 12 32)
      let sig := slice (Config.identitySign (slice (Config.shake256 body) 0 64)) 0 1280
      let s := s.gbEvent 0x97 0 sevInfo [BitVec.ofNat 32 (u32 e.body 12)]
      (s.request (.hostWrite (e.q 8) (body ++ sig))).complete ref 0 (toLe 4 1544)))

end Sys2Proof.Machine
end

