-- ==== Sys2Proof/Machine/Special.lean ====
section
/-! DEFINITION. Room control: REST and WDK (R152, R153). -/

namespace Sys2Proof.Machine

/-- Time from the release to the slot of REST, that slot included, in lane slots (R101). -/
def restResponse (relTb tb : Nat) : Nat := (tb - relTb) / 8 + 1

/-- R81, R152. The room ends its period: WAITING at its entry from the cycle of write-back on, its figures and the capture of its retained
blocks. -/
def execRest (t : Nat) (r : RoomId) (s : State) : Host.Outcome State Fault Refusal :=
  .next (s.lane t r (fun _ => false) (fun v c s =>
    match s.taskOf r with
    | none => s
    | some i =>
      let s := s.updRoom r (fun w => { w with
        restAt := some (c + 7)
        pc := s.entryPc i
        restDone := c + 7
        peak := if w.peak.toNat < w.issued then BitVec.ofNat 26 w.issued else w.peak
        resp :=
          let d := restResponse v.relTb.toNat (s.tb - 1)
          if w.resp.toNat < d then BitVec.ofNat 26 d else w.resp })
      s.capture r i (c + 7)))

/-- R153. The supervisor room presents ra[15:0] in the cycle of the memory stage; any other room presents nothing. -/
def execWdk (t : Nat) (r : RoomId) (ra : Reg) (s : State) : Host.Outcome State Fault Refusal :=
  .next (s.lane t r (loadPending [ra]) (fun v c s =>
    match s.app.cur with
    | none => s
    | some cf =>
      if s.roomOf cf.way.super = some r then
        let s' := ({ s with now := c + 5 }).npKey true ((v.get ra).setWidth 16)
        { s' with now := s.now }
      else s))

end Sys2Proof.Machine
end

