-- ==== Sys2Proof/Machine/Timers.lean ====
section
/-! DEFINITION. Timers and counters (R146 to R150). -/

namespace Sys2Proof.Machine

/-- A timer record's fields and its bytes (R147). -/
structure TimerRec where
  pt : Nat
  et : Nat
  t0 : Nat
  inp : Bool
  q : Bool
  run : Bool
deriving DecidableEq, Repr

def timerOf (b : List Byte) : TimerRec where
  pt := u32 b 0
  et := u32 b 4
  t0 := u48 b 8
  inp := bit (u8 b 14) 0
  q := bit (u8 b 14) 1
  run := bit (u8 b 14) 2

def timerBytes (x : TimerRec) : List Byte :=
  toLe 4 x.pt ++ toLe 4 x.et ++ toLe 6 x.t0 ++ toLe 1 (b2n x.inp + 2 * b2n x.q + 4 * b2n x.run) ++ [0]

/-- The room's logical time in µs (R148). -/
def Room.logical (v : Room) : Nat := v.relTb.toNat / 400 % 2 ^ 48

/-- Time since T0, modulo 2⁴⁸ (R148). -/
def since (now t0 : Nat) : Nat := (now + 2 ^ 48 - t0 % 2 ^ 48) % 2 ^ 48

/-- What follows every timer: INP = in, rd = ET, B = Q (R148). -/
def timerOut (i : Bool) (x : TimerRec) : List Byte × Nat × Bool := (timerBytes { x with inp := i }, x.et, x.q)

def tonStep (now : Nat) (i : Bool) (x : TimerRec) : TimerRec :=
  if i then
    let t0 := if x.inp then x.t0 else now
    let et := min (since now t0) x.pt
    { x with t0 := t0, et := et, q := decide (x.pt ≤ et) }
  else { x with et := 0, q := false }

def tofStep (now : Nat) (i : Bool) (x : TimerRec) : TimerRec :=
  if i then { x with et := 0, run := false, q := true }
  else
    let y := if x.inp then { x with t0 := now, run := true } else x
    if y.run then
      let et := min (since now y.t0) y.pt
      let run := decide (et < y.pt)
      { y with et := et, run := run, q := run }
    else { y with q := false }

def tpStep (now : Nat) (i : Bool) (x : TimerRec) : TimerRec :=
  let y := if !x.run && i && !x.inp then { x with t0 := now, run := true } else x
  if y.run then
    let et := min (since now y.t0) y.pt
    let run := decide (et < y.pt)
    { y with et := et, run := run, q := run }
  else if i then { y with q := false } else { y with et := 0, q := false }

def taccStep (now : Nat) (i : Bool) (x : TimerRec) : TimerRec :=
  let y := if i then { x with et := if x.inp then min (x.et + since now x.t0) x.pt else x.et, t0 := now } else x
  { y with q := decide (y.pt ≤ y.et) }

/-- R146 to R148. On-delay timer on a 16-byte record. -/
def execTon (t : Nat) (r : RoomId) (rd ra : Reg) (imm : BitVec 16) (s : State) : Host.Outcome State Fault Refusal :=
  .next (s.laneRecord t r rd ra imm (fun v x => timerOut v.b (tonStep v.logical v.b (timerOf x))))

/-- R146 to R148. Off-delay timer on a 16-byte record. -/
def execTof (t : Nat) (r : RoomId) (rd ra : Reg) (imm : BitVec 16) (s : State) : Host.Outcome State Fault Refusal :=
  .next (s.laneRecord t r rd ra imm (fun v x => timerOut v.b (tofStep v.logical v.b (timerOf x))))

/-- R146 to R148. Pulse timer on a 16-byte record. -/
def execTp (t : Nat) (r : RoomId) (rd ra : Reg) (imm : BitVec 16) (s : State) : Host.Outcome State Fault Refusal :=
  .next (s.laneRecord t r rd ra imm (fun v x => timerOut v.b (tpStep v.logical v.b (timerOf x))))

/-- R146 to R148. Accumulating timer on a 16-byte record. -/
def execTacc (t : Nat) (r : RoomId) (rd ra : Reg) (imm : BitVec 16) (s : State) : Host.Outcome State Fault Refusal :=
  .next (s.laneRecord t r rd ra imm (fun v x => timerOut v.b (taccStep v.logical v.b (timerOf x))))

/-- A counter record (R149) after counting: `step` moves CV, `out` gives Q (R150). -/
def counterStep (i : Bool) (x : List Byte) (step : Int → Int) (out : Int → Int → Bool) : List Byte × Nat × Bool :=
  let pv := sgn 32 (u32 x 0)
  let cv0 := sgn 32 (u32 x 4)
  let cv := if i && !bit (u8 x 8) 0 then step cv0 else cv0
  (toLe 4 (u32 x 0) ++ toLe 4 (unsgn 32 cv) ++ toLe 1 (b2n i) ++ toLe 7 0, unsgn 32 cv, out cv pv)

/-- R150. Up-counter on a rising edge of B; Q when CV has reached PV. -/
def execCtu (t : Nat) (r : RoomId) (rd ra : Reg) (imm : BitVec 16) (s : State) : Host.Outcome State Fault Refusal :=
  .next (s.laneRecord t r rd ra imm (fun v x =>
    counterStep v.b x (fun c => if c = 2 ^ 31 - 1 then c else c + 1) (fun c p => decide (p ≤ c))))

/-- R150. Down-counter on a rising edge of B; Q when CV is not above 0. -/
def execCtd (t : Nat) (r : RoomId) (rd ra : Reg) (imm : BitVec 16) (s : State) : Host.Outcome State Fault Refusal :=
  .next (s.laneRecord t r rd ra imm (fun v x =>
    counterStep v.b x (fun c => if c = -(2 ^ 31) then c else c - 1) (fun c _ => decide (c ≤ 0))))

end Sys2Proof.Machine
end

