-- ==== Sys2Proof/Machine/Dispatch.lean ====
section
/-! DEFINITION. What each command does: one arm per row of the opcode table, each a call of that row's meaning. -/

namespace Sys2Proof.Machine

/-- The effect of a command on everything but the queue. -/
def exec (i : Instr) (s : State) : Host.Outcome State Fault Refusal :=
  match i with
  | .nop t r => Sys2Proof.Machine.execNop t r s
  | .add t r rd ra rb => Sys2Proof.Machine.execAdd t r rd ra rb s
  | .sub t r rd ra rb => Sys2Proof.Machine.execSub t r rd ra rb s
  | .adc t r rd ra rb => Sys2Proof.Machine.execAdc t r rd ra rb s
  | .sbc t r rd ra rb => Sys2Proof.Machine.execSbc t r rd ra rb s
  | .and t r rd ra rb => Sys2Proof.Machine.execAnd t r rd ra rb s
  | .or t r rd ra rb => Sys2Proof.Machine.execOr t r rd ra rb s
  | .xor t r rd ra rb => Sys2Proof.Machine.execXor t r rd ra rb s
  | .andn t r rd ra rb => Sys2Proof.Machine.execAndn t r rd ra rb s
  | .shl t r rd ra rb => Sys2Proof.Machine.execShl t r rd ra rb s
  | .shr t r rd ra rb => Sys2Proof.Machine.execShr t r rd ra rb s
  | .sar t r rd ra rb => Sys2Proof.Machine.execSar t r rd ra rb s
  | .cmp t r ra rb => Sys2Proof.Machine.execCmp t r ra rb s
  | .min t r rd ra rb => Sys2Proof.Machine.execMin t r rd ra rb s
  | .max t r rd ra rb => Sys2Proof.Machine.execMax t r rd ra rb s
  | .minu t r rd ra rb => Sys2Proof.Machine.execMinu t r rd ra rb s
  | .maxu t r rd ra rb => Sys2Proof.Machine.execMaxu t r rd ra rb s
  | .sel t r rd ra rb => Sys2Proof.Machine.execSel t r rd ra rb s
  | .getb t r rd => Sys2Proof.Machine.execGetb t r rd s
  | .addi t r rd ra imm => Sys2Proof.Machine.execAddi t r rd ra imm s
  | .cmpi t r ra imm => Sys2Proof.Machine.execCmpi t r ra imm s
  | .andi t r rd ra imm => Sys2Proof.Machine.execAndi t r rd ra imm s
  | .ori t r rd ra imm => Sys2Proof.Machine.execOri t r rd ra imm s
  | .xori t r rd ra imm => Sys2Proof.Machine.execXori t r rd ra imm s
  | .lui t r rd imm => Sys2Proof.Machine.execLui t r rd imm s
  | .shli t r rd ra n5 => Sys2Proof.Machine.execShli t r rd ra n5 s
  | .shri t r rd ra n5 => Sys2Proof.Machine.execShri t r rd ra n5 s
  | .sari t r rd ra n5 => Sys2Proof.Machine.execSari t r rd ra n5 s
  | .tst t r ra n5 => Sys2Proof.Machine.execTst t r ra n5 s
  | .bext t r rd ra p5 w5 => Sys2Proof.Machine.execBext t r rd ra p5 w5 s
  | .bins t r rd ra p5 w5 => Sys2Proof.Machine.execBins t r rd ra p5 w5 s
  | .lpi t r rd imm => Sys2Proof.Machine.execLpi t r rd imm s
  | .lpr t r rd ra imm => Sys2Proof.Machine.execLpr t r rd ra imm s
  | .loop t r rd boff => Sys2Proof.Machine.execLoop t r rd boff s
  | .jtab t r ra imm => Sys2Proof.Machine.execJtab t r ra imm s
  | .b t r cond boff => Sys2Proof.Machine.execB t r cond boff s
  | .lw t r rd ra imm => Sys2Proof.Machine.execLw t r rd ra imm s
  | .lh t r rd ra imm => Sys2Proof.Machine.execLh t r rd ra imm s
  | .lhu t r rd ra imm => Sys2Proof.Machine.execLhu t r rd ra imm s
  | .lby t r rd ra imm => Sys2Proof.Machine.execLby t r rd ra imm s
  | .lbyu t r rd ra imm => Sys2Proof.Machine.execLbyu t r rd ra imm s
  | .sw t r rd ra imm => Sys2Proof.Machine.execSw t r rd ra imm s
  | .sh t r rd ra imm => Sys2Proof.Machine.execSh t r rd ra imm s
  | .sby t r rd ra imm => Sys2Proof.Machine.execSby t r rd ra imm s
  | .ilw t r rd ra imm => Sys2Proof.Machine.execIlw t r rd ra imm s
  | .ilh t r rd ra imm => Sys2Proof.Machine.execIlh t r rd ra imm s
  | .ilhu t r rd ra imm => Sys2Proof.Machine.execIlhu t r rd ra imm s
  | .ilby t r rd ra imm => Sys2Proof.Machine.execIlby t r rd ra imm s
  | .ilbyu t r rd ra imm => Sys2Proof.Machine.execIlbyu t r rd ra imm s
  | .isw t r rd ra imm => Sys2Proof.Machine.execIsw t r rd ra imm s
  | .ish t r rd ra imm => Sys2Proof.Machine.execIsh t r rd ra imm s
  | .isby t r rd ra imm => Sys2Proof.Machine.execIsby t r rd ra imm s
  | .ldb t r rd ra imm => Sys2Proof.Machine.execLdb t r rd ra imm s
  | .stb t r rd ra imm => Sys2Proof.Machine.execStb t r rd ra imm s
  | .set t r ra imm => Sys2Proof.Machine.execSet t r ra imm s
  | .rst t r ra imm => Sys2Proof.Machine.execRst t r ra imm s
  | .edgeR t r rd ra imm => Sys2Proof.Machine.execEdgeR t r rd ra imm s
  | .edgeF t r rd ra imm => Sys2Proof.Machine.execEdgeF t r rd ra imm s
  | .edgeA t r rd ra imm => Sys2Proof.Machine.execEdgeA t r rd ra imm s
  | .ton t r rd ra imm => Sys2Proof.Machine.execTon t r rd ra imm s
  | .tof t r rd ra imm => Sys2Proof.Machine.execTof t r rd ra imm s
  | .tp t r rd ra imm => Sys2Proof.Machine.execTp t r rd ra imm s
  | .tacc t r rd ra imm => Sys2Proof.Machine.execTacc t r rd ra imm s
  | .ctu t r rd ra imm => Sys2Proof.Machine.execCtu t r rd ra imm s
  | .ctd t r rd ra imm => Sys2Proof.Machine.execCtd t r rd ra imm s
  | .bool3 t r rd ra rb rc tt => Sys2Proof.Machine.execBool3 t r rd ra rb rc tt s
  | .mul t r ra rb => Sys2Proof.Machine.execMul t r ra rb s
  | .mulu t r ra rb => Sys2Proof.Machine.execMulu t r ra rb s
  | .mac t r ra rb => Sys2Proof.Machine.execMac t r ra rb s
  | .macu t r ra rb => Sys2Proof.Machine.execMacu t r ra rb s
  | .fadd t r ra rb => Sys2Proof.Machine.execFadd t r ra rb s
  | .fsub t r ra rb => Sys2Proof.Machine.execFsub t r ra rb s
  | .fmul t r ra rb => Sys2Proof.Machine.execFmul t r ra rb s
  | .fdiv t r ra rb => Sys2Proof.Machine.execFdiv t r ra rb s
  | .fmin t r ra rb => Sys2Proof.Machine.execFmin t r ra rb s
  | .fmax t r ra rb => Sys2Proof.Machine.execFmax t r ra rb s
  | .fcmp t r ra rb => Sys2Proof.Machine.execFcmp t r ra rb s
  | .itof t r ra => Sys2Proof.Machine.execItof t r ra s
  | .utof t r ra => Sys2Proof.Machine.execUtof t r ra s
  | .ftoi t r ra => Sys2Proof.Machine.execFtoi t r ra s
  | .div t r ra rb => Sys2Proof.Machine.execDiv t r ra rb s
  | .divu t r ra rb => Sys2Proof.Machine.execDivu t r ra rb s
  | .mfs t r rd spr => Sys2Proof.Machine.execMfs t r rd spr s
  | .mts t r spr ra => Sys2Proof.Machine.execMts t r spr ra s
  | .rdfeat t r rd feat => Sys2Proof.Machine.execRdfeat t r rd feat s
  | .rest t r => Sys2Proof.Machine.execRest t r s
  | .wdk t r ra => Sys2Proof.Machine.execWdk t r ra s
  | .invalidWordFetched t r word => Sys2Proof.Machine.execInvalidWordFetched t r word s
  | .macResultWrite t r => Sys2Proof.Machine.execMacResultWrite t r s
  | .fpuResultWrite t r => Sys2Proof.Machine.execFpuResultWrite t r s
  | .dividerResultWrite t r => Sys2Proof.Machine.execDividerResultWrite t r s
  | .distanceRuleBroken t r => Sys2Proof.Machine.execDistanceRuleBroken t r s
  | .baseTick t => Sys2Proof.Machine.execBaseTick t s
  | .taskDeadline t r => Sys2Proof.Machine.execTaskDeadline t r s
  | .outputCommitApply t g => Sys2Proof.Machine.execOutputCommitApply t g s
  | .maintenanceSlot t lane => Sys2Proof.Machine.execMaintenanceSlot t lane s
  | .scrubRead t rd addr res => Sys2Proof.Machine.execScrubRead t rd addr res s
  | .memorySelfTest t bank test => Sys2Proof.Machine.execMemorySelfTest t bank test s
  | .hardwareFault t ev => Sys2Proof.Machine.execHardwareFault t ev s
  | .faultResetEntry t => Sys2Proof.Machine.execFaultResetEntry t s
  | .resetExit t => Sys2Proof.Machine.execResetExit t s
  | .stewardStart t => Sys2Proof.Machine.execStewardStart t s
  | .startupConfigLoad t digestsOk engines => Sys2Proof.Machine.execStartupConfigLoad t digestsOk engines s
  | .roleSettle t => Sys2Proof.Machine.execRoleSettle t s
  | .autoStart t => Sys2Proof.Machine.execAutoStart t s
  | .pllLock t => Sys2Proof.Machine.execPllLock t s
  | .clockMonitorWindow t count => Sys2Proof.Machine.execClockMonitorWindow t count s
  | .clockJudgementTimeout t => Sys2Proof.Machine.execClockJudgementTimeout t s
  | .pllLossOfLock t => Sys2Proof.Machine.execPllLossOfLock t s
  | .rtcOscillatorStopped t => Sys2Proof.Machine.execRtcOscillatorStopped t s
  | .referenceAppears t => Sys2Proof.Machine.execReferenceAppears t s
  | .vsupValid t => Sys2Proof.Machine.execVsupValid t s
  | .holdUpCharged t => Sys2Proof.Machine.execHoldUpCharged t s
  | .vsupFail t => Sys2Proof.Machine.execVsupFail t s
  | .powerFailResetEntry t => Sys2Proof.Machine.execPowerFailResetEntry t s
  | .resetNAssert t => Sys2Proof.Machine.execResetNAssert t s
  | .resetNDeassert t => Sys2Proof.Machine.execResetNDeassert t s
  | .perstNAssert t => Sys2Proof.Machine.execPerstNAssert t s
  | .perstNDeassert t => Sys2Proof.Machine.execPerstNDeassert t s
  | .temperatureMeasure t centi => Sys2Proof.Machine.execTemperatureMeasure t centi s
  | .supervisorTimeout t g => Sys2Proof.Machine.execSupervisorTimeout t g s
  | .quietInAssert t => Sys2Proof.Machine.execQuietInAssert t s
  | .quietInDeassert t => Sys2Proof.Machine.execQuietInDeassert t s
  | .lplusLost t g => Sys2Proof.Machine.execLplusLost t g s
  | .lplusReturn t g volts10mV => Sys2Proof.Machine.execLplusReturn t g volts10mV s
  | .groupConfigReload t g => Sys2Proof.Machine.execGroupConfigReload t g s
  | .inputRawChange t ch level => Sys2Proof.Machine.execInputRawChange t ch level s
  | .inputFilterAccept t ch => Sys2Proof.Machine.execInputFilterAccept t ch s
  | .wireBreak t ch set => Sys2Proof.Machine.execWireBreak t ch set s
  | .currentLimit t ch on milliamp => Sys2Proof.Machine.execCurrentLimit t ch on milliamp s
  | .shortCircuit t ch thermal => Sys2Proof.Machine.execShortCircuit t ch thermal s
  | .groupOvercurrent t g milliamps => Sys2Proof.Machine.execGroupOvercurrent t g milliamps s
  | .demagEnergyMeasured t ch millijoule => Sys2Proof.Machine.execDemagEnergyMeasured t ch millijoule s
  | .rateHoldEnd t ch => Sys2Proof.Machine.execRateHoldEnd t ch s
  | .readbackDiscrepancy t ch set => Sys2Proof.Machine.execReadbackDiscrepancy t ch set s
  | .openLoad t ch set => Sys2Proof.Machine.execOpenLoad t ch set s
  | .engineFrame t g frame => Sys2Proof.Machine.execEngineFrame t g frame s
  | .spareConnect t => Sys2Proof.Machine.execSpareConnect t s
  | .spareScheduleStart t => Sys2Proof.Machine.execSpareScheduleStart t s
  | .analogueInputFlag t ch flag set => Sys2Proof.Machine.execAnalogueInputFlag t ch flag set s
  | .analogueOutputFault t ch flag set => Sys2Proof.Machine.execAnalogueOutputFault t ch flag set s
  | .canFrameReceived t k frame => Sys2Proof.Machine.execCanFrameReceived t k frame s
  | .canWindowOpen t k entry => Sys2Proof.Machine.execCanWindowOpen t k entry s
  | .canTxAttempt t k tdelay => Sys2Proof.Machine.execCanTxAttempt t k tdelay s
  | .canTxComplete t k result => Sys2Proof.Machine.execCanTxComplete t k result s
  | .canFrameWithdraw t k entry => Sys2Proof.Machine.execCanFrameWithdraw t k entry s
  | .canError t k err => Sys2Proof.Machine.execCanError t k err s
  | .canRecoveryComplete t k => Sys2Proof.Machine.execCanRecoveryComplete t k s
  | .canVplusLost t k => Sys2Proof.Machine.execCanVplusLost t k s
  | .canVplusReturn t k => Sys2Proof.Machine.execCanVplusReturn t k s
  | .rateDetectionDataTimeout t k => Sys2Proof.Machine.execRateDetectionDataTimeout t k s
  | .rateDetectionTimeout t k => Sys2Proof.Machine.execRateDetectionTimeout t k s
  | .dominantTimeOut t k => Sys2Proof.Machine.execDominantTimeOut t k s
  | .canRecover t k => Sys2Proof.Machine.execCanRecover t k s
  | .canTermWrite t k on => Sys2Proof.Machine.execCanTermWrite t k on s
  | .canDetStart t k => Sys2Proof.Machine.execCanDetStart t k s
  | .canDetAbort t k => Sys2Proof.Machine.execCanDetAbort t k s
  | .driverReset t val => Sys2Proof.Machine.execDriverReset t val s
  | .scanClrEcc t => Sys2Proof.Machine.execScanClrEcc t s
  | .scanClrPeak t => Sys2Proof.Machine.execScanClrPeak t s
  | .scanClrFev t => Sys2Proof.Machine.execScanClrFev t s
  | .npClrEv t => Sys2Proof.Machine.execNpClrEv t s
  | .nvProtWrite t val => Sys2Proof.Machine.execNvProtWrite t val s
  | .confirm t val => Sys2Proof.Machine.execConfirm t val s
  | .ownerKeyEnrol t val => Sys2Proof.Machine.execOwnerKeyEnrol t val s
  | .ownerKeyRevoke t val => Sys2Proof.Machine.execOwnerKeyRevoke t val s
  | .pairCfgWrite t val => Sys2Proof.Machine.execPairCfgWrite t val s
  | .rtcTrimWrite t val => Sys2Proof.Machine.execRtcTrimWrite t val s
  | .saddlebagWrite t w val => Sys2Proof.Machine.execSaddlebagWrite t w val s
  | .rtcGroupRead t reg path => Sys2Proof.Machine.execRtcGroupRead t reg path s
  | .rtcSnapshotExpiry t path => Sys2Proof.Machine.execRtcSnapshotExpiry t path s
  | .splitValueRead t pair => Sys2Proof.Machine.execSplitValueRead t pair s
  | .registerWrite t off val be => Sys2Proof.Machine.execRegisterWrite t off val be s
  | .apply t table bell => Sys2Proof.Machine.execApply t table bell s
  | .disable t => Sys2Proof.Machine.execDisable t s
  | .busMasterDisable t => Sys2Proof.Machine.execBusMasterDisable t s
  | .busMasterEnable t => Sys2Proof.Machine.execBusMasterEnable t s
  | .bellPoll t bell => Sys2Proof.Machine.execBellPoll t bell s
  | .bellIntervalEnd t => Sys2Proof.Machine.execBellIntervalEnd t s
  | .dmaFailure t target => Sys2Proof.Machine.execDmaFailure t target s
  | .heldCompletionWrite t q => Sys2Proof.Machine.execHeldCompletionWrite t q s
  | .unknownCommand t c e op => Sys2Proof.Machine.execUnknownCommand t c e op s
  | .waybillLoad t c e dma => Sys2Proof.Machine.execWaybillLoad t c e dma s
  | .admitWaybill t c e => Sys2Proof.Machine.execAdmit t c e s
  | .admissionComplete t ms => Sys2Proof.Machine.execAdmissionComplete t ms s
  | .start t c e => Sys2Proof.Machine.execStart t c e s
  | .startTick t => Sys2Proof.Machine.execStartTick t s
  | .stop t c e => Sys2Proof.Machine.execStop t c e s
  | .stopTick t => Sys2Proof.Machine.execStopTick t s
  | .stopSafeStates t => Sys2Proof.Machine.execStopSafeStates t s
  | .valueEdit t c e dma => Sys2Proof.Machine.execValueEdit t c e dma s
  | .editBatchApply t => Sys2Proof.Machine.execEditBatchApply t s
  | .swapStage t c e => Sys2Proof.Machine.execSwapStage t c e s
  | .swapDiscard t c e => Sys2Proof.Machine.execSwapDiscard t c e s
  | .swapCommit t c e => Sys2Proof.Machine.execSwapCommit t c e s
  | .swapSwitchTick t => Sys2Proof.Machine.execSwapSwitchTick t s
  | .swapRelease t c e => Sys2Proof.Machine.execSwapRelease t c e s
  | .swapRollback t c e => Sys2Proof.Machine.execSwapRollback t c e s
  | .rollbackTick t => Sys2Proof.Machine.execRollbackTick t s
  | .variableRead t c e => Sys2Proof.Machine.execVariableRead t c e s
  | .variableReadApply t => Sys2Proof.Machine.execVariableReadApply t s
  | .variableWriteAtRelease t c e => Sys2Proof.Machine.execVariableWriteAtRelease t c e s
  | .calibrationLowPoint t c e mean ok => Sys2Proof.Machine.execCalibrationLowPoint t c e mean ok s
  | .calibrationHighPoint t c e mean ok => Sys2Proof.Machine.execCalibrationHighPoint t c e mean ok s
  | .calibrationStore t c e => Sys2Proof.Machine.execCalibrationStore t c e s
  | .calibrationDiscard t c e => Sys2Proof.Machine.execCalibrationDiscard t c e s
  | .factoryCalibration t c e => Sys2Proof.Machine.execFactoryCalibration t c e s
  | .spareEngineReturn t c e => Sys2Proof.Machine.execSpareEngineReturn t c e s
  | .rtcSet t c e => Sys2Proof.Machine.execRtcSet t c e s
  | .rtcSetCommit t => Sys2Proof.Machine.execRtcSetCommit t s
  | .summerTimeAdd t c e => Sys2Proof.Machine.execSummerTimeAdd t c e s
  | .summerTimeSubtract t c e => Sys2Proof.Machine.execSummerTimeSubtract t c e s
  | .summerTimeStep t => Sys2Proof.Machine.execSummerTimeStep t s
  | .alarmSetUp t c e => Sys2Proof.Machine.execAlarmSetUp t c e s
  | .rtcSecond t => Sys2Proof.Machine.execRtcSecond t s
  | .countdownExpiry t => Sys2Proof.Machine.execCountdownExpiry t s
  | .backupVoltageLow t => Sys2Proof.Machine.execBackupVoltageLow t s
  | .nvRecordWrite t c e dma => Sys2Proof.Machine.execNvRecordWrite t c e dma s
  | .nvRecordRead t c e => Sys2Proof.Machine.execNvRecordRead t c e s
  | .nvPageProgramComplete t ok => Sys2Proof.Machine.execNvPageProgramComplete t ok s
  | .journalFold t => Sys2Proof.Machine.execJournalFold t s
  | .hoursIncrement t => Sys2Proof.Machine.execHoursIncrement t s
  | .guestbookRecordWrite t => Sys2Proof.Machine.execGuestbookRecordWrite t s
  | .guestbookRepeatRewrite t => Sys2Proof.Machine.execGuestbookRepeatRewrite t s
  | .guestbookRead t c e => Sys2Proof.Machine.execGuestbookRead t c e s
  | .publication t p => Sys2Proof.Machine.execPublication t p s
  | .pairSwitch t c e => Sys2Proof.Machine.execPairSwitch t c e s
  | .plannedSwitch t => Sys2Proof.Machine.execPlannedSwitch t s
  | .reversion t => Sys2Proof.Machine.execReversion t s
  | .confirmTimeout t => Sys2Proof.Machine.execConfirmTimeout t s
  | .resync t c e => Sys2Proof.Machine.execResync t c e s
  | .joinAttempt t arrived blockRoom => Sys2Proof.Machine.execJoinAttempt t arrived blockRoom s
  | .updateChunk t c e dma => Sys2Proof.Machine.execUpdateChunk t c e dma s
  | .activate t c e => Sys2Proof.Machine.execActivate t c e s
  | .attest t c e => Sys2Proof.Machine.execAttest t c e s
  | .trialConfirm t => Sys2Proof.Machine.execTrialConfirm t s
  | .postRoadLinkUp t => Sys2Proof.Machine.execPostRoadLinkUp t s
  | .postRoadLinkDown t => Sys2Proof.Machine.execPostRoadLinkDown t s
  | .helloSend t => Sys2Proof.Machine.execHelloSend t s
  | .hello t payload => Sys2Proof.Machine.execHello t payload s
  | .heartbeatSend t => Sys2Proof.Machine.execHeartbeatSend t s
  | .heartbeat t payload => Sys2Proof.Machine.execHeartbeat t payload s
  | .heartbeatMissing t => Sys2Proof.Machine.execHeartbeatMissing t s
  | .takeover t => Sys2Proof.Machine.execTakeover t s
  | .input t payload => Sys2Proof.Machine.execInput t payload s
  | .digest t payload => Sys2Proof.Machine.execDigest t payload s
  | .digestLate t => Sys2Proof.Machine.execDigestLate t s
  | .powerfail t payload => Sys2Proof.Machine.execPowerfail t payload s
  | .edit t payload => Sys2Proof.Machine.execEdit t payload s
  | .swap t payload => Sys2Proof.Machine.execSwap t payload s
  | .stopMessage t payload => Sys2Proof.Machine.execStopMessage t payload s
  | .switch t payload => Sys2Proof.Machine.execSwitch t payload s
  | .outstep t payload => Sys2Proof.Machine.execOutstep t payload s
  | .join t payload => Sys2Proof.Machine.execJoin t payload s
  | .proof t payload => Sys2Proof.Machine.execProof t payload s
  | .disc t payload => Sys2Proof.Machine.execDisc t payload s
  | .waybill t payload => Sys2Proof.Machine.execWaybill t payload s
  | .stream t block => Sys2Proof.Machine.execStream t block s
  | .inputDiscrepancy t ch set => Sys2Proof.Machine.execInputDiscrepancy t ch set s
  | .proofWindowOpen t ch => Sys2Proof.Machine.execProofWindowOpen t ch s
  | .proofWindowClose t ch milliamp => Sys2Proof.Machine.execProofWindowClose t ch milliamp s
  | .proofAgeUpdate t => Sys2Proof.Machine.execProofAgeUpdate t s
  | .stewardKey t key => Sys2Proof.Machine.execStewardKey t key s
  | .npWindowClose t => Sys2Proof.Machine.execNpWindowClose t s
  | .npSecondPeriodEnd t => Sys2Proof.Machine.execNpSecondPeriodEnd t s
  | .npResetEntry t => Sys2Proof.Machine.execNpResetEntry t s
  | .holdUpExhausted t => Sys2Proof.Machine.execHoldUpExhausted t s
  | .pairPresentChange t pins => Sys2Proof.Machine.execPairPresentChange t pins s
  | .pcieLinkDown t => Sys2Proof.Machine.execPcieLinkDown t s
  | .completionHeldTimeout t q => Sys2Proof.Machine.execCompletionHeldTimeout t q s
  | .msixUnmask t v => Sys2Proof.Machine.execMsixUnmask t v s
  | .updateChunkComplete t => Sys2Proof.Machine.execUpdateChunkComplete t s
  | .swapReleaseComplete t => Sys2Proof.Machine.execSwapReleaseComplete t s
  | .canPortIntegrated t k => Sys2Proof.Machine.execCanPortIntegrated t k s
  | .discardedSegment t => Sys2Proof.Machine.execDiscardedSegment t s

end Sys2Proof.Machine
end

