-- ==== Sys2Proof/WellFormed.lean ====
section
/-! DEFINITION. Which commands can arise at all: entry bytes, frame lengths and operand ranges that the spec's own formats fix. The
machine gives every command a meaning; these checks say which of them a real sender can form. -/

namespace Sys2Proof

/-- Bytes 4 to 63 of a command entry (R347). -/
def CmdEntry.sized (e : CmdEntry) : Bool := e.body.length == 60

/-- Bit 0 of FLAGS is the given one: it tells two rows of one opcode apart (R220, R228, R229, R424). -/
def CmdEntry.flag0 (e : CmdEntry) (b : Bool) : Bool := e.flags.getLsbD 0 == b

/-- Byte 5 holds the calibration step (R293). -/
def CmdEntry.step (e : CmdEntry) (n : Nat) : Bool := (e.body.getD 1 0).toNat == n

/-- Byte 5 holds no step of R292: such an entry is a discard that is refused (R294, 0x0130). -/
def CmdEntry.noStep (e : CmdEntry) : Bool := !([1, 2, 3, 4, 5].contains (e.body.getD 1 0).toNat)

/-- The payload lengths of CAN FD (R302); classic CAN has the first nine. -/
def canLengths : List Nat := [0, 1, 2, 3, 4, 5, 6, 7, 8, 12, 16, 20, 24, 32, 48, 64]

/-- A frame as ISO 11898-1 allows it: the identifier fits, the length exists, a remote frame carries nothing, BRS goes with FD. -/
def CanFrame.wf (f : CanFrame) : Bool :=
  (f.ide || decide (f.id.toNat < 2 ^ 11)) && canLengths.contains f.payload.length && (f.fd || decide (f.payload.length ≤ 8)) &&
  (!f.remote || (f.payload.isEmpty && !f.fd)) && (!f.brs || f.fd)

/-- The samples of an engine frame belong to channels of its group and end in a channel slot, 1 to 31 (R271, R273). -/
def EngineFrame.wf (f : EngineFrame) (g : GrpId) : Bool :=
  f.samples.all (fun x => grpOf x.ch == g && decide (1 ≤ x.slot) && decide (x.slot ≤ 31))

/-- Words of a memory under SECDED (R86 to R90). -/
def MemId.words : MemId → Nat
  | .code => 1048576
  | .data => 524288
  | .image => 131072
  | .regs => 3800
  | .steward => 393216

/-- The opcodes of R353. -/
def Instr.opcodes : List Nat :=
  [0x10, 0x11, 0x12, 0x13, 0x20, 0x21, 0x22, 0x23, 0x30, 0x31, 0x40, 0x41, 0x50, 0x51, 0x52, 0x60, 0x61, 0x70, 0x71, 0x80,
    0x81, 0x82, 0x90]

/-- The formats' own checks, command by command; a command without operands beyond fixed-width fields has none. -/
def Instr.wf : Instr → Bool
  | .scrubRead _ rd a _ => match rd with
    | .sweep => a == 0
    | .stewardSweep | .core => decide (a < MemId.steward.words)
    | .lane m => m != .steward && decide (a < m.words)
  | .groupOvercurrent _ _ ms => ms.length == 16
  | .engineFrame _ g f => f.wf g
  | .canFrameReceived _ _ f => f.wf
  | .ownerKeyEnrol _ v => v.toNat % 4 == 1
  | .ownerKeyRevoke _ v => v.toNat % 4 == 2
  | .invalidWordFetched _ _ w => (decodeLane 0 ⟨0, by decide⟩ w).isNone
  | .registerWrite _ off _ _ => off.toNat % 4 == 0
  | .startupConfigLoad _ _ es => es.length == 13
  | .unknownCommand _ _ e op => e.sized && !Instr.opcodes.contains op.toNat
  | .waybillLoad _ _ e _ => e.sized
  | .admitWaybill _ _ e => e.sized
  | .start _ _ e => e.sized
  | .stop _ _ e => e.sized
  | .valueEdit _ _ e _ => e.sized
  | .swapStage _ _ e => e.sized && e.flag0 false
  | .swapDiscard _ _ e => e.sized && e.flag0 true
  | .swapCommit _ _ e => e.sized && e.flag0 false
  | .swapRelease _ _ e => e.sized && e.flag0 true
  | .swapRollback _ _ e => e.sized
  | .variableRead _ _ e => e.sized
  | .variableWriteAtRelease _ _ e => e.sized
  | .calibrationLowPoint _ _ e _ _ => e.sized && e.step 1
  | .calibrationHighPoint _ _ e _ _ => e.sized && e.step 2
  | .calibrationStore _ _ e => e.sized && e.step 3
  | .calibrationDiscard _ _ e => e.sized && (e.step 4 || e.noStep)
  | .factoryCalibration _ _ e => e.sized && e.step 5
  | .spareEngineReturn _ _ e => e.sized
  | .rtcSet _ _ e => e.sized
  | .summerTimeAdd _ _ e => e.sized && e.flag0 false
  | .summerTimeSubtract _ _ e => e.sized && e.flag0 true
  | .alarmSetUp _ _ e => e.sized
  | .nvRecordWrite _ _ e _ => e.sized
  | .nvRecordRead _ _ e => e.sized
  | .guestbookRead _ _ e => e.sized
  | .pairSwitch _ _ e => e.sized
  | .resync _ _ e => e.sized
  | .updateChunk _ _ e _ => e.sized
  | .activate _ _ e => e.sized
  | .attest _ _ e => e.sized
  | .hello _ p => p.length == 32
  | .heartbeat _ p => p.length == 32
  | .powerfail _ p => decide (6 ≤ p.length)
  | .input _ p => decide (6 ≤ p.length)
  | .digest _ p => decide (6 ≤ p.length)
  | .edit _ p => decide (8 ≤ p.length)
  | .swap _ p => decide (11 ≤ p.length)
  | .stopMessage _ p => decide (6 ≤ p.length)
  | .switch _ p => decide (7 ≤ p.length)
  | .outstep _ p => decide (1 ≤ p.length)
  | .join _ p => decide (7 ≤ p.length)
  | .proof _ p => decide (9 ≤ p.length)
  | .disc _ p => p.length == 24
  | .waybill _ p => decide (4 ≤ p.length)
  | _ => true

end Sys2Proof
end

