-- ==== Sys2Proof/Safety.lean ====
section
/-! DEFINITION. The terms in which the statements speak: when an instruction is fetched and what its operand stage reads, what it
leaves as it was, completions and records, and the invariant of the memories. -/

namespace Sys2Proof.Machine

/-! ### Lane instructions -/

/-- The cycle in which an instruction of room r that falls due at t is fetched (R73). -/
def State.fetchCycle (s : State) (t : Nat) (r : RoomId) : Nat := s.fetchAt s.rooms[r].lane t

/-- The room as the operand stage of that instruction reads it, two cycles after the fetch (R73, R75). -/
def State.operands (s : State) (t : Nat) (r : RoomId) : Room := s.rooms[r].settle (s.fetchCycle t r + 2)

/-- A register once the load in flight, if it has one, is written (R75). -/
def Room.landed (v : Room) (g : Reg) : Word :=
  match v.load with
  | some f => if f.rd = g ∧ g ≠ 0 then f.val else v.get g
  | none => v.get g

/-- Z, N, C, V and B (R103, R104). -/
def Room.flags (v : Room) : Bool × Bool × Bool × Bool × Bool := (v.z, v.n, v.c, v.v, v.b)

/-- What every fetch does: time moves past the slot, the other rooms keep everything, the count of instructions rises, and an early
read arms the hardware fault of R97. -/
structure Fetched (s s' : State) (t : Nat) (r : RoomId) (early : Bool) : Prop where
  now : s'.now = s.fetchCycle t r + 1
  others : ∀ q : RoomId, q ≠ r → s'.rooms[q] = s.rooms[q]
  issued : s'.rooms[r].issued = s.rooms[r].issued + 1
  current : s'.scan.current[s.rooms[r].lane] = BitVec.ofNat 7 r.val
  broken : s'.rooms[r].broken = if early then s.rooms[r].broken <|> some (s.fetchCycle t r + 8, s.rooms[r].pc) else s.rooms[r].broken

/-- Of the whole machine nothing but rooms, time and the scan engine's figures is written: no memory, no image, no register of
another unit. -/
def OnlyRooms (s s' : State) : Prop := s' = { s with rooms := s'.rooms, now := s'.now, scan := s'.scan }

/-- Of its own room an instruction of the integer unit writes nothing but general registers, PC, flags and the fetch's own marks. -/
def RoomKept (v w : Room) : Prop :=
  w = { v with
    g := w.g
    load := w.load
    pc := w.pc
    z := w.z
    n := w.n
    c := w.c
    v := w.v
    b := w.b
    issued := w.issued
    broken := w.broken }

/-- Every general register but the destination keeps its value or takes that of the load in flight; g0 stays zero (R79). -/
def RegsKept (v w : Room) (rd : Reg) : Prop := ∀ g : Reg, g ≠ rd → w.get g = v.landed g

/-- The instruction runs, writes x to rd (nothing when rd is g0) and leaves the given flags; the PC advances by one. -/
def Writes (s : State) (t : Nat) (r : RoomId) (i : Instr) (early : Bool) (rd : Reg) (x : Word)
    (flags : Bool × Bool × Bool × Bool × Bool) : Prop :=
  ∃ s', exec i s = .next s' ∧
    Fetched s s' t r early ∧ OnlyRooms s s' ∧
    RoomKept (s.operands t r) s'.rooms[r] ∧ RegsKept (s.operands t r) s'.rooms[r] rd ∧
    s'.rooms[r].get rd = (if rd = 0 then 0 else x) ∧
    s'.rooms[r].flags = flags ∧ s'.rooms[r].pc = s.rooms[r].pc + 1

/-- The instruction runs, writes no general register, and leaves the given flags and PC. -/
def Leaves (s : State) (t : Nat) (r : RoomId) (i : Instr) (early : Bool) (flags : Bool × Bool × Bool × Bool × Bool)
    (pc : BitVec 20) : Prop :=
  ∃ s', exec i s = .next s' ∧
    Fetched s s' t r early ∧ OnlyRooms s s' ∧
    RoomKept (s.operands t r) s'.rooms[r] ∧ (∀ g : Reg, s'.rooms[r].get g = (s.operands t r).landed g) ∧
    s'.rooms[r].flags = flags ∧ s'.rooms[r].pc = pc

/-- Flags with Z and N from a result, the others kept (R103). -/
def Room.zn (v : Room) (x : Word) : Bool × Bool × Bool × Bool × Bool := (x == 0, x.msb, v.c, v.v, v.b)

/-- Flags of an exact sum or difference e with carry c: V when the signed value does not fit (R103). -/
def Room.arith (v : Room) (x : Word) (c : Bool) (e : Int) : Bool × Bool × Bool × Bool × Bool :=
  (x == 0, x.msb, c, x.toInt != e, v.b)

/-- Flags of a shift by n: C the last bit out, kept for a count of 0 (R135). -/
def Room.shifted (v : Room) (x : Word) (n : Nat) (last : Bool) : Bool × Bool × Bool × Bool × Bool :=
  (x == 0, x.msb, if n = 0 then v.c else last, v.v, v.b)

/-- Address a of the room reaches byte m of the data memory: bit 23 selects the window, and a lies inside it (R88). -/
def Room.Reaches (v : Room) (a m : Nat) : Prop :=
  (a < 2 ^ 23 ∧ a < v.privLen ∧ m = v.privBase + a) ∨ (2 ^ 23 ≤ a ∧ a < 2 ^ 24 ∧ a - 2 ^ 23 < v.retLen ∧ m = v.retBase + (a - 2 ^ 23))

/-- The newest guestbook record is of this type, source and severity, and its event is of this instant (R457, R461). -/
def State.recorded (s : State) (typ src : Nat) (sev : BitVec 2) : Prop :=
  ∃ e, s.gb.last = some e ∧ e.typ = typ ∧ e.source = src ∧ e.sev = sev ∧ s.gb.lastAt = s.now

/-- The access is reported (R89): both OOW bits, and a fault record of type 0x13 with the room. Nothing but rooms, time, scan figures,
the guestbook and the marks of bits set in this cycle (R9) is written. -/
def ReportedOow (s s' : State) (r : RoomId) : Prop :=
  s'.rooms[r].oow = true ∧ s'.scan.oow = true ∧ s'.recorded 0x13 r.val sevFault ∧
    s' = { s with rooms := s'.rooms, now := s'.now, scan := s'.scan, gb := s'.gb, marks := s'.marks }

/-- In its own room: PC + 1, flags kept, every general register but those in rds kept. -/
structure RoomStep (s s' : State) (t : Nat) (r : RoomId) (early : Bool) (rds : List Reg) : Prop where
  fetched : Fetched s s' t r early
  regs : ∀ g : Reg, ¬ g ∈ rds → s'.rooms[r].get g = (s.operands t r).landed g
  pc : s'.rooms[r].pc = s.rooms[r].pc + 1
  arith : s'.rooms[r].acc = (s.operands t r).acc ∧ s'.rooms[r].mlo = (s.operands t r).mlo ∧ s'.rooms[r].mhi = (s.operands t r).mhi ∧
    s'.rooms[r].frs = (s.operands t r).frs ∧ s'.rooms[r].quo = (s.operands t r).quo ∧ s'.rooms[r].rem = (s.operands t r).rem
  zncv : (s'.rooms[r].z, s'.rooms[r].n, s'.rooms[r].c, s'.rooms[r].v) =
    ((s.operands t r).z, (s.operands t r).n, (s.operands t r).c, (s.operands t r).v)

/-! ### The invariant -/

/-- Every memory has its canonical form, and the stored g0 of every room is 0 (R79). -/
structure State.Inv (s : State) : Prop where
  dmem : s.dmem.wf = true
  pend : s.img.pend.wf = true
  com : s.img.com.wf = true
  canRx : s.img.canRx.wf = true
  frozen : s.img.frozen.wf = true
  nv : s.nv.mem.wf = true
  words : s.pair.words.wf = true
  table : s.host.msixTable.wf = true
  snap : ∀ r : RoomId, s.rooms[r].snap.wf = true
  zero : ∀ r : RoomId, s.rooms[r].g[0] = 0

/-! ### Events and time -/

/-- The instant of a command: time never runs backwards. -/
def State.then (s : State) (t : Nat) : Nat := max s.now t

/-- What the rooms see is as it was: rooms, data memory and image. -/
def LanesKept (s s' : State) : Prop := s'.rooms = s.rooms ∧ s'.dmem = s.dmem ∧ s'.img = s.img

/-- The field channels, groups and ports are as they were. -/
def FieldKept (s s' : State) : Prop := s'.chans = s.chans ∧ s'.groups = s.groups ∧ s'.spare = s.spare ∧ s'.cans = s.cans

/-- A hardware fault has been detected in this instant with a cause, and is the first (R98, R99): evidence, lanes stopped, FAULT_N at most
1 µs later, nothing left in the pipeline, and a
critical record once the steward runs. -/
def State.faultedNow (s : State) (cause : BitVec 8) : Prop :=
  s.scan.faulted = true ∧ s.scan.fcause = cause ∧ s.scan.faultAt = s.now ∧ s.scan.lanes = false ∧
    (∃ x, s.pwr.faultAt = some x ∧ x ≤ s.now + usCycles) ∧ s.pwr.faultHold = true ∧ s.scan.flights = [] ∧
    (s.scan.fev[0]).setWidth 8 = cause ∧ (s.steward = true → s.recorded 0x03 cause.toNat sevCritical)

/-- Every room that a configuration assigns waits with its registers zero; the others are unused (R80, R81). -/
def State.SetUpFor (s : State) (c : Conf) : Prop :=
  (∀ r : RoomId, r.val ∉ c.an.rooms → s.rooms[r] = Room.init) ∧
    ∀ (r : RoomId) (i : Nat), i < c.way.tasks.length → c.an.rooms[i]? = some r.val → s.rooms[r].st = .waiting ∧ ∀ g : Reg, s.rooms[r].get g = 0

/-! ### Registers -/

/-- The W1C bits of the registers of BAR0 that stand once, by byte offset (R71, R368, R415, R433, R456, R300, R404, R101, R492). -/
def w1cRegisters : List (Nat × Nat) :=
  [(0x400, 0x204), (0x804, 0x3C), (0x100C, 8), (0x1400, 0x318), (0x1800, 0x2C), (0x3C00, 0x80), (0x4008, 0x3FF), (0x5800, 0xE), (0x6000, 4)]

/-- The W1C bits of a group's block (R266, R300). -/
def w1cOfGroup : List (Nat × Nat) :=
  [(0, 0x70), (0x14, 0xFFFF0000), (0x18, 0xFFFF0000), (0x1C, 0xFFFF0000), (0x20, 0xFFFF0000), (0x24, 0xFFFF), (0x80, 0x30), (0x8C, 0xFFFF0000),
    (0x90, 0xFFFF0000)]

/-! ### Driver commands -/

/-- A command of ring c begins and its completion finds room: the rings run and may be accessed, nothing of the ring is in progress or
held, and no power failure is under way (R346, R348, R351, R50). -/
def State.CanAnswer (s : State) (c : RingId) : Prop :=
  s.mayBegin c = true ∧ s.pwr.pfwarn = false ∧ s.host.cqRoom (s.host.cqOf c) = true

/-- The command as the module refers to it (R347). -/
def State.refOf (s : State) (c : RingId) (e : CmdEntry) (op : Nat) : CmdRef := { ring := c, tag := e.tag, op := BitVec.ofNat 8 op, gen := s.host.gen }

/-- The state in which a command of ring c has just been taken: it is in progress, and CMDHEAD has advanced and is told to the host (R343, R346). -/
def State.taken (s : State) (t : Nat) (c : RingId) (e : CmdEntry) (op : Nat) : State :=
  { s with
    now := s.then t
    out := s.out ++ [.bell (0x800 + 4 * c.val) (s.host.cmdHead[c] + 1).toNat]
    host := { s.host with
      cmdHead := s.host.cmdHead.set c.val (s.host.cmdHead[c] + 1) c.isLt
      inProg := s.host.inProg.set c.val (some (s.refOf c e op)) c.isLt } }

/-- None of the refusals of a list applies (R348). -/
def Passes (ks : List Check) : Prop := ∀ k ∈ ks, k.1 = false

/-- The command has been taken and awaits something: it is in progress, and CMDHEAD has advanced (R343, R346). -/
def Awaits (s s' : State) (c : RingId) (e : CmdEntry) (op : Nat) : Prop :=
  s'.host.inProg[c] = some { ring := c, tag := e.tag, op := BitVec.ofNat 8 op, gen := s.host.gen } ∧
    s'.host.cmdHead[c] = s.host.cmdHead[c] + 1

/-- The entry of Qq's next index is written at its place in host memory: bytes 0 to 14 by one request and byte 15, with PHASE, by the next
(R339, R349, R350). -/
def CompletionWritten (s s' : State) (q : RingId) (bs : List Byte) : Prop :=
  let i := (s.host.cqTail[q]).toNat
  let a := (vget s.host.rings (8 + q.val) RingCfg.init).entryAddr 16 i
  bs.length = 16 ∧ [Out.completion q i a (bs.take 15), Out.completion q i (a + 15) (bs.drop 15)] <:+: s'.out.drop s.out.length

/-- The command has been taken and completed: nothing is in progress, and a completion with its tag, a status and the first eight bytes
of a result stands at the next place of its completion ring (R349). -/
def Answers (s s' : State) (c : RingId) (e : CmdEntry) (status : BitVec 16) (result : List Byte) : Prop :=
  s'.host.inProg[c] = none ∧ s'.host.cmdHead[c] = s.host.cmdHead[c] + 1 ∧
    ∃ bs, CompletionWritten s s' (s.host.cqOf c) bs ∧ u16 bs 0 = e.tag.toNat ∧ u16 bs 2 = status.toNat ∧ slice bs 4 8 = slice result 0 8

/-- The command that ref stands for, which awaited its end, ends: nothing is in progress on its ring, and its completion with a status and the
first eight bytes of a result stands at the next place, whenever the completion ring has room and nothing is held (R349, R351). -/
def Finishes (s s' : State) (ref : CmdRef) (status : BitVec 16) (result : List Byte) : Prop :=
  s.host.active = true → s.host.inProg[ref.ring] = some ref →
    s'.host.inProg[ref.ring] = none ∧
      (s.host.busMaster = true → s.host.cqRoom (s.host.cqOf ref.ring) = true → s.host.heldC[s.host.cqOf ref.ring] = [] →
        ∃ bs, CompletionWritten s s' (s.host.cqOf ref.ring) bs ∧
          u16 bs 0 = ref.tag.toNat ∧ u16 bs 2 = status.toNat ∧ slice bs 4 8 = slice result 0 8)

end Sys2Proof.Machine
end

