-- ==== Sys2Proof/Certificates/Slice0/Obligations.lean ====
section
/-! DEFINITION. The statements for the provers. -/

open Sys2Proof Sys2Proof.Machine

/-- In a room that can issue, each of the seven runs at its fetch cycle, writes the 32-bit sum or difference to rd (CMP and CMPI write no
register), sets Z, N, C and V from the exact result, keeps B, and advances the PC by one. Frame: no other room, no memory and no other
unit is written; every other register keeps its value or takes that of the load in flight; g0 stays 0. From 06_dammaxel_catalogue: R134,
R136; 05_dammaxel_model: R103. -/
def Obligations.IntegerArithmeticResults : Prop :=
  ∀ (s : State) (t : Nat) (r : RoomId) (rd ra rb : Reg) (imm : BitVec 16), s.canIssue r = true →
    let v := s.operands t r
    let a := v.get ra
    let b := v.get rb
    let k : Word := imm.signExtend 32
    let sum (y : Word) (n : Nat) := v.arith (a + y + BitVec.ofNat 32 n) (decide (2 ^ 32 ≤ a.toNat + y.toNat + n)) (a.toInt + y.toInt + n)
    let dif (y : Word) (n : Nat) := v.arith (a - y - BitVec.ofNat 32 n) (decide (y.toNat + n ≤ a.toNat)) (a.toInt - y.toInt - n)
    let cy := if v.c then 1 else 0
    Writes s t r (.add t r rd ra rb) (loadPending [ra, rb] v) rd (a + b) (sum b 0) ∧
    Writes s t r (.sub t r rd ra rb) (loadPending [ra, rb] v) rd (a - b) (dif b 0) ∧
    Writes s t r (.adc t r rd ra rb) (loadPending [ra, rb] v) rd (a + b + BitVec.ofNat 32 cy) (sum b cy) ∧
    Writes s t r (.sbc t r rd ra rb) (loadPending [ra, rb] v) rd (a - b - BitVec.ofNat 32 (1 - cy)) (dif b (1 - cy)) ∧
    Writes s t r (.addi t r rd ra imm) (loadPending [ra] v) rd (a + k) (sum k 0) ∧
    Leaves s t r (.cmp t r ra rb) (loadPending [ra, rb] v) (dif b 0) (v.pc + 1) ∧
    Leaves s t r (.cmpi t r ra imm) (loadPending [ra] v) (dif k 0) (v.pc + 1)

/-- Each runs in a room that can issue and writes the given function of its operands to rd; the logic and minimum/maximum forms set Z and
N, the others leave every flag; the PC advances by one. Frame: no other room, no memory and no other unit is written; every other register
keeps its value or takes that of the load in flight; g0 stays 0. From 06_dammaxel_catalogue: R134, R136. -/
def Obligations.LogicAndSelectResults : Prop :=
  ∀ (s : State) (t : Nat) (r : RoomId) (rd ra rb : Reg) (imm : BitVec 16), s.canIssue r = true →
    let v := s.operands t r
    let a := v.get ra
    let b := v.get rb
    let k : Word := imm.setWidth 32
    let lo := if a.toInt ≤ b.toInt then a else b
    let hi := if a.toInt ≤ b.toInt then b else a
    let lou := if a.toNat ≤ b.toNat then a else b
    let hiu := if a.toNat ≤ b.toNat then b else a
    Writes s t r (.and t r rd ra rb) (loadPending [ra, rb] v) rd (a &&& b) (v.zn (a &&& b)) ∧
    Writes s t r (.or t r rd ra rb) (loadPending [ra, rb] v) rd (a ||| b) (v.zn (a ||| b)) ∧
    Writes s t r (.xor t r rd ra rb) (loadPending [ra, rb] v) rd (a ^^^ b) (v.zn (a ^^^ b)) ∧
    Writes s t r (.andn t r rd ra rb) (loadPending [ra, rb] v) rd (a &&& ~~~b) (v.zn (a &&& ~~~b)) ∧
    Writes s t r (.min t r rd ra rb) (loadPending [ra, rb] v) rd lo (v.zn lo) ∧
    Writes s t r (.max t r rd ra rb) (loadPending [ra, rb] v) rd hi (v.zn hi) ∧
    Writes s t r (.minu t r rd ra rb) (loadPending [ra, rb] v) rd lou (v.zn lou) ∧
    Writes s t r (.maxu t r rd ra rb) (loadPending [ra, rb] v) rd hiu (v.zn hiu) ∧
    Writes s t r (.andi t r rd ra imm) (loadPending [ra] v) rd (a &&& k) (v.zn (a &&& k)) ∧
    Writes s t r (.ori t r rd ra imm) (loadPending [ra] v) rd (a ||| k) (v.zn (a ||| k)) ∧
    Writes s t r (.xori t r rd ra imm) (loadPending [ra] v) rd (a ^^^ k) (v.zn (a ^^^ k)) ∧
    Writes s t r (.sel t r rd ra rb) (loadPending [ra, rb] v) rd (if v.b then a else b) v.flags ∧
    Writes s t r (.getb t r rd) false rd (if v.b then 1 else 0) v.flags ∧
    Writes s t r (.lui t r rd imm) false rd (k <<< 16) v.flags ∧
    Leaves s t r (.nop t r) false v.flags (v.pc + 1)

/-- Shifts by rb[4:0] or an immediate set Z, N and C (C kept for a count of 0); TST copies a bit into B; BEXT, BINS and BOOL3 are given
bit by bit, with the flags each sets. Frame: no other room, no memory and no other unit is written; every other register keeps its value
or takes that of the load in flight; g0 stays 0. From 06_dammaxel_catalogue: R134, R135, R136, R137, R141. -/
def Obligations.ShiftAndFieldResults : Prop :=
  ∀ (s : State) (t : Nat) (r : RoomId) (rd ra rb rc : Reg) (n p w : BitVec 5) (tt : Byte), s.canIssue r = true →
    let v := s.operands t r
    let a := v.get ra
    let k := (v.get rb).toNat % 32
    let last (l : Bool) (j : Nat) : Bool := if l then a.getLsbD (32 - j) else a.getLsbD (j - 1)
    let shl (i : Instr) (reads : List Reg) (j : Nat) := Writes s t r i (loadPending reads v) rd (a <<< j) (v.shifted (a <<< j) j (last true j))
    let shr (i : Instr) (reads : List Reg) (j : Nat) := Writes s t r i (loadPending reads v) rd (a >>> j) (v.shifted (a >>> j) j (last false j))
    let sar (i : Instr) (reads : List Reg) (j : Nat) :=
      Writes s t r i (loadPending reads v) rd (a.sshiftRight j) (v.shifted (a.sshiftRight j) j (last false j))
    shl (.shl t r rd ra rb) [ra, rb] k ∧ shr (.shr t r rd ra rb) [ra, rb] k ∧ sar (.sar t r rd ra rb) [ra, rb] k ∧
    shl (.shli t r rd ra n) [ra] n.toNat ∧ shr (.shri t r rd ra n) [ra] n.toNat ∧ sar (.sari t r rd ra n) [ra] n.toNat ∧
    Leaves s t r (.tst t r ra n) (loadPending [ra] v) (v.z, v.n, v.c, v.v, a.getLsbD n.toNat) (v.pc + 1) ∧
    (∃ x : Word, (∀ j < 32, x.getLsbD j = (decide (j ≤ w.toNat) && a.getLsbD (p.toNat + j))) ∧
      Writes s t r (.bext t r rd ra p w) (loadPending [ra] v) rd x (v.zn x)) ∧
    (∃ x : Word, (∀ j < 32, x.getLsbD j =
        if p.toNat ≤ j ∧ j ≤ p.toNat + w.toNat then a.getLsbD (j - p.toNat) else (v.get rd).getLsbD j) ∧
      Writes s t r (.bins t r rd ra p w) (loadPending [rd, ra] v) rd x v.flags) ∧
    (∃ x : Word, (∀ j < 32, x.getLsbD j =
        tt.getLsbD (4 * (a.getLsbD j).toNat + 2 * ((v.get rb).getLsbD j).toNat + ((v.get rc).getLsbD j).toNat)) ∧
      Writes s t r (.bool3 t r rd ra rb rc tt) (loadPending [ra, rb, rc] v) rd x (x == 0, v.n, v.c, v.v, x.getLsbD 0))

/-- A taken branch continues at its own index plus the signed 21-bit offset, a branch not taken at the next index, for all seventeen
conditions; LOOP decrements rd and branches while it is not 0; LPI and LPR set the bound, LPR clamped between 1 and its BOUND entry with
V; JTAB goes to the entry after itself, at most imm. Frame: no other room, no memory and no other unit is written; every other register
keeps its value or takes that of the load in flight; g0 stays 0. From R111. -/
def Obligations.ControlTransfers : Prop :=
  ∀ (s : State) (t : Nat) (r : RoomId) (rd ra : Reg) (cond : Cond) (off : BitVec 21) (imm : BitVec 16), s.canIssue r = true →
    let v := s.operands t r
    let a := v.get ra
    let dst : BitVec 20 := BitVec.ofInt 20 (v.pc.toNat + off.toInt)
    let holds : Bool := match cond with
      | .al => true
      | .eq => v.z
      | .ne => !v.z
      | .lt => v.n != v.v
      | .ge => v.n == v.v
      | .le => v.z || v.n != v.v
      | .gt => !v.z && v.n == v.v
      | .lo => !v.c
      | .hs => v.c
      | .ls => !v.c || v.z
      | .hi => v.c && !v.z
      | .mi => v.n
      | .pl => !v.n
      | .vs => v.v
      | .vc => !v.v
      | .bt => v.b
      | .bf => !v.b
    Leaves s t r (.b t r cond off) false v.flags (if holds then dst else v.pc + 1) ∧
    (∃ s', exec (.loop t r rd off) s = .next s' ∧ Fetched s s' t r (loadPending [rd] v) ∧ OnlyRooms s s' ∧
      RoomKept v s'.rooms[r] ∧ RegsKept v s'.rooms[r] rd ∧ s'.rooms[r].get rd = (if rd = 0 then 0 else v.get rd - 1) ∧
      s'.rooms[r].flags = v.flags ∧ s'.rooms[r].pc = if v.get rd - 1 = 0 then v.pc + 1 else dst) ∧
    Writes s t r (.lpi t r rd imm) false rd (imm.setWidth 32) v.flags ∧
    (∀ c b, s.app.cur = some c → c.way.bound[imm.toNat]? = some b → 1 ≤ b → b < 2 ^ 32 →
      Writes s t r (.lpr t r rd ra imm) (loadPending [ra] v) rd (BitVec.ofNat 32 (max 1 (min a.toNat b)))
        (v.z, v.n, v.c, a.toNat == 0 || decide (b < a.toNat), v.b)) ∧
    Leaves s t r (.jtab t r ra imm) (loadPending [ra] v) v.flags (BitVec.ofNat 20 (v.pc.toNat + 1 + min a.toNat imm.toNat))

/-- R112, R138, R88, R89, R75: data-memory loads. The value comes into rd at c + 14; outside the windows it is zero and reported. -/
def Stated.DataLoads : Prop :=
  ∀ (s : State) (t : Nat) (r : RoomId) (rd ra : Reg) (imm : BitVec 16), s.canIssue r = true →
    let v := s.operands t r
    let x := (v.get ra + imm.signExtend 32).toNat
    let d := s.dmem
    let load (i : Instr) (a : Nat) (val : Nat → Word) : Prop := ∃ s', exec i s = .next s' ∧
      RoomStep s s' t r (loadPending [ra] v) [] ∧ s'.rooms[r].b = v.b ∧
      (∀ m, v.Reaches a m → OnlyRooms s s' ∧ RoomKept v s'.rooms[r] ∧
        s'.rooms[r].load = some { due := s.fetchCycle t r + 14, rd := rd, val := val m }) ∧
      ((∀ m, ¬ v.Reaches a m) → ReportedOow s s' r ∧ s'.rooms[r].load = some { due := s.fetchCycle t r + 14, rd := rd, val := 0 })
    load (.lw t r rd ra imm) (x / 4 * 4) (fun m => d.get (m + 3) ++ d.get (m + 2) ++ d.get (m + 1) ++ d.get m) ∧
    load (.lh t r rd ra imm) (x / 2 * 2) (fun m => (d.get (m + 1) ++ d.get m).signExtend 32) ∧
    load (.lhu t r rd ra imm) (x / 2 * 2) (fun m => (d.get (m + 1) ++ d.get m).setWidth 32) ∧
    load (.lby t r rd ra imm) x (fun m => (d.get m).signExtend 32) ∧
    load (.lbyu t r rd ra imm) x (fun m => (d.get m).setWidth 32)

/-- R112, R138, R88, R89, R447: data-memory stores, every byte of memory accounted for. -/
def Stated.DataStores : Prop :=
  ∀ (s : State) (t : Nat) (r : RoomId) (rd ra : Reg) (imm : BitVec 16), s.Inv → s.canIssue r = true →
    let v := s.operands t r
    let x := (v.get ra + imm.signExtend 32).toNat
    let store (i : Instr) (n : Nat) : Prop := ∃ s', exec i s = .next s' ∧
      RoomStep s s' t r (loadPending [rd, ra] v) [] ∧ s'.rooms[r].b = v.b ∧
      (∀ m, v.Reaches (x / n * n) m →
        s' = { s with rooms := s'.rooms, now := s'.now, scan := s'.scan, dmem := s'.dmem } ∧
        (∀ y, s'.dmem.get y = if m ≤ y ∧ y < m + n then (v.get rd).extractLsb' (8 * (y - m)) 8 else s.dmem.get y) ∧
        (x < 2 ^ 23 → s'.rooms[r].dirty = v.dirty ∧ s'.rooms[r].changed = v.changed) ∧
        (2 ^ 23 ≤ x → ∃ e ∈ s'.rooms[r].dirty, e.1 = (x - 2 ^ 23) / 64)) ∧
      ((∀ m, ¬ v.Reaches (x / n * n) m) → ReportedOow s s' r)
    store (.sw t r rd ra imm) 4 ∧ store (.sh t r rd ra imm) 2 ∧ store (.sby t r rd ra imm) 1

/-- An aligned address inside a window reaches one place of the data memory: loads put its value, extended, into flight for cycle c + 14;
stores write exactly their 1, 2 or 4 bytes there, every other byte of data memory stays, and a store into the retained window marks its
64-byte block. Outside the windows a load gives 0, a store writes nothing, and the access is reported. From 04_scan_engine: R75, R88, R89;
05_dammaxel_model: R112; 06_dammaxel_catalogue: R138. -/
def Obligations.DataMemoryAccess : Prop := Stated.DataLoads ∧ Stated.DataStores

/-- R187, R190, R191, R195: where a byte that a room loads from the image comes from. -/
def Stated.ImageByteSources : Prop :=
  ∀ (s : State) (r : RoomId) (a : Nat),
    let own := s.writable r a
    let out := (0x2000 ≤ a ∧ a < 0x2400) ∨ (0x40000 ≤ a ∧ a < 0x4C000) ∨
      (0x1000 ≤ a ∧ a < 0x1300 ∧ ∃ e, s.chanCfg ((a - 0x1000) / 4) = some e ∧ (e.mode = 8 ∨ e.mode = 9 ∨ 0x20 ≤ e.mode ∧ e.mode ≤ 0x22))
    (a < 0xC00 → s.imageByte r a = s.rooms[r].snap.get a) ∧
    (out → own = true → s.imageByte r a = s.img.pend.get a) ∧
    (out → own = false → s.imageByte r a = s.img.com.get a) ∧
    (0xC00 ≤ a → ¬ out → s.imageByte r a = 0)

/-- R72, R191, R204: a load whose memory stage falls at the next commit or later returns what that commit writes, also when its fetch came
before. -/
def Stated.ImageBytesAtCommit : Prop :=
  ∀ (s : State) (r : RoomId) (a cyc : Nat) (c : Conf), s.app.cur = some c →
    let n := (s.tb + (cyc - s.now)) / 20000
    let others := 0xC00 ≤ a ∧ s.outputArea a = true ∧ s.writable r a = false
    let stamps (i : Nat) : Prop := ∃ k b, c.task i = some k ∧ k.pubLen ≠ 0 ∧ c.an.pubBase[i]? = some b ∧ b ≤ a ∧ a < b + 4
    (n ≤ s.cycle → s.imageByteAt cyc r a = s.imageByte r a) ∧
    (¬ others → s.imageByteAt cyc r a = s.imageByte r a) ∧
    (s.cycle < n → others →
      ((∃ i ∈ s.img.closed, c.owns i (a / 4 * 4) = true) → s.imageByteAt cyc r a = s.img.frozen.get a) ∧
      ((∀ i ∈ s.img.closed, c.owns i (a / 4 * 4) = false ∧ ¬ stamps i) → s.imageByteAt cyc r a = s.img.com.get a) ∧
      (∀ i ∈ s.img.closed, ∀ b, stamps i → c.an.pubBase[i]? = some b → (∀ j ∈ s.img.closed, stamps j → j = i) →
        (∀ j ∈ s.img.closed, c.owns j (a / 4 * 4) = false) →
        s.imageByteAt cyc r a = (BitVec.ofNat 32 n).extractLsb' (8 * (a - b)) 8))

/-- R113, R138, R114, R89: image loads and the load of one bit. -/
def Stated.ImageLoads : Prop :=
  ∀ (s : State) (t : Nat) (r : RoomId) (rd ra : Reg) (imm : BitVec 16), s.canIssue r = true →
    let v := s.operands t r
    let x := (v.get ra + imm.signExtend 32).toNat
    let d := (s.at (s.fetchCycle t r + 1)).imageByteAt (s.fetchCycle t r + 5) r
    let load (i : Instr) (a : Nat) (val : Word) : Prop :=
      (a < 2 ^ 19 → Writes s t r i (loadPending [ra] v) rd val v.flags) ∧
      (2 ^ 19 ≤ a → ∃ s', exec i s = .next s' ∧ RoomStep s s' t r (loadPending [ra] v) [rd] ∧ s'.rooms[r].b = v.b ∧
        s'.rooms[r].get rd = 0 ∧ ReportedOow s s' r)
    let w := x / 4 * 4
    let h := x / 2 * 2
    load (.ilw t r rd ra imm) w (d (w + 3) ++ d (w + 2) ++ d (w + 1) ++ d w) ∧
    load (.ilh t r rd ra imm) h ((d (h + 1) ++ d h).signExtend 32) ∧
    load (.ilhu t r rd ra imm) h ((d (h + 1) ++ d h).setWidth 32) ∧
    load (.ilby t r rd ra imm) x ((d x).signExtend 32) ∧
    load (.ilbyu t r rd ra imm) x ((d x).setWidth 32) ∧
    (x < 2 ^ 22 → Writes s t r (.ldb t r rd ra imm) (loadPending [ra] v) rd (if (d (x / 8)).getLsbD (x % 8) then 1 else 0)
      (v.z, v.n, v.c, v.v, (d (x / 8)).getLsbD (x % 8))) ∧
    (2 ^ 22 ≤ x → ∃ s', exec (.ldb t r rd ra imm) s = .next s' ∧ RoomStep s s' t r (loadPending [ra] v) [rd] ∧
      s'.rooms[r].get rd = 0 ∧ s'.rooms[r].b = false ∧ ReportedOow s s' r)

/-- Below 0xC00 a room reads its snapshot; output words, transmit bytes and publication bytes read pending for their owner and committed
for others; all else reads 0. A load whose memory stage, five cycles after the fetch, falls at a commit or later reads what it commits. The
five loads and LDB return these bytes by width; an address beyond the image gives 0 and is reported. Frame: no other room, no memory and no other unit is written; every other register keeps its value or takes that of the load in flight; g0
stays 0. From 08_cycle_image_time: R187, R190, R191, R195, R204; 05_dammaxel_model: R113, R114; 06_dammaxel_catalogue: R138; 04_scan_engine:
R72, R89. -/
def Obligations.ImageReads : Prop := Stated.ImageByteSources ∧ Stated.ImageBytesAtCommit ∧ Stated.ImageLoads

/-- A store to a word of the room's write set changes exactly its bytes (STB, SET and RST exactly one bit) of the pending image and marks
the output channel written; outside the write set nothing of the image changes and the access is reported; SET and RST do nothing when B
is 0. From 04_scan_engine: R89, R90; 06_dammaxel_catalogue: R138, R139; 08_cycle_image_time: R192. -/
def Obligations.ImageStores : Prop :=
  ∀ (s : State) (t : Nat) (r : RoomId) (rd ra : Reg) (imm : BitVec 16), s.Inv → s.canIssue r = true →
    let v := s.operands t r
    let x := (v.get ra + imm.signExtend 32).toNat
    let frame (s' : State) (a : Nat) : Prop :=
      s' = { s with rooms := s'.rooms, now := s'.now, scan := s'.scan, img := s'.img } ∧
      s'.img = { s.img with pend := s'.img.pend, written := s'.img.written } ∧ RoomKept v s'.rooms[r] ∧
      (∀ n, n ∈ s'.img.written ↔ n ∈ s.img.written ∨ (0x1000 ≤ a ∧ a < 0x1300 ∧ n = (a - 0x1000) / 4))
    let store (i : Instr) (n : Nat) : Prop := ∃ s', exec i s = .next s' ∧ RoomStep s s' t r (loadPending [rd, ra] v) [] ∧ s'.rooms[r].b = v.b ∧
      (s.writable r (x / n * n) = true → frame s' (x / n * n) ∧
        ∀ y, s'.img.pend.get y = if x / n * n ≤ y ∧ y < x / n * n + n then (v.get rd).extractLsb' (8 * (y - x / n * n)) 8 else s.img.pend.get y) ∧
      (s.writable r (x / n * n) = false → ReportedOow s s' r)
    let bit1 (i : Instr) (reads : List Reg) (q : Bool) : Prop := ∃ s', exec i s = .next s' ∧ RoomStep s s' t r (loadPending reads v) [] ∧
      s'.rooms[r].b = v.b ∧
      (x < 2 ^ 22 → s.writable r (x / 8) = true → frame s' (x / 8) ∧
        ∀ y, ∀ k < 8, (s'.img.pend.get y).getLsbD k = if y = x / 8 ∧ k = x % 8 then q else (s.img.pend.get y).getLsbD k) ∧
      ((2 ^ 22 ≤ x ∨ s.writable r (x / 8) = false) → ReportedOow s s' r)
    store (.isw t r rd ra imm) 4 ∧ store (.ish t r rd ra imm) 2 ∧ store (.isby t r rd ra imm) 1 ∧
    bit1 (.stb t r rd ra imm) [rd, ra] ((v.get rd).getLsbD 0) ∧
    (v.b = true → bit1 (.set t r ra imm) [ra] true ∧ bit1 (.rst t r ra imm) [ra] false) ∧
    (v.b = false → Leaves s t r (.set t r ra imm) (loadPending [ra] v) v.flags (v.pc + 1) ∧
      Leaves s t r (.rst t r ra imm) (loadPending [ra] v) v.flags (v.pc + 1))

/-- R140, R196: EDGE gives the snapshot's counts of a Type 1 or Type 3 input, zero for any other address of the map. -/
def Stated.EdgeCounts : Prop :=
  ∀ (s : State) (t : Nat) (r : RoomId) (rd ra : Reg) (imm : BitVec 16), s.canIssue r = true →
    let v := s.operands t r
    let x := (v.get ra + imm.signExtend 32).toNat
    let input (n : Nat) : Prop := n < 192 ∧ x = 0x3000 + 32 * (n / 16) + n % 16 ∧ ∃ e, s.chanCfg n = some e ∧ (e.mode = 1 ∨ e.mode = 2)
    let edge (i : Instr) (count : Nat → Nat) : Prop :=
      (∀ n, input n → Writes s t r i (loadPending [ra] v) rd (BitVec.ofNat 32 (count n)) (v.z, v.n, v.c, v.v, count n != 0)) ∧
      ((∀ n, ¬ input n) → x < 2 ^ 22 → Writes s t r i (loadPending [ra] v) rd 0 (v.z, v.n, v.c, v.v, false)) ∧
      (2 ^ 22 ≤ x → ∃ s', exec i s = .next s' ∧ RoomStep s s' t r (loadPending [ra] v) [rd] ∧ s'.rooms[r].get rd = 0 ∧
        s'.rooms[r].b = false ∧ ReportedOow s s' r)
    let rise (n : Nat) := (v.snap.get (8 * n + 1) ++ v.snap.get (8 * n)).toNat
    let fall (n : Nat) := (v.snap.get (8 * n + 3) ++ v.snap.get (8 * n + 2)).toNat
    edge (.edgeR t r rd ra imm) rise ∧ edge (.edgeF t r rd ra imm) fall ∧ edge (.edgeA t r rd ra imm) (fun n => rise n + fall n)

/-- R146 to R150: timers and counters on their 16-byte records. -/
def Stated.TimersAndCounters : Prop :=
  ∀ (s : State) (t : Nat) (r : RoomId) (rd ra : Reg) (imm : BitVec 16), s.Inv → s.canIssue r = true →
    let v := s.operands t r
    let a := (v.get ra + imm.signExtend 32).toNat / 16 * 16
    let now := v.relTb.toNat / 400 % 2 ^ 48
    let record (i : Instr) (old new : List Byte) (x : Nat) (q : Bool) : Prop :=
      (∀ m, v.Reaches a m → old = s.dmem.read m 16 → ∃ s', exec i s = .next s' ∧ RoomStep s s' t r (loadPending [ra] v) [rd] ∧
        s' = { s with rooms := s'.rooms, now := s'.now, scan := s'.scan, dmem := s'.dmem } ∧
        (∀ y, s'.dmem.get y = if m ≤ y ∧ y < m + 16 then byteAt new (y - m) else s.dmem.get y) ∧
        s'.rooms[r].get rd = (if rd = 0 then 0 else BitVec.ofNat 32 x) ∧ s'.rooms[r].b = q) ∧
      ((∀ m, ¬ v.Reaches a m) → old = List.replicate 16 0 → ∃ s', exec i s = .next s' ∧ RoomStep s s' t r (loadPending [ra] v) [rd] ∧
        ReportedOow s s' r ∧ s'.rooms[r].get rd = (if rd = 0 then 0 else BitVec.ofNat 32 x) ∧ s'.rooms[r].b = q)
    (∀ (old : List Byte) (pt et t0 d : Nat) (inp run : Bool),
      pt = u32 old 0 → et = u32 old 4 → t0 = u48 old 8 → (d + t0) % 2 ^ 48 = now → d < 2 ^ 48 → inp = (byteAt old 14).getLsbD 0 →
      run = (byteAt old 14).getLsbD 2 →
      let new (et t0 : Nat) (q run : Bool) : List Byte :=
        toLe 4 pt ++ toLe 4 et ++ toLe 6 t0 ++ [BitVec.ofNat 8 (v.b.toNat + 2 * q.toNat + 4 * run.toNat), 0]
      let out (i : Instr) (et t0 : Nat) (q run : Bool) : Prop := record i old (new et t0 q run) et q
      (v.b = true → inp = true → out (.ton t r rd ra imm) (min d pt) t0 (decide (pt ≤ d)) run) ∧
      (v.b = true → inp = false → out (.ton t r rd ra imm) 0 now (decide (pt = 0)) run) ∧
      (v.b = false → out (.ton t r rd ra imm) 0 t0 false run) ∧
      (v.b = true → out (.tof t r rd ra imm) 0 t0 true false) ∧
      (v.b = false → inp = true → out (.tof t r rd ra imm) 0 now (decide (0 < pt)) (decide (0 < pt))) ∧
      (v.b = false → inp = false → run = true → out (.tof t r rd ra imm) (min d pt) t0 (decide (d < pt)) (decide (d < pt))) ∧
      (v.b = false → inp = false → run = false → out (.tof t r rd ra imm) et t0 false false) ∧
      (run = true → out (.tp t r rd ra imm) (min d pt) t0 (decide (d < pt)) (decide (d < pt))) ∧
      (run = false → v.b = true → inp = false → out (.tp t r rd ra imm) 0 now (decide (0 < pt)) (decide (0 < pt))) ∧
      (run = false → v.b = true → inp = true → out (.tp t r rd ra imm) et t0 false false) ∧
      (run = false → v.b = false → out (.tp t r rd ra imm) 0 t0 false false) ∧
      (v.b = true → inp = true → out (.tacc t r rd ra imm) (min (et + d) pt) now (decide (pt ≤ et + d)) run) ∧
      (v.b = true → inp = false → out (.tacc t r rd ra imm) et now (decide (pt ≤ et)) run) ∧
      (v.b = false → out (.tacc t r rd ra imm) et t0 (decide (pt ≤ et)) run)) ∧
    (∀ (old : List Byte) (pv cv : Word), pv = BitVec.ofNat 32 (u32 old 0) → cv = BitVec.ofNat 32 (u32 old 4) →
      let edge := v.b = true ∧ (byteAt old 8).getLsbD 0 = false
      let out (i : Instr) (cv : Word) (q : Bool) : Prop :=
        record i old (toLe 4 pv.toNat ++ toLe 4 cv.toNat ++ [BitVec.ofNat 8 v.b.toNat, 0, 0, 0, 0, 0, 0, 0]) cv.toNat q
      (∀ w, w = (if edge ∧ cv ≠ 0x7FFFFFFF then cv + 1 else cv) → out (.ctu t r rd ra imm) w (decide (pv.toInt ≤ w.toInt))) ∧
      (∀ w, w = (if edge ∧ cv ≠ 0x80000000 then cv - 1 else cv) → out (.ctd t r rd ra imm) w (decide (w.toInt ≤ 0))))

/-- EDGE gives the snapshot's counts of a Type 1 or Type 3 input and B, 0 for any other address, and a report beyond the map. TON, TOF, TP
and TACC by every case of B, the stored input and the running bit, and CTU and CTD with saturation, write their whole 16-byte record, rd
and B; outside the windows they act on zeros, write no record, and the access is reported. The record bytes written are exact and all
other data memory stays. From 06_dammaxel_catalogue: R140, R146, R147, R148, R149, R150; 08_cycle_image_time: R196. -/
def Obligations.EdgesTimersCounters : Prop := Stated.EdgeCounts ∧ Stated.TimersAndCounters

/-- R77, R78, R143, R144, R119, R123, R124: an operation of the arithmetic units is accepted at once and delivers at its cycle; on L0 to
L5 it writes nothing. -/
def Stated.ArithmeticIssue : Prop :=
  ∀ (s : State) (t : Nat) (r : RoomId) (ra rb : Reg), s.canIssue r = true →
    let v := s.operands t r
    let a := v.get ra
    let b := v.get rb
    let c := s.fetchCycle t r
    let issue (i : Instr) (reads : List Reg) (w' : Room → Prop) : Prop :=
      (v.lane.val < 6 → Leaves s t r i false v.flags (v.pc + 1)) ∧
      (6 ≤ v.lane.val → ∃ s', exec i s = .next s' ∧ Fetched s s' t r (loadPending reads v) ∧ OnlyRooms s s' ∧
        (∀ g : Reg, s'.rooms[r].get g = v.landed g) ∧ s'.rooms[r].flags = v.flags ∧ s'.rooms[r].pc = s.rooms[r].pc + 1 ∧
        s'.rooms[r].mlo = v.mlo ∧ s'.rooms[r].mhi = v.mhi ∧ s'.rooms[r].frs = v.frs ∧ s'.rooms[r].quo = v.quo ∧ s'.rooms[r].rem = v.rem ∧
        w' s'.rooms[r])
    let product (i : Instr) (x : DWord) : Prop := issue i [ra, rb] (fun w => w.acc = x ∧ w.macQ.Perm ((c + 24, x) :: v.macQ) ∧
      w.fpuQ = v.fpuQ ∧ w.divQ = v.divQ)
    let float (i : Instr) (reads : List Reg) (lat : Nat) (x : Word) : Prop := issue i reads (fun w =>
      w.fpuQ.Perm ((c + lat, x) :: v.fpuQ) ∧ w.acc = v.acc ∧ w.macQ = v.macQ ∧ w.divQ = v.divQ)
    let quotient (i : Instr) (q m : Word) : Prop := issue i [ra, rb] (fun w => w.divQ.Perm ((c + 144, q, m) :: v.divQ) ∧
      w.acc = v.acc ∧ w.macQ = v.macQ ∧ w.fpuQ = v.fpuQ)
    product (.mul t r ra rb) (BitVec.ofInt 64 (a.toInt * b.toInt)) ∧
    product (.mulu t r ra rb) (BitVec.ofNat 64 (a.toNat * b.toNat)) ∧
    product (.mac t r ra rb) (BitVec.ofInt 64 (v.acc.toInt + a.toInt * b.toInt)) ∧
    product (.macu t r ra rb) (BitVec.ofNat 64 (v.acc.toNat + a.toNat * b.toNat)) ∧
    float (.fadd t r ra rb) [ra, rb] 32 (fAdd a b) ∧
    float (.fsub t r ra rb) [ra, rb] 32 (fSub a b) ∧
    float (.fmul t r ra rb) [ra, rb] 32 (fMul a b) ∧
    float (.fdiv t r ra rb) [ra, rb] 96 (fDiv a b) ∧
    float (.fmin t r ra rb) [ra, rb] 32 (fMin a b) ∧
    float (.fmax t r ra rb) [ra, rb] 32 (fMax a b) ∧
    float (.fcmp t r ra rb) [ra, rb] 32 (fCmp a b) ∧
    float (.itof t r ra) [ra] 32 (itof a) ∧
    float (.utof t r ra) [ra] 32 (utof a) ∧
    float (.ftoi t r ra) [ra] 32 (ftoi a) ∧
    (∀ q m : Word, (if b = 0 then q = 0xFFFFFFFF ∧ m = a
        else if a = 0x80000000 ∧ b = 0xFFFFFFFF then q = 0x80000000 ∧ m = 0
        else a.toInt = q.toInt * b.toInt + m.toInt ∧ m.toInt.natAbs < b.toInt.natAbs ∧ (m = 0 ∨ m.msb = a.msb)) →
      quotient (.div t r ra rb) q m) ∧
    (∀ q m : Word, (if b = 0 then q = 0xFFFFFFFF ∧ m = a else a.toNat = q.toNat * b.toNat + m.toNat ∧ m.toNat < b.toNat) →
      quotient (.divu t r ra rb) q m)

/-- R123, R145: binary32 operands and results at their corners: one quiet NaN, infinities, signed zeros, comparison codes, conversions. -/
def Stated.FloatCorners : Prop :=
  ∀ a b : Word,
    let nan (x : Word) : Prop := x.toNat / 2 ^ 23 % 256 = 255 ∧ x.toNat % 2 ^ 23 ≠ 0
    let inf (x : Word) : Prop := x = 0x7F800000 ∨ x = 0xFF800000
    let zero (x : Word) : Prop := x = 0 ∨ x = 0x80000000
    ((nan a ∨ nan b) → fAdd a b = 0x7FC00000 ∧ fSub a b = 0x7FC00000 ∧ fMul a b = 0x7FC00000 ∧ fDiv a b = 0x7FC00000 ∧ fCmp a b = 3) ∧
    (inf a → inf b → (fAdd a b = if a = b then a else 0x7FC00000) ∧ fDiv a b = 0x7FC00000) ∧
    (inf a → zero b → fMul a b = 0x7FC00000) ∧
    (zero a → zero b → fDiv a b = 0x7FC00000 ∧ fCmp a b = 0) ∧
    (¬ nan a → ¬ nan b → ¬ zero a → fCmp a b = 0 → a = b) ∧
    (nan a → nan b → fMin a b = 0x7FC00000 ∧ fMax a b = 0x7FC00000) ∧
    (nan a → ¬ nan b → fMin a b = b ∧ fMax a b = b ∧ fMin b a = b ∧ fMax b a = b) ∧
    (nan a → ftoi a = 0) ∧ ftoi 0x7F800000 = 0x7FFFFFFF ∧ ftoi 0xFF800000 = 0x80000000 ∧
    (a.toNat < 2 ^ 24 → ftoi (itof a) = a ∧ ftoi (utof a) = a)

/-- R75, R76, R78: a result due is written to the room's special result registers at its cycle, whichever room issues; a load's value is
seen after its cycle and not before. -/
def Stated.ResultWrites : Prop :=
  ∀ (s : State) (t : Nat) (r : RoomId) (d : Nat), d ≤ max s.now t →
    let v := s.rooms[r]
    (∀ (x : DWord) (rest : List (Nat × DWord)), v.macQ = (d, x) :: rest → (∀ e ∈ rest, max s.now t < e.1) →
      ∃ s', exec (.macResultWrite t r) s = .next s' ∧ s' = { s with now := max s.now t, rooms := s'.rooms } ∧
        s'.rooms = s.rooms.set r.val { v with mlo := x.setWidth 32, mhi := (x >>> 32).setWidth 32, macQ := rest }) ∧
    (∀ (x : Word) (rest : List (Nat × Word)), v.fpuQ = (d, x) :: rest → (∀ e ∈ rest, max s.now t < e.1) →
      ∃ s', exec (.fpuResultWrite t r) s = .next s' ∧ s' = { s with now := max s.now t, rooms := s'.rooms } ∧
        s'.rooms = s.rooms.set r.val { v with frs := x, fpuQ := rest }) ∧
    (∀ (q m : Word) (rest : List (Nat × Word × Word)), v.divQ = (d, q, m) :: rest → (∀ e ∈ rest, max s.now t < e.1) →
      ∃ s', exec (.dividerResultWrite t r) s = .next s' ∧ s' = { s with now := max s.now t, rooms := s'.rooms } ∧
        s'.rooms = s.rooms.set r.val { v with quo := q, rem := m, divQ := rest }) ∧
    (∀ (f : LoadFlight) (cyc : Nat), v.load = some f →
      (v.settle cyc).get f.rd = if f.due < cyc ∧ f.rd ≠ 0 then f.val else v.get f.rd)

/-- On L6 and L7 an operation is accepted, its result arrives 24, 32, 96 or 144 cycles after the fetch, and nothing else changes; on L0 to
L5 it writes nothing. Quotient and remainder satisfy the division identity with the sign of the dividend, with the two corners of the
divider. A result due is written to MLO and MHI, FRS, QUO and REM by its write event. Binary32 corners: one quiet NaN, infinities, signed
zeros, comparison codes, conversions. From R124. -/
def Obligations.ArithmeticUnits : Prop := Stated.ArithmeticIssue ∧ Stated.ResultWrites ∧ Stated.FloatCorners

/-- MFS reads each special result register (early when one is in flight); MTS writes exactly the one it names, and MLO or MHI also its
half of the accumulator; RDFEAT writes a feature word whose bit 7 of FEAT0 tells a lane with arithmetic units. From 05_dammaxel_model:
R122, R131; 06_dammaxel_catalogue: R151. -/
def Obligations.SpecialMoves : Prop :=
  ∀ (s : State) (t : Nat) (r : RoomId) (rd ra : Reg), s.canIssue r = true →
    let v := s.operands t r
    let a := v.get ra
    Writes s t r (.mfs t r rd .mlo) (!v.macQ.isEmpty) rd v.mlo v.flags ∧
    Writes s t r (.mfs t r rd .mhi) (!v.macQ.isEmpty) rd v.mhi v.flags ∧
    Writes s t r (.mfs t r rd .frs) (!v.fpuQ.isEmpty) rd v.frs v.flags ∧
    Writes s t r (.mfs t r rd .quo) (!v.divQ.isEmpty) rd v.quo v.flags ∧
    Writes s t r (.mfs t r rd .rem) (!v.divQ.isEmpty) rd v.rem v.flags ∧
    (∀ p : Spr, ∃ s', exec (.mts t r p ra) s = .next s' ∧ Fetched s s' t r (loadPending [ra] v) ∧ OnlyRooms s s' ∧
      (∀ g : Reg, s'.rooms[r].get g = v.landed g) ∧ s'.rooms[r].flags = v.flags ∧ s'.rooms[r].pc = s.rooms[r].pc + 1 ∧
      s'.rooms[r].mlo = (if p = .mlo then a else v.mlo) ∧ s'.rooms[r].mhi = (if p = .mhi then a else v.mhi) ∧
      s'.rooms[r].frs = (if p = .frs then a else v.frs) ∧ s'.rooms[r].quo = (if p = .quo then a else v.quo) ∧
      s'.rooms[r].rem = (if p = .rem then a else v.rem) ∧
      s'.rooms[r].acc = (if p = .mlo then v.acc.extractLsb' 32 32 ++ a else if p = .mhi then a ++ v.acc.setWidth 32 else v.acc)) ∧
    (∀ k : Fin 4, ∃ x : Word, Writes s t r (.rdfeat t r rd k) false rd x v.flags ∧
      (k = 0 → x.getLsbD 7 = decide (6 ≤ v.lane.val)))

/-- REST makes the room wait at its entry from its write-back on and keeps registers and flags; WDK with the key in the open window is accepted for the
supervisor's room and does nothing elsewhere; a word that is no instruction and LPR without its entry write nothing and advance the PC.
From 04_scan_engine: R81; 06_dammaxel_catalogue: R152, R153; 05_dammaxel_model: R109, R126. -/
def Obligations.RestWdkAndInvalidWords : Prop :=
  ∀ (s : State) (t : Nat) (r : RoomId) (ra : Reg) (rd : Reg) (imm : BitVec 16) (w : Word), s.canIssue r = true →
    let v := s.operands t r
    Leaves s t r (.invalidWordFetched t r w) false v.flags (v.pc + 1) ∧
    ((∀ c, s.app.cur = some c → c.way.bound[imm.toNat]? = none) → Leaves s t r (.lpr t r rd ra imm) false v.flags (v.pc + 1)) ∧
    (∀ i, s.taskOf r = some i → ∃ s', exec (.rest t r) s = .next s' ∧ Fetched s s' t r false ∧
      (∀ x, s'.rooms[r].stAt x = if s.fetchCycle t r + 7 ≤ x then .waiting else .ready) ∧ s'.canIssue r = false ∧
      s'.rooms[r].pc = s.entryPc i ∧ s'.rooms[r].restDone = s.fetchCycle t r + 7 ∧ (∀ g : Reg, s'.rooms[r].get g = v.landed g) ∧
      s'.rooms[r].flags = v.flags ∧ s'.dmem = s.dmem ∧ s'.img = s.img) ∧
    ((∀ c, s.app.cur = some c → s.roomOf c.way.super ≠ some r) → Leaves s t r (.wdk t r ra) (loadPending [ra] v) v.flags (v.pc + 1)) ∧
    (∀ c, s.app.cur = some c → s.roomOf c.way.super = some r → s.np.expired = false →
      let p := ({ s with now := s.fetchCycle t r + 5 } : State).tb
      s.np.appok = false → s.np.start + s.np.open'.toNat ≤ p → p < s.np.start + s.np.close.toNat → (v.get ra).toNat % 2 ^ 16 = 0x3C5A →
      ∃ s', exec (.wdk t r ra) s = .next s' ∧ RoomStep s s' t r (loadPending [ra] v) [] ∧ s'.rooms[r].b = v.b ∧
        s'.np.appok = true ∧ s'.np.lastApp = BitVec.ofNat 64 p ∧ s' = { s with rooms := s'.rooms, now := s'.now, scan := s'.scan, np := s'.np })

/-- R81, R184, R185: a base tick takes the next cycle number, and a waiting room whose task is due there becomes READY at its entry with
the tick's TB; here for ticks at which no task commits, as the tick of a start. -/
def Stated.BaseTickReleases : Prop :=
  ∀ (s : State) (t : Nat), s.awake = true →
    ∃ s', exec (.baseTick t) s = .next s' ∧ s'.cycle = s.cycle + 1 ∧ s'.now = max (s.then t) (s.cycleOfTb (20000 * (s.cycle + 1))) ∧
      (s.halted = false → s.pwr.pf = .none → s.app.stop = none → s.edits.swap = .none → s.pair.reqSwitch = none → s.pair.role ≠ 2 →
        (∀ i, s.commitsNow i (s.cycle + 1) = false) →
        ∀ (c : Conf) (i : Nat) (r : RoomId), s.app.cur = some c → i < c.way.tasks.length → s.roomOf i = some r →
          (∀ j, s.roomOf j = some r → j = i) → s.releasedAt i (s.cycle + 1) = true → s.rooms[r].stAt s'.now = .waiting →
          s'.rooms[r].st = .ready ∧ s'.rooms[r].restAt = none ∧ s'.rooms[r].relTb = BitVec.ofNat 64 s'.tb ∧ s'.rooms[r].pc = s.entryPc i ∧
          s'.rooms[r].g = s.rooms[r].g ∧ s'.rooms[r].flags = s.rooms[r].flags ∧ s'.rooms[r].firstRel = false)

/-- R85, R16, R185 steps 1 and 2: at a deadline a room that has not completed REST is an overrun, a hardware fault of cause 0x07; else the words the task
owns freeze with their pending values. -/
def Stated.TaskDeadlineJudges : Prop :=
  ∀ (s : State) (t : Nat) (r : RoomId) (c : Conf) (i : Nat), s.Inv → s.awake = true → s.halted = false → s.pwr.pf = .none →
    s.app.cur = some c → s.taskOf r = some i → s.commitsNow i (s.cycle + 1) = true → s.img.closed.contains i = false →
    ∃ s', exec (.taskDeadline t r) s = .next s' ∧ s'.img.com = s.img.com ∧
      (s.rooms[r].ready = true ∨ s.cycleOfTb (20000 * (s.cycle + 1) - 800) ≤ s.rooms[r].restDone → s'.faultedNow 7) ∧
      (s.rooms[r].ready = false → s.rooms[r].restDone < s.cycleOfTb (20000 * (s.cycle + 1) - 800) →
        s'.scan = s.scan ∧ s'.img.pend = s.img.pend ∧ s'.dmem = s.dmem ∧ s'.rooms = s.rooms ∧ s'.img.closed = s.img.closed ++ [i] ∧
        ∀ a, ((a % 4 = 0 ∧ a < 0x2400 ∧ c.owns i a = true) ∨
            (∃ b tk k, c.an.pubBase[i]? = some b ∧ c.task i = some tk ∧ k < tk.pubLen / 4 ∧ a = b + 4 + 4 * k)) → ∀ k < 4, s'.img.frozen.get (a + k) = s.img.pend.get (a + k))

/-- R185, R186, R192, R193, R203, R260: at the scheduled instant the group holds the handed-over values as committed and follows them. -/
def Stated.OutputCommitApplies : Prop :=
  ∀ (s : State) (t : Nat) (g : GrpId) (n : ChanId) (w : Word) (tick : Nat) (e : ChanCfg), grpOf n = g → s.chans[n].recv = some (w, tick) →
    (∀ m : ChanId, grpOf m = g → s.chans[m].recv = none ∨ ∃ x, s.chans[m].recv = some (x, tick)) →
    s.chans[n].cfg = some e → s.groups[g].lplus = true → s.groups[g].cfg = true →
    ∃ s', exec (.outputCommitApply t g) s = .next s' ∧ s'.now = max (s.then t) (s.cycleOfTb tick) ∧ s'.chans[n].recv = none ∧
      s'.chans[n].lastCom = some w ∧ s'.chans[n].follow = true ∧ LanesKept s s' ∧
      (∀ m : ChanId, grpOf m ≠ g → s'.chans[m] = s.chans[m]) ∧
      (e.mode = 8 ∨ e.mode = 9 → s.pwr.quietIn = false → s.groups[g].relief = false → s.chans[n].held = false → e.eoff = 0 →
        s'.chans[n].drive = w.getLsbD 0)

/-- A base tick takes the next cycle number; at a tick at which no task commits, a waiting room whose task is due becomes READY at its
entry with the tick's TB. At a deadline a READY room is an overrun (hardware fault 0x07); a room that rested in time has its words frozen.
At the scheduled instant a group takes the words handed over, and a digital output follows its bit. The order within a tick is log entry
22. From 04_scan_engine: R81, R85; 08_cycle_image_time: R184, R185, R186; 10_digital_channels: R260. -/
def Obligations.CycleSequencer : Prop := Stated.BaseTickReleases ∧ Stated.TaskDeadlineJudges ∧ Stated.OutputCommitApplies

/-- R74, R92 to R96, R98, R99: maintenance slots, scrubbing, reads through the corrector and self-test. -/
def Stated.ScrubAndSelfTest : Prop :=
  ∀ (s : State) (t : Nat) (k : LaneId) (m : MemId) (a : Nat) (bank : Nat) (x : SelfTest),
    (∃ s', exec (.maintenanceSlot t k) s = .next s' ∧ LanesKept s s' ∧
      (s.scan.lanes = true → s'.scan.current[k] = 127 ∧ s'.scan.writeBack = [])) ∧
    (s.awake = true → s.halted = false →
      let corrected (s' : State) (m : MemId) (a : Nat) : Prop := LanesKept s s' ∧ s'.scan.sbe = true ∧ s'.scan.faulted = s.scan.faulted ∧
        s'.scan.eccAddr = BitVec.ofNat 20 a ∧ (m, a) ∈ s'.scan.writeBack
      ((s.at t).scrubSlot = true → ∀ q w, sweepWord s.scan.scrubbed = (q, w) →
        (∃ s', exec (.scrubRead t .sweep a .clean) s = .next s' ∧ LanesKept s s' ∧ s'.scan.sbe = s.scan.sbe ∧
          (s.scan.scrubbed + 1 < 1707736 → s'.scan.scrubbed = s.scan.scrubbed + 1 ∧ s'.scan.sweeps = s.scan.sweeps) ∧
          (1707736 ≤ s.scan.scrubbed + 1 → s'.scan.scrubbed = 0 ∧ s'.scan.sweeps = s.scan.sweeps + 1)) ∧
        (∃ s', exec (.scrubRead t .sweep a .single) s = .next s' ∧ corrected s' q w) ∧
        (s.usedWord q w = true → ∃ s', exec (.scrubRead t .sweep a .double) s = .next s' ∧ s'.faultedNow 8) ∧
        (s.usedWord q w = false → s.Inv → ∃ s', exec (.scrubRead t .sweep a .double) s = .next s' ∧ s'.scan.faulted = s.scan.faulted ∧
          s'.rooms = s.rooms ∧ (∀ y, s'.dmem.get y = if q = .data ∧ 4 * w ≤ y ∧ y < 4 * w + 4 then 0 else s.dmem.get y))) ∧
      ((s.at t).scrubSlot = false → ∀ res, exec (.scrubRead t .sweep a res) s = .next (s.at t)) ∧
      (a < memWords m → m ≠ .steward →
        exec (.scrubRead t (.lane m) a .clean) s = .next (s.at t) ∧
        (∃ s', exec (.scrubRead t (.lane m) a .single) s = .next s' ∧ corrected s' m a) ∧
        (∃ s', exec (.scrubRead t (.lane m) a .double) s = .next s' ∧ s'.faultedNow 8)) ∧
      (a < memWords .steward →
        (∃ s', exec (.scrubRead t .stewardSweep a .single) s = .next s' ∧ corrected s' .steward a) ∧
        (∃ s', exec (.scrubRead t .core a .double) s = .next s' ∧ s'.faultedNow 8)) ∧
      ((s.at t).testSlot = true →
        (x.back = x.pattern → x.one = .single → x.two = .double →
          ∃ s', exec (.memorySelfTest t bank x) s = .next s' ∧ LanesKept s s' ∧ s'.scan.faulted = s.scan.faulted ∧
            (bank, x.pattern) ∈ s'.scan.tests) ∧
        (x.back ≠ x.pattern ∨ x.one ≠ .single ∨ x.two ≠ .double →
          ∃ s', exec (.memorySelfTest t bank x) s = .next s' ∧ s'.faultedNow 8)) ∧
      ((s.at t).testSlot = false → exec (.memorySelfTest t bank x) s = .next (s.at t)))

/-- R98 step 1: of the writes under way in the cycle of a hardware fault none of a later stage takes effect: a byte that a store would write
later is as it was, and a room whose one instruction in the pipeline has not reached write-back is at that instruction again. -/
def Stated.WritesCutAt (s s' : State) : Prop :=
  ((∀ u ∈ s.scan.undo, u.at' ≤ s'.now) → s'.dmem = s.dmem ∧ s'.img = s.img) ∧
  (s.Inv → ∀ u ∈ s.scan.undo, s'.now < u.at' → (∀ w ∈ s.scan.undo, s'.now < w.at' → w.image = u.image → w.addr = u.addr → w = u) →
    (if u.image then s'.img.pend.get u.addr else s'.dmem.get u.addr) = u.old) ∧
  (∀ q : RoomId, (∀ f ∈ s.scan.flights, f.room = q → f.at' + 7 ≤ s'.now) → s'.rooms[q] = s.rooms[q].cut s'.now) ∧
  (∀ f, s.scan.flights.filter (fun f => decide (s'.now < f.at' + 7)) = [f] →
    s'.rooms[f.room].pc = f.before.pc ∧ s'.rooms[f.room].flags = f.before.flags)

/-- R97 to R99, R16, R34, R66: hardware faults, of which the first latches its evidence and a later one only sets MORE; the reset that
follows 1 ms later carries its cause. -/
def Stated.HardwareFaults : Prop :=
  ∀ (s : State) (t : Nat) (r : RoomId) (ev : FaultEvidence), s.awake = true →
    (s.halted = false → 7 ≤ ev.cause → ev.cause ≤ 9 → ∃ s', exec (.hardwareFault t ev) s = .next s' ∧ s'.faultedNow ev.cause ∧
      Stated.WritesCutAt s s' ∧ s'.scan.fev[1] = ev.pc.setWidth 32 ∧ s'.scan.fev[2] = ev.addr.setWidth 32) ∧
    (s.scan.faulted = true → s.scan.faultAt < s.then t → 7 ≤ ev.cause → ev.cause ≤ 9 → ∃ s', exec (.hardwareFault t ev) s = .next s' ∧
      s'.scan.fcause = s.scan.fcause ∧ (s'.scan.fev[0]).getLsbD 22 = true ∧ ∀ k, k ≠ 22 → (s'.scan.fev[0]).getLsbD k = (s.scan.fev[0]).getLsbD k) ∧
    (∀ c pc, s.rooms[r].broken = some (c, pc) → s.halted = false → ∃ s', exec (.distanceRuleBroken t r) s = .next s' ∧ s'.faultedNow 9 ∧
      s'.rooms[r].broken = none ∧ s'.scan.fev[1] = pc.setWidth 32 ∧ s'.now = max (s.then t) c) ∧
    (s.scan.faulted = true → s.np.expired = false → s.scan.fcause ≠ 1 → ∃ s', exec (.faultResetEntry t) s = .next s' ∧ s'.phase = .inReset ∧
      s'.clk.cause = s.scan.fcause ∧ s'.clk.prev = s.clk.cause ∧ s'.now = max (s.then t) (s.scan.faultAt + 400000) ∧ s'.pwr.faultN = true ∧
      s'.dmem = [] ∧ s'.rooms = Vector.replicate 100 Room.init ∧ s'.scan.fev = s.scan.fev ∧ s'.nv.mem = s.nv.mem ∧ s'.app.stored = s.app.stored)

/-- R100, R101, R415: SCAN_CLR and NP_CLR clear what they name and nothing else of their registers. -/
def Stated.EvidenceClears : Prop :=
  ∀ (s : State) (t : Nat), s.steward = true →
    (∃ s', exec (.scanClrEcc t) s = .next s' ∧ s'.scan.ecc = Vector.replicate 5 0 ∧ s'.scan.eccAddr = 0 ∧ s'.scan.eccMem = 0 ∧
      s'.scan.sbe = s.scan.sbe ∧ s'.scan.fev = s.scan.fev ∧ s'.np = s.np ∧ LanesKept s s') ∧
    (∃ s', exec (.scanClrPeak t) s = .next s' ∧ (∀ r : RoomId, s'.rooms[r] = { s.rooms[r] with peak := 0, resp := 0 }) ∧
      s'.scan.idleMin = Vector.replicate 8 0xFFF ∧ s'.scan.fev = s.scan.fev ∧ s'.dmem = s.dmem ∧ s'.img = s.img) ∧
    (∃ s', exec (.scanClrFev t) s = .next s' ∧ s'.scan.fev = Vector.replicate 5 0 ∧ s'.scan.ecc = s.scan.ecc ∧ s'.np = s.np ∧ LanesKept s s') ∧
    (∃ s', exec (.npClrEv t) s = .next s' ∧ s'.np.evinfo = 0 ∧ s'.np.evapc = 0 ∧ s'.np.evspc = 0 ∧ s'.np.evatb = 0 ∧ s'.np.evstb = 0 ∧
      s'.np.stage = s.np.stage ∧ s'.np.warn = s.np.warn ∧ s'.scan = s.scan ∧ LanesKept s s')

/-- Maintenance slots set CURRENT 127 and write corrected words back; a scrub read, in a slot that the scrubber has, takes the sweep's next
word, and reads count, correct or fault by what they find; a self-test passes or faults; the first hardware fault latches cause and
evidence, stops the lanes, cuts the writes of later stages and asserts FAULT_N, a later one only sets MORE; 1 ms later the reset carries its cause and keeps NV, stored
configuration and evidence; SCAN_CLR and NP_CLR clear exactly what they name. From 04_scan_engine: R74, R92, R93, R94, R95, R96, R97, R98,
R99, R100; 15_night_porter: R415. -/
def Obligations.FaultsAndEvidence : Prop := Stated.ScrubAndSelfTest ∧ Stated.HardwareFaults ∧ Stated.EvidenceClears

/-- Driver reset, night-porter reset, power-fail reset and RESET_N enter reset with their cause (the previous one and the total follow):
rooms, data memory, image, host registers and the running mark cleared, NV content, stored configuration and the queue kept. Release of
RESET_N and PLL lock set the earliest exit; at exit TB and the cycle number are 0, the night porter is in boot mode and ROLEPREF holds its
sample. Log entries 25, 39 and 41 name the conventions of a reset. From 03_clock_reset_startup: R66, R67, R69, R71; 04_scan_engine: R98; 15_night_porter: R413. -/
def Obligations.ResetEntries : Prop :=
  ∀ (s : State) (t : Nat) (val : Word),
    let entered (s' : State) (cause : BitVec 8) : Prop := s'.phase = .inReset ∧ s'.clk.cause = cause ∧ s'.clk.prev = s.clk.cause ∧
      s'.clk.total = satInc s.clk.total ∧ s'.rooms = Vector.replicate 100 Room.init ∧ s'.dmem = [] ∧ s'.img = Image.init ∧
      { s'.host with lateVec6 := false } = HostIf.init ∧ s'.nv.mem = s.nv.mem ∧ s'.app.stored = s.app.stored ∧ s'.app.running = false ∧ s'.pwr.faultN = true ∧
      s'.pending = s.pending
    (s.steward = true → val.getLsbD 0 = true → val.toNat / 2 ^ 16 = 0xB00C → s.pwr.pf = .none →
      ∃ s', exec (.driverReset t val) s = .next s' ∧ entered s' 0x0A ∧ s'.clk.exitAt = (if s.pwr.resetN then none else some (s.then t + 440000))) ∧
    (s.steward = true → val.toNat / 2 ^ 16 ≠ 0xB00C → ∃ s', exec (.driverReset t val) s = .next s' ∧ s' = { s with now := s.then t }) ∧
    (s.np.expired = true → s.scan.faulted = false → s.awake = true → s.nv.busy = none →
      ∃ s', exec (.npResetEntry t) s = .next s' ∧ entered s' 4 ∧ s'.now = max (s.then t) (s.cycleOfTb s.np.expAt + 400)) ∧
    (s.pwr.pf = .lastTick → s.nv.busy = none → (∀ j ∈ s.nv.queue, j.cls ≠ 1) → s.awake = true →
      ∃ s', exec (.powerFailResetEntry t) s = .next s' ∧ entered s' 2 ∧ s'.clk.exitAt = none ∧ s'.pwr.pf = .none ∧ s'.pwr.charged = false) ∧
    (s.awake = true → s.pwr.pf = .none → s.pwr.vsup = true →
      ∃ s', exec (.resetNAssert t) s = .next s' ∧ entered s' 3 ∧ s'.pwr.resetN = true ∧ s'.clk.exitAt = none) ∧
    (s.phase = .inReset → s.clk.plllock = true → ∃ s', exec (.resetNDeassert t) s = .next s' ∧ s'.pwr.resetN = false ∧
      ∃ e, s'.clk.exitAt = some e ∧ s.then t + 400000 ≤ e ∧ s'.phase = .inReset) ∧
    (s.phase = .inReset → s.pwr.vsup = true → s.clk.plllock = false → s.pwr.resetN = false → ∃ s', exec (.pllLock t) s = .next s' ∧
      s'.clk.plllock = true ∧ ∃ e, s'.clk.exitAt = some e ∧ s.then t + 400000 ≤ e) ∧
    (∀ e, s.phase = .inReset → s.clk.exitAt = some e → s.pwr.vsup = true → s.pwr.resetN = false →
      ∃ s', exec (.resetExit t) s = .next s' ∧ s'.now = max (s.then t) e ∧ s'.tb0 = s'.now ∧ s'.cycle = 0 ∧
        (s'.phase = .boot ∨ s'.phase = .bootHold) ∧ s'.np.mode = false ∧ s'.np.period = 40000000 ∧
        s'.pwr.rolePref = s.pwr.prefSample.getD s.pwr.rolePrefPin)

/-- The steward starts after the boot; with a judged clock and a charged store it loads the stored configuration into the code store and
the groups, or resets into the other slot when the image fails; an application starts by itself when its record, run flag and reset
history allow, its rooms set up, and is held after three resets; the role of a pair settles by its cases. From 03_clock_reset_startup: R69, R70;
13_host_interface: R355; 14_pair_redundancy: R382, R383. -/
def Obligations.StartUp : Prop :=
  ∀ (s : State) (t : Nat) (engines : List Bool) (c : Conf),
    (s.phase = .boot → ∃ s', exec (.stewardStart t) s = .next s' ∧ s'.steward = true ∧ s'.pwr.faultN = s.pwr.faultHold ∧
      s'.clk.tsteward = BitVec.ofNat 32 (({ s with now := s.then t } : State).tb / 400) ∧ s'.host.linkUp = !s.pwr.perstN ∧ LanesKept s s' ∧
      s'.nv.mem = s.nv.mem) ∧
    (s.steward = true → s.clk.judged = true → s.nv.ready = true → s.pwr.pf = .none → s.app.running = false → s.app.stored = some c →
      ∃ s', exec (.startupConfigLoad t true engines) s = .next s' ∧ s'.app.stored = some c ∧ s'.app.code[0] = c.way.code ∧ s'.app.half = 0 ∧
        s'.rooms = s.rooms ∧ s'.img = s.img ∧ s'.app.running = false ∧
        ∀ g : GrpId, s.groups[g].lplus = true → s'.groups[g].cfg = true ∧
          ∀ n : ChanId, grpOf n = g → s'.chans[n].cfg = c.way.chans.find? (fun e => e.ch == n.val)) ∧
    (s.steward = true → s.clk.judged = true → s.nv.ready = true → s.pwr.pf = .none → s.app.running = false →
      ∃ s', exec (.startupConfigLoad t false engines) s = .next s' ∧ s'.phase = .inReset ∧ s'.clk.cause = 0x0B ∧ s'.sec.active = !s.sec.slot) ∧
    (s.steward = true → s.clk.judged = true → s.nv.ready = true → s.pwr.pf = .none → s.app.running = false → s.app.start = none →
      s.halted = false → s.confRecordOk = true → s.app.runFlag = true → s.app.held = false →
      s.app.loaded = true → s.app.hold = false → s.app.stored = some c → c.way.pair = false → s.pair.role = 0 →
      ∃ s', exec (.autoStart t) s = .next s' ∧ s'.app.start = some { tick := s.cycle + 1, flagOk := true, ref := none } ∧
        s'.dmem = s.dmem ∧ s'.img = s.img ∧ s'.rooms = (s.setUpRooms c).rooms) ∧
    (s.steward = true → s.clk.judged = true → s.nv.ready = true → s.pwr.pf = .none → s.app.running = false → s.app.start = none →
      s.halted = false → s.confRecordOk = true → s.app.runFlag = true → s.app.held = false →
      s.app.loaded = true → s.app.hold = true →
      ∃ s', exec (.autoStart t) s = .next s' ∧ s'.app.held = true ∧ s'.app.start = none ∧ s'.recorded 0x04 0 sevCritical) ∧
    (s.steward = true → s.clk.judged = true → s.pair.settled = false → s.app.stored = some c →
      (c.way.pair = false → ∃ s', exec (.roleSettle t) s = .next s' ∧ s'.pair.settled = true ∧ s'.pair.role = s.pair.role) ∧
      (c.way.pair = true → s.pwr.quietIn = true → ∃ s', exec (.roleSettle t) s = .next s' ∧ s'.pair.settled = true ∧ s'.pair.role = 3) ∧
      (c.way.pair = true → s.pwr.quietIn = false → s.pair.link = true → s.pair.partner.hello = true → s.pair.partner.role ≠ 1 →
        s.pwr.rolePref = true → s.pair.partner.pref = false →
        ∃ s', exec (.roleSettle t) s = .next s' ∧ s'.pair.settled = true ∧ s'.pair.role = 1 ∧ s'.pair.epoch = s.pair.epoch + 1))

/-- Before judgement three good windows in a row judge the clock; after it a count outside the wide band resets the module with cause
0x05, and one outside the narrow band sets a warning. 1 s without judgement resets with cause 0x06; loss of lock after judgement with 0x05, while before it the PLL locks again and judgement
starts anew. A stopped RTC
oscillator clears the retention latch and moves the reference to the lowest group with L+, or to none. From 03_clock_reset_startup: R57,
R58, R59, R60, R61, R62, R63. -/
def Obligations.ClockMonitor : Prop :=
  ∀ (s : State) (t n : Nat), s.awake = true →
    (s.clk.plllock = true → s.clk.noref = false → s.clk.judged = false → s.clk.refsrc = false →
      ∃ s', exec (.clockMonitorWindow t n) s = .next s' ∧ s'.clk.count = BitVec.ofNat 20 n ∧ LanesKept s s' ∧
        (n < 780469 ∨ 782031 < n → s'.clk.good = 0 ∧ s'.clk.judged = false) ∧
        (780469 ≤ n → n ≤ 782031 → if s.clk.good < 2 then s'.clk.good = s.clk.good + 1 ∧ s'.clk.judged = false
          else s'.clk.judged = true ∧ s'.clk.tjudged = BitVec.ofNat 32 (s'.tb / 400))) ∧
    (s.clk.plllock = true → s.clk.noref = false → s.clk.judged = true → s.clk.refsrc = false → s.halted = false →
      (n < 777344 ∨ 785156 < n → ∃ s', exec (.clockMonitorWindow t n) s = .next s' ∧ s'.phase = .inReset ∧ s'.clk.cause = 5 ∧ s'.clk.judged = false) ∧
      (777344 ≤ n → n ≤ 785156 → ∃ s', exec (.clockMonitorWindow t n) s = .next s' ∧ s'.phase = s.phase ∧ s'.clk.judged = true ∧
        s'.clk.warn = (s.clk.warn || decide (n < 779688) || decide (782812 < n)) ∧ s'.clk.count = BitVec.ofNat 20 n)) ∧
    (s.clk.judged = false → s.clk.noref = false → s.clk.plllock = true → s.halted = false →
      ∃ s', exec (.clockJudgementTimeout t) s = .next s' ∧ s'.phase = .inReset ∧ s'.clk.cause = 6 ∧ s'.now = max (s.then t) (s.clk.judgeFrom + 400000000)) ∧
    (s.clk.judged = true → s.clk.plllock = true → s.halted = false →
      ∃ s', exec (.pllLossOfLock t) s = .next s' ∧ s'.phase = .inReset ∧ s'.clk.cause = 5 ∧ s'.clk.plllock = false) ∧
    (s.clk.judged = false → ∃ s', exec (.pllLossOfLock t) s = .next s' ∧ s'.phase = s.phase ∧ s'.clk.plllock = false ∧ s'.clk.good = 0) ∧
    (s.clk.plllock = false → ∃ s', exec (.pllLock t) s = .next s' ∧ s'.phase = s.phase ∧ s'.clk.plllock = true ∧ s'.clk.good = 0 ∧
      s'.clk.judgeFrom = s.then t ∧ LanesKept s s') ∧
    (s.clk.refsrc = false → s.clk.noref = false → ∃ s', exec (.rtcOscillatorStopped t) s = .next s' ∧ s'.bk.valid = false ∧ s'.bk.oscstop = true ∧
      s'.clk.rtcstop = true ∧
      (∀ g : GrpId, s.groups[g].lplus = true → (∀ h : GrpId, h < g → s.groups[h].lplus = false) →
        s'.clk.refsrc = true ∧ s'.clk.refgrp.toNat = g.val ∧ s'.clk.noref = false) ∧
      ((∀ g : GrpId, s.groups[g].lplus = false) → s'.clk.noref = true)) ∧
    (s.clk.noref = true → ∃ s', exec (.referenceAppears t) s = .next s' ∧ s'.clk.noref = false ∧ s'.clk.good = 0 ∧
      s'.clk.judgeFrom = s.then t ∧ LanesKept s s')

/-- R48 to R52, R438, R446: supplies. -/
def Stated.SupplyEvents : Prop :=
  ∀ (s : State) (t : Nat),
    (s.pwr.vsup = true → s.pwr.charged = false → ∃ s', exec (.vsupFail t) s = .next s' ∧ s'.phase = .unpowered ∧ s'.pwr.vsup = false ∧
      s'.dmem = [] ∧ s'.nv.mem = s.nv.mem ∧ s'.clk.judged = false) ∧
    (s.pwr.vsup = true → s.pwr.charged = true → s.phase ≠ .inReset → s.pwr.pf = .none →
      ∃ s', exec (.vsupFail t) s = .next s' ∧ s'.phase = s.phase ∧ s'.pwr.pf = .failed ∧ s'.pwr.pfwarn = true ∧ s'.pwr.vsup = false ∧
        s'.nv.ready = false ∧ s'.nv.queue = s.nv.queue.filter (fun j => j.cls == 2) ∧ s'.gb.queue = [] ∧ s'.gb.pfDropped = s.gb.queue.length ∧
        s'.inn.exam = none ∧ s'.edits.batches = [] ∧ s'.edits.reads = [] ∧ s'.app.start = none ∧ s'.app.stop = none ∧ LanesKept s s') ∧
    (s.pwr.vsup = true → s.pwr.charged = true → s.phase = .inReset →
      ∃ s', exec (.vsupFail t) s = .next s' ∧ s' = { s with now := s.then t, pwr := { s.pwr with vsup := false, pfwarn := true } }) ∧
    (s.pwr.vsup = false → s.phase = .unpowered → ∃ s', exec (.vsupValid t) s = .next s' ∧ s'.phase = .inReset ∧ s'.clk.cause = 1 ∧
      s'.pwr.vsup = true ∧ s'.clk.prev = 0 ∧ s'.clk.total = 0 ∧ s'.clk.exitAt = none) ∧
    (s.pwr.vsup = false → s.phase = .inReset → s.pwr.resetN = true → ∃ s', exec (.vsupValid t) s = .next s' ∧ s'.pwr.vsup = true ∧
      s'.phase = .inReset ∧ s'.clk.exitAt = none ∧ ∀ g : GrpId, s.groups[g].lplus = true → s'.groups[g].cfg = false) ∧
    (s.pwr.vsup = false → s.phase ≠ .unpowered → (s.phase = .inReset → s.pwr.resetN = false) → ∃ s', exec (.vsupValid t) s = .next s' ∧
      s' = { s with now := s.then t, pwr := { s.pwr with vsup := true, holdUpOut := false } }) ∧
    (s.pwr.vsup = false → s.phase ≠ .unpowered → ∃ s', exec (.holdUpExhausted t) s = .next s' ∧ s'.phase = .unpowered ∧ s'.nv.mem = s.nv.mem ∧
      s'.rooms = Vector.replicate 100 Room.init ∧ s'.pwr.holdUpOut = true) ∧
    (s.pwr.vsup = true → s.steward = true → s.clk.judged = true → s.pwr.pf = .none → s.nv.ready = false →
      ∃ s', exec (.holdUpCharged t) s = .next s' ∧ s'.pwr.charged = true ∧ s'.nv.ready = true ∧ s'.nv.mem = s.nv.mem ∧ LanesKept s s' ∧
        (s.clk.cause = 1 ∨ s.clk.cause = 2 → s'.nv.writes = s.nv.writes + 1))

/-- R26, R36, R38 to R40, R325, R375, R382, R392: pins and temperature. -/
def Stated.PinsAndTemperature : Prop :=
  ∀ (s : State) (t : Nat) (x : Int) (pins : PairPins),
    (s.pwr.perstN = false → ∃ s', exec (.perstNAssert t) s = .next s' ∧ s' = { s with
        now := s.then t
        pwr := { s.pwr with perstN := true }
        host := { HostIf.init with gen := s.host.gen, lateVec6 := s.host.lateVec6 }
        gb := s'.gb }) ∧
    (∃ s', exec (.perstNDeassert t) s = .next s' ∧ s'.pwr.perstN = false ∧ s'.host = { s.host with linkUp := s.steward } ∧ LanesKept s s' ∧ FieldKept s s') ∧
    (s.steward = true → ∃ s', exec (.temperatureMeasure t x) s = .next s' ∧ s'.pwr.temp = x ∧ LanesKept s s' ∧ FieldKept s s' ∧
      s'.pwr.over85 = (if 8500 < x then true else if x ≤ 8000 then false else s.pwr.over85) ∧
      s'.pwr.over95 = (if 9500 < x then true else if x ≤ 9000 then false else s.pwr.over95)) ∧
    (s.pwr.quietIn = false → ∃ s', exec (.quietInAssert t) s = .next s' ∧ s'.pwr.quietIn = true ∧
      (∀ n : ChanId, ∀ e, s.chans[n].cfg = some e → e.mode = 8 ∨ e.mode = 9 → s'.chans[n].drive = false) ∧
      (s.steward = true → s.pair.role = 1 → s'.pair.role = 3 ∧ s'.app.running = false)) ∧
    (∃ s', exec (.quietInDeassert t) s = .next s' ∧ s'.pwr.quietIn = false ∧ s'.pair = s.pair ∧ LanesKept s s' ∧ s'.app = s.app) ∧
    (∃ s', exec (.pairPresentChange t pins) s = .next s' ∧ s'.pwr.pairPresent = pins.present ∧
      s'.pwr.quietOut = (s.pwr.quietOut && pins.present) ∧
      s'.pair = { s.pair with partnerPwr := pins.present && pins.term } ∧ s'.pwr.rolePrefPin = pins.pref ∧ s'.pwr.rolePref = s.pwr.rolePref ∧
      (∀ e, s.phase = .inReset → s.clk.exitAt = some e → s'.pwr.prefSample =
        if e ≤ s'.now + 400000 then some (s.pwr.prefSample.getD s.pwr.rolePrefPin) else none) ∧ LanesKept s s' ∧ FieldKept s s')

/-- VSUP failure before the hold-up is charged ends all, after it begins the power-failure sequence; return of VSUP, end of the hold-up
and its charging are stated with what they leave. PERST_N resets the host registers and nothing of rooms, pair, field or application.
Temperature sets its two thresholds with hysteresis; QUIET_IN forces outputs OFF and a primary to relief out of step; PAIR_PRESENT follows
its pin, receiver detection needs the cable, and ROLEPREF is sampled 1 ms before reset exit. From R36. -/
def Obligations.SupplyAndPins : Prop := Stated.SupplyEvents ∧ Stated.PinsAndTemperature

/-- A group whose alignment is older than its timeout applies its safe states, counts and records it once, and applies them again to outputs
that follow while it still does; within the timeout nothing happens. Loss of L+ makes outputs OFF, closes the bypasses, drops the modes and
sets the loss bit; its return leaves the group without modes in its power-on states, loop-powered outputs in the strapped alarm, until its
configuration is loaded. Other groups stay. From 10_digital_channels: R239, R261, R262, R263, R264, R265, R266. -/
def Obligations.SupervisorsAndFieldSupply : Prop :=
  ∀ (s : State) (t : Nat) (g : GrpId) (volts : Nat) (c : Conf),
    let p := s.groups[g]
    (p.lplus = true → p.supact = false → p.timeout ≠ 0 → p.lastAlign + p.timeout.toNat * 400000 ≤ s.then t →
      ∃ s', exec (.supervisorTimeout t g) s = .next s' ∧ s'.groups[g].supact = true ∧ s'.groups[g].supevt = true ∧
        s'.groups[g].supcount = satInc p.supcount ∧ LanesKept s s' ∧
        s'.groups[g].withhold = false ∧
        (p.supevt = false → s.steward = true → s.pair.settled = true → s.isRelief = false → s'.recorded 0x35 g.val sevCritical) ∧
        (∀ n : ChanId, grpOf n = g → s'.chans[n].follow = false) ∧
        (∀ n : ChanId, ∀ e, grpOf n = g → s.chans[n].cfg = some e → e.mode = 8 ∨ e.mode = 9 → e.safe = 0 → p.relief = false →
          s'.chans[n].drive = false) ∧
        (∀ n : ChanId, grpOf n ≠ g → s'.chans[n] = s.chans[n])) ∧
    (p.lplus = true → p.supact = true → p.timeout ≠ 0 → p.lastAlign + p.timeout.toNat * 400000 ≤ s.then t →
      ∃ s', exec (.supervisorTimeout t g) s = .next s' ∧ s'.groups[g].supact = true ∧ s'.groups[g].withhold = false ∧
        s'.groups[g].supevt = p.supevt ∧ s'.groups[g].supcount = p.supcount ∧ LanesKept s s' ∧
        (∀ n : ChanId, grpOf n = g → s'.chans[n].follow = false) ∧ (∀ n : ChanId, grpOf n ≠ g → s'.chans[n] = s.chans[n])) ∧
    (p.lplus = true → s.then t < p.lastAlign + p.timeout.toNat * 400000 → ∃ s', exec (.supervisorTimeout t g) s = .next s' ∧
      s' = { s with now := s.then t }) ∧
    (p.lplus = true → ∃ s', exec (.lplusLost t g) s = .next s' ∧ s'.groups[g].lplus = false ∧ s'.groups[g].cfg = false ∧
      s'.groups[g].lploss = true ∧ s'.groups[g].engok = false ∧ LanesKept s s' ∧
      (∀ n : ChanId, ∀ e, grpOf n = g → s.chans[n].cfg = some e → e.mode = 8 ∨ e.mode = 9 →
        s'.chans[n].drive = false ∧ s'.chans[n].held = false ∧ s'.chans[n].lastCom = none ∧ s'.chans[n].recv = none) ∧
      (∀ n : ChanId, grpOf n = g → s'.chans[n].bypass = true ∧ s'.chans[n].sink = false ∧ s'.chans[n].excite = false) ∧
      (∀ h : GrpId, h ≠ g → s'.groups[h] = s.groups[h])) ∧
    (p.lplus = false → ∃ s', exec (.lplusReturn t g volts) s = .next s' ∧ s'.groups[g].lplus = true ∧ s'.groups[g].cfg = false ∧
      s'.groups[g].supact = true ∧ s'.groups[g].supevt = false ∧ s'.groups[g].protLatch = 0 ∧ s'.groups[g].almsel = p.almsel ∧ LanesKept s s' ∧
      s'.groups[g].lastAlign = s.then t ∧
      (∀ n : ChanId, ∀ e, grpOf n = g → s.chans[n].cfg = some e → s.pwr.quietIn = false → s'.chans[n].bypass = true ∧
        (e.mode = 8 ∨ e.mode = 9 → s'.chans[n].drive = false) ∧ (e.mode = 0x20 ∨ e.mode = 0x21 → s'.chans[n].aout = .off) ∧
        (e.mode = 0x22 → s'.chans[n].aout = .alarm (!p.almsel)))) ∧
    (s.steward = true → p.lplus = true → p.cfg = false → s.app.cur = some c → ∃ s', exec (.groupConfigReload t g) s = .next s' ∧
      s'.groups[g].cfg = true ∧ s'.groups[g].relief = (if s.pair.settled then s.isRelief else p.relief) ∧ LanesKept s s' ∧
      ∀ n : ChanId, grpOf n = g → s'.chans[n].cfg = c.way.chans.find? (fun e => e.ch == n.val) ∧
        s'.chans[n].bypass = (c.way.chans.find? (fun e => e.ch == n.val)).isNone)

/-- A raw change moves only the raw level, after accepting a change that had held for its filter (without a filter, for 2.5 µs); the filter
accepts a change its filter time later, or at 0.5 µs, which sets level, edge counts and the stamp, or counts in a counter mode with its gate open; a wire break sets the OPEN bit and its latch and leaves the level. Rooms and other groups
stay. From 08_cycle_image_time: R207; 10_digital_channels: R236, R241, R242, R243, R244. -/
def Obligations.DigitalInputs : Prop :=
  ∀ (s : State) (t : Nat) (ch : ChanId) (l : Bool) (e : ChanCfg), s.chans[ch].cfg = some e → s.groups[grpOf ch].lplus = true →
    s.groups[grpOf ch].cfg = true →
    let c := s.chans[ch]
    let due := if u16 e.param 4 = 0 then 1000 else u16 e.param 4 * 4000
    let others (s' : State) : Prop := LanesKept s s' ∧ ∀ m : ChanId, grpOf m ≠ grpOf ch → s'.chans[m] = s.chans[m]
    (c.raw ≠ l → c.raw = c.level ∨ s.then t < c.rawAt + due → ∃ s', exec (.inputRawChange t ch l) s = .next s' ∧ s'.chans[ch].raw = l ∧
      s'.chans[ch].rawAt = s.then t ∧ s'.chans[ch].level = c.level ∧ s'.chans[ch].rise = c.rise ∧ s'.chans[ch].fall = c.fall ∧ others s') ∧
    ((e.mode = 1 ∨ e.mode = 2 ∨ e.mode = 9) → c.raw ≠ l → c.raw ≠ c.level → c.rawAt + due ≤ s.then t →
      ∃ s', exec (.inputRawChange t ch l) s = .next s' ∧ s'.chans[ch].raw = l ∧ s'.chans[ch].rawAt = s.then t ∧ s'.chans[ch].level = c.raw ∧
        s'.chans[ch].rise = (if c.raw then c.rise + 1 else c.rise) ∧ s'.chans[ch].fall = (if c.raw then c.fall else c.fall + 1) ∧ others s') ∧
    ((e.mode = 1 ∨ e.mode = 2 ∨ e.mode = 9) → c.raw ≠ c.level → ∃ s', exec (.inputFilterAccept t ch) s = .next s' ∧
      s'.now = max (s.then t) (c.rawAt + max 200 (u16 e.param 4 * 4000)) ∧ s'.chans[ch].level = c.raw ∧
      s'.chans[ch].rise = (if c.raw then c.rise + 1 else c.rise) ∧ s'.chans[ch].fall = (if c.raw then c.fall else c.fall + 1) ∧
      s'.chans[ch].lastEdge = (if s.tb0 ≤ c.rawAt then some c.rawAt else none) ∧ s'.chans[ch].levelAt = s'.now ∧ s'.chans[ch].count = c.count ∧ others s') ∧
    (e.mode = 3 → c.raw ≠ c.level → c.gateVal = some true → ∃ s', exec (.inputFilterAccept t ch) s = .next s' ∧ s'.chans[ch].level = c.raw ∧
      (gateOf (grpOf ch) e ≠ some ch → s'.chans[ch].count =
        if (byteAt e.param 6).getLsbD (if c.raw then 0 else 1) then c.count + 1 else c.count) ∧ others s') ∧
    ((e.mode = 1 ∨ e.mode = 2 ∨ e.mode = 3) → (byteAt e.param 1).getLsbD 0 = true →
      ∃ s', exec (.wireBreak t ch l) s = .next s' ∧ s'.chans[ch].copen = l ∧ s'.chans[ch].level = c.level ∧ others s' ∧
        (l = true → c.copen = false → s'.groups[grpOf ch].openLatch.getLsbD (idxOf ch).val = true))

/-- R247 to R255, R259, R260, R266, R267: protection and supervision of digital outputs. -/
def Stated.DigitalOutputProtection : Prop :=
  ∀ (s : State) (t : Nat) (ch : ChanId) (on thermal : Bool) (ma mj : Nat) (e : ChanCfg), s.chans[ch].cfg = some e → (e.mode = 8 ∨ e.mode = 9) →
    s.groups[grpOf ch].lplus = true → s.groups[grpOf ch].cfg = true →
    let c := s.chans[ch]
    let g := s.groups[grpOf ch]
    let i := (idxOf ch).val
    let others (s' : State) : Prop := LanesKept s s' ∧ ∀ m : ChanId, m ≠ ch → s'.chans[m] = s.chans[m]
    (∃ s', exec (.currentLimit t ch on ma) s = .next s' ∧ s'.chans[ch].limiting = (on && c.drive) ∧ s'.chans[ch].drive = c.drive ∧
      s'.chans[ch].iload.toNat = min 4095 ma ∧ others s') ∧
    (c.drive = true → (thermal = true ∨ c.limiting = true) → ∃ s', exec (.shortCircuit t ch thermal) s = .next s' ∧ s'.chans[ch].drive = false ∧
      s'.chans[ch].held = true ∧ s'.chans[ch].cause = (if thermal then 2 else 1) ∧ s'.groups[grpOf ch].protLatch.getLsbD i = true ∧ others s' ∧
      (g.protLatch.getLsbD i = false → s.steward = true → s'.recorded 0x30 ch.val sevFault)) ∧
    (∃ s', exec (.demagEnergyMeasured t ch mj) s = .next s' ∧ s'.chans[ch].edem.toNat = min 1023 mj ∧ s'.chans[ch].drive = c.drive ∧ others s' ∧
      (e.eoff * 11 + 50 < mj * 10 → s'.groups[grpOf ch].demag = g.demag ||| (1 <<< i))) ∧
    (∀ u, c.rateUntil = some u → ∃ s', exec (.rateHoldEnd t ch) s = .next s' ∧ s'.now = max (s.then t) u ∧ s'.chans[ch].rateUntil = none ∧ others s' ∧
      (c.follow = true → s'.chans[ch].drive = c.drive)) ∧
    (e.mode = 9 → c.held = false → c.rateHeld = false → s.pwr.quietIn = false → (c.level != c.applies g e) = on →
      ∃ s', exec (.readbackDiscrepancy t ch on) s = .next s' ∧
      s'.now = max (s.then t) (max c.levelAt (c.changedAt + 20000) + u16 e.param 6 * 40000) ∧ s'.chans[ch].cdisc = on ∧ s'.chans[ch].drive = c.drive ∧ others s' ∧
      (on = true → c.cdisc = false → s'.groups[grpOf ch].discLatch.getLsbD i = true)) ∧
    ((c.level != c.applies g e) = !on → exec (.readbackDiscrepancy t ch on) s = .next (s.at t)) ∧
    (g.relief = false → s.pwr.quietIn = false → (on = false ∨ (byteAt e.param 1).getLsbD (if c.drive then 2 else 1) = true) →
      ∃ s', exec (.openLoad t ch on) s = .next s' ∧ s'.chans[ch].copen = on ∧ s'.chans[ch].drive = c.drive ∧ others s' ∧
        (on = true → c.copen = false → s'.groups[grpOf ch].openLatch.getLsbD i = true))

/-- R249: a group whose current exceeds its limit sheds channels until it is below 4.0 A, here when there is exactly one ON channel: the others'
share keeps the current above it. -/
def Stated.GroupOvercurrentSheds : Prop :=
  ∀ (s : State) (t : Nat) (g : GrpId) (ma : List Nat) (j : Fin 16) (e : ChanCfg), s.groups[g].lplus = true → s.groups[g].cfg = true →
    ma.length = 16 → 4400 < ma.foldl (· + ·) 0 → s.chans[chanOf g j].cfg = some e → (e.mode = 8 ∨ e.mode = 9) → s.chans[chanOf g j].drive = true →
    (∀ k : Fin 16, k ≠ j → s.chans[chanOf g k].drive = false) →
    ∃ s', exec (.groupOvercurrent t g ma) s = .next s' ∧ s'.chans[chanOf g j].drive = false ∧ s'.chans[chanOf g j].held = true ∧
      s'.chans[chanOf g j].cause = 3 ∧ s'.groups[g].grpoc = true ∧ LanesKept s s' ∧
      ∀ m : ChanId, m ≠ chanOf g j → s'.chans[m] = s.chans[m]

/-- Current limiting leaves the output driven; a short circuit or thermal trip switches it OFF, holds it and latches and records it;
energy, rate hold and open load set their own bits only; read-back that differs from the applied value for DISCT, from 50 µs after a change
on, sets DISC; a group above its current limit sheds its single ON channel. Other channels and the rooms stay. From 10_digital_channels: R247, R248, R249, R250, R251, R252, R253, R254, R255, R260. -/
def Obligations.OutputProtection : Prop := Stated.DigitalOutputProtection ∧ Stated.GroupOvercurrentSheds

/-- R271 to R277, R290, R295 to R301: the engines' frames, the failure of an engine, and the spare. -/
def Stated.EnginesAndSpare : Prop :=
  ∀ (s : State) (t : Nat) (g : GrpId) (f : EngineFrame),
    let p := s.groups[g]
    (p.lplus = true → f.bySpare = false → p.engfail = false → f.resultOk = true → f.zeroOk = true → f.selfTestOk = true →
      f.gainPpm.natAbs ≤ 5000 →
      ∃ s' start, exec (.engineFrame t g f) s = .next s' ∧ p.frameAt ≤ start ∧ s'.groups[g].frameAt = start + 400000 ∧
        s'.groups[g].engok = true ∧ s'.groups[g].engfail = false ∧ s'.groups[g].zeroErr = BitVec.ofInt 16 f.zeroPpm ∧ LanesKept s s' ∧
        (∀ x st b, (x, st, b) ∈ s'.groups[g].held ↔ x ∈ f.samples ∧ s.deliverable g start x = true ∧ st = s.sampleStamp start x ∧ b = false) ∧
        (∀ x st e, p.held = [(x, st, false)] → s.chans[x.ch].cfg = some e → e.mode = 0x10 → u8 e.param 2 % 4 = 0 → s.chans[x.ch].trimG = 0 →
          s.chans[x.ch].trimO = 0 → -1000000 ≤ x.raw → x.raw ≤ 30000000 →
          s'.chans[x.ch].value = BitVec.ofInt 32 x.raw ∧ s'.chans[x.ch].stamp = st ∧ s'.chans[x.ch].stale = false)) ∧
    (p.lplus = true → f.bySpare = false → p.engfail = false → f.resultOk = true → f.zeroOk = false →
      ∃ s', exec (.engineFrame t g f) s = .next s' ∧ s'.groups[g].engfail = true ∧ s'.groups[g].failevt = true ∧ s'.groups[g].failkind = 1 ∧
        s'.groups[g].held = [] ∧ LanesKept s s' ∧
        (∀ n : ChanId, ∀ e, grpOf n = g → s.chans[n].cfg = some e → e.isAnalogue = true →
          s'.chans[n].stale = true ∧ s'.chans[n].value = s.chans[n].value) ∧
        (s.spare.failed = false → s.spare.engok = true → s.spare.assigned = none → s'.spare.assigned = some g ∧ s'.spare.connected = false ∧
          (s.steward = true → s'.recorded 0x42 g.val sevFault)) ∧
        (s.spare.failed = true → s'.spare = s.spare ∧ (s.steward = true → s'.recorded 0x42 g.val sevCritical))) ∧
    (s.spare.assigned = some g → s.spare.connected = false → ∃ s', exec (.spareConnect t) s = .next s' ∧
      s' = { s with now := max (s.then t) (s.spare.since + 200000), spare := { s.spare with connected := true } }) ∧
    (s.spare.assigned = some g → s.spare.connected = true → s.spare.started = false → s.spare.failed = false →
      ∃ s', exec (.spareScheduleStart t) s = .next s' ∧ s'.now = max (s.then t) (s.spare.since + 17 * 400000) ∧ s'.spare.started = true ∧
        s'.spare.takeevt = true ∧ s'.spare.takeovers = satInc s.spare.takeovers ∧ LanesKept s s' ∧ s'.chans = s.chans ∧
        (s.spare.takeevt = false → s.steward = true → s'.recorded 0x44 g.val sevNotice))

/-- R277, R280, R283, R198, R300, R301: flags of analogue records. -/
def Stated.AnalogueFlags : Prop :=
  ∀ (s : State) (t : Nat) (ch : ChanId) (set : Bool) (e : ChanCfg), s.chans[ch].cfg = some e → s.groups[grpOf ch].lplus = true →
    s.groups[grpOf ch].cfg = true →
    let c := s.chans[ch]
    let g := s.groups[grpOf ch]
    let i := (idxOf ch).val
    let others (s' : State) : Prop := LanesKept s s' ∧ ∀ m : ChanId, m ≠ ch → s'.chans[m] = s.chans[m]
    (e.mode = 0x10 → set = false ∨ 30000000 ≤ c.value.toInt → ∃ s', exec (.analogueInputFlag t ch .short set) s = .next s' ∧ s'.chans[ch] = { c with short := set } ∧ others s' ∧
      (set = true → c.copen = false → c.short = false → c.lowv = false → c.cdisc = false → s'.groups[grpOf ch].afLatch = g.afLatch ||| (1 <<< i) ∧
        (g.afLatch.getLsbD i = false → s.steward = true → s'.recorded 0x40 ch.val sevFault))) ∧
    (e.mode = 0x10 → e.range = 0 → set = decide (20500000 < c.value.toInt) → ∃ s', exec (.analogueInputFlag t ch .over set) s = .next s' ∧
      s'.chans[ch] = { c with overR := set } ∧ others s') ∧
    (e.mode = 0x11 → e.range ≠ 1 → set = decide (c.value.toInt < -10500000) → ∃ s', exec (.analogueInputFlag t ch .under set) s = .next s' ∧
      s'.chans[ch] = { c with underR := set } ∧ others s') ∧
    (e.mode = 0x10 → e.range = 1 → set = decide (c.value.toInt < 500000) → ∃ s', exec (.analogueInputFlag t ch .aopen set) s = .next s' ∧
      s'.chans[ch] = { c with copen := set } ∧ others s') ∧
    (e.mode = 0x18 → g.relief = false → ∃ s', exec (.analogueInputFlag t ch .aopen set) s = .next s' ∧ s'.chans[ch] = { c with copen := set } ∧ others s') ∧
    (e.mode = 0x21 → ∃ s', exec (.analogueOutputFault t ch .limit set) s = .next s' ∧ s'.chans[ch] = { c with lim := set } ∧ others s') ∧
    (e.mode = 0x20 ∨ (e.mode = 0x21 ∧ (set = false ∨ c.lim = true)) → ∃ s', exec (.analogueOutputFault t ch .short set) s = .next s' ∧ s'.chans[ch] = { c with short := set } ∧ others s') ∧
    (e.mode = 0x22 → set = false ∨ c.value.toInt + 50000 < c.driving → ∃ s', exec (.analogueOutputFault t ch .lowv set) s = .next s' ∧
      s'.chans[ch] = { c with lowv := set } ∧ others s') ∧
    (e.mode = 0x20 ∨ e.mode = 0x21 ∨ e.mode = 0x22 →
      set = decide ((if e.mode = 0x21 then 100000 else 200000) < (c.value.toInt - c.driving).natAbs) →
      ∃ s', exec (.analogueOutputFault t ch .disc set) s = .next s' ∧ s'.chans[ch] = { c with cdisc := set } ∧ others s' ∧
        (set = true → c.changedAt + 10000000 ≤ s'.now))

/-- R203, R284 to R288, R193: what an analogue output does after a commit, silenced, and on a relief. -/
def Stated.AnalogueOutputStates : Prop :=
  ∀ (c : Chan) (g : Group) (e : ChanCfg) (w : Word) (now : Nat), g.lplus = true → g.cfg = true → c.follow = true → c.lastCom = some w →
    c.trimG = 0 → c.trimO = 0 →
    (g.relief = false → e.mode = 0x20 → (c.drivenAna false g e now).aout = .value (min 24000000 (w.toNat : Int))) ∧
    (g.relief = false → e.mode = 0x22 → (c.drivenAna false g e now).aout = .value (max 3400000 (min 24000000 (w.toNat : Int)))) ∧
    (g.relief = false → e.mode = 0x21 → e.range ≠ 1 → (c.drivenAna false g e now).aout = .value (max (-10000000) (min 10000000 w.toInt))) ∧
    (e.mode = 0x20 ∨ e.mode = 0x21 → (c.drivenAna true g e now).aout = .off) ∧
    (e.mode = 0x22 → (c.drivenAna true g e now).aout = .standby) ∧
    (g.relief = true → e.mode = 0x20 → (c.drivenAna false g e now).aout = .off) ∧
    (g.relief = false → e.mode = 0x20 ∨ e.mode = 0x21 → (c.drivenAna false { g with cfg := false } e now).aout = .off) ∧
    (g.relief = false → e.mode = 0x22 → (c.drivenAna false { g with cfg := false } e now).aout = .alarm (!g.almsel))

/-- Each flag event sets or clears its one flag where the measured value agrees; the first fault of a record latches and records it. An
analogue output drives its committed word within its range, is OFF or in standby while silenced, OFF on a relief, and OFF or in the strapped
alarm in a group without modes. The agreement of OVER and UNDER with the value
is log entry 23. From 11_analogue_channels: R277, R280, R283, R284, R285, R286, R287, R300; 08_cycle_image_time: R203. -/
def Obligations.AnalogueState : Prop := Stated.AnalogueFlags ∧ Stated.AnalogueOutputStates

/-- A low or high point of a sound channel is stored in its group with its measured mean as result; step 3 with one low point within its
limit awaits its NV write; step 4 discards the points; step 5 awaits the NV write of the factory values, and is refused with 0x0232
while another channel's points are held; without L+ a point is refused with 0x0230. Order of the checks: log entry 23. From 11_analogue_channels: R293, R294; 13_host_interface: R353. -/
def Obligations.CalibrationSteps : Prop :=
  ∀ (s : State) (t : Nat) (c : RingId) (e : CmdEntry) (mean : Int) (n : ChanId) (k : ChanCfg), s.CanAnswer c → e.b 4 = n.val →
    s.chans[n].cfg = some k → k.isAin = true →
    let g := s.groups[grpOf n]
    let mine := g.calCh.toNat = (idxOf n).val
    let lead : Int := if k.mode = 0x18 ∨ k.mode = 0x1E then (u32 k.param 4 : Nat) else 0
    let sound := g.lplus = true ∧ g.engfail = false ∧ s.chans[n].stale = false ∧ s.chans[n].aFault = false ∧ 32 * k.sps ≤ s.spareSlots (grpOf n) ∧
      ((g.calLow = none ∧ g.calHigh = none) ∨ mine)
    let point : CalPoint := { ref := (BitVec.ofNat 32 (e.w 8)).toInt, meas := mean - lead }
    (sound → e.formOk 0 [(4, 1), (5, 1), (8, 4)] = true → e.b 5 = 1 → ∃ s', exec (.calibrationLowPoint t c e mean true) s = .next s' ∧
      Answers s s' c e 0 (toLe 4 (BitVec.ofInt 32 (mean - lead)).toNat ++ toLe 4 64) ∧ s'.groups[grpOf n].calLow = some point ∧
      s'.groups[grpOf n].calHigh = g.calHigh ∧ s'.groups[grpOf n].calCh.toNat = (idxOf n).val ∧ s'.chans = s.chans ∧ LanesKept s s') ∧
    (sound → e.formOk 0 [(4, 1), (5, 1), (8, 4)] = true → e.b 5 = 2 → ∃ s', exec (.calibrationHighPoint t c e mean true) s = .next s' ∧
      Answers s s' c e 0 (toLe 4 (BitVec.ofInt 32 (mean - lead)).toNat ++ toLe 4 64) ∧ s'.groups[grpOf n].calHigh = some point ∧
      s'.groups[grpOf n].calLow = g.calLow ∧ s'.chans = s.chans ∧ LanesKept s s') ∧
    (∀ a : CalPoint, e.formOk 0 [(4, 1), (5, 1)] = true → e.b 5 = 3 → mine → g.calLow = some a → g.calHigh = none → s.nv.ready = true →
      (a.ref - a.meas).natAbs * 100 ≤ spanOf k → ∃ s', exec (.calibrationStore t c e) s = .next s' ∧ Awaits s s' c e 0x40 ∧
        s'.nv.writes = s.nv.writes + 1 ∧ s'.nv.mem = s.nv.mem ∧ s'.chans = s.chans ∧ s'.groups = s.groups ∧ LanesKept s s') ∧
    (e.formOk 0 [(4, 1), (5, 1)] = true → e.b 5 = 4 → ((g.calLow = none ∧ g.calHigh = none) ∨ mine) →
      ∃ s', exec (.calibrationDiscard t c e) s = .next s' ∧ Answers s s' c e 0 [] ∧ s'.groups[grpOf n].calLow = none ∧
        s'.groups[grpOf n].calHigh = none ∧ s'.chans = s.chans ∧ s'.nv = s.nv ∧ LanesKept s s') ∧
    (e.formOk 0 [(4, 1), (5, 1)] = true → e.b 5 = 5 → ¬ ((g.calLow = none ∧ g.calHigh = none) ∨ mine) →
      ∃ s', exec (.factoryCalibration t c e) s = .next s' ∧ Answers s s' c e 0x0232 [] ∧ s'.groups = s.groups ∧ s'.nv = s.nv) ∧
    (e.formOk 0 [(4, 1), (5, 1)] = true → e.b 5 = 5 → ((g.calLow = none ∧ g.calHigh = none) ∨ mine) → s.nv.ready = true → ∃ s', exec (.factoryCalibration t c e) s = .next s' ∧
      Awaits s s' c e 0x40 ∧ s'.nv.writes = s.nv.writes + 1 ∧ s'.nv.mem = s.nv.mem ∧ s'.chans = s.chans ∧ LanesKept s s') ∧
    (e.formOk 0 [(4, 1), (5, 1), (8, 4)] = true → e.b 5 = 1 → g.lplus = false → ∃ s', exec (.calibrationLowPoint t c e mean true) s = .next s' ∧
      Answers s s' c e 0x0230 [] ∧ s'.groups = s.groups)

/-- R298, R353: the return of a group's own engine after 10 s of good checks. -/
def Stated.SpareReturns : Prop :=
  ∀ (s : State) (t : Nat) (c : RingId) (e : CmdEntry) (g : GrpId), s.CanAnswer c → e.formOk 0 [(4, 1)] = true → e.b 4 = g.val →
    (s.spare.assigned = some g → s.groups[g].engok = true → s.groups[g].engSince + 4000000000 ≤ s.then t →
      ∃ s' r, exec (.spareEngineReturn t c e) s = .next s' ∧ Answers s s' c e 0 r ∧ s'.spare.assigned = none ∧ s'.spare.connected = false ∧
        s'.spare.started = false ∧ s'.groups[g].spare = false ∧ s'.groups[g].engfail = false ∧ s'.groups[g].retevt = true ∧ LanesKept s s') ∧
    (s.spare.assigned ≠ some g → ∃ s', exec (.spareEngineReturn t c e) s = .next s' ∧ Answers s s' c e 0x0234 [] ∧ s'.groups = s.groups ∧
      s'.spare = s.spare)

/-- A good frame schedules the next one, and its samples take effect with a frame's delay at the record; a failed zero check fails the
engine, makes its records stale and assigns the spare when it is free; the spare connects, starts its schedule 17 ms after, and gives the
group back after 10 s of good checks, else 0x0234. Frame instants are log entry 23. From 11_analogue_channels: R271, R272, R273, R277,
R290, R295, R296, R297, R298, R299, R301. -/
def Obligations.SparePaths : Prop := Stated.EnginesAndSpare ∧ Stated.SpareReturns

/-- R309, R313 to R316, R322, R329: a frame that a port receives: counted, matched against the filters, mapped into the receive bytes. -/
def Stated.CanReception : Prop :=
  ∀ (s : State) (t : Nat) (k : PortId) (x : CanFrame) (c : Conf) (f : CanFilter), s.Inv → s.cans[k].on = true →
    s.app.cur = some c → c.way.filters.filter (fun f => f.port == k.val) = [f] →
    let hit := x.remote = false ∧ x.ide = f.ide ∧ x.id.toNat &&& f.mask = f.id &&& f.mask ∧ (f.fmt = 0 ∨ (f.fmt = 1 ∧ x.fd = false) ∨ (f.fmt = 2 ∧ x.fd = true)) ∧
      f.src + f.len ≤ x.payload.length
    let head := if f.stamp then 4 else 0
    ∃ s', exec (.canFrameReceived t k x) s = .next s' ∧ s'.cans[k].rxcnt = s.cans[k].rxcnt + 1 ∧ s'.rooms = s.rooms ∧ s'.dmem = s.dmem ∧
      s'.img = { s.img with canRx := s'.img.canRx } ∧ (∀ j : PortId, j ≠ k → s'.cans[j] = s.cans[j]) ∧
      (hit → ∀ y, let b := 0x800 + 0x100 * k.val + f.dst
        s'.img.canRx.get y =
          if f.stamp = true ∧ b ≤ y ∧ y < b + 4 then x.sofTb.extractLsb' (8 * (y - b)) 8
          else if b + head ≤ y ∧ y < b + head + f.len then byteAt x.payload (f.src + (y - b - head))
          else s.img.canRx.get y) ∧
      (¬ hit → s'.img = s.img ∧ s'.cans[k].ovrcnt = s.cans[k].ovrcnt) ∧
      (hit → s.cans[k].hits.getLsbD 0 = true → s'.cans[k].ovrcnt = s.cans[k].ovrcnt + 1 ∧ s'.cans[k].evt.getLsbD 7 = true) ∧
      (hit → s.cans[k].cycleStart.isSome = true → s'.cans[k].hits.getLsbD 0 = true)

/-- R317 to R321, R327: windows, attempts, completions and withdrawals of transmission. -/
def Stated.CanTransmission : Prop :=
  ∀ (s : State) (t : Nat) (k : PortId) (c : Conf) (i n : Nat) (e : CanCyc) (b : CanBuf) (q : QFrame) (td : Byte), s.app.cur = some c →
    let p := s.cans[k]
    let others (s' : State) : Prop := LanesKept s s' ∧ ∀ j : PortId, j ≠ k → s'.cans[j] = s.cans[j]
    ((c.way.cycs.filter (fun x => x.port == k.val))[i]? = some e → (c.way.bufs.filter (fun x => x.port == k.val))[e.buf]? = some b →
      (p.cycleStart = some n → p.armed.contains i = true → ∃ s', exec (.canWindowOpen t k i) s = .next s' ∧ others s' ∧
        s'.now = max (s.then t) (s.cycleOfTb (20000 * n + 400 * e.wopen)) ∧ s'.cans[k].armed = p.armed.erase i ∧
        ∃ f, s'.cans[k].queue = p.queue ++ [f] ∧ f.entry = i ∧ f.attempt = false ∧
          f.payload = s.img.com.read (0x2000 + 0x100 * k.val + b.txoff) (canPayload b.dlc) ∧
          f.latest + frameTime b p.nbt p.dbt = max (20000 * n + 400 * e.wclose) (frameTime b p.nbt p.dbt)) ∧
      (p.on = true → p.gate = false → p.listen = false → p.restricted = false → p.queue = [q] → q.attempt = false → q.final = false → q.entry = i →
        (s.at t).tb ≤ q.latest → ∃ s', exec (.canTxAttempt t k td) s = .next s' ∧ others s' ∧ s'.cans[k].queue = [{ q with attempt := true }] ∧
          ∃ bs, s'.out = s.out ++ [.canTx k bs] ∧ bs.drop 6 = q.payload ∧ u32 bs 0 = b.id % 2 ^ 32) ∧
      (p.on = true → (p.gate = true ∨ p.listen = true ∨ p.restricted = true) → ∃ s', exec (.canTxAttempt t k td) s = .next s' ∧
        s' = { s with now := s.then t })) ∧
    (p.queue = [q] → q.attempt = true → (∃ s', exec (.canTxComplete t k .sent) s = .next s' ∧ others s' ∧ s'.cans[k].queue = [] ∧
        s'.cans[k].txcnt = p.txcnt + 1 ∧ s'.cans[k].tec = p.tec - 1) ∧
      (q.final = false → ∃ s', exec (.canTxComplete t k .error) s = .next s' ∧ others s' ∧ s'.cans[k].queue = [{ q with attempt := false }] ∧
        s'.cans[k].txcnt = p.txcnt) ∧
      (q.final = true → ∃ s', exec (.canTxComplete t k .lostArbitration) s = .next s' ∧ s'.cans[k].queue = [] ∧ s'.cans[k].wdrcnt = p.wdrcnt + 1)) ∧
    (p.queue = [q] → q.attempt = false → q.entry = i → i < 256 → ∃ s', exec (.canFrameWithdraw t k i) s = .next s' ∧ others s' ∧ s'.cans[k].queue = [] ∧
      s'.cans[k].wdrcnt = p.wdrcnt + 1 ∧ s'.cans[k].wdrmap.getLsbD i = true ∧ s'.cans[k].evt.getLsbD 6 = true ∧
      s'.now = max (s.then t) (s.cycleOfTb (q.latest + 1)) ∧
      (s.steward = true → s'.recorded 0x50 k.val sevNotice))

/-- A received frame is counted; when the port's filter accepts it, exactly its mapped bytes and stamp of the receive area change, and a
second hit in one bus cycle counts an overrun. A window arms its entry's frame with its payload and latest start; attempts, completions,
errors and withdrawals move the queue and counters as stated, with the withdrawal recorded. Formats of the out log and counter decrements:
log entries 4 and 24. From 12_can_ports: R309, R313, R314, R315, R316, R317, R318, R319, R320, R321, R327. -/
def Obligations.CanFrames : Prop := Stated.CanReception ∧ Stated.CanTransmission

/-- Errors raise the counters and the passive state; at 256 the port is bus-off, empties its queue and marks every area stale. Recovery
clears counters; loss of CAN_V+ resets the port's bus state and termination, its return waits for integration; the termination set-up is
kept and written to NV. Other ports stay. Log entry 24. From 12_can_ports: R322, R323; 02_module_connectors_power: R46; 20_electrical:
R507. -/
def Obligations.CanErrorsAndSupply : Prop :=
  ∀ (s : State) (t : Nat) (k : PortId) (err : CanErr) (on : Bool),
    let p := s.cans[k]
    let others (s' : State) : Prop := LanesKept s s' ∧ ∀ j : PortId, j ≠ k → s'.cans[j] = s.cans[j]
    (p.on = true → p.restricted = false → p.listen = false → ∃ s', exec (.canError t k err) s = .next s' ∧ others s' ∧
      (if err.transmitter = true ∧ 256 ≤ p.tec + err.weight then
        s'.cans[k].busoff = true ∧ s'.cans[k].queue = [] ∧ s'.cans[k].stale = BitVec.allOnes 64 ∧ s'.cans[k].active = false ∧ s'.cans[k].evt.getLsbD 2 = true ∧
          (s.steward = true → s'.recorded 0x52 k.val sevFault)
      else p.tec < 256 → p.busoff = false → s'.cans[k].busoff = false ∧ s'.cans[k].queue = p.queue ∧
        s'.cans[k].tec = p.tec + (if err.transmitter then err.weight else 0) ∧
        s'.cans[k].recc = p.recc + (if err.transmitter then 0 else err.weight) ∧
        (s'.cans[k].passive = decide (128 ≤ s'.cans[k].tec ∨ 128 ≤ s'.cans[k].recc)))) ∧
    (p.busoff = true → p.recovering = true → ∃ s', exec (.canRecoveryComplete t k) s = .next s' ∧ others s' ∧ s'.cans[k].busoff = false ∧
      s'.cans[k].tec = 0 ∧ s'.cans[k].recc = 0 ∧ s'.cans[k].evt.getLsbD 3 = true) ∧
    (s.steward = true → ∃ s', exec (.canRecover t k) s = .next s' ∧ others s' ∧ s'.cans[k] = { p with recovering := p.recovering || p.busoff }) ∧
    (p.vplus = true → ∃ s', exec (.canVplusLost t k) s = .next s' ∧ others s' ∧ s'.cans[k].vplus = false ∧ s'.cans[k].integrated = false ∧
      s'.cans[k].busoff = false ∧ s'.cans[k].tec = 0 ∧ s'.cans[k].recc = 0 ∧ s'.cans[k].queue = [] ∧ s'.cans[k].term = false ∧
      s'.cans[k].stale = BitVec.allOnes 64 ∧ s'.cans[k].active = false ∧ s'.cans[k].evt.getLsbD 4 = true ∧ (s.steward = true → s'.recorded 0x53 k.val sevFault)) ∧
    (p.vplus = false → ∃ s', exec (.canVplusReturn t k) s = .next s' ∧ others s' ∧ s'.cans[k].vplus = true ∧ s'.cans[k].integrated = false ∧
      s'.cans[k].active = false ∧ (s.steward = true → s'.cans[k].term = s'.cans[k].termSet)) ∧
    (p.vplus = true → p.integrated = false → p.cfgMode ≠ 0 → ∃ s', exec (.canPortIntegrated t k) s = .next s' ∧ others s' ∧
      s'.cans[k].integrated = true ∧ s'.cans[k].evt.getLsbD 5 = true) ∧
    (s.steward = true → ∃ s', exec (.canTermWrite t k on) s = .next s' ∧ others s' ∧ s'.cans[k].termSet = on ∧ s'.cans[k].term = (on && p.vplus) ∧
      s'.nv.writes = s.nv.writes + 1) ∧
    (p.vplus = true → ∃ s', exec (.dominantTimeOut t k) s = .next s' ∧ others s' ∧ s'.cans[k] = { p with domRel := true })

/-- Detection starts on an idle port without a running application, is refused while one runs, steps to the next candidate at an error,
needs two good frames for the nominal rate, locks after 1 s without a data-rate frame, fails at its time limit or by the driver's abort.
Candidate order: log entry 24. From 12_can_ports: R329. -/
def Obligations.CanRateDetection : Prop :=
  ∀ (s : State) (t : Nat) (k : PortId) (x : CanFrame),
    let p := s.cans[k]
    let others (s' : State) : Prop := LanesKept s s' ∧ ∀ j : PortId, j ≠ k → s'.cans[j] = s.cans[j]
    (s.steward = true → s.app.running = false → p.det = .idle → ∃ s', exec (.canDetStart t k) s = .next s' ∧ others s' ∧ s'.cans[k].det = .nominal ∧
      s'.cans[k].detNom = 0 ∧ s'.cans[k].detStart = s.then t ∧ s'.cans[k].detValid = false) ∧
    (s.steward = true → (p.det = .nominal ∨ p.det = .data) → ∃ s', exec (.canDetStart t k) s = .next s' ∧ others s' ∧ s'.cans[k] = { p with detRefused := true }) ∧
    (p.vplus = true → p.det = .nominal → ∃ s', exec (.canFrameReceived t k x) s = .next s' ∧ others s' ∧ s'.cans[k].rxcnt = p.rxcnt + 1 ∧
      (p.detGood = 0 → s'.cans[k].det = .nominal ∧ s'.cans[k].detGood = 1) ∧ (p.detGood = 1 → s'.cans[k].det = .data ∧ s'.cans[k].detData = 0)) ∧
    (p.vplus = true → p.det = .nominal → ∃ s', exec (.canError t k { code := 1, dphase := false, transmitter := false, weight := 1 }) s = .next s' ∧
      others s' ∧ s'.cans[k].det = .nominal ∧ s'.cans[k].detNom = (p.detNom + 1) % 4 ∧ s'.cans[k].detGood = 0) ∧
    (p.det = .data → p.detGood = 0 → ∃ s', exec (.rateDetectionDataTimeout t k) s = .next s' ∧ others s' ∧ s'.cans[k].det = .locked ∧
      s'.cans[k].detValid = true ∧ s'.cans[k].evt.getLsbD 8 = true ∧ s'.now = max (s.then t) (p.detSince + 400000000)) ∧
    ((p.det = .nominal ∨ p.det = .data) → p.detTime ≠ 0 → ∃ s', exec (.rateDetectionTimeout t k) s = .next s' ∧ others s' ∧ s'.cans[k].det = .failed ∧
      s'.cans[k].detFail = true ∧ s'.cans[k].evt.getLsbD 9 = true ∧ s'.cans[k].stale = BitVec.allOnes 64 ∧
      s'.now = max (s.then t) (p.detStart + p.detTime.toNat * 400000000) ∧ (s.steward = true → s'.recorded 0x54 k.val sevNotice)) ∧
    (s.steward = true → (p.det = .nominal ∨ p.det = .data) → ∃ s', exec (.canDetAbort t k) s = .next s' ∧ others s' ∧ s'.cans[k].det = .failed ∧
      s'.cans[k].detFail = true)

/-- R8, R9, R10, R71, R101, R266, R300, R330, R336, R368, R404, R415, R433, R456, R471, R492: BAR0 writes. A 1 clears a W1C bit, an RW field takes the
value, but a bit that the module sets in the same cycle stays; a write without all four bytes outside the MSI-X table changes nothing, and
no register write reaches rooms, data memory, image or NV content. -/
def Stated.RegisterWrites : Prop :=
  ∀ (s : State) (t : Nat) (off : BitVec 16) (val : Word), s.steward = true →
    let eff (o : Nat) : Word := val &&& ~~~(BitVec.ofNat 32 ((s.at t).marked o))
    let clears (o m : Nat) : Prop := ∃ s', exec (.registerWrite t (BitVec.ofNat 16 o) val 0xF) s = .next s' ∧
      barWord s' o = barWord (s.at t) o &&& ~~~(eff o &&& BitVec.ofNat 32 m)
    (∀ be : BitVec 4, ∃ s', exec (.registerWrite t off val be) s = .next s' ∧ s'.now = s.then t ∧ s'.dmem = s.dmem ∧ s'.img = s.img ∧
      s'.nv.mem = s.nv.mem ∧ s'.nv.queue = s.nv.queue ∧ s'.app = s.app ∧ s'.pending = s.pending ∧
      (∀ r : RoomId, { s'.rooms[r] with oow := s.rooms[r].oow } = s.rooms[r]) ∧
      (be ≠ 0xF → off.toNat < 0xF000 → s' = { s with now := s.then t })) ∧
    (∀ x ∈ w1cRegisters, clears x.1 x.2) ∧
    (∀ g : GrpId, ∀ x ∈ w1cOfGroup, clears (0x3000 + 0x100 * g.val + x.1) x.2) ∧
    (∀ g : GrpId, clears (0x4080 + 4 * g.val) 0xFFFF0000 ∧ clears (0x4100 + 4 * g.val) 0xFFFF0000) ∧
    (∀ k : PortId, clears (0x2004 + 0x400 * k.val) 0x3FF) ∧
    (∀ (k : PortId) (j : Fin 8), clears (0x2080 + 0x400 * k.val + 4 * j.val) 0xFFFFFFFF) ∧
    (∀ r : RoomId, clears (0x5A00 + 12 * r.val) 0x1000) ∧
    (∃ s', exec (.registerWrite t 0x0808 val 0xF) s = .next s' ∧ s' = { s with now := s.then t, host := { s.host with setuplo := eff 0x808 } }) ∧
    (∃ s', exec (.registerWrite t 0x080C val 0xF) s = .next s' ∧ s' = { s with now := s.then t, host := { s.host with
      setuphi := eff 0x80C
      latch := s.host.latch.filter (fun x => x.1 != .setup) } }) ∧
    (∃ s', exec (.registerWrite t 0x1C0C val 0xF) s = .next s' ∧ s' = { s with now := s.then t, gb := { s.gb with snapsev := (eff 0x1C0C).setWidth 2 } }) ∧
    (∀ k : Fin 8, ∃ s', exec (.registerWrite t (BitVec.ofNat 16 (0x1C20 + 4 * k.val)) val 0xF) s = .next s' ∧
      s' = { s with now := s.then t, gb := { s.gb with snaps := s.gb.snaps.set k.val (eff (0x1C20 + 4 * k.val) &&& 0xFFFD) k.isLt } }) ∧
    (∀ k : PortId, ∃ s', exec (.registerWrite t (BitVec.ofNat 16 (0x2008 + 0x400 * k.val)) val 0xF) s = .next s' ∧
      s'.cans[k] = { s.cans[k] with evten := (eff (0x2008 + 0x400 * k.val)).setWidth 10 } ∧ ∀ j : PortId, j ≠ k → s'.cans[j] = s.cans[j]) ∧
    (∀ k : PortId, ∃ s', exec (.registerWrite t (BitVec.ofNat 16 (0x2020 + 0x400 * k.val)) val 0xF) s = .next s' ∧
      s'.cans[k] = { s.cans[k] with
        detRefused := s.cans[k].detRefused && !(eff (0x2020 + 0x400 * k.val)).getLsbD 3
        detTime := (eff (0x2020 + 0x400 * k.val)).extractLsb' 8 8 } ∧ ∀ j : PortId, j ≠ k → s'.cans[j] = s.cans[j]) ∧
    (∀ g : GrpId, ∃ s', exec (.registerWrite t (BitVec.ofNat 16 (0x4180 + 4 * g.val)) val 0xF) s = .next s' ∧
      ∀ i : Fin 16, ∀ n : ChanId, n.val = 16 * g.val + i.val → s'.chans[n] = { s.chans[n] with exer := (eff (0x4180 + 4 * g.val)).getLsbD i.val }) ∧
    (∀ k : Fin 16, ∃ s', exec (.registerWrite t (BitVec.ofNat 16 (0x6040 + 4 * k.val)) val 0xF) s = .next s' ∧
      s' = { s with now := s.then t, sec := { s.sec with enroll := s.sec.enroll.set k.val (eff (0x6040 + 4 * k.val)) k.isLt } })

/-- R336, R367: split reads, and MSI-X vectors masked and unmasked. -/
def Stated.SplitReadsAndVectors : Prop :=
  ∀ (s : State) (t : Nat) (v : Fin 16), s.steward = true →
    (∀ pair : SplitPair, ∃ s', exec (.splitValueRead t pair) s = .next s' ∧
      s' = { s with now := s.then t, host := { s.host with latch := s'.host.latch } } ∧
      (∀ n, let high := (splitOffsets pair).2
        ({ s' with now := n } : State).hostRead high = barWord (s.at t) high ∧
        ((({ s' with now := n } : State).takeRead high).2).hostRead high = barWord { s' with now := n } high)) ∧
    (s.host.busMaster = true → ∃ s', exec (.msixUnmask t v) s = .next s' ∧ s'.host.msixMask.getLsbD v.val = false ∧
      s'.host.msixPend.getLsbD v.val = false ∧ (∀ k, k ≠ v.val → s'.host.msixMask.getLsbD k = s.host.msixMask.getLsbD k) ∧
      s'.out = (if s.host.msixPend.getLsbD v.val then s.out ++ [.msix v] else s.out) ∧ LanesKept s s') ∧
    (s.host.busMaster = false → ∃ s', exec (.msixUnmask t v) s = .next s' ∧ s'.host.msixMask.getLsbD v.val = false ∧
      s'.host.msixPend = s.host.msixPend ∧ s'.out = s.out ∧ LanesKept s s')

/-- No register write reaches data memory, image, NV content, application or rooms but their OOW bits; a write without all four bytes
outside the MSI-X table changes nothing; every W1C bit clears where 1 is written unless it sets in the same cycle, and every RW field that has
no command of its own takes the value. A read of the low word of a pair latches the upper half for one read; unmasking a pending vector sends
it, or leaves it pending while requests pause. Log entry 17 names the registers with commands of their own. From 00_scope: R8, R9, R10;
13_host_interface: R330, R333, R336, R367, R368. -/
def Obligations.RegisterAccess : Prop := Stated.RegisterWrites ∧ Stated.SplitReadsAndVectors

/-- APPLY fails with 0x0105 when the table cannot be read and 0x0140 for a wrong header; with a right header and no ring in use the rings
run with everything at zero; APPLY while active does nothing, and one that must wait for bus mastering shows BUSY (log entry 9); DISABLE
clears every ring, keeps what a variable read in progress still owes the host, and sends nothing. From 13_host_interface: R333, R338, R339,
R340, R341, R342, R365. -/
def Obligations.RingSetUp : Prop :=
  ∀ (s : State) (t : Nat) (table bell : List Byte), s.steward = true →
    (s.host.active = false → s.host.busMaster = false → ∃ s', exec (.apply t (some table) (some bell)) s = .next s' ∧
      s' = { s with now := s.then t, host := { s.host with busy := true } }) ∧
    (s.host.active = false → s.host.busMaster = true →
      (∃ s', exec (.apply t none (some bell)) s = .next s' ∧ s'.host.active = false ∧ s'.host.setupStatus = 0x0105 ∧ s'.host.setupRing = 31) ∧
      (u32 table 0 ≠ 0x474E5248 → zeroFrom table 16 48 = true →
        (∀ r < 21, entryReservedOk (setupEntry table r) r = true) → ∃ s', exec (.apply t (some table) (some bell)) s = .next s' ∧
          s'.host.active = false ∧ s'.host.setupStatus = 0x0140 ∧ s'.host.setupRing = 31) ∧
      (u32 table 0 = 0x474E5248 → u16 table 4 = 1 → u16 table 6 = 0 → u64 table 8 % 4096 = 0 → zeroFrom table 16 48 = true →
        (∀ r < 21, zeroFrom (setupEntry table r) 0 64 = true) → zeroFrom bell 0 32 = true → zeroFrom bell 64 36 = true →
        ∃ s', exec (.apply t (some table) (some bell)) s = .next s' ∧ s'.host.active = true ∧ s'.host.busy = false ∧ s'.host.setupStatus = 0 ∧ s'.host.setupRing = 31 ∧
          s'.host.belliv = 20 ∧ s'.host.bellAddr = u64 table 8 ∧ s'.host.polls = 0 ∧ s'.host.cmds = 0 ∧ (∀ r : Fin 21, (s'.host.rings[r]).enable = false) ∧
          (∀ c : RingId, s'.host.cmdHead[c] = 0 ∧ s'.host.inProg[c] = none) ∧ s'.host.gen = s.host.gen + 1 ∧ LanesKept s s')) ∧
    (s.host.active = true → ∃ s', exec (.apply t (some table) (some bell)) s = .next s' ∧ s' = { s with now := s.then t }) ∧
    (∃ s', exec (.disable t) s = .next s' ∧ s'.host.active = false ∧ s'.host.busy = false ∧
      (∀ a bs, .hostWrite a bs ∈ s.host.outbox → .hostWrite a bs ∈ s'.host.outbox) ∧ (∀ r : Fin 21, s'.host.rings[r] = RingCfg.init) ∧
      (∀ c : RingId, s'.host.cmdHead[c] = 0 ∧ s'.host.cqTail[c] = 0 ∧ s'.host.inProg[c] = none ∧ s'.host.heldC[c] = []) ∧ s'.out = s.out ∧
      LanesKept s s' ∧ FieldKept s s')

/-- R333, R334, R343 to R345, R351, R367, R18, R469: the bell page, access to host memory, held completions and their failures. -/
def Stated.BellAndHostAccess : Prop :=
  ∀ (s : State) (t : Nat) (bs : List Byte) (c q : RingId) (x : Completion), s.steward = true →
    (s.host.active = true → s.host.busMaster = true →
      (∃ s', exec (.bellPoll t (some bs)) s = .next s' ∧ s'.now = max s.now (max t s.host.pollAt) ∧
          s'.host.pollAt = s'.now + (s.host.belliv - 2) * 400 ∧ s'.host.polls = s.host.polls + 1 ∧ (∀ k : RingId, s'.host.cmdTail[k] = BitVec.ofNat 32 (u32 bs (4 * k.val)) ∧
          s'.host.cqHead[k] = BitVec.ofNat 32 (u32 bs (0x40 + 4 * k.val))) ∧ s'.host.gbHead = BitVec.ofNat 32 (u32 bs 0x60) ∧ s'.host.cmdHead = s.host.cmdHead ∧
          ((s.host.rings[c.val]).enable = true → 2 ^ (s.host.rings[c.val]).logn < (BitVec.ofNat 32 (u32 bs (4 * c.val)) - s.host.cmdHead[c]).toNat →
            s'.host.ringErr.getLsbD c.val = true ∧ s'.host.ringerr = true) ∧ LanesKept s s') ∧
      (∃ s', exec (.bellPoll t none) s = .next s' ∧ s'.host.active = false ∧ s'.host.dmaerr = true ∧ s'.recorded 0x09 3 sevNotice) ∧
      (∃ s', exec (.bellIntervalEnd t) s = .next s' ∧ s'.host.evtPend = 0 ∧ LanesKept s s' ∧
        s'.now = max s.now (max t s.host.endAt) ∧ s'.host.endAt = s'.now + s.host.belliv * 400 ∧ s'.host.outbox = [] ∧
        (∀ o ∈ s.host.outbox, o ∈ s'.out.drop s.out.length) ∧ .bell 0x880 (s.cycle % 2 ^ 48) ∈ s'.out.drop s.out.length ∧
        (∀ v : Fin 16, s.host.evtPend.getLsbD v.val = true →
          if s.host.msixMask.getLsbD v.val then s'.host.msixPend.getLsbD v.val = true else .msix v ∈ s'.out.drop s.out.length)) ∧
      (∃ s', exec (.dmaFailure t .ring) s = .next s' ∧ s'.host.active = false ∧ s'.host.dmaerr = true ∧ s'.recorded 0x09 3 sevNotice) ∧
      (∀ ref, s.host.inProg[c] = some ref → ref.ring = c → s.edits.reads.any (fun v => v.ref == some ref) = true → s.host.cqRoom (s.host.cqOf c) = true →
        s.host.heldC[s.host.cqOf c] = [] → ∃ s', exec (.dmaFailure t (.buffer c)) s = .next s' ∧ s'.host.inProg[c] = none ∧ s'.host.active = true ∧
          ∃ b, CompletionWritten s s' (s.host.cqOf c) b ∧ u16 b 0 = ref.tag.toNat ∧ u16 b 2 = 0x0105) ∧
      (s.host.heldC[q] = [x] → s.host.outbox = [] → s.host.cqRoom q = true → ∃ s', exec (.heldCompletionWrite t q) s = .next s' ∧ s'.host.heldC[q] = [] ∧
        s'.host.cqTail[q] = s.host.cqTail[q] + 1 ∧ s'.host.cmds = s.host.cmds + 1 ∧
        ∃ b, CompletionWritten s s' q b ∧ s'.out.length = s.out.length + 2 ∧ u16 b 0 = x.ref.tag.toNat ∧ u16 b 2 = x.status.toNat)) ∧
    (s.host.active = false → s.host.busMaster = true → ∃ s', exec (.bellIntervalEnd t) s = .next s' ∧ s'.host.evtPend = 0 ∧ LanesKept s s' ∧
      s'.host.endAt = s'.now + s.host.belliv * 400 ∧ (∀ v : Fin 16, s.host.evtPend.getLsbD v.val = true →
        if s.host.msixMask.getLsbD v.val then s'.host.msixPend.getLsbD v.val = true else .msix v ∈ s'.out.drop s.out.length)) ∧
    (s.host.busMaster = false → ∃ s', exec (.bellIntervalEnd t) s = .next s' ∧ s' = { s with now := s.then t }) ∧
    (∃ s', exec (.busMasterDisable t) s = .next s' ∧ s' = { s with now := s.then t, host := { s.host with busMaster := false } }) ∧
    (∃ s', exec (.busMasterEnable t) s = .next s' ∧ s' = { s with now := s.then t, host := { s.host with busMaster := true } }) ∧
    (s.host.heldSince[q] ≠ 0 → s.host.heldC[q] ≠ [] → ∃ s', exec (.completionHeldTimeout t q) s = .next s' ∧ s'.recorded 0x09 4 sevNotice ∧
      s'.host.heldC[q] = s.host.heldC[q] ∧ s'.host.active = s.host.active ∧ s'.now = max (s.then t) (s.host.heldSince[q] + 400000000)) ∧
    (s.host.linkUp = true → ∃ s', exec (.pcieLinkDown t) s = .next s' ∧ s'.host = { s.host with linkUp := false } ∧ LanesKept s s' ∧ FieldKept s s' ∧
      (s.host.active = true → s'.recorded 0x09 1 sevNotice))

/-- An opcode that is not defined answers 0x0102; a malformed entry 0x0101 before any check of state; while a power failure is under way a
sound command answers 0x0201; a command that cannot begin changes nothing (log entry 2). From 13_host_interface: R348, R350, R353;
02_module_connectors_power: R50. -/
def Obligations.CommandChecks : Prop :=
  ∀ (s : State) (t : Nat) (c : RingId) (e : CmdEntry) (op : Byte),
    (s.CanAnswer c → op.toNat ∉ Instr.opcodes → ∃ s', exec (.unknownCommand t c e op) s = .next s' ∧ Answers s s' c e 0x0102 [] ∧ LanesKept s s') ∧
    (s.CanAnswer c → e.formOk 0 [] = false → ∃ s', exec (.stop t c e) s = .next s' ∧ Answers s s' c e 0x0101 [] ∧ s'.app = s.app) ∧
    (s.mayBegin c = true → s.host.cqRoom (s.host.cqOf c) = true → s.pwr.pfwarn = true → e.formOk 0 [] = true →
      ∃ s', exec (.stop t c e) s = .next s' ∧ Answers s s' c e 0x0201 [] ∧ s'.app = s.app) ∧
    (s.mayBegin c = false → ∃ s', exec (.stop t c e) s = .next s' ∧ s' = { s with now := s.then t })

/-- R339, R360 to R364: the oldest publication a ring owes is written to its buffer (k - 1) mod N, END odd first and even last, then
announced. -/
def Stated.PublicationWritten : Prop :=
  ∀ (s : State) (t : Nat) (p : Fin 4) (n : Nat) (data : List Byte) (rest : List (Nat × List Byte)), s.steward = true →
    s.host.active = true → s.host.busMaster = true →
    let g := s.host.rings[16 + p.val]
    let k := s.host.pubNum[p] + 1
    let a := g.base + g.stride * ((k - 1) % 2 ^ g.logn)
    g.enable = true → s.host.pubDue[p] = (n, data) :: rest →
    ∃ s' body, exec (.publication t p) s = .next s' ∧ s'.host.pubNum[p] = k ∧ s'.host.pubDue[p] = rest ∧ LanesKept s s' ∧
      s'.out = s.out ++ [.publish p k (a + 64 + data.length) (toLe 8 (2 * k - 1)), .publish p k (a + 8) body, .publish p k a (toLe 8 (2 * k)),
        .publish p k (a + 64 + data.length) (toLe 8 (2 * k)), .bell (0x850 + 4 * p.val) (k % 2 ^ 32)] ∧
      body.length = 56 + data.length ∧ u48 body 0 = n % 2 ^ 48 ∧ u16 body 6 = g.task % 2 ^ 16 ∧ u32 body 8 = data.length % 2 ^ 32 ∧
      zeroFrom body 12 44 = true ∧ slice body 56 data.length = data

/-- A poll takes tails and heads and stops a ring whose tail runs too far ahead; a failed poll or ring access ends the rings and is
recorded; a failed buffer access completes its command with 0x0105; a held completion is written when there is room and recorded after 1
s; a publication is written whole with its number before and after, then announced. Polls and interval ends come at their instants; while
requests pause nothing goes out. Log entries 4, 17, 36. From 13_host_interface: R333, R334, R343, R344, R345, R351, R360, R361, R362, R363, R367; 18_guestbook: R469. -/
def Obligations.BellAndPublications : Prop := Stated.BellAndHostAccess ∧ Stated.PublicationWritten

/-- A load checks its length, leaves what runs as it is and fills the innkeeper's memory and the free code half; admission is refused
while running or examining and else begins; staging begins when its states allow; a staged swap is discarded, a pending one refused. Code
halves are log entry 8, a SWAP waybill at admission log entry 27. From 07_innkeeper: R154, R155; 09_online_edit: R220; 13_host_interface:
R354. -/
def Obligations.WaybillRequests : Prop :=
  ∀ (s : State) (t : Nat) (c : RingId) (e : CmdEntry) (bs : List Byte), s.CanAnswer c →
    (e.formOk 0 [(4, 12)] = true →
      ((e.w 4 < 256 ∨ 0x300000 < e.w 4) → ∃ s', exec (.waybillLoad t c e (some bs)) s = .next s' ∧ Answers s s' c e 0x0103 [] ∧ s'.inn = s.inn) ∧
      (256 ≤ e.w 4 → e.w 4 ≤ 0x300000 → e.q 8 % 8 = 0 → s.inn.exam = none → s.edits.swap = .none →
        (∃ s', exec (.waybillLoad t c e none) s = .next s' ∧ Answers s s' c e 0x0105 [] ∧ s'.inn = s.inn) ∧
        (codeTooLarge (slice bs 0 (e.w 4)) = false → ∃ s', exec (.waybillLoad t c e (some bs)) s = .next s' ∧
          Answers s s' c e 0 (toLe 4 (e.w 4) ++ toLe 4 (u32 bs 16)) ∧ s'.inn = { s.inn with loaded := some (slice bs 0 (e.w 4)) } ∧
          { s'.app with code := s.app.code } = s.app ∧ s'.app.code[s.app.half] = s.app.code[s.app.half] ∧
          s'.app.code[1 - s.app.half] = codeWords (slice bs 0 (e.w 4)) (sections (slice bs 0 (e.w 4))) ∧ LanesKept s s' ∧ s'.nv = s.nv ∧
          s'.edits = s.edits)) ∧
      (256 ≤ e.w 4 → e.w 4 ≤ 0x300000 → e.q 8 % 8 = 0 → s.inn.exam = none → s.edits.swap ≠ .none →
        ∃ s', exec (.waybillLoad t c e (some bs)) s = .next s' ∧ Answers s s' c e 0x0222 [] ∧ s'.inn = s.inn ∧ s'.app = s.app)) ∧
    (e.formOk 0 [] = true →
      (s.app.running = true → ∃ s', exec (.admitWaybill t c e) s = .next s' ∧ Answers s s' c e 0x0211 [] ∧ s'.inn = s.inn) ∧
      (s.app.running = false → s.app.start = none → (∀ x, s.inn.exam = some x → ∃ s', exec (.admitWaybill t c e) s = .next s' ∧
        Answers s s' c e 0x0210 [] ∧ s'.inn = s.inn)) ∧
      (s.app.running = false → s.app.start = none → s.inn.exam = none → ∃ s', exec (.admitWaybill t c e) s = .next s' ∧ Awaits s s' c e 0x11 ∧
        s'.inn = { s.inn with exam := some { ref := s'.host.inProg[c], stage := false } } ∧ s'.app = s.app ∧ LanesKept s s')) ∧
    (e.formOk 1 [] = true →
      (s.inn.exam = none → s.applies = true → s.edits.swap = .none → s.batchOfChanged = false → ∃ s', exec (.swapStage t c e) s = .next s' ∧
        Awaits s s' c e 0x21 ∧ s'.inn = { s.inn with exam := some { ref := s'.host.inProg[c], stage := true } } ∧ s'.app = s.app ∧
        s'.edits = s.edits ∧ LanesKept s s') ∧
      (s.inn.exam = none → s.applies = false → ∃ s', exec (.swapStage t c e) s = .next s' ∧ Answers s s' c e 0x0220 [] ∧ s'.inn = s.inn) ∧
      (s.edits.swap = .staged → ∃ s', exec (.swapDiscard t c e) s = .next s' ∧ Answers s s' c e 0 [] ∧
        s'.edits = { s.edits with swap := .none, new := none } ∧ s'.app = s.app ∧ LanesKept s s') ∧
      ((s.edits.swap = .pendSwitch ∨ s.edits.swap = .pendRollback) → ∃ s', exec (.swapDiscard t c e) s = .next s' ∧
        Answers s s' c e 0x0227 [] ∧ s'.edits = s.edits) ∧
      ((s.edits.swap = .none ∨ s.edits.swap = .trial) → ∃ s', exec (.swapDiscard t c e) s = .next s' ∧
        Answers s s' c e 0x0223 [] ∧ s'.edits = s.edits))

/-- A refused waybill changes the innkeeper's report and nothing else; a swap that passes is staged with its ID and slots as result; an
admission that passes is stored with its retained windows taken over or zero, its rooms wait with registers zero, all other rooms are unused and no receive byte of
the former configuration stays; it waits for a charged NV store. Commit in one step is log entry 31; report conventions log entry 26. From 07_innkeeper: R156, R157, R181;
04_scan_engine: R80; 08_cycle_image_time: R195; 09_online_edit: R220. -/
def Obligations.ExaminationEnds : Prop :=
  ∀ (s : State) (t ms : Nat) (x : Exam), s.inn.exam = some x → (x.stage = true → s.applies = true) →
    ((s.examineLoaded x.stage).conf = none → ∃ s', exec (.admissionComplete t ms) s = .next s' ∧
      s'.inn = s.inn.report (s.examineLoaded x.stage) ms ∧ s'.inn.exam = none ∧ s'.inn.loaded = none ∧ s'.app = s.app ∧ s'.edits = s.edits ∧
      LanesKept s s' ∧ FieldKept s s' ∧ s'.nv = s.nv ∧
      (∀ ref, x.ref = some ref → Finishes s s' ref (BitVec.ofNat 16 (s.examineLoaded x.stage).status) ((s.examineLoaded x.stage).bytes.take 8))) ∧
    (∀ c, (s.examineLoaded x.stage).conf = some c →
      (x.stage = true → ∃ s', exec (.admissionComplete t ms) s = .next s' ∧ s'.edits = { s.edits with swap := .staged, new := some c } ∧
        s'.inn.exam = none ∧ s'.app = s.app ∧ LanesKept s s' ∧ s'.nv = s.nv ∧
        (∀ ref, x.ref = some ref → Finishes s s' ref 0 (toLe 4 c.way.crc.toNat ++ toLe 2 c.an.swapSlots ++ [0, 0]))) ∧
      (x.stage = false → s.nv.ready = false → ∃ s', exec (.admissionComplete t ms) s = .next s' ∧ s' = { s with now := s.then t }) ∧
      (x.stage = false → s.nv.ready = true → ∃ s', exec (.admissionComplete t ms) s = .next s' ∧
        s'.app = { s.app with stored := some c, cur := some c, runFlag := false, half := 1 - s.app.half } ∧
        s'.inn = s.inn.report (s.examineLoaded x.stage) ms ∧ s'.SetUpFor c ∧
        s'.dmem = Mem.ofChunks (((List.range c.way.tasks.length).map (s.keptWindow s.app.stored c)).mapIdx (fun i w => (c.an.retBase.getD i 0, w))) ∧
        (∀ ref, x.ref = some ref → Finishes s s' ref 0 (toLe 4 c.way.crc.toNat ++ [0, 0, 0, 0]))) ∧
      (x.stage = false → s.nv.ready = true → s.pair.role = 0 → c.way.pair = false → ∃ s', exec (.admissionComplete t ms) s = .next s' ∧
        s'.app = { s.app with stored := some c, cur := some c, runFlag := false, half := 1 - s.app.half } ∧ s'.inn.exam = none ∧
        s'.img = { s.img with canRx := [] } ∧ s'.edits = s.edits ∧ s'.pair.role = 0 ∧ s'.SetUpFor c ∧
        (∀ r : RoomId, s'.rooms[r].dirty = [] ∧ s'.rooms[r].jdead = false) ∧
        (∀ ref, x.ref = some ref → Finishes s s' ref 0 (toLe 4 c.way.crc.toNat ++ [0, 0, 0, 0]))))

/-- A batch that passes its checks waits for a release at least four base ticks ahead and keeps its bytes; the statuses of R214 answer at
once and change nothing; one batch per task; a relief refuses with 0x0701; a write for a given cycle number takes it when it is allowed
and else answers 0x0250; a read waits likewise, with 0x0121 and 0x0120 refused. Details of the order are log entry 28. From
09_online_edit: R211, R212, R213, R214, R215; 13_host_interface: R357, R358. -/
def Obligations.EditsAndReadsAccepted : Prop :=
  ∀ (s : State) (t : Nat) (c : RingId) (e : CmdEntry) (bs : List Byte), s.CanAnswer c → s.app.running = true →
    (e.formOk 0 [(4, 12)] = true → 12 ≤ e.h 6 → e.h 6 ≤ 256 → e.h 6 % 4 = 0 → e.h 4 < s.taskCount → e.q 8 % 8 = 0 →
      (s.isRelief = false → s.swapChanges (e.h 4) = false →
        ((∃ b ∈ s.edits.batches, b.task = e.h 4) → ∃ s', exec (.valueEdit t c e (some bs)) s = .next s' ∧ Answers s s' c e 0x0221 [] ∧
          s'.edits = s.edits) ∧
        ((∀ b ∈ s.edits.batches, b.task ≠ e.h 4) →
          (∀ es, batchEntries (e.h 6) (slice bs 0 (e.h 6)) = some es → s.batchStatus (e.h 4) (some es) = 0 →
            ∃ s' b, exec (.valueEdit t c e (some bs)) s = .next s' ∧ Awaits s s' c e 0x20 ∧ s'.edits.batches = s.edits.batches ++ [b] ∧
              b.task = e.h 4 ∧ s.cycle + 4 ≤ b.te ∧ b.ref = s'.host.inProg[c] ∧ some b.writes = s.entryWrites es ∧ LanesKept s s' ∧
              s'.edits.reads = s.edits.reads ∧ s'.edits.swap = s.edits.swap) ∧
          (∀ st, s.batchStatus (e.h 4) (batchEntries (e.h 6) (slice bs 0 (e.h 6))) = st → st ≠ 0 →
            ∃ s', exec (.valueEdit t c e (some bs)) s = .next s' ∧ Answers s s' c e (BitVec.ofNat 16 st) [] ∧ s'.edits = s.edits ∧
              LanesKept s s'))) ∧
      (s.isRelief = true → s.swapChanges (e.h 4) = false → (∀ b ∈ s.edits.batches, b.task ≠ e.h 4) →
        ∃ s', exec (.valueEdit t c e (some bs)) s = .next s' ∧ Answers s s' c e 0x0701 [] ∧ s'.edits = s.edits)) ∧
    (∀ v, e.formOk 0 [(4, 14), (20, 32)] = true → 1 ≤ e.h 10 → e.h 10 ≤ 32 → (slice e.body (16 + e.h 10) (32 - e.h 10)).any (· != 0) = false →
      s.findVar (e.w 4) = some v → s.isRelief = false → s.swapChanges v.task = false → (∀ b ∈ s.edits.batches, b.task ≠ v.task) →
      s.batchStatus v.task (batchEntries (oneEntry e).length (oneEntry e)) = 0 →
      ((u48 e.body 8 = 0 ∨ s.teAllowed v.task (u48 e.body 8) = true) → ∃ s' b, exec (.variableWriteAtRelease t c e) s = .next s' ∧
        Awaits s s' c e 0x31 ∧ s'.edits.batches = s.edits.batches ++ [b] ∧ b.task = v.task ∧ s.cycle + 4 ≤ b.te ∧ b.ref = s'.host.inProg[c] ∧
        (u48 e.body 8 ≠ 0 → b.te = u48 e.body 8) ∧ LanesKept s s') ∧
      (u48 e.body 8 ≠ 0 → s.teAllowed v.task (u48 e.body 8) = false → ∃ s', exec (.variableWriteAtRelease t c e) s = .next s' ∧
        Answers s s' c e 0x0250 [] ∧ s'.edits = s.edits)) ∧
    (e.formOk 0 [(4, 8), (16, 8)] = true → 1 ≤ e.h 10 → e.h 10 ≤ 32 → e.q 16 % 8 = 0 →
      (s.findVar (e.w 4) = none → ∃ s', exec (.variableRead t c e) s = .next s' ∧ Answers s s' c e 0x0121 [] ∧ s'.edits = s.edits) ∧
      (∀ v, s.findVar (e.w 4) = some v →
        (v.size < e.h 8 + e.h 10 → ∃ s', exec (.variableRead t c e) s = .next s' ∧ Answers s s' c e 0x0120 [] ∧ s'.edits = s.edits) ∧
        (s.readStatus e = 0 → ∃ s' r, exec (.variableRead t c e) s = .next s' ∧ Awaits s s' c e 0x30 ∧ s'.edits.reads = s.edits.reads ++ [r] ∧
          r.task = v.task ∧ r.addr = s.varAddr v + e.h 8 ∧ r.len = e.h 10 ∧ r.host = e.q 16 ∧ r.ref = s'.host.inProg[c] ∧ s.cycle + 4 ≤ r.te ∧
          s'.edits.batches = s.edits.batches ∧ LanesKept s s')))

/-- At its release a batch writes exactly its bytes, is recorded and completes with its cycle number, other rooms and the room's registers
as they were; a read sends the bytes as they stand and completes, and runs to its end after a DISABLE; before their tick, and for a release
that a stop leaves out, both wait. From 09_online_edit: R215, R216, R217; 13_host_interface: R333, R342, R357. -/
def Obligations.EditsAndReadsTakeEffect : Prop :=
  ∀ (s : State) (t : Nat), s.Inv → s.app.running = true → s.halted = false →
    (∀ b r, s.edits.batches = [b] → s.roomOf b.task = some r → b.te ≤ s.cycle → s.teComes b.te = true → ∃ s', exec (.editBatchApply t) s = .next s' ∧
      s'.edits = { s.edits with batches := [] } ∧ s'.recorded 0x20 r.val sevInfo ∧ s'.img = s.img ∧
      (∀ m, (∀ w ∈ b.writes, w.1 ≠ m) → s'.dmem.get m = s.dmem.get m) ∧
      (∀ m x, b.writes.filter (fun w => w.1 == m) = [(m, x)] → s'.dmem.get m = x) ∧
      (∀ q : RoomId, q ≠ r → s'.rooms[q] = s.rooms[q]) ∧ s'.rooms[r].g = s.rooms[r].g ∧ s'.rooms[r].pc = s.rooms[r].pc ∧
      s'.rooms[r].st = s.rooms[r].st ∧ s'.rooms[r].flags = s.rooms[r].flags ∧
      (∀ ref, b.ref = some ref → Finishes s s' ref 0 (toLe 6 b.te))) ∧
    ((∀ b ∈ s.edits.batches, s.cycle < b.te ∨ s.teComes b.te = false) → ∃ s', exec (.editBatchApply t) s = .next s' ∧ s' = { s with now := s.then t }) ∧
    (∀ r ref, s.edits.reads = [r] → r.ref = some ref → r.te ≤ s.cycle → s.teComes r.te = true →
      ∃ s', exec (.variableReadApply t) s = .next s' ∧ s'.edits = { s.edits with reads := [] } ∧ LanesKept s s' ∧
        (s.host.mute = false → if s.host.busMaster then Out.hostWrite r.host (s.dmem.read r.addr r.len) ∈ s'.out.drop s.out.length
          else Out.hostWrite r.host (s.dmem.read r.addr r.len) ∈ s'.host.outbox) ∧ Finishes s s' ref 0 (toLe 6 r.te)) ∧
    ((∀ r ∈ s.edits.reads, s.cycle < r.te ∨ s.teComes r.te = false) → ∃ s', exec (.variableReadApply t) s = .next s' ∧ s' = { s with now := s.then t })

/-- R355, R383, R50: START: its refusals in the order of their statuses, and what it leaves when it passes: a start due 40 base ticks
ahead, its rooms set up, and the run flag on its way to the NV store. -/
def Stated.StartRequested : Prop :=
  ∀ (s : State) (t : Nat) (c : RingId) (e : CmdEntry), s.CanAnswer c → e.formOk 0 [] = true →
    (s.app.stored = none → ∃ s', exec (.start t c e) s = .next s' ∧ Answers s s' c e 0x0240 [] ∧ s'.app = s.app) ∧
    (∀ cf, s.app.stored = some cf →
      ((s.app.running = true ∨ s.app.start ≠ none) → ∃ s', exec (.start t c e) s = .next s' ∧ Answers s s' c e 0x0241 [] ∧ s'.app = s.app) ∧
      (s.app.running = false → s.app.start = none → s.inn.exam = none → s.isRelief = true → ∃ s', exec (.start t c e) s = .next s' ∧
        Answers s s' c e 0x0701 [] ∧ s'.app = s.app) ∧
      (s.app.running = false → s.app.start = none → s.inn.exam = none → s.isRelief = false →
        (s.pair.settled = false → cf.way.pair = true → s.pwr.pairPresent = true → (s.pair.partnerPwr = true ∨ s.pair.link = true) →
          ∃ s', exec (.start t c e) s = .next s' ∧ Answers s s' c e 0x0704 [] ∧ s'.app = s.app) ∧
        (s.partnerUnknown = false → ∃ s', exec (.start t c e) s = .next s' ∧ Awaits s s' c e 0x12 ∧
          s'.app = { s.app with held := false, start := some { tick := s.cycle + 40, flagOk := false, ref := s'.host.inProg[c] } } ∧
          s'.SetUpFor cf ∧ s'.dmem = s.dmem ∧
          (if s.pair.settled = false ∧ cf.way.pair = true then s'.pair.role = 1 ∧ s'.pair.settled = true ∧ s'.pair.epoch = s.pair.epoch + 1
            else s'.pair = s.pair ∧ FieldKept s s'))))

/-- R69, R81, R164, R192, R204, R355, R452: the start tick. The configuration runs from this cycle number, every written mark and edit is gone, private
windows and publication stamps are zero, every assigned room is set up and released, the others are unused; before the steps of the start-up
it waits. -/
def Stated.StartTickRuns : Prop :=
  ∀ (s : State) (t : Nat) (q : StartReq) (c : Conf), s.Inv → s.app.start = some q → s.app.stored = some c →
    (q.flagOk = true → q.tick ≤ s.cycle → s.mayRelease = true → s.app.running = false →
      ∃ s', exec (.startTick t) s = .next s' ∧ s'.app.running = true ∧ s'.app.cur = some c ∧ s'.app.stored = some c ∧
        s'.app.startTick = s.cycle ∧ s'.app.start = none ∧ s'.img.written = [] ∧ s'.img.closed = [] ∧ s'.edits = Edits.init ∧ s'.cycle = s.cycle ∧
        (∀ r : RoomId, r.val ∉ c.an.rooms → s'.rooms[r] = Room.init) ∧
        (∀ (r : RoomId) (i : Nat) (k : Task), c.task i = some k → c.an.rooms[i]? = some r.val → 0 < k.k →
          s'.rooms[r].st = .ready ∧ s'.rooms[r].relTb = BitVec.ofNat 64 s'.tb ∧ s'.rooms[r].issued = 0 ∧ (∀ g : Reg, s'.rooms[r].get g = 0)) ∧
        (∀ i m k, c.task i = some k → c.an.privBase.getD i 0 ≤ m → m < c.an.privBase.getD i 0 + k.privLen → s'.dmem.get m = 0) ∧
        (∀ m, (∀ i k, c.task i = some k → ¬ (c.an.privBase.getD i 0 ≤ m ∧ m < c.an.privBase.getD i 0 + k.privLen)) →
          s'.dmem.get m = s.dmem.get m) ∧
        (∀ i k, c.task i = some k → 0 < k.pubLen → ∀ j < 4, s'.img.com.get (c.an.pubBase.getD i 0 + j) = 0) ∧
        (∀ ref, q.ref = some ref → Finishes s s' ref 0 (toLe 6 s.cycle))) ∧
    ((q.flagOk = false ∨ s.cycle < q.tick ∨ s.mayRelease = false) → ∃ s', exec (.startTick t) s = .next s' ∧ s' = { s with now := s.then t })

/-- START answers 0x0240, 0x0241, 0x0701 or 0x0704 in the states named (their order is log entry 34), else it schedules the start 40 base
ticks ahead with its rooms set up and waiting, and settles the role of an unsettled pair. At the start tick, with the run flag written and the
start-up done, the application runs from this cycle number: written marks and edits gone, private windows and publication stamps zero and
every other byte of data memory kept, assigned rooms READY with registers zero, other rooms unused. From 13_host_interface: R355;
14_pair_redundancy: R383; 07_innkeeper: R164; 03_clock_reset_startup: R69; 04_scan_engine: R81; 08_cycle_image_time: R204; 17_nv_store: R452. -/
def Obligations.Starts : Prop := Stated.StartRequested ∧ Stated.StartTickRuns

/-- STOP during a trial or release answers 0x0225, else it schedules the stop four base ticks ahead, discards a staged swap and tells the
relief, and drops calibration points held; at the stop tick the application ends, waiting and ready rooms stop with their registers kept, pending edits complete; 50 µs later
every group with L+ applies its safe states. A second STOP joins the first (log entry 33). From 13_host_interface: R356; 09_online_edit:
R230; 11_analogue_channels: R294; 14_pair_redundancy: R398. -/
def Obligations.StopSequence : Prop :=
  ∀ (s : State) (t : Nat) (c : RingId) (e : CmdEntry),
    (s.CanAnswer c → e.formOk 0 [] = true → s.app.running = true →
      ((s.edits.swap = .trial ∨ s.edits.swap = .releasing) → ∃ s', exec (.stop t c e) s = .next s' ∧ Answers s s' c e 0x0225 [] ∧ s'.app = s.app) ∧
      ((s.edits.swap = .none ∨ s.edits.swap = .staged) → s.isRelief = false → s.app.stop = none → ∃ s' ref, exec (.stop t c e) s = .next s' ∧
        Awaits s s' c e 0x13 ∧ s'.host.inProg[c] = some ref ∧ s'.app = { s.app with stop := some { tick := s.cycle + 4, refs := [ref] } } ∧
        s'.edits.swap = .none ∧ s'.edits.batches = s.edits.batches ∧ (∀ g : GrpId, s'.groups[g] = s.groups[g].noPoints) ∧ LanesKept s s' ∧
        (s.pair.role = 1 → s.pair.link = true → ∃ b, Out.frame 5 b ∈ s'.out.drop s.out.length ∧ u8 b 0 = 3 ∧
          u48 b 4 = (s.cycle + 4) % 2 ^ 48))) ∧
    (∀ q, s.app.stop = some q → s.halted = false → s.app.running = true →
      (q.tick ≤ s.cycle → ∃ s', exec (.stopTick t) s = .next s' ∧
        { s'.app with stopSafeAt := s.app.stopSafeAt } = { s.app with running := false } ∧ s'.app.stopSafeAt = some (s.then t + tickCycles) ∧
        s'.dmem = s.dmem ∧ s'.edits.batches = [] ∧ s'.edits.reads = [] ∧ s'.edits.swap = s.edits.swap ∧ s'.chans = s.chans ∧ s'.groups = s.groups ∧
        (∀ r : RoomId, s'.rooms[r].st = (if s.rooms[r].st = .waiting ∨ s.rooms[r].st = .ready then .stopped else s.rooms[r].st) ∧
          s'.rooms[r].g = s.rooms[r].g ∧ s'.rooms[r].pc = s.rooms[r].pc)) ∧
      (s.cycle < q.tick → ∃ s', exec (.stopTick t) s = .next s' ∧ s' = { s with now := s.then t })) ∧
    (∀ n, s.app.stopSafeAt = some n → ∃ s', exec (.stopSafeStates t) s = .next s' ∧ s'.now = max (s.then t) n ∧
      s'.app = { s.app with stopSafeAt := none } ∧ LanesKept s s' ∧ s'.cans = s.cans ∧
      (∀ g : GrpId, if s.groups[g].lplus then s'.groups[g].stopSafe = true ∧ s'.groups[g].supact = true ∧
          ∀ n ∈ chansOf g, s'.chans[n].follow = false ∧
            (s.groups[g].relief = false → ∀ e, s.chans[n].cfg = some e → e.mode = 8 ∨ e.mode = 9 → e.safe = 0 → s'.chans[n].drive = false)
        else s'.groups[g] = s.groups[g] ∧ ∀ n ∈ chansOf g, s'.chans[n] = s.chans[n]))

/-- In their right state the three take their tick at least 40 base ticks ahead, a commit and a rollback at a common release of the
changed tasks; with a relief in step they await its confirmation and a proposal is sent; in other states they answer 0x0227, 0x0223,
0x0224 or 0x0701; a rollback during a release gives the release up, a second release completes with the first (log entry 44). The release's
tick is log entry 29. From 09_online_edit: R225, R228, R229, R230, R233. -/
def Obligations.SwapCommands : Prop :=
  ∀ (s : State) (t : Nat) (c : RingId) (e : CmdEntry), s.CanAnswer c →
    (e.formOk 1 [] = true →
      ((s.edits.swap = .pendSwitch ∨ s.edits.swap = .pendRollback) → ∃ s', exec (.swapCommit t c e) s = .next s' ∧
        Answers s s' c e 0x0227 [] ∧ s'.edits = s.edits) ∧
      ((s.edits.swap = .none ∨ s.edits.swap = .trial ∨ s.edits.swap = .releasing) → ∃ s', exec (.swapCommit t c e) s = .next s' ∧ Answers s s' c e 0x0223 [] ∧
        s'.edits = s.edits) ∧
      (s.edits.swap = .staged → s.isRelief = true → ∃ s', exec (.swapCommit t c e) s = .next s' ∧
        Answers s s' c e 0x0701 [] ∧ s'.edits = s.edits) ∧
      (s.edits.swap = .staged → s.app.running = true → s.isRelief = false → (s.reliefInStep = true → s.pair.partner.swap = 1) →
        ∃ s', exec (.swapCommit t c e) s = .next s' ∧ Awaits s s' c e 0x22 ∧ s'.edits.swap = .pendSwitch ∧ s'.edits.new = s.edits.new ∧
          s.cycle + 40 ≤ s'.edits.tick ∧ s'.edits.tick = s.commonRelease s.edits.new (s.cycle + 40) ∧ s'.edits.confirmed = !s.reliefInStep ∧
          s'.edits.ref = s'.host.inProg[c] ∧ s'.app = s.app ∧ LanesKept s s' ∧
          (s.reliefInStep = true → ∃ b, Out.frame 5 b ∈ s'.out.drop s.out.length ∧ u8 b 0 = 2 ∧ u8 b 4 = 0 ∧
            u48 b 5 = s'.edits.tick % 2 ^ 48)) ∧
      (s.edits.swap = .trial → s.isRelief = false → (s.reliefInStep = true → s.pair.partner.swap = 2) →
        ∃ s', exec (.swapRelease t c e) s = .next s' ∧ Awaits s s' c e 0x22 ∧ s'.edits.swap = .releasing ∧ s'.edits.tick = s.cycle + 40 ∧
          s'.edits.confirmed = !s.reliefInStep ∧ s'.edits.ref = s'.host.inProg[c] ∧ s'.app = s.app ∧ LanesKept s s') ∧
      (s.edits.swap = .releasing → s.isRelief = false → (s.reliefInStep = true → s.pair.partner.swap = 2) →
        ∃ s' ref, exec (.swapRelease t c e) s = .next s' ∧ Awaits s s' c e 0x22 ∧ s'.host.inProg[c] = some ref ∧
          s'.edits = { s.edits with also := s.edits.also ++ [ref] } ∧ s'.app = s.app ∧ LanesKept s s') ∧
      ((s.edits.swap = .none ∨ s.edits.swap = .staged) → ∃ s', exec (.swapRelease t c e) s = .next s' ∧ Answers s s' c e 0x0224 [] ∧
        s'.edits = s.edits)) ∧
    (e.formOk 0 [] = true →
      ((s.edits.swap = .trial ∨ s.edits.swap = .releasing) → s.isRelief = false → (s.reliefInStep = true → s.pair.partner.swap = 2) →
        (∀ ref, s.edits.ref = some ref ∨ ref ∈ s.edits.also → ref.ring ≠ c) →
        ∃ s', exec (.swapRollback t c e) s = .next s' ∧ Awaits s s' c e 0x23 ∧ s'.edits.swap = .pendRollback ∧ s'.edits.old = s.edits.old ∧
          s.cycle + 40 ≤ s'.edits.tick ∧ s'.edits.tick = s.commonRelease s.app.cur (s.cycle + 40) ∧ s'.edits.confirmed = !s.reliefInStep ∧
          s'.edits.ref = s'.host.inProg[c] ∧ s'.app = s.app ∧ LanesKept s s' ∧
          (s.edits.swap = .releasing → ∀ ref, s.edits.ref = some ref → Finishes s s' ref 0x0224 [])) ∧
      ((s.edits.swap = .none ∨ s.edits.swap = .staged) → ∃ s', exec (.swapRollback t c e) s = .next s' ∧ Answers s s' c e 0x0224 [] ∧
        s'.edits = s.edits))

/-- At its tick the switch turns configuration, code half and migrated windows and is recorded; the rollback turns them back; both touch
the room of no task that is not changed, no field channel and no image byte; the release makes the running configuration the stored one
and changes nothing that runs. Conventions: log entry 29. From 09_online_edit: R224, R225, R226, R227, R228, R229. -/
def Obligations.SwapTicks : Prop :=
  ∀ (s : State) (t : Nat) (o n : Conf),
    (s.app.cur = some o → s.edits.new = some n → s.app.running = true → s.swapDue .pendSwitch = true → ∃ s',
      exec (.swapSwitchTick t) s = .next s' ∧ s'.app = { s.app with cur := some n, half := 1 - s.app.half } ∧ s'.edits.swap = .trial ∧
      s'.edits.old = some o ∧ s'.edits.new = some n ∧ s'.edits.ref = none ∧ s'.edits.slotEnd = s.then t + 8 * (n.an.swapSlots + 1) ∧
      s'.edits.batches = s.edits.batches ∧ s'.dmem = migrate o n (clearNew o n s.dmem) ∧ s'.img = s.img ∧ s'.recorded 0x21 0 sevNotice ∧
      FieldKept s s' ∧ s'.nv = s.nv ∧
      (∀ r : RoomId, (∀ i k, n.task i = some k → k.changed = true → n.an.rooms[i]? ≠ some r.val) → s'.rooms[r] = s.rooms[r]) ∧
      (n.an.rooms.Nodup → ∀ (r : RoomId) (i : Nat) (k : Task), n.task i = some k → k.changed = true → n.an.rooms[i]? = some r.val →
        s'.rooms[r].privBase = n.an.privBase.getD i 0 ∧ s'.rooms[r].privLen = k.privLen ∧ s'.rooms[r].retBase = n.an.retBase.getD i 0 ∧
          s'.rooms[r].retLen = k.retLen ∧ (s'.rooms[r].st = .waiting ∨ s'.rooms[r].st = .ready)) ∧
      (∀ ref, s.edits.ref = some ref → Finishes s s' ref 0 (toLe 6 s.cycle))) ∧
    (s.app.cur = some n → s.edits.old = some o → s.app.running = true → s.swapDue .pendRollback = true → ∃ s',
      exec (.rollbackTick t) s = .next s' ∧ s'.app = { s.app with cur := some o, half := 1 - s.app.half } ∧ s'.edits.swap = .none ∧
      s'.edits.old = none ∧ s'.edits.new = none ∧ s'.edits.ref = none ∧ s'.dmem = migrateBack o n s.dmem ∧ s'.img = s.img ∧ FieldKept s s' ∧
      (∀ r : RoomId, (∀ i k, n.task i = some k → k.changed = true → o.an.rooms[i]? ≠ some r.val) → s'.rooms[r] = s.rooms[r]) ∧
      (o.an.rooms.Nodup → ∀ (r : RoomId) (i : Nat) (k k' : Task), n.task i = some k → k.changed = true → o.task i = some k' →
        o.an.rooms[i]? = some r.val → s'.rooms[r].privBase = o.an.privBase.getD i 0 ∧ s'.rooms[r].privLen = k'.privLen ∧
          s'.rooms[r].retBase = o.an.retBase.getD i 0 ∧ s'.rooms[r].retLen = k'.retLen ∧
          (s'.rooms[r].st = .waiting ∨ s'.rooms[r].st = .ready)) ∧
      (∀ ref, s.edits.ref = some ref → Finishes s s' ref 0 (toLe 6 s.cycle))) ∧
    (s.app.cur = some n → s.edits.old = some o → s.edits.swap = .releasing → s.edits.confirmed = true → s.steward = true → s.pair.role = 0 →
      n.way.pair = false → ∃ s', exec (.swapReleaseComplete t) s = .next s' ∧ s'.app = { s.app with stored := some n } ∧
      s'.edits.swap = .none ∧ s'.edits.old = none ∧ s'.edits.new = none ∧ LanesKept s s' ∧ FieldKept s s' ∧ s'.pair.role = 0 ∧
      (∀ ref, s.edits.ref = some ref → Finishes s s' ref 0 []))

/-- A relief in step takes a proposed switch, rollback or release at the primary's tick and confirms it up to twenty base ticks before; to a
proposal of another ID it answers with its own and does not act (log entry 45); the primary takes the confirmation of its own ID and answers
0x0702 for another; what is not confirmed twenty base ticks before its tick returns to its former
state and answers 0x0703. Log entry 29. From 09_online_edit: R233; 14_pair_redundancy: R393. -/
def Obligations.SwapExchange : Prop :=
  ∀ (s : State) (t tick : Nat) (n : Conf), s.steward = true → tick < 2 ^ 48 → s.edits.new = some n →
    (s.pair.role = 2 → ∀ other : Word, other ≠ n.way.crc → ∃ s', exec (.swap t (0 :: toLe 6 tick ++ toLe 4 other.toNat)) s = .next s' ∧
      s'.edits = s.edits ∧ LanesKept s s' ∧ (s.pair.link = true → ∃ b, Out.frame 5 b ∈ s'.out.drop s.out.length ∧ u8 b 0 = 2 ∧ u8 b 4 = 1 ∧
        u48 b 5 = tick ∧ u32 b 11 = n.way.crc.toNat)) ∧
    (s.pair.role = 2 → tick < s.cycle + 20 → ∃ s', exec (.swap t (0 :: toLe 6 tick ++ toLe 4 n.way.crc.toNat)) s = .next s' ∧
      s' = { s with now := s.then t }) ∧
    (s.pair.role = 2 → s.cycle + 20 ≤ tick →
      (s.edits.swap = .staged → ∃ s', exec (.swap t (0 :: toLe 6 tick ++ toLe 4 n.way.crc.toNat)) s = .next s' ∧ s'.edits.swap = .pendSwitch ∧
        s'.edits.tick = tick ∧ s'.edits.confirmed = true ∧ LanesKept s s' ∧
        (s.pair.link = true → ∃ b, Out.frame 5 b ∈ s'.out.drop s.out.length ∧ u8 b 0 = 2 ∧ u8 b 4 = 1 ∧ u48 b 5 = tick)) ∧
      (s.edits.swap = .trial → ∃ s', exec (.swap t (2 :: toLe 6 tick ++ toLe 4 n.way.crc.toNat)) s = .next s' ∧
        s'.edits.swap = .pendRollback ∧ s'.edits.tick = tick ∧ s'.edits.confirmed = true ∧ LanesKept s s') ∧
      (s.edits.swap = .trial → ∃ s', exec (.swap t (3 :: toLe 6 tick ++ toLe 4 n.way.crc.toNat)) s = .next s' ∧
        s'.edits.swap = .releasing ∧ s'.edits.confirmed = true ∧ LanesKept s s')) ∧
    (s.pair.role = 1 → s.edits.swap = .pendSwitch → s.edits.confirmed = false → s.edits.tick = tick →
      (∃ s', exec (.swap t (1 :: toLe 6 tick ++ toLe 4 n.way.crc.toNat)) s = .next s' ∧
        s' = { s with now := s.then t, edits := { s.edits with confirmed := true } }) ∧
      (∀ other : Word, other ≠ n.way.crc → ∃ s', exec (.swap t (1 :: toLe 6 tick ++ toLe 4 other.toNat)) s = .next s' ∧ s'.edits.swap = .staged ∧
        s'.edits.ref = none ∧ (∀ ref, s.edits.ref = some ref → Finishes s s' ref 0x0702 []))) ∧
    (s.pair.reqSwitch = none → s.edits.confirmed = false →
      (s.edits.swap = .pendSwitch → s.edits.tick ≤ s.cycle + 20 → ∃ s', exec (.confirmTimeout t) s = .next s' ∧ s'.edits.swap = .staged ∧
        s'.edits.new = s.edits.new ∧ LanesKept s s' ∧ (∀ ref, s.edits.ref = some ref → Finishes s s' ref 0x0703 [])) ∧
      (s.edits.swap = .releasing → s.edits.tick ≤ s.cycle + 20 → ∃ s', exec (.confirmTimeout t) s = .next s' ∧ s'.edits.swap = .trial ∧
        (∀ ref, s.edits.ref = some ref → Finishes s s' ref 0x0703 [])) ∧
      (s.cycle + 20 < s.edits.tick → ∃ s', exec (.confirmTimeout t) s = .next s' ∧ s' = { s with now := s.then t }))

/-- R426, R430, R431: the calendar's next second by the rule of CalendarRule, the
comparators that match it, and the countdown. -/
def Stated.CalendarTicks : Prop :=
  ∀ (s : State) (t : Nat),
    (s.bk.dstStep = none → ∃ s', exec (.rtcSecond t) s = .next s' ∧ s'.bk.cal = (s.bk.cal.next).1 ∧ s'.bk.secAt = s.bk.secAt + secCycles ∧
      s'.bk.wrapped = (s.bk.wrapped || (s.bk.cal.next).2) ∧ s'.now = max (s.then t) (s.bk.secAt + secCycles) ∧
      s'.bk.a1 = (s.bk.a1 || s.bk.alm1.hit (s.bk.cal.next).1) ∧ s'.bk.a2 = (s.bk.a2 || s.bk.alm2.hit (s.bk.cal.next).1) ∧
      s'.bk.saddle = s.bk.saddle ∧ s'.bk.valid = s.bk.valid ∧ LanesKept s s' ∧ FieldKept s s' ∧ s'.nv = s.nv) ∧
    (∀ sub due ref, s.bk.dstStep = some (sub, due, ref) → ∃ s', exec (.summerTimeStep t) s = .next s' ∧ s'.bk.dstStep = none ∧
      s'.bk.dst = (!sub) ∧ s'.bk.cal = ((s.bk.upTo due).cal.shift sub).getD (s.bk.upTo due).cal ∧ s'.now = max (s.then t) due ∧
      (s.steward = true → s'.recorded 0x82 0 sevInfo) ∧ LanesKept s s' ∧ Finishes s s' ref 0 []) ∧
    (s.bk.alm2.mode = 2 → ∃ s', exec (.countdownExpiry t) s = .next s' ∧ s'.bk.a2 = true ∧ s'.bk.alm2.mode = 0 ∧ s'.bk.cal = s.bk.cal ∧
      s'.now = max (s.then t) (s.bk.cntAt + (s.bk.cnt.toNat - 1) * 6250000) ∧ LanesKept s s') ∧
    (∃ s', exec (.backupVoltageLow t) s = .next s' ∧ s'.bk.valid = false ∧ s'.bk.alm1.mode = 0 ∧ s'.bk.alm2.mode = 0 ∧ s'.bk.cal = s.bk.cal ∧
      s'.bk.saddle = s.bk.saddle ∧ LanesKept s s')

/-- R426: second by second, minute, hour, day, month, year and weekday; the lengths of the months; the wrap after 2199-12-31. -/
def Stated.CalendarRule : Prop :=
  ∀ c : Cal, 1 ≤ c.month → c.month ≤ 12 → c.day ≤ daysIn c.year c.month → c.year ≤ 199 → c.hour ≤ 23 → c.minute ≤ 59 →
    (c.second < 59 → c.next = ({ c with second := c.second + 1 }, false)) ∧
    (c.second = 59 → c.minute < 59 → c.next = ({ c with second := 0, minute := c.minute + 1 }, false)) ∧
    (c.second = 59 → c.minute = 59 → c.hour < 23 → c.next = ({ c with second := 0, minute := 0, hour := c.hour + 1 }, false)) ∧
    (c.second = 59 → c.minute = 59 → c.hour = 23 →
      (c.day < daysIn c.year c.month → c.next =
        ({ c with second := 0, minute := 0, hour := 0, day := c.day + 1, weekday := (c.weekday + 1) % 7 }, false)) ∧
      (c.day = daysIn c.year c.month → c.month < 12 → c.next =
        ({ c with second := 0, minute := 0, hour := 0, day := 1, month := c.month + 1, weekday := (c.weekday + 1) % 7 }, false)) ∧
      (c.day = 31 → c.month = 12 → c.year < 199 → c.next = ({ c with
        second := 0
        minute := 0
        hour := 0
        day := 1
        month := 1
        year := c.year + 1
        weekday := (c.weekday + 1) % 7 }, false)) ∧
      (c.day = 31 → c.month = 12 → c.year = 199 → c.next =
        ({ second := 0, minute := 0, hour := 0, day := 1, month := 1, year := 0, weekday := 5 }, true))) ∧
    (1 ≤ c.day → c.nextDay.2 = false → ∃ p, c.nextDay.1.prevDay = some p ∧ { p with weekday := c.weekday } = c) ∧
    (daysIn c.year c.month = if c.month = 2 then (if c.year % 4 = 0 ∧ c.year ≠ 100 then 29 else 28)
      else if c.month = 4 ∨ c.month = 6 ∨ c.month = 9 ∨ c.month = 11 then 30 else 31) ∧ weekdayOf 0 1 1 = 5

/-- Each second advances the calendar by the Gregorian rule from 2000 to 2199, weekdays included, wraps after 2199-12-31 23:59:59 with
WRAPPED set and the retention latch as it was, and sets the alarms that match; a summer-time step moves it by an hour; countdown expiry
sets its alarm; a low backup voltage clears the latch and the comparators. Instants of seconds are log entry 16. From R426. -/
def Obligations.Calendar : Prop := Stated.CalendarRule ∧ Stated.CalendarTicks

/-- A read of the group takes or reuses its path's snapshot, DATE ends it, and it lasts one second; trim and saddlebag writes change
exactly their register, and a trim that changes is copied to the NV store. Snapshot numbering is log entry 16. From 16_backup_rtc: R421, R422, R427, R432. -/
def Obligations.ClockRegisters : Prop :=
  ∀ (s : State) (t : Nat) (p : RtcPath) (val : Word) (w : Fin 32), s.steward = true →
    (∀ reg : RtcReg, ∃ s', exec (.rtcGroupRead t reg p) s = .next s' ∧
      s'.bk = (match p with
        | .bar0 => { s.bk with
            snapBar := if reg = .date then none else some (({ s with now := s.then t } : State).rtcSnap p).1
            numBar := (({ s with now := s.then t } : State).rtcSnap p).2 }
        | .steward => { s.bk with
            snapStw := if reg = .date then none else some (({ s with now := s.then t } : State).rtcSnap p).1
            numStw := (({ s with now := s.then t } : State).rtcSnap p).2 }) ∧
      s' = { s with now := s.then t, bk := s'.bk }) ∧
    (∀ x, s.bk.snapBar = some x → (s.then t < x.at' + secCycles → (({ s with now := s.then t } : State).rtcSnap .bar0).1 = x) ∧
      (x.at' + secCycles ≤ s.then t → (({ s with now := s.then t } : State).rtcSnap .bar0).1.cal = s.bk.cal ∧
        (({ s with now := s.then t } : State).rtcSnap .bar0).1.num = s.bk.numBar + 1) ∧
      ∃ s', exec (.rtcSnapshotExpiry t .bar0) s = .next s' ∧ s' = { s with
        now := max (s.then t) (x.at' + secCycles)
        bk := { s.bk with snapBar := none } }) ∧
    (∀ x, s.bk.snapStw = some x → ∃ s', exec (.rtcSnapshotExpiry t .steward) s = .next s' ∧ s' = { s with
      now := max (s.then t) (x.at' + secCycles)
      bk := { s.bk with snapStw := none } }) ∧
    (∃ s', exec (.rtcTrimWrite t val) s = .next s' ∧ s'.bk = { s.bk with trim := val.setWidth 6 } ∧ LanesKept s s' ∧ s'.host = s.host ∧
      s'.nv.writes = (if s.bk.trim = val.setWidth 6 then s.nv.writes else s.nv.writes + 1)) ∧
    (∃ s', exec (.saddlebagWrite t w val) s = .next s' ∧ s'.bk.saddle[w] = val ∧ (∀ k : Fin 32, k ≠ w → s'.bk.saddle[k] = s.bk.saddle[k]) ∧
      { s'.bk with saddle := s.bk.saddle } = s.bk ∧ LanesKept s s' ∧ s'.nv = s.nv)

/-- R423 to R428: setting the clock, the summer-time step and the comparators, with their refusals. -/
def Stated.ClockCommands : Prop :=
  ∀ (s : State) (t : Nat) (c : RingId) (e : CmdEntry), s.CanAnswer c →
    ((barWord s 0x1400).getLsbD 7 = s.bk.stagedSet.isSome ∧ (barWord s 0x1400).getLsbD 6 = s.bk.dstStep.isSome) ∧
    (e.formOk 0 [(4, 8)] = true → e.b 11 ≤ 1 → 2000 ≤ e.h 4 → e.h 4 ≤ 2199 → 1 ≤ e.b 6 → e.b 6 ≤ 12 → 1 ≤ e.b 7 → e.b 7 ≤ 31 → e.b 8 ≤ 23 →
      e.b 9 ≤ 59 → e.b 10 ≤ 59 →
      ((s.bk.stagedSet.isSome = true ∨ s.bk.dstStep.isSome = true) → ∃ s', exec (.rtcSet t c e) s = .next s' ∧ Answers s s' c e 0x0260 [] ∧ s'.bk = s.bk) ∧
      (s.bk.waits = false → daysIn (e.h 4 - 2000) (e.b 6) < e.b 7 → ∃ s', exec (.rtcSet t c e) s = .next s' ∧ Answers s s' c e 0x0150 [] ∧
        s'.bk = s.bk) ∧
      (s.bk.waits = false → e.b 7 ≤ daysIn (e.h 4 - 2000) (e.b 6) → ∃ s' ref, exec (.rtcSet t c e) s = .next s' ∧ Awaits s s' c e 0x50 ∧
        s'.host.inProg[c] = some ref ∧ s'.bk = { s.bk with stagedSet := some (calOf e, bit (e.b 11) 0, ref) } ∧ LanesKept s s' ∧
          calOf e = {
            second := e.b 10
            minute := e.b 9
            hour := e.b 8
            day := e.b 7
            month := e.b 6
            year := e.h 4 - 2000
            weekday := weekdayOf (e.h 4 - 2000) (e.b 6) (e.b 7) })) ∧
    (e.formOk 1 [] = true →
      ((s.bk.stagedSet.isSome = true ∨ s.bk.dstStep.isSome = true) →
        (∃ s', exec (.summerTimeAdd t c e) s = .next s' ∧ Answers s s' c e 0x0260 [] ∧ s'.bk = s.bk) ∧
        (∃ s', exec (.summerTimeSubtract t c e) s = .next s' ∧ Answers s s' c e 0x0260 [] ∧ s'.bk = s.bk)) ∧
      (s.bk.waits = false → s.bk.dst = false → (({ s with now := s.then t } : State).dstBase.shift false).isNone = false →
        ∃ s' ref due, exec (.summerTimeAdd t c e) s = .next s' ∧ Awaits s s' c e 0x51 ∧ s'.host.inProg[c] = some ref ∧
          s'.bk = { s.bk with dstStep := some (false, due, ref) } ∧
          (s.then t ≤ s.bk.secAt + secCycles → s.then t + 61 * usCycles < due ∧ (due = s.bk.secAt + secCycles ∨ due = s.bk.secAt + 2 * secCycles))) ∧
      (s.bk.waits = false → s.bk.dst = true → ∃ s', exec (.summerTimeAdd t c e) s = .next s' ∧ Answers s s' c e 0x0261 [] ∧ s'.bk = s.bk) ∧
      (s.bk.waits = false → s.bk.dst = true → (({ s with now := s.then t } : State).dstBase.shift true).isNone = false →
        ∃ s' ref due, exec (.summerTimeSubtract t c e) s = .next s' ∧ Awaits s s' c e 0x51 ∧ s'.host.inProg[c] = some ref ∧
          s'.bk = { s.bk with dstStep := some (true, due, ref) }) ∧
      (s.bk.waits = false → s.bk.dst = false → ∃ s', exec (.summerTimeSubtract t c e) s = .next s' ∧ Answers s s' c e 0x0261 [] ∧
        s'.bk = s.bk)) ∧
    ((∀ k ∈ alarmChecks e s, k.1 = false) →
      (e.b 4 = 1 → ∃ s', exec (.alarmSetUp t c e) s = .next s' ∧ Answers s s' c e 0 [] ∧ s'.bk = { s.bk with alm1 := alarmOfEntry e, a1 := false }) ∧
      (e.b 4 = 2 → ∃ s', exec (.alarmSetUp t c e) s = .next s' ∧ Answers s s' c e 0 [] ∧ s'.bk = { s.bk with
        alm2 := alarmOfEntry e
        a2 := false
        cnt := BitVec.ofNat 24 (e.w 16)
        cntAt := s.then t }))

/-- R423: the staged time is committed: the seconds begin anew, the latch is valid, and the command completes. -/
def Stated.ClockSetCommits : Prop :=
  ∀ (s : State) (t : Nat) (cal : Cal) (dst : Bool) (ref : CmdRef), s.bk.stagedSet = some (cal, dst, ref) →
    ∃ s', exec (.rtcSetCommit t) s = .next s' ∧ s'.bk = { s.bk with
        cal := cal
        dst := dst
        secAt := s.then t
        valid := true
        wrapped := false
        stagedSet := none } ∧
      (s.steward = true → s'.recorded 0x81 0 sevInfo) ∧ Finishes s s' ref 0 [] ∧ LanesKept s s' ∧ FieldKept s s' ∧ s'.nv = s.nv

/-- While a set or a step is pending, its bit reads 1 and 0x50 and 0x51 answer 0x0260 and change nothing of the clock; an impossible date
answers 0x0150; a sound set is staged and committed with the latch valid; a step waits for its second, or answers 0x0261; an alarm set-up
takes effect at once and clears its flag. From R425. -/
def Obligations.ClockCommandsTake : Prop := Stated.ClockCommands ∧ Stated.ClockSetCommits

/-- A good program leaves exactly its bytes and completes what awaits it; a first failure repeats it, a second ends its write with 0x0605
and a record; other pages stay. The hours and a fold queue their writes; a fold without a point does nothing. What a failed page holds is
a free value (log entry 10). From 17_nv_store: R436, R437, R446, R450. -/
def Obligations.NvPrograms : Prop :=
  ∀ (s : State) (t : Nat) (j : NvJob), s.Inv →
    (s.nv.busy = some j →
      (∃ s', exec (.nvPageProgramComplete t true) s = .next s' ∧ s'.nv.pages = s.nv.pages + 1 ∧ LanesKept s s' ∧
        (∀ i < j.bytes.length, s'.nv.mem.get (j.addr + i) = byteAt j.bytes i) ∧
        (∀ a, (a < j.addr ∨ j.addr + j.bytes.length ≤ a) → s'.nv.mem.get a = s.nv.mem.get a) ∧
        (∀ ref seq, j.done = .command ref seq → Finishes s s' ref 0 (toLe 4 seq.toNat)) ∧
        (∀ q, j.done = .startFlag → s.app.start = some q → s'.app = { s.app with
          runFlag := true
          start := some { q with flagOk := true, tick := max q.tick (s.cycle + 1) } }) ∧
        (∀ q, j.done = .stopFlag → s.app.stop = some q → s'.app = { s.app with runFlag := false, stop := none } ∧
          ∀ ref, q.refs = [ref] → Finishes s s' ref 0 (toLe 6 q.tick)) ∧
        (∀ n, j.done = .fold n → s'.nv.folded = max s.nv.folded n)) ∧
      (j.retry = false → ∃ s', exec (.nvPageProgramComplete t false) s = .next s' ∧ s'.nv.busy = some { j with retry := true } ∧
        s'.nv.pages = s.nv.pages + 1 ∧ s'.nv.queue = s.nv.queue ∧ s'.app = s.app ∧ LanesKept s s' ∧
        (∀ a, (a < j.addr ∨ j.addr + j.bytes.length ≤ a) → s'.nv.mem.get a = s.nv.mem.get a)) ∧
      (j.retry = true → ∃ s', exec (.nvPageProgramComplete t false) s = .next s' ∧ s'.nv.pfail = true ∧ LanesKept s s' ∧
        (∀ q ∈ s'.nv.queue, q.write ≠ j.write) ∧ (s.steward = true → s'.recorded 0x88 0 sevFault) ∧
        (∀ a, (a < j.addr ∨ j.addr + j.bytes.length ≤ a) → s'.nv.mem.get a = s.nv.mem.get a) ∧
        (∀ ref seq, j.done = .command ref seq → Finishes s s' ref 0x0605 []))) ∧
    (s.steward = true → s.nv.ready = true → s.pwr.pf = .none → ∃ s', exec (.hoursIncrement t) s = .next s' ∧
      s'.nv.lastHours = s.nv.lastHours + 360 * secCycles ∧ s'.nv.writes = s.nv.writes + 1 ∧ s'.nv.mem = s.nv.mem ∧
      s'.now = max (s.then t) (s.cycleOfTb (s.nv.lastHours + 360 * secCycles)) ∧ LanesKept s s' ∧ s'.host = s.host ∧
      (let v := min (counter s.nv.settled hoursBase + 1) 0xFFFFFF;
        ∃ q ∈ s'.nv.busy.toList ++ s'.nv.queue, q.addr = hoursBase + 4 * (v % 8) ∧ q.bytes = toLe 3 v)) ∧
    (∀ c, s.steward = true → s.app.stored = some c →
      (((pointsFrom s.nv.mem 512 s.nv.folded []).filter (fun p => decide (p.1 ≤ s.nv.jseq))) = [] →
        ∃ s', exec (.journalFold t) s = .next s' ∧ s' = { s with now := s.then t }) ∧
      (∀ p, ((pointsFrom s.nv.mem 512 s.nv.folded []).filter (fun p => decide (p.1 ≤ s.nv.jseq))).getLast? = some p →
        ∃ s' q, exec (.journalFold t) s = .next s' ∧ q ∈ s'.nv.busy.toList ++ s'.nv.queue ∧ q.done = .fold p.1 ∧ s'.nv.folded = s.nv.folded ∧
          s'.nv.mem = s.nv.mem ∧ s'.nv.writes = s.nv.writes + 2 ∧ LanesKept s s'))

/-- A write of a record outside 0x100 to 0x13B answers 0x0601, a protected one 0x0604, an uncharged store 0x0606; else it awaits its
program. A read answers 0x0601, 0x0603 or 0x0602 with the length, or sends the newest valid copy with SEQ and length. NV_PROT with its key
queues the record that holds BP and sets the lock, and does nothing more once locked. Placement is log entry 15, the order of checks log entry 22. From 17_nv_store: R439, R453, R454, R455. -/
def Obligations.NvRecords : Prop :=
  ∀ (s : State) (t : Nat) (c : RingId) (e : CmdEntry) (bs : List Byte) (val : Word),
    (s.CanAnswer c → e.formOk 0 [(4, 12)] = true → 1 ≤ e.h 6 → e.h 6 ≤ 4096 → e.q 8 % 8 = 0 →
      ((e.h 4 < 0x100 ∨ 0x13B < e.h 4) → ∃ s', exec (.nvRecordWrite t c e (some bs)) s = .next s' ∧ Answers s s' c e 0x0601 [] ∧ s'.nv = s.nv) ∧
      (0x100 ≤ e.h 4 → e.h 4 ≤ 0x13B →
        (s.protected' (e.h 4) = true → ∃ s', exec (.nvRecordWrite t c e (some bs)) s = .next s' ∧ Answers s s' c e 0x0604 [] ∧ s'.nv = s.nv) ∧
        (s.protected' (e.h 4) = false → s.nv.ready = false → ∃ s', exec (.nvRecordWrite t c e (some bs)) s = .next s' ∧
          Answers s s' c e 0x0606 [] ∧ s'.nv = s.nv) ∧
        (s.protected' (e.h 4) = false → s.nv.ready = true → ∃ s' ref q seq, exec (.nvRecordWrite t c e (some bs)) s = .next s' ∧
          Awaits s s' c e 0x60 ∧ s'.host.inProg[c] = some ref ∧ q ∈ s'.nv.busy.toList ++ s'.nv.queue ∧ q.done = .command ref seq ∧
          seq.toNat = (recNext s.nv.settled (e.h 4)).2 % 2 ^ 32 ∧ s'.nv.mem = s.nv.mem ∧ s'.nv.writes = s.nv.writes + 1 ∧ LanesKept s s')) ∧
      (recSize (e.h 4) = 0 → ∃ s', exec (.nvRecordRead t c e) s = .next s' ∧ Answers s s' c e 0x0601 [] ∧ s'.nv = s.nv) ∧
      (recSize (e.h 4) ≠ 0 → recRead s.nv.mem (e.h 4) = none → ∃ s', exec (.nvRecordRead t c e) s = .next s' ∧
        Answers s s' c e 0x0603 [] ∧ s'.nv = s.nv) ∧
      (∀ slot seq data, recSize (e.h 4) ≠ 0 → recRead s.nv.mem (e.h 4) = some (slot, seq, data) →
        (e.h 6 < data.length → ∃ s', exec (.nvRecordRead t c e) s = .next s' ∧
          Answers s s' c e 0x0602 ([0, 0, 0, 0] ++ toLe 2 data.length) ∧ s'.nv = s.nv ∧
          ∀ a d, Out.hostWrite a d ∉ s'.out.drop s.out.length) ∧
        (data.length ≤ e.h 6 → ∃ s', exec (.nvRecordRead t c e) s = .next s' ∧ Answers s s' c e 0 (toLe 4 seq ++ toLe 2 data.length) ∧
          (s.host.mute = false → Out.hostWrite (e.q 8) data ∈ s'.out.drop s.out.length) ∧ s'.nv = s.nv ∧ LanesKept s s'))) ∧
    (s.steward = true → val.toNat / 2 ^ 16 = 0xB10C →
      (s.nv.lock = false → ∃ s', exec (.nvProtWrite t val) s = .next s' ∧ s'.nv.lock = val.getLsbD 2 ∧ s'.nv.writes = s.nv.writes + 1 ∧
        (let p := recNext s.nv.settled 7;
          ∀ x ∈ slotPages (recAddr 7 p.1) (slotBytes 7 p.2 (toLe 1 (val.toNat % 4))),
            ∃ q ∈ s'.nv.busy.toList ++ s'.nv.queue, q.addr = x.1 ∧ q.bytes = x.2 ∧ q.cls = 4) ∧
        s' = { s with now := s.then t, nv := s'.nv } ∧ s'.nv.mem = s.nv.mem) ∧
      (s.nv.lock = true → ∃ s', exec (.nvProtWrite t val) s = .next s' ∧ s' = { s with now := s.then t })) ∧
    ((val.toNat / 2 ^ 16 ≠ 0xB10C ∨ s.steward = false) → ∃ s', exec (.nvProtWrite t val) s = .next s' ∧ s' = { s with now := s.then t })

/-- The oldest queued record takes its slot and goes to ring E, or is counted lost; with no slot it is dropped and counted; a repeated
record is rewritten in its slot at most every 100 ms, one that a newer record has followed first; a push waits while requests pause; the driver reads entries in slot order with the count of valid ones. From
18_guestbook: R461, R462, R463, R464, R467; 13_host_interface: R333, R339, R366. -/
def Obligations.GuestbookWrites : Prop :=
  ∀ (s : State) (t : Nat), s.steward = true →
    (∀ r rest, s.gb.queue = r :: rest → s.nv.ready = true → s.pwr.pf = .none →
      (bookSlot s.nv.settled r.sev = none → ∃ s', exec (.guestbookRecordWrite t) s = .next s' ∧ s'.gb.queue = rest ∧ s'.nv = s.nv ∧
        s'.gb.drops[r.sev.toFin] = satInc s.gb.drops[r.sev.toFin] ∧ s'.host = s.host ∧ LanesKept s s') ∧
      (∀ slot, bookSlot s.nv.settled r.sev = some slot → ∃ s' q, exec (.guestbookRecordWrite t) s = .next s' ∧ s'.gb.queue = rest ∧
        s'.gb.drops = s.gb.drops ∧ q ∈ s'.nv.busy.toList ++ s'.nv.queue ∧ q.addr = gbAddr slot ∧ q.bytes = r.bytes ∧ q.cls = 3 ∧
        s'.nv.mem = s.nv.mem ∧ LanesKept s s' ∧
        (s.host.active = true → (s.host.rings[20]).enable = true →
          if (s.host.gbTail - s.host.gbHead).toNat < 2 ^ (s.host.rings[20]).logn then
            let push := Out.gbPush s.host.gbTail.toNat ((s.host.rings[20]).base + 64 * (s.host.gbTail.toNat % 2 ^ (s.host.rings[20]).logn)) r.bytes
            s'.host.gbTail = s.host.gbTail + 1 ∧
              (s.host.mute = false → if s.host.busMaster then push ∈ s'.out.drop s.out.length else push ∈ s'.host.outbox)
          else s'.host.gbLost = satInc s.host.gbLost ∧ s'.host.gbfull = true ∧ s'.host.gbTail = s.host.gbTail))) ∧
    (s.gb.queue = [] → ∃ s', exec (.guestbookRecordWrite t) s = .next s' ∧ s' = { s with now := s.then t }) ∧
    (∀ x rest, s.gb.unwritten = x :: rest → s.nv.ready = true → s.pwr.pf = .none →
      ∃ s' q, exec (.guestbookRepeatRewrite t) s = .next s' ∧ s'.gb = { s.gb with unwritten := rest } ∧ x.2.2 ≤ s'.now ∧
        q ∈ s'.nv.busy.toList ++ s'.nv.queue ∧ q.addr = gbAddr x.2.1 ∧ q.bytes = x.1.bytes ∧ LanesKept s s') ∧
    (∀ r slot, s.gb.unwritten = [] → s.gb.last = some r → s.gb.lastSlot = some slot → s.gb.lastDirty = true → s.nv.ready = true → s.pwr.pf = .none →
      ∃ s' q, exec (.guestbookRepeatRewrite t) s = .next s' ∧ s'.gb.lastDirty = false ∧ s'.gb.lastWrite = some s'.now ∧
        (∀ w, s.gb.lastWrite = some w → w + 100 * msCycles ≤ s'.now) ∧ q ∈ s'.nv.busy.toList ++ s'.nv.queue ∧ q.addr = gbAddr slot ∧
        q.bytes = r.bytes ∧ s'.gb.last = s.gb.last ∧ s'.gb.queue = s.gb.queue ∧ LanesKept s s') ∧
    (∀ (c : RingId) (e : CmdEntry), s.CanAnswer c → e.formOk 0 [(4, 12)] = true → e.q 8 % 8 = 0 →
      ((4095 < e.h 4 ∨ e.h 6 < 1 ∨ 4096 < e.h 6) → ∃ s', exec (.guestbookRead t c e) s = .next s' ∧ Answers s s' c e 0x0103 []) ∧
      (e.h 4 ≤ 4095 → 1 ≤ e.h 6 → e.h 6 ≤ 4096 → ∃ s' bs n last, exec (.guestbookRead t c e) s = .next s' ∧
        (s.host.mute = false → Out.hostWrite (e.q 8) bs ∈ s'.out.drop s.out.length) ∧ bs.length = 64 * e.h 6 ∧
        (∀ j < e.h 6, slice bs (64 * j) 64 = bookEntry s.nv.mem ((e.h 4 + j) % 4096)) ∧ Answers s s' c e 0 (toLe 2 n ++ toLe 2 last) ∧
        n = ((List.range (e.h 6)).filter (fun j => !gbFree s.nv.mem ((e.h 4 + j) % 4096))).length ∧ s'.gb = s.gb ∧ s'.nv = s.nv ∧
        LanesKept s s'))

/-- The steward's key in the window is accepted; a wrong, early, late or second key and a window that closes without its keys are faults:
the first warns and begins the second period, the second expires, which stops the lanes at once and asserts FAULT_N 1 µs later; in boot mode a fed window
begins the next period, to which a key after it belongs. From 15_night_porter: R406, R407, R408, R409, R410, R411, R412, R413, R414. -/
def Obligations.NightPorter : Prop :=
  ∀ (s : State) (t : Nat) (key : BitVec 16), s.steward = true → s.np.expired = false →
    let tb := ({ s with now := s.then t } : State).tb
    let warned (s' : State) (cause : Nat) : Prop := s'.np.stage = true ∧ s'.np.warn = true ∧ s'.np.wcause = BitVec.ofNat 3 cause ∧
      s'.np.warns = satInc s.np.warns ∧ s'.np.second = s'.tb + s.np.period.toNat ∧ s'.np.expired = false ∧ s'.recorded 0x70 cause sevFault ∧
      s'.scan = s.scan ∧ LanesKept s s'
    let expires (s' : State) : Prop := s'.np.expired = true ∧ s'.np.expAt = s'.tb ∧ s'.scan.lanes = false ∧ s'.pwr.faultHold = true ∧
      (∃ x, s'.pwr.faultAt = some x ∧ x ≤ s'.now + usCycles) ∧ s'.rooms = s.rooms ∧ s'.dmem = s.dmem
    (key = 0xA5C3 → s.np.open'.toNat ≤ tb - s.np.start → tb - s.np.start < s.np.close.toNat → s.np.stwok = false →
      ∃ s', exec (.stewardKey t key) s = .next s' ∧ s'.np.stwok = true ∧ s'.np.lastStw = BitVec.ofNat 64 tb ∧ s'.np.appok = s.np.appok ∧
        s'.np.warn = s.np.warn ∧ (s.np.stage = false → s'.np.stage = false) ∧ LanesKept s s' ∧ s'.scan = s.scan) ∧
    (s.np.mode = false → s.np.open' = 0 → s.np.close ≠ 0 → s.np.start + s.np.close.toNat ≤ tb → s.npCloseCycle ≤ s.then t →
      s.np.stwok = true → key = 0xA5C3 →
      ∃ s', exec (.stewardKey t key) s = .next s' ∧ s'.np.stwok = true ∧ s'.np.lastStw = BitVec.ofNat 64 tb ∧ s'.np.warn = s.np.warn ∧
        s'.np.start ≤ tb ∧ tb < s'.np.start + s.np.close.toNat ∧ (tb - s'.np.start) % s.np.close.toNat = (tb - s.np.start) % s.np.close.toNat ∧
        LanesKept s s' ∧ s'.scan = s.scan) ∧
    (s.np.mode = true ∨ tb < s.np.start + s.np.close.toNat → s.np.stage = false →
      (key ≠ 0xA5C3 → ∃ s', exec (.stewardKey t key) s = .next s' ∧ warned s' 6) ∧
      (key = 0xA5C3 → (tb - s.np.start < s.np.open'.toNat ∨ s.np.close.toNat ≤ tb - s.np.start) →
        ∃ s', exec (.stewardKey t key) s = .next s' ∧ warned s' 4) ∧
      (key = 0xA5C3 → s.np.open'.toNat ≤ tb - s.np.start → tb - s.np.start < s.np.close.toNat → s.np.stwok = true →
        ∃ s', exec (.stewardKey t key) s = .next s' ∧ warned s' 5)) ∧
    (s.np.mode = true ∨ tb < s.np.start + s.np.close.toNat → s.np.stage = true → s.np.faultAt ≠ tb → key ≠ 0xA5C3 → ∃ s', exec (.stewardKey t key) s = .next s' ∧ expires s') ∧
    (s.np.closed = false →
      (s.np.mode = true → s.np.appok = true → s.np.stwok = true → ∃ s', exec (.npWindowClose t) s = .next s' ∧
        s'.np = { s.np with closed := true } ∧ s'.now = max (s.then t) s.npCloseCycle ∧ LanesKept s s') ∧
      (s.np.stage = false → s.np.mode = true →
        (s.np.appok = false → s.np.stwok = true → ∃ s', exec (.npWindowClose t) s = .next s' ∧ warned s' 1 ∧ s'.np.closed = true) ∧
        (s.np.appok = true → s.np.stwok = false → ∃ s', exec (.npWindowClose t) s = .next s' ∧ warned s' 2 ∧ s'.np.closed = true) ∧
        (s.np.appok = false → s.np.stwok = false → ∃ s', exec (.npWindowClose t) s = .next s' ∧ warned s' 3 ∧ s'.np.closed = true)) ∧
      (s.np.mode = false → s.np.stwok = true → ∃ s', exec (.npWindowClose t) s = .next s' ∧
        s'.np.start = s.np.start + s.np.close.toNat ∧ s'.np.stwok = false ∧ s'.np.closed = false ∧ s'.np.expired = false)) ∧
    (s.np.stage = true → ∃ s', exec (.npSecondPeriodEnd t) s = .next s' ∧ expires s' ∧ s'.now = max (s.then t) (s.cycleOfTb s.np.second))

/-- R480, R481, R483: an owner key is enrolled in the lowest free slot or revoked, and only when no application runs; the fuses otherwise
never change. -/
def Stated.OwnerKeys : Prop :=
  ∀ (s : State) (t : Nat) (val : Word) (i : Fin 4), s.steward = true → val.toNat / 2 ^ 16 = 0xB0E5 → s.inn.exam = none →
    (s.app.running = true → (val.toNat % 4 = 1 → ∃ s', exec (.ownerKeyEnrol t val) s = .next s' ∧ s'.sec = { s.sec with ownStatus := 0x0241 }) ∧
      (val.toNat % 4 = 2 → ∃ s', exec (.ownerKeyRevoke t val) s = .next s' ∧ s'.sec = { s.sec with ownStatus := 0x0241 })) ∧
    (s.app.running = false →
      (val.toNat % 4 = 1 → s.sec.oset.getLsbD i.val = false → (∀ j < i.val, s.sec.oset.getLsbD j = true) → (∃ k : Fin 16, s.sec.enroll[k] ≠ 0) →
        ∃ s', exec (.ownerKeyEnrol t val) s = .next s' ∧ s'.sec.oset.getLsbD i.val = true ∧
          (∀ j, j ≠ i.val → s'.sec.oset.getLsbD j = s.sec.oset.getLsbD j) ∧
          s'.sec.ohash[i] = s.sec.enroll.toList.flatMap (fun (w : Word) => toLe 4 w.toNat) ∧ (∀ j : Fin 4, j ≠ i → s'.sec.ohash[j] = s.sec.ohash[j]) ∧
          s'.sec.orev = s.sec.orev ∧ s'.sec.ownStatus = 0 ∧ s'.sec.ownSlot = BitVec.ofNat 2 i.val ∧ s'.recorded 0x96 i.val sevNotice ∧
          LanesKept s s') ∧
      (val.toNat % 4 = 1 → s.sec.oset = 0xF → ∃ s', exec (.ownerKeyEnrol t val) s = .next s' ∧
        s'.sec = { s.sec with ownStatus := 0x0509 }) ∧
      (val.toNat / 4 % 4 = i.val → val.toNat % 4 = 2 →
        (s.keepsKey i.val = true → ∃ s', exec (.ownerKeyRevoke t val) s = .next s' ∧ s'.sec = { s.sec with ownStatus := 0x050A }) ∧
        (s.keepsKey i.val = false → ∃ s', exec (.ownerKeyRevoke t val) s = .next s' ∧ s'.sec.orev.getLsbD i.val = true ∧
          (∀ j, j ≠ i.val → s'.sec.orev.getLsbD j = s.sec.orev.getLsbD j) ∧ s'.sec.oset = s.sec.oset ∧ s'.sec.ohash = s.sec.ohash ∧
          s'.sec.ownStatus = 0 ∧ s'.recorded 0x96 i.val sevNotice ∧ LanesKept s s')))

/-- R484 to R487, R490: chunks of an update go to the slot that is not active; activation checks it and resets the module; confirmation makes
the running slot good and burns its version; attestation sends a report of 1544 bytes. -/
def Stated.UpdatesAndAttestation : Prop :=
  ∀ (s : State) (t : Nat) (c : RingId) (e : CmdEntry) (bs : List Byte),
    (s.CanAnswer c → s.sec.chunk = none → (∀ k ∈ chunkChecks e (some bs) s, k.1 = false) → ∃ s' ref, exec (.updateChunk t c e (some bs)) s = .next s' ∧
      Awaits s s' c e 0x80 ∧ s'.host.inProg[c] = some ref ∧ s'.sec.chunk = some (ref, e.w 4, slice bs 0 (e.w 8)) ∧
      s'.sec.image s.sec.active = s.sec.image s.sec.active ∧ s'.sec.slotState s.sec.active = s.sec.slotState s.sec.active ∧
      (e.w 4 = 0 → s'.sec.slotState (!s.sec.active) = .empty ∧ s'.sec.updActive = true) ∧ LanesKept s s') ∧
    (∀ x, s.sec.chunk = some x → ∃ s', exec (.updateChunk t c e (some bs)) s = .next s' ∧ s' = { s with now := s.then t }) ∧
    (∀ x, s.sec.chunk = some x → ∃ s', exec (.activate t c e) s = .next s' ∧ s' = { s with now := s.then t }) ∧
    (∀ ref off d, s.sec.chunk = some (ref, off, d) → ∃ s', exec (.updateChunkComplete t) s = .next s' ∧ s'.sec.chunk = none ∧
      s'.sec.updNext = BitVec.ofNat 25 (off + d.length) ∧ s'.sec.image s.sec.active = s.sec.image s.sec.active ∧
      slice (s'.sec.image (!s.sec.active)) off d.length = d ∧ (∀ i < off, i < (s.sec.image (!s.sec.active)).length →
        byteAt (s'.sec.image (!s.sec.active)) i = byteAt (s.sec.image (!s.sec.active)) i) ∧ Finishes s s' ref 0 (toLe 4 d.length) ∧ LanesKept s s') ∧
    (s.CanAnswer c → s.sec.chunk = none → e.formOk 0 [] = true → s.inn.exam = none → s.edits.swap = .none →
      (s.sec.activateStatus ≠ 0 → ∃ s', exec (.activate t c e) s = .next s' ∧
        Answers s s' c e (BitVec.ofNat 16 s.sec.activateStatus) [] ∧ s'.sec = s.sec ∧ s'.phase = s.phase) ∧
      (s.sec.activateStatus = 0 → s.phase = .running → ∃ s', exec (.activate t c e) s = .next s' ∧ s'.phase = .inReset ∧ s'.clk.cause = 0x0B ∧
        s'.sec.active = !s.sec.active ∧ s'.sec.slotState (!s.sec.active) = .trial ∧ s'.sec.tries = 0 ∧
        (∃ b, CompletionWritten s s' (s.host.cqOf c) b ∧ u16 b 0 = e.tag.toNat ∧ u16 b 2 = 0))) ∧
    (s.steward = true → s.sec.onTrial = true →
      let confirmed (s' : State) : Prop := s'.sec.slotState s.sec.slot = .good ∧ s'.sec.slotState (!s.sec.slot) = .old ∧ s'.sec.tries = 0 ∧
        s.sec.svncnt ≤ s'.sec.svncnt ∧ u8 (s.sec.image s.sec.slot) 6 ≤ s'.sec.svncnt ∧ s'.sec.image = s.sec.image ∧ s'.sec.oset = s.sec.oset ∧
        s'.recorded 0x92 (b2n s.sec.slot) sevNotice ∧ LanesKept s s'
      (∀ val : Word, val.getLsbD 0 = true → val.toNat / 2 ^ 16 = 0xC0F1 → ∃ s', exec (.confirm t val) s = .next s' ∧ confirmed s') ∧
      (s.clk.judged = true → ∃ s', exec (.trialConfirm t) s = .next s' ∧ confirmed s' ∧
        s'.now = max (s.then t) (s.tb0 + 400 * s.clk.tjudged.toNat + 600 * secCycles))) ∧
    (s.CanAnswer c → e.formOk 0 [(4, 12), (16, 32)] = true → 2048 ≤ e.w 4 → e.w 4 ≤ 4096 → e.q 8 % 8 = 0 → ∃ s' b,
      exec (.attest t c e) s = .next s' ∧ (s.host.mute = false → Out.hostWrite (e.q 8) b ∈ s'.out.drop s.out.length) ∧ b.length = 1544 ∧ u32 b 0 = 0x5454414D ∧
      slice b 16 32 = slice e.body 12 32 ∧ slice b 264 1280 = slice (Config.identitySign (slice (Config.shake256 (slice b 0 264)) 0 64)) 0 1280 ∧
      Answers s s' c e 0 (toLe 4 1544) ∧ s'.recorded 0x97 0 sevInfo ∧ s'.sec = s.sec ∧ LanesKept s s')

/-- Enrolment takes the lowest free slot and revocation its own, neither while an application runs; a chunk goes to the slot that is not
active; a chunk or an activation does not begin while a chunk is in progress; activation checks the slot and resets the module with cause
0x0B; confirmation makes the slot GOOD and never lowers the SVN count; attestation sends its report of 1544 bytes. Hash and signature
functions are opaque (log entry 11). From 19_security_update: R480, R483, R484, R485, R486, R487, R490. -/
def Obligations.KeysAndUpdates : Prop := Stated.OwnerKeys ∧ Stated.UpdatesAndAttestation

/-- Once the lanes have trained a HELLO goes out, the first one received takes the road up, and it goes down with the partner forgotten and a
waiting resynchronisation answered 0x0707; a bad segment
is counted; HELLO and HEARTBEAT carry serial, role, epoch, TB, cycle number and state bits and are taken in by the partner; PAIR_CFG takes
its three fields. Fields of the frames not given by the spec are log entry 35. From 03_clock_reset_startup: R59; 02_module_connectors_power: R50;
04_scan_engine: R98; 14_pair_redundancy: R375, R376, R377, R378, R385, R404. -/
def Obligations.PostRoad : Prop :=
  ∀ (s : State) (t : Nat) (val : Word) (bs : List Byte),
    (s.steward = true → ∃ s', exec (.pairCfgWrite t val) s = .next s' ∧ s'.pair = { s.pair with
        hold := BitVec.ofNat 12 (val.toNat % 2 ^ 12)
        dtime := BitVec.ofNat 10 (val.toNat / 2 ^ 12 % 2 ^ 10)
        agelim := BitVec.ofNat 10 (val.toNat / 2 ^ 22) } ∧ s'.nv.writes = s.nv.writes + 1 ∧ LanesKept s s') ∧
    (s.steward = true → s.inPair = true → s.pwr.pairPresent = true → s.pair.partnerPwr = true → s.clk.judged = true → s.pair.trained = false →
      ∃ s' b, exec (.postRoadLinkUp t) s = .next s' ∧ s'.pair.trained = true ∧ s'.pair.link = s.pair.link ∧ s'.pair.trains = satInc s.pair.trains ∧ s'.pair.role = s.pair.role ∧
      s'.pair.partner = Partner.init ∧ s'.pair.sent = [] ∧ s'.out = s.out ++ [.frame 1 b] ∧ u64 b 0 = Config.serial.toNat ∧ u8 b 11 = s.pair.role.toNat ∧ LanesKept s s') ∧
    (s.steward = true → (s.pwr.pairPresent = false ∨ s.pair.partnerPwr = false ∨ s.clk.judged = false) → ∃ s', exec (.postRoadLinkUp t) s = .next s' ∧
      s' = { s with now := s.then t }) ∧
    (∃ s', exec (.postRoadLinkDown t) s = .next s' ∧ s'.pair.link = false ∧ s'.pair.trained = false ∧ s'.pair.rsync = false ∧ s'.pair.partner.hello = false ∧
      s'.pair.joinRef = none ∧ s'.pair.role = s.pair.role ∧ LanesKept s s' ∧ ∀ ref, s.pair.joinRef = some ref → Finishes s s' ref 0x0707 []) ∧
    (∃ s', exec (.discardedSegment t) s = .next s' ∧ s' = { s with now := s.then t, pair := { s.pair with crcerr := satInc s.pair.crcerr } }) ∧
    (s.steward = true → s.pair.trained = true → ∃ s' b, exec (.helloSend t) s = .next s' ∧
      s' = { s with now := s.then t, out := s.out ++ [.frame 1 b] } ∧ u64 b 0 = Config.serial.toNat ∧ u8 b 11 = s.pair.role.toNat ∧
      u32 b 20 = s.pair.epoch.toNat) ∧
    (s.steward = true → s.pair.trained = true → ∃ s', exec (.hello t bs) s = .next s' ∧ s'.pair.link = true ∧ s'.pair.partner.hello = true ∧
      s'.pair.partner.role = BitVec.ofNat 2 (u8 bs 11) ∧ s'.pair.partner.serial = BitVec.ofNat 64 (u64 bs 0) ∧
      s'.pair.partner.cfgid = BitVec.ofNat 32 (u32 bs 16) ∧ s'.pair.partner.stored = bit (u8 bs 12) 2 ∧ s'.pair.role = s.pair.role ∧
      s'.app = s.app ∧ LanesKept s s' ∧ FieldKept s s') ∧
    (s.awake = true → s.halted = false → s.pwr.pf ≠ .lastTick → s.pair.link = true → ∃ s' b, exec (.heartbeatSend t) s = .next s' ∧
      s' = { s with now := s.then t, out := s.out ++ [.frame 2 b], pair := { s.pair with trim := s'.pair.trim } } ∧
      u64 b 0 = ({ s with now := s.then t } : State).tb ∧ u48 b 8 = s.cycle % 2 ^ 48 ∧ u8 b 14 = s.pair.role.toNat ∧
      bit (u8 b 15) 2 = s.app.running ∧ bit (u8 b 15) 1 = s.pwr.quietIn ∧ u64 b 16 = s.pair.hbTb.toNat) ∧
    ((s.halted = true ∨ s.pwr.pf = .lastTick) → ∃ s', exec (.heartbeatSend t) s = .next s' ∧ s' = { s with now := s.then t })

/-- A heartbeat restarts the count and is taken in; out of step it aligns TB, in step a phase beyond 400 cycles ends lock step. After
three missing heartbeats a relief takes over at the next base tick with the next epoch, its rooms and memory going on; with PAIR_PRESENT
absent it does not take over, records the loss of the cable and leaves control with the primary; a primary goes on. From R20. -/
def Obligations.HeartbeatsAndTakeover : Prop :=
  ∀ (s : State) (t : Nat) (bs : List Byte),
    (s.awake = true → s.pair.link = true →
      (∃ s', exec (.heartbeat t bs) s = .next s' ∧ s'.pair.hbSeen = true ∧ s'.pair.missing = 0 ∧ s'.pair.lastHb = s.then t ∧
        s'.pair.hbTb = BitVec.ofNat 64 (u64 bs 0) ∧ s'.pair.partner.role = BitVec.ofNat 2 (u8 bs 14) ∧
        s'.pair.partner.run = bit (u8 bs 15) 2 ∧ s'.pair.partner.lplus = BitVec.ofNat 12 (u16 bs 28)) ∧
      (s.isRelief = false → ∃ s', exec (.heartbeat t bs) s = .next s' ∧ s'.pair.role = s.pair.role ∧ s'.cycle = s.cycle ∧
        (s.pair.role = 1 → u8 bs 14 % 4 = 2 → s'.pwr.quietOut = false) ∧ LanesKept s s' ∧ FieldKept s s') ∧
      (∀ err, ({ s with now := s.then t } : State).phaseError bs = some err →
        (s.pair.role = 3 → ∃ s', exec (.heartbeat t bs) s = .next s' ∧ s'.pair.tbOff = s.pair.tbOff - err ∧ s'.pair.locked = true ∧
          s'.cycle = s'.tb / tickCycles ∧ s'.pair.role = 3 ∧ LanesKept s s') ∧
        (s.pair.role = 2 → (err < -400 ∨ 400 < err) → ∃ s', exec (.heartbeat t bs) s = .next s' ∧ s'.pair.role = 3 ∧ s'.pair.osreason = 4 ∧
          s'.app.running = false) ∧
        (s.pair.role = 2 → s.app.running = false → bit (u8 bs 15) 2 = true → ∃ s', exec (.heartbeat t bs) s = .next s' ∧ s'.pair.role = 3) ∧
        (s.pair.role = 2 → -400 ≤ err → err ≤ 400 → s.pair.marked = none → bit (u8 bs 15) 1 = false →
          (s.app.running = true ∨ bit (u8 bs 15) 2 = false) → ∃ s',
          exec (.heartbeat t bs) s = .next s' ∧ s'.pair.role = 2 ∧ s'.pair.phErr = BitVec.ofInt 16 err ∧ s'.cycle = s.cycle ∧
          (s'.pair.locked = true ↔ -40 ≤ err ∧ err ≤ 40) ∧ LanesKept s s'))) ∧
    (s.steward = true → s.pair.hbSeen = true →
      (s.pair.role ≠ 0 → s.pair.missing ≠ 2 → ∃ s', exec (.heartbeatMissing t) s = .next s' ∧ s' = { s with
        now := max (s.then t) (s.pair.lastHb + 4000 * (s.pair.missing + 1))
        pair := { s.pair with missing := s.pair.missing + 1 } }) ∧
      (s.pair.missing = 2 → s.pair.partner.single = false →
        (s.pair.role = 2 → s.pwr.pairPresent = true → ∃ s', exec (.heartbeatMissing t) s = .next s' ∧ s'.pair.due = some (s.cycle + 1, 2) ∧
          s'.pair.role = 2 ∧ s'.pair.hbSeen = false ∧ LanesKept s s') ∧
        (s.pair.role = 1 → ∃ s', exec (.heartbeatMissing t) s = .next s' ∧ s'.pair.role = 1 ∧ s'.pair.evt.getLsbD 1 = true ∧
          s'.pair.hbSeen = false ∧ s'.recorded 0x67 0 sevFault ∧ LanesKept s s') ∧
        (s.pair.role = 2 → s.pwr.pairPresent = false → ∃ s', exec (.heartbeatMissing t) s = .next s' ∧ s'.pair.role = 3 ∧
          s'.pair.evt.getLsbD 5 = true ∧ s'.recorded 0x66 0 sevFault ∧ s'.app.running = false))) ∧
    (∀ n reason, s.pair.due = some (n, reason) → s.pair.role = 2 → s.steward = true →
      (n ≤ s.cycle → s.pwr.quietIn = false → s.halted = false → s.pwr.pf = .none → ∃ s', exec (.takeover t) s = .next s' ∧ s'.pair.role = 1 ∧
        s'.pair.reason = reason ∧ s'.pair.epoch = s.pair.epoch + 1 ∧ s'.pair.due = none ∧ s'.pair.evt.getLsbD 0 = true ∧
        s'.pwr.quietOut = s.pwr.pairPresent ∧ s'.rooms = s.rooms ∧ s'.dmem = s.dmem ∧ s'.img = s.img ∧ s'.app = s.app ∧
        (∀ g : GrpId, s.groups[g].lplus = true → s'.groups[g].relief = false) ∧
        (∀ cf, s.app.cur = some cf → (∀ k : PortId, s.cans[k].armed = []) → ∀ (k : PortId) (i : Nat), i ∈ s'.cans[k].armed →
          ∃ m w, s.cans[k].cycleStart = some m ∧ ((cf.way.entriesOf k.val)[i]?).map CanCyc.wopen = some w ∧
            tickCycles * s.cycle ≤ m * tickCycles + w * usCycles ∧ s.pair.hbTb.toNat + 11 * usCycles ≤ m * tickCycles + w * usCycles)) ∧
      ((s.cycle < n ∨ s.pwr.quietIn = true) → ∃ s', exec (.takeover t) s = .next s' ∧ s' = { s with now := s.then t })) ∧
    (s.pair.role = 2 → s.steward = true → ∃ s', exec (.powerfail t bs) s = .next s' ∧
      s' = { s with now := s.then t, pair := { s.pair with due := some (u48 bs 0, 3) } })

/-- A relief takes INPUT frames of ticks to come, DIGEST, EDIT and STOP messages; a DIGEST that is late is answered with an OUTSTEP
message; an OUTSTEP or a STOP that comes too late ends lock step: role relief out of step, reason kept, next epoch, application ended,
edits dropped, rooms stopped with their registers, memory as it was. Log entry 35. From 14_pair_redundancy: R379, R386, R387;
09_online_edit: R217, R232; 13_host_interface: R356. -/
def Obligations.LockStep : Prop :=
  ∀ (s : State) (t : Nat) (bs : List Byte),
    let fallen (s' : State) (why : BitVec 3) : Prop := s'.pair.role = 3 ∧ s'.pair.osreason = why ∧ s'.pair.epoch = s.pair.epoch + 1 ∧
      s'.pair.evt.getLsbD 2 = true ∧ s'.app.running = false ∧ s'.edits.batches = [] ∧ s'.edits.reads = [] ∧ s'.dmem = s.dmem ∧ s'.img = s.img ∧
      s'.np.mode = false ∧ ∀ r : RoomId, s'.rooms[r].g = s.rooms[r].g ∧
        s'.rooms[r].st = (if s.rooms[r].st = .waiting ∨ s.rooms[r].st = .ready then .stopped else s.rooms[r].st)
    (s.awake = true → s.isRelief = true → s.cycle < u48 bs 0 → ∃ s', exec (.input t bs) s = .next s' ∧
      s' = { s with now := s.then t, pair := { s.pair with frame := some (u48 bs 0, bs) } }) ∧
    ((s.isRelief = false ∨ u48 bs 0 ≤ s.cycle) → ∃ s', exec (.input t bs) s = .next s' ∧ s' = { s with now := s.then t }) ∧
    (∃ s', exec (.digest t bs) s = .next s' ∧
      s' = { s with now := s.then t, pair := { s.pair with digDue := s.pair.digDue.filter (fun n => n % 2 ^ 48 != u48 bs 0) } }) ∧
    (∀ n rest, s.pair.digDue = n :: rest → s.pair.link = true → ∃ s' b, exec (.digestLate t) s = .next s' ∧ s'.pair.digDue = rest ∧
      s'.now = max (s.then t) (s.cycleOfTb (tickCycles * n + 40000)) ∧ s'.out = s.out ++ [.frame 5 b] ∧ u8 b 0 = 5 ∧ u8 b 4 = 3 ∧ LanesKept s s') ∧
    (s.steward = true → s.pair.role = 2 →
      (∃ s', exec (.outstep t bs) s = .next s' ∧ fallen s' (BitVec.ofNat 3 (u8 bs 0))) ∧
      (s.cycle < u48 bs 0 → (∃ s', exec (.stopMessage t bs) s = .next s' ∧ s'.app = { s.app with stop := some { tick := u48 bs 0, refs := [] } } ∧
        LanesKept s s' ∧ s'.pair = s.pair)) ∧
      (u48 bs 0 ≤ s.cycle → ∃ s', exec (.stopMessage t bs) s = .next s' ∧ fallen s' 5) ∧
      (s.cycle < u48 bs 0 → s.batchStatus (u16 bs 6) (batchEntries (bs.drop 8).length (bs.drop 8)) = 0 → ∃ s' b, exec (.edit t bs) s = .next s' ∧
        s'.edits.batches = s.edits.batches ++ [b] ∧ b.te = u48 bs 0 ∧ b.task = u16 bs 6 ∧ b.ref = none ∧ LanesKept s s' ∧ s'.app = s.app) ∧
      (u48 bs 0 ≤ s.cycle → ∃ s', exec (.edit t bs) s = .next s' ∧ s' = { s with now := s.then t })) ∧
    (s.pair.role ≠ 2 → ∃ s', exec (.outstep t bs) s = .next s' ∧ s' = { s with now := s.then t })

/-- PAIR SWITCH answers 0x0701 on a relief, 0x0708 without PAIR, 0x0705 with no relief in step, 0x0703 when the relief does not confirm in
time or refuses, and completes at its tick with that cycle number. A preferred relief may propose one. At the tick the primary becomes
relief out of step and the relief primary, with the next epoch and the reason. From R395. -/
def Obligations.PlannedSwitch : Prop :=
  ∀ (s : State) (t tick : Nat) (q : SwitchReq), s.steward = true → tick < 2 ^ 48 →
    (∀ (c : RingId) (e : CmdEntry), s.CanAnswer c → e.formOk 0 [] = true →
      (s.isRelief = true → ∃ s', exec (.pairSwitch t c e) s = .next s' ∧ Answers s s' c e 0x0701 [] ∧ s'.pair = s.pair) ∧
      (s.isRelief = false → s.inPair = false → ∃ s', exec (.pairSwitch t c e) s = .next s' ∧ Answers s s' c e 0x0708 [] ∧ s'.pair = s.pair) ∧
      (s.isRelief = false → s.inPair = true → s.reliefInStep = false → ∃ s', exec (.pairSwitch t c e) s = .next s' ∧
        Answers s s' c e 0x0705 [] ∧ s'.pair = s.pair) ∧
      (s.inPair = true → s.reliefInStep = true → s.pair.reqSwitch = none → ∃ s' ref b, exec (.pairSwitch t c e) s = .next s' ∧
        Awaits s s' c e 0x70 ∧ s'.host.inProg[c] = some ref ∧ s'.pair = { s.pair with reqSwitch := some { tick := s.cycle + 40, confirmed := false, ref := some ref, reversion := false } } ∧
        Out.frame 5 b ∈ s'.out.drop s.out.length ∧ u8 b 0 = 4 ∧ u8 b 4 = 0 ∧ u48 b 5 = (s.cycle + 40) % 2 ^ 48)) ∧
    (s.pair.role = 2 → s.pwr.rolePref = true → s.pair.hold ≠ 0 → s.pair.reqSwitch = none → s.pair.link = true → ∃ s' b,
      exec (.reversion t) s = .next s' ∧ s'.pair = { s.pair with reqSwitch := some { tick := s.cycle + 40, confirmed := false, ref := none, reversion := true } } ∧ s'.out = s.out ++ [.frame 5 b] ∧ u8 b 0 = 4 ∧
      s'.now = max (s.then t) (s.pair.inStepSince + s.pair.hold.toNat * secCycles) ∧ LanesKept s s') ∧
    ((s.pair.role = 1 ∨ s.pair.role = 2) →
      (s.cycle + 20 ≤ tick → s.pair.reqSwitch = none → s.pwr.quietIn = false → s.app.stop = none → s.app.running = true → ∃ s',
        exec (.switch t (0 :: toLe 6 tick)) s = .next s' ∧ s'.pair = { s.pair with reqSwitch := some { tick := tick, confirmed := true, ref := none, reversion := s.pair.role == 1 } } ∧ LanesKept s s') ∧
      ((tick < s.cycle + 20 ∨ s.pair.reqSwitch ≠ none) → s.pair.link = true → ∃ s' b, exec (.switch t (0 :: toLe 6 tick)) s = .next s' ∧
        s'.pair = s.pair ∧ s'.out = s.out ++ [.frame 5 b] ∧ u8 b 0 = 4 ∧ u8 b 4 = 2 ∧ u48 b 5 = tick) ∧
      (s.pair.reqSwitch = some q → q.confirmed = false → q.tick = tick →
        (s.cycle + 20 ≤ tick → ∃ s', exec (.switch t (1 :: toLe 6 tick)) s = .next s' ∧
          s' = { s with now := s.then t, pair := { s.pair with reqSwitch := some { q with confirmed := true } } }) ∧
        (∃ s', exec (.switch t (2 :: toLe 6 tick)) s = .next s' ∧ s'.pair = { s.pair with reqSwitch := none } ∧ LanesKept s s' ∧
          ∀ ref, q.ref = some ref → Finishes s s' ref 0x0703 []))) ∧
    (s.pair.reqSwitch = some q → q.confirmed = false → s.edits.swap = .none → q.tick ≤ s.cycle + 20 → ∃ s',
      exec (.confirmTimeout t) s = .next s' ∧ s'.pair = { s.pair with reqSwitch := none } ∧ LanesKept s s' ∧
      ∀ ref, q.ref = some ref → Finishes s s' ref 0x0703 []) ∧
    (s.pair.reqSwitch = some q → q.confirmed = true → q.tick ≤ s.cycle → s.halted = false → s.pwr.pf = .none →
      (s.pair.role = 1 → ∃ s', exec (.plannedSwitch t) s = .next s' ∧ s'.pair.role = 3 ∧ s'.pair.reqSwitch = none ∧
        s'.pair.reason = (if q.reversion then 6 else 5) ∧ s'.pair.epoch = s.pair.epoch + 1 ∧ s'.app.running = false ∧
        s'.pair.evt.getLsbD 8 = true ∧ s'.now = max (s.then t) (s.cycleOfTb (tickCycles * q.tick + 16000)) ∧ s'.dmem = s.dmem ∧
        (∀ g : GrpId, s.groups[g].lplus = true → s'.groups[g].relief = true) ∧ ∀ ref, q.ref = some ref → Finishes s s' ref 0 (toLe 6 q.tick)) ∧
      (s.pair.role = 2 → ∃ s', exec (.plannedSwitch t) s = .next s' ∧ s'.pair.role = 1 ∧ s'.pair.reqSwitch = none ∧
        s'.pair.reason = (if q.reversion then 6 else 5) ∧ s'.pair.epoch = s.pair.epoch + 1 ∧ s'.app = s.app ∧ s'.pair.evt.getLsbD 8 = true ∧
        (∀ g : GrpId, s.groups[g].lplus = true → s'.groups[g].relief = false) ∧ LanesKept s s'))

/-- RESYNC answers 0x0708 or 0x0704, answers for a relief in step at once, else awaits the join, a primary's through a JOIN message to its relief
(log entry 45); the blocks of the stream change exactly what
they name; an attempt at a common tick joins with an agreeing digest and is counted otherwise; JOIN tells the primary; a primary's waybill
is taken in and examined without a command. Log entries 32 and 35. From 14_pair_redundancy: R385, R392, R396, R397, R398. -/
def Obligations.Resynchronisation : Prop :=
  ∀ (s : State) (t : Nat) (c : Conf), s.steward = true →
    (∀ (r : RingId) (e : CmdEntry), s.CanAnswer r → e.formOk 0 [] = true →
      (s.inPair = false → ∃ s', exec (.resync t r e) s = .next s' ∧ Answers s s' r e 0x0708 [] ∧ s'.pair = s.pair) ∧
      (s.inPair = true → (s.pair.link = false ∨ s.pair.role = 0) → ∃ s', exec (.resync t r e) s = .next s' ∧ Answers s s' r e 0x0704 [] ∧
        s'.pair = s.pair) ∧
      (s.inPair = true → s.pair.link = true → (s.pair.partner.hello = true → s.mayPair = true) → s.pair.cfgdiff = false →
        (s.pair.role = 2 → ∃ s', exec (.resync t r e) s = .next s' ∧ Answers s s' r e 0 (toLe 6 s.pair.joinTick) ∧ s'.pair = s.pair) ∧
        (s.pair.role = 3 → s.pair.joinRef = none → ∃ s', exec (.resync t r e) s = .next s' ∧ Awaits s s' r e 0x71 ∧
          s'.pair.joinRef = s'.host.inProg[r] ∧ s'.pair.attempts = 0 ∧ s'.pair.passDone = false ∧ s'.pair.progress = 0 ∧
          s'.pair.rsync = s.maySync ∧ LanesKept s s') ∧
        (s.pair.role = 1 → s.reliefInStep = true → ∃ s', exec (.resync t r e) s = .next s' ∧ Answers s s' r e 0 (toLe 6 s.pair.joinTick) ∧
          s'.pair = s.pair) ∧
        (s.pair.role = 1 → s.reliefInStep = false → s.pair.joinRef = none → ∃ s' b, exec (.resync t r e) s = .next s' ∧ Awaits s s' r e 0x71 ∧
          s'.pair.joinRef = s'.host.inProg[r] ∧ Out.frame 5 b ∈ s'.out.drop s.out.length ∧ u8 b 0 = 6 ∧ u48 b 4 = 0 ∧ u8 b 10 = 0 ∧
          LanesKept s s'))) ∧
    (s.joinConf = some c → s.pair.role = 3 → s.pair.rsync = true →
      (∃ s', exec (.stream t .passDone) s = .next s' ∧ s'.pair.passDone = true ∧ s'.pair.progress = 100 ∧ LanesKept s s') ∧
      (∀ (room : RoomId) (ws : List Word), ∃ s', exec (.stream t (.record room ws)) s = .next s' ∧ s'.rooms[room].get 0 = 0 ∧
        (∀ k : Reg, k ≠ 0 → s'.rooms[room].g[k] = ws.getD (k.val - 1) 0) ∧ s'.rooms[room].mlo = ws.getD 33 0 ∧
        s'.rooms[room].relTb = (ws.getD 39 0) ++ (ws.getD 38 0) ∧ s'.rooms[room].st = s.rooms[room].st ∧
        (∀ q : RoomId, q ≠ room → s'.rooms[q] = s.rooms[q]) ∧ s'.dmem = s.dmem ∧ s'.img = s.img) ∧
      (∀ (room : RoomId) (ret : Bool) (i off : Nat) (b : List Byte), c.an.rooms.idxOf? room.val = some i →
        off + b.length ≤ ((c.task i).map (fun k => if ret then k.retLen else k.privLen)).getD 0 →
        ∃ s', exec (.stream t (.window room ret off b)) s = .next s' ∧
          s'.dmem = s.dmem.write ((if ret then c.an.retBase.getD i 0 else c.an.privBase.getD i 0) + off) b ∧ s'.rooms = s.rooms ∧ s'.img = s.img) ∧
      (∀ (pend : Bool) (addr : Nat) (b : List Byte), ∃ s', exec (.stream t (.words pend addr b)) s = .next s' ∧
        s'.img = (if pend then { s.img with pend := s.img.pend.write addr b } else { s.img with com := s.img.com.write addr b }) ∧
        s'.rooms = s.rooms ∧ s'.dmem = s.dmem) ∧
      (s.mayRelease = true → s.pair.passDone = true → s.commonAt c s.cycle = true →
        (∀ k, ∃ s', exec (.joinAttempt t false k) s = .next s' ∧ s'.pair.attempts = satInc s.pair.attempts ∧
          s'.pair.blockRoom = BitVec.ofNat 7 k ∧ s'.pair.role = 3 ∧ s'.app = s.app ∧ LanesKept s s') ∧
        (∀ k, s.wholeFrame c s.cycle = true → ∃ s', exec (.joinAttempt t true k) s = .next s' ∧ s'.pair.role = 2 ∧ s'.app.running = true ∧
          s'.app.cur = some c ∧ s'.app.startTick = s.cycle ∧ s'.pair.joinTick = s.cycle ∧ s'.pair.rsync = false ∧ s'.pair.joinRef = none ∧
          s'.pair.evt.getLsbD 3 = true ∧ s'.pair.epoch = s.pair.epoch + 1 ∧ s'.dmem = s.dmem ∧
          (∀ ref, s.pair.joinRef = some ref → Finishes s s' ref 0 (toLe 6 s.cycle))))) ∧
    (∀ (j : Nat) (b : Byte), j < 2 ^ 48 → s.pair.role = 1 →
      (∃ s', exec (.join t (toLe 6 j ++ [1, b])) s = .next s' ∧ s'.pair.joinTick = j ∧ s'.pair.partner.role = 2 ∧ s'.pwr.quietOut = false ∧
        s'.pair.joinRef = none ∧ LanesKept s s' ∧ ∀ ref, s.pair.joinRef = some ref → Finishes s s' ref 0 (toLe 6 j)) ∧
      (∃ s', exec (.join t (toLe 6 j ++ [2, b])) s = .next s' ∧
        s' = { s with now := s.then t, pair := { s.pair with attempts := satInc s.pair.attempts } })) ∧
    (∀ b : Byte, s.pair.role = 3 → ∃ s', exec (.join t (toLe 6 0 ++ [0, b])) s = .next s' ∧ s'.pair.rsync = s.maySync ∧ s'.pair.attempts = 0 ∧
      s'.pair.passDone = false ∧ s'.pair.progress = 0 ∧ LanesKept s s') ∧
    (∀ (part : List Byte), s.pair.role = 3 → s.app.running = false → s.inn.exam = none →
      (part.length < 16 ∨ part.length < u32 part 8 → ∃ s', exec (.waybill t (toLe 4 0 ++ part)) s = .next s' ∧
        s' = { s with now := s.then t, pair := { s.pair with wayBuf := part } }) ∧
      (16 ≤ part.length → u32 part 8 ≤ part.length → ∃ s', exec (.waybill t (toLe 4 0 ++ part)) s = .next s' ∧ s'.pair.wayBuf = [] ∧
        s'.inn.loaded = some (part.take (u32 part 8)) ∧ s'.inn.exam = some { ref := none, stage := false } ∧ s'.edits.swap = .none ∧
        LanesKept s s'))

/-- A channel that has differed from the frame for DTIME, or an output whose read-back disagrees, is made discrepant, which sets its bit and latch
and is recorded, on the primary through DISC; one that agrees is cleared; a proof opens only when allowed and
240 µs before its commit, compares the two currents at its end and sets or clears its failure, the primary's figure coming by a PROOF message
that names the window's end; once an hour the ages beyond AGELIM set the aged bit. Other channels and the rooms stay. What has no
message is log entry 35. From 14_pair_redundancy: R381, R388, R399, R400, R401, R402. -/
def Obligations.DiscrepanciesAndProofs : Prop :=
  ∀ (s : State) (t ma : Nat) (ch : ChanId) (e : ChanCfg), s.steward = true → s.chans[ch].cfg = some e →
    (s.isRelief = true → comparedMode e = true →
      (∀ x, s.chans[ch].disc = false → s.discDue ch = some x → ∃ s', exec (.inputDiscrepancy t ch true) s = .next s' ∧ s'.chans[ch].disc = true ∧
        s'.now = max (s.then t) x ∧ s'.chans[ch].discLatch = true ∧ (∀ n : ChanId, n ≠ ch → s'.chans[n] = s.chans[n]) ∧ s'.pair.evt.getLsbD 7 = true ∧
        s'.recorded 0x63 ch.val sevFault ∧ LanesKept s s' ∧
        (s.pair.link = true → ∃ b, Out.frame 5 b ∈ s'.out.drop s.out.length ∧ u8 b 0 = 8 ∧ slice b 4 24 = s'.discMap)) ∧
      (s.discDue ch = none → ∃ s', exec (.inputDiscrepancy t ch false) s = .next s' ∧ s'.chans[ch] = { s.chans[ch] with disc := false } ∧
        (∀ n : ChanId, n ≠ ch → s'.chans[n] = s.chans[n]) ∧ s'.pair.evt = s.pair.evt ∧ LanesKept s s') ∧
      (s.discDue ch = none → ∃ s', exec (.inputDiscrepancy t ch true) s = .next s' ∧ s' = { s with now := s.then t }) ∧
      (e.isReadback = false → ∀ x, s.chans[ch].diffAt = some x →
        s.discDue ch = some (x + (if s.pair.dtime = 0 then 20 else s.pair.dtime.toNat) * msCycles)) ∧
      (e.isReadback = true → ((s.discDue ch).isSome = true ↔ s.chans[ch].cdisc = true))) ∧
    (∀ bs : List Byte, s.pair.role = 1 → ∃ s', exec (.disc t bs) s = .next s' ∧ LanesKept s s' ∧
      ∀ n : ChanId, s'.chans[n].disc = bit (ofLe (slice bs 0 24)) n.val ∧
        s'.chans[n].discLatch = (s.chans[n].discLatch || (bit (ofLe (slice bs 0 24)) n.val && !s.chans[n].disc)) ∧
        s'.chans[n].cfg = s.chans[n].cfg ∧ s'.chans[n].drive = s.chans[n].drive) ∧
    (let opens := max (s.then t) (s.cycleOfTb (tickCycles * s.proofEnd ch - 240 * usCycles));
      s.mayProve ch = true → ({ s with now := opens } : State).tb + 40 * usCycles ≤ tickCycles * s.proofEnd ch →
      ∃ s', exec (.proofWindowOpen t ch) s = .next s' ∧ s'.now = opens ∧
      s'.chans[ch].proofOpen = true ∧ s'.chans[ch].proofTry = some opens ∧ s'.chans[ch].primMa = none ∧
      (s.groups[grpOf ch].relief = true → s'.chans[ch].drive = true) ∧ (∀ n : ChanId, n ≠ ch → s'.chans[n] = s.chans[n]) ∧ LanesKept s s') ∧
    (s.pair.role ≠ 2 → ∃ s', exec (.proofWindowOpen t ch) s = .next s' ∧ s' = { s with now := s.then t }) ∧
    (∀ bs : List Byte, u8 bs 0 = ch.val → u48 bs 1 ≠ s.proofEnd ch → ∃ s', exec (.proof t bs) s = .next s' ∧ s' = { s with now := s.then t }) ∧
    (s.pair.role = 1 → s.pair.link = true → s.chans[ch].proofOpen = false → s.chans[ch].drive = true → ∃ s' b,
      exec (.proofWindowClose t ch ma) s = .next s' ∧ s' = { s with now := s.then t, out := s.out ++ [.frame 5 b] } ∧ u8 b 0 = 7 ∧
      u8 b 4 = ch.val ∧ u16 b 11 = min 65535 ma) ∧
    (∀ bs : List Byte, s.pair.role = 2 → u8 bs 0 = ch.val → u48 bs 1 = s.proofEnd ch → s.chans[ch].proofOpen = true → ∃ s', exec (.proof t bs) s = .next s' ∧
      s'.chans[ch] = { s.chans[ch] with primMa := some (u16 bs 7) } ∧ (∀ n : ChanId, n ≠ ch → s'.chans[n] = s.chans[n]) ∧ LanesKept s s') ∧
    (s.chans[ch].proofOpen = true →
      (∀ p, s.chans[ch].primMa = some p → ma + p ≤ 5 * ma → 2 ≤ ma + p → ∃ s', exec (.proofWindowClose t ch ma) s = .next s' ∧
        s'.chans[ch].proofOpen = false ∧ s'.chans[ch].proofHours = some s.hours ∧ s'.chans[ch].proofFail = false ∧ s'.chans[ch].exer = false ∧
        s'.pair.evt = s.pair.evt ∧ LanesKept s s') ∧
      ((∀ p, s.chans[ch].primMa = some p → 5 * ma < ma + p ∨ ma + p < 2) → ∃ s', exec (.proofWindowClose t ch ma) s = .next s' ∧
        s'.chans[ch].proofOpen = false ∧ s'.chans[ch].proofFail = true ∧ s'.chans[ch].proofFailLatch = true ∧
        s'.chans[ch].proofHours = s.chans[ch].proofHours ∧ s'.pair.evt.getLsbD 6 = true ∧ s'.recorded 0x64 ch.val sevFault ∧ LanesKept s s')) ∧
    (s.isRelief = true → ∃ s', exec (.proofAgeUpdate t) s = .next s' ∧ s'.nv.writes = s.nv.writes + 1 ∧ LanesKept s s' ∧
      s'.now = max (s.then t) (s.pair.agesAt + 3600 * secCycles) ∧ s'.pair.agesAt = s'.now ∧
      ∀ n : ChanId, { s'.chans[n] with agedOut := s.chans[n].agedOut } = s.chans[n] ∧
        (s'.chans[n].agedOut = true ↔ s.chans[n].agedOut = true ∨ (n.val ∈ s.provable ∧ s.pair.agelim ≠ 0 ∧
          ∀ h, s.chans[n].proofHours = some h → s.pair.agelim.toNat * 24 < (s.hours - h) / 10)))

/-- R344, R346, R348, R353 to R358: the commands on waybills, start, stop, edits, swaps and variables that begin and pass their checks. -/
def Stated.ApplicationCommands : Prop :=
  ∀ (s : State) (t : Nat) (c : RingId) (e : CmdEntry) (bs : List Byte), s.mayBegin c = true → s.pwr.pfwarn = false →
    let b (op : Nat) : State := s.taken t c e op
    let r (op : Nat) : CmdRef := s.refOf c e op
    let bytes := slice bs 0 (e.w 4)
    let batch := slice bs 0 (e.h 6)
    let i := ((s.findVar (e.w 4)).map Var.task).getD 0xFFFF
    (∀ op : Byte, op.toNat ∉ Instr.opcodes → exec (.unknownCommand t c e op) s = .next ((b op.toNat).complete (r op.toNat) 0x0102 [])) ∧
    (Passes (loadChecks e (some bs) s) → exec (.waybillLoad t c e (some bs)) s = .next (({ b 0x10 with
      inn := { s.inn with loaded := some bytes }
      app := { s.app with code := upd s.app.code (1 - s.app.half) (fun _ => codeWords bytes (sections bytes)) } } : State).complete (r 0x10) 0
        (toLe 4 bytes.length ++ toLe 4 (u32 bytes 16)))) ∧
    (e.formOk 0 [] = true →
      (s.app.running = false → s.app.start = none → s.inn.exam = none → exec (.admitWaybill t c e) s = .next { b 0x11 with
        inn := { s.inn with exam := some { ref := some (r 0x11), stage := false } } }) ∧
      (∀ cf, s.app.stored = some cf → s.app.running = false → s.app.start = none → s.inn.exam = none → s.isRelief = false → s.partnerUnknown = false →
        ∃ s', exec (.start t c e) s = .next s' ∧ s'.app.start = some { tick := s.cycle + 40, flagOk := false, ref := some (r 0x12) } ∧
          s'.SetUpFor cf ∧ s'.host.inProg[c] = some (r 0x12) ∧ s'.host.cmdHead[c] = s.host.cmdHead[c] + 1 ∧ s'.nv.writes = s.nv.writes + 1) ∧
      (s.app.running = true → (s.edits.swap = .none ∨ s.edits.swap = .staged) → s.isRelief = false →
        (s.app.stop = none → s.pair.role ≠ 1 → exec (.stop t c e) s = .next ((b 0x13).scheduleStop (s.cycle + 4) [r 0x13])) ∧
        (s.app.stop = none → s.pair.role = 1 → exec (.stop t c e) s =
          .next (((b 0x13).scheduleStop (s.cycle + 4) [r 0x13]).sendControl 3 (toLe 6 (s.cycle + 4)))) ∧
        (∀ q, s.app.stop = some q → exec (.stop t c e) s = .next ((b 0x13).scheduleStop q.tick (q.refs ++ [r 0x13])))) ∧
      (s.edits.swap = .trial → s.isRelief = false → (s.reliefInStep = true → s.pair.partner.swap = 2) → exec (.swapRollback t c e) s =
        .next ((b 0x23).beginSwap (r 0x23) .pendRollback 2 (s.commonRelease s.app.cur (s.cycle + 40))))) ∧
    (e.formOk 1 [] = true →
      (s.inn.exam = none → s.applies = true → s.edits.swap = .none → s.batchOfChanged = false → exec (.swapStage t c e) s = .next { b 0x21 with
        inn := { s.inn with exam := some { ref := some (r 0x21), stage := true } } }) ∧
      (s.edits.swap = .staged → exec (.swapDiscard t c e) s = .next (({ b 0x21 with
        edits := { s.edits with swap := .none, new := none } } : State).complete (r 0x21) 0 [])) ∧
      (s.edits.swap = .staged → s.app.running = true → s.isRelief = false → (s.reliefInStep = true → s.pair.partner.swap = 1) →
        exec (.swapCommit t c e) s = .next ((b 0x22).beginSwap (r 0x22) .pendSwitch 0 (s.commonRelease s.edits.new (s.cycle + 40)))) ∧
      (s.edits.swap = .trial → s.isRelief = false → (s.reliefInStep = true → s.pair.partner.swap = 2) → exec (.swapRelease t c e) s =
        .next ((b 0x22).beginSwap (r 0x22) .releasing 3 (s.cycle + 40)))) ∧
    (Passes (editFormChecks e s) → Passes (s.editChecks (e.h 4)) → s.batchStatus (e.h 4) (batchEntries batch.length batch) = 0 →
      exec (.valueEdit t c e (some bs)) s = .next ((b 0x20).acceptBatch (some (r 0x20)) (e.h 4) (s.chooseTe (e.h 4)) batch)) ∧
    (e.formOk 0 [(4, 14), (20, 32)] = true → 1 ≤ e.h 10 → e.h 10 ≤ 32 → (slice e.body (16 + e.h 10) (32 - e.h 10)).any (· != 0) = false →
      Passes (s.editChecks i) → s.batchStatus i (batchEntries (oneEntry e).length (oneEntry e)) = 0 →
      (u48 e.body 8 = 0 → exec (.variableWriteAtRelease t c e) s = .next ((b 0x31).acceptBatch (some (r 0x31)) i (s.chooseTe i) (oneEntry e))) ∧
      (u48 e.body 8 ≠ 0 → s.teAllowed i (u48 e.body 8) = true → exec (.variableWriteAtRelease t c e) s =
        .next ((b 0x31).acceptBatch (some (r 0x31)) i (u48 e.body 8) (oneEntry e)))) ∧
    (∀ v, e.formOk 0 [(4, 8), (16, 8)] = true → 1 ≤ e.h 10 → e.h 10 ≤ 32 → e.q 16 % 8 = 0 → s.app.running = true → s.findVar (e.w 4) = some v →
      s.readStatus e = 0 → exec (.variableRead t c e) s = .next { b 0x30 with edits := { s.edits with
        reads := s.edits.reads ++ [{ task := v.task, te := s.chooseTe v.task, addr := s.varAddr v + e.h 8, len := e.h 10, host := e.q 16, ref := some (r 0x30) }]
        lastTe := s.chooseTe v.task :: s.edits.lastTe.filter (fun x => decide (s.cycle < x + 64)) } })

/-- R353: the commands on calibration, the clock, NV records, the guestbook, the pair and updates that begin and pass their checks. -/
def Stated.ModuleCommands : Prop :=
  ∀ (s : State) (t : Nat) (c : RingId) (e : CmdEntry) (bs : List Byte), s.mayBegin c = true → s.pwr.pfwarn = false →
    let b (op : Nat) : State := s.taken t c e op
    let r (op : Nat) : CmdRef := s.refOf c e op
    (∀ mean : Int,
      (Passes (calTakeChecks e 1 true s) → exec (.calibrationLowPoint t c e mean true) s = .next ((b 0x40).takePoint (r 0x40) e false mean)) ∧
      (Passes (calTakeChecks e 2 true s) → exec (.calibrationHighPoint t c e mean true) s = .next ((b 0x40).takePoint (r 0x40) e true mean))) ∧
    (∀ n k, e.formOk 0 [(4, 1), (5, 1)] = true → s.calCfg e = some (n, k) → s.otherPoints e = false →
      (∀ g o, e.b 5 = 3 → s.pointsOf n ≠ (none, none) → tooClose (spanOf k) (s.pointsOf n).1 (s.pointsOf n).2 = false →
        calTrim (s.pointsOf n).1 (s.pointsOf n).2 = some (g, o) → trimTooLarge (spanOf k) (some (g, o)) = false → s.nv.ready = true →
        exec (.calibrationStore t c e) s = .next ((b 0x40).storeTrim (r 0x40) n g o true)) ∧
      (e.b 5 = 4 → exec (.calibrationDiscard t c e) s = .next (((b 0x40).updGrp (grpOf n) Group.noPoints).complete (r 0x40) 0 [])) ∧
      (e.b 5 = 5 → s.nv.ready = true → exec (.factoryCalibration t c e) s = .next ((b 0x40).storeTrim (r 0x40) n 0 0 false))) ∧
    (∀ g : GrpId, e.formOk 0 [(4, 1)] = true → e.b 4 = g.val → s.spare.assigned = some g → s.groups[g].engok = true →
      s.groups[g].engSince + 10 * secCycles ≤ s.then t → ∃ s', exec (.spareEngineReturn t c e) s = .next s' ∧
        s'.spare = { s.spare with assigned := none, connected := false, started := false } ∧
        s'.groups[g] = { s.groups[g] with spare := false, engfail := false, retevt := true } ∧
        s'.now = ({ s with now := s.then t } : State).cycleOfTb (ceilDiv ({ s with now := s.then t } : State).tb frameCycles * frameCycles) ∧
        s'.host.inProg[c] = none ∧ s'.host.cmdHead[c] = s.host.cmdHead[c] + 1) ∧
    (Passes (rtcSetChecks e s) → exec (.rtcSet t c e) s = .next { b 0x50 with
      bk := { s.bk with stagedSet := some (calOf e, bit (e.b 11) 0, r 0x50) } }) ∧
    (Passes (dstChecks e false (b 0x51)) → exec (.summerTimeAdd t c e) s = .next { b 0x51 with
      bk := { s.bk with dstStep := some (false, (b 0x51).dstDue, r 0x51) } }) ∧
    (Passes (dstChecks e true (b 0x51)) → exec (.summerTimeSubtract t c e) s = .next { b 0x51 with
      bk := { s.bk with dstStep := some (true, (b 0x51).dstDue, r 0x51) } }) ∧
    (Passes (alarmChecks e s) →
      (e.b 4 = 1 → exec (.alarmSetUp t c e) s = .next (({ b 0x52 with bk := { s.bk with alm1 := alarmOfEntry e, a1 := false } } : State).complete
        (r 0x52) 0 [])) ∧
      (e.b 4 = 2 → exec (.alarmSetUp t c e) s = .next (({ b 0x52 with bk := { s.bk with
        alm2 := alarmOfEntry e
        a2 := false
        cnt := BitVec.ofNat 24 (e.w 16)
        cntAt := s.then t } } : State).complete (r 0x52) 0 []))) ∧
    (Passes (nvWriteChecks e (some bs) s) → exec (.nvRecordWrite t c e (some bs)) s = .next ((b 0x60).recWrite 5 (e.h 4) (slice bs 0 (e.h 6))
      (fun seq => .command (r 0x60) (BitVec.ofNat 32 seq)))) ∧
    (∀ slot seq data, Passes (nvReadChecks e s) → recRead s.nv.mem (e.h 4) = some (slot, seq, data) → data.length ≤ e.h 6 →
      exec (.nvRecordRead t c e) s = .next (((b 0x61).request (.hostWrite (e.q 8) data)).complete (r 0x61) 0 (toLe 4 seq ++ toLe 2 data.length))) ∧
    (Passes (bookReadChecks e s) →
      let slots := (List.range (e.h 6)).map (fun j => (e.h 4 + j) % 4096)
      exec (.guestbookRead t c e) s = .next (((b 0x90).request (.hostWrite (e.q 8) (slots.flatMap (bookEntry s.nv.mem)))).complete (r 0x90) 0
        (toLe 2 (slots.filter (fun k => !gbFree s.nv.mem k)).length ++ toLe 2 (((gbNewest (gbBook s.nv.mem)).map Prod.fst).getD 0xFFFF)))) ∧
    (e.formOk 0 [] = true →
      (s.inPair = true → s.reliefInStep = true → s.pair.reqSwitch = none → exec (.pairSwitch t c e) s = .next (({ b 0x70 with pair := { s.pair with
        reqSwitch := some { tick := s.cycle + 40, confirmed := false, ref := some (r 0x70), reversion := false } } } : State).sendControl 4
          (toLe 1 0 ++ toLe 6 (s.cycle + 40)))) ∧
      (s.inPair = true → s.pair.link = true → s.pair.role = 3 → (s.pair.partner.hello = true → s.mayPair = true) → s.pair.cfgdiff = false →
        s.pair.joinRef = none → exec (.resync t c e) s = .next { (b 0x71).commandSync with
          pair := { (b 0x71).commandSync.pair with joinRef := some (r 0x71) } }) ∧
      (s.sec.chunk = none → s.inn.exam = none → s.edits.swap = .none → s.sec.activateStatus = 0 → s.phase = .running →
        ∃ s', exec (.activate t c e) s = .next s' ∧ s'.phase = .inReset ∧ s'.clk.cause = 0x0B ∧ s'.sec.active = !s.sec.active ∧
          s'.sec.slotState (!s.sec.active) = .trial)) ∧
    (s.sec.chunk = none → Passes (chunkChecks e (some bs) s) → exec (.updateChunk t c e (some bs)) s = .next { b 0x80 with sec := { (if e.w 4 = 0 then
      { (s.sec.setState s.sec.spareSlot .empty) with updActive := true, updNext := 0 } else s.sec) with
        chunk := some (r 0x80, e.w 4, slice bs 0 (e.w 8)) } }) ∧
    (e.formOk 0 [(4, 12), (16, 32)] = true → 2048 ≤ e.w 4 → e.w 4 ≤ 4096 → e.q 8 % 8 = 0 → ∃ s' body, exec (.attest t c e) s = .next s' ∧
      body = (b 0x82).reportBody (slice e.body 12 32) ∧ s'.host.inProg[c] = none ∧ s'.host.cmdHead[c] = s.host.cmdHead[c] + 1 ∧
      (s.host.mute = false → Out.hostWrite (e.q 8) (body ++ slice (Config.identitySign (slice (Config.shake256 body) 0 64)) 0 1280) ∈
        s'.out.drop s.out.length) ∧ s'.recorded 0x97 0 sevInfo ∧ s'.sec = s.sec)

/-- Every driver command that may begin and passes its checks answers a next state, whether or not its completion ring has room: CMDHEAD has
advanced and been told to the host, and its own effect has been made or is awaited with the command in progress. One clause for each of the
31 driver commands; an opcode that is not defined has the one effect of R348, the answer 0x0102. From 13_host_interface: R343, R346, R348,
R351, R353. -/
def Obligations.DriverCommandsComplete : Prop := Stated.ApplicationCommands ∧ Stated.ModuleCommands

/-- For every command and state, step with the command at the front of its queue is exec of it on the state with the queue's rest; on an
empty queue the block idles (log entry 5). From 08_cycle_image_time; 13_host_interface. -/
def Obligations.StepRunsFront : Prop :=
  ∀ (s : State) (i : Instr) (rest : List Instr),
    step { s with pending := i :: rest } = exec i { s with pending := rest } ∧ (s.pending = [] → step s = .next s)

/-- Empty queue, cycle number and TB 0, data memory empty, no application, every room unused with registers 0, memories in canonical form,
and seventeen BAR0 registers at the reset values of their tables. Values the spec leaves open are log entry 6. From
03_clock_reset_startup; 04_scan_engine; 13_host_interface; 15_night_porter. -/
def Obligations.ResetState : Prop :=
  State.reset.Inv ∧ State.reset.pending = [] ∧ State.reset.cycle = 0 ∧ State.reset.tb = 0 ∧ State.reset.dmem = [] ∧
    State.reset.app.running = false ∧ State.reset.np.mode = false ∧ State.reset.host.active = false ∧
    (∀ r : RoomId, State.reset.rooms[r].st = .unused ∧ ∀ g : Reg, State.reset.rooms[r].get g = 0) ∧
    (∀ p ∈ [(0x0000, 0x3239314D), (0x0004, 0x534D), (0x0020, 0x20287F), (0x0024, 0x164), (0x0028, 0), (0x002C, 0x4EB4), (0x0408, 0xFFFFF),
      (0x040C, 0), (0x0810, 0x1F0000), (0x1000, 0x2625A00), (0x1008, 0x2625A00), (0x2000, 8), (0x2040, 0xFFFFFFFF), (0x2044, 0xFFFFFFFF),
      (0x4014, 0x7F0000), (0x5840, 0xFFF7F00), (0x585C, 0xFFF7F00)], barWord State.reset p.1 = BitVec.ofNat 32 p.2)

/-- For every state with the invariant, whatever command stands in front, the next state has it: data memory, the four image memories, NV
content, the relief's words, the MSI-X table and every snapshot keep their canonical form, and the stored g0 of every room is 0. From
04_scan_engine: R79; 04_scan_engine: R91. -/
def Obligations.StepKeepsInv : Prop :=
  ∀ s s' : State, s.Inv → step s = .next s' → s'.Inv

/-- In every state every command answers a next state; where the spec gives a command no occasion it changes nothing but time (log entries
2 and 3). From 00_scope; 13_host_interface: R353. -/
def Obligations.EveryCommandAnswers : Prop :=
  ∀ (i : Instr) (s : State), ∃ s', exec i s = .next s'

/-- Whatever command runs in whatever state, the commands waiting in the queue are the same after it (the queue is the model's, log entry
5). From 13_host_interface: R346. -/
def Obligations.QueueUntouched : Prop :=
  ∀ (i : Instr) (s s' : State), exec i s = .next s' → s'.pending = s.pending

/-- In every step of every state: SEC_STAT.OPEN is 1 exactly while no owner slot is set, and once one is set it stays so; the SVN count
never falls; no set or revoke fuse of either kind of key clears; the digest of a set slot never changes. From R481. -/
def Obligations.FusesNeverClear : Prop :=
  ∀ s s' : State, step s = .next s' →
    (barWord s 0x6000).getLsbD 0 = (s.sec.oset == 0) ∧ (s.sec.oset ≠ 0 → s'.sec.oset ≠ 0 ∧ (barWord s' 0x6000).getLsbD 0 = false) ∧
      s.sec.svncnt ≤ s'.sec.svncnt ∧
      ∀ i : Fin 4,
        (s.sec.cset.getLsbD i.val = true → s'.sec.cset.getLsbD i.val = true ∧ s'.sec.chash[i] = s.sec.chash[i]) ∧
        (s.sec.crev.getLsbD i.val = true → s'.sec.crev.getLsbD i.val = true) ∧
        (s.sec.oset.getLsbD i.val = true → s'.sec.oset.getLsbD i.val = true ∧ s'.sec.ohash[i] = s.sec.ohash[i]) ∧
        (s.sec.orev.getLsbD i.val = true → s'.sec.orev.getLsbD i.val = true)
end

