-- ==== Sys2Proof/Laws/Memory.lean ====
section
/-! SUPPORT. Memories: what a write and a read do, and that every memory operation keeps the canonical form. -/

namespace Sys2Proof.Machine

theorem Mem.wfFrom_mono {lo lo' : Nat} {m : Mem} (h : lo' ≤ lo) (w : Mem.wfFrom lo m = true) : Mem.wfFrom lo' m = true := by
  cases m with
  | nil => rfl
  | cons c r => simp only [Mem.wfFrom, Bool.and_eq_true, decide_eq_true_eq] at w ⊢; exact ⟨⟨by omega, w.1.2⟩, w.2⟩

theorem Mem.wfFrom_put {m : Mem} : ∀ {lo a : Nat} {b : Byte}, lo ≤ a → Mem.wfFrom lo m = true → Mem.wfFrom lo (m.put a b) = true := by
  induction m with
  | nil => intro lo a b h _; by_cases hb : b = 0#8 <;> simp [Mem.put, Mem.wfFrom, hb, h]
  | cons c r ih =>
    obtain ⟨k, v⟩ := c
    intro lo a b h w
    simp only [Mem.wfFrom, Bool.and_eq_true, decide_eq_true_eq, bne_iff_ne] at w
    obtain ⟨⟨hk, hv⟩, hr⟩ := w
    simp only [Mem.put]
    split
    · split
      · simp only [Mem.wfFrom, Bool.and_eq_true, decide_eq_true_eq, bne_iff_ne]; exact ⟨⟨hk, hv⟩, hr⟩
      · rename_i hb
        simp only [Mem.wfFrom, Bool.and_eq_true, decide_eq_true_eq, bne_iff_ne]
        exact ⟨⟨h, hb⟩, ⟨by omega, hv⟩, hr⟩
    · split
      · split
        · exact Mem.wfFrom_mono (by omega) hr
        · rename_i hb
          simp only [Mem.wfFrom, Bool.and_eq_true, decide_eq_true_eq, bne_iff_ne]
          subst_vars
          exact ⟨⟨h, hb⟩, hr⟩
      · simp only [Mem.wfFrom, Bool.and_eq_true, decide_eq_true_eq, bne_iff_ne]
        exact ⟨⟨hk, hv⟩, ih (by omega) hr⟩

@[simp] theorem Mem.wf_nil : Mem.wf [] = true := rfl

/-- A write of one byte keeps the canonical form. -/
@[simp] theorem Mem.wf_put {m : Mem} {a : Nat} {b : Byte} (h : m.wf = true) : (m.put a b).wf = true :=
  Mem.wfFrom_put (Nat.zero_le _) h

@[simp] theorem Mem.wf_write {bs : List Byte} : ∀ {m : Mem} {a : Nat}, m.wf = true → (m.write a bs).wf = true := by
  induction bs with
  | nil => intro m a h; exact h
  | cons b r ih => intro m a h; exact ih (Mem.wf_put h)

@[simp] theorem Mem.wf_writeAll {ws : List (Nat × Byte)} : ∀ {m : Mem}, m.wf = true → (m.writeAll ws).wf = true := by
  induction ws with
  | nil => intro m h; exact h
  | cons b r ih => intro m h; exact ih (Mem.wf_put h)

@[simp] theorem Mem.wf_ofChunks (cs : List (Nat × List Byte)) : (Mem.ofChunks cs).wf = true := by
  induction cs with
  | nil => rfl
  | cons c r ih => exact Mem.wf_write ih

theorem Mem.wfFrom_filter {p : Host.Cell → Bool} {m : Mem} : ∀ {lo : Nat}, Mem.wfFrom lo m = true → Mem.wfFrom lo (m.filter p) = true := by
  induction m with
  | nil => intro lo _; rfl
  | cons c r ih =>
    obtain ⟨k, v⟩ := c
    intro lo h
    simp only [Mem.wfFrom, Bool.and_eq_true, decide_eq_true_eq] at h
    obtain ⟨⟨h1, h2⟩, h3⟩ := h
    simp only [List.filter_cons]
    split
    · simp only [Mem.wfFrom, Bool.and_eq_true, decide_eq_true_eq]; exact ⟨⟨h1, h2⟩, ih h3⟩
    · exact Mem.wfFrom_mono (by omega) (ih h3)

/-- Clearing a range keeps the canonical form. -/
@[simp] theorem Mem.wf_clear {m : Mem} {a n : Nat} (h : m.wf = true) : (m.clear a n).wf = true := Mem.wfFrom_filter h

theorem Mem.get_of_wfFrom {m : Mem} : ∀ {lo a : Nat}, Mem.wfFrom lo m = true → a < lo → m.get a = 0 := by
  induction m with
  | nil => intros; rfl
  | cons c r ih =>
    obtain ⟨k, v⟩ := c
    intro lo a h ha
    simp only [Mem.wfFrom, Bool.and_eq_true, decide_eq_true_eq] at h
    have : k ≠ a := by omega
    have : a < k := by omega
    simp [Mem.get, *]

/-- A read after a write of one byte: the byte written at its address, what was there before elsewhere. -/
theorem Mem.get_put {m : Mem} : ∀ {lo a x : Nat} {b : Byte}, Mem.wfFrom lo m = true →
    (m.put a b).get x = if x = a then b else m.get x := by
  induction m with
  | nil =>
    intro lo a x b _
    by_cases hx : x = a <;> by_cases hb : b = 0#8 <;> simp [Mem.put, Mem.get, hx, hb]
    exact fun h => absurd h.symm hx
  | cons c r ih =>
    obtain ⟨k, v⟩ := c
    intro lo a x b w
    simp only [Mem.wfFrom, Bool.and_eq_true, decide_eq_true_eq, bne_iff_ne] at w
    obtain ⟨⟨hk, hv⟩, hr⟩ := w
    have below : ∀ y, y < k + 1 → Mem.get r y = 0 := fun y hy => Mem.get_of_wfFrom hr hy
    simp only [Mem.put]
    split <;> rename_i h1
    · split <;> rename_i hb
      · by_cases hx : x = a
        · rw [if_pos hx, hb]
          simp only [Mem.get]
          rw [if_neg (by omega), if_pos (by omega)]
        · rw [if_neg hx]
      · simp only [Mem.get]
        by_cases hx : x = a
        · rw [if_pos hx.symm, if_pos hx]
        · rw [if_neg (fun e => hx e.symm), if_neg hx]
          split
          · rw [if_neg (by omega), if_pos (by omega)]
          · rfl
    · split <;> rename_i h2
      · subst h2
        split <;> rename_i hb
        · by_cases hx : x = k
          · rw [if_pos hx, hb, below x (by omega)]
          · rw [if_neg hx]
            simp only [Mem.get]
            rw [if_neg (fun e => hx e.symm)]
            split
            · exact below x (by omega)
            · rfl
        · simp only [Mem.get]
          by_cases hx : x = k
          · rw [if_pos hx.symm, if_pos hx]
          · rw [if_neg (fun e => hx e.symm), if_neg hx]
            split
            · rw [if_neg (by omega)]
            · rw [if_neg (fun e => hx e.symm)]
      · simp only [Mem.get, ih hr]
        by_cases hx : x = a
        · rw [if_neg (by omega), if_neg (by omega), if_pos hx, if_pos hx]
        · rw [if_neg hx, if_neg hx]

theorem Mem.get_put_self {m : Mem} {a : Nat} {b : Byte} (h : m.wf = true) : (m.put a b).get a = b := by
  rw [Mem.get_put h, if_pos rfl]

theorem Mem.get_put_other {m : Mem} {a x : Nat} {b : Byte} (h : m.wf = true) (hx : x ≠ a) : (m.put a b).get x = m.get x := by
  rw [Mem.get_put h, if_neg hx]

/-- A write of bytes leaves every address outside them alone. -/
theorem Mem.get_write_outside {bs : List Byte} : ∀ {m : Mem} {a x : Nat}, m.wf = true → x < a ∨ a + bs.length ≤ x →
    (m.write a bs).get x = m.get x := by
  induction bs with
  | nil => intros; rfl
  | cons b r ih =>
    intro m a x h hx
    simp only [List.length_cons] at hx
    rw [Mem.write, ih (Mem.wf_put h) (by omega), Mem.get_put_other h (by omega)]

/-- A read of what has just been written. -/
theorem Mem.get_write_inside {bs : List Byte} : ∀ {m : Mem} {a i : Nat}, m.wf = true → i < bs.length →
    (m.write a bs).get (a + i) = bs.getD i 0 := by
  induction bs with
  | nil => intro m a i _ h; simp at h
  | cons b r ih =>
    intro m a i h hi
    rw [Mem.write]
    cases i with
    | zero => rw [Mem.get_write_outside (Mem.wf_put h) (by omega)]; simpa using Mem.get_put_self h
    | succ j =>
      have := ih (m := m.put a b) (a := a + 1) (i := j) (Mem.wf_put h) (by simpa using hi)
      rw [show a + (j + 1) = a + 1 + j by omega, this]
      simp

end Sys2Proof.Machine
end

