-- ==== Sys2Proof/Laws/Kernel.lean ====
section
/-! SUPPORT. How the invariant of the memories, the queue and the fuses pass through record updates, branches and folds. The files
Keep….lean say of every operation, in the order of the model, that it keeps the invariant (`…_inv`) and leaves queue and fuses alone
(`…_fixed`). -/

namespace Sys2Proof.Machine

/-- What only the security commands write: SVN count, set and revoke fuses, key digests. -/
def Sec.fuses (c : Sec) : Nat × BitVec 4 × BitVec 4 × Vector (List Byte) 4 × BitVec 4 × BitVec 4 × Vector (List Byte) 4 :=
  (c.svncnt, c.cset, c.crev, c.chash, c.oset, c.orev, c.ohash)

/-- The queue and the fuses. -/
def State.fixed (s : State) : List Instr × Nat × BitVec 4 × BitVec 4 × Vector (List Byte) 4 × BitVec 4 × BitVec 4 × Vector (List Byte) 4 :=
  (s.pending, s.sec.fuses)

/-- The four image memories have their canonical form. -/
def Image.Ok (i : Image) : Prop := i.pend.wf = true ∧ i.com.wf = true ∧ i.canRx.wf = true ∧ i.frozen.wf = true

/-- A room's snapshot has its canonical form and its g0 is 0. -/
def Room.Ok (v : Room) : Prop := v.snap.wf = true ∧ v.g[0] = 0

/-- So has every room. -/
def RoomsOk (rs : Vector Room 100) : Prop := ∀ r : RoomId, rs[r].Ok

/-- A next state of an outcome meets the invariant. -/
def OutInv (o : Host.Outcome State Fault Refusal) : Prop := ∀ t, o = .next t → t.Inv

/-- A next state of an outcome has this queue and these fuses. -/
def OutFixed (s : State) (o : Host.Outcome State Fault Refusal) : Prop := ∀ t, o = .next t → t.fixed = s.fixed

@[simp] theorem outInv_next (t : State) : OutInv (.next t) ↔ t.Inv := ⟨fun h => h t rfl, fun h _ e => by cases e; exact h⟩
@[simp] theorem outFixed_next (s t : State) : OutFixed s (.next t) ↔ t.fixed = s.fixed :=
  ⟨fun h => h t rfl, fun h _ e => by cases e; exact h⟩

/-! ### Record updates -/

@[simp] theorem State.fixed_mk (now : Nat) (tb0 : Nat) (cycle : Nat) (phase : Phase) (pwr : Power) (clk : Clk) (scan : Scan) (rooms : Vector Room 100)
    (dmem : Mem) (img : Image) (inn : Inn) (app : App) (edits : Edits) (chans : Vector Chan 192) (groups : Vector Group 12)
    (spare : Spare) (cans : Vector Can 4) (host : HostIf) (pair : Pair) (np : Porter) (bk : Backup) (nv : Nv) (gb : Guest) (sec : Sec)
    (out : List Out) (fresh : Nat) (pending : List Instr)
    (marks : List (Nat × Nat × Nat)) :
    (State.mk now tb0 cycle phase pwr clk scan rooms dmem img inn app edits chans groups spare cans host pair np bk nv gb sec out fresh pending marks).fixed = (pending, sec.fuses) := (rfl)

@[simp] theorem State.fixed_fold (s : State) : (s.pending, s.sec.fuses) = s.fixed := (rfl)

@[simp] theorem Sec.fuses_mk (active : Bool) (stA : SlotSt) (stB : SlotSt) (tries : Nat) (imgA : List Byte) (imgB : List Byte) (slot : Bool) (fallback : Bool)
    (failA : BitVec 3) (failB : BitVec 3) (abandoned : Option Bool) (failed : Option Bool) (svncnt : Nat) (cset : BitVec 4)
    (crev : BitVec 4) (chash : Vector (List Byte) 4) (oset : BitVec 4) (orev : BitVec 4) (ohash : Vector (List Byte) 4)
    (updNext : BitVec 25) (updActive : Bool) (chunk : Option (CmdRef × Nat × List Byte)) (ownStatus : BitVec 16) (ownSlot : BitVec 2)
    (enroll : Vector Word 16) :
    (Sec.mk active stA stB tries imgA imgB slot fallback failA failB abandoned failed svncnt cset crev chash oset orev ohash updNext updActive
    chunk ownStatus ownSlot enroll).fuses = (svncnt, cset, crev, chash, oset, orev, ohash) := (rfl)

@[simp] theorem Sec.fuses_fold (c : Sec) : (c.svncnt, c.cset, c.crev, c.chash, c.oset, c.orev, c.ohash) = c.fuses := (rfl)

@[simp] theorem State.inv_mk (now : Nat) (tb0 : Nat) (cycle : Nat) (phase : Phase) (pwr : Power) (clk : Clk) (scan : Scan) (rooms : Vector Room 100)
    (dmem : Mem) (img : Image) (inn : Inn) (app : App) (edits : Edits) (chans : Vector Chan 192) (groups : Vector Group 12)
    (spare : Spare) (cans : Vector Can 4) (host : HostIf) (pair : Pair) (np : Porter) (bk : Backup) (nv : Nv) (gb : Guest) (sec : Sec)
    (out : List Out) (fresh : Nat) (pending : List Instr)
    (marks : List (Nat × Nat × Nat)) :
    (State.mk now tb0 cycle phase pwr clk scan rooms dmem img inn app edits chans groups spare cans host pair np bk nv gb sec out fresh pending marks).Inv ↔
      dmem.wf = true ∧ img.Ok ∧ nv.mem.wf = true ∧ pair.words.wf = true ∧ host.msixTable.wf = true ∧ RoomsOk rooms := by
  constructor
  · rintro ⟨h1, h2, h3, h4, h5, h6, h7, h8, h9, h10⟩
    exact ⟨h1, ⟨h2, h3, h4, h5⟩, h6, h7, h8, fun r => ⟨h9 r, h10 r⟩⟩
  · rintro ⟨h1, ⟨h2, h3, h4, h5⟩, h6, h7, h8, h9⟩
    exact ⟨h1, h2, h3, h4, h5, h6, h7, h8, fun r => (h9 r).1, fun r => (h9 r).2⟩

@[simp] theorem Image.ok_mk (pend : Mem) (com : Mem) (canRx : Mem) (frozen : Mem) (closed : List Nat) (written : List Nat) :
    (Image.mk pend com canRx frozen closed written).Ok ↔ pend.wf = true ∧ com.wf = true ∧ canRx.wf = true ∧ frozen.wf = true := Iff.rfl

@[simp] theorem Room.ok_mk (g : Vector Word 32) (pc : BitVec 20) (z : Bool) (n : Bool) (c : Bool) (v : Bool) (b : Bool) (mlo : Word) (mhi : Word)
    (frs : Word) (quo : Word) (rem : Word) (acc : DWord) (load : Option LoadFlight) (macQ : List (Nat × DWord))
    (fpuQ : List (Nat × Word)) (divQ : List (Nat × Word × Word)) (lane : LaneId) (prio : BitVec 7) (relTb : DWord) (st : RoomSt)
    (privBase : Nat) (privLen : Nat) (retBase : Nat) (retLen : Nat) (snap : Mem) (baseline : List (Nat × Nat × Nat)) (firstRel : Bool)
    (oow : Bool) (issued : Nat) (peak : BitVec 26) (resp : BitVec 26) (dirty : List (Nat × Nat)) (changed : List Nat) (jdead : Bool)
    (restDone : Nat) (broken : Option (Nat × BitVec 20)) (restAt : Option Nat) :
    (Room.mk g pc z n c v b mlo mhi frs quo rem acc load macQ fpuQ divQ lane prio relTb st privBase privLen retBase retLen snap baseline
    firstRel oow issued peak resp dirty changed jdead restDone broken restAt).Ok ↔
      snap.wf = true ∧ g[0] = 0 := Iff.rfl

/-! ### What the invariant says of each part -/

@[simp] theorem State.Inv.wf_dmem {s : State} (h : s.Inv) : s.dmem.wf = true := h.dmem
@[simp] theorem State.Inv.ok_img {s : State} (h : s.Inv) : s.img.Ok := ⟨h.pend, h.com, h.canRx, h.frozen⟩
@[simp] theorem State.Inv.wf_pend {s : State} (h : s.Inv) : s.img.pend.wf = true := h.pend
@[simp] theorem State.Inv.wf_com {s : State} (h : s.Inv) : s.img.com.wf = true := h.com
@[simp] theorem State.Inv.wf_canRx {s : State} (h : s.Inv) : s.img.canRx.wf = true := h.canRx
@[simp] theorem State.Inv.wf_frozen {s : State} (h : s.Inv) : s.img.frozen.wf = true := h.frozen
@[simp] theorem State.Inv.wf_nv {s : State} (h : s.Inv) : s.nv.mem.wf = true := h.nv
@[simp] theorem State.Inv.wf_words {s : State} (h : s.Inv) : s.pair.words.wf = true := h.words
@[simp] theorem State.Inv.wf_table {s : State} (h : s.Inv) : s.host.msixTable.wf = true := h.table
@[simp] theorem State.Inv.ok_rooms {s : State} (h : s.Inv) : RoomsOk s.rooms := fun r => ⟨h.snap r, h.zero r⟩
@[simp] theorem State.Inv.ok_room {s : State} (h : s.Inv) (r : RoomId) : s.rooms[r].Ok := ⟨h.snap r, h.zero r⟩
@[simp] theorem Room.Ok.wf_snap {v : Room} (h : v.Ok) : v.snap.wf = true := h.1
@[simp] theorem Room.Ok.zero {v : Room} (h : v.Ok) : v.g[0] = 0 := h.2
@[simp] theorem RoomsOk.room_nat {rs : Vector Room 100} (h : RoomsOk rs) (i : Nat) (hi : i < 100) : rs[i].Ok := h ⟨i, hi⟩
@[simp] theorem State.Inv.ok_room_nat {s : State} (h : s.Inv) (i : Nat) (hi : i < 100) : s.rooms[i].Ok := h.ok_rooms ⟨i, hi⟩
@[simp] theorem RoomsOk.room {rs : Vector Room 100} (h : RoomsOk rs) (r : RoomId) : rs[r].Ok := h r
@[simp] theorem Room.ok_init : Room.init.Ok := ⟨rfl, rfl⟩
@[simp] theorem Image.ok_init : Image.init.Ok := ⟨rfl, rfl, rfl, rfl⟩

@[simp] theorem Pair.wf_init : Pair.init.words.wf = true := rfl
@[simp] theorem HostIf.wf_init : HostIf.init.msixTable.wf = true := rfl
@[simp] theorem Nv.wf_init : Nv.init.mem.wf = true := rfl

/-! ### Rooms -/

@[simp] theorem RoomsOk.replaced {rs : Vector Room 100} {r : RoomId} {f : Room → Room} (h : RoomsOk rs) (hf : (f rs[r]).Ok) :
    RoomsOk (upd rs r f) := by
  intro q
  simp only [upd, Fin.getElem_fin, Vector.getElem_set]
  split
  · exact hf
  · exact h q

@[simp] theorem RoomsOk.map {rs : Vector Room 100} {f : Room → Room} (h : RoomsOk rs) (hf : ∀ v : Room, v.Ok → (f v).Ok) :
    RoomsOk (rs.map f) := by
  intro q
  simpa using hf _ (h q)

@[simp] theorem RoomsOk.mapFinIdx {rs : Vector Room 100} {f : (i : Nat) → Room → (h : i < 100) → Room} (h : RoomsOk rs)
    (hf : ∀ i (v : Room) h, v.Ok → (f i v h).Ok) : RoomsOk (rs.mapFinIdx f) := by
  intro q
  simpa using hf _ _ _ (h q)

@[simp] theorem RoomsOk.replicate {v : Room} (h : v.Ok) : RoomsOk (Vector.replicate 100 v) := by
  intro q
  simpa using h

@[simp] theorem State.updRoom_inv {s : State} {r : RoomId} {f : Room → Room} (h : s.Inv) (hf : (f s.rooms[r]).Ok) :
    (s.updRoom r f).Inv := by
  unfold State.updRoom
  simp only [State.inv_mk]
  exact ⟨h.dmem, h.ok_img, h.nv, h.words, h.table, RoomsOk.replaced h.ok_rooms hf⟩

@[simp] theorem State.mapRooms_inv {s : State} {f : Room → Room} (h : s.Inv) (hf : ∀ v : Room, v.Ok → (f v).Ok) : (s.mapRooms f).Inv := by
  unfold State.mapRooms
  simp only [State.inv_mk]
  exact ⟨h.dmem, h.ok_img, h.nv, h.words, h.table, RoomsOk.map h.ok_rooms hf⟩

/-! ### Branches and folds -/

@[simp] theorem fixed_ite (c : Prop) [Decidable c] (a b : State) : (if c then a else b).fixed = if c then a.fixed else b.fixed := by
  split <;> rfl
@[simp] theorem inv_ite (c : Prop) [Decidable c] (a b : State) : (if c then a else b).Inv ↔ (c → a.Inv) ∧ (¬c → b.Inv) := by
  split <;> simp [*]
@[simp] theorem ok_ite (c : Prop) [Decidable c] (a b : Room) : (if c then a else b).Ok ↔ (c → a.Ok) ∧ (¬c → b.Ok) := by
  split <;> simp [*]
@[simp] theorem wf_ite (c : Prop) [Decidable c] (a b : Mem) :
    (if c then a else b).wf = true ↔ (c → a.wf = true) ∧ (¬c → b.wf = true) := by
  split <;> simp [*]

@[simp] theorem outFixed_ite (c : Prop) [Decidable c] (s : State) (a b : Host.Outcome State Fault Refusal) :
    OutFixed s (if c then a else b) ↔ (c → OutFixed s a) ∧ (¬c → OutFixed s b) := by
  split <;> simp [*]
@[simp] theorem outInv_ite (c : Prop) [Decidable c] (a b : Host.Outcome State Fault Refusal) :
    OutInv (if c then a else b) ↔ (c → OutInv a) ∧ (¬c → OutInv b) := by
  split <;> simp [*]
@[simp] theorem fuses_ite (c : Prop) [Decidable c] (a b : Sec) : (if c then a else b).fuses = if c then a.fuses else b.fuses := by
  split <;> rfl

@[simp] theorem foldl_fixed {α : Type} (f : State → α → State) (l : List α) (s : State) (h : ∀ s a, (f s a).fixed = s.fixed) :
    (l.foldl f s).fixed = s.fixed := by
  induction l generalizing s with
  | nil => rfl
  | cons a r ih => rw [List.foldl_cons, ih, h]

@[simp] theorem foldl_inv {α : Type} (f : State → α → State) (l : List α) (s : State) (hs : s.Inv)
    (h : ∀ s a, s.Inv → (f s a).Inv) : (l.foldl f s).Inv := by
  induction l generalizing s with
  | nil => exact hs
  | cons a r ih => exact ih _ (h _ _ hs)

@[simp] theorem foldl_ok {α : Type} (f : Room → α → Room) (l : List α) (v : Room) (hv : v.Ok) (h : ∀ v a, v.Ok → (f v a).Ok) :
    (l.foldl f v).Ok := by
  induction l generalizing v with
  | nil => exact hv
  | cons a r ih => exact ih _ (h _ _ hv)

@[simp] theorem foldl_wf {α : Type} (f : Mem → α → Mem) (l : List α) (m : Mem) (hm : m.wf = true)
    (h : ∀ m a, m.wf = true → (f m a).wf = true) : (l.foldl f m).wf = true := by
  induction l generalizing m with
  | nil => exact hm
  | cons a r ih => exact ih _ (h _ _ hm)

end Sys2Proof.Machine
end

