-- ==== Sys2Proof/Laws/KeepOps.lean ====
section
/-! SUPPORT. What the operations of Ops.lean keep: the invariant, the queue and the fuses. -/

namespace Sys2Proof.Machine

@[simp] theorem State.at_fixed (s : State) (t : Nat) : (State.at s t).fixed = s.fixed := by
  unfold State.at; simp
@[simp] theorem State.at_inv (s : State) (t : Nat) (h : s.Inv) : (State.at s t).Inv := by
  unfold State.at; simp (maxDischargeDepth := 99) +contextual [h]
@[simp] theorem State.updRoom_fixed (s : State) (r : RoomId) (f : Room → Room) : (State.updRoom s r f).fixed = s.fixed := by
  unfold State.updRoom; simp
@[simp] theorem State.updChan_fixed (s : State) (c : ChanId) (f : Chan → Chan) : (State.updChan s c f).fixed = s.fixed := by
  unfold State.updChan; simp
@[simp] theorem State.updChan_inv (s : State) (c : ChanId) (f : Chan → Chan) (h : s.Inv) : (State.updChan s c f).Inv := by
  unfold State.updChan; simp (maxDischargeDepth := 99) +contextual [h]
@[simp] theorem State.updGrp_fixed (s : State) (g : GrpId) (f : Group → Group) : (State.updGrp s g f).fixed = s.fixed := by
  unfold State.updGrp; simp
@[simp] theorem State.updGrp_inv (s : State) (g : GrpId) (f : Group → Group) (h : s.Inv) : (State.updGrp s g f).Inv := by
  unfold State.updGrp; simp (maxDischargeDepth := 99) +contextual [h]
@[simp] theorem State.updCan_fixed (s : State) (k : PortId) (f : Can → Can) : (State.updCan s k f).fixed = s.fixed := by
  unfold State.updCan; simp
@[simp] theorem State.updCan_inv (s : State) (k : PortId) (f : Can → Can) (h : s.Inv) : (State.updCan s k f).Inv := by
  unfold State.updCan; simp (maxDischargeDepth := 99) +contextual [h]
@[simp] theorem State.mapRooms_fixed (s : State) (f : Room → Room) : (State.mapRooms s f).fixed = s.fixed := by
  unfold State.mapRooms; simp
@[simp] theorem State.mapChans_fixed (s : State) (f : Chan → Chan) : (State.mapChans s f).fixed = s.fixed := by
  unfold State.mapChans; simp
@[simp] theorem State.mapChans_inv (s : State) (f : Chan → Chan) (h : s.Inv) : (State.mapChans s f).Inv := by
  unfold State.mapChans; simp (maxDischargeDepth := 99) +contextual [h]
@[simp] theorem State.mapGroups_fixed (s : State) (f : Group → Group) : (State.mapGroups s f).fixed = s.fixed := by
  unfold State.mapGroups; simp
@[simp] theorem State.mapGroups_inv (s : State) (f : Group → Group) (h : s.Inv) : (State.mapGroups s f).Inv := by
  unfold State.mapGroups; simp (maxDischargeDepth := 99) +contextual [h]
@[simp] theorem State.mapCans_fixed (s : State) (f : Can → Can) : (State.mapCans s f).fixed = s.fixed := by
  unfold State.mapCans; simp
@[simp] theorem State.mapCans_inv (s : State) (f : Can → Can) (h : s.Inv) : (State.mapCans s f).Inv := by
  unfold State.mapCans; simp (maxDischargeDepth := 99) +contextual [h]
@[simp] theorem State.emit_fixed (s : State) (o : Out) : (State.emit s o).fixed = s.fixed := by
  unfold State.emit; simp
@[simp] theorem State.emit_inv (s : State) (o : Out) (h : s.Inv) : (State.emit s o).Inv := by
  unfold State.emit; simp (maxDischargeDepth := 99) +contextual [h]
@[simp] theorem State.mark_fixed (s : State) (off bits : Nat) : (State.mark s off bits).fixed = s.fixed := by
  unfold State.mark; simp
@[simp] theorem State.mark_inv (s : State) (off bits : Nat) (h : s.Inv) : (State.mark s off bits).Inv := by
  unfold State.mark; simp (maxDischargeDepth := 99) +contextual [h]
@[simp] theorem State.request_fixed (s : State) (o : Out) : (State.request s o).fixed = s.fixed := by
  unfold State.request; simp
@[simp] theorem State.request_inv (s : State) (o : Out) (h : s.Inv) : (State.request s o).Inv := by
  unfold State.request; simp (maxDischargeDepth := 99) +contextual [h]
@[simp] theorem State.setUpRoom_fixed (s : State) (c : Conf) (i : Nat) : (State.setUpRoom s c i).fixed = s.fixed := by
  unfold State.setUpRoom; (try dsimp only); (repeat' split) <;> simp
@[simp] theorem State.setUpRoom_inv (s : State) (c : Conf) (i : Nat) (h : s.Inv) : (State.setUpRoom s c i).Inv := by
  unfold State.setUpRoom; (try dsimp only); (repeat' split) <;> simp (maxDischargeDepth := 99) +contextual [h]
@[simp] theorem State.setUpRooms_fixed (s : State) (c : Conf) : (State.setUpRooms s c).fixed = s.fixed := by
  unfold State.setUpRooms; simp
@[simp] theorem State.setUpRooms_inv (s : State) (c : Conf) (h : s.Inv) : (State.setUpRooms s c).Inv := by
  unfold State.setUpRooms; simp (maxDischargeDepth := 99) +contextual [h]

/-- Reading a free value. -/
@[simp] theorem State.free_fixed (s : State) : s.free.2.fixed = s.fixed := rfl
@[simp] theorem State.free_inv (s : State) (h : s.Inv) : s.free.2.Inv := by
  unfold State.free; simp (maxDischargeDepth := 99) +contextual [h]

end Sys2Proof.Machine
end

