-- ==== Sys2Proof/Laws/KeepNvOps.lean ====
section
/-! SUPPORT. What the operations of NvOps.lean keep: the invariant, the queue and the fuses. -/

namespace Sys2Proof.Machine

@[simp] theorem Nv.enqueue_mem (n : Nv) (cls : Nat) (pages : List (Nat × List Byte)) (done : NvDone) : (Nv.enqueue n cls pages done).mem = n.mem := by
  unfold Nv.enqueue; simp
@[simp] theorem Nv.start_mem (n : Nv) : (Nv.start n).mem = n.mem := by
  unfold Nv.start; (repeat' split) <;> simp_all
@[simp] theorem State.nvWrite_fixed (s : State) (cls : Nat) (pages : List (Nat × List Byte)) (done : NvDone) : (State.nvWrite s cls pages done).fixed = s.fixed := by
  unfold State.nvWrite; simp
@[simp] theorem State.nvWrite_inv (s : State) (cls : Nat) (pages : List (Nat × List Byte)) (done : NvDone) (h : s.Inv) : (State.nvWrite s cls pages done).Inv := by
  unfold State.nvWrite; simp (maxDischargeDepth := 99) +contextual [h]
@[simp] theorem State.recWrite_fixed (s : State) (cls rec : Nat) (data : List Byte) (done : Nat → NvDone) : (State.recWrite s cls rec data done).fixed = s.fixed := by
  unfold State.recWrite; simp
@[simp] theorem State.recWrite_inv (s : State) (cls rec : Nat) (data : List Byte) (done : Nat → NvDone) (h : s.Inv) : (State.recWrite s cls rec data done).Inv := by
  unfold State.recWrite; simp (maxDischargeDepth := 99) +contextual [h]
@[simp] theorem State.countUp_fixed (s : State) (cls base : Nat) : (State.countUp s cls base).fixed = s.fixed := by
  unfold State.countUp; simp
@[simp] theorem State.countUp_inv (s : State) (cls base : Nat) (h : s.Inv) : (State.countUp s cls base).Inv := by
  unfold State.countUp; simp (maxDischargeDepth := 99) +contextual [h]

end Sys2Proof.Machine
end

