-- ==== Sys2Proof/Laws/KeepEvents.lean ====
section
/-! SUPPORT. What the operations of Events.lean keep: the invariant, the queue and the fuses. -/

namespace Sys2Proof.Machine

@[simp] theorem State.msix_fixed (s : State) (v : Fin 16) : (State.msix s v).fixed = s.fixed := by
  unfold State.msix; simp
@[simp] theorem State.msix_inv (s : State) (v : Fin 16) (h : s.Inv) : (State.msix s v).Inv := by
  unfold State.msix; simp (maxDischargeDepth := 99) +contextual [h]
@[simp] theorem State.raiseLater_fixed (s : State) (v : Fin 16) : (State.raiseLater s v).fixed = s.fixed := by
  unfold State.raiseLater; simp
@[simp] theorem State.raiseLater_inv (s : State) (v : Fin 16) (h : s.Inv) : (State.raiseLater s v).Inv := by
  unfold State.raiseLater; simp (maxDischargeDepth := 99) +contextual [h]
@[simp] theorem State.raiseNow_fixed (s : State) (v : Fin 16) : (State.raiseNow s v).fixed = s.fixed := by
  unfold State.raiseNow; simp
@[simp] theorem State.raiseNow_inv (s : State) (v : Fin 16) (h : s.Inv) : (State.raiseNow s v).Inv := by
  unfold State.raiseNow; simp (maxDischargeDepth := 99) +contextual [h]
@[simp] theorem State.gbEvent_fixed (s : State) (typ src : Nat) (sev : BitVec 2) (words : List Word) : (State.gbEvent s typ src sev words).fixed = s.fixed := by
  unfold State.gbEvent; (try dsimp only); (repeat' split) <;> simp
@[simp] theorem State.gbEvent_inv (s : State) (typ src : Nat) (sev : BitVec 2) (words : List Word) (h : s.Inv) : (State.gbEvent s typ src sev words).Inv := by
  unfold State.gbEvent; (try dsimp only); (repeat' split) <;> simp (maxDischargeDepth := 99) +contextual [h]
@[simp] theorem State.channelEvent_fixed (s : State) (typ src : Nat) (sev : BitVec 2) (offs : List Nat) : (State.channelEvent s typ src sev offs).fixed = s.fixed := by
  unfold State.channelEvent; simp
@[simp] theorem State.channelEvent_inv (s : State) (typ src : Nat) (sev : BitVec 2) (offs : List Nat) (h : s.Inv) : (State.channelEvent s typ src sev offs).Inv := by
  unfold State.channelEvent; simp (maxDischargeDepth := 99) +contextual [h]
@[simp] theorem State.flushLate_fixed (s : State) (relief : Bool) : (State.flushLate s relief).fixed = s.fixed := by
  unfold State.flushLate; simp
@[simp] theorem State.flushLate_inv (s : State) (relief : Bool) (h : s.Inv) : (State.flushLate s relief).Inv := by
  unfold State.flushLate; simp (maxDischargeDepth := 99) +contextual [h]
@[simp] theorem State.clockEvent_fixed (s : State) (typ : Nat) (sev : BitVec 2) (off : Nat) : (State.clockEvent s typ sev off).fixed = s.fixed := by
  unfold State.clockEvent; simp
@[simp] theorem State.clockEvent_inv (s : State) (typ : Nat) (sev : BitVec 2) (off : Nat) (h : s.Inv) : (State.clockEvent s typ sev off).Inv := by
  unfold State.clockEvent; simp (maxDischargeDepth := 99) +contextual [h]
@[simp] theorem State.flushOwed_fixed (s : State) : (State.flushOwed s).fixed = s.fixed := by
  unfold State.flushOwed; simp
@[simp] theorem State.flushOwed_inv (s : State) (h : s.Inv) : (State.flushOwed s).Inv := by
  unfold State.flushOwed; simp (maxDischargeDepth := 99) +contextual [h]
@[simp] theorem State.writeCompletion_fixed (s : State) (q : RingId) (c : Completion) : (State.writeCompletion s q c).fixed = s.fixed := by
  unfold State.writeCompletion; simp
@[simp] theorem State.writeCompletion_inv (s : State) (q : RingId) (c : Completion) (h : s.Inv) : (State.writeCompletion s q c).Inv := by
  unfold State.writeCompletion; simp (maxDischargeDepth := 99) +contextual [h]
@[simp] theorem State.complete_fixed (s : State) (ref : CmdRef) (status : BitVec 16) (result : List Byte) : (State.complete s ref status result).fixed = s.fixed := by
  unfold State.complete; simp
@[simp] theorem State.complete_inv (s : State) (ref : CmdRef) (status : BitVec 16) (result : List Byte) (h : s.Inv) : (State.complete s ref status result).Inv := by
  unfold State.complete; simp (maxDischargeDepth := 99) +contextual [h]
@[simp] theorem State.completeOpt_fixed (s : State) (ref : Option CmdRef) (status : BitVec 16) (result : List Byte) : (State.completeOpt s ref status result).fixed = s.fixed := by
  unfold State.completeOpt; (repeat' split) <;> simp_all
@[simp] theorem State.completeOpt_inv (s : State) (ref : Option CmdRef) (status : BitVec 16) (result : List Byte) (h : s.Inv) : (State.completeOpt s ref status result).Inv := by
  unfold State.completeOpt; (repeat' split) <;> simp_all
@[simp] theorem State.completeAll_fixed (s : State) (refs : List CmdRef) (status : BitVec 16) (result : List Byte) : (State.completeAll s refs status result).fixed = s.fixed := by
  unfold State.completeAll; simp
@[simp] theorem State.completeAll_inv (s : State) (refs : List CmdRef) (status : BitVec 16) (result : List Byte) (h : s.Inv) : (State.completeAll s refs status result).Inv := by
  unfold State.completeAll; simp (maxDischargeDepth := 99) +contextual [h]
@[simp] theorem State.pushBook_fixed (s : State) (bytes : List Byte) : (State.pushBook s bytes).fixed = s.fixed := by
  unfold State.pushBook; simp
@[simp] theorem State.pushBook_inv (s : State) (bytes : List Byte) (h : s.Inv) : (State.pushBook s bytes).Inv := by
  unfold State.pushBook; simp (maxDischargeDepth := 99) +contextual [h]
@[simp] theorem State.begin_fixed (s : State) (ref : CmdRef) : (State.begin s ref).fixed = s.fixed := by
  unfold State.begin; simp
@[simp] theorem State.begin_inv (s : State) (ref : CmdRef) (h : s.Inv) : (State.begin s ref).Inv := by
  unfold State.begin; simp (maxDischargeDepth := 99) +contextual [h]
/-- A driver command leaves queue and fuses alone when its effect does. -/
@[simp] theorem State.command_fixed (s : State) (t : Nat) (c : RingId) (op : Nat) (e : CmdEntry) (checks : State → List Check)
    (act : CmdRef → State → State) (h : ∀ ref s, (act ref s).fixed = s.fixed) :
    (s.command t c op e checks act).fixed = s.fixed := by
  unfold State.command; dsimp only; (repeat' split) <;> simp [h]
/-- A driver command keeps the invariant when its effect does. -/
@[simp] theorem State.command_inv (s : State) (t : Nat) (c : RingId) (op : Nat) (e : CmdEntry) (checks : State → List Check)
    (act : CmdRef → State → State) (hs : s.Inv) (h : ∀ ref s, s.Inv → (act ref s).Inv) :
    (s.command t c op e checks act).Inv := by
  unfold State.command; dsimp only; (repeat' split) <;> simp (maxDischargeDepth := 99) [hs, h]

end Sys2Proof.Machine
end

