-- ==== Sys2Proof/Laws/KeepCanOps.lean ====
section
/-! SUPPORT. What the operations of CanOps.lean keep: the invariant, the queue and the fuses. -/

namespace Sys2Proof.Machine

@[simp] theorem State.canEvent_fixed (s : State) (k : PortId) (b : Nat) : (State.canEvent s k b).fixed = s.fixed := by
  unfold State.canEvent; simp
@[simp] theorem State.canEvent_inv (s : State) (k : PortId) (b : Nat) (h : s.Inv) : (State.canEvent s k b).Inv := by
  unfold State.canEvent; simp (maxDischargeDepth := 99) +contextual [h]
@[simp] theorem State.canRecord_fixed (s : State) (k : PortId) (typ : Nat) (sev : BitVec 2) (words : List Word) : (State.canRecord s k typ sev words).fixed = s.fixed := by
  unfold State.canRecord; simp
@[simp] theorem State.canRecord_inv (s : State) (k : PortId) (typ : Nat) (sev : BitVec 2) (words : List Word) (h : s.Inv) : (State.canRecord s k typ sev words).Inv := by
  unfold State.canRecord; simp (maxDischargeDepth := 99) +contextual [h]
@[simp] theorem State.canWithdraw_fixed (s : State) (k : PortId) (entry : Nat) : (State.canWithdraw s k entry).fixed = s.fixed := by
  unfold State.canWithdraw; simp
@[simp] theorem State.canWithdraw_inv (s : State) (k : PortId) (entry : Nat) (h : s.Inv) : (State.canWithdraw s k entry).Inv := by
  unfold State.canWithdraw; simp (maxDischargeDepth := 99) +contextual [h]
@[simp] theorem State.canDrain_fixed (s : State) (k : PortId) : (State.canDrain s k).fixed = s.fixed := by
  unfold State.canDrain; simp
@[simp] theorem State.canDrain_inv (s : State) (k : PortId) (h : s.Inv) : (State.canDrain s k).Inv := by
  unfold State.canDrain; simp (maxDischargeDepth := 99) +contextual [h]
@[simp] theorem State.canDrainAll_fixed (s : State) (k : PortId) : (State.canDrainAll s k).fixed = s.fixed := by
  unfold State.canDrainAll; simp
@[simp] theorem State.canDrainAll_inv (s : State) (k : PortId) (h : s.Inv) : (State.canDrainAll s k).Inv := by
  unfold State.canDrainAll; simp (maxDischargeDepth := 99) +contextual [h]
@[simp] theorem State.canSilence_fixed (s : State) : (State.canSilence s).fixed = s.fixed := by
  unfold State.canSilence; simp
@[simp] theorem State.canSilence_inv (s : State) (h : s.Inv) : (State.canSilence s).Inv := by
  unfold State.canSilence; simp (maxDischargeDepth := 99) +contextual [h]
@[simp] theorem State.canRefresh_fixed (s : State) (k : PortId) : (State.canRefresh s k).fixed = s.fixed := by
  unfold State.canRefresh; simp
@[simp] theorem State.canRefresh_inv (s : State) (k : PortId) (h : s.Inv) : (State.canRefresh s k).Inv := by
  unfold State.canRefresh; simp (maxDischargeDepth := 99) +contextual [h]
@[simp] theorem State.canRefreshAll_fixed (s : State) : (State.canRefreshAll s).fixed = s.fixed := by
  unfold State.canRefreshAll; simp
@[simp] theorem State.canRefreshAll_inv (s : State) (h : s.Inv) : (State.canRefreshAll s).Inv := by
  unfold State.canRefreshAll; simp (maxDischargeDepth := 99) +contextual [h]
@[simp] theorem State.detLock_fixed (s : State) (k : PortId) (d : Nat) : (State.detLock s k d).fixed = s.fixed := by
  unfold State.detLock; simp
@[simp] theorem State.detLock_inv (s : State) (k : PortId) (d : Nat) (h : s.Inv) : (State.detLock s k d).Inv := by
  unfold State.detLock; simp (maxDischargeDepth := 99) +contextual [h]
@[simp] theorem State.detFailed_fixed (s : State) (k : PortId) : (State.detFailed s k).fixed = s.fixed := by
  unfold State.detFailed; simp
@[simp] theorem State.detFailed_inv (s : State) (k : PortId) (h : s.Inv) : (State.detFailed s k).Inv := by
  unfold State.detFailed; simp (maxDischargeDepth := 99) +contextual [h]
@[simp] theorem State.canConfigure_fixed (s : State) (w : Option Way) (k : PortId) : (State.canConfigure s w k).fixed = s.fixed := by
  unfold State.canConfigure; simp
@[simp] theorem State.canConfigure_inv (s : State) (w : Option Way) (k : PortId) (h : s.Inv) : (State.canConfigure s w k).Inv := by
  unfold State.canConfigure; simp (maxDischargeDepth := 99) +contextual [h]
@[simp] theorem State.canCycleStart_fixed (s : State) (w : Way) (k : PortId) (n : Nat) : (State.canCycleStart s w k n).fixed = s.fixed := by
  unfold State.canCycleStart; simp
@[simp] theorem State.canCycleStart_inv (s : State) (w : Way) (k : PortId) (n : Nat) (h : s.Inv) : (State.canCycleStart s w k n).Inv := by
  unfold State.canCycleStart; simp (maxDischargeDepth := 99) +contextual [h]
@[simp] theorem State.canClose_fixed (s : State) (n : Nat) : (State.canClose s n).fixed = s.fixed := by
  unfold State.canClose; simp
@[simp] theorem State.canClose_inv (s : State) (n : Nat) (h : s.Inv) : (State.canClose s n).Inv := by
  unfold State.canClose; simp (maxDischargeDepth := 99) +contextual [h]
@[simp] theorem State.canTick_fixed (s : State) (n : Nat) : (State.canTick s n).fixed = s.fixed := by
  unfold State.canTick; (try dsimp only); (repeat' split) <;> first
    | (simp; done)
    | (apply foldl_fixed; intro _ _; (try dsimp only); (repeat' split) <;> simp)
@[simp] theorem State.canTick_inv (s : State) (n : Nat) (h : s.Inv) : (State.canTick s n).Inv := by
  unfold State.canTick; (try dsimp only); (repeat' split) <;> first
    | (simp (maxDischargeDepth := 99) +contextual [h]; done)
    | (refine foldl_inv _ _ _ (by simp (maxDischargeDepth := 99) +contextual [h]) ?_; intro _ _ h; (try dsimp only); (repeat' split) <;> simp (maxDischargeDepth := 99) +contextual [h])
@[simp] theorem State.canStop_fixed (s : State) : (State.canStop s).fixed = s.fixed := by
  unfold State.canStop; simp
@[simp] theorem State.canStop_inv (s : State) (h : s.Inv) : (State.canStop s).Inv := by
  unfold State.canStop; simp (maxDischargeDepth := 99) +contextual [h]
@[simp] theorem State.canTakeover_fixed (s : State) (from' : Nat) : (State.canTakeover s from').fixed = s.fixed := by
  unfold State.canTakeover; (try dsimp only); (repeat' split) <;> first
    | (simp; done)
    | (apply foldl_fixed; intro _ _; (try dsimp only); (repeat' split) <;> simp)
@[simp] theorem State.canTakeover_inv (s : State) (from' : Nat) (h : s.Inv) : (State.canTakeover s from').Inv := by
  unfold State.canTakeover; (try dsimp only); (repeat' split) <;> first
    | (simp (maxDischargeDepth := 99) +contextual [h]; done)
    | (refine foldl_inv _ _ _ (by simp (maxDischargeDepth := 99) +contextual [h]) ?_; intro _ _ h; (try dsimp only); (repeat' split) <;> simp (maxDischargeDepth := 99) +contextual [h])

end Sys2Proof.Machine
end

