-- ==== Sys2Proof/Laws/KeepCan.lean ====
section
/-! SUPPORT. What the operations of Can.lean keep: the invariant, the queue and the fuses. -/

namespace Sys2Proof.Machine

@[simp] theorem State.canMap_fixed (s : State) (k : PortId) (x : CanFrame) (f : Nat × CanFilter) : (State.canMap s k x f).fixed = s.fixed := by
  unfold State.canMap; simp
@[simp] theorem State.canMap_inv (s : State) (k : PortId) (x : CanFrame) (f : Nat × CanFilter) (h : s.Inv) : (State.canMap s k x f).Inv := by
  unfold State.canMap; simp (maxDischargeDepth := 99) +contextual [h]
theorem execCanFrameReceived_fixed (t : Nat) (k : PortId) (frame : CanFrame) (s : State) : OutFixed s (execCanFrameReceived t k frame s) := by
  unfold execCanFrameReceived; (try dsimp only); (repeat' split) <;> simp
theorem execCanFrameReceived_inv (t : Nat) (k : PortId) (frame : CanFrame) (s : State) (h : s.Inv) : OutInv (execCanFrameReceived t k frame s) := by
  unfold execCanFrameReceived; (try dsimp only); (repeat' split) <;> simp (maxDischargeDepth := 99) +contextual [h]
theorem execCanWindowOpen_fixed (t : Nat) (k : PortId) (entry : Nat) (s : State) : OutFixed s (execCanWindowOpen t k entry s) := by
  unfold execCanWindowOpen; (try dsimp only); (repeat' split) <;> simp
theorem execCanWindowOpen_inv (t : Nat) (k : PortId) (entry : Nat) (s : State) (h : s.Inv) : OutInv (execCanWindowOpen t k entry s) := by
  unfold execCanWindowOpen; (try dsimp only); (repeat' split) <;> simp (maxDischargeDepth := 99) +contextual [h]
theorem execCanTxAttempt_fixed (t : Nat) (k : PortId) (tdelay : Byte) (s : State) : OutFixed s (execCanTxAttempt t k tdelay s) := by
  unfold execCanTxAttempt; (try dsimp only); (repeat' split) <;> simp
theorem execCanTxAttempt_inv (t : Nat) (k : PortId) (tdelay : Byte) (s : State) (h : s.Inv) : OutInv (execCanTxAttempt t k tdelay s) := by
  unfold execCanTxAttempt; (try dsimp only); (repeat' split) <;> simp (maxDischargeDepth := 99) +contextual [h]
theorem execCanTxComplete_fixed (t : Nat) (k : PortId) (result : TxResult) (s : State) : OutFixed s (execCanTxComplete t k result s) := by
  unfold execCanTxComplete; (try dsimp only); (repeat' split) <;> simp
theorem execCanTxComplete_inv (t : Nat) (k : PortId) (result : TxResult) (s : State) (h : s.Inv) : OutInv (execCanTxComplete t k result s) := by
  unfold execCanTxComplete; (try dsimp only); (repeat' split) <;> simp (maxDischargeDepth := 99) +contextual [h]
theorem execCanFrameWithdraw_fixed (t : Nat) (k : PortId) (entry : Nat) (s : State) : OutFixed s (execCanFrameWithdraw t k entry s) := by
  unfold execCanFrameWithdraw; (repeat' split) <;> simp_all
theorem execCanFrameWithdraw_inv (t : Nat) (k : PortId) (entry : Nat) (s : State) (h : s.Inv) : OutInv (execCanFrameWithdraw t k entry s) := by
  unfold execCanFrameWithdraw; (repeat' split) <;> simp_all
@[simp] theorem State.canBusOff_fixed (s : State) (k : PortId) : (State.canBusOff s k).fixed = s.fixed := by
  unfold State.canBusOff; simp
@[simp] theorem State.canBusOff_inv (s : State) (k : PortId) (h : s.Inv) : (State.canBusOff s k).Inv := by
  unfold State.canBusOff; simp (maxDischargeDepth := 99) +contextual [h]
theorem execCanError_fixed (t : Nat) (k : PortId) (err : CanErr) (s : State) : OutFixed s (execCanError t k err s) := by
  unfold execCanError; (try dsimp only); (repeat' split) <;> simp
theorem execCanError_inv (t : Nat) (k : PortId) (err : CanErr) (s : State) (h : s.Inv) : OutInv (execCanError t k err s) := by
  unfold execCanError; (try dsimp only); (repeat' split) <;> simp (maxDischargeDepth := 99) +contextual [h]
theorem execCanRecoveryComplete_fixed (t : Nat) (k : PortId) (s : State) : OutFixed s (execCanRecoveryComplete t k s) := by
  unfold execCanRecoveryComplete; (try dsimp only); (repeat' split) <;> simp
theorem execCanRecoveryComplete_inv (t : Nat) (k : PortId) (s : State) (h : s.Inv) : OutInv (execCanRecoveryComplete t k s) := by
  unfold execCanRecoveryComplete; (try dsimp only); (repeat' split) <;> simp (maxDischargeDepth := 99) +contextual [h]
theorem execCanRecover_fixed (t : Nat) (k : PortId) (s : State) : OutFixed s (execCanRecover t k s) := by
  unfold execCanRecover; simp
theorem execCanRecover_inv (t : Nat) (k : PortId) (s : State) (h : s.Inv) : OutInv (execCanRecover t k s) := by
  unfold execCanRecover; simp (maxDischargeDepth := 99) +contextual [h]
theorem execCanVplusLost_fixed (t : Nat) (k : PortId) (s : State) : OutFixed s (execCanVplusLost t k s) := by
  unfold execCanVplusLost; (try dsimp only); (repeat' split) <;> simp
theorem execCanVplusLost_inv (t : Nat) (k : PortId) (s : State) (h : s.Inv) : OutInv (execCanVplusLost t k s) := by
  unfold execCanVplusLost; (try dsimp only); (repeat' split) <;> simp (maxDischargeDepth := 99) +contextual [h]
@[simp] theorem State.applyTerm_fixed (s : State) (k : PortId) : (State.applyTerm s k).fixed = s.fixed := by
  unfold State.applyTerm; simp
@[simp] theorem State.applyTerm_inv (s : State) (k : PortId) (h : s.Inv) : (State.applyTerm s k).Inv := by
  unfold State.applyTerm; simp (maxDischargeDepth := 99) +contextual [h]
theorem execCanVplusReturn_fixed (t : Nat) (k : PortId) (s : State) : OutFixed s (execCanVplusReturn t k s) := by
  unfold execCanVplusReturn; (try dsimp only); (repeat' split) <;> simp
theorem execCanVplusReturn_inv (t : Nat) (k : PortId) (s : State) (h : s.Inv) : OutInv (execCanVplusReturn t k s) := by
  unfold execCanVplusReturn; (try dsimp only); (repeat' split) <;> simp (maxDischargeDepth := 99) +contextual [h]
theorem execCanPortIntegrated_fixed (t : Nat) (k : PortId) (s : State) : OutFixed s (execCanPortIntegrated t k s) := by
  unfold execCanPortIntegrated; (try dsimp only); (repeat' split) <;> simp
theorem execCanPortIntegrated_inv (t : Nat) (k : PortId) (s : State) (h : s.Inv) : OutInv (execCanPortIntegrated t k s) := by
  unfold execCanPortIntegrated; (try dsimp only); (repeat' split) <;> simp (maxDischargeDepth := 99) +contextual [h]
theorem execCanTermWrite_fixed (t : Nat) (k : PortId) (on : Bool) (s : State) : OutFixed s (execCanTermWrite t k on s) := by
  unfold execCanTermWrite; (try dsimp only); (repeat' split) <;> simp
theorem execCanTermWrite_inv (t : Nat) (k : PortId) (on : Bool) (s : State) (h : s.Inv) : OutInv (execCanTermWrite t k on s) := by
  unfold execCanTermWrite; (try dsimp only); (repeat' split) <;> simp (maxDischargeDepth := 99) +contextual [h]
theorem execDominantTimeOut_fixed (t : Nat) (k : PortId) (s : State) : OutFixed s (execDominantTimeOut t k s) := by
  unfold execDominantTimeOut; simp
theorem execDominantTimeOut_inv (t : Nat) (k : PortId) (s : State) (h : s.Inv) : OutInv (execDominantTimeOut t k s) := by
  unfold execDominantTimeOut; simp (maxDischargeDepth := 99) +contextual [h]
theorem execRateDetectionDataTimeout_fixed (t : Nat) (k : PortId) (s : State) : OutFixed s (execRateDetectionDataTimeout t k s) := by
  unfold execRateDetectionDataTimeout; (try dsimp only); (repeat' split) <;> simp
theorem execRateDetectionDataTimeout_inv (t : Nat) (k : PortId) (s : State) (h : s.Inv) : OutInv (execRateDetectionDataTimeout t k s) := by
  unfold execRateDetectionDataTimeout; (try dsimp only); (repeat' split) <;> simp (maxDischargeDepth := 99) +contextual [h]
theorem execRateDetectionTimeout_fixed (t : Nat) (k : PortId) (s : State) : OutFixed s (execRateDetectionTimeout t k s) := by
  unfold execRateDetectionTimeout; (try dsimp only); (repeat' split) <;> simp
theorem execRateDetectionTimeout_inv (t : Nat) (k : PortId) (s : State) (h : s.Inv) : OutInv (execRateDetectionTimeout t k s) := by
  unfold execRateDetectionTimeout; (try dsimp only); (repeat' split) <;> simp (maxDischargeDepth := 99) +contextual [h]
theorem execCanDetStart_fixed (t : Nat) (k : PortId) (s : State) : OutFixed s (execCanDetStart t k s) := by
  unfold execCanDetStart; (try dsimp only); (repeat' split) <;> simp
theorem execCanDetStart_inv (t : Nat) (k : PortId) (s : State) (h : s.Inv) : OutInv (execCanDetStart t k s) := by
  unfold execCanDetStart; (try dsimp only); (repeat' split) <;> simp (maxDischargeDepth := 99) +contextual [h]
theorem execCanDetAbort_fixed (t : Nat) (k : PortId) (s : State) : OutFixed s (execCanDetAbort t k s) := by
  unfold execCanDetAbort; simp
theorem execCanDetAbort_inv (t : Nat) (k : PortId) (s : State) (h : s.Inv) : OutInv (execCanDetAbort t k s) := by
  unfold execCanDetAbort; simp (maxDischargeDepth := 99) +contextual [h]

end Sys2Proof.Machine
end

