-- ==== Sys2Proof/Laws/KeepFlags.lean ====
section
/-! SUPPORT. What the operations of Flags.lean keep: the invariant, the queue and the fuses. -/

namespace Sys2Proof.Machine

@[simp] theorem Room.setZN_ok (v : Room) (w : Word) (h : v.Ok) : (Room.setZN v w).Ok := by
  unfold Room.setZN; simp (maxDischargeDepth := 99) +contextual [h]
@[simp] theorem Room.flagsAdd_ok (v : Room) (a b : Word) (cin : Bool) (h : v.Ok) : (Room.flagsAdd v a b cin).Ok := by
  unfold Room.flagsAdd; simp (maxDischargeDepth := 99) +contextual [h]
@[simp] theorem Room.flagsSub_ok (v : Room) (a b : Word) (borrow : Bool) (h : v.Ok) : (Room.flagsSub v a b borrow).Ok := by
  unfold Room.flagsSub; simp (maxDischargeDepth := 99) +contextual [h]
@[simp] theorem Room.flagsShift_ok (v : Room) (w : Word) (n : Nat) (last : Bool) (h : v.Ok) : (Room.flagsShift v w n last).Ok := by
  unfold Room.flagsShift; simp (maxDischargeDepth := 99) +contextual [h]

end Sys2Proof.Machine
end

