-- ==== Sys2Proof/Laws/KeepOperands.lean ====
section
/-! SUPPORT. What the operations of Operands.lean keep: the invariant, the queue and the fuses. -/

namespace Sys2Proof.Machine

@[simp] theorem Room.put_ok (v : Room) (g : Reg) (w : Word) (h : v.Ok) : (Room.put v g w).Ok := by
  unfold Room.put
  split
  · exact h
  · rename_i hg
    refine ⟨h.1, ?_⟩
    have : g.val ≠ 0 := fun e => hg (Fin.ext e)
    simpa [upd, Vector.getElem_set, this] using h.2
@[simp] theorem State.reportOow_fixed (s : State) (r : RoomId) (pc : BitVec 20) (a : Nat) : (State.reportOow s r pc a).fixed = s.fixed := by
  unfold State.reportOow; simp
@[simp] theorem State.reportOow_inv (s : State) (r : RoomId) (pc : BitVec 20) (a : Nat) (h : s.Inv) : (State.reportOow s r pc a).Inv := by
  unfold State.reportOow; simp (maxDischargeDepth := 99) +contextual [h]
@[simp] theorem State.storeData_fixed (s : State) (r : RoomId) (a m : Nat) (bs : List Byte) : (State.storeData s r a m bs).fixed = s.fixed := by
  unfold State.storeData; simp
@[simp] theorem State.storeData_inv (s : State) (r : RoomId) (a m : Nat) (bs : List Byte) (h : s.Inv) : (State.storeData s r a m bs).Inv := by
  unfold State.storeData; simp (maxDischargeDepth := 99) +contextual [h]
@[simp] theorem State.laneStoreData_fixed (s : State) (cyc : Nat) (r : RoomId) (a m : Nat) (bs : List Byte) : (State.laneStoreData s cyc r a m bs).fixed = s.fixed := by
  unfold State.laneStoreData; simp
@[simp] theorem State.laneStoreData_inv (s : State) (cyc : Nat) (r : RoomId) (a m : Nat) (bs : List Byte) (h : s.Inv) : (State.laneStoreData s cyc r a m bs).Inv := by
  unfold State.laneStoreData; simp (maxDischargeDepth := 99) +contextual [h]
@[simp] theorem State.imageWrite_fixed (s : State) (cyc a : Nat) (bs : List Byte) : (State.imageWrite s cyc a bs).fixed = s.fixed := by
  unfold State.imageWrite; simp
@[simp] theorem State.imageWrite_inv (s : State) (cyc a : Nat) (bs : List Byte) (h : s.Inv) : (State.imageWrite s cyc a bs).Inv := by
  unfold State.imageWrite; simp (maxDischargeDepth := 99) +contextual [h]

end Sys2Proof.Machine
end

