-- ==== Sys2Proof/Laws/KeepLane.lean ====
section
/-! SUPPORT. What the operations of Lane.lean keep: the invariant, the queue and the fuses. -/

namespace Sys2Proof.Machine

@[simp] theorem Room.settle_ok (v : Room) (cyc : Nat) (h : v.Ok) : (Room.settle v cyc).Ok := by
  have h1 : ∀ f : LoadFlight, ({ v.put f.rd f.val with load := none } : Room).Ok := fun f => Room.put_ok v f.rd f.val h
  unfold Room.settle
  cases v.load with
  | none => exact foldl_ok _ _ _ (foldl_ok _ _ _ (foldl_ok _ _ v h (fun _ _ h => h)) (fun _ _ h => h)) (fun _ _ h => h)
  | some f =>
    dsimp only
    split
    · exact foldl_ok _ _ _ (foldl_ok _ _ _ (foldl_ok _ _ _ (h1 f) (fun _ _ h => h)) (fun _ _ h => h)) (fun _ _ h => h)
    · exact foldl_ok _ _ _ (foldl_ok _ _ _ (foldl_ok _ _ v h (fun _ _ h => h)) (fun _ _ h => h)) (fun _ _ h => h)
@[simp] theorem Room.landLoad_ok (v : Room) (h : v.Ok) : (Room.landLoad v).Ok := by
  unfold Room.landLoad; (try dsimp only); (repeat' split) <;> simp (maxDischargeDepth := 99) +contextual [h]
@[simp] theorem Room.issue_ok (v : Room) (early : Bool) (c : Nat) (h : v.Ok) : (Room.issue v early c).Ok := by
  unfold Room.issue; simp (maxDischargeDepth := 99) +contextual [h]
/-- A fetch leaves queue and fuses alone when the instruction's own effect does. -/
@[simp] theorem State.lane_fixed (s : State) (t : Nat) (r : RoomId) (early : Room → Bool) (act : Room → Nat → State → State)
    (h : ∀ v c s, (act v c s).fixed = s.fixed) : (s.lane t r early act).fixed = s.fixed := by
  unfold State.lane; (try dsimp only); split
  · rw [h]; simp
  · simp
/-- A fetch keeps the invariant when the instruction's own effect does. -/
@[simp] theorem State.lane_inv (s : State) (t : Nat) (r : RoomId) (early : Room → Bool) (act : Room → Nat → State → State)
    (hs : s.Inv) (h : ∀ v c s, v.Ok → s.Inv → (act v c s).Inv) : (s.lane t r early act).Inv := by
  unfold State.lane; (try dsimp only); split
  · apply h
    · simp (maxDischargeDepth := 99) [hs]
    · simp (maxDischargeDepth := 99) [hs]
  · simp [hs]
@[simp] theorem State.laneReg_fixed (s : State) (t : Nat) (r : RoomId) (rd : Reg) (reads : List Reg) (f : Room → Word) (g : Room → Room → Room) : (State.laneReg s t r rd reads f g).fixed = s.fixed := by
  unfold State.laneReg; simp
@[simp] theorem State.laneReg_inv (s : State) (t : Nat) (r : RoomId) (rd : Reg) (reads : List Reg) (f : Room → Word)
    (g : Room → Room → Room) (h : s.Inv) (hg : ∀ v w : Room, w.Ok → (g v w).Ok) : (s.laneReg t r rd reads f g).Inv := by
  unfold State.laneReg; refine State.lane_inv _ _ _ _ _ h ?_; intro _ _ _ hv h; simp (maxDischargeDepth := 99) [h, hg]
@[simp] theorem State.laneFlags_fixed (s : State) (t : Nat) (r : RoomId) (reads : List Reg) (g : Room → Room → Room) : (State.laneFlags s t r reads g).fixed = s.fixed := by
  unfold State.laneFlags; simp
@[simp] theorem State.laneFlags_inv (s : State) (t : Nat) (r : RoomId) (reads : List Reg) (g : Room → Room → Room) (h : s.Inv)
    (hg : ∀ v w : Room, w.Ok → (g v w).Ok) : (s.laneFlags t r reads g).Inv := by
  unfold State.laneFlags; refine State.lane_inv _ _ _ _ _ h ?_; intro _ _ _ hv h; simp (maxDischargeDepth := 99) [h, hg]
@[simp] theorem State.laneJump_fixed (s : State) (t : Nat) (r : RoomId) (reads : List Reg) (f : Room → BitVec 20) : (State.laneJump s t r reads f).fixed = s.fixed := by
  unfold State.laneJump; simp
@[simp] theorem State.laneJump_inv (s : State) (t : Nat) (r : RoomId) (reads : List Reg) (f : Room → BitVec 20) (h : s.Inv) : (State.laneJump s t r reads f).Inv := by
  unfold State.laneJump; simp (maxDischargeDepth := 99) +contextual [h]
@[simp] theorem State.laneLoad_fixed (s : State) (t : Nat) (r : RoomId) (rd ra : Reg) (off : BitVec 16) (sz : Size) (sg : Bool) : (State.laneLoad s t r rd ra off sz sg).fixed = s.fixed := by
  unfold State.laneLoad; (try simp only [outFixed_next]); apply State.lane_fixed; intro _ _ _; (try dsimp only); (repeat' split) <;> simp
@[simp] theorem State.laneLoad_inv (s : State) (t : Nat) (r : RoomId) (rd ra : Reg) (off : BitVec 16) (sz : Size) (sg : Bool) (h : s.Inv) : (State.laneLoad s t r rd ra off sz sg).Inv := by
  unfold State.laneLoad; (try simp only [outInv_next]); refine State.lane_inv _ _ _ _ _ h ?_; intro _ _ _ hv h; (try dsimp only); (repeat' split) <;> simp (maxDischargeDepth := 99) +contextual [h, hv]
@[simp] theorem State.laneStore_fixed (s : State) (t : Nat) (r : RoomId) (rd ra : Reg) (off : BitVec 16) (sz : Size) : (State.laneStore s t r rd ra off sz).fixed = s.fixed := by
  unfold State.laneStore; (try simp only [outFixed_next]); apply State.lane_fixed; intro _ _ _; (try dsimp only); (repeat' split) <;> simp
@[simp] theorem State.laneStore_inv (s : State) (t : Nat) (r : RoomId) (rd ra : Reg) (off : BitVec 16) (sz : Size) (h : s.Inv) : (State.laneStore s t r rd ra off sz).Inv := by
  unfold State.laneStore; (try simp only [outInv_next]); refine State.lane_inv _ _ _ _ _ h ?_; intro _ _ _ hv h; (try dsimp only); (repeat' split) <;> simp (maxDischargeDepth := 99) +contextual [h, hv]
@[simp] theorem State.laneImgLoad_fixed (s : State) (t : Nat) (r : RoomId) (rd ra : Reg) (off : BitVec 16) (sz : Size) (sg : Bool) : (State.laneImgLoad s t r rd ra off sz sg).fixed = s.fixed := by
  unfold State.laneImgLoad; simp
@[simp] theorem State.laneImgLoad_inv (s : State) (t : Nat) (r : RoomId) (rd ra : Reg) (off : BitVec 16) (sz : Size) (sg : Bool) (h : s.Inv) : (State.laneImgLoad s t r rd ra off sz sg).Inv := by
  unfold State.laneImgLoad; simp (maxDischargeDepth := 99) +contextual [h]
@[simp] theorem State.laneImgStore_fixed (s : State) (t : Nat) (r : RoomId) (rd ra : Reg) (off : BitVec 16) (sz : Size) : (State.laneImgStore s t r rd ra off sz).fixed = s.fixed := by
  unfold State.laneImgStore; simp
@[simp] theorem State.laneImgStore_inv (s : State) (t : Nat) (r : RoomId) (rd ra : Reg) (off : BitVec 16) (sz : Size) (h : s.Inv) : (State.laneImgStore s t r rd ra off sz).Inv := by
  unfold State.laneImgStore; simp (maxDischargeDepth := 99) +contextual [h]
@[simp] theorem State.storeBit_fixed (s : State) (cyc : Nat) (r : RoomId) (pc : BitVec 20) (a : Nat) (x : Bool) : (State.storeBit s cyc r pc a x).fixed = s.fixed := by
  unfold State.storeBit; simp
@[simp] theorem State.storeBit_inv (s : State) (cyc : Nat) (r : RoomId) (pc : BitVec 20) (a : Nat) (x : Bool) (h : s.Inv) : (State.storeBit s cyc r pc a x).Inv := by
  unfold State.storeBit; simp (maxDischargeDepth := 99) +contextual [h]
@[simp] theorem State.laneEdge_fixed (s : State) (t : Nat) (r : RoomId) (rd ra : Reg) (off : BitVec 16) (f : Nat → Nat → Nat) : (State.laneEdge s t r rd ra off f).fixed = s.fixed := by
  unfold State.laneEdge; (try simp only [outFixed_next]); apply State.lane_fixed; intro _ _ _; (try dsimp only); (repeat' split) <;> simp
@[simp] theorem State.laneEdge_inv (s : State) (t : Nat) (r : RoomId) (rd ra : Reg) (off : BitVec 16) (f : Nat → Nat → Nat) (h : s.Inv) : (State.laneEdge s t r rd ra off f).Inv := by
  unfold State.laneEdge; (try simp only [outInv_next]); refine State.lane_inv _ _ _ _ _ h ?_; intro _ _ _ hv h; (try dsimp only); (repeat' split) <;> simp (maxDischargeDepth := 99) +contextual [h, hv]
@[simp] theorem State.laneRecord_fixed (s : State) (t : Nat) (r : RoomId) (rd ra : Reg) (off : BitVec 16) (f : Room → List Byte → List Byte × Nat × Bool) : (State.laneRecord s t r rd ra off f).fixed = s.fixed := by
  unfold State.laneRecord; (try simp only [outFixed_next]); apply State.lane_fixed; intro _ _ _; (try dsimp only); (repeat' split) <;> simp
@[simp] theorem State.laneRecord_inv (s : State) (t : Nat) (r : RoomId) (rd ra : Reg) (off : BitVec 16) (f : Room → List Byte → List Byte × Nat × Bool) (h : s.Inv) : (State.laneRecord s t r rd ra off f).Inv := by
  unfold State.laneRecord; (try simp only [outInv_next]); refine State.lane_inv _ _ _ _ _ h ?_; intro _ _ _ hv h; (try dsimp only); (repeat' split) <;> simp (maxDischargeDepth := 99) +contextual [h, hv]
@[simp] theorem State.laneArith_fixed (s : State) (t : Nat) (r : RoomId) (reads : List Reg) (f : Room → Nat → Room → Room) : (State.laneArith s t r reads f).fixed = s.fixed := by
  unfold State.laneArith; simp
@[simp] theorem State.laneArith_inv (s : State) (t : Nat) (r : RoomId) (reads : List Reg) (f : Room → Nat → Room → Room) (h : s.Inv)
    (hf : ∀ v c (w : Room), w.Ok → (f v c w).Ok) : (s.laneArith t r reads f).Inv := by
  unfold State.laneArith; refine State.lane_inv _ _ _ _ _ h ?_; intro _ _ _ hv h; split <;> simp (maxDischargeDepth := 99) [h, hf]

end Sys2Proof.Machine
end

