-- ==== Sys2Proof/Laws/KeepFaults.lean ====
section
/-! SUPPORT. What the operations of Faults.lean keep: the invariant, the queue and the fuses. -/

namespace Sys2Proof.Machine

@[simp] theorem State.cutHandOver_fixed (s : State) (f : Nat) : (State.cutHandOver s f).fixed = s.fixed := by
  unfold State.cutHandOver; simp
@[simp] theorem State.cutHandOver_inv (s : State) (f : Nat) (h : s.Inv) : (State.cutHandOver s f).Inv := by
  unfold State.cutHandOver; simp (maxDischargeDepth := 99) +contextual [h]
@[simp] theorem State.silence_fixed (s : State) : (State.silence s).fixed = s.fixed := by
  unfold State.silence; simp
@[simp] theorem State.silence_inv (s : State) (h : s.Inv) : (State.silence s).Inv := by
  unfold State.silence; simp (maxDischargeDepth := 99) +contextual [h]
@[simp] theorem State.undoStores_fixed (s : State) : (State.undoStores s).fixed = s.fixed := by
  unfold State.undoStores; (try dsimp only); (repeat' split) <;> first
    | (simp; done)
    | (apply foldl_fixed; intro _ _; (try dsimp only); (repeat' split) <;> simp)
@[simp] theorem State.undoStores_inv (s : State) (h : s.Inv) : (State.undoStores s).Inv := by
  unfold State.undoStores; (try dsimp only); (repeat' split) <;> first
    | (simp (maxDischargeDepth := 99) +contextual [h]; done)
    | (refine foldl_inv _ _ _ (by simp (maxDischargeDepth := 99) +contextual [h]) ?_; intro _ _ h; (try dsimp only); (repeat' split) <;> simp (maxDischargeDepth := 99) +contextual [h])
@[simp] theorem Room.before_ok (v b : Room) (h : v.Ok) : (Room.before v b).Ok := by
  unfold Room.before; simp (maxDischargeDepth := 99) +contextual [h]
@[simp] theorem Room.cut_ok (v : Room) (f : Nat) (h : v.Ok) : (Room.cut v f).Ok := by
  unfold Room.cut; simp (maxDischargeDepth := 99) +contextual [h]
@[simp] theorem State.cutPipeline_fixed (s : State) : (State.cutPipeline s).fixed = s.fixed := by
  unfold State.cutPipeline
  dsimp only
  simp only [State.fixed_mk, State.fixed_fold, State.mapRooms_fixed]
  rw [foldl_fixed, State.undoStores_fixed]
  exact fun _ _ => State.updRoom_fixed ..
@[simp] theorem State.cutPipeline_inv (s : State) (h : s.Inv) : (State.cutPipeline s).Inv := by
  have hf : ∀ l : List Flight, (l.foldl (fun s x => s.updRoom x.room (fun v => v.before x.before)) s.undoStores).Inv := fun l =>
    foldl_inv _ _ _ (State.undoStores_inv s h) (fun q x hq => State.updRoom_inv hq (Room.before_ok _ _ (hq.ok_room _)))
  unfold State.cutPipeline
  dsimp only
  rw [State.inv_mk]
  exact (State.inv_mk ..).mp (State.mapRooms_inv (hf _) (fun v hv => Room.cut_ok v _ hv))
@[simp] theorem State.hardwareFault_fixed (s : State) (e : FaultEvidence) : (State.hardwareFault s e).fixed = s.fixed := by
  unfold State.hardwareFault; (try dsimp only); (repeat' split) <;> first
    | (simp; done)
    | (simp; rw [foldl_fixed]; (· simp); intro _ _; (try dsimp only); (repeat' split) <;> simp)
    | (simp; rw [foldl_fixed]; (· intro _ _; (try dsimp only); (repeat' split) <;> simp))
@[simp] theorem State.hardwareFault_inv (s : State) (e : FaultEvidence) (h : s.Inv) : (State.hardwareFault s e).Inv := by
  unfold State.hardwareFault; simp (maxDischargeDepth := 99) +contextual [h]

end Sys2Proof.Machine
end

