-- ==== Sys2Proof/Laws/KeepPorter.lean ====
section
/-! SUPPORT. What the operations of Porter.lean keep: the invariant, the queue and the fuses. -/

namespace Sys2Proof.Machine

@[simp] theorem State.latchEvidence_fixed (s : State) (cause : Nat) (stage : Bool) : (State.latchEvidence s cause stage).fixed = s.fixed := by
  unfold State.latchEvidence; rfl
@[simp] theorem State.latchEvidence_inv (s : State) (cause : Nat) (stage : Bool) (h : s.Inv) : (State.latchEvidence s cause stage).Inv := by
  unfold State.latchEvidence; simp (maxDischargeDepth := 99) +contextual [h]
@[simp] theorem State.npExpire_fixed (s : State) (cause : Nat) : (State.npExpire s cause).fixed = s.fixed := by
  unfold State.npExpire; simp
@[simp] theorem State.npExpire_inv (s : State) (cause : Nat) (h : s.Inv) : (State.npExpire s cause).Inv := by
  unfold State.npExpire; simp (maxDischargeDepth := 99) +contextual [h]
@[simp] theorem State.npWarn_fixed (s : State) (cause : Nat) : (State.npWarn s cause).fixed = s.fixed := by
  unfold State.npWarn; simp
@[simp] theorem State.npWarn_inv (s : State) (cause : Nat) (h : s.Inv) : (State.npWarn s cause).Inv := by
  unfold State.npWarn; simp (maxDischargeDepth := 99) +contextual [h]
@[simp] theorem State.npAmend_fixed (s : State) (cause : Nat) : (State.npAmend s cause).fixed = s.fixed := by
  unfold State.npAmend; (try dsimp only); (repeat' split) <;> simp
@[simp] theorem State.npAmend_inv (s : State) (cause : Nat) (h : s.Inv) : (State.npAmend s cause).Inv := by
  unfold State.npAmend; (try dsimp only); (repeat' split) <;> simp (maxDischargeDepth := 99) +contextual [h]
@[simp] theorem State.npFault_fixed (s : State) (cause : Nat) : (State.npFault s cause).fixed = s.fixed := by
  unfold State.npFault; simp
@[simp] theorem State.npFault_inv (s : State) (cause : Nat) (h : s.Inv) : (State.npFault s cause).Inv := by
  unfold State.npFault; simp (maxDischargeDepth := 99) +contextual [h]
@[simp] theorem State.npRecover_fixed (s : State) : (State.npRecover s).fixed = s.fixed := by
  unfold State.npRecover; simp
@[simp] theorem State.npRecover_inv (s : State) (h : s.Inv) : (State.npRecover s).Inv := by
  unfold State.npRecover; simp (maxDischargeDepth := 99) +contextual [h]
@[simp] theorem State.npKey_fixed (s : State) (app : Bool) (key : BitVec 16) : (State.npKey s app key).fixed = s.fixed := by
  unfold State.npKey; simp
@[simp] theorem State.npKey_inv (s : State) (app : Bool) (key : BitVec 16) (h : s.Inv) : (State.npKey s app key).Inv := by
  unfold State.npKey; simp (maxDischargeDepth := 99) +contextual [h]
@[simp] theorem State.npJudge_fixed (s : State) : (State.npJudge s).fixed = s.fixed := by
  unfold State.npJudge; simp
@[simp] theorem State.npJudge_inv (s : State) (h : s.Inv) : (State.npJudge s).Inv := by
  unfold State.npJudge; simp (maxDischargeDepth := 99) +contextual [h]
@[simp] theorem State.npBootClose_fixed (s : State) (t : Nat) : (State.npBootClose s t).fixed = s.fixed := by
  unfold State.npBootClose; simp
@[simp] theorem State.npBootClose_inv (s : State) (t : Nat) (h : s.Inv) : (State.npBootClose s t).Inv := by
  unfold State.npBootClose; simp (maxDischargeDepth := 99) +contextual [h]
theorem execStewardKey_fixed (t : Nat) (key : BitVec 16) (s : State) : OutFixed s (execStewardKey t key s) := by
  unfold execStewardKey; simp
theorem execStewardKey_inv (t : Nat) (key : BitVec 16) (s : State) (h : s.Inv) : OutInv (execStewardKey t key s) := by
  unfold execStewardKey; simp (maxDischargeDepth := 99) +contextual [h]
theorem execNpWindowClose_fixed (t : Nat) (s : State) : OutFixed s (execNpWindowClose t s) := by
  unfold execNpWindowClose; (try dsimp only); (repeat' split) <;> simp
theorem execNpWindowClose_inv (t : Nat) (s : State) (h : s.Inv) : OutInv (execNpWindowClose t s) := by
  unfold execNpWindowClose; (try dsimp only); (repeat' split) <;> simp (maxDischargeDepth := 99) +contextual [h]
theorem execNpSecondPeriodEnd_fixed (t : Nat) (s : State) : OutFixed s (execNpSecondPeriodEnd t s) := by
  unfold execNpSecondPeriodEnd; (repeat' split) <;> simp_all
theorem execNpSecondPeriodEnd_inv (t : Nat) (s : State) (h : s.Inv) : OutInv (execNpSecondPeriodEnd t s) := by
  unfold execNpSecondPeriodEnd; (repeat' split) <;> simp_all

end Sys2Proof.Machine
end

