-- ==== Sys2Proof/Laws/KeepJournal.lean ====
section
/-! SUPPORT. What the operations of Journal.lean keep: the invariant, the queue and the fuses. -/

namespace Sys2Proof.Machine

@[simp] theorem State.skipCapture_fixed (s : State) (r : RoomId) : (State.skipCapture s r).fixed = s.fixed := by
  unfold State.skipCapture; simp
@[simp] theorem State.skipCapture_inv (s : State) (r : RoomId) (h : s.Inv) : (State.skipCapture s r).Inv := by
  unfold State.skipCapture; simp (maxDischargeDepth := 99) +contextual [h]
@[simp] theorem State.capture_fixed (s : State) (r : RoomId) (i w : Nat) : (State.capture s r i w).fixed = s.fixed := by
  unfold State.capture; simp
@[simp] theorem State.capture_inv (s : State) (r : RoomId) (i w : Nat) (h : s.Inv) : (State.capture s r i w).Inv := by
  unfold State.capture; simp (maxDischargeDepth := 99) +contextual [h]
@[simp] theorem State.queuePoint_fixed (s : State) (p : Point) : (State.queuePoint s p).fixed = s.fixed := by
  unfold State.queuePoint; (try dsimp only); (repeat' split) <;> simp
@[simp] theorem State.queuePoint_inv (s : State) (p : Point) (h : s.Inv) : (State.queuePoint s p).Inv := by
  unfold State.queuePoint; (try dsimp only); (repeat' split) <;> simp (maxDischargeDepth := 99) +contextual [h]
@[simp] theorem State.queuePoints_fixed (s : State) (commits : Nat → Bool) : (State.queuePoints s commits).fixed = s.fixed := by
  unfold State.queuePoints; simp
@[simp] theorem State.queuePoints_inv (s : State) (commits : Nat → Bool) (h : s.Inv) : (State.queuePoints s commits).Inv := by
  unfold State.queuePoints; simp (maxDischargeDepth := 99) +contextual [h]
@[simp] theorem State.dropPoints_fixed (s : State) : (State.dropPoints s).fixed = s.fixed := by
  unfold State.dropPoints; (try dsimp only); (repeat' split) <;> first
    | (simp; done)
    | (apply foldl_fixed; intro _ _; (try dsimp only); (repeat' split) <;> simp)
@[simp] theorem State.dropPoints_inv (s : State) (h : s.Inv) : (State.dropPoints s).Inv := by
  unfold State.dropPoints
  have key : ∀ f : State → Point → State, (∀ s a, s.Inv → (f s a).Inv) →
      ({ s.nv.points.foldl f s with nv := { (s.nv.points.foldl f s).nv with points := [] } } : State).Inv :=
    fun f hf => by simp (maxDischargeDepth := 99) +contextual [h, hf]
  exact key _ (by intro _ _ h; (repeat' split) <;> simp (maxDischargeDepth := 99) +contextual [h])
theorem execJournalFold_fixed (t : Nat) (s : State) : OutFixed s (execJournalFold t s) := by
  unfold execJournalFold; (try dsimp only); (repeat' split) <;> simp
theorem execJournalFold_inv (t : Nat) (s : State) (h : s.Inv) : OutInv (execJournalFold t s) := by
  unfold execJournalFold; (try dsimp only); (repeat' split) <;> simp (maxDischargeDepth := 99) +contextual [h]

end Sys2Proof.Machine
end

