-- ==== Sys2Proof/Laws/KeepIntLogic.lean ====
section
/-! SUPPORT. What the operations of IntLogic.lean keep: the invariant, the queue and the fuses. -/

namespace Sys2Proof.Machine

theorem execNop_fixed (t : Nat) (r : RoomId) (s : State) : OutFixed s (execNop t r s) := by
  unfold execNop; simp
theorem execNop_inv (t : Nat) (r : RoomId) (s : State) (h : s.Inv) : OutInv (execNop t r s) := by
  unfold execNop; simp (maxDischargeDepth := 99) +contextual [h]
theorem execAdd_fixed (t : Nat) (r : RoomId) (rd ra rb : Reg) (s : State) : OutFixed s (execAdd t r rd ra rb s) := by
  unfold execAdd; simp
theorem execAdd_inv (t : Nat) (r : RoomId) (rd ra rb : Reg) (s : State) (h : s.Inv) : OutInv (execAdd t r rd ra rb s) := by
  unfold execAdd; simp (maxDischargeDepth := 99) +contextual [h]
theorem execSub_fixed (t : Nat) (r : RoomId) (rd ra rb : Reg) (s : State) : OutFixed s (execSub t r rd ra rb s) := by
  unfold execSub; simp
theorem execSub_inv (t : Nat) (r : RoomId) (rd ra rb : Reg) (s : State) (h : s.Inv) : OutInv (execSub t r rd ra rb s) := by
  unfold execSub; simp (maxDischargeDepth := 99) +contextual [h]
theorem execAdc_fixed (t : Nat) (r : RoomId) (rd ra rb : Reg) (s : State) : OutFixed s (execAdc t r rd ra rb s) := by
  unfold execAdc; simp
theorem execAdc_inv (t : Nat) (r : RoomId) (rd ra rb : Reg) (s : State) (h : s.Inv) : OutInv (execAdc t r rd ra rb s) := by
  unfold execAdc; simp (maxDischargeDepth := 99) +contextual [h]
theorem execSbc_fixed (t : Nat) (r : RoomId) (rd ra rb : Reg) (s : State) : OutFixed s (execSbc t r rd ra rb s) := by
  unfold execSbc; simp
theorem execSbc_inv (t : Nat) (r : RoomId) (rd ra rb : Reg) (s : State) (h : s.Inv) : OutInv (execSbc t r rd ra rb s) := by
  unfold execSbc; simp (maxDischargeDepth := 99) +contextual [h]
theorem execAnd_fixed (t : Nat) (r : RoomId) (rd ra rb : Reg) (s : State) : OutFixed s (execAnd t r rd ra rb s) := by
  unfold execAnd; simp
theorem execAnd_inv (t : Nat) (r : RoomId) (rd ra rb : Reg) (s : State) (h : s.Inv) : OutInv (execAnd t r rd ra rb s) := by
  unfold execAnd; simp (maxDischargeDepth := 99) +contextual [h]
theorem execOr_fixed (t : Nat) (r : RoomId) (rd ra rb : Reg) (s : State) : OutFixed s (execOr t r rd ra rb s) := by
  unfold execOr; simp
theorem execOr_inv (t : Nat) (r : RoomId) (rd ra rb : Reg) (s : State) (h : s.Inv) : OutInv (execOr t r rd ra rb s) := by
  unfold execOr; simp (maxDischargeDepth := 99) +contextual [h]
theorem execXor_fixed (t : Nat) (r : RoomId) (rd ra rb : Reg) (s : State) : OutFixed s (execXor t r rd ra rb s) := by
  unfold execXor; simp
theorem execXor_inv (t : Nat) (r : RoomId) (rd ra rb : Reg) (s : State) (h : s.Inv) : OutInv (execXor t r rd ra rb s) := by
  unfold execXor; simp (maxDischargeDepth := 99) +contextual [h]
theorem execAndn_fixed (t : Nat) (r : RoomId) (rd ra rb : Reg) (s : State) : OutFixed s (execAndn t r rd ra rb s) := by
  unfold execAndn; simp
theorem execAndn_inv (t : Nat) (r : RoomId) (rd ra rb : Reg) (s : State) (h : s.Inv) : OutInv (execAndn t r rd ra rb s) := by
  unfold execAndn; simp (maxDischargeDepth := 99) +contextual [h]
theorem execMin_fixed (t : Nat) (r : RoomId) (rd ra rb : Reg) (s : State) : OutFixed s (execMin t r rd ra rb s) := by
  unfold execMin; simp
theorem execMin_inv (t : Nat) (r : RoomId) (rd ra rb : Reg) (s : State) (h : s.Inv) : OutInv (execMin t r rd ra rb s) := by
  unfold execMin; simp (maxDischargeDepth := 99) +contextual [h]
theorem execMax_fixed (t : Nat) (r : RoomId) (rd ra rb : Reg) (s : State) : OutFixed s (execMax t r rd ra rb s) := by
  unfold execMax; simp
theorem execMax_inv (t : Nat) (r : RoomId) (rd ra rb : Reg) (s : State) (h : s.Inv) : OutInv (execMax t r rd ra rb s) := by
  unfold execMax; simp (maxDischargeDepth := 99) +contextual [h]
theorem execMinu_fixed (t : Nat) (r : RoomId) (rd ra rb : Reg) (s : State) : OutFixed s (execMinu t r rd ra rb s) := by
  unfold execMinu; simp
theorem execMinu_inv (t : Nat) (r : RoomId) (rd ra rb : Reg) (s : State) (h : s.Inv) : OutInv (execMinu t r rd ra rb s) := by
  unfold execMinu; simp (maxDischargeDepth := 99) +contextual [h]
theorem execMaxu_fixed (t : Nat) (r : RoomId) (rd ra rb : Reg) (s : State) : OutFixed s (execMaxu t r rd ra rb s) := by
  unfold execMaxu; simp
theorem execMaxu_inv (t : Nat) (r : RoomId) (rd ra rb : Reg) (s : State) (h : s.Inv) : OutInv (execMaxu t r rd ra rb s) := by
  unfold execMaxu; simp (maxDischargeDepth := 99) +contextual [h]
theorem execShl_fixed (t : Nat) (r : RoomId) (rd ra rb : Reg) (s : State) : OutFixed s (execShl t r rd ra rb s) := by
  unfold execShl; simp
theorem execShl_inv (t : Nat) (r : RoomId) (rd ra rb : Reg) (s : State) (h : s.Inv) : OutInv (execShl t r rd ra rb s) := by
  unfold execShl; simp (maxDischargeDepth := 99) +contextual [h]
theorem execShr_fixed (t : Nat) (r : RoomId) (rd ra rb : Reg) (s : State) : OutFixed s (execShr t r rd ra rb s) := by
  unfold execShr; simp
theorem execShr_inv (t : Nat) (r : RoomId) (rd ra rb : Reg) (s : State) (h : s.Inv) : OutInv (execShr t r rd ra rb s) := by
  unfold execShr; simp (maxDischargeDepth := 99) +contextual [h]
theorem execSar_fixed (t : Nat) (r : RoomId) (rd ra rb : Reg) (s : State) : OutFixed s (execSar t r rd ra rb s) := by
  unfold execSar; simp
theorem execSar_inv (t : Nat) (r : RoomId) (rd ra rb : Reg) (s : State) (h : s.Inv) : OutInv (execSar t r rd ra rb s) := by
  unfold execSar; simp (maxDischargeDepth := 99) +contextual [h]
theorem execCmp_fixed (t : Nat) (r : RoomId) (ra rb : Reg) (s : State) : OutFixed s (execCmp t r ra rb s) := by
  unfold execCmp; simp
theorem execCmp_inv (t : Nat) (r : RoomId) (ra rb : Reg) (s : State) (h : s.Inv) : OutInv (execCmp t r ra rb s) := by
  unfold execCmp; simp (maxDischargeDepth := 99) +contextual [h]
theorem execSel_fixed (t : Nat) (r : RoomId) (rd ra rb : Reg) (s : State) : OutFixed s (execSel t r rd ra rb s) := by
  unfold execSel; simp
theorem execSel_inv (t : Nat) (r : RoomId) (rd ra rb : Reg) (s : State) (h : s.Inv) : OutInv (execSel t r rd ra rb s) := by
  unfold execSel; simp (maxDischargeDepth := 99) +contextual [h]
theorem execGetb_fixed (t : Nat) (r : RoomId) (rd : Reg) (s : State) : OutFixed s (execGetb t r rd s) := by
  unfold execGetb; simp
theorem execGetb_inv (t : Nat) (r : RoomId) (rd : Reg) (s : State) (h : s.Inv) : OutInv (execGetb t r rd s) := by
  unfold execGetb; simp (maxDischargeDepth := 99) +contextual [h]
theorem execAddi_fixed (t : Nat) (r : RoomId) (rd ra : Reg) (imm : BitVec 16) (s : State) : OutFixed s (execAddi t r rd ra imm s) := by
  unfold execAddi; simp
theorem execAddi_inv (t : Nat) (r : RoomId) (rd ra : Reg) (imm : BitVec 16) (s : State) (h : s.Inv) : OutInv (execAddi t r rd ra imm s) := by
  unfold execAddi; simp (maxDischargeDepth := 99) +contextual [h]
theorem execCmpi_fixed (t : Nat) (r : RoomId) (ra : Reg) (imm : BitVec 16) (s : State) : OutFixed s (execCmpi t r ra imm s) := by
  unfold execCmpi; simp
theorem execCmpi_inv (t : Nat) (r : RoomId) (ra : Reg) (imm : BitVec 16) (s : State) (h : s.Inv) : OutInv (execCmpi t r ra imm s) := by
  unfold execCmpi; simp (maxDischargeDepth := 99) +contextual [h]
theorem execAndi_fixed (t : Nat) (r : RoomId) (rd ra : Reg) (imm : BitVec 16) (s : State) : OutFixed s (execAndi t r rd ra imm s) := by
  unfold execAndi; simp
theorem execAndi_inv (t : Nat) (r : RoomId) (rd ra : Reg) (imm : BitVec 16) (s : State) (h : s.Inv) : OutInv (execAndi t r rd ra imm s) := by
  unfold execAndi; simp (maxDischargeDepth := 99) +contextual [h]
theorem execOri_fixed (t : Nat) (r : RoomId) (rd ra : Reg) (imm : BitVec 16) (s : State) : OutFixed s (execOri t r rd ra imm s) := by
  unfold execOri; simp
theorem execOri_inv (t : Nat) (r : RoomId) (rd ra : Reg) (imm : BitVec 16) (s : State) (h : s.Inv) : OutInv (execOri t r rd ra imm s) := by
  unfold execOri; simp (maxDischargeDepth := 99) +contextual [h]
theorem execXori_fixed (t : Nat) (r : RoomId) (rd ra : Reg) (imm : BitVec 16) (s : State) : OutFixed s (execXori t r rd ra imm s) := by
  unfold execXori; simp
theorem execXori_inv (t : Nat) (r : RoomId) (rd ra : Reg) (imm : BitVec 16) (s : State) (h : s.Inv) : OutInv (execXori t r rd ra imm s) := by
  unfold execXori; simp (maxDischargeDepth := 99) +contextual [h]
theorem execLui_fixed (t : Nat) (r : RoomId) (rd : Reg) (imm : BitVec 16) (s : State) : OutFixed s (execLui t r rd imm s) := by
  unfold execLui; simp
theorem execLui_inv (t : Nat) (r : RoomId) (rd : Reg) (imm : BitVec 16) (s : State) (h : s.Inv) : OutInv (execLui t r rd imm s) := by
  unfold execLui; simp (maxDischargeDepth := 99) +contextual [h]
theorem execShli_fixed (t : Nat) (r : RoomId) (rd ra : Reg) (n5 : BitVec 5) (s : State) : OutFixed s (execShli t r rd ra n5 s) := by
  unfold execShli; simp
theorem execShli_inv (t : Nat) (r : RoomId) (rd ra : Reg) (n5 : BitVec 5) (s : State) (h : s.Inv) : OutInv (execShli t r rd ra n5 s) := by
  unfold execShli; simp (maxDischargeDepth := 99) +contextual [h]
theorem execShri_fixed (t : Nat) (r : RoomId) (rd ra : Reg) (n5 : BitVec 5) (s : State) : OutFixed s (execShri t r rd ra n5 s) := by
  unfold execShri; simp
theorem execShri_inv (t : Nat) (r : RoomId) (rd ra : Reg) (n5 : BitVec 5) (s : State) (h : s.Inv) : OutInv (execShri t r rd ra n5 s) := by
  unfold execShri; simp (maxDischargeDepth := 99) +contextual [h]
theorem execSari_fixed (t : Nat) (r : RoomId) (rd ra : Reg) (n5 : BitVec 5) (s : State) : OutFixed s (execSari t r rd ra n5 s) := by
  unfold execSari; simp
theorem execSari_inv (t : Nat) (r : RoomId) (rd ra : Reg) (n5 : BitVec 5) (s : State) (h : s.Inv) : OutInv (execSari t r rd ra n5 s) := by
  unfold execSari; simp (maxDischargeDepth := 99) +contextual [h]
theorem execTst_fixed (t : Nat) (r : RoomId) (ra : Reg) (n5 : BitVec 5) (s : State) : OutFixed s (execTst t r ra n5 s) := by
  unfold execTst; simp
theorem execTst_inv (t : Nat) (r : RoomId) (ra : Reg) (n5 : BitVec 5) (s : State) (h : s.Inv) : OutInv (execTst t r ra n5 s) := by
  unfold execTst; simp (maxDischargeDepth := 99) +contextual [h]
theorem execBext_fixed (t : Nat) (r : RoomId) (rd ra : Reg) (p5 w5 : BitVec 5) (s : State) : OutFixed s (execBext t r rd ra p5 w5 s) := by
  unfold execBext; simp
theorem execBext_inv (t : Nat) (r : RoomId) (rd ra : Reg) (p5 w5 : BitVec 5) (s : State) (h : s.Inv) : OutInv (execBext t r rd ra p5 w5 s) := by
  unfold execBext; simp (maxDischargeDepth := 99) +contextual [h]
theorem execBins_fixed (t : Nat) (r : RoomId) (rd ra : Reg) (p5 w5 : BitVec 5) (s : State) : OutFixed s (execBins t r rd ra p5 w5 s) := by
  unfold execBins; simp
theorem execBins_inv (t : Nat) (r : RoomId) (rd ra : Reg) (p5 w5 : BitVec 5) (s : State) (h : s.Inv) : OutInv (execBins t r rd ra p5 w5 s) := by
  unfold execBins; simp (maxDischargeDepth := 99) +contextual [h]
theorem execBool3_fixed (t : Nat) (r : RoomId) (rd ra rb rc : Reg) (tt : Byte) (s : State) : OutFixed s (execBool3 t r rd ra rb rc tt s) := by
  unfold execBool3; simp
theorem execBool3_inv (t : Nat) (r : RoomId) (rd ra rb rc : Reg) (tt : Byte) (s : State) (h : s.Inv) : OutInv (execBool3 t r rd ra rb rc tt s) := by
  unfold execBool3; simp (maxDischargeDepth := 99) +contextual [h]

end Sys2Proof.Machine
end

