-- ==== Sys2Proof/Laws/KeepControl.lean ====
section
/-! SUPPORT. What the operations of Control.lean keep: the invariant, the queue and the fuses. -/

namespace Sys2Proof.Machine

theorem execB_fixed (t : Nat) (r : RoomId) (cond : Cond) (boff : BitVec 21) (s : State) : OutFixed s (execB t r cond boff s) := by
  unfold execB; simp
theorem execB_inv (t : Nat) (r : RoomId) (cond : Cond) (boff : BitVec 21) (s : State) (h : s.Inv) : OutInv (execB t r cond boff s) := by
  unfold execB; simp (maxDischargeDepth := 99) +contextual [h]
theorem execLpi_fixed (t : Nat) (r : RoomId) (rd : Reg) (imm : BitVec 16) (s : State) : OutFixed s (execLpi t r rd imm s) := by
  unfold execLpi; simp
theorem execLpi_inv (t : Nat) (r : RoomId) (rd : Reg) (imm : BitVec 16) (s : State) (h : s.Inv) : OutInv (execLpi t r rd imm s) := by
  unfold execLpi; simp (maxDischargeDepth := 99) +contextual [h]
theorem execLpr_fixed (t : Nat) (r : RoomId) (rd ra : Reg) (imm : BitVec 16) (s : State) : OutFixed s (execLpr t r rd ra imm s) := by
  unfold execLpr; (try dsimp only); (repeat' split) <;> simp
theorem execLpr_inv (t : Nat) (r : RoomId) (rd ra : Reg) (imm : BitVec 16) (s : State) (h : s.Inv) : OutInv (execLpr t r rd ra imm s) := by
  unfold execLpr; (try dsimp only); (repeat' split) <;> simp (maxDischargeDepth := 99) +contextual [h]
theorem execLoop_fixed (t : Nat) (r : RoomId) (rd : Reg) (boff : BitVec 21) (s : State) : OutFixed s (execLoop t r rd boff s) := by
  unfold execLoop; simp
theorem execLoop_inv (t : Nat) (r : RoomId) (rd : Reg) (boff : BitVec 21) (s : State) (h : s.Inv) : OutInv (execLoop t r rd boff s) := by
  unfold execLoop; simp (maxDischargeDepth := 99) +contextual [h]
theorem execJtab_fixed (t : Nat) (r : RoomId) (ra : Reg) (imm : BitVec 16) (s : State) : OutFixed s (execJtab t r ra imm s) := by
  unfold execJtab; simp
theorem execJtab_inv (t : Nat) (r : RoomId) (ra : Reg) (imm : BitVec 16) (s : State) (h : s.Inv) : OutInv (execJtab t r ra imm s) := by
  unfold execJtab; simp (maxDischargeDepth := 99) +contextual [h]

end Sys2Proof.Machine
end

