-- ==== Sys2Proof/Laws/KeepLoadStore.lean ====
section
/-! SUPPORT. What the operations of LoadStore.lean keep: the invariant, the queue and the fuses. -/

namespace Sys2Proof.Machine

theorem execLw_fixed (t : Nat) (r : RoomId) (rd ra : Reg) (imm : BitVec 16) (s : State) : OutFixed s (execLw t r rd ra imm s) := by
  unfold execLw; simp
theorem execLw_inv (t : Nat) (r : RoomId) (rd ra : Reg) (imm : BitVec 16) (s : State) (h : s.Inv) : OutInv (execLw t r rd ra imm s) := by
  unfold execLw; simp (maxDischargeDepth := 99) +contextual [h]
theorem execLh_fixed (t : Nat) (r : RoomId) (rd ra : Reg) (imm : BitVec 16) (s : State) : OutFixed s (execLh t r rd ra imm s) := by
  unfold execLh; simp
theorem execLh_inv (t : Nat) (r : RoomId) (rd ra : Reg) (imm : BitVec 16) (s : State) (h : s.Inv) : OutInv (execLh t r rd ra imm s) := by
  unfold execLh; simp (maxDischargeDepth := 99) +contextual [h]
theorem execLhu_fixed (t : Nat) (r : RoomId) (rd ra : Reg) (imm : BitVec 16) (s : State) : OutFixed s (execLhu t r rd ra imm s) := by
  unfold execLhu; simp
theorem execLhu_inv (t : Nat) (r : RoomId) (rd ra : Reg) (imm : BitVec 16) (s : State) (h : s.Inv) : OutInv (execLhu t r rd ra imm s) := by
  unfold execLhu; simp (maxDischargeDepth := 99) +contextual [h]
theorem execLby_fixed (t : Nat) (r : RoomId) (rd ra : Reg) (imm : BitVec 16) (s : State) : OutFixed s (execLby t r rd ra imm s) := by
  unfold execLby; simp
theorem execLby_inv (t : Nat) (r : RoomId) (rd ra : Reg) (imm : BitVec 16) (s : State) (h : s.Inv) : OutInv (execLby t r rd ra imm s) := by
  unfold execLby; simp (maxDischargeDepth := 99) +contextual [h]
theorem execLbyu_fixed (t : Nat) (r : RoomId) (rd ra : Reg) (imm : BitVec 16) (s : State) : OutFixed s (execLbyu t r rd ra imm s) := by
  unfold execLbyu; simp
theorem execLbyu_inv (t : Nat) (r : RoomId) (rd ra : Reg) (imm : BitVec 16) (s : State) (h : s.Inv) : OutInv (execLbyu t r rd ra imm s) := by
  unfold execLbyu; simp (maxDischargeDepth := 99) +contextual [h]
theorem execSw_fixed (t : Nat) (r : RoomId) (rd ra : Reg) (imm : BitVec 16) (s : State) : OutFixed s (execSw t r rd ra imm s) := by
  unfold execSw; simp
theorem execSw_inv (t : Nat) (r : RoomId) (rd ra : Reg) (imm : BitVec 16) (s : State) (h : s.Inv) : OutInv (execSw t r rd ra imm s) := by
  unfold execSw; simp (maxDischargeDepth := 99) +contextual [h]
theorem execSh_fixed (t : Nat) (r : RoomId) (rd ra : Reg) (imm : BitVec 16) (s : State) : OutFixed s (execSh t r rd ra imm s) := by
  unfold execSh; simp
theorem execSh_inv (t : Nat) (r : RoomId) (rd ra : Reg) (imm : BitVec 16) (s : State) (h : s.Inv) : OutInv (execSh t r rd ra imm s) := by
  unfold execSh; simp (maxDischargeDepth := 99) +contextual [h]
theorem execSby_fixed (t : Nat) (r : RoomId) (rd ra : Reg) (imm : BitVec 16) (s : State) : OutFixed s (execSby t r rd ra imm s) := by
  unfold execSby; simp
theorem execSby_inv (t : Nat) (r : RoomId) (rd ra : Reg) (imm : BitVec 16) (s : State) (h : s.Inv) : OutInv (execSby t r rd ra imm s) := by
  unfold execSby; simp (maxDischargeDepth := 99) +contextual [h]
theorem execIlw_fixed (t : Nat) (r : RoomId) (rd ra : Reg) (imm : BitVec 16) (s : State) : OutFixed s (execIlw t r rd ra imm s) := by
  unfold execIlw; simp
theorem execIlw_inv (t : Nat) (r : RoomId) (rd ra : Reg) (imm : BitVec 16) (s : State) (h : s.Inv) : OutInv (execIlw t r rd ra imm s) := by
  unfold execIlw; simp (maxDischargeDepth := 99) +contextual [h]
theorem execIlh_fixed (t : Nat) (r : RoomId) (rd ra : Reg) (imm : BitVec 16) (s : State) : OutFixed s (execIlh t r rd ra imm s) := by
  unfold execIlh; simp
theorem execIlh_inv (t : Nat) (r : RoomId) (rd ra : Reg) (imm : BitVec 16) (s : State) (h : s.Inv) : OutInv (execIlh t r rd ra imm s) := by
  unfold execIlh; simp (maxDischargeDepth := 99) +contextual [h]
theorem execIlhu_fixed (t : Nat) (r : RoomId) (rd ra : Reg) (imm : BitVec 16) (s : State) : OutFixed s (execIlhu t r rd ra imm s) := by
  unfold execIlhu; simp
theorem execIlhu_inv (t : Nat) (r : RoomId) (rd ra : Reg) (imm : BitVec 16) (s : State) (h : s.Inv) : OutInv (execIlhu t r rd ra imm s) := by
  unfold execIlhu; simp (maxDischargeDepth := 99) +contextual [h]
theorem execIlby_fixed (t : Nat) (r : RoomId) (rd ra : Reg) (imm : BitVec 16) (s : State) : OutFixed s (execIlby t r rd ra imm s) := by
  unfold execIlby; simp
theorem execIlby_inv (t : Nat) (r : RoomId) (rd ra : Reg) (imm : BitVec 16) (s : State) (h : s.Inv) : OutInv (execIlby t r rd ra imm s) := by
  unfold execIlby; simp (maxDischargeDepth := 99) +contextual [h]
theorem execIlbyu_fixed (t : Nat) (r : RoomId) (rd ra : Reg) (imm : BitVec 16) (s : State) : OutFixed s (execIlbyu t r rd ra imm s) := by
  unfold execIlbyu; simp
theorem execIlbyu_inv (t : Nat) (r : RoomId) (rd ra : Reg) (imm : BitVec 16) (s : State) (h : s.Inv) : OutInv (execIlbyu t r rd ra imm s) := by
  unfold execIlbyu; simp (maxDischargeDepth := 99) +contextual [h]
theorem execIsw_fixed (t : Nat) (r : RoomId) (rd ra : Reg) (imm : BitVec 16) (s : State) : OutFixed s (execIsw t r rd ra imm s) := by
  unfold execIsw; simp
theorem execIsw_inv (t : Nat) (r : RoomId) (rd ra : Reg) (imm : BitVec 16) (s : State) (h : s.Inv) : OutInv (execIsw t r rd ra imm s) := by
  unfold execIsw; simp (maxDischargeDepth := 99) +contextual [h]
theorem execIsh_fixed (t : Nat) (r : RoomId) (rd ra : Reg) (imm : BitVec 16) (s : State) : OutFixed s (execIsh t r rd ra imm s) := by
  unfold execIsh; simp
theorem execIsh_inv (t : Nat) (r : RoomId) (rd ra : Reg) (imm : BitVec 16) (s : State) (h : s.Inv) : OutInv (execIsh t r rd ra imm s) := by
  unfold execIsh; simp (maxDischargeDepth := 99) +contextual [h]
theorem execIsby_fixed (t : Nat) (r : RoomId) (rd ra : Reg) (imm : BitVec 16) (s : State) : OutFixed s (execIsby t r rd ra imm s) := by
  unfold execIsby; simp
theorem execIsby_inv (t : Nat) (r : RoomId) (rd ra : Reg) (imm : BitVec 16) (s : State) (h : s.Inv) : OutInv (execIsby t r rd ra imm s) := by
  unfold execIsby; simp (maxDischargeDepth := 99) +contextual [h]
theorem execLdb_fixed (t : Nat) (r : RoomId) (rd ra : Reg) (imm : BitVec 16) (s : State) : OutFixed s (execLdb t r rd ra imm s) := by
  unfold execLdb; simp
theorem execLdb_inv (t : Nat) (r : RoomId) (rd ra : Reg) (imm : BitVec 16) (s : State) (h : s.Inv) : OutInv (execLdb t r rd ra imm s) := by
  unfold execLdb; simp (maxDischargeDepth := 99) +contextual [h]
theorem execStb_fixed (t : Nat) (r : RoomId) (rd ra : Reg) (imm : BitVec 16) (s : State) : OutFixed s (execStb t r rd ra imm s) := by
  unfold execStb; simp
theorem execStb_inv (t : Nat) (r : RoomId) (rd ra : Reg) (imm : BitVec 16) (s : State) (h : s.Inv) : OutInv (execStb t r rd ra imm s) := by
  unfold execStb; simp (maxDischargeDepth := 99) +contextual [h]
theorem execSet_fixed (t : Nat) (r : RoomId) (ra : Reg) (imm : BitVec 16) (s : State) : OutFixed s (execSet t r ra imm s) := by
  unfold execSet; simp
theorem execSet_inv (t : Nat) (r : RoomId) (ra : Reg) (imm : BitVec 16) (s : State) (h : s.Inv) : OutInv (execSet t r ra imm s) := by
  unfold execSet; simp (maxDischargeDepth := 99) +contextual [h]
theorem execRst_fixed (t : Nat) (r : RoomId) (ra : Reg) (imm : BitVec 16) (s : State) : OutFixed s (execRst t r ra imm s) := by
  unfold execRst; simp
theorem execRst_inv (t : Nat) (r : RoomId) (ra : Reg) (imm : BitVec 16) (s : State) (h : s.Inv) : OutInv (execRst t r ra imm s) := by
  unfold execRst; simp (maxDischargeDepth := 99) +contextual [h]
theorem execEdgeR_fixed (t : Nat) (r : RoomId) (rd ra : Reg) (imm : BitVec 16) (s : State) : OutFixed s (execEdgeR t r rd ra imm s) := by
  unfold execEdgeR; simp
theorem execEdgeR_inv (t : Nat) (r : RoomId) (rd ra : Reg) (imm : BitVec 16) (s : State) (h : s.Inv) : OutInv (execEdgeR t r rd ra imm s) := by
  unfold execEdgeR; simp (maxDischargeDepth := 99) +contextual [h]
theorem execEdgeF_fixed (t : Nat) (r : RoomId) (rd ra : Reg) (imm : BitVec 16) (s : State) : OutFixed s (execEdgeF t r rd ra imm s) := by
  unfold execEdgeF; simp
theorem execEdgeF_inv (t : Nat) (r : RoomId) (rd ra : Reg) (imm : BitVec 16) (s : State) (h : s.Inv) : OutInv (execEdgeF t r rd ra imm s) := by
  unfold execEdgeF; simp (maxDischargeDepth := 99) +contextual [h]
theorem execEdgeA_fixed (t : Nat) (r : RoomId) (rd ra : Reg) (imm : BitVec 16) (s : State) : OutFixed s (execEdgeA t r rd ra imm s) := by
  unfold execEdgeA; simp
theorem execEdgeA_inv (t : Nat) (r : RoomId) (rd ra : Reg) (imm : BitVec 16) (s : State) (h : s.Inv) : OutInv (execEdgeA t r rd ra imm s) := by
  unfold execEdgeA; simp (maxDischargeDepth := 99) +contextual [h]

end Sys2Proof.Machine
end

