-- ==== Sys2Proof/Laws/KeepTimers.lean ====
section
/-! SUPPORT. What the operations of Timers.lean keep: the invariant, the queue and the fuses. -/

namespace Sys2Proof.Machine

theorem execTon_fixed (t : Nat) (r : RoomId) (rd ra : Reg) (imm : BitVec 16) (s : State) : OutFixed s (execTon t r rd ra imm s) := by
  unfold execTon; simp
theorem execTon_inv (t : Nat) (r : RoomId) (rd ra : Reg) (imm : BitVec 16) (s : State) (h : s.Inv) : OutInv (execTon t r rd ra imm s) := by
  unfold execTon; simp (maxDischargeDepth := 99) +contextual [h]
theorem execTof_fixed (t : Nat) (r : RoomId) (rd ra : Reg) (imm : BitVec 16) (s : State) : OutFixed s (execTof t r rd ra imm s) := by
  unfold execTof; simp
theorem execTof_inv (t : Nat) (r : RoomId) (rd ra : Reg) (imm : BitVec 16) (s : State) (h : s.Inv) : OutInv (execTof t r rd ra imm s) := by
  unfold execTof; simp (maxDischargeDepth := 99) +contextual [h]
theorem execTp_fixed (t : Nat) (r : RoomId) (rd ra : Reg) (imm : BitVec 16) (s : State) : OutFixed s (execTp t r rd ra imm s) := by
  unfold execTp; simp
theorem execTp_inv (t : Nat) (r : RoomId) (rd ra : Reg) (imm : BitVec 16) (s : State) (h : s.Inv) : OutInv (execTp t r rd ra imm s) := by
  unfold execTp; simp (maxDischargeDepth := 99) +contextual [h]
theorem execTacc_fixed (t : Nat) (r : RoomId) (rd ra : Reg) (imm : BitVec 16) (s : State) : OutFixed s (execTacc t r rd ra imm s) := by
  unfold execTacc; simp
theorem execTacc_inv (t : Nat) (r : RoomId) (rd ra : Reg) (imm : BitVec 16) (s : State) (h : s.Inv) : OutInv (execTacc t r rd ra imm s) := by
  unfold execTacc; simp (maxDischargeDepth := 99) +contextual [h]
theorem execCtu_fixed (t : Nat) (r : RoomId) (rd ra : Reg) (imm : BitVec 16) (s : State) : OutFixed s (execCtu t r rd ra imm s) := by
  unfold execCtu; simp
theorem execCtu_inv (t : Nat) (r : RoomId) (rd ra : Reg) (imm : BitVec 16) (s : State) (h : s.Inv) : OutInv (execCtu t r rd ra imm s) := by
  unfold execCtu; simp (maxDischargeDepth := 99) +contextual [h]
theorem execCtd_fixed (t : Nat) (r : RoomId) (rd ra : Reg) (imm : BitVec 16) (s : State) : OutFixed s (execCtd t r rd ra imm s) := by
  unfold execCtd; simp
theorem execCtd_inv (t : Nat) (r : RoomId) (rd ra : Reg) (imm : BitVec 16) (s : State) (h : s.Inv) : OutInv (execCtd t r rd ra imm s) := by
  unfold execCtd; simp (maxDischargeDepth := 99) +contextual [h]

end Sys2Proof.Machine
end

