-- ==== Sys2Proof/Laws/KeepArith.lean ====
section
/-! SUPPORT. What the operations of Arith.lean keep: the invariant, the queue and the fuses. -/

namespace Sys2Proof.Machine

@[simp] theorem Room.mulIssue_ok (w : Room) (c : Nat) (x : DWord) (h : w.Ok) : (Room.mulIssue w c x).Ok := by
  unfold Room.mulIssue; simp (maxDischargeDepth := 99) +contextual [h]
@[simp] theorem Room.fpuIssue_ok (w : Room) (c lat : Nat) (x : Word) (h : w.Ok) : (Room.fpuIssue w c lat x).Ok := by
  unfold Room.fpuIssue; simp (maxDischargeDepth := 99) +contextual [h]
@[simp] theorem Room.divIssue_ok (w : Room) (c : Nat) (x : Word × Word) (h : w.Ok) : (Room.divIssue w c x).Ok := by
  unfold Room.divIssue; simp (maxDischargeDepth := 99) +contextual [h]
theorem execMul_fixed (t : Nat) (r : RoomId) (ra rb : Reg) (s : State) : OutFixed s (execMul t r ra rb s) := by
  unfold execMul; simp
theorem execMul_inv (t : Nat) (r : RoomId) (ra rb : Reg) (s : State) (h : s.Inv) : OutInv (execMul t r ra rb s) := by
  unfold execMul; simp (maxDischargeDepth := 99) +contextual [h]
theorem execMulu_fixed (t : Nat) (r : RoomId) (ra rb : Reg) (s : State) : OutFixed s (execMulu t r ra rb s) := by
  unfold execMulu; simp
theorem execMulu_inv (t : Nat) (r : RoomId) (ra rb : Reg) (s : State) (h : s.Inv) : OutInv (execMulu t r ra rb s) := by
  unfold execMulu; simp (maxDischargeDepth := 99) +contextual [h]
theorem execMac_fixed (t : Nat) (r : RoomId) (ra rb : Reg) (s : State) : OutFixed s (execMac t r ra rb s) := by
  unfold execMac; simp
theorem execMac_inv (t : Nat) (r : RoomId) (ra rb : Reg) (s : State) (h : s.Inv) : OutInv (execMac t r ra rb s) := by
  unfold execMac; simp (maxDischargeDepth := 99) +contextual [h]
theorem execMacu_fixed (t : Nat) (r : RoomId) (ra rb : Reg) (s : State) : OutFixed s (execMacu t r ra rb s) := by
  unfold execMacu; simp
theorem execMacu_inv (t : Nat) (r : RoomId) (ra rb : Reg) (s : State) (h : s.Inv) : OutInv (execMacu t r ra rb s) := by
  unfold execMacu; simp (maxDischargeDepth := 99) +contextual [h]
theorem execFadd_fixed (t : Nat) (r : RoomId) (ra rb : Reg) (s : State) : OutFixed s (execFadd t r ra rb s) := by
  unfold execFadd; simp
theorem execFadd_inv (t : Nat) (r : RoomId) (ra rb : Reg) (s : State) (h : s.Inv) : OutInv (execFadd t r ra rb s) := by
  unfold execFadd; simp (maxDischargeDepth := 99) +contextual [h]
theorem execFsub_fixed (t : Nat) (r : RoomId) (ra rb : Reg) (s : State) : OutFixed s (execFsub t r ra rb s) := by
  unfold execFsub; simp
theorem execFsub_inv (t : Nat) (r : RoomId) (ra rb : Reg) (s : State) (h : s.Inv) : OutInv (execFsub t r ra rb s) := by
  unfold execFsub; simp (maxDischargeDepth := 99) +contextual [h]
theorem execFmul_fixed (t : Nat) (r : RoomId) (ra rb : Reg) (s : State) : OutFixed s (execFmul t r ra rb s) := by
  unfold execFmul; simp
theorem execFmul_inv (t : Nat) (r : RoomId) (ra rb : Reg) (s : State) (h : s.Inv) : OutInv (execFmul t r ra rb s) := by
  unfold execFmul; simp (maxDischargeDepth := 99) +contextual [h]
theorem execFdiv_fixed (t : Nat) (r : RoomId) (ra rb : Reg) (s : State) : OutFixed s (execFdiv t r ra rb s) := by
  unfold execFdiv; simp
theorem execFdiv_inv (t : Nat) (r : RoomId) (ra rb : Reg) (s : State) (h : s.Inv) : OutInv (execFdiv t r ra rb s) := by
  unfold execFdiv; simp (maxDischargeDepth := 99) +contextual [h]
theorem execFmin_fixed (t : Nat) (r : RoomId) (ra rb : Reg) (s : State) : OutFixed s (execFmin t r ra rb s) := by
  unfold execFmin; simp
theorem execFmin_inv (t : Nat) (r : RoomId) (ra rb : Reg) (s : State) (h : s.Inv) : OutInv (execFmin t r ra rb s) := by
  unfold execFmin; simp (maxDischargeDepth := 99) +contextual [h]
theorem execFmax_fixed (t : Nat) (r : RoomId) (ra rb : Reg) (s : State) : OutFixed s (execFmax t r ra rb s) := by
  unfold execFmax; simp
theorem execFmax_inv (t : Nat) (r : RoomId) (ra rb : Reg) (s : State) (h : s.Inv) : OutInv (execFmax t r ra rb s) := by
  unfold execFmax; simp (maxDischargeDepth := 99) +contextual [h]
theorem execFcmp_fixed (t : Nat) (r : RoomId) (ra rb : Reg) (s : State) : OutFixed s (execFcmp t r ra rb s) := by
  unfold execFcmp; simp
theorem execFcmp_inv (t : Nat) (r : RoomId) (ra rb : Reg) (s : State) (h : s.Inv) : OutInv (execFcmp t r ra rb s) := by
  unfold execFcmp; simp (maxDischargeDepth := 99) +contextual [h]
theorem execItof_fixed (t : Nat) (r : RoomId) (ra : Reg) (s : State) : OutFixed s (execItof t r ra s) := by
  unfold execItof; simp
theorem execItof_inv (t : Nat) (r : RoomId) (ra : Reg) (s : State) (h : s.Inv) : OutInv (execItof t r ra s) := by
  unfold execItof; simp (maxDischargeDepth := 99) +contextual [h]
theorem execUtof_fixed (t : Nat) (r : RoomId) (ra : Reg) (s : State) : OutFixed s (execUtof t r ra s) := by
  unfold execUtof; simp
theorem execUtof_inv (t : Nat) (r : RoomId) (ra : Reg) (s : State) (h : s.Inv) : OutInv (execUtof t r ra s) := by
  unfold execUtof; simp (maxDischargeDepth := 99) +contextual [h]
theorem execFtoi_fixed (t : Nat) (r : RoomId) (ra : Reg) (s : State) : OutFixed s (execFtoi t r ra s) := by
  unfold execFtoi; simp
theorem execFtoi_inv (t : Nat) (r : RoomId) (ra : Reg) (s : State) (h : s.Inv) : OutInv (execFtoi t r ra s) := by
  unfold execFtoi; simp (maxDischargeDepth := 99) +contextual [h]
theorem execDiv_fixed (t : Nat) (r : RoomId) (ra rb : Reg) (s : State) : OutFixed s (execDiv t r ra rb s) := by
  unfold execDiv; simp
theorem execDiv_inv (t : Nat) (r : RoomId) (ra rb : Reg) (s : State) (h : s.Inv) : OutInv (execDiv t r ra rb s) := by
  unfold execDiv; simp (maxDischargeDepth := 99) +contextual [h]
theorem execDivu_fixed (t : Nat) (r : RoomId) (ra rb : Reg) (s : State) : OutFixed s (execDivu t r ra rb s) := by
  unfold execDivu; simp
theorem execDivu_inv (t : Nat) (r : RoomId) (ra rb : Reg) (s : State) (h : s.Inv) : OutInv (execDivu t r ra rb s) := by
  unfold execDivu; simp (maxDischargeDepth := 99) +contextual [h]
@[simp] theorem Room.setSpr_ok (v : Room) (p : Spr) (x : Word) (h : v.Ok) : (Room.setSpr v p x).Ok := by
  unfold Room.setSpr; (try dsimp only); (repeat' split) <;> simp (maxDischargeDepth := 99) +contextual [h]
theorem execMfs_fixed (t : Nat) (r : RoomId) (rd : Reg) (spr : Spr) (s : State) : OutFixed s (execMfs t r rd spr s) := by
  unfold execMfs; simp
theorem execMfs_inv (t : Nat) (r : RoomId) (rd : Reg) (spr : Spr) (s : State) (h : s.Inv) : OutInv (execMfs t r rd spr s) := by
  unfold execMfs; simp (maxDischargeDepth := 99) +contextual [h]
theorem execMts_fixed (t : Nat) (r : RoomId) (spr : Spr) (ra : Reg) (s : State) : OutFixed s (execMts t r spr ra s) := by
  unfold execMts; simp
theorem execMts_inv (t : Nat) (r : RoomId) (spr : Spr) (ra : Reg) (s : State) (h : s.Inv) : OutInv (execMts t r spr ra s) := by
  unfold execMts; simp (maxDischargeDepth := 99) +contextual [h]
theorem execRdfeat_fixed (t : Nat) (r : RoomId) (rd : Reg) (feat : Fin 4) (s : State) : OutFixed s (execRdfeat t r rd feat s) := by
  unfold execRdfeat; simp
theorem execRdfeat_inv (t : Nat) (r : RoomId) (rd : Reg) (feat : Fin 4) (s : State) (h : s.Inv) : OutInv (execRdfeat t r rd feat s) := by
  unfold execRdfeat; simp (maxDischargeDepth := 99) +contextual [h]
theorem execInvalidWordFetched_fixed (t : Nat) (r : RoomId) (_word : Word) (s : State) : OutFixed s (execInvalidWordFetched t r _word s) := by
  unfold execInvalidWordFetched; simp
theorem execInvalidWordFetched_inv (t : Nat) (r : RoomId) (_word : Word) (s : State) (h : s.Inv) : OutInv (execInvalidWordFetched t r _word s) := by
  unfold execInvalidWordFetched; simp (maxDischargeDepth := 99) +contextual [h]
@[simp] theorem Room.landMac_ok (v : Room) (now : Nat) (h : v.Ok) : (Room.landMac v now).Ok := by
  unfold Room.landMac; simp (maxDischargeDepth := 99) +contextual [h]
@[simp] theorem Room.landFpu_ok (v : Room) (now : Nat) (h : v.Ok) : (Room.landFpu v now).Ok := by
  unfold Room.landFpu; simp (maxDischargeDepth := 99) +contextual [h]
@[simp] theorem Room.landDiv_ok (v : Room) (now : Nat) (h : v.Ok) : (Room.landDiv v now).Ok := by
  unfold Room.landDiv; simp (maxDischargeDepth := 99) +contextual [h]
theorem execMacResultWrite_fixed (t : Nat) (r : RoomId) (s : State) : OutFixed s (execMacResultWrite t r s) := by
  unfold execMacResultWrite; simp
theorem execMacResultWrite_inv (t : Nat) (r : RoomId) (s : State) (h : s.Inv) : OutInv (execMacResultWrite t r s) := by
  unfold execMacResultWrite; simp (maxDischargeDepth := 99) +contextual [h]
theorem execFpuResultWrite_fixed (t : Nat) (r : RoomId) (s : State) : OutFixed s (execFpuResultWrite t r s) := by
  unfold execFpuResultWrite; simp
theorem execFpuResultWrite_inv (t : Nat) (r : RoomId) (s : State) (h : s.Inv) : OutInv (execFpuResultWrite t r s) := by
  unfold execFpuResultWrite; simp (maxDischargeDepth := 99) +contextual [h]
theorem execDividerResultWrite_fixed (t : Nat) (r : RoomId) (s : State) : OutFixed s (execDividerResultWrite t r s) := by
  unfold execDividerResultWrite; simp
theorem execDividerResultWrite_inv (t : Nat) (r : RoomId) (s : State) (h : s.Inv) : OutInv (execDividerResultWrite t r s) := by
  unfold execDividerResultWrite; simp (maxDischargeDepth := 99) +contextual [h]

end Sys2Proof.Machine
end

