-- ==== Sys2Proof/Laws/KeepSpecial.lean ====
section
/-! SUPPORT. What the operations of Special.lean keep: the invariant, the queue and the fuses. -/

namespace Sys2Proof.Machine

theorem execRest_fixed (t : Nat) (r : RoomId) (s : State) : OutFixed s (execRest t r s) := by
  unfold execRest; (try simp only [outFixed_next]); apply State.lane_fixed; intro _ _ _; (try dsimp only); (repeat' split) <;> simp
theorem execRest_inv (t : Nat) (r : RoomId) (s : State) (h : s.Inv) : OutInv (execRest t r s) := by
  unfold execRest; (try simp only [outInv_next]); refine State.lane_inv _ _ _ _ _ h ?_; intro _ _ _ hv h; (try dsimp only); (repeat' split) <;> simp (maxDischargeDepth := 99) +contextual [h, hv]
theorem execWdk_fixed (t : Nat) (r : RoomId) (ra : Reg) (s : State) : OutFixed s (execWdk t r ra s) := by
  unfold execWdk; (try simp only [outFixed_next]); apply State.lane_fixed; intro _ _ _; (try dsimp only); (repeat' split) <;> simp
theorem execWdk_inv (t : Nat) (r : RoomId) (ra : Reg) (s : State) (h : s.Inv) : OutInv (execWdk t r ra s) := by
  unfold execWdk; (try simp only [outInv_next]); refine State.lane_inv _ _ _ _ _ h ?_; intro _ _ _ hv h; (try dsimp only); (repeat' split) <;> simp (maxDischargeDepth := 99) +contextual [h, hv]

end Sys2Proof.Machine
end

