-- ==== Sys2Proof/Laws/KeepField.lean ====
section
/-! SUPPORT. What the operations of Field.lean keep: the invariant, the queue and the fuses. -/

namespace Sys2Proof.Machine

@[simp] theorem State.latchChan_fixed (s : State) (n : ChanId) (rd : Group → BitVec 16) (wr : Group → BitVec 16 → Group) (off typ : Nat) (sev : BitVec 2) (ana : Bool) : (State.latchChan s n rd wr off typ sev ana).fixed = s.fixed := by
  unfold State.latchChan; simp
@[simp] theorem State.latchChan_inv (s : State) (n : ChanId) (rd : Group → BitVec 16) (wr : Group → BitVec 16 → Group) (off typ : Nat) (sev : BitVec 2) (ana : Bool) (h : s.Inv) : (State.latchChan s n rd wr off typ sev ana).Inv := by
  unfold State.latchChan; simp (maxDischargeDepth := 99) +contextual [h]
@[simp] theorem State.latchProt_fixed (s : State) (n : ChanId) : (State.latchProt s n).fixed = s.fixed := by
  unfold State.latchProt; simp
@[simp] theorem State.latchProt_inv (s : State) (n : ChanId) (h : s.Inv) : (State.latchProt s n).Inv := by
  unfold State.latchProt; simp (maxDischargeDepth := 99) +contextual [h]
@[simp] theorem State.latchOpen_fixed (s : State) (n : ChanId) : (State.latchOpen s n).fixed = s.fixed := by
  unfold State.latchOpen; simp
@[simp] theorem State.latchOpen_inv (s : State) (n : ChanId) (h : s.Inv) : (State.latchOpen s n).Inv := by
  unfold State.latchOpen; simp (maxDischargeDepth := 99) +contextual [h]
@[simp] theorem State.latchDisc_fixed (s : State) (n : ChanId) : (State.latchDisc s n).fixed = s.fixed := by
  unfold State.latchDisc; simp
@[simp] theorem State.latchDisc_inv (s : State) (n : ChanId) (h : s.Inv) : (State.latchDisc s n).Inv := by
  unfold State.latchDisc; simp (maxDischargeDepth := 99) +contextual [h]
@[simp] theorem State.latchRate_fixed (s : State) (n : ChanId) : (State.latchRate s n).fixed = s.fixed := by
  unfold State.latchRate; simp
@[simp] theorem State.latchRate_inv (s : State) (n : ChanId) (h : s.Inv) : (State.latchRate s n).Inv := by
  unfold State.latchRate; simp (maxDischargeDepth := 99) +contextual [h]
@[simp] theorem State.latchAFault_fixed (s : State) (n : ChanId) : (State.latchAFault s n).fixed = s.fixed := by
  unfold State.latchAFault; simp
@[simp] theorem State.latchAFault_inv (s : State) (n : ChanId) (h : s.Inv) : (State.latchAFault s n).Inv := by
  unfold State.latchAFault; simp (maxDischargeDepth := 99) +contextual [h]
@[simp] theorem State.latchARange_fixed (s : State) (n : ChanId) : (State.latchARange s n).fixed = s.fixed := by
  unfold State.latchARange; simp
@[simp] theorem State.latchARange_inv (s : State) (n : ChanId) (h : s.Inv) : (State.latchARange s n).Inv := by
  unfold State.latchARange; simp (maxDischargeDepth := 99) +contextual [h]
@[simp] theorem State.driveChan_fixed (s : State) (n : ChanId) (commit : Bool) : (State.driveChan s n commit).fixed = s.fixed := by
  unfold State.driveChan; (try dsimp only); (repeat' split) <;> simp
@[simp] theorem State.driveChan_inv (s : State) (n : ChanId) (commit : Bool) (h : s.Inv) : (State.driveChan s n commit).Inv := by
  unfold State.driveChan; (try dsimp only); (repeat' split) <;> simp (maxDischargeDepth := 99) +contextual [h]
@[simp] theorem State.driveGroup_fixed (s : State) (g : GrpId) : (State.driveGroup s g).fixed = s.fixed := by
  unfold State.driveGroup; simp
@[simp] theorem State.driveGroup_inv (s : State) (g : GrpId) (h : s.Inv) : (State.driveGroup s g).Inv := by
  unfold State.driveGroup; simp (maxDischargeDepth := 99) +contextual [h]
@[simp] theorem State.driveAll_fixed (s : State) : (State.driveAll s).fixed = s.fixed := by
  unfold State.driveAll; simp
@[simp] theorem State.driveAll_inv (s : State) (h : s.Inv) : (State.driveAll s).Inv := by
  unfold State.driveAll; simp (maxDischargeDepth := 99) +contextual [h]
@[simp] theorem State.releaseSupervisor_fixed (s : State) (g : GrpId) : (State.releaseSupervisor s g).fixed = s.fixed := by
  unfold State.releaseSupervisor; simp
@[simp] theorem State.releaseSupervisor_inv (s : State) (g : GrpId) (h : s.Inv) : (State.releaseSupervisor s g).Inv := by
  unfold State.releaseSupervisor; simp (maxDischargeDepth := 99) +contextual [h]
@[simp] theorem State.applySafe_fixed (s : State) (g : GrpId) : (State.applySafe s g).fixed = s.fixed := by
  unfold State.applySafe; simp
@[simp] theorem State.applySafe_inv (s : State) (g : GrpId) (h : s.Inv) : (State.applySafe s g).Inv := by
  unfold State.applySafe; simp (maxDischargeDepth := 99) +contextual [h]
@[simp] theorem State.commitChan_fixed (s : State) (n : ChanId) (w : Word) : (State.commitChan s n w).fixed = s.fixed := by
  unfold State.commitChan; (try dsimp only); (repeat' split) <;> simp
@[simp] theorem State.commitChan_inv (s : State) (n : ChanId) (w : Word) (h : s.Inv) : (State.commitChan s n w).Inv := by
  unfold State.commitChan; (try dsimp only); (repeat' split) <;> simp (maxDischargeDepth := 99) +contextual [h]

end Sys2Proof.Machine
end

