-- ==== Sys2Proof/Laws/KeepDigital.lean ====
section
/-! SUPPORT. What the operations of Digital.lean keep: the invariant, the queue and the fuses. -/

namespace Sys2Proof.Machine

@[simp] theorem State.loadGroup_fixed (s : State) (c : Conf) (g : GrpId) : (State.loadGroup s c g).fixed = s.fixed := by
  unfold State.loadGroup; simp
@[simp] theorem State.loadGroup_inv (s : State) (c : Conf) (g : GrpId) (h : s.Inv) : (State.loadGroup s c g).Inv := by
  unfold State.loadGroup; simp (maxDischargeDepth := 99) +contextual [h]
@[simp] theorem State.safeEvent_fixed (s : State) (g : GrpId) : (State.safeEvent s g).fixed = s.fixed := by
  unfold State.safeEvent; simp
@[simp] theorem State.safeEvent_inv (s : State) (g : GrpId) (h : s.Inv) : (State.safeEvent s g).Inv := by
  unfold State.safeEvent; simp (maxDischargeDepth := 99) +contextual [h]
theorem execSupervisorTimeout_fixed (t : Nat) (g : GrpId) (s : State) : OutFixed s (execSupervisorTimeout t g s) := by
  unfold execSupervisorTimeout; simp
theorem execSupervisorTimeout_inv (t : Nat) (g : GrpId) (s : State) (h : s.Inv) : OutInv (execSupervisorTimeout t g s) := by
  unfold execSupervisorTimeout; simp (maxDischargeDepth := 99) +contextual [h]
@[simp] theorem State.chooseRef_fixed (s : State) : (State.chooseRef s).fixed = s.fixed := by
  unfold State.chooseRef; (try dsimp only); (repeat' split) <;> simp
@[simp] theorem State.chooseRef_inv (s : State) (h : s.Inv) : (State.chooseRef s).Inv := by
  unfold State.chooseRef; (try dsimp only); (repeat' split) <;> simp (maxDischargeDepth := 99) +contextual [h]
theorem execLplusLost_fixed (t : Nat) (g : GrpId) (s : State) : OutFixed s (execLplusLost t g s) := by
  unfold execLplusLost; (try dsimp only); (repeat' split) <;> simp
theorem execLplusLost_inv (t : Nat) (g : GrpId) (s : State) (h : s.Inv) : OutInv (execLplusLost t g s) := by
  unfold execLplusLost; (try dsimp only); (repeat' split) <;> simp (maxDischargeDepth := 99) +contextual [h]
theorem execLplusReturn_fixed (t : Nat) (g : GrpId) (volts10mV : Nat) (s : State) : OutFixed s (execLplusReturn t g volts10mV s) := by
  unfold execLplusReturn; (try dsimp only); (repeat' split) <;> simp
theorem execLplusReturn_inv (t : Nat) (g : GrpId) (volts10mV : Nat) (s : State) (h : s.Inv) : OutInv (execLplusReturn t g volts10mV s) := by
  unfold execLplusReturn; (try dsimp only); (repeat' split) <;> simp (maxDischargeDepth := 99) +contextual [h]
theorem execGroupConfigReload_fixed (t : Nat) (g : GrpId) (s : State) : OutFixed s (execGroupConfigReload t g s) := by
  unfold execGroupConfigReload; (try dsimp only); (repeat' split) <;> simp
theorem execGroupConfigReload_inv (t : Nat) (g : GrpId) (s : State) (h : s.Inv) : OutInv (execGroupConfigReload t g s) := by
  unfold execGroupConfigReload; (try dsimp only); (repeat' split) <;> simp (maxDischargeDepth := 99) +contextual [h]
@[simp] theorem State.decideGate_fixed (s : State) (n : ChanId) (v : Bool) : (State.decideGate s n v).fixed = s.fixed := by
  unfold State.decideGate; (try dsimp only); (repeat' split) <;> first
    | (simp; done)
    | (apply foldl_fixed; intro _ _; (try dsimp only); (repeat' split) <;> simp)
@[simp] theorem State.decideGate_inv (s : State) (n : ChanId) (v : Bool) (h : s.Inv) : (State.decideGate s n v).Inv := by
  unfold State.decideGate; (try dsimp only); (repeat' split) <;> first
    | (simp (maxDischargeDepth := 99) +contextual [h]; done)
    | (refine foldl_inv _ _ _ (by simp (maxDischargeDepth := 99) +contextual [h]) ?_; intro _ _ h; (try dsimp only); (repeat' split) <;> simp (maxDischargeDepth := 99) +contextual [h])
@[simp] theorem State.takeEdge_fixed (s : State) (ch : ChanId) (e : ChanCfg) : (State.takeEdge s ch e).fixed = s.fixed := by
  unfold State.takeEdge; simp
@[simp] theorem State.takeEdge_inv (s : State) (ch : ChanId) (e : ChanCfg) (h : s.Inv) : (State.takeEdge s ch e).Inv := by
  unfold State.takeEdge; simp (maxDischargeDepth := 99) +contextual [h]
@[simp] theorem State.ripeEdge_fixed (s : State) (ch : ChanId) : (State.ripeEdge s ch).fixed = s.fixed := by
  unfold State.ripeEdge; (try dsimp only); (repeat' split) <;> simp
@[simp] theorem State.ripeEdge_inv (s : State) (ch : ChanId) (h : s.Inv) : (State.ripeEdge s ch).Inv := by
  unfold State.ripeEdge; (try dsimp only); (repeat' split) <;> simp (maxDischargeDepth := 99) +contextual [h]
theorem execInputRawChange_fixed (t : Nat) (ch : ChanId) (level : Bool) (s : State) : OutFixed s (execInputRawChange t ch level s) := by
  unfold execInputRawChange; (try dsimp only); (repeat' split) <;> simp
theorem execInputRawChange_inv (t : Nat) (ch : ChanId) (level : Bool) (s : State) (h : s.Inv) : OutInv (execInputRawChange t ch level s) := by
  unfold execInputRawChange; (try dsimp only); (repeat' split) <;> simp (maxDischargeDepth := 99) +contextual [h]
theorem execInputFilterAccept_fixed (t : Nat) (ch : ChanId) (s : State) : OutFixed s (execInputFilterAccept t ch s) := by
  unfold execInputFilterAccept; (try dsimp only); (repeat' split) <;> simp
theorem execInputFilterAccept_inv (t : Nat) (ch : ChanId) (s : State) (h : s.Inv) : OutInv (execInputFilterAccept t ch s) := by
  unfold execInputFilterAccept; (try dsimp only); (repeat' split) <;> simp (maxDischargeDepth := 99) +contextual [h]
@[simp] theorem State.setOpen_fixed (s : State) (ch : ChanId) (set : Bool) : (State.setOpen s ch set).fixed = s.fixed := by
  unfold State.setOpen; simp
@[simp] theorem State.setOpen_inv (s : State) (ch : ChanId) (set : Bool) (h : s.Inv) : (State.setOpen s ch set).Inv := by
  unfold State.setOpen; simp (maxDischargeDepth := 99) +contextual [h]
theorem execWireBreak_fixed (t : Nat) (ch : ChanId) (set : Bool) (s : State) : OutFixed s (execWireBreak t ch set s) := by
  unfold execWireBreak; (try dsimp only); (repeat' split) <;> simp
theorem execWireBreak_inv (t : Nat) (ch : ChanId) (set : Bool) (s : State) (h : s.Inv) : OutInv (execWireBreak t ch set s) := by
  unfold execWireBreak; (try dsimp only); (repeat' split) <;> simp (maxDischargeDepth := 99) +contextual [h]
theorem execCurrentLimit_fixed (t : Nat) (ch : ChanId) (on : Bool) (milliamp : Nat) (s : State) : OutFixed s (execCurrentLimit t ch on milliamp s) := by
  unfold execCurrentLimit; (try dsimp only); (repeat' split) <;> simp
theorem execCurrentLimit_inv (t : Nat) (ch : ChanId) (on : Bool) (milliamp : Nat) (s : State) (h : s.Inv) : OutInv (execCurrentLimit t ch on milliamp s) := by
  unfold execCurrentLimit; (try dsimp only); (repeat' split) <;> simp (maxDischargeDepth := 99) +contextual [h]
@[simp] theorem State.holdOff_fixed (s : State) (ch : ChanId) (cause : BitVec 3) : (State.holdOff s ch cause).fixed = s.fixed := by
  unfold State.holdOff; simp
@[simp] theorem State.holdOff_inv (s : State) (ch : ChanId) (cause : BitVec 3) (h : s.Inv) : (State.holdOff s ch cause).Inv := by
  unfold State.holdOff; simp (maxDischargeDepth := 99) +contextual [h]
theorem execShortCircuit_fixed (t : Nat) (ch : ChanId) (thermal : Bool) (s : State) : OutFixed s (execShortCircuit t ch thermal s) := by
  unfold execShortCircuit; (try dsimp only); (repeat' split) <;> simp
theorem execShortCircuit_inv (t : Nat) (ch : ChanId) (thermal : Bool) (s : State) (h : s.Inv) : OutInv (execShortCircuit t ch thermal s) := by
  unfold execShortCircuit; (try dsimp only); (repeat' split) <;> simp (maxDischargeDepth := 99) +contextual [h]
theorem execGroupOvercurrent_fixed (t : Nat) (g : GrpId) (milliamps : List Nat) (s : State) : OutFixed s (execGroupOvercurrent t g milliamps s) := by
  unfold execGroupOvercurrent; dsimp only; split
  · simp only [outFixed_next]
    refine (foldl_fixed _ _ _ ?_).trans (by simp)
    intro _ _; (repeat' split) <;> simp
  · simp
theorem execGroupOvercurrent_inv (t : Nat) (g : GrpId) (milliamps : List Nat) (s : State) (h : s.Inv) : OutInv (execGroupOvercurrent t g milliamps s) := by
  unfold execGroupOvercurrent; dsimp only; split
  · simp only [outInv_next]
    refine foldl_inv _ _ _ (by simp (maxDischargeDepth := 99) +contextual [h]) ?_
    intro _ _ h; (repeat' split) <;> simp (maxDischargeDepth := 99) +contextual [h]
  · simp [h]
theorem execDemagEnergyMeasured_fixed (t : Nat) (ch : ChanId) (millijoule : Nat) (s : State) : OutFixed s (execDemagEnergyMeasured t ch millijoule s) := by
  unfold execDemagEnergyMeasured; (try dsimp only); (repeat' split) <;> simp
theorem execDemagEnergyMeasured_inv (t : Nat) (ch : ChanId) (millijoule : Nat) (s : State) (h : s.Inv) : OutInv (execDemagEnergyMeasured t ch millijoule s) := by
  unfold execDemagEnergyMeasured; (try dsimp only); (repeat' split) <;> simp (maxDischargeDepth := 99) +contextual [h]
theorem execRateHoldEnd_fixed (t : Nat) (ch : ChanId) (s : State) : OutFixed s (execRateHoldEnd t ch s) := by
  unfold execRateHoldEnd; (try dsimp only); (repeat' split) <;> simp
theorem execRateHoldEnd_inv (t : Nat) (ch : ChanId) (s : State) (h : s.Inv) : OutInv (execRateHoldEnd t ch s) := by
  unfold execRateHoldEnd; (try dsimp only); (repeat' split) <;> simp (maxDischargeDepth := 99) +contextual [h]
theorem execReadbackDiscrepancy_fixed (t : Nat) (ch : ChanId) (set : Bool) (s : State) : OutFixed s (execReadbackDiscrepancy t ch set s) := by
  unfold execReadbackDiscrepancy; (try dsimp only); (repeat' split) <;> simp
theorem execReadbackDiscrepancy_inv (t : Nat) (ch : ChanId) (set : Bool) (s : State) (h : s.Inv) : OutInv (execReadbackDiscrepancy t ch set s) := by
  unfold execReadbackDiscrepancy; (try dsimp only); (repeat' split) <;> simp (maxDischargeDepth := 99) +contextual [h]
theorem execOpenLoad_fixed (t : Nat) (ch : ChanId) (set : Bool) (s : State) : OutFixed s (execOpenLoad t ch set s) := by
  unfold execOpenLoad; (try dsimp only); (repeat' split) <;> simp
theorem execOpenLoad_inv (t : Nat) (ch : ChanId) (set : Bool) (s : State) (h : s.Inv) : OutInv (execOpenLoad t ch set s) := by
  unfold execOpenLoad; (try dsimp only); (repeat' split) <;> simp (maxDischargeDepth := 99) +contextual [h]
theorem execOutputCommitApply_fixed (t : Nat) (g : GrpId) (s : State) : OutFixed s (execOutputCommitApply t g s) := by
  unfold execOutputCommitApply; dsimp only; split
  · simp
  · simp only [outFixed_next]
    refine (State.releaseSupervisor_fixed _ _).trans ((foldl_fixed _ _ _ ?_).trans (by simp))
    intro _ _; (repeat' split) <;> simp
theorem execOutputCommitApply_inv (t : Nat) (g : GrpId) (s : State) (h : s.Inv) : OutInv (execOutputCommitApply t g s) := by
  unfold execOutputCommitApply; dsimp only; split
  · simp [h]
  · simp only [outInv_next]
    apply State.releaseSupervisor_inv
    refine foldl_inv _ _ _ (by simp (maxDischargeDepth := 99) +contextual [h]) ?_
    intro _ _ h; (repeat' split) <;> simp (maxDischargeDepth := 99) +contextual [h]

end Sys2Proof.Machine
end

