-- ==== Sys2Proof/Laws/KeepAnalogue.lean ====
section
/-! SUPPORT. What the operations of Analogue.lean keep: the invariant, the queue and the fuses. -/

namespace Sys2Proof.Machine

@[simp] theorem State.takeSample_fixed (s : State) (z : Sample) (stamp : Nat) (bySpare : Bool) : (State.takeSample s z stamp bySpare).fixed = s.fixed := by
  unfold State.takeSample; (try dsimp only); (repeat' split) <;> simp
@[simp] theorem State.takeSample_inv (s : State) (z : Sample) (stamp : Nat) (bySpare : Bool) (h : s.Inv) : (State.takeSample s z stamp bySpare).Inv := by
  unfold State.takeSample; (try dsimp only); (repeat' split) <;> simp (maxDischargeDepth := 99) +contextual [h]
@[simp] theorem State.staleGroup_fixed (s : State) (g : GrpId) : (State.staleGroup s g).fixed = s.fixed := by
  unfold State.staleGroup; simp
@[simp] theorem State.staleGroup_inv (s : State) (g : GrpId) (h : s.Inv) : (State.staleGroup s g).Inv := by
  unfold State.staleGroup; simp (maxDischargeDepth := 99) +contextual [h]
@[simp] theorem State.engineRecord_fixed (s : State) (g : GrpId) (sev : BitVec 2) : (State.engineRecord s g sev).fixed = s.fixed := by
  unfold State.engineRecord; simp
@[simp] theorem State.engineRecord_inv (s : State) (g : GrpId) (sev : BitVec 2) (h : s.Inv) : (State.engineRecord s g sev).Inv := by
  unfold State.engineRecord; simp (maxDischargeDepth := 99) +contextual [h]
@[simp] theorem State.assignSpare_fixed (s : State) (g : GrpId) (d : Nat) : (State.assignSpare s g d).1.fixed = s.fixed := by
  unfold State.assignSpare; (try dsimp only); (repeat' split) <;> simp
@[simp] theorem State.assignSpare_inv (s : State) (g : GrpId) (d : Nat) (h : s.Inv) : (State.assignSpare s g d).1.Inv := by
  unfold State.assignSpare; (try dsimp only); (repeat' split) <;> simp (maxDischargeDepth := 99) +contextual [h]
@[simp] theorem State.engineFailed_fixed (s : State) (g : GrpId) (d : Nat) : (State.engineFailed s g d).fixed = s.fixed := by
  unfold State.engineFailed; simp
@[simp] theorem State.engineFailed_inv (s : State) (g : GrpId) (d : Nat) (h : s.Inv) : (State.engineFailed s g d).Inv := by
  unfold State.engineFailed; simp (maxDischargeDepth := 99) +contextual [h]
@[simp] theorem State.spareFailed_fixed (s : State) (g : GrpId) : (State.spareFailed s g).fixed = s.fixed := by
  unfold State.spareFailed; simp
@[simp] theorem State.spareFailed_inv (s : State) (g : GrpId) (h : s.Inv) : (State.spareFailed s g).Inv := by
  unfold State.spareFailed; simp (maxDischargeDepth := 99) +contextual [h]
@[simp] theorem State.coldItem_fixed (s : State) (g : GrpId) (temp : Option Int) : (State.coldItem s g temp).fixed = s.fixed := by
  unfold State.coldItem; (try dsimp only); (repeat' split) <;> simp
@[simp] theorem State.coldItem_inv (s : State) (g : GrpId) (temp : Option Int) (h : s.Inv) : (State.coldItem s g temp).Inv := by
  unfold State.coldItem; (try dsimp only); (repeat' split) <;> simp (maxDischargeDepth := 99) +contextual [h]
@[simp] theorem State.setFlags_fixed (s : State) (n : ChanId) (f : Chan → Chan) : (State.setFlags s n f).fixed = s.fixed := by
  unfold State.setFlags; simp
@[simp] theorem State.setFlags_inv (s : State) (n : ChanId) (f : Chan → Chan) (h : s.Inv) : (State.setFlags s n f).Inv := by
  unfold State.setFlags; simp (maxDischargeDepth := 99) +contextual [h]
@[simp] theorem State.burnoutItem_fixed (s : State) (g : GrpId) (isOpen : Bool) : (State.burnoutItem s g isOpen).fixed = s.fixed := by
  unfold State.burnoutItem; (try dsimp only); (repeat' split) <;> simp
@[simp] theorem State.burnoutItem_inv (s : State) (g : GrpId) (isOpen : Bool) (h : s.Inv) : (State.burnoutItem s g isOpen).Inv := by
  unfold State.burnoutItem; (try dsimp only); (repeat' split) <;> simp (maxDischargeDepth := 99) +contextual [h]
@[simp] theorem State.supplyItem_fixed (s : State) (g : GrpId) : (State.supplyItem s g).fixed = s.fixed := by
  unfold State.supplyItem; simp
@[simp] theorem State.supplyItem_inv (s : State) (g : GrpId) (h : s.Inv) : (State.supplyItem s g).Inv := by
  unfold State.supplyItem; simp (maxDischargeDepth := 99) +contextual [h]
@[simp] theorem State.spareDelivers_fixed (s : State) (g : GrpId) : (State.spareDelivers s g).fixed = s.fixed := by
  unfold State.spareDelivers; simp
@[simp] theorem State.spareDelivers_inv (s : State) (g : GrpId) (h : s.Inv) : (State.spareDelivers s g).Inv := by
  unfold State.spareDelivers; simp (maxDischargeDepth := 99) +contextual [h]
@[simp] theorem State.passSamples_fixed (s : State) (g : GrpId) (f : EngineFrame) (start : Nat) : (State.passSamples s g f start).fixed = s.fixed := by
  unfold State.passSamples; simp
@[simp] theorem State.passSamples_inv (s : State) (g : GrpId) (f : EngineFrame) (start : Nat) (h : s.Inv) : (State.passSamples s g f start).Inv := by
  unfold State.passSamples; simp (maxDischargeDepth := 99) +contextual [h]
@[simp] theorem State.idleSpareFrame_fixed (s : State) (f : EngineFrame) : (State.idleSpareFrame s f).fixed = s.fixed := by
  unfold State.idleSpareFrame; simp
@[simp] theorem State.idleSpareFrame_inv (s : State) (f : EngineFrame) (h : s.Inv) : (State.idleSpareFrame s f).Inv := by
  unfold State.idleSpareFrame; simp (maxDischargeDepth := 99) +contextual [h]
@[simp] theorem State.frameItem_fixed (s : State) (g : GrpId) (f : EngineFrame) (start : Nat) : (State.frameItem s g f start).fixed = s.fixed := by
  unfold State.frameItem; simp
@[simp] theorem State.frameItem_inv (s : State) (g : GrpId) (f : EngineFrame) (start : Nat) (h : s.Inv) : (State.frameItem s g f start).Inv := by
  unfold State.frameItem; simp (maxDischargeDepth := 99) +contextual [h]
theorem execEngineFrame_fixed (t : Nat) (g : GrpId) (f : EngineFrame) (s : State) : OutFixed s (execEngineFrame t g f s) := by
  unfold execEngineFrame; simp
theorem execEngineFrame_inv (t : Nat) (g : GrpId) (f : EngineFrame) (s : State) (h : s.Inv) : OutInv (execEngineFrame t g f s) := by
  unfold execEngineFrame
  have h1 := State.at_inv s t h
  generalize s.at t = u at h1 ⊢
  cases hb : f.bySpare <;> simp (maxDischargeDepth := 99) +contextual [h1]
theorem execSpareConnect_fixed (t : Nat) (s : State) : OutFixed s (execSpareConnect t s) := by
  unfold execSpareConnect; (try dsimp only); (repeat' split) <;> simp
theorem execSpareConnect_inv (t : Nat) (s : State) (h : s.Inv) : OutInv (execSpareConnect t s) := by
  unfold execSpareConnect; (try dsimp only); (repeat' split) <;> simp (maxDischargeDepth := 99) +contextual [h]
theorem execSpareScheduleStart_fixed (t : Nat) (s : State) : OutFixed s (execSpareScheduleStart t s) := by
  unfold execSpareScheduleStart; (try dsimp only); (repeat' split) <;> simp
theorem execSpareScheduleStart_inv (t : Nat) (s : State) (h : s.Inv) : OutInv (execSpareScheduleStart t s) := by
  unfold execSpareScheduleStart; (try dsimp only); (repeat' split) <;> simp (maxDischargeDepth := 99) +contextual [h]
theorem execAnalogueInputFlag_fixed (t : Nat) (ch : ChanId) (flag : AFlag) (set : Bool) (s : State) : OutFixed s (execAnalogueInputFlag t ch flag set s) := by
  unfold execAnalogueInputFlag; (try dsimp only); (repeat' split) <;> simp
theorem execAnalogueInputFlag_inv (t : Nat) (ch : ChanId) (flag : AFlag) (set : Bool) (s : State) (h : s.Inv) : OutInv (execAnalogueInputFlag t ch flag set s) := by
  unfold execAnalogueInputFlag; (try dsimp only); (repeat' split) <;> simp (maxDischargeDepth := 99) +contextual [h]
theorem execAnalogueOutputFault_fixed (t : Nat) (ch : ChanId) (flag : AFlag) (set : Bool) (s : State) : OutFixed s (execAnalogueOutputFault t ch flag set s) := by
  unfold execAnalogueOutputFault; (try dsimp only); (repeat' split) <;> simp
theorem execAnalogueOutputFault_inv (t : Nat) (ch : ChanId) (flag : AFlag) (set : Bool) (s : State) (h : s.Inv) : OutInv (execAnalogueOutputFault t ch flag set s) := by
  unfold execAnalogueOutputFault; (try dsimp only); (repeat' split) <;> simp (maxDischargeDepth := 99) +contextual [h]
@[simp] theorem State.takePoint_fixed (s : State) (ref : CmdRef) (e : CmdEntry) (high : Bool) (mean : Int) : (State.takePoint s ref e high mean).fixed = s.fixed := by
  unfold State.takePoint; (try dsimp only); (repeat' split) <;> simp
@[simp] theorem State.takePoint_inv (s : State) (ref : CmdRef) (e : CmdEntry) (high : Bool) (mean : Int) (h : s.Inv) : (State.takePoint s ref e high mean).Inv := by
  unfold State.takePoint; (try dsimp only); (repeat' split) <;> simp (maxDischargeDepth := 99) +contextual [h]
theorem execCalibrationLowPoint_fixed (t : Nat) (c : RingId) (e : CmdEntry) (mean : Int) (ok : Bool) (s : State) : OutFixed s (execCalibrationLowPoint t c e mean ok s) := by
  unfold execCalibrationLowPoint; simp
theorem execCalibrationLowPoint_inv (t : Nat) (c : RingId) (e : CmdEntry) (mean : Int) (ok : Bool) (s : State) (h : s.Inv) : OutInv (execCalibrationLowPoint t c e mean ok s) := by
  unfold execCalibrationLowPoint; simp (maxDischargeDepth := 99) +contextual [h]
theorem execCalibrationHighPoint_fixed (t : Nat) (c : RingId) (e : CmdEntry) (mean : Int) (ok : Bool) (s : State) : OutFixed s (execCalibrationHighPoint t c e mean ok s) := by
  unfold execCalibrationHighPoint; simp
theorem execCalibrationHighPoint_inv (t : Nat) (c : RingId) (e : CmdEntry) (mean : Int) (ok : Bool) (s : State) (h : s.Inv) : OutInv (execCalibrationHighPoint t c e mean ok s) := by
  unfold execCalibrationHighPoint; simp (maxDischargeDepth := 99) +contextual [h]
@[simp] theorem State.storeTrim_fixed (s : State) (ref : CmdRef) (n : ChanId) (g o : Int) (points : Bool) : (State.storeTrim s ref n g o points).fixed = s.fixed := by
  unfold State.storeTrim; simp
@[simp] theorem State.storeTrim_inv (s : State) (ref : CmdRef) (n : ChanId) (g o : Int) (points : Bool) (h : s.Inv) : (State.storeTrim s ref n g o points).Inv := by
  unfold State.storeTrim; simp (maxDischargeDepth := 99) +contextual [h]
theorem execCalibrationStore_fixed (t : Nat) (c : RingId) (e : CmdEntry) (s : State) : OutFixed s (execCalibrationStore t c e s) := by
  unfold execCalibrationStore; (try simp only [outFixed_next]); apply State.command_fixed; intro _ _; (try dsimp only); (repeat' split) <;> simp
theorem execCalibrationStore_inv (t : Nat) (c : RingId) (e : CmdEntry) (s : State) (h : s.Inv) : OutInv (execCalibrationStore t c e s) := by
  unfold execCalibrationStore; (try simp only [outInv_next]); refine State.command_inv _ _ _ _ _ _ _ h ?_; intro _ _ h; (try dsimp only); (repeat' split) <;> simp (maxDischargeDepth := 99) +contextual [h]
theorem execCalibrationDiscard_fixed (t : Nat) (c : RingId) (e : CmdEntry) (s : State) : OutFixed s (execCalibrationDiscard t c e s) := by
  unfold execCalibrationDiscard; (try simp only [outFixed_next]); apply State.command_fixed; intro _ _; (try dsimp only); (repeat' split) <;> simp
theorem execCalibrationDiscard_inv (t : Nat) (c : RingId) (e : CmdEntry) (s : State) (h : s.Inv) : OutInv (execCalibrationDiscard t c e s) := by
  unfold execCalibrationDiscard; (try simp only [outInv_next]); refine State.command_inv _ _ _ _ _ _ _ h ?_; intro _ _ h; (try dsimp only); (repeat' split) <;> simp (maxDischargeDepth := 99) +contextual [h]
theorem execFactoryCalibration_fixed (t : Nat) (c : RingId) (e : CmdEntry) (s : State) : OutFixed s (execFactoryCalibration t c e s) := by
  unfold execFactoryCalibration; (try simp only [outFixed_next]); apply State.command_fixed; intro _ _; (try dsimp only); (repeat' split) <;> simp
theorem execFactoryCalibration_inv (t : Nat) (c : RingId) (e : CmdEntry) (s : State) (h : s.Inv) : OutInv (execFactoryCalibration t c e s) := by
  unfold execFactoryCalibration; (try simp only [outInv_next]); refine State.command_inv _ _ _ _ _ _ _ h ?_; intro _ _ h; (try dsimp only); (repeat' split) <;> simp (maxDischargeDepth := 99) +contextual [h]
@[simp] theorem State.loadTrims_fixed (s : State) : (State.loadTrims s).fixed = s.fixed := by
  unfold State.loadTrims; simp
@[simp] theorem State.loadTrims_inv (s : State) (h : s.Inv) : (State.loadTrims s).Inv := by
  unfold State.loadTrims; simp (maxDischargeDepth := 99) +contextual [h]
@[simp] theorem State.trimStored_fixed (s : State) (ref : CmdRef) (n : ChanId) (result : List Byte) (points : Bool) : (State.trimStored s ref n result points).fixed = s.fixed := by
  unfold State.trimStored; simp
@[simp] theorem State.trimStored_inv (s : State) (ref : CmdRef) (n : ChanId) (result : List Byte) (points : Bool) (h : s.Inv) : (State.trimStored s ref n result points).Inv := by
  unfold State.trimStored; simp (maxDischargeDepth := 99) +contextual [h]
theorem execSpareEngineReturn_fixed (t : Nat) (c : RingId) (e : CmdEntry) (s : State) : OutFixed s (execSpareEngineReturn t c e s) := by
  unfold execSpareEngineReturn; (try dsimp only); (repeat' split) <;> simp
theorem execSpareEngineReturn_inv (t : Nat) (c : RingId) (e : CmdEntry) (s : State) (h : s.Inv) : OutInv (execSpareEngineReturn t c e s) := by
  unfold execSpareEngineReturn; (try dsimp only); (repeat' split) <;> simp (maxDischargeDepth := 99) +contextual [h]

end Sys2Proof.Machine
end

