-- ==== Sys2Proof/Laws/KeepReset.lean ====
section
/-! SUPPORT. What the operations of Reset.lean keep: the invariant, the queue and the fuses. -/

namespace Sys2Proof.Machine

@[simp] theorem State.withholdAll_fixed (s : State) : (State.withholdAll s).fixed = s.fixed := by
  unfold State.withholdAll; simp
@[simp] theorem State.withholdAll_inv (s : State) (h : s.Inv) : (State.withholdAll s).Inv := by
  unfold State.withholdAll; simp (maxDischargeDepth := 99) +contextual [h]
@[simp] theorem State.resetSupervisors_fixed (s : State) : (State.resetSupervisors s).fixed = s.fixed := by
  unfold State.resetSupervisors; simp
@[simp] theorem State.resetSupervisors_inv (s : State) (h : s.Inv) : (State.resetSupervisors s).Inv := by
  unfold State.resetSupervisors; simp (maxDischargeDepth := 99) +contextual [h]
@[simp] theorem State.clear_fixed (s : State) (power : Bool) : (State.clear s power).fixed = s.fixed := by
  unfold State.clear; simp
@[simp] theorem State.clear_inv (s : State) (power : Bool) (h : s.Inv) : (State.clear s power).Inv := by
  unfold State.clear; simp (maxDischargeDepth := 99) +contextual [h]
@[simp] theorem State.enterReset_fixed (s : State) (cause : BitVec 8) : (State.enterReset s cause).fixed = s.fixed := by
  unfold State.enterReset; simp
@[simp] theorem State.enterReset_inv (s : State) (cause : BitVec 8) (h : s.Inv) : (State.enterReset s cause).Inv := by
  unfold State.enterReset; simp (maxDischargeDepth := 99) +contextual [h]
@[simp] theorem State.powerDown_fixed (s : State) : (State.powerDown s).fixed = s.fixed := by
  unfold State.powerDown; simp
@[simp] theorem State.powerDown_inv (s : State) (h : s.Inv) : (State.powerDown s).Inv := by
  unfold State.powerDown; simp (maxDischargeDepth := 99) +contextual [h]
theorem execDriverReset_fixed (t : Nat) (val : Word) (s : State) : OutFixed s (execDriverReset t val s) := by
  unfold execDriverReset; simp
theorem execDriverReset_inv (t : Nat) (val : Word) (s : State) (h : s.Inv) : OutInv (execDriverReset t val s) := by
  unfold execDriverReset; (try dsimp only); (repeat' split) <;> first
    | (simp (maxDischargeDepth := 99) +contextual [h]; done)
    | (refine foldl_inv _ _ _ (by simp (maxDischargeDepth := 99) +contextual [h]) ?_; intro _ _ h; (try dsimp only); (repeat' split) <;> simp (maxDischargeDepth := 99) +contextual [h])
theorem execFaultResetEntry_fixed (t : Nat) (s : State) : OutFixed s (execFaultResetEntry t s) := by
  unfold execFaultResetEntry; (try dsimp only); (repeat' split) <;> simp
theorem execFaultResetEntry_inv (t : Nat) (s : State) (h : s.Inv) : OutInv (execFaultResetEntry t s) := by
  unfold execFaultResetEntry; (try dsimp only); (repeat' split) <;> first
    | (simp (maxDischargeDepth := 99) +contextual [h]; done)
    | (refine foldl_inv _ _ _ (by simp (maxDischargeDepth := 99) +contextual [h]) ?_; intro _ _ h; (try dsimp only); (repeat' split) <;> simp (maxDischargeDepth := 99) +contextual [h])
theorem execNpResetEntry_fixed (t : Nat) (s : State) : OutFixed s (execNpResetEntry t s) := by
  unfold execNpResetEntry; (try dsimp only); (repeat' split) <;> simp
theorem execNpResetEntry_inv (t : Nat) (s : State) (h : s.Inv) : OutInv (execNpResetEntry t s) := by
  unfold execNpResetEntry; (try dsimp only); (repeat' split) <;> first
    | (simp (maxDischargeDepth := 99) +contextual [h]; done)
    | (refine foldl_inv _ _ _ (by simp (maxDischargeDepth := 99) +contextual [h]) ?_; intro _ _ h; (try dsimp only); (repeat' split) <;> simp (maxDischargeDepth := 99) +contextual [h])
@[simp] theorem State.abandon_fixed (s : State) : (State.abandon s).fixed = s.fixed := by
  unfold State.abandon; simp
@[simp] theorem State.abandon_inv (s : State) (h : s.Inv) : (State.abandon s).Inv := by
  unfold State.abandon; simp (maxDischargeDepth := 99) +contextual [h]
theorem execVsupFail_fixed (t : Nat) (s : State) : OutFixed s (execVsupFail t s) := by
  unfold execVsupFail; (try dsimp only); (repeat' split) <;> simp
theorem execVsupFail_inv (t : Nat) (s : State) (h : s.Inv) : OutInv (execVsupFail t s) := by
  unfold execVsupFail; (try dsimp only); (repeat' split) <;> first
    | (simp (maxDischargeDepth := 99) +contextual [h]; done)
    | (refine foldl_inv _ _ _ (by simp (maxDischargeDepth := 99) +contextual [h]) ?_; intro _ _ h; (try dsimp only); (repeat' split) <;> simp (maxDischargeDepth := 99) +contextual [h])
theorem execVsupValid_fixed (t : Nat) (s : State) : OutFixed s (execVsupValid t s) := by
  unfold execVsupValid; (try dsimp only); (repeat' split) <;> simp
theorem execVsupValid_inv (t : Nat) (s : State) (h : s.Inv) : OutInv (execVsupValid t s) := by
  unfold execVsupValid; (try dsimp only); (repeat' split) <;> first
    | (simp (maxDischargeDepth := 99) +contextual [h]; done)
    | (refine foldl_inv _ _ _ (by simp (maxDischargeDepth := 99) +contextual [h]) ?_; intro _ _ h; (try dsimp only); (repeat' split) <;> simp (maxDischargeDepth := 99) +contextual [h])
theorem execHoldUpExhausted_fixed (t : Nat) (s : State) : OutFixed s (execHoldUpExhausted t s) := by
  unfold execHoldUpExhausted; simp
theorem execHoldUpExhausted_inv (t : Nat) (s : State) (h : s.Inv) : OutInv (execHoldUpExhausted t s) := by
  unfold execHoldUpExhausted; (repeat' split) <;> simp_all
theorem execHoldUpCharged_fixed (t : Nat) (s : State) : OutFixed s (execHoldUpCharged t s) := by
  unfold execHoldUpCharged; (try dsimp only); (repeat' split) <;> simp
theorem execHoldUpCharged_inv (t : Nat) (s : State) (h : s.Inv) : OutInv (execHoldUpCharged t s) := by
  unfold execHoldUpCharged; (try dsimp only); (repeat' split) <;> simp (maxDischargeDepth := 99) +contextual [h]
theorem execPowerFailResetEntry_fixed (t : Nat) (s : State) : OutFixed s (execPowerFailResetEntry t s) := by
  unfold execPowerFailResetEntry; (try dsimp only); (repeat' split) <;> simp
theorem execPowerFailResetEntry_inv (t : Nat) (s : State) (h : s.Inv) : OutInv (execPowerFailResetEntry t s) := by
  unfold execPowerFailResetEntry; (try dsimp only); (repeat' split) <;> first
    | (simp (maxDischargeDepth := 99) +contextual [h]; done)
    | (refine foldl_inv _ _ _ (by simp (maxDischargeDepth := 99) +contextual [h]) ?_; intro _ _ h; (try dsimp only); (repeat' split) <;> simp (maxDischargeDepth := 99) +contextual [h])
theorem execResetNAssert_fixed (t : Nat) (s : State) : OutFixed s (execResetNAssert t s) := by
  unfold execResetNAssert; (try dsimp only); (repeat' split) <;> simp
theorem execResetNAssert_inv (t : Nat) (s : State) (h : s.Inv) : OutInv (execResetNAssert t s) := by
  unfold execResetNAssert; (try dsimp only); (repeat' split) <;> first
    | (simp (maxDischargeDepth := 99) +contextual [h]; done)
    | (refine foldl_inv _ _ _ (by simp (maxDischargeDepth := 99) +contextual [h]) ?_; intro _ _ h; (try dsimp only); (repeat' split) <;> simp (maxDischargeDepth := 99) +contextual [h])
theorem execResetNDeassert_fixed (t : Nat) (s : State) : OutFixed s (execResetNDeassert t s) := by
  unfold execResetNDeassert; (try dsimp only); (repeat' split) <;> simp
theorem execResetNDeassert_inv (t : Nat) (s : State) (h : s.Inv) : OutInv (execResetNDeassert t s) := by
  unfold execResetNDeassert; (try dsimp only); (repeat' split) <;> simp (maxDischargeDepth := 99) +contextual [h]
theorem execPllLock_fixed (t : Nat) (s : State) : OutFixed s (execPllLock t s) := by
  unfold execPllLock; (try dsimp only); (repeat' split) <;> simp
theorem execPllLock_inv (t : Nat) (s : State) (h : s.Inv) : OutInv (execPllLock t s) := by
  unfold execPllLock; (try dsimp only); (repeat' split) <;> simp (maxDischargeDepth := 99) +contextual [h]
@[simp] theorem State.endpointReset_fixed (s : State) : (State.endpointReset s).fixed = s.fixed := by
  unfold State.endpointReset; simp
@[simp] theorem State.endpointReset_inv (s : State) (h : s.Inv) : (State.endpointReset s).Inv := by
  unfold State.endpointReset; simp (maxDischargeDepth := 99) +contextual [h]
theorem execPerstNAssert_fixed (t : Nat) (s : State) : OutFixed s (execPerstNAssert t s) := by
  unfold execPerstNAssert; (try dsimp only); (repeat' split) <;> simp
theorem execPerstNAssert_inv (t : Nat) (s : State) (h : s.Inv) : OutInv (execPerstNAssert t s) := by
  unfold execPerstNAssert; simp (maxDischargeDepth := 99) +contextual [h]
theorem execPerstNDeassert_fixed (t : Nat) (s : State) : OutFixed s (execPerstNDeassert t s) := by
  unfold execPerstNDeassert; simp
theorem execPerstNDeassert_inv (t : Nat) (s : State) (h : s.Inv) : OutInv (execPerstNDeassert t s) := by
  unfold execPerstNDeassert; simp (maxDischargeDepth := 99) +contextual [h]
theorem execTemperatureMeasure_fixed (t : Nat) (centi : Int) (s : State) : OutFixed s (execTemperatureMeasure t centi s) := by
  unfold execTemperatureMeasure; (try dsimp only); (repeat' split) <;> simp
theorem execTemperatureMeasure_inv (t : Nat) (centi : Int) (s : State) (h : s.Inv) : OutInv (execTemperatureMeasure t centi s) := by
  unfold execTemperatureMeasure; (try dsimp only); (repeat' split) <;> simp (maxDischargeDepth := 99) +contextual [h]
@[simp] theorem State.clockFault_fixed (s : State) (cause : BitVec 8) : (State.clockFault s cause).fixed = s.fixed := by
  unfold State.clockFault; simp
@[simp] theorem State.clockFault_inv (s : State) (cause : BitVec 8) (h : s.Inv) : (State.clockFault s cause).Inv := by
  unfold State.clockFault; (try dsimp only); (repeat' split) <;> first
    | (simp (maxDischargeDepth := 99) +contextual [h]; done)
    | (refine foldl_inv _ _ _ (by simp (maxDischargeDepth := 99) +contextual [h]) ?_; intro _ _ h; (try dsimp only); (repeat' split) <;> simp (maxDischargeDepth := 99) +contextual [h])
theorem execClockMonitorWindow_fixed (t : Nat) (count : Nat) (s : State) : OutFixed s (execClockMonitorWindow t count s) := by
  unfold execClockMonitorWindow; (try dsimp only); (repeat' split) <;> simp
theorem execClockMonitorWindow_inv (t : Nat) (count : Nat) (s : State) (h : s.Inv) : OutInv (execClockMonitorWindow t count s) := by
  unfold execClockMonitorWindow; (try dsimp only); (repeat' split) <;> simp (maxDischargeDepth := 99) +contextual [h]
theorem execClockJudgementTimeout_fixed (t : Nat) (s : State) : OutFixed s (execClockJudgementTimeout t s) := by
  unfold execClockJudgementTimeout; (try dsimp only); (repeat' split) <;> simp
theorem execClockJudgementTimeout_inv (t : Nat) (s : State) (h : s.Inv) : OutInv (execClockJudgementTimeout t s) := by
  unfold execClockJudgementTimeout; (try dsimp only); (repeat' split) <;> simp (maxDischargeDepth := 99) +contextual [h]
theorem execPllLossOfLock_fixed (t : Nat) (s : State) : OutFixed s (execPllLossOfLock t s) := by
  unfold execPllLossOfLock; (try dsimp only); (repeat' split) <;> simp
theorem execPllLossOfLock_inv (t : Nat) (s : State) (h : s.Inv) : OutInv (execPllLossOfLock t s) := by
  unfold execPllLossOfLock; (try dsimp only); (repeat' split) <;> simp (maxDischargeDepth := 99) +contextual [h]
theorem execRtcOscillatorStopped_fixed (t : Nat) (s : State) : OutFixed s (execRtcOscillatorStopped t s) := by
  unfold execRtcOscillatorStopped; (try dsimp only); (repeat' split) <;> simp
theorem execRtcOscillatorStopped_inv (t : Nat) (s : State) (h : s.Inv) : OutInv (execRtcOscillatorStopped t s) := by
  unfold execRtcOscillatorStopped; (try dsimp only); (repeat' split) <;> simp (maxDischargeDepth := 99) +contextual [h]
theorem execReferenceAppears_fixed (t : Nat) (s : State) : OutFixed s (execReferenceAppears t s) := by
  unfold execReferenceAppears; (try dsimp only); (repeat' split) <;> simp
theorem execReferenceAppears_inv (t : Nat) (s : State) (h : s.Inv) : OutInv (execReferenceAppears t s) := by
  unfold execReferenceAppears; (try dsimp only); (repeat' split) <;> simp (maxDischargeDepth := 99) +contextual [h]
@[simp] theorem Sec.setState_fuses (c : Sec) (slot : Bool) (x : SlotSt) : (Sec.setState c slot x).fuses = c.fuses := by
  unfold Sec.setState; simp
@[simp] theorem Sec.candidates_fuses (c : Sec) : (Sec.candidates c).1.fuses = c.fuses := by
  unfold Sec.candidates; (try dsimp only); (repeat' split) <;> simp
@[simp] theorem Sec.boot_fuses (c : Sec) : (Sec.boot c).1.fuses = c.fuses := by
  unfold Sec.boot; (try dsimp only); (repeat' split) <;> simp
@[simp] theorem State.setPref_fixed (s : State) (pin : Bool) : (State.setPref s pin).fixed = s.fixed := by
  unfold State.setPref; simp
@[simp] theorem State.setPref_inv (s : State) (pin : Bool) (h : s.Inv) : (State.setPref s pin).Inv := by
  unfold State.setPref; simp (maxDischargeDepth := 99) +contextual [h]
theorem execResetExit_fixed (t : Nat) (s : State) : OutFixed s (execResetExit t s) := by
  unfold execResetExit; (try dsimp only); (repeat' split) <;> simp
theorem execResetExit_inv (t : Nat) (s : State) (h : s.Inv) : OutInv (execResetExit t s) := by
  unfold execResetExit; (try dsimp only); (repeat' split) <;> simp (maxDischargeDepth := 99) +contextual [h]
@[simp] theorem State.reloadEvidence_fixed (s : State) : (State.reloadEvidence s).fixed = s.fixed := by
  unfold State.reloadEvidence; (try dsimp only); (repeat' split) <;> simp
@[simp] theorem State.reloadEvidence_inv (s : State) (h : s.Inv) : (State.reloadEvidence s).Inv := by
  unfold State.reloadEvidence; (try dsimp only); (repeat' split) <;> simp (maxDischargeDepth := 99) +contextual [h]
@[simp] theorem State.latchLost_fixed (s : State) : (State.latchLost s).fixed = s.fixed := by
  unfold State.latchLost; simp
@[simp] theorem State.latchLost_inv (s : State) (h : s.Inv) : (State.latchLost s).Inv := by
  unfold State.latchLost; simp (maxDischargeDepth := 99) +contextual [h]
@[simp] theorem State.scanBook_fixed (s : State) : (State.scanBook s).fixed = s.fixed := by
  unfold State.scanBook; simp
@[simp] theorem State.scanBook_inv (s : State) (h : s.Inv) : (State.scanBook s).Inv := by
  unfold State.scanBook; simp (maxDischargeDepth := 99) +contextual [h]
@[simp] theorem State.checkRecords_fixed (s : State) : (State.checkRecords s).fixed = s.fixed := by
  unfold State.checkRecords; simp
@[simp] theorem State.checkRecords_inv (s : State) (h : s.Inv) : (State.checkRecords s).Inv := by
  unfold State.checkRecords; simp (maxDischargeDepth := 99) +contextual [h]
@[simp] theorem State.loadPairRecord_fixed (s : State) : (State.loadPairRecord s).fixed = s.fixed := by
  unfold State.loadPairRecord; simp
@[simp] theorem State.loadPairRecord_inv (s : State) (h : s.Inv) : (State.loadPairRecord s).Inv := by
  unfold State.loadPairRecord; simp (maxDischargeDepth := 99) +contextual [h]
@[simp] theorem State.owedFault_fixed (s : State) : (State.owedFault s).fixed = s.fixed := by
  unfold State.owedFault; simp
@[simp] theorem State.owedFault_inv (s : State) (h : s.Inv) : (State.owedFault s).Inv := by
  unfold State.owedFault; simp (maxDischargeDepth := 99) +contextual [h]
@[simp] theorem State.bootRecords_fixed (s : State) : (State.bootRecords s).fixed = s.fixed := by
  unfold State.bootRecords; (try dsimp only); (repeat' split) <;> simp
@[simp] theorem State.bootRecords_inv (s : State) (h : s.Inv) : (State.bootRecords s).Inv := by
  unfold State.bootRecords; (try dsimp only); (repeat' split) <;> simp (maxDischargeDepth := 99) +contextual [h]
@[simp] theorem State.alarmRecord_fixed (s : State) (k : Nat) : (State.alarmRecord s k).fixed = s.fixed := by
  unfold State.alarmRecord; simp
@[simp] theorem State.alarmRecord_inv (s : State) (k : Nat) (h : s.Inv) : (State.alarmRecord s k).Inv := by
  unfold State.alarmRecord; simp (maxDischargeDepth := 99) +contextual [h]
@[simp] theorem State.stewardRuns_fixed (s : State) : (State.stewardRuns s).fixed = s.fixed := by
  unfold State.stewardRuns; simp
@[simp] theorem State.stewardRuns_inv (s : State) (h : s.Inv) : (State.stewardRuns s).Inv := by
  unfold State.stewardRuns; simp (maxDischargeDepth := 99) +contextual [h]
theorem execStewardStart_fixed (t : Nat) (s : State) : OutFixed s (execStewardStart t s) := by
  unfold execStewardStart; simp
theorem execStewardStart_inv (t : Nat) (s : State) (h : s.Inv) : OutInv (execStewardStart t s) := by
  unfold execStewardStart
  lift_lets
  extract_lets s1 s2 s3 s4 s5 s6 s7 s8 s9 s10 s11 s12
  have h1 : s1.Inv := by unfold s1; simp [h]
  have h2 : s2.Inv := by unfold s2; simp (maxDischargeDepth := 99) [h1]
  have h3 : s3.Inv := by unfold s3; simp (maxDischargeDepth := 99) [h2]
  have h4 : s4.Inv := by unfold s4; simp (maxDischargeDepth := 99) [h3]
  have h5 : s5.Inv := by unfold s5; simp (maxDischargeDepth := 99) [h4]
  have h6 : s6.Inv := by unfold s6; simp (maxDischargeDepth := 99) [h5]
  have h7 : s7.Inv := by unfold s7; simp (maxDischargeDepth := 99) [h6]
  have h8 : s8.Inv := by unfold s8; simp (maxDischargeDepth := 99) [h7]
  have h9 : s9.Inv := by unfold s9; simp (maxDischargeDepth := 99) [h8]
  have h10 : s10.Inv := by unfold s10; simp (maxDischargeDepth := 99) [h9]
  have h11 : s11.Inv := by unfold s11; simp (maxDischargeDepth := 99) [h10]
  have h12 : s12.Inv := by unfold s12; simp (maxDischargeDepth := 99) [h11]
  simp only [outInv_ite, outInv_next, inv_ite]
  exact ⟨fun _ => ⟨fun _ => State.alarmRecord_inv _ _ h12, fun _ => h12⟩, fun _ => h1⟩
@[simp] theorem State.checkEngines_fixed (s : State) (oks : List Bool) : (State.checkEngines s oks).fixed = s.fixed := by
  unfold State.checkEngines; simp
@[simp] theorem State.checkEngines_inv (s : State) (oks : List Bool) (h : s.Inv) : (State.checkEngines s oks).Inv := by
  unfold State.checkEngines; simp (maxDischargeDepth := 99) +contextual [h]
@[simp] theorem State.restoreRetained_fixed (s : State) (c : Conf) : (State.restoreRetained s c).fixed = s.fixed := by
  unfold State.restoreRetained; simp
@[simp] theorem State.restoreRetained_inv (s : State) (c : Conf) (h : s.Inv) : (State.restoreRetained s c).Inv := by
  unfold State.restoreRetained; simp (maxDischargeDepth := 99) +contextual [h]
@[simp] theorem State.openJournal_fixed (s : State) : (State.openJournal s).fixed = s.fixed := by
  unfold State.openJournal; simp
@[simp] theorem State.openJournal_inv (s : State) (h : s.Inv) : (State.openJournal s).Inv := by
  unfold State.openJournal; simp (maxDischargeDepth := 99) +contextual [h]
@[simp] theorem State.bookNow_fixed (s : State) : (State.bookNow s).fixed = s.fixed := by
  unfold State.bookNow; (try dsimp only); (repeat' split) <;> simp
@[simp] theorem State.bookNow_inv (s : State) (h : s.Inv) : (State.bookNow s).Inv := by
  unfold State.bookNow; (try dsimp only); (repeat' split) <;> simp (maxDischargeDepth := 99) +contextual [h]
@[simp] theorem State.badSegment_fixed (s : State) : (State.badSegment s).fixed = s.fixed := by
  unfold State.badSegment; simp
@[simp] theorem State.badSegment_inv (s : State) (h : s.Inv) : (State.badSegment s).Inv := by
  unfold State.badSegment; (try dsimp only); (repeat' split) <;> first
    | (simp (maxDischargeDepth := 99) +contextual [h]; done)
    | (refine foldl_inv _ _ _ (by simp (maxDischargeDepth := 99) +contextual [h]) ?_; intro _ _ h; (try dsimp only); (repeat' split) <;> simp (maxDischargeDepth := 99) +contextual [h])
theorem execStartupConfigLoad_fixed (t : Nat) (digestsOk : Bool) (engines : List Bool) (s : State) : OutFixed s (execStartupConfigLoad t digestsOk engines s) := by
  unfold execStartupConfigLoad; (try dsimp only); (repeat' split) <;> first
    | (simp; done)
    | (simp; rw [foldl_fixed]; (· simp); intro _ _; (try dsimp only); (repeat' split) <;> simp)
    | (simp; rw [foldl_fixed]; (· intro _ _; (try dsimp only); (repeat' split) <;> simp))
theorem execStartupConfigLoad_inv (t : Nat) (digestsOk : Bool) (engines : List Bool) (s : State) (h : s.Inv) : OutInv (execStartupConfigLoad t digestsOk engines s) := by
  unfold execStartupConfigLoad; (try dsimp only); (repeat' split) <;> simp (maxDischargeDepth := 99) +contextual [h]
@[simp] theorem State.scheduleStart_fixed (s : State) (tick : Nat) (flagOk : Bool) (ref : Option CmdRef) : (State.scheduleStart s tick flagOk ref).fixed = s.fixed := by
  unfold State.scheduleStart; (try dsimp only); (repeat' split) <;> simp
@[simp] theorem State.scheduleStart_inv (s : State) (tick : Nat) (flagOk : Bool) (ref : Option CmdRef) (h : s.Inv) : (State.scheduleStart s tick flagOk ref).Inv := by
  unfold State.scheduleStart; (try dsimp only); (repeat' split) <;> simp (maxDischargeDepth := 99) +contextual [h]
theorem execAutoStart_fixed (t : Nat) (s : State) : OutFixed s (execAutoStart t s) := by
  unfold execAutoStart; (try dsimp only); (repeat' split) <;> simp
theorem execAutoStart_inv (t : Nat) (s : State) (h : s.Inv) : OutInv (execAutoStart t s) := by
  unfold execAutoStart; (try dsimp only); (repeat' split) <;> simp (maxDischargeDepth := 99) +contextual [h]

end Sys2Proof.Machine
end

