-- ==== Sys2Proof/Laws/KeepStaging.lean ====
section
/-! SUPPORT. What the operations of Staging.lean keep: the invariant, the queue and the fuses. -/

namespace Sys2Proof.Machine

@[simp] theorem snapshot_wf (es : List ChanCfg) (stg : Vector Stg 192) (words : Mem) (v : Room) (tb cycle : Nat) (h : words.wf = true) : (snapshot es stg words v tb cycle).wf = true := by
  unfold snapshot; simp (maxDischargeDepth := 99) +contextual [h]
@[simp] theorem State.release_fixed (s : State) (i : Nat) : (State.release s i).fixed = s.fixed := by
  unfold State.release; (try dsimp only); (repeat' split) <;> simp
@[simp] theorem State.release_inv (s : State) (i : Nat) (h : s.Inv) : (State.release s i).Inv := by
  unfold State.release; (try dsimp only); (repeat' split) <;> simp (maxDischargeDepth := 99) +contextual [h]
@[simp] theorem State.releaseAll_fixed (s : State) (n : Nat) (skip : Nat → Bool) : (State.releaseAll s n skip).fixed = s.fixed := by
  unfold State.releaseAll; simp
@[simp] theorem State.releaseAll_inv (s : State) (n : Nat) (skip : Nat → Bool) (h : s.Inv) : (State.releaseAll s n skip).Inv := by
  unfold State.releaseAll; simp (maxDischargeDepth := 99) +contextual [h]
@[simp] theorem State.handOver_fixed (s : State) (c : Conf) (i tick : Nat) : (State.handOver s c i tick).fixed = s.fixed := by
  unfold State.handOver; (try dsimp only); (repeat' split) <;> first
    | (simp; done)
    | (apply foldl_fixed; intro _ _; (try dsimp only); (repeat' split) <;> simp)
@[simp] theorem State.handOver_inv (s : State) (c : Conf) (i tick : Nat) (h : s.Inv) : (State.handOver s c i tick).Inv := by
  unfold State.handOver; (try dsimp only); (repeat' split) <;> first
    | (simp (maxDischargeDepth := 99) +contextual [h]; done)
    | (refine foldl_inv _ _ _ (by simp (maxDischargeDepth := 99) +contextual [h]) ?_; intro _ _ h; (try dsimp only); (repeat' split) <;> simp (maxDischargeDepth := 99) +contextual [h])
@[simp] theorem State.deadline_fixed (s : State) (r : RoomId) (i n : Nat) : (State.deadline s r i n).fixed = s.fixed := by
  unfold State.deadline; (try dsimp only); (repeat' split) <;> simp
@[simp] theorem State.deadline_inv (s : State) (r : RoomId) (i n : Nat) (h : s.Inv) : (State.deadline s r i n).Inv := by
  unfold State.deadline; (try dsimp only); (repeat' split) <;> simp (maxDischargeDepth := 99) +contextual [h]
@[simp] theorem State.commitTask_fixed (s : State) (c : Conf) (i n : Nat) : (State.commitTask s c i n).fixed = s.fixed := by
  unfold State.commitTask; simp
@[simp] theorem State.commitTask_inv (s : State) (c : Conf) (i n : Nat) (h : s.Inv) : (State.commitTask s c i n).Inv := by
  unfold State.commitTask; simp (maxDischargeDepth := 99) +contextual [h]
@[simp] theorem State.duePublications_fixed (s : State) (c : Conf) (i n : Nat) : (State.duePublications s c i n).fixed = s.fixed := by
  unfold State.duePublications; (try dsimp only); (repeat' split) <;> simp
@[simp] theorem State.duePublications_inv (s : State) (c : Conf) (i n : Nat) (h : s.Inv) : (State.duePublications s c i n).Inv := by
  unfold State.duePublications; (try dsimp only); (repeat' split) <;> simp (maxDischargeDepth := 99) +contextual [h]

end Sys2Proof.Machine
end

