-- ==== Sys2Proof/Laws/KeepPairOps.lean ====
section
/-! SUPPORT. What the operations of PairOps.lean keep: the invariant, the queue and the fuses. -/

namespace Sys2Proof.Machine

@[simp] theorem State.pairEvent_fixed (s : State) (b : Nat) : (State.pairEvent s b).fixed = s.fixed := by
  unfold State.pairEvent; simp
@[simp] theorem State.pairEvent_inv (s : State) (b : Nat) (h : s.Inv) : (State.pairEvent s b).Inv := by
  unfold State.pairEvent; simp (maxDischargeDepth := 99) +contextual [h]
@[simp] theorem State.latchVector_fixed (s : State) (old : Bool) : (State.latchVector s old).fixed = s.fixed := by
  unfold State.latchVector; simp
@[simp] theorem State.latchVector_inv (s : State) (old : Bool) (h : s.Inv) : (State.latchVector s old).Inv := by
  unfold State.latchVector; simp (maxDischargeDepth := 99) +contextual [h]
@[simp] theorem State.writeRole_fixed (s : State) : (State.writeRole s).fixed = s.fixed := by
  unfold State.writeRole; simp
@[simp] theorem State.writeRole_inv (s : State) (h : s.Inv) : (State.writeRole s).Inv := by
  unfold State.writeRole; simp (maxDischargeDepth := 99) +contextual [h]
@[simp] theorem State.applyRole_fixed (s : State) : (State.applyRole s).fixed = s.fixed := by
  unfold State.applyRole; simp
@[simp] theorem State.applyRole_inv (s : State) (h : s.Inv) : (State.applyRole s).Inv := by
  unfold State.applyRole; simp (maxDischargeDepth := 99) +contextual [h]
@[simp] theorem State.setRole_fixed (s : State) (role : BitVec 2) (reason : BitVec 3) (sev : BitVec 2) : (State.setRole s role reason sev).fixed = s.fixed := by
  unfold State.setRole; simp
@[simp] theorem State.setRole_inv (s : State) (role : BitVec 2) (reason : BitVec 3) (sev : BitVec 2) (h : s.Inv) : (State.setRole s role reason sev).Inv := by
  unfold State.setRole; simp (maxDischargeDepth := 99) +contextual [h]
@[simp] theorem State.stopRooms_fixed (s : State) : (State.stopRooms s).fixed = s.fixed := by
  unfold State.stopRooms; simp
@[simp] theorem State.stopRooms_inv (s : State) (h : s.Inv) : (State.stopRooms s).Inv := by
  unfold State.stopRooms; simp (maxDischargeDepth := 99) +contextual [h]
@[simp] theorem State.restartSync_fixed (s : State) : (State.restartSync s).fixed = s.fixed := by
  unfold State.restartSync; simp
@[simp] theorem State.restartSync_inv (s : State) (h : s.Inv) : (State.restartSync s).Inv := by
  unfold State.restartSync; simp (maxDischargeDepth := 99) +contextual [h]
@[simp] theorem State.npBoot_fixed (s : State) : (State.npBoot s).fixed = s.fixed := by
  unfold State.npBoot; simp
@[simp] theorem State.npBoot_inv (s : State) (h : s.Inv) : (State.npBoot s).Inv := by
  unfold State.npBoot; simp (maxDischargeDepth := 99) +contextual [h]
@[simp] theorem State.discardEdits_fixed (s : State) : (State.discardEdits s).fixed = s.fixed := by
  unfold State.discardEdits; simp
@[simp] theorem State.discardEdits_inv (s : State) (h : s.Inv) : (State.discardEdits s).Inv := by
  unfold State.discardEdits; simp (maxDischargeDepth := 99) +contextual [h]
@[simp] theorem State.abandonSwap_fixed (s : State) (st : BitVec 16) : (State.abandonSwap s st).fixed = s.fixed := by
  unfold State.abandonSwap; simp
@[simp] theorem State.abandonSwap_inv (s : State) (st : BitVec 16) (h : s.Inv) : (State.abandonSwap s st).Inv := by
  unfold State.abandonSwap; simp (maxDischargeDepth := 99) +contextual [h]
@[simp] theorem State.dropCommands_fixed (s : State) : (State.dropCommands s).fixed = s.fixed := by
  unfold State.dropCommands; (try dsimp only); (repeat' split) <;> simp
@[simp] theorem State.dropCommands_inv (s : State) (h : s.Inv) : (State.dropCommands s).Inv := by
  unfold State.dropCommands; (try dsimp only); (repeat' split) <;> simp (maxDischargeDepth := 99) +contextual [h]
@[simp] theorem State.becomeOut_fixed (s : State) (reason : BitVec 3) (sev : BitVec 2) : (State.becomeOut s reason sev).fixed = s.fixed := by
  unfold State.becomeOut; simp
@[simp] theorem State.becomeOut_inv (s : State) (reason : BitVec 3) (sev : BitVec 2) (h : s.Inv) : (State.becomeOut s reason sev).Inv := by
  unfold State.becomeOut; simp (maxDischargeDepth := 99) +contextual [h]
@[simp] theorem State.fallOut_fixed (s : State) (why : BitVec 3) : (State.fallOut s why).fixed = s.fixed := by
  unfold State.fallOut; simp
@[simp] theorem State.fallOut_inv (s : State) (why : BitVec 3) (h : s.Inv) : (State.fallOut s why).Inv := by
  unfold State.fallOut; simp (maxDischargeDepth := 99) +contextual [h]
@[simp] theorem State.mismatch_fixed (s : State) (n i : Nat) : (State.mismatch s n i).fixed = s.fixed := by
  unfold State.mismatch; simp
@[simp] theorem State.mismatch_inv (s : State) (n i : Nat) (h : s.Inv) : (State.mismatch s n i).Inv := by
  unfold State.mismatch; simp (maxDischargeDepth := 99) +contextual [h]
@[simp] theorem State.ageRecords_fixed (s : State) (ns : List Nat) (sev : BitVec 2) : (State.ageRecords s ns sev).fixed = s.fixed := by
  unfold State.ageRecords; simp
@[simp] theorem State.ageRecords_inv (s : State) (ns : List Nat) (sev : BitVec 2) (h : s.Inv) : (State.ageRecords s ns sev).Inv := by
  unfold State.ageRecords; simp (maxDischargeDepth := 99) +contextual [h]
@[simp] theorem State.startExcitation_fixed (s : State) : (State.startExcitation s).fixed = s.fixed := by
  unfold State.startExcitation; simp
@[simp] theorem State.startExcitation_inv (s : State) (h : s.Inv) : (State.startExcitation s).Inv := by
  unfold State.startExcitation; simp (maxDischargeDepth := 99) +contextual [h]
@[simp] theorem State.lead_fixed (s : State) (reason : BitVec 3) (sev : BitVec 2) (from' : Nat) : (State.lead s reason sev from').fixed = s.fixed := by
  unfold State.lead; simp
@[simp] theorem State.lead_inv (s : State) (reason : BitVec 3) (sev : BitVec 2) (from' : Nat) (h : s.Inv) : (State.lead s reason sev from').Inv := by
  unfold State.lead; simp (maxDischargeDepth := 99) +contextual [h]
@[simp] theorem State.takeOver_fixed (s : State) (reason : BitVec 3) (n : Nat) : (State.takeOver s reason n).fixed = s.fixed := by
  unfold State.takeOver; simp
@[simp] theorem State.takeOver_inv (s : State) (reason : BitVec 3) (n : Nat) (h : s.Inv) : (State.takeOver s reason n).Inv := by
  unfold State.takeOver; simp (maxDischargeDepth := 99) +contextual [h]
@[simp] theorem State.sendHello_fixed (s : State) : (State.sendHello s).fixed = s.fixed := by
  unfold State.sendHello; simp
@[simp] theorem State.sendHello_inv (s : State) (h : s.Inv) : (State.sendHello s).Inv := by
  unfold State.sendHello; simp (maxDischargeDepth := 99) +contextual [h]
@[simp] theorem State.sendFrame_fixed (s : State) (typ : Nat) (bytes : List Byte) : (State.sendFrame s typ bytes).fixed = s.fixed := by
  unfold State.sendFrame; simp
@[simp] theorem State.sendFrame_inv (s : State) (typ : Nat) (bytes : List Byte) (h : s.Inv) : (State.sendFrame s typ bytes).Inv := by
  unfold State.sendFrame; simp (maxDischargeDepth := 99) +contextual [h]
@[simp] theorem State.streamTick_fixed (s : State) : (State.streamTick s).fixed = s.fixed := by
  unfold State.streamTick; (try dsimp only); (repeat' split) <;> simp
@[simp] theorem State.streamTick_inv (s : State) (h : s.Inv) : (State.streamTick s).Inv := by
  unfold State.streamTick; (try dsimp only); (repeat' split) <;> simp (maxDischargeDepth := 99) +contextual [h]
@[simp] theorem State.sendControl_fixed (s : State) (op : Nat) (args : List Byte) : (State.sendControl s op args).fixed = s.fixed := by
  unfold State.sendControl; simp
@[simp] theorem State.sendControl_inv (s : State) (op : Nat) (args : List Byte) (h : s.Inv) : (State.sendControl s op args).Inv := by
  unfold State.sendControl; simp (maxDischargeDepth := 99) +contextual [h]

end Sys2Proof.Machine
end

