-- ==== Sys2Proof/Laws/KeepScan.lean ====
section
/-! SUPPORT. What the operations of Scan.lean keep: the invariant, the queue and the fuses. -/

namespace Sys2Proof.Machine

theorem foldl_pair_wf {α : Type} (l : List α) (f : Mem × Nat → α → Mem × Nat) (m : Mem × Nat) (h : m.1.wf = true)
    (hf : ∀ m a, m.1.wf = true → (f m a).1.wf = true) : (l.foldl f m).1.wf = true := by
  induction l generalizing m with
  | nil => exact h
  | cons a r ih => exact ih _ (hf _ _ h)

/-- The words of a frame have their canonical form. -/
@[simp] theorem ofFrame_wf (w : Way) (bs : List Byte) (old own : Vector Stg 192) (tb : Nat) : (ofFrame w bs old own tb).2.wf = true := by
  unfold ofFrame
  lift_lets
  extract_lets nd at0 words ups r m
  have hw : words.wf = true := Mem.wf_write Mem.wf_nil
  clear_value words r
  exact foldl_pair_wf _ _ _ hw (fun _ _ h => Mem.wf_write h)

@[simp] theorem State.ownWords_wf (s : State) (h : s.Inv) : s.ownWords.wf = true := by
  unfold State.ownWords
  exact foldl_wf _ _ _ h.canRx (fun _ _ h => Mem.wf_write h)

@[simp] theorem State.freezeStaging_fixed (s : State) (n : Nat) : (State.freezeStaging s n).fixed = s.fixed := by
  unfold State.freezeStaging; (try dsimp only); (repeat' split) <;> simp
@[simp] theorem State.freezeStaging_inv (s : State) (n : Nat) (h : s.Inv) : (State.freezeStaging s n).Inv := by
  unfold State.freezeStaging
  lift_lets
  extract_lets old own ownWords p plain frame q
  have hw : ownWords.wf = true := State.ownWords_wf s h
  have hp : plain.Inv := by unfold plain; simp (maxDischargeDepth := 99) [h, hw]
  have hq : q.words.wf = true := hp.words
  clear_value frame q plain
  split
  · split
    · split
      · exact ⟨hp.dmem, hp.pend, hp.com, hp.canRx, hp.frozen, hp.nv, hp.words, hp.table, hp.snap, hp.zero⟩
      · simp (maxDischargeDepth := 99) [h]
    · split
      · simp (maxDischargeDepth := 99) [hp, hq]
      · exact hp
  · exact State.mapChans_inv _ _ hp
@[simp] theorem State.measure_fixed (s : State) : (State.measure s).fixed = s.fixed := by
  unfold State.measure; simp
@[simp] theorem State.measure_inv (s : State) (h : s.Inv) : (State.measure s).Inv := by
  unfold State.measure; simp (maxDischargeDepth := 99) +contextual [h]
@[simp] theorem State.alignGroups_fixed (s : State) : (State.alignGroups s).fixed = s.fixed := by
  unfold State.alignGroups; simp
@[simp] theorem State.alignGroups_inv (s : State) (h : s.Inv) : (State.alignGroups s).Inv := by
  unfold State.alignGroups; simp (maxDischargeDepth := 99) +contextual [h]
@[simp] theorem State.closeTasks_fixed (s : State) (n : Nat) : (State.closeTasks s n).fixed = s.fixed := by
  unfold State.closeTasks; (try dsimp only); (repeat' split) <;> first
    | (simp; done)
    | (apply foldl_fixed; intro _ _; (try dsimp only); (repeat' split) <;> simp)
@[simp] theorem State.closeTasks_inv (s : State) (n : Nat) (h : s.Inv) : (State.closeTasks s n).Inv := by
  unfold State.closeTasks; (try dsimp only); (repeat' split) <;> first
    | (simp (maxDischargeDepth := 99) +contextual [h]; done)
    | (refine foldl_inv _ _ _ (by simp (maxDischargeDepth := 99) +contextual [h]) ?_; intro _ _ h; (try dsimp only); (repeat' split) <;> simp (maxDischargeDepth := 99) +contextual [h])
@[simp] theorem State.commitAll_fixed (s : State) (n : Nat) : (State.commitAll s n).fixed = s.fixed := by
  unfold State.commitAll; (try dsimp only); (repeat' split) <;> simp
@[simp] theorem State.commitAll_inv (s : State) (n : Nat) (h : s.Inv) : (State.commitAll s n).Inv := by
  unfold State.commitAll; (try dsimp only); (repeat' split) <;> simp (maxDischargeDepth := 99) +contextual [h]
@[simp] theorem State.compareDigests_fixed (s : State) (n : Nat) (mine : List (Nat × List Byte)) : (State.compareDigests s n mine).fixed = s.fixed := by
  unfold State.compareDigests; (try dsimp only); (repeat' split) <;> simp
@[simp] theorem State.compareDigests_inv (s : State) (n : Nat) (mine : List (Nat × List Byte)) (h : s.Inv) : (State.compareDigests s n mine).Inv := by
  unfold State.compareDigests; (try dsimp only); (repeat' split) <;> simp (maxDischargeDepth := 99) +contextual [h]
@[simp] theorem State.tickFrames_fixed (s : State) (old : Vector Stg 192) (n : Nat) (mine : List (Nat × List Byte)) : (State.tickFrames s old n mine).fixed = s.fixed := by
  unfold State.tickFrames; (try dsimp only); (repeat' split) <;> simp
@[simp] theorem State.tickFrames_inv (s : State) (old : Vector Stg 192) (n : Nat) (mine : List (Nat × List Byte)) (h : s.Inv) : (State.tickFrames s old n mine).Inv := by
  unfold State.tickFrames; (try dsimp only); (repeat' split) <;> simp (maxDischargeDepth := 99) +contextual [h]
@[simp] theorem State.lastHours_fixed (s : State) : (State.lastHours s).fixed = s.fixed := by
  unfold State.lastHours; simp
@[simp] theorem State.lastHours_inv (s : State) (h : s.Inv) : (State.lastHours s).Inv := by
  unfold State.lastHours; simp (maxDischargeDepth := 99) +contextual [h]
@[simp] theorem State.lastCommits_fixed (s : State) (n : Nat) : (State.lastCommits s n).fixed = s.fixed := by
  unfold State.lastCommits; simp
@[simp] theorem State.lastCommits_inv (s : State) (n : Nat) (h : s.Inv) : (State.lastCommits s n).Inv := by
  unfold State.lastCommits; simp (maxDischargeDepth := 99) +contextual [h]
@[simp] theorem State.lossRecord_fixed (s : State) : (State.lossRecord s).fixed = s.fixed := by
  unfold State.lossRecord
  generalize List.range 4096 = l
  dsimp only
  split <;> simp
@[simp] theorem State.lossRecord_inv (s : State) (h : s.Inv) : (State.lossRecord s).Inv := by
  unfold State.lossRecord
  generalize List.range 4096 = l
  dsimp only
  split <;> simp (maxDischargeDepth := 99) [h]
@[simp] theorem State.lastTick_fixed (s : State) (n : Nat) : (State.lastTick s n).fixed = s.fixed := by
  unfold State.lastTick; simp
@[simp] theorem State.lastTick_inv (s : State) (n : Nat) (h : s.Inv) : (State.lastTick s n).Inv := by
  unfold State.lastTick; (try dsimp only); (repeat' split) <;> simp (maxDischargeDepth := 99) +contextual [h]
theorem execBaseTick_fixed (t : Nat) (s : State) : OutFixed s (execBaseTick t s) := by
  unfold execBaseTick; (try dsimp only); (repeat' split) <;> first
    | (simp; done)
    | (simp; rw [foldl_fixed]; (· simp); intro _ _; (try dsimp only); (repeat' split) <;> simp)
    | (simp; rw [foldl_fixed]; (· intro _ _; (try dsimp only); (repeat' split) <;> simp))
theorem execBaseTick_inv (t : Nat) (s : State) (h : s.Inv) : OutInv (execBaseTick t s) := by
  unfold execBaseTick
  lift_lets
  extract_lets n s1 s2 i old s3 is s4 mine s5 s6 s7
  have h2 : s2.Inv := by unfold s2 s1; simp (maxDischargeDepth := 99) [h]
  have h3 : s3.Inv := by unfold s3; simp (maxDischargeDepth := 99) [h2]
  have h4 : s4.Inv := by unfold s4; simp (maxDischargeDepth := 99) [h3]
  have h5 : s5.Inv := by unfold s5; simp (maxDischargeDepth := 99) [h4]
  have h6 : s6.Inv := by unfold s6; simp (maxDischargeDepth := 99) [h5]
  have h7 : s7.Inv := by unfold s7; simp (maxDischargeDepth := 99) [h6]
  have hi : i.pend.wf = true ∧ i.com.wf = true ∧ i.canRx.wf = true ∧ i.frozen.wf = true := h2.ok_img
  (repeat' split) <;> simp (maxDischargeDepth := 99) [h, h2, h3, h7, hi]
theorem execTaskDeadline_fixed (t : Nat) (r : RoomId) (s : State) : OutFixed s (execTaskDeadline t r s) := by
  unfold execTaskDeadline; (try dsimp only); (repeat' split) <;> simp
theorem execTaskDeadline_inv (t : Nat) (r : RoomId) (s : State) (h : s.Inv) : OutInv (execTaskDeadline t r s) := by
  unfold execTaskDeadline; (try dsimp only); (repeat' split) <;> simp (maxDischargeDepth := 99) +contextual [h]
theorem execMaintenanceSlot_fixed (t : Nat) (lane : LaneId) (s : State) : OutFixed s (execMaintenanceSlot t lane s) := by
  unfold execMaintenanceSlot; simp
theorem execMaintenanceSlot_inv (t : Nat) (lane : LaneId) (s : State) (h : s.Inv) : OutInv (execMaintenanceSlot t lane s) := by
  unfold execMaintenanceSlot; simp (maxDischargeDepth := 99) +contextual [h]
@[simp] theorem State.zeroWord_fixed (s : State) (m : MemId) (a : Nat) : (State.zeroWord s m a).fixed = s.fixed := by
  unfold State.zeroWord; (try dsimp only); (repeat' split) <;> simp
@[simp] theorem State.zeroWord_inv (s : State) (m : MemId) (a : Nat) (h : s.Inv) : (State.zeroWord s m a).Inv := by
  unfold State.zeroWord; (try dsimp only); (repeat' split) <;> simp (maxDischargeDepth := 99) +contextual [h]
@[simp] theorem State.corrected_fixed (s : State) (m : MemId) (a : Nat) : (State.corrected s m a).fixed = s.fixed := by
  unfold State.corrected; simp
@[simp] theorem State.corrected_inv (s : State) (m : MemId) (a : Nat) (h : s.Inv) : (State.corrected s m a).Inv := by
  unfold State.corrected; simp (maxDischargeDepth := 99) +contextual [h]
@[simp] theorem State.eccRead_fixed (s : State) (m : MemId) (a : Nat) (res : EccResult) (scrubber byLane : Bool) : (State.eccRead s m a res scrubber byLane).fixed = s.fixed := by
  unfold State.eccRead; (try dsimp only); (repeat' split) <;> simp
@[simp] theorem State.eccRead_inv (s : State) (m : MemId) (a : Nat) (res : EccResult) (scrubber byLane : Bool) (h : s.Inv) : (State.eccRead s m a res scrubber byLane).Inv := by
  unfold State.eccRead; (try dsimp only); (repeat' split) <;> simp (maxDischargeDepth := 99) +contextual [h]
theorem execScrubRead_fixed (t : Nat) (rd : EccRead) (a : Nat) (res : EccResult) (s : State) : OutFixed s (execScrubRead t rd a res s) := by
  unfold execScrubRead; (try dsimp only); (repeat' split) <;> simp
theorem execScrubRead_inv (t : Nat) (rd : EccRead) (a : Nat) (res : EccResult) (s : State) (h : s.Inv) : OutInv (execScrubRead t rd a res s) := by
  unfold execScrubRead; (try dsimp only); (repeat' split) <;> simp (maxDischargeDepth := 99) +contextual [h]
theorem execMemorySelfTest_fixed (t : Nat) (bank : Nat) (test : SelfTest) (s : State) : OutFixed s (execMemorySelfTest t bank test s) := by
  unfold execMemorySelfTest; simp
theorem execMemorySelfTest_inv (t : Nat) (bank : Nat) (test : SelfTest) (s : State) (h : s.Inv) : OutInv (execMemorySelfTest t bank test s) := by
  unfold execMemorySelfTest; simp (maxDischargeDepth := 99) +contextual [h]
theorem execHardwareFault_fixed (t : Nat) (ev : FaultEvidence) (s : State) : OutFixed s (execHardwareFault t ev s) := by
  unfold execHardwareFault; simp
theorem execHardwareFault_inv (t : Nat) (ev : FaultEvidence) (s : State) (h : s.Inv) : OutInv (execHardwareFault t ev s) := by
  unfold execHardwareFault; simp (maxDischargeDepth := 99) +contextual [h]
theorem execDistanceRuleBroken_fixed (t : Nat) (r : RoomId) (s : State) : OutFixed s (execDistanceRuleBroken t r s) := by
  unfold execDistanceRuleBroken; (try dsimp only); (repeat' split) <;> simp
theorem execDistanceRuleBroken_inv (t : Nat) (r : RoomId) (s : State) (h : s.Inv) : OutInv (execDistanceRuleBroken t r s) := by
  unfold execDistanceRuleBroken; (try dsimp only); (repeat' split) <;> simp (maxDischargeDepth := 99) +contextual [h]
theorem execScanClrEcc_fixed (t : Nat) (s : State) : OutFixed s (execScanClrEcc t s) := by
  unfold execScanClrEcc; simp
theorem execScanClrEcc_inv (t : Nat) (s : State) (h : s.Inv) : OutInv (execScanClrEcc t s) := by
  unfold execScanClrEcc; simp (maxDischargeDepth := 99) +contextual [h]
theorem execScanClrPeak_fixed (t : Nat) (s : State) : OutFixed s (execScanClrPeak t s) := by
  unfold execScanClrPeak; simp
theorem execScanClrPeak_inv (t : Nat) (s : State) (h : s.Inv) : OutInv (execScanClrPeak t s) := by
  unfold execScanClrPeak; simp (maxDischargeDepth := 99) +contextual [h]
theorem execScanClrFev_fixed (t : Nat) (s : State) : OutFixed s (execScanClrFev t s) := by
  unfold execScanClrFev; simp
theorem execScanClrFev_inv (t : Nat) (s : State) (h : s.Inv) : OutInv (execScanClrFev t s) := by
  unfold execScanClrFev; simp (maxDischargeDepth := 99) +contextual [h]
theorem execNpClrEv_fixed (t : Nat) (s : State) : OutFixed s (execNpClrEv t s) := by
  unfold execNpClrEv; simp
theorem execNpClrEv_inv (t : Nat) (s : State) (h : s.Inv) : OutInv (execNpClrEv t s) := by
  unfold execNpClrEv; simp (maxDischargeDepth := 99) +contextual [h]

end Sys2Proof.Machine
end

