-- ==== Sys2Proof/Laws/KeepBackup.lean ====
section
/-! SUPPORT. What the operations of Backup.lean keep: the invariant, the queue and the fuses. -/

namespace Sys2Proof.Machine

@[simp] theorem State.alarmFlag_fixed (s : State) (k : Nat) : (State.alarmFlag s k).fixed = s.fixed := by
  unfold State.alarmFlag; simp
@[simp] theorem State.alarmFlag_inv (s : State) (k : Nat) (h : s.Inv) : (State.alarmFlag s k).Inv := by
  unfold State.alarmFlag; simp (maxDischargeDepth := 99) +contextual [h]
@[simp] theorem State.compareAlarms_fixed (s : State) : (State.compareAlarms s).fixed = s.fixed := by
  unfold State.compareAlarms; simp
@[simp] theorem State.compareAlarms_inv (s : State) (h : s.Inv) : (State.compareAlarms s).Inv := by
  unfold State.compareAlarms; simp (maxDischargeDepth := 99) +contextual [h]
@[simp] theorem State.stepDst_fixed (s : State) : (State.stepDst s).fixed = s.fixed := by
  unfold State.stepDst; (try dsimp only); (repeat' split) <;> simp
@[simp] theorem State.stepDst_inv (s : State) (h : s.Inv) : (State.stepDst s).Inv := by
  unfold State.stepDst; (try dsimp only); (repeat' split) <;> simp (maxDischargeDepth := 99) +contextual [h]
theorem execSummerTimeStep_fixed (t : Nat) (s : State) : OutFixed s (execSummerTimeStep t s) := by
  unfold execSummerTimeStep; (try dsimp only); (repeat' split) <;> simp
theorem execSummerTimeStep_inv (t : Nat) (s : State) (h : s.Inv) : OutInv (execSummerTimeStep t s) := by
  unfold execSummerTimeStep; (try dsimp only); (repeat' split) <;> simp (maxDischargeDepth := 99) +contextual [h]
theorem execRtcSecond_fixed (t : Nat) (s : State) : OutFixed s (execRtcSecond t s) := by
  unfold execRtcSecond; simp
theorem execRtcSecond_inv (t : Nat) (s : State) (h : s.Inv) : OutInv (execRtcSecond t s) := by
  unfold execRtcSecond; simp (maxDischargeDepth := 99) +contextual [h]
theorem execCountdownExpiry_fixed (t : Nat) (s : State) : OutFixed s (execCountdownExpiry t s) := by
  unfold execCountdownExpiry; simp
theorem execCountdownExpiry_inv (t : Nat) (s : State) (h : s.Inv) : OutInv (execCountdownExpiry t s) := by
  unfold execCountdownExpiry; simp (maxDischargeDepth := 99) +contextual [h]
theorem execBackupVoltageLow_fixed (t : Nat) (s : State) : OutFixed s (execBackupVoltageLow t s) := by
  unfold execBackupVoltageLow; simp
theorem execBackupVoltageLow_inv (t : Nat) (s : State) (h : s.Inv) : OutInv (execBackupVoltageLow t s) := by
  unfold execBackupVoltageLow; simp (maxDischargeDepth := 99) +contextual [h]
theorem execRtcGroupRead_fixed (t : Nat) (reg : RtcReg) (path : RtcPath) (s : State) : OutFixed s (execRtcGroupRead t reg path s) := by
  unfold execRtcGroupRead; (try dsimp only); (repeat' split) <;> simp
theorem execRtcGroupRead_inv (t : Nat) (reg : RtcReg) (path : RtcPath) (s : State) (h : s.Inv) : OutInv (execRtcGroupRead t reg path s) := by
  unfold execRtcGroupRead; (try dsimp only); (repeat' split) <;> simp (maxDischargeDepth := 99) +contextual [h]
theorem execRtcSnapshotExpiry_fixed (t : Nat) (path : RtcPath) (s : State) : OutFixed s (execRtcSnapshotExpiry t path s) := by
  unfold execRtcSnapshotExpiry; (try dsimp only); (repeat' split) <;> simp
theorem execRtcSnapshotExpiry_inv (t : Nat) (path : RtcPath) (s : State) (h : s.Inv) : OutInv (execRtcSnapshotExpiry t path s) := by
  unfold execRtcSnapshotExpiry; (try dsimp only); (repeat' split) <;> simp (maxDischargeDepth := 99) +contextual [h]
theorem execRtcSet_fixed (t : Nat) (c : RingId) (e : CmdEntry) (s : State) : OutFixed s (execRtcSet t c e s) := by
  unfold execRtcSet; (try simp only [outFixed_next]); apply State.command_fixed; intro _ _; (try dsimp only); (repeat' split) <;> simp
theorem execRtcSet_inv (t : Nat) (c : RingId) (e : CmdEntry) (s : State) (h : s.Inv) : OutInv (execRtcSet t c e s) := by
  unfold execRtcSet; simp (maxDischargeDepth := 99) +contextual [h]
theorem execRtcSetCommit_fixed (t : Nat) (s : State) : OutFixed s (execRtcSetCommit t s) := by
  unfold execRtcSetCommit; (try dsimp only); (repeat' split) <;> simp
theorem execRtcSetCommit_inv (t : Nat) (s : State) (h : s.Inv) : OutInv (execRtcSetCommit t s) := by
  unfold execRtcSetCommit; (try dsimp only); (repeat' split) <;> simp (maxDischargeDepth := 99) +contextual [h]
@[simp] theorem State.scheduleDst_fixed (s : State) (sub : Bool) (ref : CmdRef) : (State.scheduleDst s sub ref).fixed = s.fixed := by
  unfold State.scheduleDst; simp
@[simp] theorem State.scheduleDst_inv (s : State) (sub : Bool) (ref : CmdRef) (h : s.Inv) : (State.scheduleDst s sub ref).Inv := by
  unfold State.scheduleDst; simp (maxDischargeDepth := 99) +contextual [h]
theorem execSummerTimeAdd_fixed (t : Nat) (c : RingId) (e : CmdEntry) (s : State) : OutFixed s (execSummerTimeAdd t c e s) := by
  unfold execSummerTimeAdd; simp
theorem execSummerTimeAdd_inv (t : Nat) (c : RingId) (e : CmdEntry) (s : State) (h : s.Inv) : OutInv (execSummerTimeAdd t c e s) := by
  unfold execSummerTimeAdd; simp (maxDischargeDepth := 99) +contextual [h]
theorem execSummerTimeSubtract_fixed (t : Nat) (c : RingId) (e : CmdEntry) (s : State) : OutFixed s (execSummerTimeSubtract t c e s) := by
  unfold execSummerTimeSubtract; simp
theorem execSummerTimeSubtract_inv (t : Nat) (c : RingId) (e : CmdEntry) (s : State) (h : s.Inv) : OutInv (execSummerTimeSubtract t c e s) := by
  unfold execSummerTimeSubtract; simp (maxDischargeDepth := 99) +contextual [h]
theorem execAlarmSetUp_fixed (t : Nat) (c : RingId) (e : CmdEntry) (s : State) : OutFixed s (execAlarmSetUp t c e s) := by
  unfold execAlarmSetUp; simp
theorem execAlarmSetUp_inv (t : Nat) (c : RingId) (e : CmdEntry) (s : State) (h : s.Inv) : OutInv (execAlarmSetUp t c e s) := by
  unfold execAlarmSetUp; simp (maxDischargeDepth := 99) +contextual [h]
theorem execRtcTrimWrite_fixed (t : Nat) (val : Word) (s : State) : OutFixed s (execRtcTrimWrite t val s) := by
  unfold execRtcTrimWrite; simp
theorem execRtcTrimWrite_inv (t : Nat) (val : Word) (s : State) (h : s.Inv) : OutInv (execRtcTrimWrite t val s) := by
  unfold execRtcTrimWrite; simp (maxDischargeDepth := 99) +contextual [h]
theorem execSaddlebagWrite_fixed (t : Nat) (w : Fin 32) (val : Word) (s : State) : OutFixed s (execSaddlebagWrite t w val s) := by
  unfold execSaddlebagWrite; simp
theorem execSaddlebagWrite_inv (t : Nat) (w : Fin 32) (val : Word) (s : State) (h : s.Inv) : OutInv (execSaddlebagWrite t w val s) := by
  unfold execSaddlebagWrite; simp (maxDischargeDepth := 99) +contextual [h]

end Sys2Proof.Machine
end

