-- ==== Sys2Proof/Laws/KeepBook.lean ====
section
/-! SUPPORT. What the operations of Book.lean keep: the invariant, the queue and the fuses. -/

namespace Sys2Proof.Machine

@[simp] theorem State.written_fixed (s : State) (d : NvDone) : (State.written s d).fixed = s.fixed := by
  unfold State.written; (try dsimp only); (repeat' split) <;> simp
@[simp] theorem State.written_inv (s : State) (d : NvDone) (h : s.Inv) : (State.written s d).Inv := by
  unfold State.written; (try dsimp only); (repeat' split) <;> simp (maxDischargeDepth := 99) +contextual [h]
@[simp] theorem State.writeFailed_fixed (s : State) (d : NvDone) : (State.writeFailed s d).fixed = s.fixed := by
  unfold State.writeFailed; (try dsimp only); (repeat' split) <;> simp
@[simp] theorem State.writeFailed_inv (s : State) (d : NvDone) (h : s.Inv) : (State.writeFailed s d).Inv := by
  unfold State.writeFailed; (try dsimp only); (repeat' split) <;> simp (maxDischargeDepth := 99) +contextual [h]
@[simp] theorem State.nvNext_fixed (s : State) : (State.nvNext s).fixed = s.fixed := by
  unfold State.nvNext; simp
@[simp] theorem State.nvNext_inv (s : State) (h : s.Inv) : (State.nvNext s).Inv := by
  unfold State.nvNext; simp (maxDischargeDepth := 99) +contextual [h]
@[simp] theorem spoiled_wf (m : Mem) (j : NvJob) (h : m.wf = true) : (spoiled m j).wf = true := by
  unfold spoiled; simp (maxDischargeDepth := 99) +contextual [h]
theorem execNvPageProgramComplete_fixed (t : Nat) (ok : Bool) (s : State) : OutFixed s (execNvPageProgramComplete t ok s) := by
  unfold execNvPageProgramComplete; (try dsimp only); (repeat' split) <;> simp
theorem execNvPageProgramComplete_inv (t : Nat) (ok : Bool) (s : State) (h : s.Inv) : OutInv (execNvPageProgramComplete t ok s) := by
  unfold execNvPageProgramComplete; (try dsimp only); (repeat' split) <;> simp (maxDischargeDepth := 99) +contextual [h]
theorem execNvRecordWrite_fixed (t : Nat) (c : RingId) (e : CmdEntry) (dma : Option (List Byte)) (s : State) : OutFixed s (execNvRecordWrite t c e dma s) := by
  unfold execNvRecordWrite; simp
theorem execNvRecordWrite_inv (t : Nat) (c : RingId) (e : CmdEntry) (dma : Option (List Byte)) (s : State) (h : s.Inv) : OutInv (execNvRecordWrite t c e dma s) := by
  unfold execNvRecordWrite; simp (maxDischargeDepth := 99) +contextual [h]
theorem execNvRecordRead_fixed (t : Nat) (c : RingId) (e : CmdEntry) (s : State) : OutFixed s (execNvRecordRead t c e s) := by
  unfold execNvRecordRead; (try simp only [outFixed_next]); apply State.command_fixed; intro _ _; (try dsimp only); (repeat' split) <;> simp
theorem execNvRecordRead_inv (t : Nat) (c : RingId) (e : CmdEntry) (s : State) (h : s.Inv) : OutInv (execNvRecordRead t c e s) := by
  unfold execNvRecordRead; (try simp only [outInv_next]); refine State.command_inv _ _ _ _ _ _ _ h ?_; intro _ _ h; (try dsimp only); (repeat' split) <;> simp (maxDischargeDepth := 99) +contextual [h]
theorem execNvProtWrite_fixed (t : Nat) (val : Word) (s : State) : OutFixed s (execNvProtWrite t val s) := by
  unfold execNvProtWrite; simp
theorem execNvProtWrite_inv (t : Nat) (val : Word) (s : State) (h : s.Inv) : OutInv (execNvProtWrite t val s) := by
  unfold execNvProtWrite; simp (maxDischargeDepth := 99) +contextual [h]
theorem execHoursIncrement_fixed (t : Nat) (s : State) : OutFixed s (execHoursIncrement t s) := by
  unfold execHoursIncrement; simp
theorem execHoursIncrement_inv (t : Nat) (s : State) (h : s.Inv) : OutInv (execHoursIncrement t s) := by
  unfold execHoursIncrement; simp (maxDischargeDepth := 99) +contextual [h]
theorem execGuestbookRecordWrite_fixed (t : Nat) (s : State) : OutFixed s (execGuestbookRecordWrite t s) := by
  unfold execGuestbookRecordWrite; (try dsimp only); (repeat' split) <;> simp
theorem execGuestbookRecordWrite_inv (t : Nat) (s : State) (h : s.Inv) : OutInv (execGuestbookRecordWrite t s) := by
  unfold execGuestbookRecordWrite; (try dsimp only); (repeat' split) <;> simp (maxDischargeDepth := 99) +contextual [h]
@[simp] theorem State.rewriteBook_fixed (s : State) (slot : Nat) (r : GbRec) : (State.rewriteBook s slot r).fixed = s.fixed := by
  unfold State.rewriteBook; simp
@[simp] theorem State.rewriteBook_inv (s : State) (slot : Nat) (r : GbRec) (h : s.Inv) : (State.rewriteBook s slot r).Inv := by
  unfold State.rewriteBook; simp (maxDischargeDepth := 99) +contextual [h]
theorem execGuestbookRepeatRewrite_fixed (t : Nat) (s : State) : OutFixed s (execGuestbookRepeatRewrite t s) := by
  unfold execGuestbookRepeatRewrite; (try dsimp only); (repeat' split) <;> simp
theorem execGuestbookRepeatRewrite_inv (t : Nat) (s : State) (h : s.Inv) : OutInv (execGuestbookRepeatRewrite t s) := by
  unfold execGuestbookRepeatRewrite; (try dsimp only); (repeat' split) <;> simp (maxDischargeDepth := 99) +contextual [h]
theorem execGuestbookRead_fixed (t : Nat) (c : RingId) (e : CmdEntry) (s : State) : OutFixed s (execGuestbookRead t c e s) := by
  unfold execGuestbookRead; simp
theorem execGuestbookRead_inv (t : Nat) (c : RingId) (e : CmdEntry) (s : State) (h : s.Inv) : OutInv (execGuestbookRead t c e s) := by
  unfold execGuestbookRead; simp (maxDischargeDepth := 99) +contextual [h]

end Sys2Proof.Machine
end

