-- ==== Sys2Proof/Laws/KeepHost.lean ====
section
/-! SUPPORT. What the operations of Host.lean keep: the invariant, the queue and the fuses. -/

namespace Sys2Proof.Machine

@[simp] theorem State.stopRings_fixed (s : State) : (State.stopRings s).fixed = s.fixed := by
  unfold State.stopRings; simp
@[simp] theorem State.stopRings_inv (s : State) (h : s.Inv) : (State.stopRings s).Inv := by
  unfold State.stopRings; simp (maxDischargeDepth := 99) +contextual [h]
@[simp] theorem State.limitPublications_fixed (s : State) (c : Conf) : (State.limitPublications s c).fixed = s.fixed := by
  unfold State.limitPublications; simp
@[simp] theorem State.limitPublications_inv (s : State) (c : Conf) (h : s.Inv) : (State.limitPublications s c).Inv := by
  unfold State.limitPublications; simp (maxDischargeDepth := 99) +contextual [h]
theorem execApply_fixed (t : Nat) (table bell : Option (List Byte)) (s : State) : OutFixed s (execApply t table bell s) := by
  unfold execApply; (try dsimp only); (repeat' split) <;> simp
theorem execApply_inv (t : Nat) (table bell : Option (List Byte)) (s : State) (h : s.Inv) : OutInv (execApply t table bell s) := by
  unfold execApply; (try dsimp only); (repeat' split) <;> simp (maxDischargeDepth := 99) +contextual [h]
theorem execDisable_fixed (t : Nat) (s : State) : OutFixed s (execDisable t s) := by
  unfold execDisable; simp
theorem execDisable_inv (t : Nat) (s : State) (h : s.Inv) : OutInv (execDisable t s) := by
  unfold execDisable; simp (maxDischargeDepth := 99) +contextual [h]
@[simp] theorem State.ringFailure_fixed (s : State) : (State.ringFailure s).fixed = s.fixed := by
  unfold State.ringFailure; simp
@[simp] theorem State.ringFailure_inv (s : State) (h : s.Inv) : (State.ringFailure s).Inv := by
  unfold State.ringFailure; simp (maxDischargeDepth := 99) +contextual [h]
@[simp] theorem HostIf.takeBell_table (h : HostIf) (bs : List Byte) : (HostIf.takeBell h bs).msixTable = h.msixTable := by
  unfold HostIf.takeBell; simp
theorem execBellPoll_fixed (t : Nat) (bell : Option (List Byte)) (s : State) : OutFixed s (execBellPoll t bell s) := by
  unfold execBellPoll; (try dsimp only); (repeat' split) <;> simp
theorem execBellPoll_inv (t : Nat) (bell : Option (List Byte)) (s : State) (h : s.Inv) : OutInv (execBellPoll t bell s) := by
  unfold execBellPoll; (try dsimp only); (repeat' split) <;> simp (maxDischargeDepth := 99) +contextual [h]
@[simp] theorem State.sendVectors_fixed (s : State) : (State.sendVectors s).fixed = s.fixed := by
  unfold State.sendVectors; simp
@[simp] theorem State.sendVectors_inv (s : State) (h : s.Inv) : (State.sendVectors s).Inv := by
  unfold State.sendVectors; simp (maxDischargeDepth := 99) +contextual [h]
@[simp] theorem State.flushOutbox_fixed (s : State) : (State.flushOutbox s).fixed = s.fixed := by
  unfold State.flushOutbox; simp
@[simp] theorem State.flushOutbox_inv (s : State) (h : s.Inv) : (State.flushOutbox s).Inv := by
  unfold State.flushOutbox; simp (maxDischargeDepth := 99) +contextual [h]
theorem execBellIntervalEnd_fixed (t : Nat) (s : State) : OutFixed s (execBellIntervalEnd t s) := by
  unfold execBellIntervalEnd; simp
theorem execBellIntervalEnd_inv (t : Nat) (s : State) (h : s.Inv) : OutInv (execBellIntervalEnd t s) := by
  unfold execBellIntervalEnd; simp (maxDischargeDepth := 99) +contextual [h]
theorem execBusMasterDisable_fixed (t : Nat) (s : State) : OutFixed s (execBusMasterDisable t s) := by
  unfold execBusMasterDisable; simp
theorem execBusMasterDisable_inv (t : Nat) (s : State) (h : s.Inv) : OutInv (execBusMasterDisable t s) := by
  unfold execBusMasterDisable; simp (maxDischargeDepth := 99) +contextual [h]
theorem execBusMasterEnable_fixed (t : Nat) (s : State) : OutFixed s (execBusMasterEnable t s) := by
  unfold execBusMasterEnable; simp
theorem execBusMasterEnable_inv (t : Nat) (s : State) (h : s.Inv) : OutInv (execBusMasterEnable t s) := by
  unfold execBusMasterEnable; simp (maxDischargeDepth := 99) +contextual [h]
theorem execDmaFailure_fixed (t : Nat) (target : DmaTarget) (s : State) : OutFixed s (execDmaFailure t target s) := by
  unfold execDmaFailure; (try dsimp only); (repeat' split) <;> simp
theorem execDmaFailure_inv (t : Nat) (target : DmaTarget) (s : State) (h : s.Inv) : OutInv (execDmaFailure t target s) := by
  unfold execDmaFailure; (try dsimp only); (repeat' split) <;> simp (maxDischargeDepth := 99) +contextual [h]
theorem execHeldCompletionWrite_fixed (t : Nat) (q : RingId) (s : State) : OutFixed s (execHeldCompletionWrite t q s) := by
  unfold execHeldCompletionWrite; (try dsimp only); (repeat' split) <;> simp
theorem execHeldCompletionWrite_inv (t : Nat) (q : RingId) (s : State) (h : s.Inv) : OutInv (execHeldCompletionWrite t q s) := by
  unfold execHeldCompletionWrite; (try dsimp only); (repeat' split) <;> simp (maxDischargeDepth := 99) +contextual [h]
theorem execCompletionHeldTimeout_fixed (t : Nat) (q : RingId) (s : State) : OutFixed s (execCompletionHeldTimeout t q s) := by
  unfold execCompletionHeldTimeout; simp
theorem execCompletionHeldTimeout_inv (t : Nat) (q : RingId) (s : State) (h : s.Inv) : OutInv (execCompletionHeldTimeout t q s) := by
  unfold execCompletionHeldTimeout; simp (maxDischargeDepth := 99) +contextual [h]
theorem execPcieLinkDown_fixed (t : Nat) (s : State) : OutFixed s (execPcieLinkDown t s) := by
  unfold execPcieLinkDown; simp
theorem execPcieLinkDown_inv (t : Nat) (s : State) (h : s.Inv) : OutInv (execPcieLinkDown t s) := by
  unfold execPcieLinkDown; simp (maxDischargeDepth := 99) +contextual [h]
theorem execUnknownCommand_fixed (t : Nat) (c : RingId) (e : CmdEntry) (op : Byte) (s : State) : OutFixed s (execUnknownCommand t c e op s) := by
  unfold execUnknownCommand; simp
theorem execUnknownCommand_inv (t : Nat) (c : RingId) (e : CmdEntry) (op : Byte) (s : State) (h : s.Inv) : OutInv (execUnknownCommand t c e op s) := by
  unfold execUnknownCommand; simp (maxDischargeDepth := 99) +contextual [h]
@[simp] theorem State.publish_fixed (s : State) (p : Fin 4) (k a : Nat) (body : List Byte) : (State.publish s p k a body).fixed = s.fixed := by
  unfold State.publish; simp
@[simp] theorem State.publish_inv (s : State) (p : Fin 4) (k a : Nat) (body : List Byte) (h : s.Inv) : (State.publish s p k a body).Inv := by
  unfold State.publish; simp (maxDischargeDepth := 99) +contextual [h]
theorem execPublication_fixed (t : Nat) (p : Fin 4) (s : State) : OutFixed s (execPublication t p s) := by
  unfold execPublication; (try dsimp only); (repeat' split) <;> simp
theorem execPublication_inv (t : Nat) (p : Fin 4) (s : State) (h : s.Inv) : OutInv (execPublication t p s) := by
  unfold execPublication; (try dsimp only); (repeat' split) <;> simp (maxDischargeDepth := 99) +contextual [h]
@[simp] theorem State.unmask_fixed (s : State) (v : Fin 16) : (State.unmask s v).fixed = s.fixed := by
  unfold State.unmask; simp
@[simp] theorem State.unmask_inv (s : State) (v : Fin 16) (h : s.Inv) : (State.unmask s v).Inv := by
  unfold State.unmask; simp (maxDischargeDepth := 99) +contextual [h]
theorem execMsixUnmask_fixed (t : Nat) (v : Fin 16) (s : State) : OutFixed s (execMsixUnmask t v s) := by
  unfold execMsixUnmask; simp
theorem execMsixUnmask_inv (t : Nat) (v : Fin 16) (s : State) (h : s.Inv) : OutInv (execMsixUnmask t v s) := by
  unfold execMsixUnmask; simp (maxDischargeDepth := 99) +contextual [h]
theorem execSplitValueRead_fixed (t : Nat) (pair : SplitPair) (s : State) : OutFixed s (execSplitValueRead t pair s) := by
  unfold execSplitValueRead; simp
theorem execSplitValueRead_inv (t : Nat) (pair : SplitPair) (s : State) (h : s.Inv) : OutInv (execSplitValueRead t pair s) := by
  unfold execSplitValueRead; simp (maxDischargeDepth := 99) +contextual [h]
@[simp] theorem State.writeLow_fixed (s : State) (o : Nat) (v : Word) : (State.writeLow s o v).fixed = s.fixed := by
  unfold State.writeLow; simp
@[simp] theorem State.writeLow_inv (s : State) (o : Nat) (v : Word) (h : s.Inv) : (State.writeLow s o v).Inv := by
  unfold State.writeLow; (try dsimp only); (repeat' split) <;> simp (maxDischargeDepth := 99) +contextual [h]
@[simp] theorem State.mapGroupChans_fixed (s : State) (g : Nat) (f : Nat → Chan → Chan) : (State.mapGroupChans s g f).fixed = s.fixed := by
  unfold State.mapGroupChans; simp
@[simp] theorem State.mapGroupChans_inv (s : State) (g : Nat) (f : Nat → Chan → Chan) (h : s.Inv) : (State.mapGroupChans s g f).Inv := by
  unfold State.mapGroupChans; simp (maxDischargeDepth := 99) +contextual [h]
@[simp] theorem State.writePair_fixed (s : State) (o : Nat) (v : Word) : (State.writePair s o v).fixed = s.fixed := by
  unfold State.writePair; simp
@[simp] theorem State.writePair_inv (s : State) (o : Nat) (v : Word) (h : s.Inv) : (State.writePair s o v).Inv := by
  unfold State.writePair; simp (maxDischargeDepth := 99) +contextual [h]
@[simp] theorem State.writeScan_fixed (s : State) (o : Nat) (v : Word) : (State.writeScan s o v).fixed = s.fixed := by
  unfold State.writeScan; (try dsimp only); (repeat' split) <;> simp
@[simp] theorem State.writeScan_inv (s : State) (o : Nat) (v : Word) (h : s.Inv) : (State.writeScan s o v).Inv := by
  unfold State.writeScan; (try dsimp only); (repeat' split) <;> simp (maxDischargeDepth := 99) +contextual [h]
@[simp] theorem State.writeMsix_fixed (s : State) (o : Nat) (v : Word) (be : BitVec 4) : (State.writeMsix s o v be).fixed = s.fixed := by
  rw [State.writeMsix]
  generalize 0xF000 = base
  (repeat' split) <;> simp
@[simp] theorem State.writeMsix_inv (s : State) (o : Nat) (v : Word) (be : BitVec 4) (h : s.Inv) : (State.writeMsix s o v be).Inv := by
  rw [State.writeMsix]
  generalize 0xF000 = base
  (repeat' split) <;> simp (maxDischargeDepth := 99) +contextual [h]
theorem execRegisterWrite_fixed (t : Nat) (off : BitVec 16) (val : Word) (be : BitVec 4) (s : State) :
    OutFixed s (execRegisterWrite t off val be s) := by
  unfold execRegisterWrite
  extract_lets s1 o
  have h1 : s1.fixed = s.fixed := by unfold s1; simp
  clear_value s1 o
  simp only [outFixed_ite]
  refine ⟨fun _ => ?_, fun _ => ⟨fun _ => ?_, fun _ => ⟨fun _ => ?_, fun _ => ⟨fun _ => ?_, fun _ => ⟨fun _ => ?_, fun _ => ⟨fun _ => ?_,
    fun _ => ⟨fun _ => ?_, fun _ => ⟨fun _ => ?_, fun _ => ⟨fun _ => ?_, fun _ => ⟨fun _ => ?_, fun _ => ⟨fun _ => ?_,
      fun _ => ⟨fun _ => ?_, fun _ => ?_⟩⟩⟩⟩⟩⟩⟩⟩⟩⟩⟩⟩ <;> first
    | (simp [h1]; done)
    | (simp only [outFixed_next, State.fixed_mk, Sec.fuses_mk, Sec.fuses_fold, State.fixed_fold]; exact h1)
    | (split <;> simp [h1])
theorem execRegisterWrite_inv (t : Nat) (off : BitVec 16) (val : Word) (be : BitVec 4) (s : State) (h : s.Inv) :
    OutInv (execRegisterWrite t off val be s) := by
  unfold execRegisterWrite
  extract_lets s1 o
  have h1 : s1.Inv := by unfold s1; simp [h]
  clear_value s1 o
  simp only [outInv_ite]
  refine ⟨fun _ => ?_, fun _ => ⟨fun _ => ?_, fun _ => ⟨fun _ => ?_, fun _ => ⟨fun _ => ?_, fun _ => ⟨fun _ => ?_, fun _ => ⟨fun _ => ?_,
    fun _ => ⟨fun _ => ?_, fun _ => ⟨fun _ => ?_, fun _ => ⟨fun _ => ?_, fun _ => ⟨fun _ => ?_, fun _ => ⟨fun _ => ?_,
      fun _ => ⟨fun _ => ?_, fun _ => ?_⟩⟩⟩⟩⟩⟩⟩⟩⟩⟩⟩⟩ <;> first
    | (simp (maxDischargeDepth := 99) [h1]; done)
    | (split <;> simp (maxDischargeDepth := 99) [h1])

end Sys2Proof.Machine
end

