-- ==== Sys2Proof/Laws/KeepAdmit.lean ====
section
/-! SUPPORT. What the operations of Admit.lean keep: the invariant, the queue and the fuses. -/

namespace Sys2Proof.Machine

@[simp] theorem State.loadWaybill_fixed (s : State) (bs : List Byte) : (State.loadWaybill s bs).fixed = s.fixed := by
  unfold State.loadWaybill; simp
@[simp] theorem State.loadWaybill_inv (s : State) (bs : List Byte) (h : s.Inv) : (State.loadWaybill s bs).Inv := by
  unfold State.loadWaybill; simp (maxDischargeDepth := 99) +contextual [h]
theorem execWaybillLoad_fixed (t : Nat) (c : RingId) (e : CmdEntry) (dma : Option (List Byte)) (s : State) : OutFixed s (execWaybillLoad t c e dma s) := by
  unfold execWaybillLoad; simp
theorem execWaybillLoad_inv (t : Nat) (c : RingId) (e : CmdEntry) (dma : Option (List Byte)) (s : State) (h : s.Inv) : OutInv (execWaybillLoad t c e dma s) := by
  unfold execWaybillLoad; simp (maxDischargeDepth := 99) +contextual [h]
@[simp] theorem State.beginExam_fixed (s : State) (ref : Option CmdRef) (stage : Bool) : (State.beginExam s ref stage).fixed = s.fixed := by
  unfold State.beginExam; simp
@[simp] theorem State.beginExam_inv (s : State) (ref : Option CmdRef) (stage : Bool) (h : s.Inv) : (State.beginExam s ref stage).Inv := by
  unfold State.beginExam; simp (maxDischargeDepth := 99) +contextual [h]
theorem execAdmit_fixed (t : Nat) (c : RingId) (e : CmdEntry) (s : State) : OutFixed s (execAdmit t c e s) := by
  unfold execAdmit; simp
theorem execAdmit_inv (t : Nat) (c : RingId) (e : CmdEntry) (s : State) (h : s.Inv) : OutInv (execAdmit t c e s) := by
  unfold execAdmit; simp (maxDischargeDepth := 99) +contextual [h]
theorem execSwapStage_fixed (t : Nat) (c : RingId) (e : CmdEntry) (s : State) : OutFixed s (execSwapStage t c e s) := by
  unfold execSwapStage; simp
theorem execSwapStage_inv (t : Nat) (c : RingId) (e : CmdEntry) (s : State) (h : s.Inv) : OutInv (execSwapStage t c e s) := by
  unfold execSwapStage; simp (maxDischargeDepth := 99) +contextual [h]
theorem execSwapDiscard_fixed (t : Nat) (c : RingId) (e : CmdEntry) (s : State) : OutFixed s (execSwapDiscard t c e s) := by
  unfold execSwapDiscard; simp
theorem execSwapDiscard_inv (t : Nat) (c : RingId) (e : CmdEntry) (s : State) (h : s.Inv) : OutInv (execSwapDiscard t c e s) := by
  unfold execSwapDiscard; simp (maxDischargeDepth := 99) +contextual [h]
@[simp] theorem State.commitConf_fixed (s : State) (c : Conf) (windows : List (List Byte)) (run : Bool) : (State.commitConf s c windows run).fixed = s.fixed := by
  unfold State.commitConf; rfl
@[simp] theorem State.commitConf_inv (s : State) (c : Conf) (windows : List (List Byte)) (run : Bool) (h : s.Inv) :
    (State.commitConf s c windows run).Inv := by
  have h1 : ∀ ws : List (Nat × List Byte), (ws.foldl (fun (m : Mem) w => m.write w.1 w.2) s.nv.mem).wf = true := fun ws =>
    foldl_wf _ _ _ h.nv (fun _ _ hm => Mem.wf_write hm)
  rw [State.commitConf]
  generalize 2 ^ 32 = k
  simp only [State.inv_mk]
  exact ⟨h.dmem, h.ok_img, h1 _, h.words, h.table, h.ok_rooms⟩
@[simp] theorem State.configureField_fixed (s : State) (c : Conf) : (State.configureField s c).fixed = s.fixed := by
  unfold State.configureField; simp
@[simp] theorem State.configureField_inv (s : State) (c : Conf) (h : s.Inv) : (State.configureField s c).Inv := by
  unfold State.configureField; simp (maxDischargeDepth := 99) +contextual [h]
@[simp] theorem State.storedPair_fixed (s : State) (c : Conf) : (State.storedPair s c).fixed = s.fixed := by
  unfold State.storedPair; simp
@[simp] theorem State.storedPair_inv (s : State) (c : Conf) (h : s.Inv) : (State.storedPair s c).Inv := by
  unfold State.storedPair; simp (maxDischargeDepth := 99) +contextual [h]
@[simp] theorem State.store_fixed (s : State) (c : Conf) : (State.store s c).fixed = s.fixed := by
  unfold State.store; simp
@[simp] theorem State.store_inv (s : State) (c : Conf) (h : s.Inv) : (State.store s c).Inv := by
  rw [State.store]
  simp (maxDischargeDepth := 99) +contextual [h]
@[simp] theorem State.signatureRecord_fixed (s : State) (r : Report) (bs : List Byte) : (State.signatureRecord s r bs).fixed = s.fixed := by
  unfold State.signatureRecord; simp
@[simp] theorem State.signatureRecord_inv (s : State) (r : Report) (bs : List Byte) (h : s.Inv) : (State.signatureRecord s r bs).Inv := by
  unfold State.signatureRecord; simp (maxDischargeDepth := 99) +contextual [h]
theorem execAdmissionComplete_fixed (t : Nat) (ms : Nat) (s : State) : OutFixed s (execAdmissionComplete t ms s) := by
  unfold execAdmissionComplete; (try dsimp only); (repeat' split) <;> simp
theorem execAdmissionComplete_inv (t : Nat) (ms : Nat) (s : State) (h : s.Inv) : OutInv (execAdmissionComplete t ms s) := by
  unfold execAdmissionComplete; (try dsimp only); (repeat' split) <;> first
    | (simp (maxDischargeDepth := 99) +contextual [h]; done)
    | (refine foldl_inv _ _ _ (by simp (maxDischargeDepth := 99) +contextual [h]) ?_; intro _ _ h; (try dsimp only); (repeat' split) <;> simp (maxDischargeDepth := 99) +contextual [h])

end Sys2Proof.Machine
end

