-- ==== Sys2Proof/Laws/KeepEdits.lean ====
section
/-! SUPPORT. What the operations of Edits.lean keep: the invariant, the queue and the fuses. -/

namespace Sys2Proof.Machine

@[simp] theorem State.acceptBatch_fixed (s : State) (ref : Option CmdRef) (task te : Nat) (bs : List Byte) : (State.acceptBatch s ref task te bs).fixed = s.fixed := by
  unfold State.acceptBatch; simp
@[simp] theorem State.acceptBatch_inv (s : State) (ref : Option CmdRef) (task te : Nat) (bs : List Byte) (h : s.Inv) : (State.acceptBatch s ref task te bs).Inv := by
  unfold State.acceptBatch; simp (maxDischargeDepth := 99) +contextual [h]
theorem execValueEdit_fixed (t : Nat) (c : RingId) (e : CmdEntry) (dma : Option (List Byte)) (s : State) : OutFixed s (execValueEdit t c e dma s) := by
  unfold execValueEdit; simp
theorem execValueEdit_inv (t : Nat) (c : RingId) (e : CmdEntry) (dma : Option (List Byte)) (s : State) (h : s.Inv) : OutInv (execValueEdit t c e dma s) := by
  unfold execValueEdit; simp (maxDischargeDepth := 99) +contextual [h]
theorem execVariableWriteAtRelease_fixed (t : Nat) (c : RingId) (e : CmdEntry) (s : State) : OutFixed s (execVariableWriteAtRelease t c e s) := by
  unfold execVariableWriteAtRelease; simp
theorem execVariableWriteAtRelease_inv (t : Nat) (c : RingId) (e : CmdEntry) (s : State) (h : s.Inv) : OutInv (execVariableWriteAtRelease t c e s) := by
  unfold execVariableWriteAtRelease; simp (maxDischargeDepth := 99) +contextual [h]
@[simp] theorem State.pokeByte_fixed (s : State) (r : RoomId) (a : Nat) (b : Byte) : (State.pokeByte s r a b).fixed = s.fixed := by
  unfold State.pokeByte; simp
@[simp] theorem State.pokeByte_inv (s : State) (r : RoomId) (a : Nat) (b : Byte) (h : s.Inv) : (State.pokeByte s r a b).Inv := by
  unfold State.pokeByte; simp (maxDischargeDepth := 99) +contextual [h]
@[simp] theorem State.applyBatch_fixed (s : State) (b : Batch) : (State.applyBatch s b).fixed = s.fixed := by
  unfold State.applyBatch; (try dsimp only); (repeat' split) <;> simp
@[simp] theorem State.applyBatch_inv (s : State) (b : Batch) (h : s.Inv) : (State.applyBatch s b).Inv := by
  unfold State.applyBatch; (try dsimp only); (repeat' split) <;> simp (maxDischargeDepth := 99) +contextual [h]
theorem execEditBatchApply_fixed (t : Nat) (s : State) : OutFixed s (execEditBatchApply t s) := by
  unfold execEditBatchApply; simp
theorem execEditBatchApply_inv (t : Nat) (s : State) (h : s.Inv) : OutInv (execEditBatchApply t s) := by
  unfold execEditBatchApply; simp (maxDischargeDepth := 99) +contextual [h]
theorem execVariableRead_fixed (t : Nat) (c : RingId) (e : CmdEntry) (s : State) : OutFixed s (execVariableRead t c e s) := by
  unfold execVariableRead; (try simp only [outFixed_next]); apply State.command_fixed; intro _ _; (try dsimp only); (repeat' split) <;> simp
theorem execVariableRead_inv (t : Nat) (c : RingId) (e : CmdEntry) (s : State) (h : s.Inv) : OutInv (execVariableRead t c e s) := by
  unfold execVariableRead; (try simp only [outInv_next]); refine State.command_inv _ _ _ _ _ _ _ h ?_; intro _ _ h; (try dsimp only); (repeat' split) <;> simp (maxDischargeDepth := 99) +contextual [h]
@[simp] theorem State.applyRead_fixed (s : State) (r : VRead) : (State.applyRead s r).fixed = s.fixed := by
  unfold State.applyRead; (try dsimp only); (repeat' split) <;> simp
@[simp] theorem State.applyRead_inv (s : State) (r : VRead) (h : s.Inv) : (State.applyRead s r).Inv := by
  unfold State.applyRead; (try dsimp only); (repeat' split) <;> simp (maxDischargeDepth := 99) +contextual [h]
theorem execVariableReadApply_fixed (t : Nat) (s : State) : OutFixed s (execVariableReadApply t s) := by
  unfold execVariableReadApply; simp
theorem execVariableReadApply_inv (t : Nat) (s : State) (h : s.Inv) : OutInv (execVariableReadApply t s) := by
  unfold execVariableReadApply; simp (maxDischargeDepth := 99) +contextual [h]
@[simp] theorem State.settleByStart_fixed (s : State) : (State.settleByStart s).fixed = s.fixed := by
  unfold State.settleByStart; simp
@[simp] theorem State.settleByStart_inv (s : State) (h : s.Inv) : (State.settleByStart s).Inv := by
  unfold State.settleByStart; simp (maxDischargeDepth := 99) +contextual [h]
theorem execStart_fixed (t : Nat) (c : RingId) (e : CmdEntry) (s : State) : OutFixed s (execStart t c e s) := by
  unfold execStart; (try simp only [outFixed_next]); apply State.command_fixed; intro _ _; (try dsimp only); (repeat' split) <;> simp
theorem execStart_inv (t : Nat) (c : RingId) (e : CmdEntry) (s : State) (h : s.Inv) : OutInv (execStart t c e s) := by
  unfold execStart; (try simp only [outInv_next]); refine State.command_inv _ _ _ _ _ _ _ h ?_; intro _ _ h; (try dsimp only); (repeat' split) <;> simp (maxDischargeDepth := 99) +contextual [h]
@[simp] theorem Conf.zeroStamps_wf (c : Conf) (m : Mem) (h : m.wf = true) : (Conf.zeroStamps c m).wf = true := by
  unfold Conf.zeroStamps; simp (maxDischargeDepth := 99) +contextual [h]
@[simp] theorem State.launch_fixed (s : State) (c : Conf) : (State.launch s c).fixed = s.fixed := by
  unfold State.launch; simp
@[simp] theorem State.launch_inv (s : State) (c : Conf) (h : s.Inv) : (State.launch s c).Inv := by
  unfold State.launch; simp (maxDischargeDepth := 99) +contextual [h]
theorem execStartTick_fixed (t : Nat) (s : State) : OutFixed s (execStartTick t s) := by
  unfold execStartTick; (try dsimp only); (repeat' split) <;> simp
theorem execStartTick_inv (t : Nat) (s : State) (h : s.Inv) : OutInv (execStartTick t s) := by
  unfold execStartTick; (try dsimp only); (repeat' split) <;> simp (maxDischargeDepth := 99) +contextual [h]
@[simp] theorem State.scheduleStop_fixed (s : State) (tick : Nat) (refs : List CmdRef) : (State.scheduleStop s tick refs).fixed = s.fixed := by
  unfold State.scheduleStop; simp
@[simp] theorem State.scheduleStop_inv (s : State) (tick : Nat) (refs : List CmdRef) (h : s.Inv) : (State.scheduleStop s tick refs).Inv := by
  unfold State.scheduleStop; simp (maxDischargeDepth := 99) +contextual [h]
theorem execStop_fixed (t : Nat) (c : RingId) (e : CmdEntry) (s : State) : OutFixed s (execStop t c e s) := by
  unfold execStop; (try simp only [outFixed_next]); apply State.command_fixed; intro _ _; (try dsimp only); (repeat' split) <;> simp
theorem execStop_inv (t : Nat) (c : RingId) (e : CmdEntry) (s : State) (h : s.Inv) : OutInv (execStop t c e s) := by
  unfold execStop; (try simp only [outInv_next]); refine State.command_inv _ _ _ _ _ _ _ h ?_; intro _ _ h; (try dsimp only); (repeat' split) <;> simp (maxDischargeDepth := 99) +contextual [h]
@[simp] theorem State.halt_fixed (s : State) : (State.halt s).fixed = s.fixed := by
  unfold State.halt; (try dsimp only); (repeat' split) <;> simp
@[simp] theorem State.halt_inv (s : State) (h : s.Inv) : (State.halt s).Inv := by
  unfold State.halt; (try dsimp only); (repeat' split) <;> simp (maxDischargeDepth := 99) +contextual [h]
theorem execStopTick_fixed (t : Nat) (s : State) : OutFixed s (execStopTick t s) := by
  unfold execStopTick; (try dsimp only); (repeat' split) <;> simp
theorem execStopTick_inv (t : Nat) (s : State) (h : s.Inv) : OutInv (execStopTick t s) := by
  unfold execStopTick; (try dsimp only); (repeat' split) <;> simp (maxDischargeDepth := 99) +contextual [h]
theorem execStopSafeStates_fixed (t : Nat) (s : State) : OutFixed s (execStopSafeStates t s) := by
  unfold execStopSafeStates; (try dsimp only); (repeat' split) <;> simp
theorem execStopSafeStates_inv (t : Nat) (s : State) (h : s.Inv) : OutInv (execStopSafeStates t s) := by
  unfold execStopSafeStates; (try dsimp only); (repeat' split) <;> simp (maxDischargeDepth := 99) +contextual [h]

end Sys2Proof.Machine
end

