-- ==== Sys2Proof/Laws/KeepSwap.lean ====
section
/-! SUPPORT. What the operations of Swap.lean keep: the invariant, the queue and the fuses. -/

namespace Sys2Proof.Machine

@[simp] theorem State.dropRelease_fixed (s : State) : (State.dropRelease s).fixed = s.fixed := by
  unfold State.dropRelease; simp
@[simp] theorem State.dropRelease_inv (s : State) (h : s.Inv) : (State.dropRelease s).Inv := by
  unfold State.dropRelease; simp (maxDischargeDepth := 99) +contextual [h]
@[simp] theorem State.beginSwap_fixed (s : State) (ref : CmdRef) (st : SwapSt) (code tick : Nat) : (State.beginSwap s ref st code tick).fixed = s.fixed := by
  unfold State.beginSwap; simp
@[simp] theorem State.beginSwap_inv (s : State) (ref : CmdRef) (st : SwapSt) (code tick : Nat) (h : s.Inv) : (State.beginSwap s ref st code tick).Inv := by
  unfold State.beginSwap; simp (maxDischargeDepth := 99) +contextual [h]
theorem execSwapCommit_fixed (t : Nat) (c : RingId) (e : CmdEntry) (s : State) : OutFixed s (execSwapCommit t c e s) := by
  unfold execSwapCommit; simp
theorem execSwapCommit_inv (t : Nat) (c : RingId) (e : CmdEntry) (s : State) (h : s.Inv) : OutInv (execSwapCommit t c e s) := by
  unfold execSwapCommit; simp (maxDischargeDepth := 99) +contextual [h]
theorem execSwapRollback_fixed (t : Nat) (c : RingId) (e : CmdEntry) (s : State) : OutFixed s (execSwapRollback t c e s) := by
  unfold execSwapRollback; simp
theorem execSwapRollback_inv (t : Nat) (c : RingId) (e : CmdEntry) (s : State) (h : s.Inv) : OutInv (execSwapRollback t c e s) := by
  unfold execSwapRollback; simp (maxDischargeDepth := 99) +contextual [h]
theorem execSwapRelease_fixed (t : Nat) (c : RingId) (e : CmdEntry) (s : State) : OutFixed s (execSwapRelease t c e s) := by
  unfold execSwapRelease; simp
theorem execSwapRelease_inv (t : Nat) (c : RingId) (e : CmdEntry) (s : State) (h : s.Inv) : OutInv (execSwapRelease t c e s) := by
  unfold execSwapRelease; simp (maxDischargeDepth := 99) +contextual [h]
@[simp] theorem migrate_wf (old new : Conf) (m : Mem) (h : m.wf = true) : (migrate old new m).wf = true := by
  rw [migrate]
  refine foldl_wf _ _ _ h (fun m x hm => ?_)
  (repeat' split) <;> simp [hm]
@[simp] theorem migrateBack_wf (old new : Conf) (m : Mem) (h : m.wf = true) : (migrateBack old new m).wf = true := by
  rw [migrateBack]
  refine foldl_wf _ _ _ h (fun m x hm => ?_)
  (repeat' split) <;> simp [hm]
@[simp] theorem clearNew_wf (old new : Conf) (m : Mem) (h : m.wf = true) : (clearNew old new m).wf = true := by
  unfold clearNew; simp (maxDischargeDepth := 99) +contextual [h]
@[simp] theorem State.turnRoom_fixed (s : State) (from' to' : Conf) (i : Nat) : (State.turnRoom s from' to' i).fixed = s.fixed := by
  unfold State.turnRoom; (try dsimp only); (repeat' split) <;> simp
@[simp] theorem State.turnRoom_inv (s : State) (from' to' : Conf) (i : Nat) (h : s.Inv) : (State.turnRoom s from' to' i).Inv := by
  unfold State.turnRoom; (try dsimp only); (repeat' split) <;> simp (maxDischargeDepth := 99) +contextual [h]
@[simp] theorem State.turn_fixed (s : State) (from' to' marks : Conf) (slots : Nat) (mem : Mem → Mem) :
    (State.turn s from' to' marks slots mem).fixed = s.fixed := by
  unfold State.turn; (try dsimp only); (repeat' split) <;> simp

@[simp] theorem State.turn_inv (s : State) (from' to' marks : Conf) (slots : Nat) (mem : Mem → Mem) (h : s.Inv)
    (hm : ∀ m : Mem, m.wf = true → (mem m).wf = true) : (State.turn s from' to' marks slots mem).Inv := by
  unfold State.turn; simp (maxDischargeDepth := 99) +contextual [h, hm]
theorem execSwapSwitchTick_fixed (t : Nat) (s : State) : OutFixed s (execSwapSwitchTick t s) := by
  unfold execSwapSwitchTick; (try dsimp only); (repeat' split) <;> simp
theorem execSwapSwitchTick_inv (t : Nat) (s : State) (h : s.Inv) : OutInv (execSwapSwitchTick t s) := by
  unfold execSwapSwitchTick; (try dsimp only); (repeat' split) <;> simp (maxDischargeDepth := 99) +contextual [h]
theorem execRollbackTick_fixed (t : Nat) (s : State) : OutFixed s (execRollbackTick t s) := by
  unfold execRollbackTick; (try dsimp only); (repeat' split) <;> simp
theorem execRollbackTick_inv (t : Nat) (s : State) (h : s.Inv) : OutInv (execRollbackTick t s) := by
  unfold execRollbackTick; (try dsimp only); (repeat' split) <;> simp (maxDischargeDepth := 99) +contextual [h]
@[simp] theorem State.storeReleased_fixed (s : State) (o n : Conf) : (State.storeReleased s o n).fixed = s.fixed := by
  unfold State.storeReleased; simp
@[simp] theorem State.storeReleased_inv (s : State) (o n : Conf) (h : s.Inv) : (State.storeReleased s o n).Inv := by
  unfold State.storeReleased; simp (maxDischargeDepth := 99) +contextual [h]
theorem execSwapReleaseComplete_fixed (t : Nat) (s : State) : OutFixed s (execSwapReleaseComplete t s) := by
  unfold execSwapReleaseComplete; (try dsimp only); (repeat' split) <;> simp
theorem execSwapReleaseComplete_inv (t : Nat) (s : State) (h : s.Inv) : OutInv (execSwapReleaseComplete t s) := by
  unfold execSwapReleaseComplete; (try dsimp only); (repeat' split) <;> simp (maxDischargeDepth := 99) +contextual [h]
theorem execConfirmTimeout_fixed (t : Nat) (s : State) : OutFixed s (execConfirmTimeout t s) := by
  unfold execConfirmTimeout; (try dsimp only); (repeat' split) <;> simp
theorem execConfirmTimeout_inv (t : Nat) (s : State) (h : s.Inv) : OutInv (execConfirmTimeout t s) := by
  unfold execConfirmTimeout; (try dsimp only); (repeat' split) <;> simp (maxDischargeDepth := 99) +contextual [h]
@[simp] theorem State.acceptSwap_fixed (s : State) (st : SwapSt) (tick : Nat) : (State.acceptSwap s st tick).fixed = s.fixed := by
  unfold State.acceptSwap; simp
@[simp] theorem State.acceptSwap_inv (s : State) (st : SwapSt) (tick : Nat) (h : s.Inv) : (State.acceptSwap s st tick).Inv := by
  unfold State.acceptSwap; simp (maxDischargeDepth := 99) +contextual [h]
@[simp] theorem State.refuseSwap_fixed (s : State) (tick : Nat) : (State.refuseSwap s tick).fixed = s.fixed := by
  unfold State.refuseSwap; simp
@[simp] theorem State.refuseSwap_inv (s : State) (tick : Nat) (h : s.Inv) : (State.refuseSwap s tick).Inv := by
  unfold State.refuseSwap; simp (maxDischargeDepth := 99) +contextual [h]
theorem execSwap_fixed (t : Nat) (payload : List Byte) (s : State) : OutFixed s (execSwap t payload s) := by
  unfold execSwap; simp
theorem execSwap_inv (t : Nat) (payload : List Byte) (s : State) (h : s.Inv) : OutInv (execSwap t payload s) := by
  unfold execSwap; simp (maxDischargeDepth := 99) +contextual [h]

end Sys2Proof.Machine
end

