-- ==== Sys2Proof/Laws/KeepSecurity.lean ====
section
/-! SUPPORT. What the operations of Security.lean keep: the invariant, the queue and the fuses. -/

namespace Sys2Proof.Machine

/-- No fuse of a clears in b, no digest of a set slot changes, and the SVN count does not fall. -/
def Sec.Grew (a b : Sec) : Prop :=
  a.svncnt ≤ b.svncnt ∧ ∀ i : Fin 4,
    (a.cset.getLsbD i.val = true → b.cset.getLsbD i.val = true ∧ b.chash[i] = a.chash[i]) ∧
    (a.crev.getLsbD i.val = true → b.crev.getLsbD i.val = true) ∧
    (a.oset.getLsbD i.val = true → b.oset.getLsbD i.val = true ∧ b.ohash[i] = a.ohash[i]) ∧
    (a.orev.getLsbD i.val = true → b.orev.getLsbD i.val = true)

theorem Sec.grew_of_fuses {a b : Sec} (h : b.fuses = a.fuses) : a.Grew b := by
  simp only [Sec.fuses, Prod.mk.injEq] at h
  obtain ⟨h1, h2, h3, h4, h5, h6, h7⟩ := h
  unfold Sec.Grew
  rw [h1, h2, h3, h4, h5, h6, h7]
  exact ⟨Nat.le_refl _, fun i => ⟨fun h => ⟨h, rfl⟩, fun h => h, fun h => ⟨h, rfl⟩, fun h => h⟩⟩

/-- The queue stays and the fuses grow. -/
def State.Burns (s t : State) : Prop := t.pending = s.pending ∧ s.sec.Grew t.sec

theorem State.burns_of_fixed {s t : State} (h : t.fixed = s.fixed) : s.Burns t := by
  simp only [State.fixed, Prod.mk.injEq] at h
  exact ⟨h.1, Sec.grew_of_fuses h.2⟩

theorem State.Burns.then_fixed {s t u : State} (h : s.Burns t) (e : u.fixed = t.fixed) : s.Burns u := by
  simp only [State.fixed, Sec.fuses, Prod.mk.injEq] at e
  obtain ⟨h0, h1, h2, h3, h4, h5, h6, h7⟩ := e
  unfold State.Burns Sec.Grew at *
  rw [h0, h1, h2, h3, h4, h5, h6, h7]
  exact h

theorem State.Burns.of_fixed {s t u : State} (e : t.fixed = s.fixed) (h : t.Burns u) : s.Burns u := by
  simp only [State.fixed, Sec.fuses, Prod.mk.injEq] at e
  obtain ⟨h0, h1, h2, h3, h4, h5, h6, h7⟩ := e
  unfold State.Burns Sec.Grew at *
  rw [← h0, ← h1, ← h2, ← h3, ← h4, ← h5, ← h6, ← h7]
  exact h

@[simp] theorem State.ownResult_fixed (s : State) (st : BitVec 16) (slot : Option Nat) : (State.ownResult s st slot).fixed = s.fixed := by
  unfold State.ownResult; (try dsimp only); (repeat' split) <;> simp
@[simp] theorem State.ownResult_inv (s : State) (st : BitVec 16) (slot : Option Nat) (h : s.Inv) : (State.ownResult s st slot).Inv := by
  unfold State.ownResult; (try dsimp only); (repeat' split) <;> simp (maxDischargeDepth := 99) +contextual [h]
theorem execOwnerKeyEnrol_inv (t : Nat) (val : Word) (s : State) (h : s.Inv) : OutInv (execOwnerKeyEnrol t val s) := by
  unfold execOwnerKeyEnrol; (try dsimp only); (repeat' split) <;> simp (maxDischargeDepth := 99) +contextual [h]
theorem execOwnerKeyRevoke_inv (t : Nat) (val : Word) (s : State) (h : s.Inv) : OutInv (execOwnerKeyRevoke t val s) := by
  unfold execOwnerKeyRevoke; (try dsimp only); (repeat' split) <;> simp (maxDischargeDepth := 99) +contextual [h]
@[simp] theorem Sec.setImage_fuses (c : Sec) (slot : Bool) (img : List Byte) : (Sec.setImage c slot img).fuses = c.fuses := by
  unfold Sec.setImage; simp
theorem execUpdateChunk_fixed (t : Nat) (c : RingId) (e : CmdEntry) (dma : Option (List Byte)) (s : State) : OutFixed s (execUpdateChunk t c e dma s) := by
  unfold execUpdateChunk; simp
theorem execUpdateChunk_inv (t : Nat) (c : RingId) (e : CmdEntry) (dma : Option (List Byte)) (s : State) (h : s.Inv) : OutInv (execUpdateChunk t c e dma s) := by
  unfold execUpdateChunk; simp (maxDischargeDepth := 99) +contextual [h]
theorem execUpdateChunkComplete_fixed (t : Nat) (s : State) : OutFixed s (execUpdateChunkComplete t s) := by
  unfold execUpdateChunkComplete; (try dsimp only); (repeat' split) <;> simp
theorem execUpdateChunkComplete_inv (t : Nat) (s : State) (h : s.Inv) : OutInv (execUpdateChunkComplete t s) := by
  unfold execUpdateChunkComplete; (try dsimp only); (repeat' split) <;> simp (maxDischargeDepth := 99) +contextual [h]
theorem execActivate_fixed (t : Nat) (c : RingId) (e : CmdEntry) (s : State) : OutFixed s (execActivate t c e s) := by
  unfold execActivate; simp
theorem execActivate_inv (t : Nat) (c : RingId) (e : CmdEntry) (s : State) (h : s.Inv) : OutInv (execActivate t c e s) := by
  unfold execActivate; simp (maxDischargeDepth := 99) +contextual [h]
@[simp] theorem State.confirmImage_inv (s : State) (h : s.Inv) : (State.confirmImage s).Inv := by
  unfold State.confirmImage; simp (maxDischargeDepth := 99) +contextual [h]

theorem State.confirmImage_burns (s : State) : s.Burns s.confirmImage := by
  unfold State.confirmImage
  extract_lets c img src s1
  refine State.Burns.then_fixed (t := s1) ?_ (State.gbEvent_fixed ..)
  have e := (Sec.setState_fuses (c.setState c.slot .good) (!c.slot) .old).trans (Sec.setState_fuses c c.slot .good)
  simp only [Sec.fuses, Prod.mk.injEq] at e
  obtain ⟨h1, h2, h3, h4, h5, h6, h7⟩ := e
  refine ⟨rfl, Nat.le_max_left _ _, fun i => ?_⟩
  unfold s1 src
  dsimp only
  rw [h2, h4, h5, h6, h7]
  refine ⟨fun h => ⟨h, rfl⟩, fun h => ?_, fun h => ⟨h, rfl⟩, fun h => h⟩
  rw [BitVec.getLsbD_or]
  have h' : c.crev.getLsbD i.val = true := h
  rw [h', Bool.true_or]

theorem execConfirm_burns (t : Nat) (val : Word) (s s' : State) (h : execConfirm t val s = .next s') : s.Burns s' := by
  unfold execConfirm at h
  extract_lets s1 at h
  cases h
  refine State.Burns.of_fixed (t := s1) (by simp [s1]) ?_
  split
  · exact State.confirmImage_burns s1
  · exact State.burns_of_fixed rfl

theorem execTrialConfirm_burns (t : Nat) (s s' : State) (h : execTrialConfirm t s = .next s') : s.Burns s' := by
  unfold execTrialConfirm at h
  split at h
  · cases h
    exact State.Burns.of_fixed (State.at_fixed _ _) (State.confirmImage_burns _)
  · cases h
    exact State.burns_of_fixed (State.at_fixed _ _)

theorem vset_other {α : Type} {n : Nat} (v : Vector α n) (i : Nat) (x : α) (j : Fin n) (h : j.val ≠ i) : (vset v i x)[j] = v[j] := by
  unfold vset
  (repeat' split) <;> simp [Ne.symm h]

theorem Sec.grew_enrol (c : Sec) (i : Nat) (d : List Byte) (hi : c.oset.getLsbD i = false) :
    c.Grew { c with oset := c.oset ||| (1 <<< i), ohash := vset c.ohash i d } := by
  refine ⟨Nat.le_refl _, fun j => ⟨fun h => ⟨h, rfl⟩, fun h => h, fun h => ⟨?_, ?_⟩, fun h => h⟩⟩
  · dsimp only
    rw [BitVec.getLsbD_or, h, Bool.true_or]
  · exact vset_other _ _ _ _ (fun e => by rw [e, hi] at h; exact Bool.noConfusion h)

theorem execOwnerKeyEnrol_burns (t : Nat) (val : Word) (s s' : State) (h : execOwnerKeyEnrol t val s = .next s') : s.Burns s' := by
  unfold execOwnerKeyEnrol at h
  extract_lets s1 digest at h
  have h1 : s1.fixed = s.fixed := State.at_fixed _ _
  clear_value s1 digest
  split at h
  · split at h
    · cases h; exact State.burns_of_fixed (by simp [h1])
    · cases h; exact State.burns_of_fixed (by simp [h1])
    · rename_i i _ hf
      have hf := List.find?_some hf
      split at h
      · cases h; exact State.burns_of_fixed (by simp [h1])
      · cases h
        refine State.Burns.of_fixed h1 (State.Burns.then_fixed ?_ (State.ownResult_fixed ..))
        exact ⟨rfl, Sec.grew_enrol _ _ _ (by simpa using hf)⟩
  · cases h; exact State.burns_of_fixed h1

theorem execOwnerKeyRevoke_burns (t : Nat) (val : Word) (s s' : State) (h : execOwnerKeyRevoke t val s = .next s') : s.Burns s' := by
  unfold execOwnerKeyRevoke at h
  extract_lets s1 n at h
  have h1 : s1.fixed = s.fixed := State.at_fixed _ _
  clear_value s1 n
  split at h
  · split at h
    · cases h; exact State.burns_of_fixed (by simp [h1])
    · split at h
      · cases h; exact State.burns_of_fixed (by simp [h1])
      · cases h
        refine State.Burns.of_fixed h1 (State.Burns.then_fixed ?_ (State.ownResult_fixed ..))
        refine ⟨rfl, Nat.le_refl _, fun j => ⟨fun h => ⟨h, rfl⟩, fun h => h, fun h => ⟨h, rfl⟩, fun h => ?_⟩⟩
        dsimp only
        rw [BitVec.getLsbD_or, h, Bool.true_or]
  · cases h; exact State.burns_of_fixed h1
theorem execConfirm_inv (t : Nat) (val : Word) (s : State) (h : s.Inv) : OutInv (execConfirm t val s) := by
  unfold execConfirm; (try dsimp only); (repeat' split) <;> simp (maxDischargeDepth := 99) +contextual [h]
theorem execTrialConfirm_inv (t : Nat) (s : State) (h : s.Inv) : OutInv (execTrialConfirm t s) := by
  unfold execTrialConfirm; simp (maxDischargeDepth := 99) +contextual [h]
theorem execAttest_fixed (t : Nat) (c : RingId) (e : CmdEntry) (s : State) : OutFixed s (execAttest t c e s) := by
  unfold execAttest; simp
theorem execAttest_inv (t : Nat) (c : RingId) (e : CmdEntry) (s : State) (h : s.Inv) : OutInv (execAttest t c e s) := by
  unfold execAttest; simp (maxDischargeDepth := 99) +contextual [h]

end Sys2Proof.Machine
end

