-- ==== Sys2Proof/Laws/KeepPair.lean ====
section
/-! SUPPORT. What the operations of Pair.lean keep: the invariant, the queue and the fuses. -/

namespace Sys2Proof.Machine

theorem execRoleSettle_fixed (t : Nat) (s : State) : OutFixed s (execRoleSettle t s) := by
  unfold execRoleSettle; (try dsimp only); (repeat' split) <;> simp
theorem execRoleSettle_inv (t : Nat) (s : State) (h : s.Inv) : OutInv (execRoleSettle t s) := by
  unfold execRoleSettle; (try dsimp only); (repeat' split) <;> simp (maxDischargeDepth := 99) +contextual [h]
theorem execQuietInAssert_fixed (t : Nat) (s : State) : OutFixed s (execQuietInAssert t s) := by
  unfold execQuietInAssert; simp
theorem execQuietInAssert_inv (t : Nat) (s : State) (h : s.Inv) : OutInv (execQuietInAssert t s) := by
  unfold execQuietInAssert; simp (maxDischargeDepth := 99) +contextual [h]
theorem execQuietInDeassert_fixed (t : Nat) (s : State) : OutFixed s (execQuietInDeassert t s) := by
  unfold execQuietInDeassert; simp
theorem execQuietInDeassert_inv (t : Nat) (s : State) (h : s.Inv) : OutInv (execQuietInDeassert t s) := by
  unfold execQuietInDeassert; simp (maxDischargeDepth := 99) +contextual [h]
theorem execPairPresentChange_fixed (t : Nat) (pins : PairPins) (s : State) : OutFixed s (execPairPresentChange t pins s) := by
  unfold execPairPresentChange; simp
theorem execPairPresentChange_inv (t : Nat) (pins : PairPins) (s : State) (h : s.Inv) : OutInv (execPairPresentChange t pins s) := by
  unfold execPairPresentChange; simp (maxDischargeDepth := 99) +contextual [h]
theorem execPairCfgWrite_fixed (t : Nat) (val : Word) (s : State) : OutFixed s (execPairCfgWrite t val s) := by
  unfold execPairCfgWrite; simp
theorem execPairCfgWrite_inv (t : Nat) (val : Word) (s : State) (h : s.Inv) : OutInv (execPairCfgWrite t val s) := by
  unfold execPairCfgWrite; simp (maxDischargeDepth := 99) +contextual [h]
theorem execPostRoadLinkUp_fixed (t : Nat) (s : State) : OutFixed s (execPostRoadLinkUp t s) := by
  unfold execPostRoadLinkUp; simp
theorem execPostRoadLinkUp_inv (t : Nat) (s : State) (h : s.Inv) : OutInv (execPostRoadLinkUp t s) := by
  unfold execPostRoadLinkUp; simp (maxDischargeDepth := 99) +contextual [h]
theorem execPostRoadLinkDown_fixed (t : Nat) (s : State) : OutFixed s (execPostRoadLinkDown t s) := by
  unfold execPostRoadLinkDown; simp
theorem execPostRoadLinkDown_inv (t : Nat) (s : State) (h : s.Inv) : OutInv (execPostRoadLinkDown t s) := by
  unfold execPostRoadLinkDown; simp (maxDischargeDepth := 99) +contextual [h]
theorem execDiscardedSegment_fixed (t : Nat) (s : State) : OutFixed s (execDiscardedSegment t s) := by
  unfold execDiscardedSegment; simp
theorem execDiscardedSegment_inv (t : Nat) (s : State) (h : s.Inv) : OutInv (execDiscardedSegment t s) := by
  unfold execDiscardedSegment; simp (maxDischargeDepth := 99) +contextual [h]
theorem execHelloSend_fixed (t : Nat) (s : State) : OutFixed s (execHelloSend t s) := by
  unfold execHelloSend; simp
theorem execHelloSend_inv (t : Nat) (s : State) (h : s.Inv) : OutInv (execHelloSend t s) := by
  unfold execHelloSend; simp (maxDischargeDepth := 99) +contextual [h]
@[simp] theorem State.offerWaybill_fixed (s : State) : (State.offerWaybill s).fixed = s.fixed := by
  unfold State.offerWaybill; (try dsimp only); (repeat' split) <;> simp
@[simp] theorem State.offerWaybill_inv (s : State) (h : s.Inv) : (State.offerWaybill s).Inv := by
  unfold State.offerWaybill; (try dsimp only); (repeat' split) <;> simp (maxDischargeDepth := 99) +contextual [h]
theorem execHello_fixed (t : Nat) (payload : List Byte) (s : State) : OutFixed s (execHello t payload s) := by
  unfold execHello; simp
theorem execHello_inv (t : Nat) (payload : List Byte) (s : State) (h : s.Inv) : OutInv (execHello t payload s) := by
  unfold execHello; (try dsimp only); (repeat' split) <;> simp (maxDischargeDepth := 99) +contextual [h]
theorem execHeartbeatSend_fixed (t : Nat) (s : State) : OutFixed s (execHeartbeatSend t s) := by
  unfold execHeartbeatSend; simp
theorem execHeartbeatSend_inv (t : Nat) (s : State) (h : s.Inv) : OutInv (execHeartbeatSend t s) := by
  unfold execHeartbeatSend; simp (maxDischargeDepth := 99) +contextual [h]
@[simp] theorem State.shiftTb_fixed (s : State) (d : Int) : (State.shiftTb s d).fixed = s.fixed := by
  unfold State.shiftTb; simp
@[simp] theorem State.shiftTb_inv (s : State) (d : Int) (h : s.Inv) : (State.shiftTb s d).Inv := by
  unfold State.shiftTb; simp (maxDischargeDepth := 99) +contextual [h]
@[simp] theorem State.measurePhase_fixed (s : State) (bs : List Byte) : (State.measurePhase s bs).fixed = s.fixed := by
  unfold State.measurePhase; (try dsimp only); (repeat' split) <;> simp
@[simp] theorem State.measurePhase_inv (s : State) (bs : List Byte) (h : s.Inv) : (State.measurePhase s bs).Inv := by
  unfold State.measurePhase; (try dsimp only); (repeat' split) <;> simp (maxDischargeDepth := 99) +contextual [h]
theorem execHeartbeat_fixed (t : Nat) (payload : List Byte) (s : State) : OutFixed s (execHeartbeat t payload s) := by
  unfold execHeartbeat; simp
theorem execHeartbeat_inv (t : Nat) (payload : List Byte) (s : State) (h : s.Inv) : OutInv (execHeartbeat t payload s) := by
  unfold execHeartbeat
  extract_lets s1 p s2 q s3 s4 late s5 s6 r
  have h1 : s1.Inv := by simp [s1, h]
  have h2 : s2.Inv := by simp [s2, p, h1]
  have h3 : s3.Inv := by simp [s3, q, h2]
  have h4 : s4.Inv := by simp [s4, h3]
  have h5 : s5.Inv := by simp [s5, h4]
  have h6 : s6.Inv := by simp [s6, h5]
  simp (maxDischargeDepth := 99) [h1, h6, r]
@[simp] theorem State.cableLost_fixed (s : State) : (State.cableLost s).fixed = s.fixed := by
  unfold State.cableLost; simp
@[simp] theorem State.cableLost_inv (s : State) (h : s.Inv) : (State.cableLost s).Inv := by
  unfold State.cableLost; simp (maxDischargeDepth := 99) +contextual [h]
@[simp] theorem State.partnerLost_fixed (s : State) : (State.partnerLost s).fixed = s.fixed := by
  unfold State.partnerLost; simp
@[simp] theorem State.partnerLost_inv (s : State) (h : s.Inv) : (State.partnerLost s).Inv := by
  unfold State.partnerLost; simp (maxDischargeDepth := 99) +contextual [h]
@[simp] theorem State.heartbeatsLost_fixed (s : State) : (State.heartbeatsLost s).fixed = s.fixed := by
  unfold State.heartbeatsLost; simp
@[simp] theorem State.heartbeatsLost_inv (s : State) (h : s.Inv) : (State.heartbeatsLost s).Inv := by
  unfold State.heartbeatsLost; simp (maxDischargeDepth := 99) +contextual [h]
theorem execHeartbeatMissing_fixed (t : Nat) (s : State) : OutFixed s (execHeartbeatMissing t s) := by
  unfold execHeartbeatMissing; simp
theorem execHeartbeatMissing_inv (t : Nat) (s : State) (h : s.Inv) : OutInv (execHeartbeatMissing t s) := by
  unfold execHeartbeatMissing; simp (maxDischargeDepth := 99) +contextual [h]
theorem execTakeover_fixed (t : Nat) (s : State) : OutFixed s (execTakeover t s) := by
  unfold execTakeover; (try dsimp only); (repeat' split) <;> simp
theorem execTakeover_inv (t : Nat) (s : State) (h : s.Inv) : OutInv (execTakeover t s) := by
  unfold execTakeover; (try dsimp only); (repeat' split) <;> simp (maxDischargeDepth := 99) +contextual [h]
theorem execPowerfail_fixed (t : Nat) (payload : List Byte) (s : State) : OutFixed s (execPowerfail t payload s) := by
  unfold execPowerfail; simp
theorem execPowerfail_inv (t : Nat) (payload : List Byte) (s : State) (h : s.Inv) : OutInv (execPowerfail t payload s) := by
  unfold execPowerfail; simp (maxDischargeDepth := 99) +contextual [h]
theorem execInput_fixed (t : Nat) (payload : List Byte) (s : State) : OutFixed s (execInput t payload s) := by
  unfold execInput; simp
theorem execInput_inv (t : Nat) (payload : List Byte) (s : State) (h : s.Inv) : OutInv (execInput t payload s) := by
  unfold execInput; simp (maxDischargeDepth := 99) +contextual [h]
theorem execDigest_fixed (t : Nat) (payload : List Byte) (s : State) : OutFixed s (execDigest t payload s) := by
  unfold execDigest; simp
theorem execDigest_inv (t : Nat) (payload : List Byte) (s : State) (h : s.Inv) : OutInv (execDigest t payload s) := by
  unfold execDigest; simp (maxDischargeDepth := 99) +contextual [h]
theorem execDigestLate_fixed (t : Nat) (s : State) : OutFixed s (execDigestLate t s) := by
  unfold execDigestLate; (try dsimp only); (repeat' split) <;> simp
theorem execDigestLate_inv (t : Nat) (s : State) (h : s.Inv) : OutInv (execDigestLate t s) := by
  unfold execDigestLate; (try dsimp only); (repeat' split) <;> simp (maxDischargeDepth := 99) +contextual [h]
theorem execOutstep_fixed (t : Nat) (payload : List Byte) (s : State) : OutFixed s (execOutstep t payload s) := by
  unfold execOutstep; simp
theorem execOutstep_inv (t : Nat) (payload : List Byte) (s : State) (h : s.Inv) : OutInv (execOutstep t payload s) := by
  unfold execOutstep; simp (maxDischargeDepth := 99) +contextual [h]
theorem execEdit_fixed (t : Nat) (payload : List Byte) (s : State) : OutFixed s (execEdit t payload s) := by
  unfold execEdit; simp
theorem execEdit_inv (t : Nat) (payload : List Byte) (s : State) (h : s.Inv) : OutInv (execEdit t payload s) := by
  unfold execEdit; simp (maxDischargeDepth := 99) +contextual [h]
theorem execStopMessage_fixed (t : Nat) (payload : List Byte) (s : State) : OutFixed s (execStopMessage t payload s) := by
  unfold execStopMessage; simp
theorem execStopMessage_inv (t : Nat) (payload : List Byte) (s : State) (h : s.Inv) : OutInv (execStopMessage t payload s) := by
  unfold execStopMessage; simp (maxDischargeDepth := 99) +contextual [h]
theorem execPairSwitch_fixed (t : Nat) (c : RingId) (e : CmdEntry) (s : State) : OutFixed s (execPairSwitch t c e s) := by
  unfold execPairSwitch; simp
theorem execPairSwitch_inv (t : Nat) (c : RingId) (e : CmdEntry) (s : State) (h : s.Inv) : OutInv (execPairSwitch t c e s) := by
  unfold execPairSwitch; simp (maxDischargeDepth := 99) +contextual [h]
theorem execReversion_fixed (t : Nat) (s : State) : OutFixed s (execReversion t s) := by
  unfold execReversion; simp
theorem execReversion_inv (t : Nat) (s : State) (h : s.Inv) : OutInv (execReversion t s) := by
  unfold execReversion; simp (maxDischargeDepth := 99) +contextual [h]
@[simp] theorem State.answerSwitch_fixed (s : State) (tick : Nat) : (State.answerSwitch s tick).fixed = s.fixed := by
  unfold State.answerSwitch; simp
@[simp] theorem State.answerSwitch_inv (s : State) (tick : Nat) (h : s.Inv) : (State.answerSwitch s tick).Inv := by
  unfold State.answerSwitch; simp (maxDischargeDepth := 99) +contextual [h]
theorem execSwitch_fixed (t : Nat) (payload : List Byte) (s : State) : OutFixed s (execSwitch t payload s) := by
  unfold execSwitch; (try dsimp only); (repeat' split) <;> simp
theorem execSwitch_inv (t : Nat) (payload : List Byte) (s : State) (h : s.Inv) : OutInv (execSwitch t payload s) := by
  unfold execSwitch; (try dsimp only); (repeat' split) <;> simp (maxDischargeDepth := 99) +contextual [h]
theorem execPlannedSwitch_fixed (t : Nat) (s : State) : OutFixed s (execPlannedSwitch t s) := by
  unfold execPlannedSwitch; (try dsimp only); (repeat' split) <;> simp
theorem execPlannedSwitch_inv (t : Nat) (s : State) (h : s.Inv) : OutInv (execPlannedSwitch t s) := by
  unfold execPlannedSwitch; (try dsimp only); (repeat' split) <;> simp (maxDischargeDepth := 99) +contextual [h]
@[simp] theorem State.commandSync_fixed (s : State) : (State.commandSync s).fixed = s.fixed := by
  unfold State.commandSync; simp
@[simp] theorem State.commandSync_inv (s : State) (h : s.Inv) : (State.commandSync s).Inv := by
  unfold State.commandSync; simp (maxDischargeDepth := 99) +contextual [h]
theorem execResync_fixed (t : Nat) (c : RingId) (e : CmdEntry) (s : State) : OutFixed s (execResync t c e s) := by
  unfold execResync; simp
theorem execResync_inv (t : Nat) (c : RingId) (e : CmdEntry) (s : State) (h : s.Inv) : OutInv (execResync t c e s) := by
  unfold execResync; simp (maxDischargeDepth := 99) +contextual [h]
@[simp] theorem Room.fromRecord_ok (v : Room) (c : Conf) (stg : Vector Stg 192) (ws : List Word) (h : v.Ok) : (Room.fromRecord v c stg ws).Ok := by
  unfold Room.fromRecord; simp (maxDischargeDepth := 99) +contextual [h]
@[simp] theorem State.takeBlock_fixed (s : State) (c : Conf) (b : StreamBlock) : (State.takeBlock s c b).fixed = s.fixed := by
  unfold State.takeBlock; (try dsimp only); (repeat' split) <;> simp
@[simp] theorem State.takeBlock_inv (s : State) (c : Conf) (b : StreamBlock) (h : s.Inv) : (State.takeBlock s c b).Inv := by
  unfold State.takeBlock; (try dsimp only); (repeat' split) <;> simp (maxDischargeDepth := 99) +contextual [h]
theorem execStream_fixed (t : Nat) (block : StreamBlock) (s : State) : OutFixed s (execStream t block s) := by
  unfold execStream; (try dsimp only); (repeat' split) <;> simp
theorem execStream_inv (t : Nat) (block : StreamBlock) (s : State) (h : s.Inv) : OutInv (execStream t block s) := by
  unfold execStream; (try dsimp only); (repeat' split) <;> simp (maxDischargeDepth := 99) +contextual [h]
@[simp] theorem State.joinRoom_fixed (s : State) (c : Conf) (i : Nat) : (State.joinRoom s c i).fixed = s.fixed := by
  unfold State.joinRoom; (try dsimp only); (repeat' split) <;> simp
@[simp] theorem State.joinRoom_inv (s : State) (c : Conf) (i : Nat) (h : s.Inv) : (State.joinRoom s c i).Inv := by
  unfold State.joinRoom; (try dsimp only); (repeat' split) <;> simp (maxDischargeDepth := 99) +contextual [h]
@[simp] theorem State.saveWindows_fixed (s : State) (c : Conf) : (State.saveWindows s c).fixed = s.fixed := by
  rw [State.saveWindows]
  generalize 2 ^ 32 = k
  (repeat' split) <;> simp
@[simp] theorem State.saveWindows_inv (s : State) (c : Conf) (h : s.Inv) : (State.saveWindows s c).Inv := by
  rw [State.saveWindows]
  generalize 2 ^ 32 = k
  (repeat' split) <;> simp (maxDischargeDepth := 99) +contextual [h]
@[simp] theorem State.join_fixed (s : State) (c : Conf) (j : Nat) : (State.join s c j).fixed = s.fixed := by
  unfold State.join; (try dsimp only); (repeat' split) <;> first
    | (simp; done)
    | (simp; rw [foldl_fixed]; (· simp); intro _ _; (try dsimp only); (repeat' split) <;> simp)
    | (simp; rw [foldl_fixed]; (· intro _ _; (try dsimp only); (repeat' split) <;> simp))
@[simp] theorem State.join_inv (s : State) (c : Conf) (j : Nat) (h : s.Inv) : (State.join s c j).Inv := by
  unfold State.join; simp (maxDischargeDepth := 99) +contextual [h]
theorem execJoinAttempt_fixed (t : Nat) (arrived : Bool) (blockRoom : Nat) (s : State) : OutFixed s (execJoinAttempt t arrived blockRoom s) := by
  unfold execJoinAttempt; (try dsimp only); (repeat' split) <;> simp
theorem execJoinAttempt_inv (t : Nat) (arrived : Bool) (blockRoom : Nat) (s : State) (h : s.Inv) : OutInv (execJoinAttempt t arrived blockRoom s) := by
  unfold execJoinAttempt; (try dsimp only); (repeat' split) <;> first
    | (simp (maxDischargeDepth := 99) +contextual [h]; done)
    | (refine foldl_inv _ _ _ (by simp (maxDischargeDepth := 99) +contextual [h]) ?_; intro _ _ h; (try dsimp only); (repeat' split) <;> simp (maxDischargeDepth := 99) +contextual [h])
theorem execJoin_fixed (t : Nat) (payload : List Byte) (s : State) : OutFixed s (execJoin t payload s) := by
  unfold execJoin; simp
theorem execJoin_inv (t : Nat) (payload : List Byte) (s : State) (h : s.Inv) : OutInv (execJoin t payload s) := by
  unfold execJoin; simp (maxDischargeDepth := 99) +contextual [h]
theorem execWaybill_fixed (t : Nat) (payload : List Byte) (s : State) : OutFixed s (execWaybill t payload s) := by
  unfold execWaybill; simp
theorem execWaybill_inv (t : Nat) (payload : List Byte) (s : State) (h : s.Inv) : OutInv (execWaybill t payload s) := by
  unfold execWaybill; simp (maxDischargeDepth := 99) +contextual [h]
@[simp] theorem State.setDisc_fixed (s : State) (n : ChanId) (on : Bool) : (State.setDisc s n on).fixed = s.fixed := by
  unfold State.setDisc; simp
@[simp] theorem State.setDisc_inv (s : State) (n : ChanId) (on : Bool) (h : s.Inv) : (State.setDisc s n on).Inv := by
  unfold State.setDisc; simp (maxDischargeDepth := 99) +contextual [h]
theorem execInputDiscrepancy_fixed (t : Nat) (ch : ChanId) (set : Bool) (s : State) : OutFixed s (execInputDiscrepancy t ch set s) := by
  unfold execInputDiscrepancy; (try dsimp only); (repeat' split) <;> simp
theorem execInputDiscrepancy_inv (t : Nat) (ch : ChanId) (set : Bool) (s : State) (h : s.Inv) : OutInv (execInputDiscrepancy t ch set s) := by
  unfold execInputDiscrepancy; (try dsimp only); (repeat' split) <;> simp (maxDischargeDepth := 99) +contextual [h]
theorem execDisc_fixed (t : Nat) (payload : List Byte) (s : State) : OutFixed s (execDisc t payload s) := by
  unfold execDisc; simp
theorem execDisc_inv (t : Nat) (payload : List Byte) (s : State) (h : s.Inv) : OutInv (execDisc t payload s) := by
  unfold execDisc; simp (maxDischargeDepth := 99) +contextual [h]
theorem execProofWindowOpen_fixed (t : Nat) (ch : ChanId) (s : State) : OutFixed s (execProofWindowOpen t ch s) := by
  unfold execProofWindowOpen; simp
theorem execProofWindowOpen_inv (t : Nat) (ch : ChanId) (s : State) (h : s.Inv) : OutInv (execProofWindowOpen t ch s) := by
  unfold execProofWindowOpen; simp (maxDischargeDepth := 99) +contextual [h]
theorem execProof_fixed (t : Nat) (payload : List Byte) (s : State) : OutFixed s (execProof t payload s) := by
  unfold execProof; (try dsimp only); (repeat' split) <;> simp
theorem execProof_inv (t : Nat) (payload : List Byte) (s : State) (h : s.Inv) : OutInv (execProof t payload s) := by
  unfold execProof; (try dsimp only); (repeat' split) <;> simp (maxDischargeDepth := 99) +contextual [h]
@[simp] theorem State.closeProof_fixed (s : State) (n : ChanId) : (State.closeProof s n).fixed = s.fixed := by
  unfold State.closeProof; simp
@[simp] theorem State.closeProof_inv (s : State) (n : ChanId) (h : s.Inv) : (State.closeProof s n).Inv := by
  unfold State.closeProof; simp (maxDischargeDepth := 99) +contextual [h]
@[simp] theorem State.judgeProof_fixed (s : State) (n : ChanId) (passes : Bool) : (State.judgeProof s n passes).fixed = s.fixed := by
  unfold State.judgeProof; simp
@[simp] theorem State.judgeProof_inv (s : State) (n : ChanId) (passes : Bool) (h : s.Inv) : (State.judgeProof s n passes).Inv := by
  unfold State.judgeProof; simp (maxDischargeDepth := 99) +contextual [h]
@[simp] theorem State.reportProof_fixed (s : State) (n : ChanId) (milliamp : Nat) : (State.reportProof s n milliamp).fixed = s.fixed := by
  unfold State.reportProof; simp
@[simp] theorem State.reportProof_inv (s : State) (n : ChanId) (milliamp : Nat) (h : s.Inv) : (State.reportProof s n milliamp).Inv := by
  unfold State.reportProof; simp (maxDischargeDepth := 99) +contextual [h]
theorem execProofWindowClose_fixed (t : Nat) (ch : ChanId) (milliamp : Nat) (s : State) : OutFixed s (execProofWindowClose t ch milliamp s) := by
  unfold execProofWindowClose; simp
theorem execProofWindowClose_inv (t : Nat) (ch : ChanId) (milliamp : Nat) (s : State) (h : s.Inv) : OutInv (execProofWindowClose t ch milliamp s) := by
  unfold execProofWindowClose; simp (maxDischargeDepth := 99) +contextual [h]
theorem execProofAgeUpdate_fixed (t : Nat) (s : State) : OutFixed s (execProofAgeUpdate t s) := by
  unfold execProofAgeUpdate; simp
theorem execProofAgeUpdate_inv (t : Nat) (s : State) (h : s.Inv) : OutInv (execProofAgeUpdate t s) := by
  unfold execProofAgeUpdate; simp (maxDischargeDepth := 99) +contextual [h]

end Sys2Proof.Machine
end

