-- ==== Sys2Proof/Laws/Lane.lean ====
section
/-! SUPPORT. What a fetch, and each shape of lane instruction, does: one lemma per shape, for the statements about instructions. -/

namespace Sys2Proof.Machine

theorem get_zero (v : Room) : v.get 0 = 0 := rfl

theorem put_get (v : Room) (rd g : Reg) (x : Word) :
    (v.put rd x).get g = if g = rd then (if rd = 0 then 0 else x) else v.get g := by
  simp only [Room.put, Room.get]
  split_ifs <;> simp_all [upd, Vector.getElem_set]
  exact if_congr ⟨fun e => (Fin.ext e).symm, fun e => congrArg Fin.val e.symm⟩ rfl rfl

theorem landLoad_get (v : Room) (g : Reg) : v.landLoad.get g = v.landed g := by
  simp only [Room.landLoad, Room.landed]
  cases hl : v.load with
  | none => rfl
  | some f =>
    simp only
    change (v.put f.rd f.val).get g = _
    rw [put_get]
    split_ifs <;> simp_all [get_zero]

theorem put_regs (v : Room) (rd : Reg) (x : Word) : v.put rd x = { v with g := (v.put rd x).g } := by
  simp only [Room.put]
  split_ifs <;> rfl

theorem foldl_keeps {α β : Type} (key : Room → β) (f : Room → α → Room) (hf : ∀ w e, key (f w e) = key w) (l : List α) (w : Room) :
    key (l.foldl f w) = key w := by
  induction l generalizing w with
  | nil => rfl
  | cons e l ih => rw [List.foldl_cons, ih, hf]

theorem settle_fields (v : Room) (c : Nat) :
    (v.settle c).pc = v.pc ∧ (v.settle c).issued = v.issued ∧ (v.settle c).broken = v.broken ∧ (v.settle c).lane = v.lane := by
  let key (w : Room) := (w.pc, w.issued, w.broken, w.lane)
  have put (w : Room) (g : Reg) (x : Word) : key { w.put g x with load := none } = key w := by
    simp only [key]
    rw [put_regs]
  have e1 (w : Room) (q : List (Nat × Word × Word)) : key { w with divQ := q } = key w := rfl
  have e2 (w : Room) (q : List (Nat × Word)) : key { w with fpuQ := q } = key w := rfl
  have e3 (w : Room) (q : List (Nat × DWord)) : key { w with macQ := q } = key w := rfl
  have h : key (v.settle c) = key v := by
    unfold Room.settle
    simp only []
    rw [e1, foldl_keeps key, e2, foldl_keeps key, e3, foldl_keeps key]
    · cases v.load with
      | none => rfl
      | some f => simp only; split_ifs; exacts [put .., rfl]
    all_goals exact fun _ _ => rfl
  simp only [key, Prod.mk.injEq] at h
  exact h

theorem issue_kept (v : Room) (e : Bool) (c : Nat) : RoomKept v (v.issue e c) := by
  simp only [RoomKept, Room.issue, Room.landLoad]
  cases v.load with
  | none => rfl
  | some f => simp only [Room.put]; split_ifs <;> rfl

theorem issue_fields (v : Room) (e : Bool) (c : Nat) :
    (v.issue e c).flags = v.flags ∧ (v.issue e c).pc = v.pc + 1 ∧ (v.issue e c).issued = v.issued + 1 ∧
    (v.issue e c).broken = (if e then v.broken <|> some (c + 8, v.pc) else v.broken) ∧ ∀ g, (v.issue e c).get g = v.landed g := by
  refine ⟨?_, rfl, rfl, rfl, fun g => landLoad_get v g⟩
  simp only [Room.flags, Room.issue, Room.landLoad]
  cases v.load with
  | none => rfl
  | some f => simp only [Room.put]; split_ifs <;> rfl

/-- The machine as an instruction of room r finds it: the room issued, time past its slot. -/
def State.fetched (s : State) (t : Nat) (r : RoomId) (e : Bool) : State :=
  { s.updRoom r (fun _ => (s.operands t r).issue e (s.fetchCycle t r)) with
    now := s.fetchCycle t r + 1
    scan := s.scan.issue (s.operands t r).lane r (s.fetchCycle t r) s.rooms[r] }

/-- A lane command of a room that can issue acts on the fetched machine. -/
theorem lane_eq {s : State} {t : Nat} {r : RoomId} {early : Room → Bool} {act : Room → Nat → State → State}
    (h : s.canIssue r = true) :
    s.lane t r early act = act (s.operands t r) (s.fetchCycle t r) (s.fetched t r (early (s.operands t r))) := by
  simp only [State.lane, h, if_true]
  rfl

theorem updRoom_room (s : State) (r : RoomId) (f : Room → Room) : (s.updRoom r f).rooms[r] = f s.rooms[r] := by
  simp [State.updRoom, upd]

theorem updRoom_other (s : State) (r q : RoomId) (f : Room → Room) (h : q ≠ r) : (s.updRoom r f).rooms[q] = s.rooms[q] := by
  have : ¬ r.val = q.val := fun e => h (Fin.ext e).symm
  simp [State.updRoom, upd, this]

theorem fetched_room (s : State) (t : Nat) (r : RoomId) (e : Bool) :
    (s.fetched t r e).rooms[r] = (s.operands t r).issue e (s.fetchCycle t r) :=
  updRoom_room s r _

theorem fetched_fetched (s : State) (t : Nat) (r : RoomId) (e : Bool) : Fetched s (s.fetched t r e) t r e := by
  obtain ⟨hp, hn, hb, hl⟩ := settle_fields s.rooms[r] (s.fetchCycle t r + 2)
  refine ⟨rfl, fun q hq => updRoom_other s r q _ hq, ?_, ?_, ?_⟩
  · rw [fetched_room]
    exact congrArg (· + 1) hn
  · have h : ∀ k : LaneId, (s.operands t r).lane = k → (s.fetched t r e).scan.current[k] = BitVec.ofNat 7 r.val := by
      rintro _ rfl
      simp [State.fetched, upd, Scan.issue]
    exact h _ hl
  · rw [fetched_room, ← hb, ← hp]
    rfl

/-- A fetch whose instruction changes only its own room: the room becomes `f` of the issued one. -/
theorem lane_room {s : State} {t : Nat} {r : RoomId} {early : Room → Bool} {act : Room → Nat → State → State} {f : Room → Room}
    (h : s.canIssue r = true)
    (hact : ∀ s' : State, act (s.operands t r) (s.fetchCycle t r) s' = s'.updRoom r f)
    (hi : ∀ w : Room, (f w).issued = w.issued ∧ (f w).broken = w.broken) :
    Fetched s (s.lane t r early act) t r (early (s.operands t r)) ∧ OnlyRooms s (s.lane t r early act) ∧
    (s.lane t r early act).rooms[r] = f ((s.operands t r).issue (early (s.operands t r)) (s.fetchCycle t r)) := by
  rw [lane_eq h, hact]
  have hF := fetched_fetched s t r (early (s.operands t r))
  have hr := fetched_room s t r (early (s.operands t r))
  refine ⟨⟨hF.now, fun q hq => (updRoom_other _ r q f hq).trans (hF.others q hq), ?_, hF.current, ?_⟩, rfl, ?_⟩
  · rw [updRoom_room, (hi _).1]
    exact hF.issued
  · rw [updRoom_room, (hi _).2]
    exact hF.broken
  · rw [updRoom_room, hr]

/-- An instruction of the shape `laneReg` writes its register and flags and nothing else. -/
theorem writes_laneReg {s : State} {t : Nat} {r : RoomId} {i : Instr} {reads : List Reg} {rd : Reg} {f : Room → Word}
    {g : Room → Room → Room} {fl : Bool × Bool × Bool × Bool × Bool} (he : exec i s = .next (s.laneReg t r rd reads f g))
    (h : s.canIssue r = true)
    (hg : ∀ w, g (s.operands t r) w = { w with z := (g (s.operands t r) w).z, n := (g (s.operands t r) w).n, c := (g (s.operands t r) w).c, v := (g (s.operands t r) w).v, b := (g (s.operands t r) w).b })
    (hf : ∀ w : Room, w.flags = (s.operands t r).flags → (g (s.operands t r) w).flags = fl) :
    Writes s t r i (loadPending reads (s.operands t r)) rd (f (s.operands t r)) fl := by
  obtain ⟨hF, hO, hr⟩ := lane_room (t := t) (early := loadPending reads) (f := fun w => (g (s.operands t r) w).put rd (f (s.operands t r)))
    (act := fun v _ s => s.updRoom r (fun w => (g v w).put rd (f v))) h (fun _ => rfl)
    (fun w => by rw [put_regs, hg]; exact ⟨rfl, rfl⟩)
  obtain ⟨hfl, hpc, -, -, hget⟩ := issue_fields (s.operands t r) (loadPending reads (s.operands t r)) (s.fetchCycle t r)
  refine ⟨_, he, hF, hO, ?_, ?_, ?_, ?_, ?_⟩ <;> (try unfold State.laneReg) <;> rw [hr]
  · have k := issue_kept (s.operands t r) (loadPending reads (s.operands t r)) (s.fetchCycle t r)
    generalize (s.operands t r).issue (loadPending reads (s.operands t r)) (s.fetchCycle t r) = w at k
    unfold RoomKept at k ⊢
    rw [put_regs, hg, k]
  · intro q hq
    rw [put_get, if_neg hq, hg]
    exact hget q
  · rw [put_get, if_pos rfl]
  · rw [put_regs]; exact hf _ hfl
  · rw [put_regs, hg]
    exact hpc.trans (congrArg (· + 1) (settle_fields s.rooms[r] (s.fetchCycle t r + 2)).1)

/-- An instruction of the shapes `laneFlags` and `laneJump`, or one that writes nothing, leaves flags and a PC. -/
theorem leaves_lane {s : State} {t : Nat} {r : RoomId} {i : Instr} {early : Room → Bool}
    {act : Room → Nat → State → State} {f : Room → Room} {fl : Bool × Bool × Bool × Bool × Bool} {pc : BitVec 20}
    (he : exec i s = .next (s.lane t r early act)) (h : s.canIssue r = true)
    (hact : ∀ s' : State, act (s.operands t r) (s.fetchCycle t r) s' = s'.updRoom r f)
    (hg : ∀ w, f w = { w with pc := (f w).pc, z := (f w).z, n := (f w).n, c := (f w).c, v := (f w).v, b := (f w).b })
    (hf : ∀ w : Room, w.flags = (s.operands t r).flags → w.pc = (s.operands t r).pc + 1 → (f w).flags = fl ∧ (f w).pc = pc) :
    Leaves s t r i (early (s.operands t r)) fl pc := by
  obtain ⟨hF, hO, hr⟩ := lane_room (t := t) (early := early) (f := f) (act := act) h hact (fun w => by rw [hg]; exact ⟨rfl, rfl⟩)
  obtain ⟨hfl, hpc, -, -, hget⟩ := issue_fields (s.operands t r) (early (s.operands t r)) (s.fetchCycle t r)
  refine ⟨_, he, hF, hO, ?_, ?_, ?_, ?_⟩ <;> rw [hr]
  · have k := issue_kept (s.operands t r) (early (s.operands t r)) (s.fetchCycle t r)
    generalize (s.operands t r).issue (early (s.operands t r)) (s.fetchCycle t r) = w at k
    unfold RoomKept at k ⊢
    rw [hg, k]
  · intro q
    rw [hg]
    exact hget q
  · exact (hf _ hfl hpc).1
  · exact (hf _ hfl hpc).2

end Sys2Proof.Machine
end

