-- ==== Sys2Proof/Laws/State.lean ====
section
/-! SUPPORT. One lemma per field per named update of the state, and what a vector with one entry replaced holds. -/

namespace Sys2Proof.Machine

/-- An entry of a vector after one of its entries is replaced. -/
theorem getElem_upd {α : Type} {n : Nat} (v : Vector α n) (i j : Fin n) (f : α → α) :
    (upd v i f)[j] = if i = j then f v[j] else v[j] := by
  by_cases h : i = j
  · subst h; simp [upd]
  · have : i.val ≠ j.val := fun e => h (Fin.ext e)
    simp [upd, h, this]

@[simp] theorem getElem_upd_self {α : Type} {n : Nat} (v : Vector α n) (i : Fin n) (f : α → α) : (upd v i f)[i] = f v[i] := by
  rw [getElem_upd, if_pos rfl]

theorem getElem_upd_other {α : Type} {n : Nat} {v : Vector α n} {i j : Fin n} {f : α → α} (h : i ≠ j) : (upd v i f)[j] = v[j] := by
  rw [getElem_upd, if_neg h]

@[simp] theorem State.at_now (s : State) (t : Nat) : (s.at t).now = max s.now t := rfl
@[simp] theorem State.at_tb0 (s : State) (t : Nat) : (s.at t).tb0 = s.tb0 := rfl
@[simp] theorem State.at_cycle (s : State) (t : Nat) : (s.at t).cycle = s.cycle := rfl
@[simp] theorem State.at_phase (s : State) (t : Nat) : (s.at t).phase = s.phase := rfl
@[simp] theorem State.at_pwr (s : State) (t : Nat) : (s.at t).pwr = s.pwr := rfl
@[simp] theorem State.at_clk (s : State) (t : Nat) : (s.at t).clk = s.clk := rfl
@[simp] theorem State.at_scan (s : State) (t : Nat) : (s.at t).scan = s.scan := rfl
@[simp] theorem State.at_rooms (s : State) (t : Nat) : (s.at t).rooms = s.rooms := rfl
@[simp] theorem State.at_dmem (s : State) (t : Nat) : (s.at t).dmem = s.dmem := rfl
@[simp] theorem State.at_img (s : State) (t : Nat) : (s.at t).img = s.img := rfl
@[simp] theorem State.at_inn (s : State) (t : Nat) : (s.at t).inn = s.inn := rfl
@[simp] theorem State.at_app (s : State) (t : Nat) : (s.at t).app = s.app := rfl
@[simp] theorem State.at_edits (s : State) (t : Nat) : (s.at t).edits = s.edits := rfl
@[simp] theorem State.at_chans (s : State) (t : Nat) : (s.at t).chans = s.chans := rfl
@[simp] theorem State.at_groups (s : State) (t : Nat) : (s.at t).groups = s.groups := rfl
@[simp] theorem State.at_spare (s : State) (t : Nat) : (s.at t).spare = s.spare := rfl
@[simp] theorem State.at_cans (s : State) (t : Nat) : (s.at t).cans = s.cans := rfl
@[simp] theorem State.at_host (s : State) (t : Nat) : (s.at t).host = s.host := rfl
@[simp] theorem State.at_pair (s : State) (t : Nat) : (s.at t).pair = s.pair := rfl
@[simp] theorem State.at_np (s : State) (t : Nat) : (s.at t).np = s.np := rfl
@[simp] theorem State.at_bk (s : State) (t : Nat) : (s.at t).bk = s.bk := rfl
@[simp] theorem State.at_nv (s : State) (t : Nat) : (s.at t).nv = s.nv := rfl
@[simp] theorem State.at_gb (s : State) (t : Nat) : (s.at t).gb = s.gb := rfl
@[simp] theorem State.at_sec (s : State) (t : Nat) : (s.at t).sec = s.sec := rfl
@[simp] theorem State.at_out (s : State) (t : Nat) : (s.at t).out = s.out := rfl
@[simp] theorem State.at_fresh (s : State) (t : Nat) : (s.at t).fresh = s.fresh := rfl
@[simp] theorem State.at_pending (s : State) (t : Nat) : (s.at t).pending = s.pending := rfl
@[simp] theorem State.at_marks (s : State) (t : Nat) : (s.at t).marks = s.marks := rfl

@[simp] theorem State.updRoom_now (s : State) (r : RoomId) (f : Room → Room) : (s.updRoom r f).now = s.now := rfl
@[simp] theorem State.updRoom_tb0 (s : State) (r : RoomId) (f : Room → Room) : (s.updRoom r f).tb0 = s.tb0 := rfl
@[simp] theorem State.updRoom_cycle (s : State) (r : RoomId) (f : Room → Room) : (s.updRoom r f).cycle = s.cycle := rfl
@[simp] theorem State.updRoom_phase (s : State) (r : RoomId) (f : Room → Room) : (s.updRoom r f).phase = s.phase := rfl
@[simp] theorem State.updRoom_pwr (s : State) (r : RoomId) (f : Room → Room) : (s.updRoom r f).pwr = s.pwr := rfl
@[simp] theorem State.updRoom_clk (s : State) (r : RoomId) (f : Room → Room) : (s.updRoom r f).clk = s.clk := rfl
@[simp] theorem State.updRoom_scan (s : State) (r : RoomId) (f : Room → Room) : (s.updRoom r f).scan = s.scan := rfl
@[simp] theorem State.updRoom_rooms (s : State) (r : RoomId) (f : Room → Room) : (s.updRoom r f).rooms = upd s.rooms r f := rfl
@[simp] theorem State.updRoom_dmem (s : State) (r : RoomId) (f : Room → Room) : (s.updRoom r f).dmem = s.dmem := rfl
@[simp] theorem State.updRoom_img (s : State) (r : RoomId) (f : Room → Room) : (s.updRoom r f).img = s.img := rfl
@[simp] theorem State.updRoom_inn (s : State) (r : RoomId) (f : Room → Room) : (s.updRoom r f).inn = s.inn := rfl
@[simp] theorem State.updRoom_app (s : State) (r : RoomId) (f : Room → Room) : (s.updRoom r f).app = s.app := rfl
@[simp] theorem State.updRoom_edits (s : State) (r : RoomId) (f : Room → Room) : (s.updRoom r f).edits = s.edits := rfl
@[simp] theorem State.updRoom_chans (s : State) (r : RoomId) (f : Room → Room) : (s.updRoom r f).chans = s.chans := rfl
@[simp] theorem State.updRoom_groups (s : State) (r : RoomId) (f : Room → Room) : (s.updRoom r f).groups = s.groups := rfl
@[simp] theorem State.updRoom_spare (s : State) (r : RoomId) (f : Room → Room) : (s.updRoom r f).spare = s.spare := rfl
@[simp] theorem State.updRoom_cans (s : State) (r : RoomId) (f : Room → Room) : (s.updRoom r f).cans = s.cans := rfl
@[simp] theorem State.updRoom_host (s : State) (r : RoomId) (f : Room → Room) : (s.updRoom r f).host = s.host := rfl
@[simp] theorem State.updRoom_pair (s : State) (r : RoomId) (f : Room → Room) : (s.updRoom r f).pair = s.pair := rfl
@[simp] theorem State.updRoom_np (s : State) (r : RoomId) (f : Room → Room) : (s.updRoom r f).np = s.np := rfl
@[simp] theorem State.updRoom_bk (s : State) (r : RoomId) (f : Room → Room) : (s.updRoom r f).bk = s.bk := rfl
@[simp] theorem State.updRoom_nv (s : State) (r : RoomId) (f : Room → Room) : (s.updRoom r f).nv = s.nv := rfl
@[simp] theorem State.updRoom_gb (s : State) (r : RoomId) (f : Room → Room) : (s.updRoom r f).gb = s.gb := rfl
@[simp] theorem State.updRoom_sec (s : State) (r : RoomId) (f : Room → Room) : (s.updRoom r f).sec = s.sec := rfl
@[simp] theorem State.updRoom_out (s : State) (r : RoomId) (f : Room → Room) : (s.updRoom r f).out = s.out := rfl
@[simp] theorem State.updRoom_fresh (s : State) (r : RoomId) (f : Room → Room) : (s.updRoom r f).fresh = s.fresh := rfl
@[simp] theorem State.updRoom_pending (s : State) (r : RoomId) (f : Room → Room) : (s.updRoom r f).pending = s.pending := rfl
@[simp] theorem State.updRoom_marks (s : State) (r : RoomId) (f : Room → Room) : (s.updRoom r f).marks = s.marks := rfl

@[simp] theorem State.updChan_now (s : State) (c : ChanId) (f : Chan → Chan) : (s.updChan c f).now = s.now := rfl
@[simp] theorem State.updChan_tb0 (s : State) (c : ChanId) (f : Chan → Chan) : (s.updChan c f).tb0 = s.tb0 := rfl
@[simp] theorem State.updChan_cycle (s : State) (c : ChanId) (f : Chan → Chan) : (s.updChan c f).cycle = s.cycle := rfl
@[simp] theorem State.updChan_phase (s : State) (c : ChanId) (f : Chan → Chan) : (s.updChan c f).phase = s.phase := rfl
@[simp] theorem State.updChan_pwr (s : State) (c : ChanId) (f : Chan → Chan) : (s.updChan c f).pwr = s.pwr := rfl
@[simp] theorem State.updChan_clk (s : State) (c : ChanId) (f : Chan → Chan) : (s.updChan c f).clk = s.clk := rfl
@[simp] theorem State.updChan_scan (s : State) (c : ChanId) (f : Chan → Chan) : (s.updChan c f).scan = s.scan := rfl
@[simp] theorem State.updChan_rooms (s : State) (c : ChanId) (f : Chan → Chan) : (s.updChan c f).rooms = s.rooms := rfl
@[simp] theorem State.updChan_dmem (s : State) (c : ChanId) (f : Chan → Chan) : (s.updChan c f).dmem = s.dmem := rfl
@[simp] theorem State.updChan_img (s : State) (c : ChanId) (f : Chan → Chan) : (s.updChan c f).img = s.img := rfl
@[simp] theorem State.updChan_inn (s : State) (c : ChanId) (f : Chan → Chan) : (s.updChan c f).inn = s.inn := rfl
@[simp] theorem State.updChan_app (s : State) (c : ChanId) (f : Chan → Chan) : (s.updChan c f).app = s.app := rfl
@[simp] theorem State.updChan_edits (s : State) (c : ChanId) (f : Chan → Chan) : (s.updChan c f).edits = s.edits := rfl
@[simp] theorem State.updChan_chans (s : State) (c : ChanId) (f : Chan → Chan) : (s.updChan c f).chans = upd s.chans c f := rfl
@[simp] theorem State.updChan_groups (s : State) (c : ChanId) (f : Chan → Chan) : (s.updChan c f).groups = s.groups := rfl
@[simp] theorem State.updChan_spare (s : State) (c : ChanId) (f : Chan → Chan) : (s.updChan c f).spare = s.spare := rfl
@[simp] theorem State.updChan_cans (s : State) (c : ChanId) (f : Chan → Chan) : (s.updChan c f).cans = s.cans := rfl
@[simp] theorem State.updChan_host (s : State) (c : ChanId) (f : Chan → Chan) : (s.updChan c f).host = s.host := rfl
@[simp] theorem State.updChan_pair (s : State) (c : ChanId) (f : Chan → Chan) : (s.updChan c f).pair = s.pair := rfl
@[simp] theorem State.updChan_np (s : State) (c : ChanId) (f : Chan → Chan) : (s.updChan c f).np = s.np := rfl
@[simp] theorem State.updChan_bk (s : State) (c : ChanId) (f : Chan → Chan) : (s.updChan c f).bk = s.bk := rfl
@[simp] theorem State.updChan_nv (s : State) (c : ChanId) (f : Chan → Chan) : (s.updChan c f).nv = s.nv := rfl
@[simp] theorem State.updChan_gb (s : State) (c : ChanId) (f : Chan → Chan) : (s.updChan c f).gb = s.gb := rfl
@[simp] theorem State.updChan_sec (s : State) (c : ChanId) (f : Chan → Chan) : (s.updChan c f).sec = s.sec := rfl
@[simp] theorem State.updChan_out (s : State) (c : ChanId) (f : Chan → Chan) : (s.updChan c f).out = s.out := rfl
@[simp] theorem State.updChan_fresh (s : State) (c : ChanId) (f : Chan → Chan) : (s.updChan c f).fresh = s.fresh := rfl
@[simp] theorem State.updChan_pending (s : State) (c : ChanId) (f : Chan → Chan) : (s.updChan c f).pending = s.pending := rfl
@[simp] theorem State.updChan_marks (s : State) (c : ChanId) (f : Chan → Chan) : (s.updChan c f).marks = s.marks := rfl

@[simp] theorem State.updGrp_now (s : State) (g : GrpId) (f : Group → Group) : (s.updGrp g f).now = s.now := rfl
@[simp] theorem State.updGrp_tb0 (s : State) (g : GrpId) (f : Group → Group) : (s.updGrp g f).tb0 = s.tb0 := rfl
@[simp] theorem State.updGrp_cycle (s : State) (g : GrpId) (f : Group → Group) : (s.updGrp g f).cycle = s.cycle := rfl
@[simp] theorem State.updGrp_phase (s : State) (g : GrpId) (f : Group → Group) : (s.updGrp g f).phase = s.phase := rfl
@[simp] theorem State.updGrp_pwr (s : State) (g : GrpId) (f : Group → Group) : (s.updGrp g f).pwr = s.pwr := rfl
@[simp] theorem State.updGrp_clk (s : State) (g : GrpId) (f : Group → Group) : (s.updGrp g f).clk = s.clk := rfl
@[simp] theorem State.updGrp_scan (s : State) (g : GrpId) (f : Group → Group) : (s.updGrp g f).scan = s.scan := rfl
@[simp] theorem State.updGrp_rooms (s : State) (g : GrpId) (f : Group → Group) : (s.updGrp g f).rooms = s.rooms := rfl
@[simp] theorem State.updGrp_dmem (s : State) (g : GrpId) (f : Group → Group) : (s.updGrp g f).dmem = s.dmem := rfl
@[simp] theorem State.updGrp_img (s : State) (g : GrpId) (f : Group → Group) : (s.updGrp g f).img = s.img := rfl
@[simp] theorem State.updGrp_inn (s : State) (g : GrpId) (f : Group → Group) : (s.updGrp g f).inn = s.inn := rfl
@[simp] theorem State.updGrp_app (s : State) (g : GrpId) (f : Group → Group) : (s.updGrp g f).app = s.app := rfl
@[simp] theorem State.updGrp_edits (s : State) (g : GrpId) (f : Group → Group) : (s.updGrp g f).edits = s.edits := rfl
@[simp] theorem State.updGrp_chans (s : State) (g : GrpId) (f : Group → Group) : (s.updGrp g f).chans = s.chans := rfl
@[simp] theorem State.updGrp_groups (s : State) (g : GrpId) (f : Group → Group) : (s.updGrp g f).groups = upd s.groups g f := rfl
@[simp] theorem State.updGrp_spare (s : State) (g : GrpId) (f : Group → Group) : (s.updGrp g f).spare = s.spare := rfl
@[simp] theorem State.updGrp_cans (s : State) (g : GrpId) (f : Group → Group) : (s.updGrp g f).cans = s.cans := rfl
@[simp] theorem State.updGrp_host (s : State) (g : GrpId) (f : Group → Group) : (s.updGrp g f).host = s.host := rfl
@[simp] theorem State.updGrp_pair (s : State) (g : GrpId) (f : Group → Group) : (s.updGrp g f).pair = s.pair := rfl
@[simp] theorem State.updGrp_np (s : State) (g : GrpId) (f : Group → Group) : (s.updGrp g f).np = s.np := rfl
@[simp] theorem State.updGrp_bk (s : State) (g : GrpId) (f : Group → Group) : (s.updGrp g f).bk = s.bk := rfl
@[simp] theorem State.updGrp_nv (s : State) (g : GrpId) (f : Group → Group) : (s.updGrp g f).nv = s.nv := rfl
@[simp] theorem State.updGrp_gb (s : State) (g : GrpId) (f : Group → Group) : (s.updGrp g f).gb = s.gb := rfl
@[simp] theorem State.updGrp_sec (s : State) (g : GrpId) (f : Group → Group) : (s.updGrp g f).sec = s.sec := rfl
@[simp] theorem State.updGrp_out (s : State) (g : GrpId) (f : Group → Group) : (s.updGrp g f).out = s.out := rfl
@[simp] theorem State.updGrp_fresh (s : State) (g : GrpId) (f : Group → Group) : (s.updGrp g f).fresh = s.fresh := rfl
@[simp] theorem State.updGrp_pending (s : State) (g : GrpId) (f : Group → Group) : (s.updGrp g f).pending = s.pending := rfl
@[simp] theorem State.updGrp_marks (s : State) (g : GrpId) (f : Group → Group) : (s.updGrp g f).marks = s.marks := rfl

@[simp] theorem State.updCan_now (s : State) (k : PortId) (f : Can → Can) : (s.updCan k f).now = s.now := rfl
@[simp] theorem State.updCan_tb0 (s : State) (k : PortId) (f : Can → Can) : (s.updCan k f).tb0 = s.tb0 := rfl
@[simp] theorem State.updCan_cycle (s : State) (k : PortId) (f : Can → Can) : (s.updCan k f).cycle = s.cycle := rfl
@[simp] theorem State.updCan_phase (s : State) (k : PortId) (f : Can → Can) : (s.updCan k f).phase = s.phase := rfl
@[simp] theorem State.updCan_pwr (s : State) (k : PortId) (f : Can → Can) : (s.updCan k f).pwr = s.pwr := rfl
@[simp] theorem State.updCan_clk (s : State) (k : PortId) (f : Can → Can) : (s.updCan k f).clk = s.clk := rfl
@[simp] theorem State.updCan_scan (s : State) (k : PortId) (f : Can → Can) : (s.updCan k f).scan = s.scan := rfl
@[simp] theorem State.updCan_rooms (s : State) (k : PortId) (f : Can → Can) : (s.updCan k f).rooms = s.rooms := rfl
@[simp] theorem State.updCan_dmem (s : State) (k : PortId) (f : Can → Can) : (s.updCan k f).dmem = s.dmem := rfl
@[simp] theorem State.updCan_img (s : State) (k : PortId) (f : Can → Can) : (s.updCan k f).img = s.img := rfl
@[simp] theorem State.updCan_inn (s : State) (k : PortId) (f : Can → Can) : (s.updCan k f).inn = s.inn := rfl
@[simp] theorem State.updCan_app (s : State) (k : PortId) (f : Can → Can) : (s.updCan k f).app = s.app := rfl
@[simp] theorem State.updCan_edits (s : State) (k : PortId) (f : Can → Can) : (s.updCan k f).edits = s.edits := rfl
@[simp] theorem State.updCan_chans (s : State) (k : PortId) (f : Can → Can) : (s.updCan k f).chans = s.chans := rfl
@[simp] theorem State.updCan_groups (s : State) (k : PortId) (f : Can → Can) : (s.updCan k f).groups = s.groups := rfl
@[simp] theorem State.updCan_spare (s : State) (k : PortId) (f : Can → Can) : (s.updCan k f).spare = s.spare := rfl
@[simp] theorem State.updCan_cans (s : State) (k : PortId) (f : Can → Can) : (s.updCan k f).cans = upd s.cans k f := rfl
@[simp] theorem State.updCan_host (s : State) (k : PortId) (f : Can → Can) : (s.updCan k f).host = s.host := rfl
@[simp] theorem State.updCan_pair (s : State) (k : PortId) (f : Can → Can) : (s.updCan k f).pair = s.pair := rfl
@[simp] theorem State.updCan_np (s : State) (k : PortId) (f : Can → Can) : (s.updCan k f).np = s.np := rfl
@[simp] theorem State.updCan_bk (s : State) (k : PortId) (f : Can → Can) : (s.updCan k f).bk = s.bk := rfl
@[simp] theorem State.updCan_nv (s : State) (k : PortId) (f : Can → Can) : (s.updCan k f).nv = s.nv := rfl
@[simp] theorem State.updCan_gb (s : State) (k : PortId) (f : Can → Can) : (s.updCan k f).gb = s.gb := rfl
@[simp] theorem State.updCan_sec (s : State) (k : PortId) (f : Can → Can) : (s.updCan k f).sec = s.sec := rfl
@[simp] theorem State.updCan_out (s : State) (k : PortId) (f : Can → Can) : (s.updCan k f).out = s.out := rfl
@[simp] theorem State.updCan_fresh (s : State) (k : PortId) (f : Can → Can) : (s.updCan k f).fresh = s.fresh := rfl
@[simp] theorem State.updCan_pending (s : State) (k : PortId) (f : Can → Can) : (s.updCan k f).pending = s.pending := rfl
@[simp] theorem State.updCan_marks (s : State) (k : PortId) (f : Can → Can) : (s.updCan k f).marks = s.marks := rfl

@[simp] theorem State.mapRooms_now (s : State) (f : Room → Room) : (s.mapRooms f).now = s.now := rfl
@[simp] theorem State.mapRooms_tb0 (s : State) (f : Room → Room) : (s.mapRooms f).tb0 = s.tb0 := rfl
@[simp] theorem State.mapRooms_cycle (s : State) (f : Room → Room) : (s.mapRooms f).cycle = s.cycle := rfl
@[simp] theorem State.mapRooms_phase (s : State) (f : Room → Room) : (s.mapRooms f).phase = s.phase := rfl
@[simp] theorem State.mapRooms_pwr (s : State) (f : Room → Room) : (s.mapRooms f).pwr = s.pwr := rfl
@[simp] theorem State.mapRooms_clk (s : State) (f : Room → Room) : (s.mapRooms f).clk = s.clk := rfl
@[simp] theorem State.mapRooms_scan (s : State) (f : Room → Room) : (s.mapRooms f).scan = s.scan := rfl
@[simp] theorem State.mapRooms_rooms (s : State) (f : Room → Room) : (s.mapRooms f).rooms = s.rooms.map f := rfl
@[simp] theorem State.mapRooms_dmem (s : State) (f : Room → Room) : (s.mapRooms f).dmem = s.dmem := rfl
@[simp] theorem State.mapRooms_img (s : State) (f : Room → Room) : (s.mapRooms f).img = s.img := rfl
@[simp] theorem State.mapRooms_inn (s : State) (f : Room → Room) : (s.mapRooms f).inn = s.inn := rfl
@[simp] theorem State.mapRooms_app (s : State) (f : Room → Room) : (s.mapRooms f).app = s.app := rfl
@[simp] theorem State.mapRooms_edits (s : State) (f : Room → Room) : (s.mapRooms f).edits = s.edits := rfl
@[simp] theorem State.mapRooms_chans (s : State) (f : Room → Room) : (s.mapRooms f).chans = s.chans := rfl
@[simp] theorem State.mapRooms_groups (s : State) (f : Room → Room) : (s.mapRooms f).groups = s.groups := rfl
@[simp] theorem State.mapRooms_spare (s : State) (f : Room → Room) : (s.mapRooms f).spare = s.spare := rfl
@[simp] theorem State.mapRooms_cans (s : State) (f : Room → Room) : (s.mapRooms f).cans = s.cans := rfl
@[simp] theorem State.mapRooms_host (s : State) (f : Room → Room) : (s.mapRooms f).host = s.host := rfl
@[simp] theorem State.mapRooms_pair (s : State) (f : Room → Room) : (s.mapRooms f).pair = s.pair := rfl
@[simp] theorem State.mapRooms_np (s : State) (f : Room → Room) : (s.mapRooms f).np = s.np := rfl
@[simp] theorem State.mapRooms_bk (s : State) (f : Room → Room) : (s.mapRooms f).bk = s.bk := rfl
@[simp] theorem State.mapRooms_nv (s : State) (f : Room → Room) : (s.mapRooms f).nv = s.nv := rfl
@[simp] theorem State.mapRooms_gb (s : State) (f : Room → Room) : (s.mapRooms f).gb = s.gb := rfl
@[simp] theorem State.mapRooms_sec (s : State) (f : Room → Room) : (s.mapRooms f).sec = s.sec := rfl
@[simp] theorem State.mapRooms_out (s : State) (f : Room → Room) : (s.mapRooms f).out = s.out := rfl
@[simp] theorem State.mapRooms_fresh (s : State) (f : Room → Room) : (s.mapRooms f).fresh = s.fresh := rfl
@[simp] theorem State.mapRooms_pending (s : State) (f : Room → Room) : (s.mapRooms f).pending = s.pending := rfl
@[simp] theorem State.mapRooms_marks (s : State) (f : Room → Room) : (s.mapRooms f).marks = s.marks := rfl

@[simp] theorem State.mapChans_now (s : State) (f : Chan → Chan) : (s.mapChans f).now = s.now := rfl
@[simp] theorem State.mapChans_tb0 (s : State) (f : Chan → Chan) : (s.mapChans f).tb0 = s.tb0 := rfl
@[simp] theorem State.mapChans_cycle (s : State) (f : Chan → Chan) : (s.mapChans f).cycle = s.cycle := rfl
@[simp] theorem State.mapChans_phase (s : State) (f : Chan → Chan) : (s.mapChans f).phase = s.phase := rfl
@[simp] theorem State.mapChans_pwr (s : State) (f : Chan → Chan) : (s.mapChans f).pwr = s.pwr := rfl
@[simp] theorem State.mapChans_clk (s : State) (f : Chan → Chan) : (s.mapChans f).clk = s.clk := rfl
@[simp] theorem State.mapChans_scan (s : State) (f : Chan → Chan) : (s.mapChans f).scan = s.scan := rfl
@[simp] theorem State.mapChans_rooms (s : State) (f : Chan → Chan) : (s.mapChans f).rooms = s.rooms := rfl
@[simp] theorem State.mapChans_dmem (s : State) (f : Chan → Chan) : (s.mapChans f).dmem = s.dmem := rfl
@[simp] theorem State.mapChans_img (s : State) (f : Chan → Chan) : (s.mapChans f).img = s.img := rfl
@[simp] theorem State.mapChans_inn (s : State) (f : Chan → Chan) : (s.mapChans f).inn = s.inn := rfl
@[simp] theorem State.mapChans_app (s : State) (f : Chan → Chan) : (s.mapChans f).app = s.app := rfl
@[simp] theorem State.mapChans_edits (s : State) (f : Chan → Chan) : (s.mapChans f).edits = s.edits := rfl
@[simp] theorem State.mapChans_chans (s : State) (f : Chan → Chan) : (s.mapChans f).chans = s.chans.map f := rfl
@[simp] theorem State.mapChans_groups (s : State) (f : Chan → Chan) : (s.mapChans f).groups = s.groups := rfl
@[simp] theorem State.mapChans_spare (s : State) (f : Chan → Chan) : (s.mapChans f).spare = s.spare := rfl
@[simp] theorem State.mapChans_cans (s : State) (f : Chan → Chan) : (s.mapChans f).cans = s.cans := rfl
@[simp] theorem State.mapChans_host (s : State) (f : Chan → Chan) : (s.mapChans f).host = s.host := rfl
@[simp] theorem State.mapChans_pair (s : State) (f : Chan → Chan) : (s.mapChans f).pair = s.pair := rfl
@[simp] theorem State.mapChans_np (s : State) (f : Chan → Chan) : (s.mapChans f).np = s.np := rfl
@[simp] theorem State.mapChans_bk (s : State) (f : Chan → Chan) : (s.mapChans f).bk = s.bk := rfl
@[simp] theorem State.mapChans_nv (s : State) (f : Chan → Chan) : (s.mapChans f).nv = s.nv := rfl
@[simp] theorem State.mapChans_gb (s : State) (f : Chan → Chan) : (s.mapChans f).gb = s.gb := rfl
@[simp] theorem State.mapChans_sec (s : State) (f : Chan → Chan) : (s.mapChans f).sec = s.sec := rfl
@[simp] theorem State.mapChans_out (s : State) (f : Chan → Chan) : (s.mapChans f).out = s.out := rfl
@[simp] theorem State.mapChans_fresh (s : State) (f : Chan → Chan) : (s.mapChans f).fresh = s.fresh := rfl
@[simp] theorem State.mapChans_pending (s : State) (f : Chan → Chan) : (s.mapChans f).pending = s.pending := rfl
@[simp] theorem State.mapChans_marks (s : State) (f : Chan → Chan) : (s.mapChans f).marks = s.marks := rfl

@[simp] theorem State.mapGroups_now (s : State) (f : Group → Group) : (s.mapGroups f).now = s.now := rfl
@[simp] theorem State.mapGroups_tb0 (s : State) (f : Group → Group) : (s.mapGroups f).tb0 = s.tb0 := rfl
@[simp] theorem State.mapGroups_cycle (s : State) (f : Group → Group) : (s.mapGroups f).cycle = s.cycle := rfl
@[simp] theorem State.mapGroups_phase (s : State) (f : Group → Group) : (s.mapGroups f).phase = s.phase := rfl
@[simp] theorem State.mapGroups_pwr (s : State) (f : Group → Group) : (s.mapGroups f).pwr = s.pwr := rfl
@[simp] theorem State.mapGroups_clk (s : State) (f : Group → Group) : (s.mapGroups f).clk = s.clk := rfl
@[simp] theorem State.mapGroups_scan (s : State) (f : Group → Group) : (s.mapGroups f).scan = s.scan := rfl
@[simp] theorem State.mapGroups_rooms (s : State) (f : Group → Group) : (s.mapGroups f).rooms = s.rooms := rfl
@[simp] theorem State.mapGroups_dmem (s : State) (f : Group → Group) : (s.mapGroups f).dmem = s.dmem := rfl
@[simp] theorem State.mapGroups_img (s : State) (f : Group → Group) : (s.mapGroups f).img = s.img := rfl
@[simp] theorem State.mapGroups_inn (s : State) (f : Group → Group) : (s.mapGroups f).inn = s.inn := rfl
@[simp] theorem State.mapGroups_app (s : State) (f : Group → Group) : (s.mapGroups f).app = s.app := rfl
@[simp] theorem State.mapGroups_edits (s : State) (f : Group → Group) : (s.mapGroups f).edits = s.edits := rfl
@[simp] theorem State.mapGroups_chans (s : State) (f : Group → Group) : (s.mapGroups f).chans = s.chans := rfl
@[simp] theorem State.mapGroups_groups (s : State) (f : Group → Group) : (s.mapGroups f).groups = s.groups.map f := rfl
@[simp] theorem State.mapGroups_spare (s : State) (f : Group → Group) : (s.mapGroups f).spare = s.spare := rfl
@[simp] theorem State.mapGroups_cans (s : State) (f : Group → Group) : (s.mapGroups f).cans = s.cans := rfl
@[simp] theorem State.mapGroups_host (s : State) (f : Group → Group) : (s.mapGroups f).host = s.host := rfl
@[simp] theorem State.mapGroups_pair (s : State) (f : Group → Group) : (s.mapGroups f).pair = s.pair := rfl
@[simp] theorem State.mapGroups_np (s : State) (f : Group → Group) : (s.mapGroups f).np = s.np := rfl
@[simp] theorem State.mapGroups_bk (s : State) (f : Group → Group) : (s.mapGroups f).bk = s.bk := rfl
@[simp] theorem State.mapGroups_nv (s : State) (f : Group → Group) : (s.mapGroups f).nv = s.nv := rfl
@[simp] theorem State.mapGroups_gb (s : State) (f : Group → Group) : (s.mapGroups f).gb = s.gb := rfl
@[simp] theorem State.mapGroups_sec (s : State) (f : Group → Group) : (s.mapGroups f).sec = s.sec := rfl
@[simp] theorem State.mapGroups_out (s : State) (f : Group → Group) : (s.mapGroups f).out = s.out := rfl
@[simp] theorem State.mapGroups_fresh (s : State) (f : Group → Group) : (s.mapGroups f).fresh = s.fresh := rfl
@[simp] theorem State.mapGroups_pending (s : State) (f : Group → Group) : (s.mapGroups f).pending = s.pending := rfl
@[simp] theorem State.mapGroups_marks (s : State) (f : Group → Group) : (s.mapGroups f).marks = s.marks := rfl

@[simp] theorem State.mapCans_now (s : State) (f : Can → Can) : (s.mapCans f).now = s.now := rfl
@[simp] theorem State.mapCans_tb0 (s : State) (f : Can → Can) : (s.mapCans f).tb0 = s.tb0 := rfl
@[simp] theorem State.mapCans_cycle (s : State) (f : Can → Can) : (s.mapCans f).cycle = s.cycle := rfl
@[simp] theorem State.mapCans_phase (s : State) (f : Can → Can) : (s.mapCans f).phase = s.phase := rfl
@[simp] theorem State.mapCans_pwr (s : State) (f : Can → Can) : (s.mapCans f).pwr = s.pwr := rfl
@[simp] theorem State.mapCans_clk (s : State) (f : Can → Can) : (s.mapCans f).clk = s.clk := rfl
@[simp] theorem State.mapCans_scan (s : State) (f : Can → Can) : (s.mapCans f).scan = s.scan := rfl
@[simp] theorem State.mapCans_rooms (s : State) (f : Can → Can) : (s.mapCans f).rooms = s.rooms := rfl
@[simp] theorem State.mapCans_dmem (s : State) (f : Can → Can) : (s.mapCans f).dmem = s.dmem := rfl
@[simp] theorem State.mapCans_img (s : State) (f : Can → Can) : (s.mapCans f).img = s.img := rfl
@[simp] theorem State.mapCans_inn (s : State) (f : Can → Can) : (s.mapCans f).inn = s.inn := rfl
@[simp] theorem State.mapCans_app (s : State) (f : Can → Can) : (s.mapCans f).app = s.app := rfl
@[simp] theorem State.mapCans_edits (s : State) (f : Can → Can) : (s.mapCans f).edits = s.edits := rfl
@[simp] theorem State.mapCans_chans (s : State) (f : Can → Can) : (s.mapCans f).chans = s.chans := rfl
@[simp] theorem State.mapCans_groups (s : State) (f : Can → Can) : (s.mapCans f).groups = s.groups := rfl
@[simp] theorem State.mapCans_spare (s : State) (f : Can → Can) : (s.mapCans f).spare = s.spare := rfl
@[simp] theorem State.mapCans_cans (s : State) (f : Can → Can) : (s.mapCans f).cans = s.cans.map f := rfl
@[simp] theorem State.mapCans_host (s : State) (f : Can → Can) : (s.mapCans f).host = s.host := rfl
@[simp] theorem State.mapCans_pair (s : State) (f : Can → Can) : (s.mapCans f).pair = s.pair := rfl
@[simp] theorem State.mapCans_np (s : State) (f : Can → Can) : (s.mapCans f).np = s.np := rfl
@[simp] theorem State.mapCans_bk (s : State) (f : Can → Can) : (s.mapCans f).bk = s.bk := rfl
@[simp] theorem State.mapCans_nv (s : State) (f : Can → Can) : (s.mapCans f).nv = s.nv := rfl
@[simp] theorem State.mapCans_gb (s : State) (f : Can → Can) : (s.mapCans f).gb = s.gb := rfl
@[simp] theorem State.mapCans_sec (s : State) (f : Can → Can) : (s.mapCans f).sec = s.sec := rfl
@[simp] theorem State.mapCans_out (s : State) (f : Can → Can) : (s.mapCans f).out = s.out := rfl
@[simp] theorem State.mapCans_fresh (s : State) (f : Can → Can) : (s.mapCans f).fresh = s.fresh := rfl
@[simp] theorem State.mapCans_pending (s : State) (f : Can → Can) : (s.mapCans f).pending = s.pending := rfl
@[simp] theorem State.mapCans_marks (s : State) (f : Can → Can) : (s.mapCans f).marks = s.marks := rfl

@[simp] theorem State.emit_now (s : State) (o : Out) : (s.emit o).now = s.now := rfl
@[simp] theorem State.emit_tb0 (s : State) (o : Out) : (s.emit o).tb0 = s.tb0 := rfl
@[simp] theorem State.emit_cycle (s : State) (o : Out) : (s.emit o).cycle = s.cycle := rfl
@[simp] theorem State.emit_phase (s : State) (o : Out) : (s.emit o).phase = s.phase := rfl
@[simp] theorem State.emit_pwr (s : State) (o : Out) : (s.emit o).pwr = s.pwr := rfl
@[simp] theorem State.emit_clk (s : State) (o : Out) : (s.emit o).clk = s.clk := rfl
@[simp] theorem State.emit_scan (s : State) (o : Out) : (s.emit o).scan = s.scan := rfl
@[simp] theorem State.emit_rooms (s : State) (o : Out) : (s.emit o).rooms = s.rooms := rfl
@[simp] theorem State.emit_dmem (s : State) (o : Out) : (s.emit o).dmem = s.dmem := rfl
@[simp] theorem State.emit_img (s : State) (o : Out) : (s.emit o).img = s.img := rfl
@[simp] theorem State.emit_inn (s : State) (o : Out) : (s.emit o).inn = s.inn := rfl
@[simp] theorem State.emit_app (s : State) (o : Out) : (s.emit o).app = s.app := rfl
@[simp] theorem State.emit_edits (s : State) (o : Out) : (s.emit o).edits = s.edits := rfl
@[simp] theorem State.emit_chans (s : State) (o : Out) : (s.emit o).chans = s.chans := rfl
@[simp] theorem State.emit_groups (s : State) (o : Out) : (s.emit o).groups = s.groups := rfl
@[simp] theorem State.emit_spare (s : State) (o : Out) : (s.emit o).spare = s.spare := rfl
@[simp] theorem State.emit_cans (s : State) (o : Out) : (s.emit o).cans = s.cans := rfl
@[simp] theorem State.emit_host (s : State) (o : Out) : (s.emit o).host = s.host := rfl
@[simp] theorem State.emit_pair (s : State) (o : Out) : (s.emit o).pair = s.pair := rfl
@[simp] theorem State.emit_np (s : State) (o : Out) : (s.emit o).np = s.np := rfl
@[simp] theorem State.emit_bk (s : State) (o : Out) : (s.emit o).bk = s.bk := rfl
@[simp] theorem State.emit_nv (s : State) (o : Out) : (s.emit o).nv = s.nv := rfl
@[simp] theorem State.emit_gb (s : State) (o : Out) : (s.emit o).gb = s.gb := rfl
@[simp] theorem State.emit_sec (s : State) (o : Out) : (s.emit o).sec = s.sec := rfl
@[simp] theorem State.emit_out (s : State) (o : Out) : (s.emit o).out = s.out ++ [o] := rfl
@[simp] theorem State.emit_fresh (s : State) (o : Out) : (s.emit o).fresh = s.fresh := rfl
@[simp] theorem State.emit_pending (s : State) (o : Out) : (s.emit o).pending = s.pending := rfl
@[simp] theorem State.emit_marks (s : State) (o : Out) : (s.emit o).marks = s.marks := rfl

@[simp] theorem State.free_now (s : State) : s.free.2.now = s.now := rfl
@[simp] theorem State.free_tb0 (s : State) : s.free.2.tb0 = s.tb0 := rfl
@[simp] theorem State.free_cycle (s : State) : s.free.2.cycle = s.cycle := rfl
@[simp] theorem State.free_phase (s : State) : s.free.2.phase = s.phase := rfl
@[simp] theorem State.free_pwr (s : State) : s.free.2.pwr = s.pwr := rfl
@[simp] theorem State.free_clk (s : State) : s.free.2.clk = s.clk := rfl
@[simp] theorem State.free_scan (s : State) : s.free.2.scan = s.scan := rfl
@[simp] theorem State.free_rooms (s : State) : s.free.2.rooms = s.rooms := rfl
@[simp] theorem State.free_dmem (s : State) : s.free.2.dmem = s.dmem := rfl
@[simp] theorem State.free_img (s : State) : s.free.2.img = s.img := rfl
@[simp] theorem State.free_inn (s : State) : s.free.2.inn = s.inn := rfl
@[simp] theorem State.free_app (s : State) : s.free.2.app = s.app := rfl
@[simp] theorem State.free_edits (s : State) : s.free.2.edits = s.edits := rfl
@[simp] theorem State.free_chans (s : State) : s.free.2.chans = s.chans := rfl
@[simp] theorem State.free_groups (s : State) : s.free.2.groups = s.groups := rfl
@[simp] theorem State.free_spare (s : State) : s.free.2.spare = s.spare := rfl
@[simp] theorem State.free_cans (s : State) : s.free.2.cans = s.cans := rfl
@[simp] theorem State.free_host (s : State) : s.free.2.host = s.host := rfl
@[simp] theorem State.free_pair (s : State) : s.free.2.pair = s.pair := rfl
@[simp] theorem State.free_np (s : State) : s.free.2.np = s.np := rfl
@[simp] theorem State.free_bk (s : State) : s.free.2.bk = s.bk := rfl
@[simp] theorem State.free_nv (s : State) : s.free.2.nv = s.nv := rfl
@[simp] theorem State.free_gb (s : State) : s.free.2.gb = s.gb := rfl
@[simp] theorem State.free_sec (s : State) : s.free.2.sec = s.sec := rfl
@[simp] theorem State.free_out (s : State) : s.free.2.out = s.out := rfl
@[simp] theorem State.free_fresh (s : State) : s.free.2.fresh = s.fresh + 1 := rfl
@[simp] theorem State.free_pending (s : State) : s.free.2.pending = s.pending := rfl
@[simp] theorem State.free_marks (s : State) : s.free.2.marks = s.marks := rfl

@[simp] theorem State.mark_now (s : State) (off bits : Nat) : (s.mark off bits).now = s.now := rfl
@[simp] theorem State.mark_tb0 (s : State) (off bits : Nat) : (s.mark off bits).tb0 = s.tb0 := rfl
@[simp] theorem State.mark_cycle (s : State) (off bits : Nat) : (s.mark off bits).cycle = s.cycle := rfl
@[simp] theorem State.mark_phase (s : State) (off bits : Nat) : (s.mark off bits).phase = s.phase := rfl
@[simp] theorem State.mark_pwr (s : State) (off bits : Nat) : (s.mark off bits).pwr = s.pwr := rfl
@[simp] theorem State.mark_clk (s : State) (off bits : Nat) : (s.mark off bits).clk = s.clk := rfl
@[simp] theorem State.mark_scan (s : State) (off bits : Nat) : (s.mark off bits).scan = s.scan := rfl
@[simp] theorem State.mark_rooms (s : State) (off bits : Nat) : (s.mark off bits).rooms = s.rooms := rfl
@[simp] theorem State.mark_dmem (s : State) (off bits : Nat) : (s.mark off bits).dmem = s.dmem := rfl
@[simp] theorem State.mark_img (s : State) (off bits : Nat) : (s.mark off bits).img = s.img := rfl
@[simp] theorem State.mark_inn (s : State) (off bits : Nat) : (s.mark off bits).inn = s.inn := rfl
@[simp] theorem State.mark_app (s : State) (off bits : Nat) : (s.mark off bits).app = s.app := rfl
@[simp] theorem State.mark_edits (s : State) (off bits : Nat) : (s.mark off bits).edits = s.edits := rfl
@[simp] theorem State.mark_chans (s : State) (off bits : Nat) : (s.mark off bits).chans = s.chans := rfl
@[simp] theorem State.mark_groups (s : State) (off bits : Nat) : (s.mark off bits).groups = s.groups := rfl
@[simp] theorem State.mark_spare (s : State) (off bits : Nat) : (s.mark off bits).spare = s.spare := rfl
@[simp] theorem State.mark_cans (s : State) (off bits : Nat) : (s.mark off bits).cans = s.cans := rfl
@[simp] theorem State.mark_host (s : State) (off bits : Nat) : (s.mark off bits).host = s.host := rfl
@[simp] theorem State.mark_pair (s : State) (off bits : Nat) : (s.mark off bits).pair = s.pair := rfl
@[simp] theorem State.mark_np (s : State) (off bits : Nat) : (s.mark off bits).np = s.np := rfl
@[simp] theorem State.mark_bk (s : State) (off bits : Nat) : (s.mark off bits).bk = s.bk := rfl
@[simp] theorem State.mark_nv (s : State) (off bits : Nat) : (s.mark off bits).nv = s.nv := rfl
@[simp] theorem State.mark_gb (s : State) (off bits : Nat) : (s.mark off bits).gb = s.gb := rfl
@[simp] theorem State.mark_sec (s : State) (off bits : Nat) : (s.mark off bits).sec = s.sec := rfl
@[simp] theorem State.mark_out (s : State) (off bits : Nat) : (s.mark off bits).out = s.out := rfl
@[simp] theorem State.mark_fresh (s : State) (off bits : Nat) : (s.mark off bits).fresh = s.fresh := rfl
@[simp] theorem State.mark_pending (s : State) (off bits : Nat) : (s.mark off bits).pending = s.pending := rfl
@[simp] theorem State.mark_marks (s : State) (off bits : Nat) :
    (s.mark off bits).marks = (s.now, off, bits) :: s.marks.filter (fun x => x.1 == s.now) := rfl

/-! What the entries of the replaced vectors hold. -/

theorem State.updRoom_room (s : State) (r q : RoomId) (f : Room → Room) :
    (s.updRoom r f).rooms[q] = if r = q then f s.rooms[q] else s.rooms[q] := getElem_upd _ _ _ _
theorem State.updChan_chan (s : State) (c d : ChanId) (f : Chan → Chan) :
    (s.updChan c f).chans[d] = if c = d then f s.chans[d] else s.chans[d] := getElem_upd _ _ _ _
theorem State.updGrp_group (s : State) (g h : GrpId) (f : Group → Group) :
    (s.updGrp g f).groups[h] = if g = h then f s.groups[h] else s.groups[h] := getElem_upd _ _ _ _
theorem State.updCan_can (s : State) (k j : PortId) (f : Can → Can) :
    (s.updCan k f).cans[j] = if k = j then f s.cans[j] else s.cans[j] := getElem_upd _ _ _ _

end Sys2Proof.Machine
end

