-- ==== Sys2Proof/Tests/Slice0.lean ====
section
/-! SUPPORT. Tests: the checks of WellFormed, concrete steps with results worked out from the spec, and for every statement of
Obligations.lean states and operands that meet its hypotheses. -/

namespace Sys2Proof.Tests

open Sys2Proof Sys2Proof.Machine

set_option Elab.async false

/-! ### States -/

def task0 : Task where
  taskId := 1
  lane := 6
  prio := 0
  k := 1
  cls := 0
  changed := true
  entry := 0
  codeLen := 4
  privLen := 64
  retLen := 64
  pubLen := 8

def var0 : Var where
  id := 9
  task := 0
  retained := false
  editable := true
  typ := 1
  offset := 0
  size := 4

/-- A channel entry with a mode and a first byte of parameters. -/
def chanAs (ch mode : Nat) (param : List Byte) : ChanCfg where
  ch := ch
  mode := mode
  owner := 0
  rate := 0
  sps := 0
  iload := 500
  eoff := 0
  foff := 0
  rload := 0
  vloop := 0
  param := param

def way0 : Way where
  crc := 0x1234
  pair := false
  swap := false
  super := 0
  keyslot := 0
  bytes := []
  code := []
  bound := [5]
  tasks := [task0]
  vars := [var0]
  chans := [chanAs 0 1 [0, 1], chanAs 1 8 [0, 0, 50], chanAs 2 3 [0, 1, 0, 0, 0, 0, 3], chanAs 3 9 [0, 6], chanAs 16 0x10 [], chanAs 17 0x20 []]
  ports := []
  filters := [{ port := 0, id := 5, mask := 7, ide := false, fmt := 0, stamp := false, src := 0, len := 2, dst := 0 }]
  bufs := [{ port := 0, id := 3, ide := false, fdf := false, brs := false, dlc := 2, txoff := 0 }]
  cycs := [{ port := 0, buf := 0, owner := 0, wopen := 1, wclose := 40 }]
  feat := []
  migr := []

def an0 : Analysis where
  rooms := [0]
  privBase := [0]
  retBase := [64]
  pubBase := [0x40000]
  wcet := [10]
  resp := [10]
  npPeriod := 40000
  npOpen := 0
  npClose := 40000
  slots := []
  power := []
  slack := []
  swapSlots := 3

def conf0 : Conf := { way := way0, an := an0 }
def pairConf : Conf := { way := { way0 with pair := true }, an := an0 }

def room0 : Room := { Room.init with
  lane := 6
  st := .ready
  privLen := 64
  retBase := 64
  retLen := 64
  g := (Vector.replicate 32 0).set 1 7 |>.set 2 2 |>.set 3 0x3C5A }

/-- A single module whose steward runs, with its application and its rings. -/
def run : State := { State.reset with
  phase := .running
  pwr := { Power.init with charged := true, faultN := false }
  clk := { Clk.init with judged := true }
  rooms := (Vector.replicate 100 Room.init).set 0 room0
  app := { App.init with stored := some conf0, cur := some conf0, running := true, loaded := true }
  host := { HostIf.init with
    active := true
    busMaster := true
    linkUp := true
    rings := Vector.replicate 21 { RingCfg.init with enable := true, logn := 3 }
    cmdTail := Vector.replicate 8 1 }
  chans := (Vector.replicate 192 Chan.init).set 0 { Chan.init with cfg := some (chanAs 0 1 [0, 1]) }
    |>.set 1 { Chan.init with cfg := some (chanAs 1 8 [0, 0, 50]) }
    |>.set 2 { Chan.init with cfg := some (chanAs 2 3 [0, 1, 0, 0, 0, 0, 3]), gateVal := some true }
    |>.set 3 { Chan.init with cfg := some (chanAs 3 9 [0, 6]) }
    |>.set 16 { Chan.init with cfg := some (chanAs 16 0x10 []) }
    |>.set 17 { Chan.init with cfg := some (chanAs 17 0x20 []) }
  groups := Vector.replicate 12 { Group.init with cfg := true, supact := false, timeout := 50 }
  cans := Vector.replicate 4 { Can.init with vplus := true, cfg := some {
    port := 0, mode := 1, auto := false, autorec := false, cycle := 1, bustask := 0, nbrp := 1, nsjw := 1, ntseg1 := 1, ntseg2 := 1,
    dbrp := 1, dtseg1 := 1, dtseg2 := 1, dsjw := 1, tdco := 0 } }
  nv := { Nv.init with ready := true } }

/-- The same module with its application stopped. -/
def idle : State := { run with app := { run.app with running := false } }

def withRoom (v : Room) : State := { run with rooms := run.rooms.set 0 v }
def withChan (n : ChanId) (c : Chan) : State := { run with chans := run.chans.set n.val c }
def withGrp (g : Group) : State := { run with groups := run.groups.set 0 g }
def withCan (k : Can) : State := { run with cans := run.cans.set 0 k }

/-- A pair module in a role, with its road up and a partner heard. -/
def paired (role : BitVec 2) : State := { run with
  app := { run.app with stored := some pairConf, cur := some pairConf }
  pwr := { run.pwr with pairPresent := true }
  pair := { Pair.init with role := role, settled := true, link := true, hbSeen := true } }

/-- A command entry from FLAGS and the first bytes of its body. -/
def entry (flags : Byte) (b : List Byte) : CmdEntry := { flags := flags, tag := 7, body := b ++ List.replicate (60 - b.length) 0 }

def entry0 : CmdEntry := entry 0 []
def ref0 : CmdRef := { ring := 0, tag := 7, op := 0x12, gen := 0 }

theorem inv_iff (s : State) : s.Inv ↔ (s.dmem.wf && s.img.pend.wf && s.img.com.wf && s.img.canRx.wf && s.img.frozen.wf && s.nv.mem.wf &&
    s.pair.words.wf && s.host.msixTable.wf && s.rooms.toList.all (fun v => v.snap.wf && v.g[0] == 0)) = true := by
  simp only [Bool.and_eq_true, Vector.all_toList, Vector.all_eq_true, beq_iff_eq]
  constructor
  · intro h
    exact ⟨⟨⟨⟨⟨⟨⟨⟨h.dmem, h.pend⟩, h.com⟩, h.canRx⟩, h.frozen⟩, h.nv⟩, h.words⟩, h.table⟩, fun i hi => ⟨h.snap ⟨i, hi⟩, h.zero ⟨i, hi⟩⟩⟩
  · rintro ⟨⟨⟨⟨⟨⟨⟨⟨h1, h2⟩, h3⟩, h4⟩, h5⟩, h6⟩, h7⟩, h8⟩, h9⟩
    exact ⟨h1, h2, h3, h4, h5, h6, h7, h8, fun r => (h9 r.val r.isLt).1, fun r => (h9 r.val r.isLt).2⟩

theorem run_inv : run.Inv := by rw [inv_iff]; decide +kernel
theorem run_canAnswer : run.CanAnswer 0 := by unfold State.CanAnswer; decide +kernel
theorem run_canIssue : run.canIssue 0 = true := by decide +kernel


/-! ### Witnesses: lane instructions -/

theorem witness_IntegerArithmeticResults : run.canIssue 0 = true := run_canIssue
theorem witness_LogicAndSelectResults : run.canIssue 0 = true := run_canIssue
theorem witness_ShiftAndFieldResults : run.canIssue 0 = true := run_canIssue
theorem witness_SpecialMoves : run.canIssue 0 = true := run_canIssue

theorem witness_ControlTransfers : run.canIssue 0 = true ∧ run.app.cur = some conf0 ∧ conf0.way.bound[0]? = some 5 ∧ 1 ≤ 5 ∧ 5 < 2 ^ 32 :=
  ⟨run_canIssue, rfl, rfl, by decide, by decide⟩

/-- Both windows at their ends, and the first addresses outside. -/
theorem witness_DataMemoryAccess : run.Inv ∧ run.canIssue 0 = true ∧ (run.operands 0 0).Reaches 63 63 ∧
    (run.operands 0 0).Reaches (2 ^ 23 + 63) 127 ∧ (∀ m, ¬ (run.operands 0 0).Reaches 64 m) ∧ ∀ m, ¬ (run.operands 0 0).Reaches (2 ^ 23 + 64) m := by
  have p : (run.operands 0 0).privLen = 64 := by decide +kernel
  have q : (run.operands 0 0).retLen = 64 := by decide +kernel
  refine ⟨run_inv, run_canIssue, ?_, ?_, ?_, ?_⟩
  · unfold Room.Reaches; decide +kernel
  · unfold Room.Reaches; decide +kernel
  · intro m h; unfold Room.Reaches at h; omega
  · intro m h; unfold Room.Reaches at h; omega

/-- An output word the room owns, one it does not own, the publication's last byte, and addresses on both sides of a megabyte bound. -/
theorem witness_ImageReads : run.canIssue 0 = true ∧ run.writable 0 0x1004 = true ∧ run.writable 0 0x1000 = false ∧
    (∃ e, run.chanCfg 1 = some e ∧ e.mode = 8) ∧ run.writable 0 0x2000 = true ∧ run.writable 0 0x2004 = false ∧
    run.writable 0 0x4000B = true ∧ run.writable 0 0x4000C = false ∧ run.writable 0 0x4BFFF = false :=
  ⟨run_canIssue, by decide +kernel, by decide +kernel, ⟨_, rfl, rfl⟩, by decide +kernel, by decide +kernel, by decide +kernel, by decide +kernel,
    by decide +kernel⟩

/-- Task 0 has met its deadline: an output word it owns, the stamp of its publication, a byte that no task owns; a memory stage before the
commit of base tick 1 and one after it. -/
theorem witness_ImageReads_commit : let s : State := { run with img := { run.img with closed := [0] } }
    s.app.cur = some conf0 ∧ (s.tb + (s.now + 7 - s.now)) / 20000 ≤ s.cycle ∧ s.cycle < (s.tb + (s.now + 20000 - s.now)) / 20000 ∧
    s.outputArea 0x1004 = true ∧ s.writable 1 0x1004 = false ∧ conf0.owns 0 0x1004 = true ∧
    s.outputArea 0x40000 = true ∧ s.writable 1 0x40000 = false ∧ conf0.owns 0 0x40000 = false ∧ conf0.task 0 = some task0 ∧ task0.pubLen ≠ 0 ∧
    conf0.an.pubBase[0]? = some 0x40000 ∧
    s.outputArea 0x2008 = true ∧ s.writable 1 0x2008 = false ∧ conf0.owns 0 0x2008 = false := by
  decide +kernel

theorem witness_ImageStores : run.Inv ∧ run.canIssue 0 = true ∧ run.writable 0 0x1004 = true ∧ run.writable 0 0x1000 = false ∧
    (run.operands 0 0).b = false ∧ (withRoom { room0 with b := true }).Inv ∧ (withRoom { room0 with b := true }).canIssue 0 = true ∧
    ((withRoom { room0 with b := true }).operands 0 0).b = true :=
  ⟨run_inv, run_canIssue, by decide +kernel, by decide +kernel, by decide +kernel, by rw [inv_iff]; decide +kernel, by decide +kernel, by decide +kernel⟩

/-- The record bytes meet each of the four combinations of stored input and run bits; the room has B = 0 or 1. -/
theorem witness_EdgesTimersCounters : run.Inv ∧ run.canIssue 0 = true ∧ (run.chanCfg 0).map ChanCfg.mode = some 1 ∧
    run.chanCfg 5 = none ∧ (run.operands 0 0).relTb.toNat / 400 % 2 ^ 48 = 0 ∧
    (∀ x ∈ [(0 : Byte), 1, 4, 5], let old := List.replicate 14 0 ++ [x, 0];
      u48 old 8 = 0 ∧ (byteAt old 14).getLsbD 0 = (x == 1 || x == 5) ∧ (byteAt old 14).getLsbD 2 = (x == 4 || x == 5)) ∧
    run.dmem.read 0 16 = List.replicate 16 0 ∧ (run.operands 0 0).b = false ∧ ((withRoom { room0 with b := true }).operands 0 0).b = true := by
  refine ⟨run_inv, run_canIssue, ?_⟩; decide +kernel

/-- A quotient and remainder for a divisor of 0, for the corner of DIV, and for 7 by 2. -/
theorem witness_ArithmeticUnits : run.canIssue 0 = true ∧ 6 ≤ (run.operands 0 0).lane.val ∧
    (withRoom { room0 with lane := 5 }).canIssue 0 = true ∧ ((withRoom { room0 with lane := 5 }).operands 0 0).lane.val < 6 ∧
    ((run.operands 0 0).get 1).toInt = (3 : Word).toInt * ((run.operands 0 0).get 2).toInt + (1 : Word).toInt ∧ (run.operands 0 0).get 0 = 0 ∧
    (let v := (withRoom { room0 with macQ := [(0, 6)], fpuQ := [(0, 5)], divQ := [(0, 3, 1)], load := some { due := 3, rd := 4, val := 8 } });
      (0 ≤ max v.now 0) ∧ v.rooms[0].macQ = [(0, 6)] ∧ v.rooms[0].fpuQ = [(0, 5)] ∧ v.rooms[0].divQ = [(0, 3, 1)] ∧ v.rooms[0].load.isSome) := by
  refine ⟨run_canIssue, ?_⟩; decide +kernel

theorem witness_FloatCorners : (0x7FC00001 : Word).toNat / 2 ^ 23 % 256 = 255 ∧ (0x7FC00001 : Word).toNat % 2 ^ 23 ≠ 0 ∧
    fCmp 0x3F800000 0x3F800000 = 0 ∧ (0x3F800000 : Word).toNat / 2 ^ 23 % 256 ≠ 255 := by decide +kernel

/-- WDK: the window is open and g3 holds the key; the task is the configuration's supervisor. -/
theorem witness_RestWdkAndInvalidWords : run.canIssue 0 = true ∧ run.taskOf 0 = some 0 ∧ conf0.way.bound[1]? = none ∧
    run.roomOf conf0.way.super = some 0 ∧ run.np.expired = false ∧ run.np.appok = false ∧
    run.np.start + run.np.open'.toNat ≤ ({ run with now := run.fetchCycle 0 0 + 5 } : State).tb ∧
    ({ run with now := run.fetchCycle 0 0 + 5 } : State).tb < run.np.start + run.np.close.toNat ∧
    ((run.operands 0 0).get 3).toNat % 2 ^ 16 = 0x3C5A ∧ (idle.roomOf 1) = none := by
  refine ⟨run_canIssue, ?_⟩; decide +kernel

/-! ### Witnesses: cycle, faults, resets -/

theorem roomOf_succ (i : Nat) : run.roomOf (i + 1) = none := by
  simp only [State.roomOf]
  rfl

/-- A room that waits for its first release, a room at its deadline in both states, and a group with one word handed over. -/
theorem witness_CycleSequencer : (let s := withRoom { room0 with st := .waiting };
      s.awake = true ∧ s.halted = false ∧ s.pwr.pf = .none ∧ s.app.stop = none ∧ s.edits.swap = .none ∧ s.pair.reqSwitch = none ∧ s.pair.role ≠ 2 ∧
      s.commitsNow 0 (s.cycle + 1) = false ∧ s.app.cur = some conf0 ∧ s.roomOf 0 = some 0 ∧ s.releasedAt 0 (s.cycle + 1) = true ∧
      s.rooms[0].stAt 20000 = .waiting) ∧
    (let s := withRoom { room0 with firstRel := false };
      s.commitsNow 0 (s.cycle + 1) = true ∧ s.taskOf 0 = some 0 ∧ s.img.closed.contains 0 = false ∧ s.rooms[0].st = .ready) ∧
    (let s := withRoom { room0 with firstRel := false, st := .waiting, restDone := 4 };
      s.commitsNow 0 (s.cycle + 1) = true ∧ s.rooms[0].restDone < s.cycleOfTb (20000 * (s.cycle + 1) - 800)) ∧
    (let s := withChan 1 { Chan.init with cfg := some (chanAs 1 8 [0, 0, 50]), recv := some (1, 40000) };
      s.chans[1].recv = some (1, 40000) ∧ s.groups[0].lplus = true ∧ s.groups[0].cfg = true ∧ s.pwr.quietIn = false ∧ s.groups[0].relief = false ∧
      s.chans[1].held = false ∧ ∀ m : ChanId, grpOf m = 0 → s.chans[m].recv = none ∨ s.chans[m].recv = some (1, 40000)) := by
  decide +kernel

theorem witness_CycleSequencer_inv : (withRoom { room0 with firstRel := false }).Inv := by rw [inv_iff]; decide +kernel

theorem witness_noCommit (i : Nat) : (withRoom { room0 with st := .waiting }).commitsNow i 1 = false := by
  cases i with
  | zero => decide +kernel
  | succ i => simp only [State.commitsNow]; rw [show (withRoom { room0 with st := .waiting }).roomOf (i + 1) = none from roomOf_succ i]

theorem witness_FaultsAndEvidence : run.awake = true ∧ run.halted = false ∧ run.scan.lanes = true ∧ run.Inv ∧ run.steward = true ∧
    1048575 < memWords .code ∧ run.scan.scrubbed + 1 < 1707736 ∧
    (let s : State := { run with scan := { run.scan with scrubbed := 1707735 } };
      1707736 ≤ s.scan.scrubbed + 1 ∧ s.awake = true ∧ s.halted = false) ∧
    (let s : State := { run with scan := { run.scan with faulted := true, fcause := 7, faultAt := 0, fev := run.scan.fev } };
      s.scan.faulted = true ∧ s.scan.faultAt < s.then 1 ∧ s.np.expired = false ∧ s.scan.fcause ≠ 1) ∧
    (withRoom { room0 with broken := some (9, 3) }).rooms[0].broken = some (9, 3) := by
  refine ⟨by decide +kernel, by decide +kernel, by decide +kernel, run_inv, ?_⟩; decide +kernel

/-- Slots that the scrubber and self-test have and have not; a word in use and one that no configuration uses; a store whose write stage and
an instruction whose write-back lie after a fault. -/
theorem witness_FaultsAndEvidence_slots :
    ({ run with now := 20001 } : State).scrubSlot = true ∧ ({ run with now := 1 } : State).scrubSlot = false ∧
    ({ run with now := 1 } : State).testSlot = true ∧ ({ run with now := 20001 } : State).testSlot = false ∧
    sweepWord 1048576 = (.data, 0) ∧ run.usedWord .data 0 = true ∧ run.usedWord .data 100 = false ∧
    (let s : State := { run with scan := { run.scan with
        undo := [{ at' := 9, image := false, addr := 3, old := 1 }]
        flights := [{ at' := 4, room := 0, before := room0 }] } };
      (∀ u ∈ s.scan.undo, 8 < u.at') ∧ s.scan.flights.filter (fun f => decide (8 < f.at' + 7)) = s.scan.flights) := by
  decide +kernel

theorem witness_ResetEntries : run.steward = true ∧ (0xB00C0001 : Word).getLsbD 0 = true ∧ (0xB00C0001 : Word).toNat / 2 ^ 16 = 0xB00C ∧
    run.pwr.pf = .none ∧ (0x00010001 : Word).toNat / 2 ^ 16 ≠ 0xB00C ∧ run.awake = true ∧ run.pwr.vsup = true ∧
    (let s : State := { run with np := { run.np with expired := true } };
      s.np.expired = true ∧ s.scan.faulted = false ∧ s.awake = true ∧ s.nv.busy = none) ∧
    (let s : State := { run with pwr := { run.pwr with pf := .lastTick } };
      s.pwr.pf = .lastTick ∧ s.nv.busy = none ∧ (∀ j ∈ s.nv.queue, j.cls ≠ 1) ∧ s.awake = true) ∧
    (let s : State := { run with phase := .inReset, clk := { run.clk with exitAt := some 440000 } };
      s.phase = .inReset ∧ s.clk.plllock = true ∧ s.pwr.vsup = true ∧ s.pwr.resetN = false ∧ s.clk.exitAt = some 440000) ∧
    (let s : State := { run with phase := .inReset, clk := { run.clk with plllock := false } };
      s.phase = .inReset ∧ s.pwr.vsup = true ∧ s.clk.plllock = false ∧ s.pwr.resetN = false) := by
  decide +kernel

/-- A configuration record whose ID is that of the stored waybill. -/
def confNv : Mem := Mem.write [] (recAddr 1 0) (slotBytes 1 0 (confRecord way0.crc true))

theorem witness_StartUp : State.reset.phase = .boot ∧
    (let s : State := { idle with nv := { run.nv with mem := confNv }, app := { idle.app with runFlag := true } };
      s.steward = true ∧ s.clk.judged = true ∧ s.nv.ready = true ∧ s.pwr.pf = .none ∧ s.app.running = false ∧ s.app.stored = some conf0 ∧
      s.app.start = none ∧ s.halted = false ∧ s.confRecordOk = true ∧ s.app.runFlag = true ∧ s.app.held = false ∧ s.app.loaded = true ∧
      s.app.hold = false ∧ conf0.way.pair = false ∧ s.pair.role = 0 ∧ s.pair.settled = false) ∧
    (let s : State := { idle with nv := { run.nv with mem := confNv }, app := { idle.app with runFlag := true, hold := true } };
      s.confRecordOk = true ∧ s.app.held = false ∧ s.app.loaded = true ∧ s.app.hold = true ∧ s.app.start = none) ∧
    (let s : State := { idle with app := { idle.app with stored := some pairConf }, pwr := { run.pwr with quietIn := true } };
      s.steward = true ∧ s.clk.judged = true ∧ s.pair.settled = false ∧ pairConf.way.pair = true ∧ s.pwr.quietIn = true) ∧
    (let s : State := { idle with
        app := { idle.app with stored := some pairConf }
        pwr := { run.pwr with rolePref := true }
        pair := { Pair.init with link := true, partner := { Partner.init with hello := true } } };
      s.pair.settled = false ∧ s.pwr.quietIn = false ∧ s.pair.link = true ∧ s.pair.partner.hello = true ∧ s.pair.partner.role ≠ 1 ∧
      s.pwr.rolePref = true ∧ s.pair.partner.pref = false) := by
  decide +kernel

/-- Counts at the bounds of each window of the monitor. -/
theorem witness_ClockMonitor : run.awake = true ∧ run.clk.plllock = true ∧ run.clk.noref = false ∧ run.clk.judged = true ∧
    run.clk.refsrc = false ∧ run.halted = false ∧ State.reset.awake = true ∧ State.reset.clk.judged = false ∧ State.reset.clk.plllock = true ∧
    State.reset.clk.noref = false ∧ State.reset.halted = false ∧ 777344 ≤ 777344 ∧ 785156 ≤ 785156 ∧
    (({ run with clk := { run.clk with noref := true } } : State).clk.noref = true) ∧
    (({ run with clk := { run.clk with judged := false, plllock := false } } : State).clk.plllock = false) ∧
    run.groups[0].lplus = true ∧ (∀ h : GrpId, h < 0 → run.groups[h].lplus = false) ∧
    (∀ g : GrpId, ({ run with groups := Vector.replicate 12 { Group.init with lplus := false } } : State).groups[g].lplus = false) := by
  decide +kernel

theorem witness_SupplyAndPins : run.pwr.vsup = true ∧ run.pwr.charged = true ∧ run.phase ≠ .inReset ∧ run.pwr.pf = .none ∧
    run.pwr.perstN = false ∧ run.steward = true ∧ run.pwr.quietIn = false ∧ State.reset.pwr.charged = false ∧ State.reset.pwr.vsup = true ∧
    (let s : State := { run with pwr := { run.pwr with vsup := false } };
      s.pwr.vsup = false ∧ s.phase ≠ .unpowered ∧ s.phase ≠ .inReset) ∧
    (let s : State := { run with phase := .inReset, clk := { run.clk with exitAt := some 440000 } };
      s.pwr.vsup = true ∧ s.pwr.charged = true ∧ s.phase = .inReset ∧ s.clk.exitAt = some 440000) ∧
    (let s : State := { run with phase := .inReset, pwr := { run.pwr with vsup := false, resetN := true } };
      s.pwr.vsup = false ∧ s.phase = .inReset ∧ s.pwr.resetN = true) ∧
    (let s : State := { run with pwr := { run.pwr with vsup := false }, phase := .unpowered };
      s.pwr.vsup = false ∧ s.phase = .unpowered) ∧
    (let s : State := { run with pwr := { run.pwr with charged := false }, nv := { run.nv with ready := false } };
      s.pwr.vsup = true ∧ s.steward = true ∧ s.clk.judged = true ∧ s.pwr.pf = .none ∧ s.nv.ready = false ∧ s.clk.cause = 1) ∧
    (∃ e, run.chans[1].cfg = some e ∧ e.mode = 8) ∧ (paired 1).steward = true ∧ (paired 1).pair.role = 1 := by
  decide +kernel

/-! ### Witnesses: field, analogue, CAN -/

/-- A timeout that has elapsed and one that has one cycle left; a group without L+; a group awaiting its configuration. -/
theorem witness_SupervisorsAndFieldSupply :
    (let p := run.groups[0];
      p.lplus = true ∧ p.supact = false ∧ p.timeout ≠ 0 ∧ p.lastAlign + p.timeout.toNat * 400000 ≤ run.then 20000000 ∧
      run.then 19999999 < p.lastAlign + p.timeout.toNat * 400000 ∧ p.supevt = false ∧ run.steward = true ∧ run.isRelief = false ∧ (paired 1).pair.settled = true ∧
      (withGrp { p with supact := true }).groups[0].supact = true) ∧
    (∃ e, run.chans[1].cfg = some e ∧ e.mode = 8 ∧ e.safe = 0) ∧ grpOf 1 = 0 ∧
    (withGrp { Group.init with lplus := false }).groups[0].lplus = false ∧ run.app.cur = some conf0 ∧
    (withGrp Group.init).groups[0].lplus = true ∧ (withGrp Group.init).groups[0].cfg = false := by
  refine ⟨by decide +kernel, ⟨_, rfl, rfl, by decide +kernel⟩, ?_⟩; decide +kernel

/-- Channel 0 is a Type 1 input, channel 2 a counter. -/
theorem witness_DigitalInputs : run.chans[0].cfg = some (chanAs 0 1 [0, 1]) ∧ run.groups[grpOf 0].lplus = true ∧ run.groups[grpOf 0].cfg = true ∧ run.chans[0].raw ≠ true ∧
    (byteAt (chanAs 0 1 [0, 1]).param 1).getLsbD 0 = true ∧ run.chans[0].copen = false ∧
    (let s := withChan 0 { Chan.init with cfg := some (chanAs 0 1 [0, 1]), raw := true };
      s.chans[0].cfg = some (chanAs 0 1 [0, 1]) ∧ s.chans[0].raw ≠ s.chans[0].level ∧ u16 (chanAs 0 1 [0, 1]).param 4 = 0 ∧
      s.then 999 < s.chans[0].rawAt + 1000 ∧ s.chans[0].rawAt + 1000 ≤ s.then 1000) ∧
    (let e := chanAs 2 3 [0, 1, 0, 0, 0, 0, 3];
      let s := withChan 2 { Chan.init with cfg := some e, raw := true, gateVal := some true };
      s.chans[2].cfg = some e ∧ e.mode = 3 ∧ s.chans[2].raw ≠ s.chans[2].level ∧ s.chans[2].gateVal = some true ∧ gateOf (grpOf 2) e ≠ some 2) := by
  decide +kernel

/-- Read-back that differs from the applied value and one that agrees; an energy within the limit. -/
theorem witness_OutputProtection_readback :
    (let e := chanAs 3 9 [0, 6];
      let s := withChan 3 { Chan.init with cfg := some e, level := true };
      s.groups[grpOf 3].cfg = true ∧ (s.chans[3].level != s.chans[3].applies s.groups[grpOf 3] e) = true ∧
      (run.chans[3].level != run.chans[3].applies run.groups[grpOf 3] e) = false) := by
  decide +kernel

theorem witness_OutputProtection :
    (let c : Chan := { Chan.init with cfg := some (chanAs 1 8 [0, 0, 50]), drive := true, limiting := true, rateUntil := some 9 };
      let s := withChan 1 c;
      s.chans[1].cfg = some (chanAs 1 8 [0, 0, 50]) ∧ s.groups[grpOf 1].lplus = true ∧ s.chans[1].drive = true ∧ s.chans[1].limiting = true ∧
      s.groups[grpOf 1].protLatch.getLsbD 1 = false ∧ s.steward = true ∧ s.chans[1].rateUntil = some 9 ∧ (chanAs 1 8 []).eoff * 11 + 50 < 6 * 10) ∧
    (let s := run;
      s.chans[3].cfg = some (chanAs 3 9 [0, 6]) ∧ s.chans[3].held = false ∧ s.chans[3].rateHeld = false ∧ s.pwr.quietIn = false ∧
      s.groups[grpOf 3].relief = false ∧ (byteAt (chanAs 3 9 [0, 6]).param 1).getLsbD 1 = true ∧ s.chans[3].cdisc = false ∧ s.chans[3].copen = false) ∧
    (let s := withChan 1 { Chan.init with cfg := some (chanAs 1 8 [0, 0, 50]), drive := true };
      let ma := (List.replicate 16 300).set 1 4000;
      ma.length = 16 ∧ 4400 < ma.foldl (· + ·) 0 ∧ chanOf 0 1 = 1 ∧ (chanAs 1 8 []).iload < ma.getD 1 0 ∧
      ∀ k : Fin 16, k ≠ 1 → s.chans[chanOf 0 k].drive = false) := by
  decide +kernel

def sample0 : Sample := { ch := 16, raw := 4000000, slot := 3, second := 0 }

/-- A frame of group 1 without findings, and one with a failed zero check. -/
def frame0 (zeroOk : Bool) : EngineFrame where
  bySpare := false
  zeroOk := zeroOk
  resultOk := true
  zeroPpm := 0
  gainPpm := 0
  selfTestOk := true
  cjTemp := none
  burnoutOpen := false
  samples := [sample0]

theorem witness_SparePaths :
    (let p := run.groups[1];
      p.lplus = true ∧ (frame0 true).bySpare = false ∧ p.engfail = false ∧ (frame0 true).resultOk = true ∧ (frame0 true).zeroOk = true ∧
      (frame0 true).selfTestOk = true ∧ (frame0 true).gainPpm.natAbs ≤ 5000 ∧ (frame0 true).burnoutOpen = false ∧ grpOf sample0.ch = 1 ∧
      (chanAs 16 0x10 []).isAnalogue = true ∧ p.relief = false ∧ (frame0 false).zeroOk = false) ∧
    (let s : State := { run with groups := run.groups.set 1 { Group.init with cfg := true, held := [(sample0, 5, false)] } };
      s.groups[1].held = [(sample0, 5, false)] ∧ s.chans[16].cfg = some (chanAs 16 0x10 []) ∧ u8 (chanAs 16 0x10 []).param 2 % 4 = 0 ∧
      s.chans[16].trimG = 0 ∧ s.chans[16].trimO = 0 ∧ -1000000 ≤ sample0.raw ∧ sample0.raw ≤ 30000000) ∧
    (let s : State := { run with spare := { Spare.init with engok := true } };
      s.spare.failed = false ∧ s.spare.engok = true ∧ s.spare.assigned = none) ∧
    (let s : State := { run with spare := { Spare.init with engok := true, assigned := some 1 } };
      s.spare.assigned = some 1 ∧ s.spare.connected = false ∧ s.spare.started = false) ∧
    (let s : State := { run with spare := { Spare.init with engok := true, assigned := some 1, connected := true }, groups := run.groups.set 1 { Group.init with
        engok := true
        engSince := 0 } };
      s.spare.connected = true ∧ s.groups[1].engok = true ∧ s.groups[1].engSince + 4000000000 ≤ s.then 4000000000 ∧
      (entry 0 [1]).formOk 0 [(4, 1)] = true ∧ (entry 0 [1]).b 4 = 1) := by
  decide +kernel

/-- The frame's sample is one of the schedule of group 1. -/
theorem witness_SparePaths_deliverable :
    let s : State := { run with groups := run.groups.set 1 { run.groups[1] with sched := [(2, 0)] } }
    s.deliverable 1 0 sample0 = true ∧ s.deliverable 1 0 { sample0 with slot := 4 } = false := by
  decide +kernel

/-- A measured value that agrees with each flag, and one that does not. -/
theorem witness_AnalogueState_values : run.groups[1].cfg = true ∧
    (∀ x ∈ [(30000000 : Int), 20500001, 20500000, 499999, -10500001], let s := withChan 16 { Chan.init with cfg := some (chanAs 16 0x10 []), value := BitVec.ofInt 32 x };
      s.chans[16].value.toInt = x) ∧
    (let c : Chan := { Chan.init with cfg := some (chanAs 17 0x21 []), lim := true, aout := .value 5000000 };
      c.lim = true ∧ c.value.toInt + 50000 < c.driving ∧ (100000 : Nat) < (c.value.toInt - c.driving).natAbs) := by
  decide +kernel

theorem witness_AnalogueState : run.chans[16].cfg = some (chanAs 16 0x10 []) ∧ run.groups[grpOf 16].lplus = true ∧ (chanAs 16 0x10 []).range = 0 ∧
    run.chans[17].cfg = some (chanAs 17 0x20 []) ∧ run.groups[1].relief = false ∧
    (∀ m ∈ [0x11, 0x18, 0x21, 0x22], (chanAs 16 m []).range ≠ 1 ∧
      (withChan 16 { Chan.init with cfg := some (chanAs 16 m []) }).chans[16].cfg = some (chanAs 16 m [])) ∧
    (let c : Chan := { Chan.init with follow := true, lastCom := some 5 };
      c.follow = true ∧ c.lastCom = some 5 ∧ c.trimG = 0 ∧ c.trimO = 0 ∧ Group.init.lplus = true) := by
  decide +kernel

/-- Channel 16 is a 4–20 mA input; a low point is held for steps 3 and 4. -/
theorem witness_CalibrationSteps : run.chans[16].cfg = some (chanAs 16 0x10 []) ∧ (chanAs 16 0x10 []).isAin = true ∧
    run.groups[grpOf 16].lplus = true ∧ run.groups[1].engfail = false ∧ run.chans[16].stale = false ∧ run.chans[16].aFault = false ∧
    32 * (chanAs 16 0x10 []).sps ≤ run.spareSlots (grpOf 16) ∧ run.groups[1].calLow = none ∧ run.groups[1].calHigh = none ∧
    (∀ k ∈ [(1 : Byte), 2], (entry 0 [16, k]).formOk 0 [(4, 1), (5, 1), (8, 4)] = true ∧ (entry 0 [16, k]).b 4 = 16 ∧ (entry 0 [16, k]).b 5 = k.toNat) ∧
    (∀ k ∈ [(3 : Byte), 4, 5], (entry 0 [16, k]).formOk 0 [(4, 1), (5, 1)] = true ∧ (entry 0 [16, k]).b 5 = k.toNat) ∧
    (let a : CalPoint := { ref := 4000000, meas := 4000100 };
      let s : State := { run with groups := run.groups.set 1 { Group.init with calCh := 0, calLow := some a } };
      s.groups[1].calCh.toNat = (idxOf 16).val ∧ s.groups[1].calLow = some a ∧ s.groups[1].calHigh = none ∧ s.nv.ready = true ∧
      (a.ref - a.meas).natAbs * 100 ≤ spanOf (chanAs 16 0x10 [])) ∧
    (({ run with groups := run.groups.set 1 { Group.init with lplus := false } } : State).groups[1].lplus = false) := by
  decide +kernel

theorem witness_CalibrationSteps_answer (s : State) (h : s.host = run.host) (p : s.pwr = run.pwr) (q : s.phase = run.phase) : s.CanAnswer 0 := by
  have m : s.mayBegin 0 = run.mayBegin 0 := by simp only [State.mayBegin, State.steward, h, q]
  exact ⟨m ▸ run_canAnswer.1, p ▸ run_canAnswer.2.1, h ▸ run_canAnswer.2.2⟩

/-- A port of mode 1 that takes part in the bus. -/
def canOn : Can := { run.cans[0] with integrated := true }

def canFrame (id : BitVec 29) : CanFrame where
  ide := false
  id := id
  fd := false
  brs := false
  remote := false
  payload := [1, 2]
  sofTb := 0

def filter0 : CanFilter := { port := 0, id := 5, mask := 7, ide := false, fmt := 0, stamp := false, src := 0, len := 2, dst := 0 }

def qframe (attempt final : Bool) : QFrame := { entry := 0, payload := [1, 2], latest := 900, attempt := attempt, final := final }

theorem witness_CanFrames : run.Inv ∧ run.app.cur = some conf0 ∧ conf0.way.filters.filter (fun f => f.port == 0) = [filter0] ∧
    (canFrame 5).id.toNat &&& filter0.mask = filter0.id &&& filter0.mask ∧ filter0.src + filter0.len ≤ (canFrame 5).payload.length ∧
    (canFrame 4).id.toNat &&& filter0.mask ≠ filter0.id &&& filter0.mask ∧
    (let s := withCan canOn;
      s.cans[0].on = true ∧ s.cans[0].hits.getLsbD 0 = false) ∧
    (let s := withCan { canOn with hits := 1, cycleStart := some 0, armed := [0] };
      s.cans[0].hits.getLsbD 0 = true ∧ s.cans[0].cycleStart = some 0 ∧ s.cans[0].armed.contains 0 = true ∧
      (conf0.way.cycs.filter (fun x => x.port == 0))[0]?.map CanCyc.buf = some 0 ∧ (conf0.way.bufs.filter (fun x => x.port == 0))[0]?.isSome) ∧
    (let s := withCan { canOn with queue := [qframe false false] };
      s.cans[0].on = true ∧ s.cans[0].gate = false ∧ s.cans[0].listen = false ∧ s.cans[0].restricted = false ∧
      s.cans[0].queue = [qframe false false] ∧ (s.at 900).tb ≤ (qframe false false).latest) ∧
    (withCan { canOn with gate := true }).cans[0].gate = true ∧
    (withCan { canOn with queue := [qframe true true] }).cans[0].queue = [qframe true true] := by
  refine ⟨run_inv, ?_⟩; decide +kernel

/-- An error count one below and at the bus-off bound; a port that recovers; a port without supply; one not yet integrated. -/
theorem witness_CanErrorsAndSupply : (withCan { canOn with tec := 255 }).cans[0].on = true ∧ 256 ≤ 255 + 1 ∧ 247 + 8 < 256 ∧
    (withCan canOn).cans[0].listen = false ∧ (withCan canOn).cans[0].busoff = false ∧ run.steward = true ∧
    (let p := (withCan { canOn with busoff := true, recovering := true }).cans[0];
      p.busoff = true ∧ p.recovering = true) ∧
    run.cans[0].vplus = true ∧ run.cans[0].integrated = false ∧ run.cans[0].cfgMode ≠ 0 ∧ (withCan Can.init).cans[0].vplus = false := by
  decide +kernel

theorem witness_CanRateDetection : run.steward = true ∧ idle.app.running = false ∧ idle.cans[0].det = .idle ∧
    (let p := (withCan { canOn with det := .nominal, detTime := 5, detGood := 1 }).cans[0];
      p.vplus = true ∧ p.det = .nominal ∧ p.detTime ≠ 0 ∧ p.detGood = 1) ∧
    (let p := (withCan { canOn with det := .data }).cans[0];
      p.det = .data ∧ p.detGood = 0) := by
  decide +kernel

/-! ### Witnesses: host interface and commands -/

theorem witness_RegisterAccess : run.steward = true ∧ run.host.busMaster = true ∧ (({ run with host := HostIf.init } : State).host.busMaster = false) ∧ (0xE : BitVec 4) ≠ 0xF ∧ (0xEFFC : BitVec 16).toNat < 0xF000 := by decide +kernel

/-- A set-up table with the right header and no ring in use, and one with a wrong header; bytes not listed are zero. -/
theorem witness_RingSetUp :
    (let s : State := { run with host := HostIf.init };
      s.steward = true ∧ s.host.active = false ∧ s.host.busMaster = false) ∧
    (let s : State := { run with host := { HostIf.init with busMaster := true } };
      s.steward = true ∧ s.host.active = false ∧ s.host.busMaster = true) ∧ run.host.active = true ∧
    (let table := toLe 4 0x474E5248 ++ [1, 0];
      let bell : List Byte := [];
      u32 table 0 = 0x474E5248 ∧ u16 table 4 = 1 ∧ u16 table 6 = 0 ∧ u64 table 8 % 4096 = 0 ∧ zeroFrom table 16 48 = true ∧
      (∀ r < 21, zeroFrom (setupEntry table r) 0 64 = true) ∧ zeroFrom bell 0 32 = true ∧ zeroFrom bell 64 36 = true) ∧
    (let table : List Byte := [];
      u32 table 0 ≠ 0x474E5248 ∧ zeroFrom table 16 48 = true ∧ ∀ r < 21, entryReservedOk (setupEntry table r) r = true) := by
  decide +kernel

def read0 (ref : Option CmdRef) : VRead := { task := 0, te := 0, addr := 0, len := 4, host := 64, ref := ref }

theorem witness_BellAndPublications : run.steward = true ∧ run.host.active = true ∧ run.host.busMaster = true ∧ (run.host.rings[0]).enable = true ∧
    2 ^ (run.host.rings[0]).logn < (BitVec.ofNat 32 (u32 [9, 0, 0, 0] 0) - run.host.cmdHead[0]).toNat ∧ run.host.linkUp = true ∧
    (let s : State := { run with
        host := { run.host with inProg := run.host.inProg.set 0 (some ref0) }
        edits := { run.edits with reads := [read0 (some ref0)] } };
      s.host.inProg[0] = some ref0 ∧ ref0.ring = 0 ∧ s.edits.reads.any (fun v => v.ref == some ref0) = true ∧
      s.host.cqRoom (s.host.cqOf 0) = true ∧ s.host.heldC[s.host.cqOf 0] = []) ∧
    (let x : Completion := { ref := ref0, status := 0, result := [] };
      let s : State := { run with host := { run.host with heldC := run.host.heldC.set 0 [x], heldSince := run.host.heldSince.set 0 5 } };
      s.host.heldC[0] = [x] ∧ s.host.outbox = [] ∧ s.host.cqRoom 0 = true ∧ s.host.heldSince[0] ≠ 0) ∧
    (let s : State := { run with host := { run.host with pubDue := run.host.pubDue.set 0 [(4, [1, 2])] } };
      (s.host.rings[16]).enable = true ∧ s.host.pubDue[0] = [(4, [1, 2])]) ∧
    (({ run with host := { run.host with active := false, evtPend := 0x20 } } : State).host.evtPend.getLsbD 5 = true) ∧
    (({ run with host := { run.host with busMaster := false } } : State).host.busMaster = false) := by
  decide +kernel

theorem witness_CommandChecks : run.CanAnswer 0 ∧ (0x99 : Byte).toNat ∉ Instr.opcodes ∧ (entry 1 []).formOk 0 [] = false ∧
    entry0.formOk 0 [] = true ∧
    (let s : State := { run with pwr := { run.pwr with pfwarn := true } };
      s.mayBegin 0 = true ∧ s.host.cqRoom (s.host.cqOf 0) = true ∧ s.pwr.pfwarn = true) ∧ State.reset.mayBegin 0 = false := by
  refine ⟨run_canAnswer, ?_⟩; decide +kernel

def exam0 (stage : Bool) : Exam := { ref := some ref0, stage := stage }

/-- Lengths on both sides of the bounds of 0x10; the states of a swap. -/
theorem witness_WaybillRequests : run.CanAnswer 0 ∧ (entry 0 [255]).formOk 0 [(4, 12)] = true ∧ (entry 0 [255]).w 4 < 256 ∧
    256 ≤ (entry 0 [0, 1]).w 4 ∧ (entry 0 [0, 1]).w 4 ≤ 0x300000 ∧ 0x300000 < (entry 0 [1, 0, 0x30]).w 4 ∧ (entry 0 [0, 1]).q 8 % 8 = 0 ∧
    run.inn.exam = none ∧ run.edits.swap = .none ∧ codeTooLarge (slice [] 0 256) = false ∧ entry0.formOk 0 [] = true ∧
    run.app.running = true ∧ idle.app.running = false ∧ idle.app.start = none ∧ (entry 1 []).formOk 1 [] = true ∧ run.applies = true ∧
    run.batchOfChanged = false ∧ idle.applies = false ∧
    ∀ x ∈ [SwapSt.staged, .pendSwitch, .trial], ({ run with edits := { run.edits with swap := x } } : State).edits.swap = x ∧ x ≠ .none := by
  refine ⟨run_canAnswer, ?_⟩; decide +kernel

/-- What fails the examination: here an empty memory. -/
theorem witness_ExaminationEnds_refused :
    let s : State := { run with inn := { run.inn with exam := some (exam0 true) } }
    s.inn.exam = some (exam0 true) ∧ s.applies = true ∧ (s.examineLoaded true).conf.isNone = true := by
  decide +kernel

/-- A batch of one value of variable 9, of a variable that does not exist, and with a trailing byte short of a multiple of 4. -/
theorem witness_EditsAndReadsAccepted : run.CanAnswer 0 ∧ run.app.running = true ∧
    (let e := entry 0 [0, 0, 12];
      e.formOk 0 [(4, 12)] = true ∧ 12 ≤ e.h 6 ∧ e.h 6 ≤ 256 ∧ e.h 6 % 4 = 0 ∧ e.h 4 < run.taskCount ∧ e.q 8 % 8 = 0) ∧
    run.isRelief = false ∧ run.swapChanges 0 = false ∧ run.edits.batches = [] ∧
    batchEntries 12 [9, 0, 0, 0, 0, 0, 4, 0, 1, 2, 3, 4] = some [(9, 0, [1, 2, 3, 4])] ∧ run.batchStatus 0 (some [(9, 0, [1, 2, 3, 4])]) = 0 ∧
    run.batchStatus 0 (some [(8, 0, [1, 2, 3, 4])]) = 0x0121 ∧
    (let e := entry 0 ([9, 0, 0, 0, 0, 0, 4, 0] ++ List.replicate 8 0 ++ [1, 2, 3, 4]);
      e.formOk 0 [(4, 14), (20, 32)] = true ∧ 1 ≤ e.h 10 ∧ e.h 10 ≤ 32 ∧ (slice e.body (16 + e.h 10) (32 - e.h 10)).any (· != 0) = false ∧
      run.findVar (e.w 4) = some var0 ∧ run.batchStatus 0 (batchEntries (oneEntry e).length (oneEntry e)) = 0 ∧ u48 e.body 8 = 0) ∧
    (let e := entry 0 ([9, 0, 0, 0, 0, 0, 4, 0] ++ toLe 6 7 ++ [0, 0] ++ [1, 2, 3, 4]);
      u48 e.body 8 ≠ 0 ∧ run.teAllowed 0 (u48 e.body 8) = true) ∧
    (let e := entry 0 ([9, 0, 0, 0, 0, 0, 4, 0] ++ toLe 6 3 ++ [0, 0] ++ [1, 2, 3, 4]);
      u48 e.body 8 ≠ 0 ∧ run.teAllowed 0 (u48 e.body 8) = false) ∧
    (let e := entry 0 [9, 0, 0, 0, 0, 0, 4, 0];
      e.formOk 0 [(4, 8), (16, 8)] = true ∧ e.q 16 % 8 = 0 ∧ run.readStatus e = 0 ∧ var0.size < (entry 0 [9, 0, 0, 0, 1, 0, 4, 0]).h 8 + 4) ∧
    run.findVar 8 = none := by
  refine ⟨run_canAnswer, ?_⟩; decide +kernel

def batch0 (te : Nat) : Batch := { task := 0, te := te, entries := 1, writes := [(0, 1), (1, 2)], ref := some ref0 }

theorem witness_EditsAndReadsTakeEffect : run.Inv ∧ run.app.running = true ∧ run.halted = false ∧ run.roomOf 0 = some 0 ∧
    (batch0 0).te ≤ run.cycle ∧ run.cycle < (batch0 1).te ∧ (batch0 0).writes.filter (fun w => w.1 == 1) = [(1, 2)] ∧
    (read0 (some ref0)).te ≤ run.cycle ∧ run.teComes 0 = true ∧ run.host.mute = false ∧
    (({ run with app := { run.app with stop := some { tick := 0, refs := [] } } } : State).teComes 0 = false) ∧
    (let s : State := { run with
        host := { run.host with inProg := run.host.inProg.set 0 (some ref0) }
        edits := { run.edits with reads := [read0 (some ref0)], batches := [batch0 0] } };
      s.edits.reads = [read0 (some ref0)] ∧ s.edits.batches = [batch0 0] ∧ s.host.active = true ∧ s.host.inProg[ref0.ring] = some ref0) := by
  refine ⟨run_inv, ?_⟩; decide +kernel

theorem witness_EditsAndReadsTakeEffect_inv : ({ run with
    host := { run.host with inProg := run.host.inProg.set 0 (some ref0) }
    edits := { run.edits with reads := [read0 (some ref0)], batches := [batch0 0] } } : State).Inv := by
  rw [inv_iff]; decide +kernel

def start0 (flagOk : Bool) : StartReq := { tick := 0, flagOk := flagOk, ref := some ref0 }

theorem witness_Starts : idle.CanAnswer 0 ∧ entry0.formOk 0 [] = true ∧ run.app.running = true ∧ idle.app.stored = some conf0 ∧
    idle.app.running = false ∧ idle.app.start = none ∧ idle.inn.exam = none ∧ idle.isRelief = false ∧ idle.partnerUnknown = false ∧
    idle.pair.settled = false ∧
    (let s : State := { idle with app := { idle.app with stored := some pairConf }, pwr := { run.pwr with pairPresent := true }, pair := { Pair.init with
        link := true } };
      s.pair.settled = false ∧ pairConf.way.pair = true ∧ s.pwr.pairPresent = true ∧ s.pair.link = true) ∧
    (let s : State := { paired 3 with app := { idle.app with stored := some pairConf } };
      s.isRelief = true ∧ s.app.start = none) ∧ State.reset.app.stored = none ∧
    (let s : State := { idle with app := { idle.app with start := some (start0 true) } };
      s.app.start = some (start0 true) ∧ (start0 true).flagOk = true ∧ (start0 true).tick ≤ s.cycle ∧ s.mayRelease = true ∧ s.app.running = false ∧
      (({ s with app := { s.app with loaded := false } } : State).mayRelease = false) ∧ 0 < task0.k ∧ conf0.task 0 = some task0 ∧ conf0.an.rooms[0]? = some 0 ∧ (start0 false).flagOk = false) := by
  refine ⟨?_, ?_⟩
  · exact witness_CalibrationSteps_answer idle rfl rfl rfl
  · decide +kernel

theorem witness_Starts_inv : ({ idle with app := { idle.app with start := some (start0 true) } } : State).Inv := by rw [inv_iff]; decide +kernel

theorem witness_StopSequence : run.CanAnswer 0 ∧ entry0.formOk 0 [] = true ∧ run.app.running = true ∧ run.edits.swap = .none ∧
    run.isRelief = false ∧ run.app.stop = none ∧ (paired 1).pair.role = 1 ∧ (paired 1).pair.link = true ∧ (paired 1).isRelief = false ∧
    ({ run with edits := { run.edits with swap := .trial } } : State).edits.swap = .trial ∧
    (let s : State := { run with app := { run.app with stop := some { tick := 0, refs := [] }, stopSafeAt := some 9 } };
      s.app.stop = some { tick := 0, refs := [] } ∧ s.halted = false ∧ 0 ≤ s.cycle ∧ s.cycle < 1 ∧ s.app.stopSafeAt = some 9) := by
  refine ⟨run_canAnswer, ?_⟩; decide +kernel

/-! ### Witnesses: swaps -/

def swapping (x : SwapSt) (confirmed : Bool) : State := { run with edits := { run.edits with
  swap := x, new := some conf0, old := some conf0, confirmed := confirmed } }

def swappingPair (role : BitVec 2) (x : SwapSt) : State := { paired role with edits := { run.edits with swap := x, new := some conf0 } }

theorem witness_SwapCommands : (entry 1 []).formOk 1 [] = true ∧ entry0.formOk 0 [] = true ∧
    (∀ x ∈ [SwapSt.none, .staged, .pendSwitch, .trial, .releasing, .pendRollback], (swapping x false).edits.swap = x) ∧
    (let s : State := { swapping .releasing false with edits := { (swapping .releasing false).edits with ref := some { ref0 with ring := 1 } } };
      ∀ ref ∈ s.edits.ref.toList ++ s.edits.also, ref.ring ≠ 0) ∧
    (swapping .staged false).app.running = true ∧ (swapping .staged false).isRelief = false ∧ (swapping .staged false).reliefInStep = false ∧
    (swappingPair 3 .staged).isRelief = true ∧
    (let s : State := { swappingPair 1 .staged with pair := { (paired 1).pair with partner := { Partner.init with role := 2, swap := 1 } } };
      s.reliefInStep = true ∧ s.pair.partner.swap = 1 ∧ s.isRelief = false) := by
  decide +kernel

theorem witness_SwapCommands_answer (x : SwapSt) : (swapping x false).CanAnswer 0 := witness_CalibrationSteps_answer _ rfl rfl rfl

theorem witness_SwapTicks : (swapping .pendSwitch true).app.cur = some conf0 ∧ (swapping .pendSwitch true).edits.new = some conf0 ∧
    (swapping .pendSwitch true).app.running = true ∧ (swapping .pendSwitch true).swapDue .pendSwitch = true ∧
    (swapping .pendRollback true).swapDue .pendRollback = true ∧ (swapping .pendRollback true).edits.old = some conf0 ∧
    (swapping .releasing true).edits.swap = .releasing ∧ (swapping .releasing true).edits.confirmed = true ∧
    (swapping .releasing true).steward = true ∧ (swapping .releasing true).pair.role = 0 ∧ conf0.way.pair = false ∧ conf0.an.rooms.Nodup := by
  decide +kernel

theorem witness_SwapExchange : (swappingPair 2 .staged).steward = true ∧ 20 < 2 ^ 48 ∧ (swappingPair 2 .staged).edits.new = some conf0 ∧
    (swappingPair 2 .staged).pair.role = 2 ∧ (swappingPair 2 .staged).cycle + 20 ≤ 20 ∧ 19 < (swappingPair 2 .staged).cycle + 20 ∧ (swappingPair 2 .trial).edits.swap = .trial ∧
    (swappingPair 2 .staged).pair.link = true ∧ (swappingPair 1 .pendSwitch).pair.role = 1 ∧ (swappingPair 1 .pendSwitch).edits.confirmed = false ∧
    (swappingPair 1 .pendSwitch).edits.tick = 0 ∧ (0x99 : Word) ≠ conf0.way.crc ∧ (swappingPair 1 .pendSwitch).pair.reqSwitch = none ∧
    (swappingPair 1 .releasing).edits.tick ≤ (swappingPair 1 .releasing).cycle + 20 ∧
    (let s : State := { swappingPair 1 .pendSwitch with edits := { (swappingPair 1 .pendSwitch).edits with tick := 21 } };
      s.cycle + 20 < s.edits.tick ∧ s.edits.confirmed = false) := by
  decide +kernel

/-! ### Witnesses: clock, NV store, guestbook, night porter, keys -/

/-- A day of a common year, the 29th of a leap February, the last second of 2199. -/
theorem witness_Calendar : (28 : Nat) ≤ daysIn 1 2 ∧ daysIn 1 2 = 28 ∧ daysIn 4 2 = 29 ∧ daysIn 100 2 = 28 ∧ daysIn 199 12 = 31 ∧
    (let c : Cal := { second := 59, minute := 59, hour := 23, day := 31, month := 12, year := 199, weekday := 1 };
      1 ≤ c.month ∧ c.month ≤ 12 ∧ c.day ≤ daysIn c.year c.month ∧ c.year ≤ 199 ∧ c.hour ≤ 23 ∧ c.minute ≤ 59 ∧ c.second = 59) ∧
    ({ Cal.epoch with day := 1 } : Cal).nextDay.2 = false ∧ run.bk.dstStep = none ∧
    (let s : State := { run with bk := { run.bk with dstStep := some (false, 400000000, ref0), alm2 := { Alarm.off with mode := 2 } } };
      s.bk.dstStep = some (false, 400000000, ref0) ∧ s.bk.alm2.mode = 2) := by
  decide +kernel

def snap0 : RtcSnap := { sub := 0, cal := Cal.epoch, dst := false, num := 1, at' := 5 }

theorem witness_ClockRegisters : run.steward = true ∧
    (let s : State := { run with bk := { run.bk with snapBar := some snap0, snapStw := some snap0 } };
      s.bk.snapBar = some snap0 ∧ s.bk.snapStw = some snap0 ∧ s.then 400000004 < snap0.at' + secCycles ∧ snap0.at' + secCycles ≤ s.then 400000005) := by
  decide +kernel

/-- 2024-02-29 12:00:00 and 2023-02-29; an add and a subtract of an hour; both comparators. -/
theorem witness_ClockCommandsTake : run.CanAnswer 0 ∧
    (let e := entry 0 [0xE8, 7, 2, 29, 12, 0, 0, 0];
      e.formOk 0 [(4, 8)] = true ∧ e.b 11 ≤ 1 ∧ 2000 ≤ e.h 4 ∧ e.h 4 ≤ 2199 ∧ 1 ≤ e.b 6 ∧ e.b 6 ≤ 12 ∧ 1 ≤ e.b 7 ∧ e.b 7 ≤ 31 ∧ e.b 8 ≤ 23 ∧
      e.b 9 ≤ 59 ∧ e.b 10 ≤ 59 ∧ e.b 7 ≤ daysIn (e.h 4 - 2000) (e.b 6)) ∧
    (let e := entry 0 [0xE7, 7, 2, 29, 12, 0, 0, 0];
      e.formOk 0 [(4, 8)] = true ∧ daysIn (e.h 4 - 2000) (e.b 6) < e.b 7) ∧
    run.bk.waits = false ∧ (entry 1 []).formOk 1 [] = true ∧ run.bk.dst = false ∧
    (({ run with now := run.then 0 } : State).dstBase.shift false).isNone = false ∧ run.then 0 ≤ run.bk.secAt + secCycles ∧
    (let s : State := { run with bk := { run.bk with dst := true, cal := { Cal.epoch with day := 2 } } };
      s.bk.waits = false ∧ s.bk.dst = true ∧ (({ s with now := s.then 0 } : State).dstBase.shift true).isNone = false) ∧
    (let s : State := { run with bk := { run.bk with stagedSet := some (Cal.epoch, false, ref0) } };
      s.bk.stagedSet.isSome = true ∧ s.bk.stagedSet = some (Cal.epoch, false, ref0)) ∧
    ∀ k ∈ [(1 : Byte), 2], (alarmChecks (entry 0 [k, 1, 0, 0, 0, 0, 0, 1, 1]) run).any Prod.fst = false ∧ (entry 0 [k, 1]).b 4 = k.toNat := by
  refine ⟨run_canAnswer, ?_, ?_, ?_, ?_, ?_, ?_, ?_, ?_, ?_, ?_⟩ <;> decide +kernel

/-- No check of an entry fails when none of the list does: the form in which the two witnesses on checks speak. -/
theorem checks_pass {l : List Check} (h : l.any Prod.fst = false) : ∀ k ∈ l, k.1 = false := by
  intro k hk
  have := List.any_eq_false.mp h k hk
  simpa using this

def job0 (retry : Bool) (done : NvDone) : NvJob := { cls := 1, addr := 0x1000, bytes := [1, 2], retry := retry, write := 1, done := done }

def nvBusy (j : NvJob) : State := { idle with
  nv := { run.nv with busy := some j }
  app := { idle.app with start := some (start0 false), stop := some { tick := 4, refs := [ref0] } } }

theorem witness_NvPrograms : (nvBusy (job0 false .nothing)).Inv ∧ (nvBusy (job0 true (.command ref0 3))).Inv ∧
    (nvBusy (job0 false .startFlag)).nv.busy = some (job0 false .startFlag) ∧ (nvBusy (job0 true .nothing)).nv.busy = some (job0 true .nothing) ∧
    (nvBusy (job0 false .startFlag)).app.start = some (start0 false) ∧ (nvBusy (job0 false .stopFlag)).app.stop = some { tick := 4, refs := [ref0] } ∧
    run.steward = true ∧ run.nv.ready = true ∧ run.pwr.pf = .none ∧ run.app.stored = some conf0 := by
  refine ⟨by rw [inv_iff]; decide +kernel, by rw [inv_iff]; decide +kernel, ?_⟩; decide +kernel

/-- Records below, at and above the bounds of the driver's records; a protected one; a record of five bytes read back. -/
theorem witness_NvRecords : run.CanAnswer 0 ∧
    (∀ r ∈ [0x00FF, 0x0100, 0x013B, 0x013C], let e := entry 0 (toLe 2 r ++ [5, 0]);
      e.formOk 0 [(4, 12)] = true ∧ 1 ≤ e.h 6 ∧ e.h 6 ≤ 4096 ∧ e.q 8 % 8 = 0 ∧ e.h 4 = r) ∧
    run.protected' 0x100 = false ∧ run.nv.ready = true ∧ (State.reset.nv.ready = false) ∧ recSize 0x013C = 0 ∧ recSize 1 ≠ 0 ∧
    recRead run.nv.mem 1 = none ∧ recRead confNv 1 = some (0, 0, confRecord way0.crc true) ∧ (confRecord way0.crc true).length ≤ 5 ∧
    4 < (confRecord way0.crc true).length ∧ (0xB10C0000 : Word).toNat / 2 ^ 16 = 0xB10C ∧ run.nv.lock = false ∧
    (({ run with nv := { run.nv with lock := true } } : State).nv.lock = true) ∧ run.host.mute = false := by
  refine ⟨run_canAnswer, ?_, ?_, ?_, ?_, ?_, ?_, ?_, ?_, ?_, ?_, ?_, ?_, ?_, ?_⟩ <;> decide +kernel

def gbRec0 : GbRec where
  typ := 0x13
  source := 0
  sev := 2
  rtc := none
  repeats := 0
  cycle := 0
  seq := 0
  hours := 0
  pcyc := 0
  words := []

theorem witness_GuestbookWrites : run.steward = true ∧
    (let s : State := { run with gb := { run.gb with queue := [gbRec0], last := some gbRec0, lastSlot := some 0, lastDirty := true } };
      s.gb.queue = gbRec0 :: [] ∧ s.nv.ready = true ∧ s.pwr.pf = .none ∧ bookSlot s.nv.settled gbRec0.sev = some 0 ∧ s.host.active = true ∧
      (s.host.rings[20]).enable = true ∧ s.gb.last = some gbRec0 ∧ s.gb.lastSlot = some 0 ∧ s.gb.lastDirty = true ∧ s.gb.unwritten = []) ∧ run.gb.queue = [] ∧
    (let s : State := { run with gb := { run.gb with unwritten := [(gbRec0, 3, 7)] } };
      s.gb.unwritten = [(gbRec0, 3, 7)] ∧ s.nv.ready = true ∧ s.pwr.pf = .none) ∧
    (let e := entry 0 [0xFF, 0x0F, 1, 0];
      e.formOk 0 [(4, 12)] = true ∧ e.q 8 % 8 = 0 ∧ e.h 4 ≤ 4095 ∧ 1 ≤ e.h 6 ∧ e.h 6 ≤ 4096) ∧
    4095 < (entry 0 [0, 0x10, 1, 0]).h 4 := by
  decide +kernel

/-- The window is open from cycle 0 to its close; the last cycle inside it and the first outside. -/
theorem witness_NightPorter : run.steward = true ∧ run.np.expired = false ∧ run.np.open'.toNat ≤ ({ run with now := run.then 39999999 } : State).tb - run.np.start ∧
    ({ run with now := run.then 39999999 } : State).tb - run.np.start < run.np.close.toNat ∧
    run.np.close.toNat ≤ ({ run with now := run.then 40000000 } : State).tb - run.np.start ∧ run.np.stwok = false ∧ run.np.stage = false ∧
    run.np.closed = false ∧ run.np.mode = false ∧
    (∀ a ∈ [false, true], ∀ b ∈ [false, true], let s : State := { run with np := { run.np with mode := true, appok := a, stwok := b } };
      s.np.mode = true ∧ s.np.stage = false ∧ s.np.closed = false ∧ s.np.appok = a ∧ s.np.stwok = b) ∧
    (let s : State := { run with np := { run.np with stage := true, faultAt := 3 } };
      s.np.stage = true ∧ s.np.faultAt ≠ ({ s with now := s.then 9 } : State).tb) ∧
    (let s : State := { run with np := { run.np with stwok := true } };
      s.np.mode = false ∧ s.np.open' = 0 ∧ s.np.close ≠ 0 ∧ s.np.start + s.np.close.toNat ≤ ({ s with now := s.then 40000000 } : State).tb ∧
      s.npCloseCycle ≤ s.then 40000000) := by
  decide +kernel

def secWith (oset : BitVec 4) : State := { idle with sec := { run.sec with oset := oset, enroll := run.sec.enroll.set 0 1 } }

theorem witness_OwnerKeys : (0xB0E50001 : Word).toNat / 2 ^ 16 = 0xB0E5 ∧ (0xB0E50001 : Word).toNat % 4 = 1 ∧ (0xB0E50002 : Word).toNat % 4 = 2 ∧
    run.inn.exam = none ∧ run.app.running = true ∧ (secWith 1).app.running = false ∧ (secWith 1).sec.oset.getLsbD 1 = false ∧
    (∀ j < 1, (secWith 1).sec.oset.getLsbD j = true) ∧ (∃ k : Fin 16, (secWith 1).sec.enroll[k] ≠ 0) ∧ (secWith 0xF).sec.oset = 0xF ∧
    (0xB0E50002 : Word).toNat / 4 % 4 = 0 ∧ (secWith 1).keepsKey 0 = true ∧
    ({ (secWith 3) with app := { (secWith 3).app with stored := none } } : State).keepsKey 0 = false := by
  refine ⟨by decide, by decide, by decide, by decide +kernel, by decide +kernel, by decide +kernel, by decide +kernel, by decide +kernel,
    ⟨0, by decide +kernel⟩, by decide +kernel, by decide, by decide +kernel, by decide +kernel⟩

/-! ### Witnesses: the pair -/

theorem witness_PostRoad : run.steward = true ∧ run.awake = true ∧ (paired 1).pair.link = true ∧ (paired 1).inPair = true ∧
    (let s : State := { paired 1 with pair := { (paired 1).pair with link := false, joinRef := some ref0 } };
      s.inPair = true ∧ s.pwr.pairPresent = true ∧ s.pair.trained = false ∧ s.clk.judged = true ∧ s.pair.joinRef = some ref0) ∧
    (let s : State := { paired 1 with pair := { (paired 1).pair with partnerPwr := true, trained := true } };
      s.pair.partnerPwr = true ∧ s.pair.trained = true) ∧ (paired 1).pair.partnerPwr = false ∧ (paired 1).halted = false ∧
    (paired 1).pwr.pf ≠ .lastTick ∧ (({ paired 1 with pwr := { (paired 1).pwr with pf := .lastTick } } : State).pwr.pf = .lastTick) := by
  decide +kernel

/-- Heartbeats whose phase lies inside, at and outside the bound of R374. -/
theorem witness_HeartbeatsAndTakeover :
    (let s : State := { paired 2 with now := 20000 };
      let bs (tb : Nat) : List Byte := toLe 8 tb ++ List.replicate 6 0 ++ [1, 4] ++ toLe 8 1 ++ toLe 4 3999 ++ [0, 0, 0, 0];
      s.awake = true ∧ s.pair.link = true ∧ s.pair.role = 2 ∧ s.pair.marked = none ∧ ({ s with now := s.then 0 } : State).phaseError (bs 28000) = some 0 ∧
      ({ s with now := s.then 0 } : State).phaseError (bs 27600) = some 400 ∧ ({ s with now := s.then 0 } : State).phaseError (bs 27599) = some 401 ∧
      bit (u8 (bs 28000) 15) 1 = false) ∧
    (paired 1).isRelief = false ∧ (paired 3).pair.role = 3 ∧ (paired 2).steward = true ∧ (paired 2).pair.hbSeen = true ∧
    (paired 2).pair.missing ≠ 2 ∧ (paired 2).pair.partner.single = false ∧
    (let s : State := { paired 2 with pair := { (paired 2).pair with missing := 2, due := some (0, 2) } };
      s.pair.missing = 2 ∧ s.pwr.pairPresent = true ∧ s.pair.due = some (0, 2) ∧ 0 ≤ s.cycle ∧ s.pwr.quietIn = false ∧ s.halted = false ∧
      s.pwr.pf = .none ∧ s.app.cur = some pairConf ∧ (∀ k : PortId, s.cans[k].armed = []) ∧ s.cycle < 1) ∧
    (({ paired 2 with app := { (paired 2).app with running := false } } : State).app.running = false) ∧
    (({ paired 2 with pwr := run.pwr } : State).pwr.pairPresent = false) := by
  decide +kernel

theorem witness_LockStep : (paired 2).awake = true ∧ (paired 2).isRelief = true ∧ (paired 2).cycle < u48 [1, 0, 0, 0, 0, 0] 0 ∧
    u48 [0, 0, 0, 0, 0, 0] 0 ≤ (paired 2).cycle ∧ run.isRelief = false ∧ (paired 2).steward = true ∧ (paired 2).pair.role = 2 ∧
    ({ paired 2 with pair := { (paired 2).pair with digDue := [3] } } : State).pair.digDue = [3] ∧
    (let bs : List Byte := toLe 6 1 ++ toLe 2 0 ++ [9, 0, 0, 0, 0, 0, 4, 0, 1, 2, 3, 4];
      (paired 2).cycle < u48 bs 0 ∧ (paired 2).batchStatus (u16 bs 6) (batchEntries (bs.drop 8).length (bs.drop 8)) = 0) ∧
    (paired 1).pair.role ≠ 2 := by
  decide +kernel

def switch0 (confirmed : Bool) (tick : Nat) : SwitchReq := { tick := tick, confirmed := confirmed, ref := some ref0, reversion := false }

theorem witness_PlannedSwitch : run.steward = true ∧ entry0.formOk 0 [] = true ∧ (paired 2).isRelief = true ∧ run.isRelief = false ∧
    run.inPair = false ∧ (paired 1).isRelief = false ∧ (paired 1).inPair = true ∧ (paired 1).reliefInStep = false ∧
    (let s : State := { paired 1 with pair := { (paired 1).pair with partner := { Partner.init with role := 2 } } };
      s.reliefInStep = true ∧ s.pair.reqSwitch = none) ∧
    (let s : State := { paired 2 with pwr := { (paired 2).pwr with rolePref := true } };
      s.pair.role = 2 ∧ s.pwr.rolePref = true ∧ s.pair.hold ≠ 0 ∧ s.pair.reqSwitch = none ∧ s.pair.link = true) ∧
    (paired 2).cycle + 20 ≤ 20 ∧ 19 < (paired 2).cycle + 20 ∧ (paired 2).pwr.quietIn = false ∧ (paired 2).app.stop = none ∧
    (paired 2).app.running = true ∧
    (let s : State := { paired 1 with pair := { (paired 1).pair with reqSwitch := some (switch0 false 20) } };
      s.pair.reqSwitch = some (switch0 false 20) ∧ s.pair.reqSwitch ≠ none ∧ s.edits.swap = .none ∧ (switch0 false 20).tick ≤ s.cycle + 20) ∧
    (∀ r ∈ [(1 : BitVec 2), 2], let s : State := { paired r with pair := { (paired r).pair with reqSwitch := some (switch0 true 0) } };
      s.pair.reqSwitch = some (switch0 true 0) ∧ (switch0 true 0).confirmed = true ∧ (switch0 true 0).tick ≤ s.cycle ∧ s.halted = false ∧ s.pwr.pf = .none ∧
      s.pair.role = r) := by
  decide +kernel

theorem witness_pair_answer (r : BitVec 2) : (paired r).CanAnswer 0 := by
  have h := run_canAnswer
  exact ⟨h.1, h.2.1, h.2.2⟩

/-- A relief out of step, of version equal to its partner's, at a base tick that every task is released at; room 0 was last released 4 ticks
before. -/
def joining : State := { paired 3 with
  cycle := 4
  rooms := run.rooms.set 0 { room0 with st := .stopped }
  app := { (paired 3).app with running := false }
  pair := { (paired 3).pair with
    rsync := true
    passDone := true
    frame := some (4, List.replicate (inputLen pairConf.way 0) 0)
    partner := { Partner.init with hello := false } } }

theorem witness_Resynchronisation : run.steward = true ∧ entry0.formOk 0 [] = true ∧ run.inPair = false ∧ (paired 0).inPair = true ∧
    (paired 0).pair.role = 0 ∧ (paired 2).pair.link = true ∧ (paired 2).pair.partner.hello = false ∧ (paired 2).pair.cfgdiff = false ∧
    (paired 3).pair.role = 3 ∧ (paired 3).pair.joinRef = none ∧ joining.steward = true ∧ joining.joinConf = some pairConf ∧
    joining.pair.role = 3 ∧ joining.pair.rsync = true ∧ joining.pair.passDone = true ∧ joining.mayRelease = true ∧ (paired 1).reliefInStep = false ∧
    (({ paired 1 with pair := { (paired 1).pair with partner := { Partner.init with role := 2 } } } : State).reliefInStep = true) ∧
    joining.commonAt pairConf joining.cycle = true ∧ joining.wholeFrame pairConf joining.cycle = true ∧
    pairConf.an.rooms.idxOf? 0 = some 0 ∧ 0 + [1].length ≤ ((pairConf.task 0).map Task.privLen).getD 0 ∧ (paired 1).pair.role = 1 ∧
    joining.app.running = false ∧ joining.inn.exam = none ∧ ([] : List Byte).length < 16 ∧
    (let part : List Byte := List.replicate 8 0 ++ [16] ++ List.replicate 7 0;
      16 ≤ part.length ∧ u32 part 8 ≤ part.length) := by
  decide +kernel

/-- Channel 1 is an output with its proof window open; on the relief the primary has sent the current it read. -/
theorem witness_DiscrepanciesAndProofs : (paired 2).steward = true ∧ (paired 2).chans[0].cfg = some (chanAs 0 1 [0, 1]) ∧
    (paired 2).isRelief = true ∧ comparedMode (chanAs 0 1 [0, 1]) = true ∧ (paired 2).chans[0].disc = false ∧ (paired 2).discDue 0 = none ∧
    (let s : State := { paired 2 with chans := (paired 2).chans.set 0 { (paired 2).chans[0] with diffAt := some 4 } };
      s.chans[0].cfg = some (chanAs 0 1 [0, 1]) ∧ s.chans[0].disc = false ∧ s.chans[0].diffAt = some 4 ∧ s.discDue 0 = some (4 + 20 * msCycles)) ∧ (paired 1).pair.role = 1 ∧
    (let t5 : Conf := { pairConf with way := { pairConf.way with tasks := [{ task0 with k := 5 }] } };
      let s : State := { paired 2 with
        app := { (paired 2).app with cur := some t5 }
        img := { run.img with com := [(0x1004, 1)] }
        pair := { (paired 2).pair with partner := { Partner.init with lplus := 1 } }
        chans := run.chans.set 1 { Chan.init with cfg := some (chanAs 1 8 [0, 0, 50]), exer := true } };
      ({ s with now := s.then 0 } : State).mayProve 1 = true) ∧
    (let s : State := { paired 2 with chans := run.chans.set 1 { Chan.init with cfg := some (chanAs 1 8 []), proofOpen := true, primMa := some 40 } };
      s.chans[1].proofOpen = true ∧ s.chans[1].primMa = some 40 ∧ 10 + 40 ≤ 5 * 10 ∧ 2 ≤ 10 + 40 ∧ 5 * 9 < 9 + 40 ∧ u8 [1, 0] 0 = 1) := by
  decide +kernel

/-- A proof window that may open: what it may do at its time, and a time from which too little is left. -/
theorem witness_DiscrepanciesAndProofs_window :
    (let t5 : Conf := { pairConf with way := { pairConf.way with tasks := [{ task0 with k := 5 }] } };
      let s : State := { paired 2 with
        app := { (paired 2).app with cur := some t5 }
        img := { run.img with com := [(0x1004, 1)] }
        pair := { (paired 2).pair with partner := { Partner.init with lplus := 1 } }
        chans := run.chans.set 1 { Chan.init with cfg := some (chanAs 1 8 [0, 0, 50]), exer := true } };
      s.mayProve 1 = true ∧ s.proofEnd 1 = 5 ∧
      ({ s with now := max (s.then 0) (s.cycleOfTb (tickCycles * 5 - 240 * usCycles)) } : State).tb + 40 * usCycles ≤ tickCycles * 5 ∧
      u48 (1 :: toLe 6 5) 1 = s.proofEnd 1 ∧ u48 (1 :: toLe 6 4) 1 ≠ s.proofEnd 1) ∧
    (let s : State := { paired 1 with chans := run.chans.set 1 { Chan.init with cfg := some (chanAs 1 8 []), drive := true } };
      s.pair.role = 1 ∧ s.pair.link = true ∧ s.chans[1].proofOpen = false ∧ s.chans[1].drive = true) := by
  decide +kernel

/-! ### Witnesses: every driver command -/

/-- An entry for each command whose checks have a list of their own, and a state in which it passes. -/
theorem witness_DriverCommandsComplete : run.mayBegin 0 = true ∧ run.pwr.pfwarn = false ∧
    (loadChecks (entry 0 [0, 1]) (some (List.replicate 256 0)) run).any Prod.fst = false ∧
    (editFormChecks (entry 0 [0, 0, 12]) run).any Prod.fst = false ∧ (run.editChecks 0).any Prod.fst = false ∧
    (∀ k ∈ [1, 2], (calTakeChecks (entry 0 [16, BitVec.ofNat 8 k]) k true run).any Prod.fst = false) ∧
    (rtcSetChecks (entry 0 [0xE8, 7, 2, 29, 12, 0, 0, 0]) run).any Prod.fst = false ∧
    (dstChecks (entry 1 []) false (run.taken 0 0 (entry 1 []) 0x51)).any Prod.fst = false ∧
    (let s : State := { run with bk := { run.bk with dst := true, cal := { Cal.epoch with day := 2 } } };
      (dstChecks (entry 1 []) true (s.taken 0 0 (entry 1 []) 0x51)).any Prod.fst = false) ∧
    (nvWriteChecks (entry 0 [0, 1, 5, 0]) (some [1, 2, 3, 4, 5]) run).any Prod.fst = false ∧
    (let s : State := { run with nv := { run.nv with mem := confNv } };
      (nvReadChecks (entry 0 [1, 0, 5, 0]) s).any Prod.fst = false ∧ recRead s.nv.mem 1 = some (0, 0, confRecord way0.crc true)) ∧
    (bookReadChecks (entry 0 [0xFF, 0x0F, 1, 0]) run).any Prod.fst = false := by
  refine ⟨?_, ?_, ?_, ?_, ?_, ?_, ?_, ?_, ?_, ?_, ?_, ?_⟩ <;> decide +kernel

/-- A low point that may be stored as channel 16's trim; a relief out of step whose road is up. -/
theorem witness_DriverCommandsComplete_more :
    (let a : CalPoint := { ref := 4000000, meas := 4000100 };
      let s : State := { run with groups := run.groups.set 1 { Group.init with cfg := true, calCh := 0, calLow := some a } };
      let e := entry 0 [16, 3];
      let k := chanAs 16 0x10 [];
      s.calCfg e = some (16, k) ∧ s.otherPoints e = false ∧ s.pointsOf 16 ≠ (none, none) ∧
      tooClose (spanOf k) (s.pointsOf 16).1 (s.pointsOf 16).2 = false ∧ calTrim (s.pointsOf 16).1 (s.pointsOf 16).2 = some (0, -100) ∧
      trimTooLarge (spanOf k) (some (0, -100)) = false) ∧
    (paired 3).pair.joinRef = none ∧ (paired 3).inPair = true ∧ (paired 3).pair.partner.hello = false := by
  decide +kernel

/-! ### Witnesses: the whole machine -/

theorem witness_StepKeepsInv : ({ run with pending := [.nop 0 0] } : State).Inv ∧
    (∃ s', step { run with pending := [.nop 0 0] } = .next s' ∧ s'.rooms[0].issued = 1) := by
  refine ⟨by rw [inv_iff]; decide +kernel, _, rfl, ?_⟩
  decide +kernel

theorem witness_QueueUntouched : ∃ s', exec (.baseTick 0) run = .next s' ∧ s'.cycle = 1 := by
  refine ⟨_, rfl, ?_⟩
  decide +kernel

theorem witness_FusesNeverClear : ∃ s', step { secWith 1 with pending := [.ownerKeyEnrol 0 0xB0E50001] } = .next s' ∧
    (secWith 1).sec.oset ≠ 0 ∧ (secWith 1).sec.oset.getLsbD 0 = true ∧ run.sec.cset.getLsbD 0 = true := by
  refine ⟨_, rfl, ?_⟩
  decide +kernel

/-! ### Witnesses: a waybill that passes its examination -/

def zeros (n : Nat) : List Byte := List.replicate n 0

/-- The polynomial of CRC-32, reflected. -/
def poly : Word := 0xEDB88320

theorem crcBytes_append (a b : List Byte) (c : Word) : crcBytes poly (a ++ b) c = crcBytes poly b (crcBytes poly a c) := by
  induction a generalizing c with
  | nil => rfl
  | cons x a ih => exact ih _

theorem crcBytes_zeros (n : Nat) : crcBytes poly (zeros n) 0 = 0 := by
  induction n with
  | zero => rfl
  | succ n ih => exact ih

theorem form_ok {bs : List Byte} {f : Nat → List (Nat × List Byte)} {code : Code} {ts : List Task} (h : headerFault bs = none)
    (d : directoryFaults bs (sections bs) = []) (es : ∀ t, entriesOf bs (sections bs) t = f t) (hc : decodeCode (codeWords bs (sections bs)) = code)
    (hb : ∀ i ∈ code.toList, ∀ a b, i.kind ≠ .lpr a b) (l : layoutFaults bs (sections bs) false = [])
    (ht : (f 3).map (fun e => parseTask e.2) = ts) (m : codeFaults code = [])
    (r : boundFaults (f 2) ++ featFaults (f 8) ++ taskFaults (u16 bs 20) (f 3) ++ varFaults ts (f 4) ++ chanFaults ts.length (f 5) ++
      canFaults ts.length (f 6) (f 7) = []) : formFault bs = none := by
  simp only [List.append_eq_nil_iff] at r
  simp only [formFault, h, d, es, hc, ht, m, r, ne_eq, not_true_eq_false, if_false, List.map_nil, List.append_nil]
  generalize e : Array.any code _ = b
  cases b with
  | false => rw [l]; rfl
  | true =>
    rw [← Array.any_toList, List.any_eq_true] at e
    obtain ⟨i, hi, x⟩ := e
    split at x
    · rename_i a b k; exact absurd k (hb i hi a b)
    · cases x

/-- One task of class 0 whose code is three instructions, no field configuration, and the SIG section of an open module; the four bytes after
its first 16 bring the CRC's register to zero, where the zeros of the signature leave it. -/
def wayHead (crc : List Byte) : List Byte :=
  [77, 87, 66, 76, 1, 0, 0, 0, 224, 12, 0, 0, 4, 0, 0, 0] ++ crc ++
  zeros 44 ++ [1, 0, 0, 0, 128, 0, 0, 0, 12, 0, 0, 0, 3, 0, 0, 0, 3, 0, 0, 0, 144, 0, 0, 0, 32, 0, 0, 0, 1, 0, 0, 0, 8, 0, 0, 0, 176, 0, 0, 0, 16, 0, 0, 0, 1, 0, 0, 0, 255, 0, 0, 0, 192, 0, 0, 0, 32, 12, 0, 0, 1, 0, 0, 0, 90, 60, 32, 21, 17, 0, 9, 224, 16, 0, 0, 224] ++ zeros 8 ++ [20, 0, 0, 0, 0, 0, 0, 0, 3] ++ zeros 23 ++ [1, 1] ++ zeros 10 ++
  [255] ++ zeros 15 ++ [135, 194, 32, 48]

def wayBytes : List Byte := wayHead [255, 255, 255, 255] ++ zeros 3084

theorem wayBytes_length : wayBytes.length = 3296 := by
  rw [wayBytes, List.length_append, zeros, List.length_replicate, show (wayHead [255, 255, 255, 255]).length = 212 by decide +kernel]

theorem wayBytes_crc : crc32 (wayBytes.take 16 ++ toLe 4 0 ++ wayBytes.drop 20) = 0xFFFFFFFF := by
  have h0 : crcBytes poly (slice (wayHead (zeros 4)) 0 32) (BitVec.allOnes 32) = 0xC08B96E := by decide +kernel
  have h1 : crcBytes poly (slice (wayHead (zeros 4)) 32 32) 0xC08B96E = 0xAA52B2C3 := by decide +kernel
  have h2 : crcBytes poly (slice (wayHead (zeros 4)) 64 32) 0xAA52B2C3 = 0xC45AB88C := by decide +kernel
  have h3 : crcBytes poly (slice (wayHead (zeros 4)) 96 32) 0xC45AB88C = 0xC936CEE6 := by decide +kernel
  have h4 : crcBytes poly (slice (wayHead (zeros 4)) 128 32) 0xC936CEE6 = 0x9A014C0F := by decide +kernel
  have h5 : crcBytes poly (slice (wayHead (zeros 4)) 160 52) 0x9A014C0F = 0x0 := by decide +kernel
  have e : wayBytes.take 16 ++ toLe 4 0 ++ wayBytes.drop 20 = (slice (wayHead (zeros 4)) 0 32 ++ (slice (wayHead (zeros 4)) 32 32 ++ (slice (wayHead (zeros 4)) 64 32 ++ (slice (wayHead (zeros 4)) 96 32 ++ (slice (wayHead (zeros 4)) 128 32 ++ (slice (wayHead (zeros 4)) 160 52)))))) ++
      zeros 3084 := by
    rw [wayBytes, List.take_append_of_le_length (by decide +kernel), List.drop_append_of_le_length (by decide +kernel), ← List.append_assoc]
    exact congrArg (· ++ zeros 3084) (by decide +kernel)
  rw [e, crc32, show (0xEDB88320 : BitVec 32) = poly from rfl]
  simp only [crcBytes_append, h0, h1, h2, h3, h4, h5, crcBytes_zeros]
  decide

theorem wayBytes_form : formFault wayBytes = none := by
  have h : headerFault wayBytes = none := by
    unfold headerFault
    rw [wayBytes_crc, wayBytes_length]
    decide +kernel
  have d : directoryFaults wayBytes (sections wayBytes) = [] := by
    simp only [directoryFaults, wayBytes_length]
    decide +kernel
  have l : layoutFaults wayBytes (sections wayBytes) false = [] := by
    simp only [layoutFaults, wayBytes_length]
    decide +kernel
  have k : (decodeCode (codeWords wayBytes (sections wayBytes))).toList.all
      (fun i => match i.kind with | .lpr _ _ => false | _ => true) = true := by decide +kernel
  refine form_ok h d (fun _ => rfl) rfl ?_ l rfl (by decide +kernel) (by decide +kernel)
  intro i hi a b e
  have := List.all_eq_true.mp k i hi
  rw [e] at this
  cases this

theorem wayBytes_signature (v : ∀ k d s, Config.falconVerify k d s = true) : signatureStatus run.sec wayBytes = 0 := by
  rw [signatureStatus, show findSect (sections wayBytes) 0xFF =
    some { typ := 255, rsv := 0, off := 192, len := 3104, cnt := 1, loc := 112 } by decide +kernel]
  dsimp only
  rw [v, if_neg, if_neg, if_pos rfl]
  · decide +kernel
  · decide +kernel

/-- A swap of that waybill: its task is CHANGED, and no variable migrates. -/
def swapHead (crc : List Byte) : List Byte :=
  [77, 87, 66, 76, 1, 0, 2, 0, 240, 12, 0, 0, 5, 0, 0, 0] ++ crc ++
  zeros 44 ++ [1, 0, 0, 0, 144, 0, 0, 0, 12, 0, 0, 0, 3, 0, 0, 0, 3, 0, 0, 0, 160, 0, 0, 0, 32, 0, 0, 0, 1, 0, 0, 0, 8, 0, 0, 0, 192, 0, 0, 0, 16, 0, 0, 0, 1, 0, 0, 0, 9, 0, 0, 0, 192] ++ zeros 11 ++ [255, 0, 0, 0, 208, 0, 0, 0, 32, 12, 0, 0, 1, 0, 0, 0, 90, 60, 32, 21, 17, 0, 9, 224, 16, 0, 0, 224] ++ zeros 8 ++ [20, 0, 0, 1, 0, 0, 0, 0, 3] ++ zeros 23 ++ [1, 1] ++ zeros 10 ++
  [255] ++ zeros 15 ++ [249, 33, 117, 198]

def swapBytes : List Byte := swapHead [255, 255, 255, 255] ++ zeros 3084

theorem swapBytes_length : swapBytes.length = 3312 := by
  rw [swapBytes, List.length_append, zeros, List.length_replicate, show (swapHead [255, 255, 255, 255]).length = 228 by decide +kernel]

theorem swapBytes_crc : crc32 (swapBytes.take 16 ++ toLe 4 0 ++ swapBytes.drop 20) = 0xFFFFFFFF := by
  have h0 : crcBytes poly (slice (swapHead (zeros 4)) 0 32) (BitVec.allOnes 32) = 0x34EB67A := by decide +kernel
  have h1 : crcBytes poly (slice (swapHead (zeros 4)) 32 32) 0x34EB67A = 0x54306AD9 := by decide +kernel
  have h2 : crcBytes poly (slice (swapHead (zeros 4)) 64 32) 0x54306AD9 = 0xF053057F := by decide +kernel
  have h3 : crcBytes poly (slice (swapHead (zeros 4)) 96 32) 0xF053057F = 0x1846378E := by decide +kernel
  have h4 : crcBytes poly (slice (swapHead (zeros 4)) 128 32) 0x1846378E = 0x3809271E := by decide +kernel
  have h5 : crcBytes poly (slice (swapHead (zeros 4)) 160 32) 0x3809271E = 0x75719A51 := by decide +kernel
  have h6 : crcBytes poly (slice (swapHead (zeros 4)) 192 36) 0x75719A51 = 0x0 := by decide +kernel
  have e : swapBytes.take 16 ++ toLe 4 0 ++ swapBytes.drop 20 = (slice (swapHead (zeros 4)) 0 32 ++ (slice (swapHead (zeros 4)) 32 32 ++ (slice (swapHead (zeros 4)) 64 32 ++ (slice (swapHead (zeros 4)) 96 32 ++ (slice (swapHead (zeros 4)) 128 32 ++ (slice (swapHead (zeros 4)) 160 32 ++ (slice (swapHead (zeros 4)) 192 36))))))) ++
      zeros 3084 := by
    rw [swapBytes, List.take_append_of_le_length (by decide +kernel), List.drop_append_of_le_length (by decide +kernel), ← List.append_assoc]
    exact congrArg (· ++ zeros 3084) (by decide +kernel)
  rw [e, crc32, show (0xEDB88320 : BitVec 32) = poly from rfl]
  simp only [crcBytes_append, h0, h1, h2, h3, h4, h5, h6, crcBytes_zeros]
  decide

theorem swapBytes_form : formFault swapBytes = none := by
  have h : headerFault swapBytes = none := by
    unfold headerFault
    rw [swapBytes_crc, swapBytes_length]
    decide +kernel
  have d : directoryFaults swapBytes (sections swapBytes) = [] := by
    simp only [directoryFaults, swapBytes_length]
    decide +kernel
  have l : layoutFaults swapBytes (sections swapBytes) false = [] := by
    simp only [layoutFaults, swapBytes_length]
    decide +kernel
  have k : (decodeCode (codeWords swapBytes (sections swapBytes))).toList.all
      (fun i => match i.kind with | .lpr _ _ => false | _ => true) = true := by decide +kernel
  refine form_ok h d (fun _ => rfl) rfl ?_ l rfl (by decide +kernel) (by decide +kernel)
  intro i hi a b e
  have := List.all_eq_true.mp k i hi
  rw [e] at this
  cases this

theorem swapBytes_signature (v : ∀ k d s, Config.falconVerify k d s = true) : signatureStatus run.sec swapBytes = 0 := by
  rw [signatureStatus, show findSect (sections swapBytes) 0xFF =
    some { typ := 255, rsv := 0, off := 208, len := 3104, cnt := 1, loc := 128 } by decide +kernel]
  dsimp only
  rw [v, if_neg, if_neg, if_pos rfl]
  · decide +kernel
  · decide +kernel

/-- An open module without a configuration, with the waybill loaded and its examination begun. -/
def examining : State := { idle with app := App.init, inn := { Inn.init with loaded := some wayBytes, exam := some (exam0 false) } }

/-- The module runs the waybill and examines the swap. -/
def staging : State := { run with
  app := { run.app with cur := some { way := parseWay wayBytes, an := an0 } }
  inn := { Inn.init with loaded := some swapBytes, exam := some (exam0 true) } }

/-- Whatever Falcon verification is, if it accepts, both examinations pass. -/
theorem witness_ExaminationEnds_passed (v : ∀ k d s, Config.falconVerify k d s = true) :
    examining.inn.exam = some (exam0 false) ∧ examining.nv.ready = true ∧ examining.pair.role = 0 ∧
    (examining.examineLoaded false).conf.map (fun c => c.way.pair) = some false := by
  refine ⟨rfl, rfl, rfl, ?_⟩
  rw [State.examineLoaded, show examining.inn.loaded = some wayBytes from rfl, show examining.knownRooms = [] from rfl,
    show examining.sec = run.sec from rfl, Option.getD_some, examine, wayBytes_form]
  simp only [Bool.false_eq_true, if_false]
  dsimp only [Option.bind_none]
  rw [wayBytes_signature v]
  decide +kernel

theorem witness_ExaminationEnds_staged (v : ∀ k d s, Config.falconVerify k d s = true) :
    staging.inn.exam = some (exam0 true) ∧ staging.applies = true ∧ (staging.examineLoaded true).conf.isSome = true := by
  refine ⟨rfl, rfl, ?_⟩
  rw [State.examineLoaded, show staging.inn.loaded = some swapBytes from rfl,
    show staging.app.cur = some { way := parseWay wayBytes, an := an0 } from rfl, show staging.sec = run.sec from rfl, Option.getD_some, examine,
    swapBytes_form, if_pos rfl, show (some ({ way := parseWay wayBytes, an := an0 } : Conf) <|> staging.app.stored) = some { way := parseWay wayBytes, an := an0 } from rfl]
  dsimp only [Option.bind_some]
  rw [show stageFault { way := parseWay wayBytes, an := an0 } swapBytes = none by decide +kernel]
  dsimp only
  rw [swapBytes_signature v]
  decide +kernel

/-! ### Witness: a point of the retain journal to fold -/

/-- One journal page that is both the first and the last of its point. -/
def pageMem : Mem := [(journalAddr 0 + 11, 3), (journalAddr 0 + 60, 255), (journalAddr 0 + 61, 255), (journalAddr 0 + 62, 255), (journalAddr 0 + 63, 255), (journalAddr 0 + 64, 131), (journalAddr 0 + 65, 1), (journalAddr 0 + 66, 116), (journalAddr 0 + 67, 177)]

theorem pageMem_page : pageAt pageMem 0 = some (pageMem.read (journalAddr 0) 256) := by
  have h0 : crcBytes poly (slice (pageMem.read (journalAddr 0) 256) 0 32) (BitVec.allOnes 32) = 0x9DEB28B1 := by decide +kernel
  have h1 : crcBytes poly (slice (pageMem.read (journalAddr 0) 256) 32 28) 0x9DEB28B1 = 0xB1740183 := by decide +kernel
  have h2 : crcBytes poly (slice (pageMem.read (journalAddr 0) 256) 64 4) 0xB1740183 = 0 := by decide +kernel
  have e : slice (pageMem.read (journalAddr 0) 256) 0 60 ++ slice (pageMem.read (journalAddr 0) 256) 64 192 =
      slice (pageMem.read (journalAddr 0) 256) 0 32 ++ (slice (pageMem.read (journalAddr 0) 256) 32 28 ++
        (slice (pageMem.read (journalAddr 0) 256) 64 4 ++ zeros 188)) := by decide +kernel
  have c : crc32 (slice (pageMem.read (journalAddr 0) 256) 0 60 ++ slice (pageMem.read (journalAddr 0) 256) 64 192) = 0xFFFFFFFF := by
    rw [e, crc32, show (0xEDB88320 : BitVec 32) = poly from rfl]
    simp only [crcBytes_append, h0, h1, h2, crcBytes_zeros]
    decide
  rw [pageAt, c, if_pos]
  decide +kernel

theorem pageMem_end : pageAt pageMem 1 = none := by
  rw [pageAt, if_neg]
  intro h
  exact absurd h.2 (by decide +kernel)

theorem pointsFrom_none {m : Mem} {j n : Nat} (h : pageAt m j = none) : pointsFrom m (n + 1) j [] = [] := by simp [pointsFrom, h]

theorem pointsFrom_one {m : Mem} {j n : Nat} {p : List Byte} (h : pageAt m j = some p) (a : bit (u8 p 11) 0 = true) (b : bit (u8 p 11) 1 = true)
    (e : pageAt m (j + 1) = none) : pointsFrom m (n + 2) j [] = [(j + 1, [p])] := by simp [pointsFrom, h, a, b, e]

/-- The page is a complete point; with no page the journal has none to fold. -/
theorem witness_NvPrograms_fold : ((pointsFrom pageMem 512 0 []).filter (fun p => decide (p.1 ≤ 1))).getLast?.isSome = true ∧
    (pointsFrom pageMem 512 1 []).filter (fun p => decide (p.1 ≤ 1)) = [] := by
  rw [pointsFrom_one (n := 510) pageMem_page (by decide +kernel) (by decide +kernel) pageMem_end, pointsFrom_none (n := 511) pageMem_end]
  exact ⟨rfl, rfl⟩

/-! ### Witnesses: firmware updates -/

/-- The first chunk of an image of two pages, announced by LENGTH in its header. -/
def chunk0 : List Byte := List.replicate 12 0 ++ toLe 4 8192

def chunkEntry : CmdEntry := entry 0 (toLe 4 0 ++ toLe 4 4096)

theorem witness_updateChunk : run.CanAnswer 0 ∧ run.sec.chunk = none ∧ (chunkChecks chunkEntry (some chunk0) run).any Prod.fst = false ∧
    chunkEntry.w 4 = 0 ∧
    (let s : State := { run with sec := { run.sec with chunk := some (ref0, 0, [1, 2]), updNext := 0, imgB := [] } };
      s.sec.chunk = some (ref0, 0, [1, 2])) := by
  refine ⟨run_canAnswer, rfl, ?_, ?_, rfl⟩ <;> decide +kernel

/-- Slot B holds nothing that can be activated; slot A is on trial. -/
theorem witness_KeysAndUpdates : entry0.formOk 0 [] = true ∧ run.inn.exam = none ∧ run.edits.swap = .none ∧ run.sec.chunk = none ∧
    run.sec.activateStatus ≠ 0 ∧ run.phase = .running ∧ run.steward = true ∧
    (let s : State := { run with sec := { run.sec with stA := .trial } };
      s.sec.onTrial = true ∧ s.clk.judged = true) ∧ (0xC0F10001 : Word).getLsbD 0 = true ∧ (0xC0F10001 : Word).toNat / 2 ^ 16 = 0xC0F1 ∧
    (let e := entry 0 [0, 8];
      e.formOk 0 [(4, 12), (16, 32)] = true ∧ 2048 ≤ e.w 4 ∧ e.w 4 ≤ 4096 ∧ e.q 8 % 8 = 0) := by
  refine ⟨by decide +kernel, rfl, rfl, rfl, ?_, rfl, rfl, by decide +kernel, by decide, by decide, by decide +kernel⟩
  unfold Sec.activateStatus
  simp [show run.sec.updActive = false from rfl]

/-- An image of two pages with one segment, and the module that holds it whole in slot B. -/
def image0 : List Byte := toLe 4 0x4957464D ++ [1, 0, 0, 0, 0, 0, 0, 0] ++ toLe 4 8192 ++ [1, 0] ++ List.replicate 46 0 ++
  toLe 4 4096 ++ toLe 4 4096 ++ [1]

def updating : Sec := { run.sec with imgB := image0, updActive := true, updNext := 8192, cset := 0xF, chash := Vector.replicate 4 (zeros 64) }

/-- Whatever the opaque functions are, if the digests and the signature agree, activation passes. -/
theorem witness_activate (v : ∀ k d s, Config.falconVerify k d s = true) (d : ∀ m, Config.shake256 m = zeros 64) :
    updating.activateStatus = 0 := by
  have h : updating.image updating.spareSlot = image0 := rfl
  have k : headerOk image0 = true := by decide +kernel
  have z : slice image0 80 64 = zeros 64 := by decide +kernel
  have g : digestOk image0 0 = true := by simp [digestOk, d, z]
  have c : imageCheck updating image0 = 0 := by
    simp only [imageCheck, k, d, v, g, show u8 image0 11 = 0 by decide +kernel, show u8 image0 6 = 0 by decide +kernel,
      show u8 image0 7 % 4 = 0 by decide +kernel, show updating.cset.getLsbD 0 = true from rfl, show updating.crev.getLsbD 0 = false from rfl,
      show updating.chash.toList.getD 0 [] = zeros 64 from rfl]
    simp [show updating.svncnt = 0 from rfl]
  rw [Sec.activateStatus, h, c, show u16 image0 16 = 1 by decide +kernel, show updating.updActive = true from rfl,
    show updating.updNext.toNat = 8192 by decide +kernel, show imageLength image0 = 8192 by decide +kernel]
  simp [List.range_succ, g]


/-! ### WellFormed refuses an ill-formed term of each check -/

def short : CmdEntry := { flags := 0, tag := 0, body := [] }
def flagged (b : Byte) : CmdEntry := { entry0 with flags := b }

theorem test_wf_operands : Instr.wf (.scrubRead 0 (.lane .data) 524288 .clean) = false ∧ Instr.wf (.groupOvercurrent 0 0 [1]) = false ∧
    Instr.wf (.engineFrame 0 2 (frame0 true)) = false ∧ Instr.wf (.ownerKeyEnrol 0 2) = false ∧ Instr.wf (.ownerKeyRevoke 0 1) = false ∧
    Instr.wf (.registerWrite 0 2 0 0xF) = false ∧ Instr.wf (.startupConfigLoad 0 true []) = false := by decide

theorem test_wf_canFrame : CanFrame.wf (canFrame 0x800) = false ∧ CanFrame.wf { canFrame 5 with fd := true, payload := List.replicate 9 0 } = false ∧
    CanFrame.wf { canFrame 5 with payload := List.replicate 12 0 } = false ∧ CanFrame.wf { canFrame 5 with remote := true } = false ∧
    CanFrame.wf { canFrame 5 with brs := true } = false ∧ CanFrame.wf (canFrame 5) = true ∧ Instr.wf (.canFrameReceived 0 0 (canFrame 0x800)) = false := by
  decide

theorem test_wf_sizes : Instr.wf (.unknownCommand 0 0 short 0x99) = false ∧ Instr.wf (.unknownCommand 0 0 entry0 0x10) = false ∧
    Instr.wf (.waybillLoad 0 0 short none) = false ∧ Instr.wf (.admitWaybill 0 0 short) = false ∧ Instr.wf (.start 0 0 short) = false ∧
    Instr.wf (.stop 0 0 short) = false ∧ Instr.wf (.valueEdit 0 0 short none) = false ∧ Instr.wf (.swapRollback 0 0 short) = false ∧
    Instr.wf (.variableRead 0 0 short) = false ∧ Instr.wf (.variableWriteAtRelease 0 0 short) = false ∧ Instr.wf (.spareEngineReturn 0 0 short) = false ∧
    Instr.wf (.rtcSet 0 0 short) = false ∧ Instr.wf (.alarmSetUp 0 0 short) = false ∧ Instr.wf (.nvRecordWrite 0 0 short none) = false ∧
    Instr.wf (.nvRecordRead 0 0 short) = false ∧ Instr.wf (.guestbookRead 0 0 short) = false ∧ Instr.wf (.pairSwitch 0 0 short) = false ∧
    Instr.wf (.resync 0 0 short) = false ∧ Instr.wf (.updateChunk 0 0 short none) = false ∧ Instr.wf (.activate 0 0 short) = false ∧
    Instr.wf (.attest 0 0 short) = false := by decide

theorem test_wf_flagsAndSteps : Instr.wf (.swapStage 0 0 (flagged 1)) = false ∧ Instr.wf (.swapDiscard 0 0 (flagged 0)) = false ∧
    Instr.wf (.swapCommit 0 0 (flagged 1)) = false ∧ Instr.wf (.swapRelease 0 0 (flagged 0)) = false ∧ Instr.wf (.summerTimeAdd 0 0 (flagged 1)) = false ∧
    Instr.wf (.summerTimeSubtract 0 0 (flagged 0)) = false ∧ Instr.wf (.calibrationLowPoint 0 0 (entry 0 [0, 2]) 0 true) = false ∧
    Instr.wf (.calibrationHighPoint 0 0 (entry 0 [0, 1]) 0 true) = false ∧ Instr.wf (.calibrationStore 0 0 (entry 0 [0, 4])) = false ∧
    Instr.wf (.calibrationDiscard 0 0 (entry 0 [0, 3])) = false ∧ Instr.wf (.factoryCalibration 0 0 (entry 0 [0, 1])) = false ∧
    Instr.wf (.swapStage 0 0 (flagged 0)) = true ∧ Instr.wf (.swapDiscard 0 0 (flagged 1)) = true := by decide

theorem test_wf_messages : Instr.wf (.hello 0 []) = false ∧ Instr.wf (.heartbeat 0 []) = false ∧ Instr.wf (.powerfail 0 []) = false ∧
    Instr.wf (.input 0 []) = false ∧ Instr.wf (.digest 0 []) = false ∧ Instr.wf (.edit 0 []) = false ∧ Instr.wf (.swap 0 []) = false ∧
    Instr.wf (.stopMessage 0 []) = false ∧ Instr.wf (.switch 0 []) = false ∧ Instr.wf (.outstep 0 []) = false ∧ Instr.wf (.join 0 []) = false ∧
    Instr.wf (.proof 0 []) = false ∧ Instr.wf (.disc 0 []) = false ∧ Instr.wf (.waybill 0 []) = false ∧ Instr.wf (.nop 0 0) = true := by decide

/-! ### One step each, against the spec's figures -/

/-- The state after a command. -/
def after (i : Instr) (s : State) : State := match exec i s with | .next s' => s' | _ => s

/-- 7 + 0xFFFF_FFFE carries out, is positive and does not overflow (R103). -/
theorem test_add_carry : ((after (.add 0 0 4 1 2) (withRoom { room0 with g := room0.g.set 2 0xFFFFFFFE })).rooms[0].get 4 = 5) ∧
    (after (.add 0 0 4 1 2) (withRoom { room0 with g := room0.g.set 2 0xFFFFFFFE })).rooms[0].flags = (false, false, true, false, false) := by
  decide +kernel

/-- The example of R137: panel 2 of 0x4321 is 3. -/
theorem test_bext_example : (after (.bext 0 0 7 1 8 3) (withRoom { room0 with g := room0.g.set 1 0x4321 })).rooms[0].get 7 = 3 := by decide +kernel

/-- The example of R141: run = (start or run) and not stop is the table 0x54. -/
theorem test_bool3_example : (after (.bool3 0 0 2 1 2 3 0x54) (withRoom { room0 with
    g := (room0.g.set 1 0b0011).set 2 0b0101 |>.set 3 0b0100 })).rooms[0].get 2 = 0b0011 := by decide +kernel

/-- DIVU by zero (R124): accepted at cycle 6 of lane L6, delivered 144 cycles later. -/
theorem test_divu_zero : (after (.divu 0 0 1 0) run).rooms[0].divQ = [((run.fetchCycle 0 0) + 144, 0xFFFFFFFF, 7)] := by decide +kernel

/-- The example of R88: offset 0x10 of the retained window, and an offset beyond the private window. -/
theorem test_windows_example : let v : Room := { room0 with privBase := 0x12000, privLen := 0x800, retBase := 0x40000, retLen := 0x400 }
    v.Reaches 0x800010 0x40010 ∧ ¬ v.Reaches 0x900 0x12900 := by
  refine ⟨?_, ?_⟩ <;> (unfold Room.Reaches; decide)

/-- The example of R349: bytes of the completion with index 16 of a ring of 16. -/
theorem test_completion_example : completionBytes { ref := { ref0 with tag := 0x21 }, status := 0, result := toLe 6 1204100 } 1204101 16 16 =
    [0x21, 0, 0, 0, 0x84, 0x5F, 0x12, 0, 0, 0, 0, 0, 0x85, 0x5F, 0x12, 0] := by decide +kernel

/-- The example of R320: 164.5 µs and 270 µs, in cycles of 2.5 ns. -/
theorem test_frameTime_example :
    frameTime { port := 0, id := 0x181, ide := false, fdf := true, brs := true, dlc := 10, txoff := 0 } (nbtWord 1 127 32 32) (dbtWord 1 31 8 8 0) = 65800 ∧
    frameTime { port := 0, id := 0x201, ide := false, fdf := false, brs := false, dlc := 8, txoff := 16 } (nbtWord 1 127 32 32) (dbtWord 1 31 8 8 0) = 108000 := by
  decide +kernel

/-- The example of R424: 2031-01-01 is a Wednesday, 2031-03-30 a Sunday; an hour added at 02:00:00 gives 03:00:00. -/
theorem test_weekday_example : weekdayOf 31 1 1 = 2 ∧ weekdayOf 31 3 30 = 6 ∧
    ({ second := 0, minute := 0, hour := 2, day := 30, month := 3, year := 31, weekday := 6 } : Cal).shift false =
      some { second := 0, minute := 0, hour := 3, day := 30, month := 3, year := 31, weekday := 6 } := by decide +kernel

/-- The example of R446: the check byte of 41 844 is 0x8E. -/
theorem test_counterCheck_example : (after (.hoursIncrement 0) { run with nv := { run.nv with
    mem := Mem.write [] (hoursBase + 12) [0x73, 0xA3, 0, BitVec.ofNat 8 ((0x73 + 0xA3 + 0x5A) % 256) ^^^ 0xFF] } }).nv.queue.map NvJob.bytes = [[0x8E]] := by
  decide +kernel

/-- The words of the examples of R137, R141 and R142, and one word of each other format bit by bit: the decoder of the lanes reads from them
the instructions the spec names. -/
theorem test_decode_examples : decodeLane 0 0 0x30E60068 = some (.bext 0 0 7 6 8 3) ∧ decodeLane 0 0 0xC44110D4 = some (.bool3 0 0 2 1 2 3 0x54) ∧
    decodeLane 0 0 0xDCFFFFFD = some (.loop 0 0 7 0x1FFFFD) ∧ decodeLane 0 0 0 = some (.nop 0 0) := by decide +kernel

theorem test_decode_formats :
    decodeLane 0 0 0b000000_00001_00010_00011_00000000001 = some (.add 0 0 1 2 3) ∧
    decodeLane 0 0 0b000001_00000_00010_00011_00000100001 = some (.divu 0 0 2 3) ∧
    decodeLane 0 0 0b000101_00001_00010_1000000000000001 = some (.ori 0 0 1 2 0x8001) ∧
    decodeLane 0 0 0b000110_00001_00010_1000000000000001 = some (.xori 0 0 1 2 0x8001) ∧
    decodeLane 0 0 0b011101_00001_00010_1111111111111110 = some (.ilh 0 0 1 2 0xFFFE) ∧
    decodeLane 0 0 0b011111_00001_00010_1111111111111110 = some (.ilby 0 0 1 2 0xFFFE) ∧
    decodeLane 0 0 0b101001_00001_00010_0000000000000100 = some (.edgeF 0 0 1 2 4) ∧
    decodeLane 0 0 0b101011_00001_00010_0000000000010000 = some (.ton 0 0 1 2 16) ∧
    decodeLane 0 0 0b110101_00001_00010_0000000000010000 = some (.ctd 0 0 1 2 16) ∧
    decodeLane 0 0 0b110110_00001_111111111111111111111 = some (.b 0 0 .eq 0x1FFFFF) ∧
    decodeLane 0 0 0b111000_00001_00000_00000010_00000001 = some (.mfs 0 0 1 .frs) := by decide +kernel

/-- A reserved opcode, func, condition, sel and a field that must be zero (R109). -/
theorem test_decode_reserved : decodeLane 0 0 0x44000000 = none ∧ decodeLane 0 0 0x00000013 = none ∧ decodeLane 0 0 0xDA200000 = none ∧
    decodeLane 0 0 0xE0000501 = none ∧ decodeLane 0 0 0x00200000 = none := by decide +kernel

/-- The check value of CRC-32 of IEEE 802.3 on the digits 1 to 9. -/
theorem test_crc32 : crc32 [0x31, 0x32, 0x33, 0x34, 0x35, 0x36, 0x37, 0x38, 0x39] = 0xCBF43926 := by decide +kernel

/-- A base tick releases the waiting room, a NOP then issues in it, and the queue's rest stays (R184, log entry 5). -/
theorem test_queue : (match step { run with pending := [.nop 0 0, .baseTick 0] } with | .next s => s.pending | _ => []) = [.baseTick 0] ∧
    (after (.baseTick 0) (withRoom { room0 with st := .waiting })).rooms[0].st = .ready := by decide +kernel

end Sys2Proof.Tests
end

section
/-! PROOFS. Register access (R8 to R10, R333, R336, R367, R368): registers as fields, where a write goes, what it leaves alone and clears,
split reads and MSI-X vectors. -/

namespace Sys2Proof.Machine

/-! ### Registers as fields -/

/-- The fields of a register stand in rising order from a bit on and do not overlap. -/
@[simp] def Spaced : Nat → List (Nat × Nat × Nat) → Prop
  | _, [] => True
  | n, f :: r => n ≤ f.1 ∧ Spaced (f.1 + f.2.1) r

/-- The number that the fields of a register spell; `pack` is its low 32 bits. -/
def fieldSum (fs : List (Nat × Nat × Nat)) : Nat := fs.foldr (fun f acc => f.2.2 % 2 ^ f.2.1 * 2 ^ f.1 + acc) 0

theorem pack_eq_fieldSum (fs : List (Nat × Nat × Nat)) : pack fs = BitVec.ofNat 32 (fieldSum fs) := rfl

theorem fieldSum_cons (f : Nat × Nat × Nat) (r : List (Nat × Nat × Nat)) :
    fieldSum (f :: r) = f.2.2 % 2 ^ f.2.1 * 2 ^ f.1 + fieldSum r := rfl

theorem two_pow_dvd_fieldSum {fs : List (Nat × Nat × Nat)} : ∀ {n : Nat}, Spaced n fs → 2 ^ n ∣ fieldSum fs := by
  induction fs with
  | nil => intro n _; exact dvd_zero _
  | cons f r ih =>
    rintro n ⟨hn, hr⟩
    have hf : 2 ^ n ∣ f.2.2 % 2 ^ f.2.1 * 2 ^ f.1 := Dvd.dvd.mul_left (pow_dvd_pow 2 hn) _
    exact dvd_add hf ((pow_dvd_pow 2 (by omega)).trans (ih hr))

theorem testBit_fieldSum_cons {f : Nat × Nat × Nat} {r : List (Nat × Nat × Nat)} (h : Spaced (f.1 + f.2.1) r) (i : Nat) :
    (fieldSum (f :: r)).testBit i =
      ((decide (f.1 ≤ i) && decide (i - f.1 < f.2.1) && f.2.2.testBit (i - f.1)) || (fieldSum r).testBit i) := by
  obtain ⟨q, hq⟩ := two_pow_dvd_fieldSum h
  obtain ⟨lo, w, x⟩ := f
  have hx : x % 2 ^ w * 2 ^ lo < 2 ^ (lo + w) := by
    rw [Nat.add_comm, pow_add]
    exact Nat.mul_lt_mul_of_pos_right (Nat.mod_lt _ (Nat.two_pow_pos w)) (Nat.two_pow_pos lo)
  rw [fieldSum_cons, hq, Nat.add_comm, Nat.two_pow_add_eq_or_of_lt hx]
  simp only [Nat.testBit_or, Nat.testBit_two_pow_mul, Nat.testBit_mul_two_pow, Nat.testBit_mod_two_pow]
  rw [Bool.or_comm, Bool.and_assoc]

/-- A write that clears the bits of c turns the field f into f'. -/
def FieldCleared (c : Word) (f f' : Nat × Nat × Nat) : Prop :=
  f'.1 = f.1 ∧ f'.2.1 = f.2.1 ∧ ∀ j < f.2.1, f'.2.2.testBit j = (f.2.2.testBit j && !c.getLsbD (f.1 + j))

theorem fieldsCleared_spaced {c : Word} {fs fs' : List (Nat × Nat × Nat)} (h : List.Forall₂ (FieldCleared c) fs fs') :
    ∀ {n : Nat}, Spaced n fs → Spaced n fs' := by
  induction h with
  | nil => intro n _; trivial
  | cons hf _ ih =>
    obtain ⟨hlo, hw, -⟩ := hf
    rintro n ⟨hn, hr⟩
    exact ⟨hlo ▸ hn, hlo ▸ hw ▸ ih hr⟩

theorem testBit_fieldSum_cleared {c : Word} {fs fs' : List (Nat × Nat × Nat)} (h : List.Forall₂ (FieldCleared c) fs fs') (i : Nat) :
    ∀ {n : Nat}, Spaced n fs → (fieldSum fs').testBit i = ((fieldSum fs).testBit i && !c.getLsbD i) := by
  induction h with
  | nil => intro n _; simp [fieldSum]
  | @cons f f' r r' hf hr ih =>
    rintro n ⟨-, ord⟩
    have ord' := fieldsCleared_spaced hr ord
    obtain ⟨hlo, hw, hbits⟩ := hf
    rw [testBit_fieldSum_cons ord, testBit_fieldSum_cons (by rw [hlo, hw]; exact ord'), ih ord, hlo, hw, Bool.and_or_distrib_right]
    by_cases hi : f.1 ≤ i ∧ i - f.1 < f.2.1
    · obtain ⟨hle, hlt⟩ := hi
      rw [hbits _ hlt, Nat.add_sub_cancel' hle]
      simp only [Bool.and_assoc]
    · have : (decide (f.1 ≤ i) && decide (i - f.1 < f.2.1)) = false := by simpa using hi
      simp only [this, Bool.false_and]

/-- A register whose fields a write clears by c reads as before without the bits of c. -/
theorem pack_cleared {c : Word} {fs fs' : List (Nat × Nat × Nat)} (h : List.Forall₂ (FieldCleared c) fs fs') (ord : Spaced 0 fs) :
    pack fs' = pack fs &&& ~~~c := by
  refine BitVec.eq_of_getLsbD_eq fun i hi => ?_
  rw [pack_eq_fieldSum, pack_eq_fieldSum, BitVec.getLsbD_and, BitVec.getLsbD_not, BitVec.getLsbD_ofNat, BitVec.getLsbD_ofNat,
    testBit_fieldSum_cleared h i ord]
  simp [hi]

theorem getLsbD_and_ofNat (v : Word) (m i : Nat) (hi : i < 32) : (v &&& BitVec.ofNat 32 m).getLsbD i = (v.getLsbD i && m.testBit i) := by
  rw [BitVec.getLsbD_and, BitVec.getLsbD_ofNat, decide_eq_true hi, Bool.true_and]

/-- A field outside the written bits m keeps its value. -/
@[simp] theorem fieldCleared_kept {v : Word} {m lo w x : Nat} (h : m / 2 ^ lo % 2 ^ w = 0) :
    FieldCleared (v &&& BitVec.ofNat 32 m) (lo, w, x) (lo, w, x) := by
  refine ⟨rfl, rfl, fun j hj => ?_⟩
  have hm : m.testBit (lo + j) = false := by
    have := congrArg (fun n => n.testBit j) h
    simpa [Nat.testBit_mod_two_pow, Nat.testBit_div_two_pow, Nat.add_comm, show j < w from hj] using this
  simp [BitVec.getLsbD_ofNat, hm]

/-- A flag at bit b clears where 1 is written. -/
@[simp] theorem fieldCleared_flag {v : Word} {m b : Nat} {x : Bool} (hb : b < 32) (h : m.testBit b = true) :
    FieldCleared (v &&& BitVec.ofNat 32 m) (b, 1, b2n x) (b, 1, b2n (w1cB x v b)) := by
  refine ⟨rfl, rfl, fun j hj => ?_⟩
  obtain rfl : j = 0 := by simpa using hj
  simp only [Nat.add_zero, getLsbD_and_ofNat _ _ _ hb, h, Bool.and_true, w1cB]
  cases x <;> cases v.getLsbD b <;> rfl

/-- A 16-bit mask in the upper half clears where 1 is written. -/
theorem fieldCleared_upper {v : Word} {x y : Nat} (h : ∀ j < 16, y.testBit j = (x.testBit j && !v.getLsbD (16 + j))) :
    FieldCleared (v &&& BitVec.ofNat 32 0xFFFF0000) (16, 16, x) (16, 16, y) := by
  refine ⟨rfl, rfl, fun j (hj : j < 16) => ?_⟩
  have hm : Nat.testBit 0xFFFF0000 (16 + j) = true := by interval_cases j <;> rfl
  rw [getLsbD_and_ofNat _ _ _ (show 16 + j < 32 by omega), hm, Bool.and_true]
  exact h j hj

theorem getLsbD_w1c {w : Nat} (x : BitVec w) (v : Word) (lo j : Nat) (hj : j < w) :
    (w1c x v lo).getLsbD j = (x.getLsbD j && !v.getLsbD (lo + j)) := by
  simp [w1c, hj]

/-- A latch in the upper half of a register clears where 1 is written. -/
@[simp] theorem fieldCleared_latch {v : Word} (x : BitVec 16) :
    FieldCleared (v &&& BitVec.ofNat 32 0xFFFF0000) (16, 16, x.toNat) (16, 16, (w1c x v 16).toNat) :=
  fieldCleared_upper fun j hj => getLsbD_w1c x v 16 j hj

/-- A register that is one latch of w bits from bit 0 clears where 1 is written. -/
theorem setWidth_w1c {w : Nat} (x : BitVec w) (v : Word) :
    (w1c x v 0).setWidth 32 = x.setWidth 32 &&& ~~~(v &&& BitVec.ofNat 32 (2 ^ w - 1)) := by
  refine BitVec.eq_of_getLsbD_eq fun i hi => ?_
  rw [BitVec.getLsbD_and, BitVec.getLsbD_not, getLsbD_and_ofNat _ _ _ hi, Nat.testBit_two_pow_sub_one]
  by_cases hw : i < w
  · simp [w1c, hi, hw]
  · simp [hi, BitVec.getLsbD_of_ge _ i (not_lt.mp hw)]

/-! ### Where a write of all four bytes goes -/

/-- What a register write of val at instant t has an effect with: the bits that the module sets in the same cycle do not count (R9). -/
def State.effective (s : State) (t o : Nat) (val : Word) : Word := val &&& ~~~(BitVec.ofNat 32 ((s.at t).marked o))

@[simp] theorem State.at_steward (s : State) (t : Nat) : (s.at t).steward = s.steward := rfl

@[simp] theorem toFin?_val {n : Nat} (k : Fin n) : toFin? n k.val = some k := by simp [toFin?]

theorem registerOffset_toNat {o : Nat} (h4 : o % 4 = 0) (h : o < 0xF000) : (BitVec.ofNat 16 o).toNat / 4 * 4 = o := by
  rw [BitVec.toNat_ofNat]; omega

theorem exec_registerWrite (t : Nat) (off : BitVec 16) (val : Word) (be : BitVec 4) (s : State) :
    exec (.registerWrite t off val be) s = execRegisterWrite t off val be s := rfl

section
variable {s : State} (t : Nat) (val : Word) (hs : s.steward = true)
include hs

theorem registerWrite_low {o : Nat} (h4 : o % 4 = 0) (h : o < 0x2000) :
    exec (.registerWrite t (BitVec.ofNat 16 o) val 0xF) s = .next ((s.at t).writeLow o (s.effective t o val)) := by
  simp (disch := omega) [exec_registerWrite, execRegisterWrite, State.effective, registerOffset_toNat, -BitVec.toNat_ofNat, hs, if_pos, if_neg]

theorem registerWrite_can (k : PortId) {x o : Nat} (h4 : x % 4 = 0) (h : x < 0x400) (ho : o = 0x2000 + 0x400 * k.val + x) :
    exec (.registerWrite t (BitVec.ofNat 16 o) val 0xF) s =
      .next ((s.at t).updCan k (fun c => c.writeReg x (s.effective t o val))) := by
  have hk : (o - 0x2000) / 0x400 = k.val := by omega
  have hx : o % 0x400 = x := by omega
  simp (disch := omega) [exec_registerWrite, execRegisterWrite, State.effective, registerOffset_toNat, -BitVec.toNat_ofNat, hs, if_pos,
    if_neg, hk, hx]

theorem registerWrite_group (g : GrpId) {x o : Nat} (h4 : x % 4 = 0) (h : x < 0x100) (ho : o = 0x3000 + 0x100 * g.val + x) :
    exec (.registerWrite t (BitVec.ofNat 16 o) val 0xF) s =
      .next ((s.at t).updGrp g (fun p => p.writeReg x (s.effective t o val))) := by
  have hg : (o - 0x3000) / 0x100 = g.val := by omega
  have hx : o % 0x100 = x := by omega
  simp (disch := omega) [exec_registerWrite, execRegisterWrite, State.effective, registerOffset_toNat, -BitVec.toNat_ofNat, hs, if_pos,
    if_neg, hg, hx]

theorem registerWrite_spare :
    exec (.registerWrite t (BitVec.ofNat 16 0x3C00) val 0xF) s =
      .next { s.at t with spare := { s.spare with takeevt := w1cB s.spare.takeevt (s.effective t 0x3C00 val) 7 } } := by
  simp [exec_registerWrite, execRegisterWrite, State.effective, hs]

theorem registerWrite_pair {x o : Nat} (h4 : x % 4 = 0) (h : x < 0x1000) (ho : o = 0x4000 + x) :
    exec (.registerWrite t (BitVec.ofNat 16 o) val 0xF) s = .next ((s.at t).writePair x (s.effective t o val)) := by
  have hx : o - 0x4000 = x := by omega
  simp (disch := omega) [exec_registerWrite, execRegisterWrite, State.effective, registerOffset_toNat, -BitVec.toNat_ofNat, hs, if_pos, if_neg, hx]

theorem registerWrite_scan {x o : Nat} (h4 : x % 4 = 0) (h : x < 0x800) (ho : o = 0x5800 + x) :
    exec (.registerWrite t (BitVec.ofNat 16 o) val 0xF) s = .next ((s.at t).writeScan x (s.effective t o val)) := by
  have hx : o - 0x5800 = x := by omega
  simp (disch := omega) [exec_registerWrite, execRegisterWrite, State.effective, registerOffset_toNat, -BitVec.toNat_ofNat, hs, if_pos, if_neg, hx]

theorem registerWrite_fallback :
    exec (.registerWrite t (BitVec.ofNat 16 0x6000) val 0xF) s =
      .next { s.at t with sec := { s.sec with fallback := w1cB s.sec.fallback (s.effective t 0x6000 val) 2 } } := by
  simp [exec_registerWrite, execRegisterWrite, State.effective, hs]

theorem registerWrite_enroll (k : Fin 16) :
    exec (.registerWrite t (BitVec.ofNat 16 (0x6040 + 4 * k.val)) val 0xF) s =
      .next { s.at t with sec := { s.sec with
        enroll := s.sec.enroll.set k.val (s.effective t (0x6040 + 4 * k.val) val) k.isLt } } := by
  simp (disch := omega) [exec_registerWrite, execRegisterWrite, State.effective, registerOffset_toNat, -BitVec.toNat_ofNat, hs, if_pos, if_neg, vset]

end

/-! ### What a register write leaves alone -/

/-- Time, data memory, image, NV content, application, queue and rooms but their OOW bits are those of s. -/
structure RegisterFrame (s s' : State) : Prop where
  now : s'.now = s.now
  dmem : s'.dmem = s.dmem
  img : s'.img = s.img
  nvMem : s'.nv.mem = s.nv.mem
  nvQueue : s'.nv.queue = s.nv.queue
  app : s'.app = s.app
  pending : s'.pending = s.pending
  rooms : ∀ r : RoomId, { s'.rooms[r] with oow := s.rooms[r].oow } = s.rooms[r]

/-- A write that leaves the rooms alone altogether. -/
theorem RegisterFrame.of_rooms {s s' : State} (now : s'.now = s.now) (dmem : s'.dmem = s.dmem) (img : s'.img = s.img)
    (nvMem : s'.nv.mem = s.nv.mem) (nvQueue : s'.nv.queue = s.nv.queue) (app : s'.app = s.app) (pending : s'.pending = s.pending)
    (rooms : s'.rooms = s.rooms) : RegisterFrame s s' :=
  ⟨now, dmem, img, nvMem, nvQueue, app, pending, fun r => by rw [rooms]⟩

theorem RegisterFrame.refl (s : State) : RegisterFrame s s := .of_rooms rfl rfl rfl rfl rfl rfl rfl rfl

theorem writeLow_frame (s : State) (o : Nat) (v : Word) : RegisterFrame s (s.writeLow o v) := by
  unfold State.writeLow
  dsimp only
  (repeat' split) <;> exact .of_rooms rfl rfl rfl rfl rfl rfl rfl rfl

theorem updCan_frame (s : State) (k : PortId) (f : Can → Can) : RegisterFrame s (s.updCan k f) :=
  .of_rooms rfl rfl rfl rfl rfl rfl rfl rfl

theorem updGrp_frame (s : State) (g : GrpId) (f : Group → Group) : RegisterFrame s (s.updGrp g f) :=
  .of_rooms rfl rfl rfl rfl rfl rfl rfl rfl

theorem writePair_frame (s : State) (o : Nat) (v : Word) : RegisterFrame s (s.writePair o v) := by
  unfold State.writePair
  (repeat' split) <;> exact .of_rooms rfl rfl rfl rfl rfl rfl rfl rfl

theorem updRoom_oow_frame (s : State) (r : RoomId) (f : Room → Bool) :
    RegisterFrame s (s.updRoom r (fun x => { x with oow := f x })) := by
  refine ⟨rfl, rfl, rfl, rfl, rfl, rfl, rfl, fun q => ?_⟩
  rw [State.updRoom_room]
  split <;> rfl

theorem writeScan_frame (s : State) (o : Nat) (v : Word) : RegisterFrame s (s.writeScan o v) := by
  unfold State.writeScan
  split
  · exact .of_rooms rfl rfl rfl rfl rfl rfl rfl rfl
  · split
    · split
      · exact .refl s
      · exact updRoom_oow_frame s _ _
    · exact .refl s

theorem unmask_frame (s : State) (k : Fin 16) : RegisterFrame s (s.unmask k) := by
  unfold State.unmask
  dsimp only
  split <;> exact .of_rooms rfl rfl rfl rfl rfl rfl rfl rfl

/-- The table's bytes, the mask and the message of a vector are all that a write to the MSI-X table touches. -/
theorem writeMsix_frame (s : State) (o : Nat) (v : Word) (be : BitVec 4) : RegisterFrame s (s.writeMsix o v be) := by
  rw [State.writeMsix]
  generalize 0xF000 = base
  split
  · exact .of_rooms rfl rfl rfl rfl rfl rfl rfl rfl
  · split
    · split
      · exact .of_rooms rfl rfl rfl rfl rfl rfl rfl rfl
      · obtain ⟨h1, h2, h3, h4, h5, h6, h7, h8⟩ := unmask_frame { s with host := _ } _
        exact ⟨h1, h2, h3, h4, h5, h6, h7, h8⟩
    · exact .of_rooms rfl rfl rfl rfl rfl rfl rfl rfl

/-- The outcome is a next state within the frame of s. -/
def OutFramed (s : State) (o : Host.Outcome State Fault Refusal) : Prop := ∃ s', o = .next s' ∧ RegisterFrame s s'

theorem OutFramed.next {s s' : State} (h : RegisterFrame s s') : OutFramed s (.next s') := ⟨s', rfl, h⟩

theorem OutFramed.refl (s : State) : OutFramed s (.next s) := .next (.refl s)

theorem OutFramed.ite {s : State} {c : Prop} [Decidable c] {a b : Host.Outcome State Fault Refusal} (ha : OutFramed s a)
    (hb : OutFramed s b) : OutFramed s (if c then a else b) := by
  split
  · exact ha
  · exact hb

/-- Whatever register a write names, its effect stays within the frame; the cases are those of the address map. -/
theorem registerWrite_framed (t : Nat) (off : BitVec 16) (val : Word) (be : BitVec 4) (s : State) :
    OutFramed (s.at t) (exec (.registerWrite t off val be) s) := by
  have stay := OutFramed.refl (s.at t)
  rw [exec_registerWrite, execRegisterWrite]
  refine .ite stay (.ite (.next (writeMsix_frame _ _ _ _)) (.ite stay (.ite (.next (writeLow_frame _ _ _)) (.ite ?can (.ite ?group
    (.ite ?spare (.ite stay (.ite (.next (writePair_frame _ _ _)) (.ite (.next (writeScan_frame _ _ _)) (.ite ?fallback
      (.ite ?enroll stay)))))))))))
  case can =>
    split
    · exact stay
    · exact .next (updCan_frame _ _ _)
  case group =>
    split
    · exact stay
    · exact .next (updGrp_frame _ _ _)
  all_goals exact .next (.of_rooms rfl rfl rfl rfl rfl rfl rfl rfl)

/-- R336: outside the MSI-X table a write without all four bytes does nothing. -/
theorem registerWrite_partial {s : State} (t : Nat) {off : BitVec 16} (val : Word) {be : BitVec 4} (hbe : be ≠ 0xF) (ho : off.toNat < 0xF000) :
    exec (.registerWrite t off val be) s = .next (s.at t) := by
  have hm : ¬(0xF000 ≤ off.toNat / 4 * 4 ∧ off.toNat / 4 * 4 < 0xF100) := by omega
  rw [exec_registerWrite, execRegisterWrite]
  simp only [if_neg hm, if_pos hbe, ite_self]

/-! ### W1C registers -/

/-- Writing val to the register at o clears its bits m where val has a 1 and the module does not set them in the same cycle. -/
def Clears (s : State) (t : Nat) (val : Word) (o m : Nat) : Prop :=
  ∃ s', exec (.registerWrite t (BitVec.ofNat 16 o) val 0xF) s = .next s' ∧
    barWord s' o = barWord (s.at t) o &&& ~~~(s.effective t o val &&& BitVec.ofNat 32 m)

theorem clears_of_fields {s s' : State} {t : Nat} {val : Word} {o m : Nat} {fs fs' : List (Nat × Nat × Nat)}
    (run : exec (.registerWrite t (BitVec.ofNat 16 o) val 0xF) s = .next s') (before : barWord (s.at t) o = pack fs)
    (after : barWord s' o = pack fs') (fields : List.Forall₂ (FieldCleared (s.effective t o val &&& BitVec.ofNat 32 m)) fs fs')
    (ord : Spaced 0 fs) : Clears s t val o m :=
  ⟨s', run, by rw [before, after, pack_cleared fields ord]⟩

/-! Entries of the vectors of groups, ports and rooms by number. -/

theorem vget_val {α : Type} {n : Nat} (v : Vector α n) (i : Fin n) (d : α) : vget v i.val d = v[i] := by
  simp [vget]

@[simp] theorem vget_upd_self {α : Type} {n : Nat} (v : Vector α n) (i : Fin n) (f : α → α) (d : α) :
    vget (upd v i f) i.val d = f (vget v i.val d) := by
  rw [vget_val, vget_val, getElem_upd_self]

@[simp] theorem grpMask_updGrp (s : State) (g : GrpId) (f : Group → Group) : grpMask (s.updGrp g f) = grpMask s := rfl
@[simp] theorem State.updGrp_an (s : State) (g : GrpId) (f : Group → Group) : (s.updGrp g f).an = s.an := rfl

theorem barWord_group (s : State) (g : GrpId) {x o : Nat} (h4 : x % 4 = 0) (h : x < 0x100) (ho : o = 0x3000 + 0x100 * g.val + x) :
    barWord s o = regGrp s g.val x := by
  have hw : o / 4 * 4 = o := by omega
  have hg : (o - 0x3000) / 0x100 = g.val := by omega
  have hx : o % 0x100 = x := by omega
  simp (disch := omega) only [barWord, hw, if_neg, if_pos, hg, hx]

theorem barWord_can (s : State) (k : PortId) {x o : Nat} (h4 : x % 4 = 0) (h : x < 0x400) (ho : o = 0x2000 + 0x400 * k.val + x) :
    barWord s o = regCan s k.val x := by
  have hw : o / 4 * 4 = o := by omega
  have hk : (o - 0x2000) / 0x400 = k.val := by omega
  have hx : o % 0x400 = x := by omega
  simp (disch := omega) only [barWord, hw, if_neg, if_pos, hk, hx]

theorem barWord_pair (s : State) {x o : Nat} (h4 : x % 4 = 0) (h : x < 0x1000) (ho : o = 0x4000 + x) : barWord s o = regPair s x := by
  have hw : o / 4 * 4 = o := by omega
  have hx : o - 0x4000 = x := by omega
  simp (disch := omega) only [barWord, hw, if_neg, if_pos, hx]

theorem barWord_scan (s : State) {x o : Nat} (h4 : x % 4 = 0) (h : x < 0x800) (ho : o = 0x5800 + x) : barWord s o = regScan s x := by
  have hw : o / 4 * 4 = o := by omega
  have hx : o - 0x5800 = x := by omega
  simp (disch := omega) only [barWord, hw, if_neg, if_pos, hx]

section
variable {s : State} (t : Nat) (val : Word) (hs : s.steward = true)
include hs

theorem clears_clkStat : Clears s t val 0x400 0x204 := by
  refine clears_of_fields (registerWrite_low t val hs rfl (by decide)) rfl rfl ?_ (by simp)
  simp (disch := decide) [State.writeLow]

theorem clears_hostStat : Clears s t val 0x804 0x3C := by
  refine clears_of_fields (registerWrite_low t val hs rfl (by decide)) rfl rfl ?_ (by simp)
  simp (disch := decide) [State.writeLow]

theorem clears_npStat : Clears s t val 0x100C 8 := by
  refine clears_of_fields (registerWrite_low t val hs rfl (by decide)) rfl rfl ?_ (by simp)
  simp (disch := decide) [State.writeLow]

theorem clears_rtcStat : Clears s t val 0x1400 0x318 := by
  refine clears_of_fields (registerWrite_low t val hs rfl (by decide)) rfl rfl ?_ (by simp)
  rw [show ((s.at t).writeLow 0x1400 (s.effective t 0x1400 val)).bkSource = (s.at t).bkSource from rfl]
  simp (disch := decide) [State.writeLow]

theorem clears_nvStat : Clears s t val 0x1800 0x2C := by
  refine clears_of_fields (registerWrite_low t val hs rfl (by decide)) rfl rfl ?_ (by simp)
  simp (disch := decide) [State.writeLow]

theorem clears_spare : Clears s t val 0x3C00 0x80 := by
  refine clears_of_fields (registerWrite_spare t val hs) rfl rfl ?_ (by simp)
  simp (disch := decide)

theorem clears_pairEvents : Clears s t val 0x4008 0x3FF :=
  ⟨_, registerWrite_pair t val hs (x := 8) rfl (by decide) rfl, setWidth_w1c s.pair.evt _⟩

theorem clears_scanStat : Clears s t val 0x5800 0xE := by
  refine clears_of_fields (registerWrite_scan t val hs (x := 0) rfl (by decide) rfl) rfl rfl ?_ (by simp)
  simp (disch := decide) [State.writeScan]

theorem clears_secStat : Clears s t val 0x6000 4 := by
  refine clears_of_fields (registerWrite_fallback t val hs) rfl rfl ?_ (by simp)
  exact .cons (fieldCleared_kept rfl) (.cons (fieldCleared_kept rfl) (.cons (fieldCleared_flag (by decide) rfl) .nil))

theorem clears_w1cRegisters : ∀ x ∈ w1cRegisters, Clears s t val x.1 x.2 := by
  simp only [w1cRegisters, List.forall_mem_cons, List.not_mem_nil, false_imp_iff, implies_true, and_true]
  exact ⟨clears_clkStat t val hs, clears_hostStat t val hs, clears_npStat t val hs, clears_rtcStat t val hs, clears_nvStat t val hs,
    clears_spare t val hs, clears_pairEvents t val hs, clears_scanStat t val hs, clears_secStat t val hs⟩

/-! The blocks of the groups and ports. -/

theorem clears_groupFields (g : GrpId) {x m : Nat} (h4 : x % 4 = 0) (h : x < 0x100) {fs fs' : List (Nat × Nat × Nat)}
    (before : regGrp (s.at t) g.val x = pack fs)
    (after : regGrp ((s.at t).updGrp g (fun p => p.writeReg x (s.effective t (0x3000 + 0x100 * g.val + x) val))) g.val x = pack fs')
    (fields : List.Forall₂ (FieldCleared (s.effective t (0x3000 + 0x100 * g.val + x) val &&& BitVec.ofNat 32 m)) fs fs')
    (ord : Spaced 0 fs) : Clears s t val (0x3000 + 0x100 * g.val + x) m :=
  clears_of_fields (registerWrite_group t val hs g h4 h rfl) ((barWord_group _ g h4 h rfl).trans before)
    ((barWord_group _ g h4 h rfl).trans after) fields ord

theorem clears_w1cOfGroup (g : GrpId) : ∀ x ∈ w1cOfGroup, Clears s t val (0x3000 + 0x100 * g.val + x.1) x.2 := by
  have demag : Clears s t val (0x3000 + 0x100 * g.val + 0x24) 0xFFFF := by
    refine ⟨_, registerWrite_group t val hs g rfl (by decide) rfl, ?_⟩
    rw [barWord_group _ g rfl (by decide) rfl, barWord_group _ g rfl (by decide) rfl]
    simpa [regGrp, Group.writeReg] using setWidth_w1c (vget s.groups g.val Group.init).demag _
  simp only [w1cOfGroup, List.forall_mem_cons, List.not_mem_nil, false_imp_iff, implies_true, and_true]
  refine ⟨?_, ?_, ?_, ?_, ?_, demag, ?_, ?_, ?_⟩ <;> refine clears_groupFields t val hs g rfl (by decide) rfl rfl ?_ (by simp)
  all_goals simp (disch := decide) [Group.writeReg]

end

/-! ### Masks of channel flags, blocks of pair, ports and rooms -/

theorem testBit_maskOf (p : Nat → Bool) (n j : Nat) : (maskOf p n).testBit j = (decide (j < n) && p j) := by
  induction n generalizing j with
  | zero => simp [maskOf]
  | succ n ih =>
    have lt : maskOf p n < 2 ^ n := Nat.lt_pow_two_of_testBit _ fun i hi => by rw [ih]; simp [hi]
    rw [maskOf]
    split
    case isTrue hp =>
      have add_eq_or := Nat.two_pow_add_eq_or_of_lt lt 1
      rw [Nat.mul_one] at add_eq_or
      rw [Nat.add_comm, add_eq_or, Nat.testBit_or, ih, Nat.testBit_two_pow]
      rcases lt_trichotomy j n with h | rfl | h
      · simp [h, h.ne', Nat.lt_succ_of_lt h]
      · simp [hp]
      · simp [h.ne, not_lt.mpr h.le, show ¬j < n + 1 by omega]
    case isFalse hp =>
      rw [Nat.add_zero, ih]
      rcases lt_trichotomy j n with h | rfl | h
      · simp [h, Nat.lt_succ_of_lt h]
      · simpa using hp
      · simp [not_lt.mpr h.le, show ¬j < n + 1 by omega]

theorem testBit_grpMask (s : State) (g : Nat) (p : Chan → Bool) {j : Nat} (hj : j < 16) :
    (grpMask s g p).testBit j = p (chanAt s g j) := by
  simp [grpMask, testBit_maskOf, hj]

theorem chanAt_mapGroupChans (s : State) (g : GrpId) (f : Nat → Chan → Chan) {i : Nat} (hi : i < 16) :
    chanAt (s.mapGroupChans g.val f) g.val i = f i (chanAt s g.val i) := by
  have hn : 16 * g.val + i < 192 := by omega
  have hg : (16 * g.val + i) / 16 = g.val := by omega
  have hm : (16 * g.val + i) % 16 = i := by omega
  rw [chanAt, chanAt, vget_val _ ⟨_, hn⟩, vget_val _ ⟨_, hn⟩]
  simp [State.mapGroupChans, hg, hm]

/-- A mask of channel flags that the write does not touch. -/
theorem grpMask_mapGroupChans_kept (s : State) (g : GrpId) {f : Nat → Chan → Chan} {p : Chan → Bool} (h : ∀ i c, p (f i c) = p c) :
    grpMask (s.mapGroupChans g.val f) g.val p = grpMask s g.val p := by
  refine Nat.eq_of_testBit_eq fun j => ?_
  by_cases hj : j < 16
  · rw [testBit_grpMask _ _ _ hj, testBit_grpMask _ _ _ hj, chanAt_mapGroupChans _ _ _ hj, h]
  · simp [grpMask, testBit_maskOf, hj]

/-- A register with 16 channel flags and, above them, their 16 latches, which clear where 1 is written. -/
theorem pack_latches_cleared (s : State) (g : GrpId) (v : Word) {f : Nat → Chan → Chan} {flag latch : Chan → Bool}
    (hflag : ∀ i c, flag (f i c) = flag c) (hlatch : ∀ i c, latch (f i c) = w1cB (latch c) v (16 + i)) :
    pack [(0, 16, grpMask (s.mapGroupChans g.val f) g.val flag), (16, 16, grpMask (s.mapGroupChans g.val f) g.val latch)] =
      pack [(0, 16, grpMask s g.val flag), (16, 16, grpMask s g.val latch)] &&& ~~~(v &&& BitVec.ofNat 32 0xFFFF0000) := by
  rw [grpMask_mapGroupChans_kept s g hflag]
  refine pack_cleared (.cons (fieldCleared_kept rfl) (.cons (fieldCleared_upper fun j hj => ?_) .nil)) (by simp)
  rw [testBit_grpMask _ _ _ hj, testBit_grpMask _ _ _ hj, chanAt_mapGroupChans _ _ _ hj, hlatch, w1cB]

/-- Word j of a map of 256 bits clears where 1 is written to it. -/
theorem wdrmapWord_cleared (x : BitVec 256) (v : Word) (j : Fin 8) :
    ((x &&& ~~~(v.setWidth 256 <<< (32 * j.val))) >>> (32 * j.val)).setWidth 32 =
      (x >>> (32 * j.val)).setWidth 32 &&& ~~~(v &&& BitVec.ofNat 32 0xFFFFFFFF) := by
  refine BitVec.eq_of_getLsbD_eq fun i hi => ?_
  have h : 32 * j.val + i < 256 := by omega
  rw [show v &&& BitVec.ofNat 32 0xFFFFFFFF = v from BitVec.and_allOnes]
  simp [hi, h]

theorem writeScan_room (s : State) (r : RoomId) (v : Word) :
    s.writeScan (0x200 + 12 * r.val) v = s.updRoom r (fun x => { x with oow := w1cB x.oow v 12 }) := by
  have hr : (0x200 + 12 * r.val - 0x200) / 12 = r.val := by omega
  have hin : 0x200 ≤ 0x200 + 12 * r.val ∧ 0x200 + 12 * r.val < 0x200 + 1200 ∧ (0x200 + 12 * r.val - 0x200) % 12 = 0 := by omega
  rw [State.writeScan, if_neg (by omega), if_pos hin, hr, toFin?_val]

theorem regScan_room (s : State) (r : RoomId) :
    regScan s (0x200 + 12 * r.val) = pack [(0, 2, roomStCode (s.rooms[r].stAt s.now)), (2, 3, s.rooms[r].lane.val),
      (5, 7, s.rooms[r].prio.toNat), (12, 1, b2n s.rooms[r].oow)] := by
  have hr : (0x200 + 12 * r.val - 0x200) / 12 = r.val := by omega
  have hm : (0x200 + 12 * r.val - 0x200) % 12 = 0 := by omega
  simp (disch := omega) only [regScan, if_neg, if_pos, hr, hm, vget_val, ↓reduceIte]

section
variable {s : State} (t : Nat) (val : Word) (hs : s.steward = true)
include hs

theorem clears_discLatch (g : GrpId) : Clears s t val (0x4080 + 4 * g.val) 0xFFFF0000 := by
  have ho : 0x4080 + 4 * g.val = 0x4000 + (0x80 + 4 * g.val) := by omega
  have hg : (0x80 + 4 * g.val - 0x80) / 4 = g.val := by omega
  refine ⟨_, registerWrite_pair t val hs (by omega) (by omega) ho, ?_⟩
  rw [barWord_pair _ (by omega) (by omega) ho, barWord_pair _ (by omega) (by omega) ho]
  simp (disch := omega) only [regPair, State.writePair, if_neg, if_pos, hg]
  exact pack_latches_cleared _ g _ (fun _ _ => rfl) (fun _ _ => rfl)

theorem clears_proofFailLatch (g : GrpId) : Clears s t val (0x4100 + 4 * g.val) 0xFFFF0000 := by
  have ho : 0x4100 + 4 * g.val = 0x4000 + (0x100 + 4 * g.val) := by omega
  have hg : (0x100 + 4 * g.val - 0x100) / 4 = g.val := by omega
  refine ⟨_, registerWrite_pair t val hs (by omega) (by omega) ho, ?_⟩
  rw [barWord_pair _ (by omega) (by omega) ho, barWord_pair _ (by omega) (by omega) ho]
  simp (disch := omega) only [regPair, State.writePair, if_neg, if_pos, hg]
  exact pack_latches_cleared _ g _ (fun _ _ => rfl) (fun _ _ => rfl)

theorem clears_canEvents (k : PortId) : Clears s t val (0x2004 + 0x400 * k.val) 0x3FF := by
  have ho : 0x2004 + 0x400 * k.val = 0x2000 + 0x400 * k.val + 4 := by omega
  refine ⟨_, registerWrite_can t val hs k rfl (by decide) ho, ?_⟩
  rw [barWord_can _ k rfl (by decide) ho, barWord_can _ k rfl (by decide) ho]
  simpa [regCan, Can.writeReg] using setWidth_w1c (vget s.cans k.val Can.init).evt _

theorem clears_wdrmap (k : PortId) (j : Fin 8) : Clears s t val (0x2080 + 0x400 * k.val + 4 * j.val) 0xFFFFFFFF := by
  have ho : 0x2080 + 0x400 * k.val + 4 * j.val = 0x2000 + 0x400 * k.val + (0x80 + 4 * j.val) := by omega
  have hj : 8 * (0x80 + 4 * j.val - 0x80) = 32 * j.val := by omega
  refine ⟨_, registerWrite_can t val hs k (by omega) (by omega) ho, ?_⟩
  rw [barWord_can _ k (by omega) (by omega) ho, barWord_can _ k (by omega) (by omega) ho]
  simp (disch := omega) only [regCan, Can.writeReg, State.updCan_cans, State.at_cans, vget_upd_self, if_neg, if_pos, hj]
  exact wdrmapWord_cleared _ _ j

theorem clears_roomOow (r : RoomId) : Clears s t val (0x5A00 + 12 * r.val) 0x1000 := by
  have ho : 0x5A00 + 12 * r.val = 0x5800 + (0x200 + 12 * r.val) := by omega
  have run := registerWrite_scan t val hs (by omega) (by omega) ho
  rw [writeScan_room] at run
  have word (s : State) := (barWord_scan s (by omega) (by omega) ho).trans (regScan_room s r)
  refine clears_of_fields run (word _) (word _) ?_ (by simp)
  rw [State.updRoom_room, if_pos rfl]
  exact .cons (fieldCleared_kept rfl) (.cons (fieldCleared_kept rfl) (.cons (fieldCleared_kept rfl)
    (.cons (fieldCleared_flag (by decide) rfl) .nil)))

end

/-! ### RW fields -/

theorem writeLow_snap (s : State) (k : Fin 8) (v : Word) :
    s.writeLow (0x1C20 + 4 * k.val) v = { s with gb := { s.gb with snaps := s.gb.snaps.set k.val (v &&& 0xFFFD) k.isLt } } := by
  have hk : (0x1C20 + 4 * k.val - 0x1C20) / 4 = k.val := by omega
  simp (disch := omega) only [State.writeLow, if_neg, if_pos, hk, vset, dif_pos k.isLt]

theorem setWidth_ushiftRight_eq_extractLsb' (v : Word) : (v >>> 8).setWidth 8 = v.extractLsb' 8 8 := by
  ext i hi
  simp

theorem chans_writePair_exer (s : State) (g : GrpId) (v : Word) {i : Fin 16} {n : ChanId} (hn : n.val = 16 * g.val + i.val) :
    (s.writePair (0x180 + 4 * g.val) v).chans[n] = { s.chans[n] with exer := v.getLsbD i.val } := by
  have hg : (0x180 + 4 * g.val - 0x180) / 4 = g.val := by omega
  have hdiv : n.val / 16 = g.val := by omega
  have hmod : n.val % 16 = i.val := by omega
  simp (disch := omega) only [State.writePair, if_neg, if_pos, hg]
  simp [State.mapGroupChans, hdiv, hmod]

/-- A write to one port's block changes that port by `Can.writeReg` and no other port. -/
theorem updCan_cans_split (s : State) (k : PortId) (f : Can → Can) :
    (s.updCan k f).cans[k] = f s.cans[k] ∧ ∀ j : PortId, j ≠ k → (s.updCan k f).cans[j] = s.cans[j] :=
  ⟨getElem_upd_self _ _ _, fun _ hj => getElem_upd_other hj.symm⟩

/-! ### Split reads -/

theorem splitOffsets_high_aligned (pair : SplitPair) : (splitOffsets pair).2 / 4 * 4 = (splitOffsets pair).2 := by
  cases pair <;> rfl

/-- The high word of a pair is a register that no latch changes. -/
theorem barWord_high_latch (s : State) (pair : SplitPair) (l : List (SplitPair × Word)) :
    barWord { s with host := { s.host with latch := l } } (splitOffsets pair).2 = barWord s (splitOffsets pair).2 := by
  cases pair <;> rfl

theorem hostRead_high_latched {s : State} {pair : SplitPair} {w : Word} {rest : List (SplitPair × Word)}
    (h : s.host.latch = (pair, w) :: rest) : s.hostRead (splitOffsets pair).2 = w := by
  have found : s.host.latch.find? (fun x => (splitOffsets x.1).2 == (splitOffsets pair).2) = some (pair, w) := by simp [h]
  simp only [State.hostRead, splitOffsets_high_aligned, found]

theorem splitOffsets_high_plain (pair : SplitPair) : ¬0xF000 ≤ (splitOffsets pair).2 ∧ (splitOffsets pair).2 ≠ 0x1410 ∧
    (splitOffsets pair).2 ≠ 0x1414 ∧ (splitOffsets pair).2 ≠ 0x1418 := by
  cases pair <;> decide

/-- With nothing latched for it the high word reads its live value: no pair lies in the MSI-X table or the RTC group. -/
theorem hostRead_high_live {s : State} {pair : SplitPair}
    (h : s.host.latch.find? (fun x => (splitOffsets x.1).2 == (splitOffsets pair).2) = none) :
    s.hostRead (splitOffsets pair).2 = barWord s (splitOffsets pair).2 := by
  obtain ⟨table, sub, time, date⟩ := splitOffsets_high_plain pair
  simp only [State.hostRead, splitOffsets_high_aligned, h, if_neg table, if_neg sub, if_neg time, if_neg date]

/-- The latched half is returned once; the next read of the high word is live. -/
theorem hostRead_takeRead_high (s : State) (pair : SplitPair) :
    (s.takeRead (splitOffsets pair).2).2.hostRead (splitOffsets pair).2 = barWord s (splitOffsets pair).2 := by
  rw [hostRead_high_live, State.takeRead, barWord_high_latch]
  simp only [State.takeRead, splitOffsets_high_aligned, List.find?_filter]
  simp

theorem splitValueRead_latches (s : State) (t : Nat) (pair : SplitPair) (hs : s.steward = true) :
    exec (.splitValueRead t pair) s = .next { s.at t with host := { s.host with
      latch := (pair, barWord (s.at t) (splitOffsets pair).2) :: s.host.latch.filter (fun x => x.1 != pair) } } := by
  change execSplitValueRead t pair s = _
  simp [execSplitValueRead, hs]

/-! ### MSI-X vectors -/

/-- The vector's bit as the model writes it. -/
theorem natCast_oneShift (v : Fin 16) : ((1 <<< v.val : Nat) : BitVec 16) = BitVec.twoPow 16 v.val := rfl

theorem and_twoPow_bne_zero (x : BitVec 16) (v : Fin 16) : (x &&& BitVec.twoPow 16 v.val != 0) = x.getLsbD v.val := by
  have bit_ne : BitVec.twoPow 16 v.val ≠ 0#16 := fun h => by simpa using congrArg (·.getLsbD v.val) h
  rw [BitVec.and_twoPow]
  split
  case isTrue h => rw [h]; simpa using bit_ne
  case isFalse h => simpa using h

theorem getLsbD_and_not_twoPow (x : BitVec 16) (i k : Nat) :
    (x &&& ~~~BitVec.twoPow 16 i).getLsbD k = (x.getLsbD k && decide (k ≠ i)) := by
  by_cases hk : k < 16
  · simp [hk, eq_comm]
  · simp [BitVec.getLsbD_of_ge x k (not_lt.mp hk)]

/-- Unmasking clears the vector's mask bit; a message that waits is sent when requests may be made (R333, R367). -/
theorem unmask_eq (s : State) (v : Fin 16) :
    s.unmask v = if (s.host.msixPend.getLsbD v.val && s.host.busMaster) = true then
      { s with
        host := { s.host with
          msixMask := s.host.msixMask &&& ~~~BitVec.twoPow 16 v.val
          msixPend := s.host.msixPend &&& ~~~BitVec.twoPow 16 v.val }
        out := s.out ++ [.msix v] }
    else { s with host := { s.host with msixMask := s.host.msixMask &&& ~~~BitVec.twoPow 16 v.val } } := by
  simp only [State.unmask, natCast_oneShift, and_twoPow_bne_zero]
  rfl

theorem unmask_msixMask (s : State) (v : Fin 16) (k : Nat) :
    (s.unmask v).host.msixMask.getLsbD k = (s.host.msixMask.getLsbD k && decide (k ≠ v.val)) := by
  rw [← getLsbD_and_not_twoPow, unmask_eq]
  split <;> rfl

theorem unmask_lanesKept (s : State) (v : Fin 16) : LanesKept s (s.unmask v) := by
  rw [unmask_eq]
  split <;> exact ⟨rfl, rfl, rfl⟩

/-- The state in which the table's byte has been written and the vector is still masked. -/
theorem exec_msixUnmask (s : State) (t : Nat) (v : Fin 16) (hs : s.steward = true) : ∃ s₁ : State,
    exec (.msixUnmask t v) s = .next (s₁.unmask v) ∧ s₁.host.msixMask = s.host.msixMask ∧ s₁.host.msixPend = s.host.msixPend ∧
      s₁.host.busMaster = s.host.busMaster ∧ s₁.out = s.out ∧ LanesKept s s₁ := by
  change ∃ s₁ : State, execMsixUnmask t v s = _ ∧ _
  simp only [execMsixUnmask, State.at_steward, hs, if_true]
  exact ⟨_, rfl, rfl, rfl, rfl, rfl, rfl, rfl, rfl⟩

theorem LanesKept.trans {s s₁ s₂ : State} (h : LanesKept s s₁) (h' : LanesKept s₁ s₂) : LanesKept s s₂ := by
  obtain ⟨rooms, dmem, img⟩ := h
  obtain ⟨rooms', dmem', img'⟩ := h'
  exact ⟨rooms'.trans rooms, dmem'.trans dmem, img'.trans img⟩

theorem registerWrites : Stated.RegisterWrites := by
  intro s t off val hs
  refine ⟨fun be => ?frame, clears_w1cRegisters t val hs, clears_w1cOfGroup t val hs,
    fun g => ⟨clears_discLatch t val hs g, clears_proofFailLatch t val hs g⟩, clears_canEvents t val hs, clears_wdrmap t val hs,
    clears_roomOow t val hs, ⟨_, registerWrite_low t val hs (o := 0x808) rfl (by decide), rfl⟩,
    ⟨_, registerWrite_low t val hs (o := 0x80C) rfl (by decide), rfl⟩, ⟨_, registerWrite_low t val hs (o := 0x1C0C) rfl (by decide), rfl⟩,
    fun k => ⟨_, registerWrite_low t val hs (by omega) (by omega), writeLow_snap _ k _⟩,
    fun k => ⟨_, registerWrite_can t val hs k (x := 8) rfl (by decide) (by omega), updCan_cans_split _ k _⟩,
    fun k => ⟨_, registerWrite_can t val hs k (x := 0x20) rfl (by decide) (by omega), ?timeLimit⟩,
    fun g => ⟨_, registerWrite_pair t val hs (x := 0x180 + 4 * g.val) (by omega) (by omega) (by omega),
      fun i n hn => chans_writePair_exer _ g _ hn⟩,
    fun k => ⟨_, registerWrite_enroll t val hs k, rfl⟩⟩
  case frame =>
    obtain ⟨s', run, now, dmem, img, nvMem, nvQueue, app, pending, rooms⟩ := registerWrite_framed t off val be s
    refine ⟨s', run, now, dmem, img, nvMem, nvQueue, app, pending, rooms, fun hbe ho => ?_⟩
    rw [registerWrite_partial t val hbe ho] at run
    exact (Host.Outcome.next.inj run).symm
  case timeLimit =>
    rw [← setWidth_ushiftRight_eq_extractLsb']
    exact updCan_cans_split _ k _

theorem splitReadsAndVectors : Stated.SplitReadsAndVectors := by
  intro s t v hs
  obtain ⟨s₁, run, mask, pend, master, out, lanes⟩ := exec_msixUnmask s t v hs
  have unmasked : (s₁.unmask v).host.msixMask.getLsbD v.val = false := by
    rw [unmask_msixMask]; simp
  have kept : LanesKept s (s₁.unmask v) := lanes.trans (unmask_lanesKept s₁ v)
  refine ⟨fun pair => ⟨_, splitValueRead_latches s t pair hs, rfl, fun n => ⟨hostRead_high_latched rfl, hostRead_takeRead_high _ pair⟩⟩,
    fun hb => ⟨_, run, unmasked, ?pendCleared, fun k hk => by simp [unmask_msixMask, mask, hk], ?sent, kept⟩,
    fun hb => ⟨_, run, unmasked, ?pendKept, ?quiet, kept⟩⟩
  all_goals rw [unmask_eq, pend, master, hb]
  case pendCleared =>
    rw [Bool.and_true]
    split
    case isTrue => simp
    case isFalse h => simpa [pend] using h
  case sent =>
    rw [Bool.and_true, out]
    split <;> rfl
  case pendKept => simpa using pend
  case quiet => simpa using out

/-- Settles O27: a register write stays within its frame and clears W1C fields bit by bit; a latched half is returned once; a waiting
message goes out exactly when requests may be made. -/
theorem registerAccess : Obligations.RegisterAccess := ⟨registerWrites, splitReadsAndVectors⟩

end Sys2Proof.Machine
end

section
/-! PROOFS. What a change of control leaves alone: reports, the drive of the field, a role change (R382, R403) and the way out of lock step
(R387). -/

namespace Sys2Proof.Machine

/-! ### What only reports an event -/

/-- The state without what only reports an event: the host interface, the NV store, the guestbook, what has gone out and the marks of bits set. -/
def State.unreported (s : State) : State := { s with host := HostIf.init, nv := Nv.init, gb := Guest.init, out := [], marks := [] }

theorem foldl_keeps_key {α β : Type} (key : State → β) {f : State → α → State} (h : ∀ s a, key (f s a) = key s) (l : List α) (s : State) :
    key (l.foldl f s) = key s := by
  induction l generalizing s with
  | nil => rfl
  | cons a l ih => exact (ih (f s a)).trans (h s a)

@[simp] theorem raiseLater_unreported (s : State) (v : Fin 16) : (s.raiseLater v).unreported = s.unreported := rfl
@[simp] theorem writeRole_unreported (s : State) : s.writeRole.unreported = s.unreported := rfl

@[simp] theorem msix_unreported (s : State) (v : Fin 16) : (s.msix v).unreported = s.unreported := by
  unfold State.msix
  split <;> rfl

@[simp] theorem raiseNow_unreported (s : State) (v : Fin 16) : (s.raiseNow v).unreported = s.unreported := by
  unfold State.raiseNow
  split
  · split
    · rfl
    · exact msix_unreported s v
  · rfl

@[simp] theorem gbEvent_unreported (s : State) (typ src : Nat) (sev : BitVec 2) (ws : List Word) :
    (s.gbEvent typ src sev ws).unreported = s.unreported := by
  unfold State.gbEvent
  split
  · split <;> rfl
  · rfl

@[simp] theorem channelEvent_unreported (s : State) (typ src : Nat) (sev : BitVec 2) (offs : List Nat) :
    (s.channelEvent typ src sev offs).unreported = s.unreported := by
  unfold State.channelEvent
  split
  · simp
  · rfl

@[simp] theorem writeCompletion_unreported (s : State) (q : RingId) (c : Completion) : (s.writeCompletion q c).unreported = s.unreported := by
  unfold State.writeCompletion
  dsimp only
  split <;> rfl

@[simp] theorem complete_unreported (s : State) (ref : CmdRef) (st : BitVec 16) (res : List Byte) :
    (s.complete ref st res).unreported = s.unreported := by
  unfold State.complete
  dsimp only
  split
  · split
    · rw [writeCompletion_unreported]; rfl
    · split <;> rfl
  · rfl

@[simp] theorem completeOpt_unreported (s : State) (ref : Option CmdRef) (st : BitVec 16) (res : List Byte) :
    (s.completeOpt ref st res).unreported = s.unreported := by
  cases ref with
  | none => rfl
  | some r => exact complete_unreported s r st res

@[simp] theorem completeAll_unreported (s : State) (refs : List CmdRef) (st : BitVec 16) (res : List Byte) :
    (s.completeAll refs st res).unreported = s.unreported :=
  foldl_keeps_key State.unreported (fun s r => complete_unreported s r st res) refs s

@[simp] theorem ageRecords_unreported (s : State) (ns : List Nat) (sev : BitVec 2) : (s.ageRecords ns sev).unreported = s.unreported :=
  foldl_keeps_key State.unreported (fun s n => gbEvent_unreported s 0x65 n sev [pairAge s n]) ns s

/-- A guestbook event stands in the newest record (R457, R461). -/
theorem gbEvent_recorded (s : State) (typ src : Nat) (sev : BitVec 2) (ws : List Word) : (s.gbEvent typ src sev ws).recorded typ src sev := by
  unfold State.gbEvent
  by_cases rep : s.isRepeat typ src sev = true
  · rw [if_pos rep]
    unfold State.isRepeat at rep
    cases last : s.gb.last with
    | none => simp [last] at rep
    | some r =>
      simp only [last, Bool.and_eq_true, beq_iff_eq] at rep
      obtain ⟨⟨⟨⟨htyp, hsrc⟩, hsev⟩, -⟩, -⟩ := rep
      exact ⟨_, rfl, htyp, hsrc, hsev, rfl⟩
  · rw [if_neg rep]
    exact ⟨_, rfl, rfl, rfl, rfl, rfl⟩

theorem pair_of_unreported {s s' : State} (h : s'.unreported = s.unreported) : s'.pair = s.pair := (congrArg State.pair h :)
theorem groups_of_unreported {s s' : State} (h : s'.unreported = s.unreported) : s'.groups = s.groups := (congrArg State.groups h :)
theorem cans_of_unreported {s s' : State} (h : s'.unreported = s.unreported) : s'.cans = s.cans := (congrArg State.cans h :)

@[simp] theorem completeOpt_pair (s : State) (ref : Option CmdRef) (st : BitVec 16) (res : List Byte) :
    (s.completeOpt ref st res).pair = s.pair := pair_of_unreported (completeOpt_unreported s ref st res)

@[simp] theorem completeAll_pair (s : State) (refs : List CmdRef) (st : BitVec 16) (res : List Byte) :
    (s.completeAll refs st res).pair = s.pair := pair_of_unreported (completeAll_unreported s refs st res)

@[simp] theorem gbEvent_pair (s : State) (typ src : Nat) (sev : BitVec 2) (ws : List Word) : (s.gbEvent typ src sev ws).pair = s.pair :=
  pair_of_unreported (gbEvent_unreported s typ src sev ws)

/-- A bit set in PAIR_EVT and reported; one that was 1 leaves the register as it is (R404). -/
theorem pairEvent_unreported (s : State) (b : Nat) : (s.pairEvent b).unreported =
    ({ s with pair := { s.pair with evt := s.pair.evt ||| BitVec.twoPow 10 b } } : State).unreported := by
  change (if s.pair.evt.getLsbD b then s.mark 0x4008 (2 ^ b) else State.raiseNow _ 3).unreported = _
  split
  case isTrue h =>
    have same : s.pair.evt ||| BitVec.twoPow 10 b = s.pair.evt := by
      ext i hi
      by_cases hb : b = i
      · subst hb; simp_all
      · simp_all [BitVec.getElem_or, BitVec.getElem_twoPow]
    rw [same]; rfl
  case isFalse => exact raiseNow_unreported _ 3

@[simp] theorem pairEvent_pair (s : State) (b : Nat) : (s.pairEvent b).pair = { s.pair with evt := s.pair.evt ||| BitVec.twoPow 10 b } :=
  pair_of_unreported (pairEvent_unreported s b)

theorem pairEvent_role (s : State) (b : Nat) : (s.pairEvent b).pair.role = s.pair.role := by rw [pairEvent_pair]

theorem pairEvent_evt (s : State) {b : Nat} (hb : b < 10) : (s.pairEvent b).pair.evt.getLsbD b = true := by
  simp [hb]

theorem pairEvent_groups (s : State) (b : Nat) : (s.pairEvent b).groups = s.groups :=
  (groups_of_unreported (pairEvent_unreported s b) :)

theorem pairEvent_cans (s : State) (b : Nat) : (s.pairEvent b).cans = s.cans :=
  (cans_of_unreported (pairEvent_unreported s b) :)

/-! ### What drives the field -/

/-- What goes on through a change of control: rooms, data memory, image, application and supplies. -/
def State.going (s : State) : Vector Room 100 × Mem × Image × App × Power := (s.rooms, s.dmem, s.img, s.app, s.pwr)

/-- Of a group only its owner. -/
def Group.supervision (p : Group) : Group := { Group.init with relief := p.relief }

/-- Of a port only its bus cycle and the entries armed in it. -/
def Can.timetable (c : Can) : Can := { Can.init with cycleStart := c.cycleStart, armed := c.armed }

/-- The state without reports and field outputs: no channels, of the groups only their owners, of the ports only their bus cycles. -/
def State.undriven (s : State) : State :=
  { s.unreported with
    chans := Vector.replicate 192 Chan.init
    groups := s.groups.map Group.supervision
    cans := s.cans.map Can.timetable }

theorem undriven_of_unreported {s s' : State} (h : s'.unreported = s.unreported) : s'.undriven = s.undriven :=
  (congrArg State.undriven h :)

theorem pair_of_undriven {s s' : State} (h : s'.undriven = s.undriven) : s'.pair = s.pair := (congrArg State.pair h :)
theorem going_of_undriven {s s' : State} (h : s'.undriven = s.undriven) : s'.going = s.going := (congrArg State.going h :)

theorem app_of_going {s s' : State} (h : s'.going = s.going) : s'.app = s.app := congrArg (fun x => x.2.2.2.1) h

theorem lanesKept_of_going {s s' : State} (h : s'.going = s.going) : LanesKept s s' := by
  simp only [State.going, Prod.mk.injEq] at h
  obtain ⟨rooms, dmem, img, -⟩ := h
  exact ⟨rooms, dmem, img⟩

theorem relief_of_undriven {s s' : State} (h : s'.undriven = s.undriven) (g : GrpId) : s'.groups[g].relief = s.groups[g].relief := by
  simpa [State.undriven, Group.supervision] using congrArg (fun x : State => x.groups[g].relief) h

theorem timetable_of_undriven {s s' : State} (h : s'.undriven = s.undriven) (k : PortId) : s'.cans[k].timetable = s.cans[k].timetable := by
  simpa [State.undriven] using congrArg (fun x : State => x.cans[k]) h

theorem armed_of_timetable {c c' : Can} (h : c'.timetable = c.timetable) : c'.armed = c.armed := (congrArg Can.armed h :)
theorem cycleStart_of_timetable {c c' : Can} (h : c'.timetable = c.timetable) : c'.cycleStart = c.cycleStart := (congrArg Can.cycleStart h :)

theorem gbEvent_going (s : State) (typ src : Nat) (sev : BitVec 2) (ws : List Word) : (s.gbEvent typ src sev ws).going = s.going :=
  going_of_undriven (undriven_of_unreported (gbEvent_unreported s typ src sev ws))

theorem pairEvent_going (s : State) (b : Nat) : (s.pairEvent b).going = s.going :=
  (going_of_undriven (undriven_of_unreported (pairEvent_unreported s b)) :)

theorem map_upd_of_eq {α β : Type} {n : Nat} (key : α → β) (v : Vector α n) (i : Fin n) {f : α → α} (h : ∀ x, key (f x) = key x) :
    (upd v i f).map key = v.map key := by
  ext j hj
  by_cases e : i.val = j <;> simp [upd, e, h]

theorem updGrp_undriven (s : State) (g : GrpId) {f : Group → Group} (h : ∀ p, (f p).relief = p.relief) :
    (s.updGrp g f).undriven = s.undriven := by
  have same : (upd s.groups g f).map Group.supervision = s.groups.map Group.supervision :=
    map_upd_of_eq _ _ _ fun p => by simp only [Group.supervision, h]
  exact congrArg (fun gs => { s.undriven with groups := gs }) same

theorem updCan_undriven (s : State) (k : PortId) {f : Can → Can} (h : ∀ c, (f c).timetable = c.timetable) :
    (s.updCan k f).undriven = s.undriven :=
  congrArg (fun cs => { s.undriven with cans := cs }) (map_upd_of_eq _ _ _ h)

theorem latchRate_undriven (s : State) (n : ChanId) : (s.latchRate n).undriven = s.undriven := by
  unfold State.latchRate State.latchChan
  dsimp only
  split
  · rfl
  · exact (undriven_of_unreported (channelEvent_unreported ..)).trans (updGrp_undriven _ _ fun _ => rfl)

theorem driveChan_undriven (s : State) (n : ChanId) (commit : Bool) : (s.driveChan n commit).undriven = s.undriven := by
  unfold State.driveChan
  dsimp only
  split
  · rfl
  · split
    · split
      · exact latchRate_undriven _ n
      · rfl
    · split <;> rfl

theorem driveAll_undriven (s : State) : s.driveAll.undriven = s.undriven :=
  foldl_keeps_key State.undriven (fun s g => foldl_keeps_key State.undriven (fun s n => driveChan_undriven s n false) (chansOf g) s) _ s

theorem canRefreshAll_undriven (s : State) : s.canRefreshAll.undriven = s.undriven :=
  foldl_keeps_key State.undriven (fun s k => updCan_undriven s k (f := fun c => c.refresh s.isRelief s.pwr.quietIn) fun _ => rfl) (fins 4) s

/-! ### A role change -/

/-- A group has this owner from now on, when it is supplied (R288). -/
def State.superviseGroup (s : State) (rel : Bool) (g : GrpId) : State :=
  if s.groups[g].lplus then s.updGrp g (fun p => { p with relief := rel }) else s

/-- Every supplied group has this owner from now on (R288). -/
def State.supervise (s : State) (rel : Bool) : State := (fins 12).foldl (fun s g => s.superviseGroup rel g) s

theorem superviseGroup_self (s : State) (rel : Bool) {g : GrpId} (supplied : s.groups[g].lplus = true) :
    (s.superviseGroup rel g).groups[g] = { s.groups[g] with relief := rel } := by
  rw [State.superviseGroup, if_pos supplied, State.updGrp_group, if_pos rfl]

theorem superviseGroup_other (s : State) (rel : Bool) {a g : GrpId} (h : a ≠ g) : (s.superviseGroup rel a).groups[g] = s.groups[g] := by
  unfold State.superviseGroup
  split
  · exact getElem_upd_other h
  · rfl

theorem relief_foldl_superviseGroup (rel : Bool) (l : List GrpId) : ∀ {s : State} {g : GrpId}, s.groups[g].lplus = true →
    (g ∈ l ∨ s.groups[g].relief = rel) → (l.foldl (fun s g => s.superviseGroup rel g) s).groups[g].relief = rel := by
  induction l with
  | nil => exact fun _ h => h.resolve_left List.not_mem_nil
  | cons a l ih =>
    intro s g supplied h
    by_cases e : a = g
    · subst e
      exact ih (by rw [superviseGroup_self s rel supplied]; exact supplied) (.inr (by rw [superviseGroup_self s rel supplied]))
    · refine ih (by rw [superviseGroup_other s rel e]; exact supplied) ?_
      rw [superviseGroup_other s rel e]
      exact h.imp_left fun m => (List.mem_cons.mp m).resolve_left (Ne.symm e)

theorem supervise_relief (s : State) (rel : Bool) (g : GrpId) (supplied : s.groups[g].lplus = true) : (s.supervise rel).groups[g].relief = rel :=
  relief_foldl_superviseGroup rel (fins 12) supplied (.inl (List.mem_finRange g))

theorem superviseGroup_key {β : Type} (key : State → β) (h : ∀ s g f, key (State.updGrp s g f) = key s) (s : State) (rel : Bool) (g : GrpId) :
    key (s.superviseGroup rel g) = key s := by
  unfold State.superviseGroup
  split
  · exact h s g _
  · rfl

theorem supervise_key {β : Type} (key : State → β) (h : ∀ s g f, key (State.updGrp s g f) = key s) (s : State) (rel : Bool) :
    key (s.supervise rel) = key s :=
  foldl_keeps_key key (fun s g => superviseGroup_key key h s rel g) (fins 12) s

theorem applyRole_undriven (s : State) : s.applyRole.undriven = (s.supervise s.isRelief).undriven :=
  (canRefreshAll_undriven _).trans (driveAll_undriven _)

/-- A role change sets ROLE, REASON and the next epoch, reports itself and reaches the groups and ports. -/
theorem setRole_eq_applyRole (s : State) (role : BitVec 2) (reason : BitVec 3) (sev : BitVec 2) : ∃ s₁ : State,
    s.setRole role reason sev = s₁.applyRole ∧
      s₁.unreported = ({ s with pair := { s.pair with role := role, reason := reason, epoch := s.pair.epoch + 1 } } : State).unreported :=
  ⟨_, rfl, by rw [gbEvent_unreported, raiseNow_unreported, writeRole_unreported]⟩

theorem setRole_pair (s : State) (role : BitVec 2) (reason : BitVec 3) (sev : BitVec 2) :
    (s.setRole role reason sev).pair = { s.pair with role := role, reason := reason, epoch := s.pair.epoch + 1 } := by
  obtain ⟨s₁, eq, reported⟩ := setRole_eq_applyRole s role reason sev
  rw [eq, pair_of_undriven (applyRole_undriven s₁), supervise_key State.pair fun _ _ _ => rfl]
  exact pair_of_unreported reported

theorem setRole_going (s : State) (role : BitVec 2) (reason : BitVec 3) (sev : BitVec 2) : (s.setRole role reason sev).going = s.going := by
  obtain ⟨s₁, eq, reported⟩ := setRole_eq_applyRole s role reason sev
  rw [eq, going_of_undriven (applyRole_undriven s₁), supervise_key State.going fun _ _ _ => rfl]
  exact (going_of_undriven (undriven_of_unreported reported) :)

theorem setRole_relief (s : State) (role : BitVec 2) (reason : BitVec 3) (sev : BitVec 2) {g : GrpId} (supplied : s.groups[g].lplus = true) :
    (s.setRole role reason sev).groups[g].relief = (role == 2 || role == 3) := by
  obtain ⟨s₁, eq, reported⟩ := setRole_eq_applyRole s role reason sev
  have supplied₁ : s₁.groups[g].lplus = true := by rw [groups_of_unreported reported]; exact supplied
  rw [eq, relief_of_undriven (applyRole_undriven s₁), supervise_relief s₁ _ g supplied₁, State.isRelief, pair_of_unreported reported]

theorem setRole_timetable (s : State) (role : BitVec 2) (reason : BitVec 3) (sev : BitVec 2) (k : PortId) :
    (s.setRole role reason sev).cans[k].timetable = s.cans[k].timetable := by
  obtain ⟨s₁, eq, reported⟩ := setRole_eq_applyRole s role reason sev
  rw [eq, timetable_of_undriven (applyRole_undriven s₁), supervise_key State.cans fun _ _ _ => rfl]
  exact (timetable_of_undriven (undriven_of_unreported reported) k :)

/-! ### Leaving lock step -/

@[simp] theorem discardEdits_pair (s : State) : s.discardEdits.pair = s.pair :=
  foldl_keeps_key State.pair (fun s r => completeOpt_pair s r 0x0228 []) _ { s with edits := { s.edits with batches := [], reads := [] } }

@[simp] theorem abandonSwap_pair (s : State) (st : BitVec 16) : (s.abandonSwap st).pair = s.pair := by
  unfold State.abandonSwap
  simp

theorem dropCommands_pair (s : State) : s.dropCommands.pair = { s.pair with joinRef := none } := by
  unfold State.dropCommands
  dsimp only
  split <;> split <;> simp only [completeOpt_pair, completeAll_pair, abandonSwap_pair, discardEdits_pair, apply_ite State.pair, ite_self]

theorem dropPoints_pair (s : State) : s.dropPoints.pair = s.pair := by
  unfold State.dropPoints
  refine foldl_keeps_key State.pair (fun s p => ?_) s.nv.points s
  split <;> rfl

/-- Resynchronisation begins anew, running or awaited (R396). -/
def Pair.resyncing (p : Pair) (sync : Bool) : Pair :=
  { p with rsync := sync, attempts := 0, blockRoom := 127, progress := 0, passDone := false, streamed := 0, frame := none, marked := none }

theorem restartSync_pair (s : State) : ∃ sync, s.restartSync.pair = s.pair.resyncing sync := ⟨_, rfl⟩

/-- RELIEF OUT is a role change after the application has ended, its commands have been dropped and resynchronisation has begun anew (R382, R396). -/
theorem becomeOut_eq_setRole (s : State) (reason : BitVec 3) (sev : BitVec 2) : ∃ (s₁ : State) (sync : Bool),
    s.becomeOut reason sev = s₁.setRole 3 reason sev ∧ s₁.app.running = false ∧ s₁.pair = { s.pair with joinRef := none }.resyncing sync := by
  have dropped : s.dropCommands.stopRooms.dropPoints.npBoot.pair = { s.pair with joinRef := none } :=
    (dropPoints_pair _).trans (dropCommands_pair s)
  obtain ⟨sync, began⟩ := restartSync_pair { s.dropCommands.stopRooms.dropPoints.npBoot with
    app := { s.dropCommands.stopRooms.dropPoints.npBoot.app with running := false } }
  exact ⟨_, sync, rfl, rfl, began.trans (congrArg (Pair.resyncing · sync) dropped)⟩

theorem becomeOut_pair (s : State) (reason : BitVec 3) (sev : BitVec 2) : ∃ sync, (s.becomeOut reason sev).pair =
    { { s.pair with joinRef := none }.resyncing sync with role := 3, reason := reason, epoch := s.pair.epoch + 1 } := by
  obtain ⟨s₁, sync, eq, -, began⟩ := becomeOut_eq_setRole s reason sev
  refine ⟨sync, ?_⟩
  rw [eq, setRole_pair, began]
  rfl

theorem becomeOut_running (s : State) (reason : BitVec 3) (sev : BitVec 2) : (s.becomeOut reason sev).app.running = false := by
  obtain ⟨s₁, -, eq, ended, -⟩ := becomeOut_eq_setRole s reason sev
  rw [eq, app_of_going (setRole_going s₁ 3 reason sev), ended]

/-- What the last heartbeat told: the partner, its TB, when it came and how many are missing. -/
def Pair.hearing (p : Pair) : Partner × BitVec 64 × Nat × Nat × Bool := (p.partner, p.hbTb, p.lastHb, p.missing, p.hbSeen)

theorem pairEvent_hearing (s : State) (b : Nat) : (s.pairEvent b).pair.hearing = s.pair.hearing := by
  rw [pairEvent_pair]; rfl

@[simp] theorem becomeOut_hearing (s : State) (reason : BitVec 3) (sev : BitVec 2) :
    (s.becomeOut reason sev).pair.hearing = s.pair.hearing := by
  obtain ⟨_, h⟩ := becomeOut_pair s reason sev
  rw [h]; rfl

@[simp] theorem becomeOut_role (s : State) (reason : BitVec 3) (sev : BitVec 2) : (s.becomeOut reason sev).pair.role = 3 := by
  obtain ⟨_, h⟩ := becomeOut_pair s reason sev
  rw [h]

@[simp] theorem becomeOut_osreason (s : State) (reason : BitVec 3) (sev : BitVec 2) :
    (s.becomeOut reason sev).pair.osreason = s.pair.osreason := by
  obtain ⟨_, h⟩ := becomeOut_pair s reason sev
  rw [h]; rfl

theorem fallOut_of_role_ne {s : State} (h : s.pair.role ≠ 2) (why : BitVec 3) : s.fallOut why = s := if_neg h

/-- Falling out of step is becoming RELIEF OUT with an event and, but for reason 1, a record (R387). -/
theorem fallOut_becomeOut {s : State} (h : s.pair.role = 2) (why : BitVec 3) : ∃ s₁ : State, s₁.pair = { s.pair with osreason := why } ∧
    (s.fallOut why).unreported = ((s₁.becomeOut 0 sevNotice).pairEvent evOutstep).unreported := by
  refine ⟨{ s with pair := { s.pair with osreason := why } }, rfl, ?_⟩
  rw [State.fallOut, if_pos h]
  dsimp only
  split
  · rfl
  · exact gbEvent_unreported ..

theorem fallOut_role {s : State} (h : s.pair.role = 2) (why : BitVec 3) : (s.fallOut why).pair.role = 3 := by
  obtain ⟨s₁, -, out⟩ := fallOut_becomeOut h why
  simp [pair_of_unreported out]

theorem fallOut_osreason {s : State} (h : s.pair.role = 2) (why : BitVec 3) : (s.fallOut why).pair.osreason = why := by
  obtain ⟨s₁, blamed, out⟩ := fallOut_becomeOut h why
  simp [pair_of_unreported out, blamed]

theorem fallOut_running {s : State} (h : s.pair.role = 2) (why : BitVec 3) : (s.fallOut why).app.running = false := by
  obtain ⟨s₁, -, out⟩ := fallOut_becomeOut h why
  rw [app_of_going (going_of_undriven (undriven_of_unreported out)), app_of_going (pairEvent_going ..), becomeOut_running]

theorem fallOut_hearing (s : State) (why : BitVec 3) : (s.fallOut why).pair.hearing = s.pair.hearing := by
  by_cases h : s.pair.role = 2
  · obtain ⟨s₁, blamed, out⟩ := fallOut_becomeOut h why
    rw [pair_of_unreported out, pairEvent_hearing, becomeOut_hearing, blamed]
    rfl
  · rw [fallOut_of_role_ne h]

end Sys2Proof.Machine
end

section
/-! PROOFS. Heartbeats and takeover (R19, R20, R373, R374, R378, R390, R391). -/

namespace Sys2Proof.Machine

/-! ### A heartbeat in parts (R378, R382, R386) -/

/-- What every receiver of a heartbeat takes in; a primary whose partner is in step no longer silences it (R392). -/
def State.heard (s : State) (t : Nat) (bs : List Byte) : State :=
  let s := s.at t
  let s := { s with pair := { s.pair with
    partner := s.pair.partner.beat bs, lastHb := s.now, hbTb := BitVec.ofNat 64 (u64 bs 0), missing := 0, hbSeen := true } }
  if s.pair.role = 1 ∧ s.pair.partner.role = 2 then { s with pwr := { s.pwr with quietOut := false } } else s

/-- The primary has sent the heartbeat after its own base tick of the number that was marked here for want of an INPUT frame (R386). -/
def State.markPassed (s : State) (bs : List Byte) : Bool :=
  match s.pair.marked with
  | some n => s.pair.role == 2 && decide (tickCycles * n < u64 bs 0)
  | none => false

/-- A relief whose marked tick its primary has outlived falls out of step with reason 2 (R386, R387). -/
def State.judgeMark (s : State) (bs : List Byte) : State := if s.markPassed bs then s.fallOut 2 else s

/-- A relief in step that does not run its primary's application, as after a start command, leaves lock step. -/
def State.judgeRun (s : State) : State :=
  if s.pair.role = 2 ∧ s.app.running = false ∧ s.pair.partner.run = true then s.becomeOut 0 sevNotice else s

/-- A relief in step takes over from a primary that tells that it is silenced, at the next base tick (R382, R390). -/
def State.judgeQuiet (s : State) (bs : List Byte) : State :=
  if s.pair.role = 2 ∧ bit (u8 bs 15) 1 = true then { s with pair := { s.pair with due := some (s.cycle + 1, 4) } } else s

/-- What a heartbeat leaves a receiver with once it has measured its phase. -/
def State.judged (s : State) (bs : List Byte) : State := (s.judgeMark bs).judgeRun.judgeQuiet bs

theorem exec_heartbeat {s : State} (awake : s.awake = true) (link : s.pair.link = true) (t : Nat) (bs : List Byte) :
    exec (.heartbeat t bs) s =
      .next (State.judged (if (s.heard t bs).isRelief then (s.heard t bs).measurePhase bs else s.heard t bs) bs) := by
  change execHeartbeat t bs s = _
  unfold execHeartbeat
  exact if_pos ⟨awake, link⟩

theorem heard_pair (s : State) (t : Nat) (bs : List Byte) : (s.heard t bs).pair = { s.pair with
    partner := s.pair.partner.beat bs, lastHb := s.then t, hbTb := BitVec.ofNat 64 (u64 bs 0), missing := 0, hbSeen := true } := by
  unfold State.heard
  dsimp only
  split <;> rfl

/-- The state a relief hears: nothing but time and the partner's figures are new. -/
theorem heard_of_role_ne {s : State} (h : s.pair.role ≠ 1) (t : Nat) (bs : List Byte) : s.heard t bs = { s with
    now := s.then t
    pair := { s.pair with
      partner := s.pair.partner.beat bs, lastHb := s.then t, hbTb := BitVec.ofNat 64 (u64 bs 0), missing := 0, hbSeen := true } } :=
  if_neg fun c => h c.1

theorem judged_of_role_ne {s : State} (h : s.pair.role ≠ 2) (bs : List Byte) : s.judged bs = s := by
  have mark : s.judgeMark bs = s := by
    refine if_neg fun late => ?_
    unfold State.markPassed at late
    split at late
    · exact h (by simpa using (Bool.and_eq_true_iff.mp late).1)
    · exact Bool.false_ne_true late
  have run : s.judgeRun = s := if_neg fun c => h c.1
  have quiet : s.judgeQuiet bs = s := if_neg fun c => h c.1
  rw [State.judged, mark, run, quiet]

/-- In step with its primary, a relief keeps what its measurement left. -/
theorem judged_of_inStep {s : State} {bs : List Byte} (marked : s.pair.marked = none) (quiet : bit (u8 bs 15) 1 = false)
    (run : s.app.running = true ∨ s.pair.partner.run = false) : s.judged bs = s := by
  have mark : s.judgeMark bs = s := by simp [State.judgeMark, State.markPassed, marked]
  have run : s.judgeRun = s := if_neg fun ⟨_, stopped, runs⟩ => run.elim (by simp [stopped]) (by simp [runs])
  have quiet : s.judgeQuiet bs = s := if_neg fun ⟨_, q⟩ => by simp [quiet] at q
  rw [State.judged, mark, run, quiet]

theorem judgeMark_hearing (s : State) (bs : List Byte) : (s.judgeMark bs).pair.hearing = s.pair.hearing := by
  unfold State.judgeMark
  split
  · exact fallOut_hearing s 2
  · rfl

theorem judgeRun_hearing (s : State) : s.judgeRun.pair.hearing = s.pair.hearing := by
  unfold State.judgeRun
  split
  · exact becomeOut_hearing s 0 sevNotice
  · rfl

theorem judgeQuiet_hearing (s : State) (bs : List Byte) : (s.judgeQuiet bs).pair.hearing = s.pair.hearing := by
  unfold State.judgeQuiet
  split <;> rfl

theorem judged_hearing (s : State) (bs : List Byte) : (s.judged bs).pair.hearing = s.pair.hearing :=
  (judgeQuiet_hearing ..).trans ((judgeRun_hearing _).trans (judgeMark_hearing s bs))

/-- A relief that does not run the application of its partner is out of step after any heartbeat that shows one. -/
theorem judged_role_of_notRunning {s : State} (role : s.pair.role = 2) (stopped : s.app.running = false) (runs : s.pair.partner.run = true)
    (bs : List Byte) : (s.judged bs).pair.role = 3 := by
  unfold State.judged State.judgeMark
  split
  · have out : (s.fallOut 2).pair.role = 3 := fallOut_role role 2
    have still : (s.fallOut 2).pair.role ≠ 2 := by rw [out]; decide
    rw [State.judgeRun, if_neg fun c => still c.1, State.judgeQuiet, if_neg fun c => still c.1, out]
  · have out : s.judgeRun.pair.role = 3 := by
      rw [State.judgeRun, if_pos ⟨role, stopped, runs⟩]
      exact becomeOut_role s 0 sevNotice
    rw [State.judgeQuiet, if_neg fun c => by rw [out] at c; exact absurd c.1 (by decide), out]

/-! ### The phase (R373, R374) -/

/-- A relief that measures its phase takes a new trim (R374). -/
def State.retrimmed (s : State) : State :=
  { s.free.2 with pair := { s.pair with trim := BitVec.ofInt 16 ((s.free.1.toNat % 961 : Nat) - 480) } }

/-- Out of step, TB moves by the phase error and is locked (R373). -/
def State.aligned (s : State) (err : Int) : State :=
  { s.retrimmed.shiftTb (-err) with pair := { (s.retrimmed.shiftTb (-err)).pair with phErr := 0, locked := true } }

/-- In step, the phase error is kept and TB left alone (R374). -/
def State.phased (s : State) (err : Int) : State :=
  { s.retrimmed with pair := { s.retrimmed.pair with
    phErr := BitVec.ofInt 16 (clampI (-32768) 32767 err), locked := decide (-40 ≤ err) && decide (err ≤ 40) } }

theorem aligned_timebase (s : State) (err : Int) : (s.aligned err).pair.tbOff = s.pair.tbOff - err ∧ (s.aligned err).pair.locked = true ∧
    (s.aligned err).cycle = (s.aligned err).tb / tickCycles := ⟨rfl, rfl, rfl⟩

theorem aligned_role (s : State) (err : Int) : (s.aligned err).pair.role = s.pair.role := rfl
theorem aligned_lanesKept (s : State) (err : Int) : LanesKept s (s.aligned err) := ⟨rfl, rfl, rfl⟩

theorem phased_pair (s : State) (err : Int) : ∃ trim, (s.phased err).pair = { s.pair with
    trim := trim, phErr := BitVec.ofInt 16 (clampI (-32768) 32767 err), locked := decide (-40 ≤ err) && decide (err ≤ 40) } := ⟨_, rfl⟩

theorem phased_role (s : State) (err : Int) : (s.phased err).pair.role = s.pair.role := rfl
theorem phased_app (s : State) (err : Int) : (s.phased err).app = s.app := rfl
theorem phased_cycle (s : State) (err : Int) : (s.phased err).cycle = s.cycle := rfl
theorem phased_lanesKept (s : State) (err : Int) : LanesKept s (s.phased err) := ⟨rfl, rfl, rfl⟩

theorem measurePhase_none {s : State} {bs : List Byte} (e : s.phaseError bs = none) : s.measurePhase bs = s := by
  rw [State.measurePhase, e]

theorem measurePhase_outside {s : State} {bs : List Byte} {err : Int} (role : s.pair.role = 3) (e : s.phaseError bs = some err) :
    s.measurePhase bs = s.aligned err := by
  rw [State.measurePhase, e]
  exact if_pos (beq_iff_eq.mpr role)

theorem measurePhase_inStep {s : State} {bs : List Byte} {err : Int} (role : s.pair.role = 2) (e : s.phaseError bs = some err) :
    s.measurePhase bs = if err < -400 ∨ 400 < err then (s.phased err).fallOut 4 else s.phased err := by
  rw [State.measurePhase, e]
  exact if_neg (show ¬(s.pair.role == 3) = true by rw [role]; decide)

theorem measurePhase_hearing {s : State} (relief : s.isRelief = true) (bs : List Byte) : (s.measurePhase bs).pair.hearing = s.pair.hearing := by
  cases e : s.phaseError bs with
  | none => rw [measurePhase_none e]
  | some err =>
    rcases Bool.or_eq_true_iff.mp relief with role | role
    · rw [measurePhase_inStep (beq_iff_eq.mp role) e]
      split
      · exact (fallOut_hearing ..).trans rfl
      · rfl
    · rw [measurePhase_outside (beq_iff_eq.mp role) e]
      rfl

/-! ### What a heartbeat does -/

theorem exec_heartbeat_hearing {s : State} (awake : s.awake = true) (link : s.pair.link = true) (t : Nat) (bs : List Byte) : ∃ s',
    exec (.heartbeat t bs) s = .next s' ∧
      s'.pair.hearing = (s.pair.partner.beat bs, BitVec.ofNat 64 (u64 bs 0), s.then t, 0, true) := by
  refine ⟨_, exec_heartbeat awake link t bs, ?_⟩
  have heard : (s.heard t bs).pair.hearing = (s.pair.partner.beat bs, BitVec.ofNat 64 (u64 bs 0), s.then t, 0, true) := by rw [heard_pair]; rfl
  rw [judged_hearing]
  split
  case isTrue relief => rw [measurePhase_hearing relief, heard]
  case isFalse => exact heard

/-- A module that is no relief does no more than hear the heartbeat. -/
theorem exec_heartbeat_of_leads {s : State} (awake : s.awake = true) (link : s.pair.link = true) (leads : s.isRelief = false) (t : Nat)
    (bs : List Byte) : exec (.heartbeat t bs) s = .next (s.heard t bs) := by
  have role : (s.heard t bs).isRelief = false := by rw [State.isRelief, heard_pair]; exact leads
  have inStep : (s.heard t bs).pair.role ≠ 2 := fun h => by rw [State.isRelief, h] at role; exact absurd role (by decide)
  rw [exec_heartbeat awake link, role, if_neg Bool.false_ne_true, judged_of_role_ne inStep]

theorem exec_heartbeat_of_relief {s : State} (awake : s.awake = true) (link : s.pair.link = true) (relief : s.isRelief = true) (t : Nat)
    (bs : List Byte) : exec (.heartbeat t bs) s = .next (((s.heard t bs).measurePhase bs).judged bs) := by
  have role : (s.heard t bs).isRelief = true := by rw [State.isRelief, heard_pair]; exact relief
  rw [exec_heartbeat awake link, if_pos role]

theorem heard_quietOut {s : State} {t : Nat} {bs : List Byte} (role : s.pair.role = 1) (partner : u8 bs 14 % 4 = 2) :
    (s.heard t bs).pwr.quietOut = false := by
  have inStep : (s.pair.partner.beat bs).role = 2 := by
    change BitVec.ofNat 2 (u8 bs 14) = 2
    apply BitVec.eq_of_toNat_eq
    simpa using partner
  unfold State.heard
  exact (congrArg (fun s : State => s.pwr.quietOut) (if_pos ⟨role, inStep⟩)).trans rfl

theorem heard_kept (s : State) (t : Nat) (bs : List Byte) :
    (s.heard t bs).cycle = s.cycle ∧ (s.heard t bs).app = s.app ∧ LanesKept s (s.heard t bs) ∧ FieldKept s (s.heard t bs) := by
  unfold State.heard
  dsimp only
  split <;> exact ⟨rfl, rfl, ⟨rfl, rfl, rfl⟩, ⟨rfl, rfl, rfl, rfl⟩⟩

theorem heard_tbOff (s : State) (t : Nat) (bs : List Byte) : (s.heard t bs).pair.tbOff = s.pair.tbOff := by rw [heard_pair]
theorem heard_role (s : State) (t : Nat) (bs : List Byte) : (s.heard t bs).pair.role = s.pair.role := by rw [heard_pair]

theorem phaseError_heard {s : State} (role : s.pair.role ≠ 1) (t : Nat) (bs : List Byte) :
    (s.heard t bs).phaseError bs = ({ s with now := s.then t } : State).phaseError bs := by
  rw [heard_of_role_ne role]
  rfl

/-- A heartbeat whose phase a relief can measure. -/
structure Measures (s : State) (t : Nat) (bs : List Byte) (err : Int) : Prop where
  awake : s.awake = true
  link : s.pair.link = true
  phase : ({ s with now := s.then t } : State).phaseError bs = some err

/-- Out of step a relief aligns its TB and is not judged further. -/
theorem Measures.exec_outside {s : State} {t : Nat} {bs : List Byte} {err : Int} (h : Measures s t bs err) (role : s.pair.role = 3) :
    exec (.heartbeat t bs) s = .next ((s.heard t bs).aligned err) := by
  have relief : s.isRelief = true := by rw [State.isRelief, role]; rfl
  have phase : (s.heard t bs).phaseError bs = some err := (phaseError_heard (by rw [role]; decide) t bs).trans h.phase
  have outside : (s.heard t bs).pair.role = 3 := (heard_role s t bs).trans role
  rw [exec_heartbeat_of_relief h.awake h.link relief, measurePhase_outside outside phase,
    judged_of_role_ne (by rw [aligned_role, outside]; decide)]

theorem Measures.exec_inStep {s : State} {t : Nat} {bs : List Byte} {err : Int} (h : Measures s t bs err) (role : s.pair.role = 2) :
    exec (.heartbeat t bs) s = .next (State.judged
      (if err < -400 ∨ 400 < err then ((s.heard t bs).phased err).fallOut 4 else (s.heard t bs).phased err) bs) := by
  have relief : s.isRelief = true := by rw [State.isRelief, role]; rfl
  have phase : (s.heard t bs).phaseError bs = some err := (phaseError_heard (by rw [role]; decide) t bs).trans h.phase
  rw [exec_heartbeat_of_relief h.awake h.link relief, measurePhase_inStep ((heard_role s t bs).trans role) phase]

theorem phased_heard_role {s : State} (role : s.pair.role = 2) (t : Nat) (bs : List Byte) (err : Int) :
    ((s.heard t bs).phased err).pair.role = 2 := by
  rw [phased_role, heard_role, role]

theorem Measures.outside {s : State} {t : Nat} {bs : List Byte} {err : Int} (h : Measures s t bs err) (role : s.pair.role = 3) :
    ∃ s', exec (.heartbeat t bs) s = .next s' ∧ s'.pair.tbOff = s.pair.tbOff - err ∧ s'.pair.locked = true ∧
      s'.cycle = s'.tb / tickCycles ∧ s'.pair.role = 3 ∧ LanesKept s s' := by
  obtain ⟨off, locked, cycle⟩ := aligned_timebase (s.heard t bs) err
  obtain ⟨-, -, lanes, -⟩ := heard_kept s t bs
  refine ⟨_, h.exec_outside role, ?_, locked, cycle, ?_, lanes.trans (aligned_lanesKept ..)⟩
  · rw [off, heard_tbOff]
  · rw [aligned_role, heard_role, role]

/-- Beyond 1 µs of phase a relief in step falls out (R374, R387). -/
theorem Measures.beyond {s : State} {t : Nat} {bs : List Byte} {err : Int} (h : Measures s t bs err) (role : s.pair.role = 2)
    (far : err < -400 ∨ 400 < err) : ∃ s', exec (.heartbeat t bs) s = .next s' ∧ s'.pair.role = 3 ∧ s'.pair.osreason = 4 ∧
      s'.app.running = false := by
  have inStep := phased_heard_role role t bs err
  have out : (((s.heard t bs).phased err).fallOut 4).pair.role = 3 := fallOut_role inStep 4
  have run := h.exec_inStep role
  rw [if_pos far, judged_of_role_ne (by rw [out]; decide)] at run
  exact ⟨_, run, out, fallOut_osreason inStep 4, fallOut_running inStep 4⟩

/-- A relief that does not run the application which the heartbeat shows leaves lock step, whatever its phase. -/
theorem Measures.notRunning {s : State} {t : Nat} {bs : List Byte} {err : Int} (h : Measures s t bs err) (role : s.pair.role = 2)
    (stopped : s.app.running = false) (runs : bit (u8 bs 15) 2 = true) :
    ∃ s', exec (.heartbeat t bs) s = .next s' ∧ s'.pair.role = 3 := by
  have inStep := phased_heard_role role t bs err
  obtain ⟨-, app, -, -⟩ := heard_kept s t bs
  refine ⟨_, h.exec_inStep role, ?_⟩
  split
  · have out : (((s.heard t bs).phased err).fallOut 4).pair.role = 3 := fallOut_role inStep 4
    rw [judged_of_role_ne (by rw [out]; decide), out]
  · obtain ⟨_, pair⟩ := phased_pair (s.heard t bs) err
    refine judged_role_of_notRunning inStep (by rw [phased_app, app, stopped]) ?_ bs
    rw [pair, heard_pair]
    exact runs

/-- Within 1 µs of phase a relief stays in step (R374). -/
theorem Measures.within {s : State} {t : Nat} {bs : List Byte} {err : Int} (h : Measures s t bs err) (role : s.pair.role = 2)
    (low : -400 ≤ err) (high : err ≤ 400) (marked : s.pair.marked = none) (quiet : bit (u8 bs 15) 1 = false)
    (runs : s.app.running = true ∨ bit (u8 bs 15) 2 = false) : ∃ s', exec (.heartbeat t bs) s = .next s' ∧ s'.pair.role = 2 ∧
      s'.pair.phErr = BitVec.ofInt 16 err ∧ s'.cycle = s.cycle ∧ (s'.pair.locked = true ↔ -40 ≤ err ∧ err ≤ 40) ∧ LanesKept s s' := by
  obtain ⟨cycle, app, lanes, -⟩ := heard_kept s t bs
  obtain ⟨_, pair⟩ := phased_pair (s.heard t bs) err
  rw [heard_pair] at pair
  have near : ¬(err < -400 ∨ 400 < err) := by omega
  have inRange : clampI (-32768) 32767 err = err := by
    rw [clampI, if_neg (by omega), if_neg (by omega)]
  have run := h.exec_inStep role
  rw [if_neg near, judged_of_inStep (by rw [pair]; exact marked) quiet (by rw [phased_app, app, pair]; exact runs)] at run
  refine ⟨_, run, ?_, ?_, ?_, ?_, lanes.trans (phased_lanesKept ..)⟩
  · exact phased_heard_role role t bs err
  · rw [pair, inRange]
  · rw [phased_cycle, cycle]
  · rw [pair, Bool.and_eq_true_iff, decide_eq_true_iff, decide_eq_true_iff]

/-! ### Missing heartbeats (R19, R20, R382) -/

/-- One more heartbeat is missing, at the instant it was due (R378). -/
def State.missed (s : State) (t : Nat) : State := { s with
  now := max (s.then t) (s.pair.lastHb + 4000 * (s.pair.missing + 1)), pair := { s.pair with missing := s.pair.missing + 1 } }

theorem exec_heartbeatMissing {s : State} (steward : s.steward = true) (seen : s.pair.hbSeen = true) (role : s.pair.role ≠ 0) (t : Nat) :
    exec (.heartbeatMissing t) s = .next (if s.pair.missing + 1 = 3 then (s.missed t).heartbeatsLost else s.missed t) := by
  have at_due : s.at (max t (s.pair.lastHb + 4000 * (s.pair.missing + 1))) =
      { s with now := max (s.then t) (s.pair.lastHb + 4000 * (s.pair.missing + 1)) } := by
    unfold State.at State.then
    rw [← max_assoc]
  change execHeartbeatMissing t s = _
  rw [execHeartbeatMissing, if_pos ⟨steward, seen, role⟩, at_due]
  rfl

/-- The third missing heartbeat of a partner that has not become single. -/
theorem exec_heartbeatMissing_third {s : State} (steward : s.steward = true) (seen : s.pair.hbSeen = true) (role : s.pair.role ≠ 0)
    (two : s.pair.missing = 2) (t : Nat) : exec (.heartbeatMissing t) s = .next (s.missed t).heartbeatsLost := by
  rw [exec_heartbeatMissing steward seen role, if_pos (congrArg (· + 1) two)]

/-- The missing heartbeats are no longer counted (R382). -/
def State.unheard (s : State) : State := { s with pair := { s.pair with hbSeen := false } }

theorem heartbeatsLost_cable {s : State} (single : s.pair.partner.single = false) (relief : s.isRelief = true)
    (absent : s.pwr.pairPresent = false) : s.heartbeatsLost = s.unheard.cableLost := by
  unfold State.heartbeatsLost
  exact (if_neg (by rw [single]; decide)).trans (if_pos ⟨relief, absent⟩)

theorem heartbeatsLost_takeover {s : State} (single : s.pair.partner.single = false) (role : s.pair.role = 2)
    (present : s.pwr.pairPresent = true) :
    s.heartbeatsLost = { s.unheard with pair := { s.unheard.pair with due := some (s.cycle + 1, 2) } } := by
  unfold State.heartbeatsLost
  exact (if_neg (by rw [single]; decide)).trans ((if_neg fun c => by rw [present] at c; exact absurd c.2 (by decide)).trans (if_pos role))

theorem heartbeatsLost_primary {s : State} (single : s.pair.partner.single = false) (role : s.pair.role = 1) :
    s.heartbeatsLost = s.unheard.partnerLost := by
  have notRelief : ¬s.isRelief = true := by rw [State.isRelief, role]; decide
  unfold State.heartbeatsLost
  exact (if_neg (by rw [single]; decide)).trans ((if_neg fun c => notRelief c.1).trans (if_neg (by rw [role]; decide)))

theorem partnerLost_of_role_ne {s : State} (role : s.pair.role ≠ 2) :
    s.partnerLost = (s.pairEvent evLost).gbEvent 0x67 0 sevFault [barWord s 0x4000] := by
  unfold State.partnerLost
  rw [if_neg role]

theorem cableLost_of_inStep {s : State} (role : s.pair.role = 2) : ∃ ws,
    s.cableLost = ((s.becomeOut 0 sevNotice).pairEvent evCable).gbEvent 0x66 0 sevFault ws := by
  unfold State.cableLost
  rw [if_pos role]
  exact ⟨_, rfl⟩

/-- A primary that has lost its partner goes on, with the event and its record (R382). -/
theorem heartbeatMissing_primary {s : State} (steward : s.steward = true) (seen : s.pair.hbSeen = true) (two : s.pair.missing = 2)
    (single : s.pair.partner.single = false) (role : s.pair.role = 1) (t : Nat) : ∃ s', exec (.heartbeatMissing t) s = .next s' ∧
      s'.pair.role = 1 ∧ s'.pair.evt.getLsbD 1 = true ∧ s'.pair.hbSeen = false ∧ s'.recorded 0x67 0 sevFault ∧ LanesKept s s' := by
  have run := exec_heartbeatMissing_third steward seen (by rw [role]; decide) two t
  have primary : (s.missed t).unheard.pair.role ≠ 2 := by rw [show (s.missed t).unheard.pair.role = 1 from role]; decide
  rw [heartbeatsLost_primary (s := s.missed t) single role, partnerLost_of_role_ne primary] at run
  refine ⟨_, run, ?_, ?_, ?_, gbEvent_recorded .., ?_⟩
  · rw [gbEvent_pair, pairEvent_role]; exact role
  · rw [gbEvent_pair]; exact pairEvent_evt _ (by decide)
  · rw [gbEvent_pair, pairEvent_pair]; rfl
  · have unheard : LanesKept s (s.missed t).unheard := ⟨rfl, rfl, rfl⟩
    exact unheard.trans (lanesKept_of_going ((gbEvent_going ..).trans (pairEvent_going ..)))

/-- A relief whose cable is lost does not take over: it is RELIEF OUT, with the event and its record (R20). -/
theorem heartbeatMissing_cable {s : State} (steward : s.steward = true) (seen : s.pair.hbSeen = true) (two : s.pair.missing = 2)
    (single : s.pair.partner.single = false) (role : s.pair.role = 2) (absent : s.pwr.pairPresent = false) (t : Nat) :
    ∃ s', exec (.heartbeatMissing t) s = .next s' ∧ s'.pair.role = 3 ∧ s'.pair.evt.getLsbD 5 = true ∧ s'.recorded 0x66 0 sevFault ∧
      s'.app.running = false := by
  have run := exec_heartbeatMissing_third steward seen (by rw [role]; decide) two t
  have relief : (s.missed t).isRelief = true := by rw [show (s.missed t).isRelief = s.isRelief from rfl, State.isRelief, role]; rfl
  obtain ⟨ws, lost⟩ := cableLost_of_inStep (s := (s.missed t).unheard) role
  rw [heartbeatsLost_cable (s := s.missed t) single relief absent, lost] at run
  refine ⟨_, run, ?_, ?_, gbEvent_recorded .., ?_⟩
  · rw [gbEvent_pair, pairEvent_role, becomeOut_role]
  · rw [gbEvent_pair]; exact pairEvent_evt _ (by decide)
  · rw [app_of_going (gbEvent_going ..), app_of_going (pairEvent_going ..), becomeOut_running]

/-- A relief plans its takeover for the next base tick (R19, R390). -/
theorem heartbeatMissing_takeover {s : State} (steward : s.steward = true) (seen : s.pair.hbSeen = true) (two : s.pair.missing = 2)
    (single : s.pair.partner.single = false) (role : s.pair.role = 2) (present : s.pwr.pairPresent = true) (t : Nat) :
    ∃ s', exec (.heartbeatMissing t) s = .next s' ∧ s'.pair.due = some (s.cycle + 1, 2) ∧ s'.pair.role = 2 ∧ s'.pair.hbSeen = false ∧
      LanesKept s s' := by
  have run := exec_heartbeatMissing_third steward seen (by rw [role]; decide) two t
  rw [heartbeatsLost_takeover (s := s.missed t) single role present] at run
  exact ⟨_, run, rfl, role, rfl, rfl, rfl, rfl⟩

/-! ### Takeover (R326, R390, R391) -/

theorem canRefreshAll_key {β : Type} (key : State → β) (h : ∀ s k f, key (State.updCan s k f) = key s) (s : State) :
    key s.canRefreshAll = key s :=
  foldl_keeps_key key (fun s k => h s k _) (fins 4) s

/-- A leading relief changes nothing but its ports when it arms their windows. -/
theorem canTakeover_key {β : Type} (key : State → β) (h : ∀ s k f, key (State.updCan s k f) = key s) (s : State) (from' : Nat) :
    key (s.canTakeover from') = key s := by
  unfold State.canTakeover
  dsimp only
  split
  · exact canRefreshAll_key key h s
  · refine (foldl_keeps_key key (fun s k => ?_) _ _).trans (canRefreshAll_key key h s)
    split
    · rfl
    · split
      · exact h s k _
      · rfl

/-- Entry i of port k has its window in the current bus cycle at or after TB `from'` (R326). -/
def State.WindowFrom (s : State) (cf : Conf) (from' : Nat) (k : PortId) (i : Nat) : Prop :=
  ∃ m w, s.cans[k].cycleStart = some m ∧ ((cf.way.entriesOf k.val)[i]?).map CanCyc.wopen = some w ∧ from' ≤ m * tickCycles + w * usCycles

/-- The bus cycles are those of s, and whatever is armed has its window at or after TB `from'`. -/
def State.ArmsFrom (s : State) (cf : Conf) (from' : Nat) (s' : State) : Prop :=
  ∀ k : PortId, s'.cans[k].cycleStart = s.cans[k].cycleStart ∧ ∀ i ∈ s'.cans[k].armed, s.WindowFrom cf from' k i

theorem armsFrom_updCan {s s' : State} {cf : Conf} {from' : Nat} (arms : s.ArmsFrom cf from' s') (k : PortId) {l : List Nat}
    (window : ∀ i ∈ l, s.WindowFrom cf from' k i) : s.ArmsFrom cf from' (s'.updCan k (fun c => { c with armed := l })) := by
  intro j
  rw [State.updCan_can]
  by_cases e : k = j
  · subst e
    rw [if_pos rfl]
    exact ⟨(arms k).1, window⟩
  · rw [if_neg e]
    exact arms j

theorem canTakeover_armsFrom {s : State} {cf : Conf} (cur : s.app.cur = some cf) (unarmed : ∀ k : PortId, s.cans[k].armed = []) (from' : Nat) :
    s.ArmsFrom cf from' (s.canTakeover from') := by
  have refreshed (k : PortId) : s.canRefreshAll.cans[k].timetable = s.cans[k].timetable := timetable_of_undriven (canRefreshAll_undriven s) k
  have start : s.ArmsFrom cf from' s.canRefreshAll := fun k =>
    ⟨cycleStart_of_timetable (refreshed k), by rw [armed_of_timetable (refreshed k), unarmed k]; simp⟩
  unfold State.canTakeover
  dsimp only
  rw [canRefreshAll_key (fun s => s.app.cur) (fun _ _ _ => rfl), cur]
  refine List.foldlRecOn (motive := s.ArmsFrom cf from') _ _ start fun s' arms k _ => ?_
  split
  · exact arms
  case h_2 m began =>
    split
    · refine armsFrom_updCan arms k fun i hi => ?_
      have due := (List.mem_filter.mp hi).2
      split at due
      · exact absurd due Bool.false_ne_true
      case h_2 e entry =>
        exact ⟨m, e.wopen, (arms k).1.symm.trans began, by rw [entry]; rfl, of_decide_eq_true due⟩
    · exact arms

/-- A relief that is about to lead: nothing of lock step is left, and excitation starts with the primary's values (R290). -/
def State.leading (s : State) : State :=
  { s with pair := { s.pair with frame := none, marked := none, due := none, missing := 0, inStepSince := s.now } }.startExcitation

theorem lead_eq (s : State) (reason : BitVec 3) (sev : BitVec 2) (from' : Nat) :
    s.lead reason sev from' = (s.leading.setRole 1 reason sev).canTakeover from' := rfl

theorem lead_pair (s : State) (reason : BitVec 3) (sev : BitVec 2) (from' : Nat) : (s.lead reason sev from').pair = { s.pair with
    frame := none, marked := none, due := none, missing := 0, inStepSince := s.now, role := 1, reason := reason, epoch := s.pair.epoch + 1 } := by
  rw [lead_eq, canTakeover_key State.pair fun _ _ _ => rfl, setRole_pair]
  rfl

theorem lead_going (s : State) (reason : BitVec 3) (sev : BitVec 2) (from' : Nat) : (s.lead reason sev from').going = s.going := by
  rw [lead_eq, canTakeover_key State.going fun _ _ _ => rfl, setRole_going]
  rfl

theorem lead_relief (s : State) (reason : BitVec 3) (sev : BitVec 2) (from' : Nat) {g : GrpId} (supplied : s.groups[g].lplus = true) :
    (s.lead reason sev from').groups[g].relief = false := by
  have supplied' : s.leading.groups[g].lplus = true := supplied
  rw [lead_eq, canTakeover_key State.groups fun _ _ _ => rfl, setRole_relief s.leading 1 reason sev supplied']
  rfl

theorem lead_armsFrom {s : State} {cf : Conf} (cur : s.app.cur = some cf) (unarmed : ∀ k : PortId, s.cans[k].armed = []) (reason : BitVec 3)
    (sev : BitVec 2) (from' : Nat) : s.ArmsFrom cf from' (s.lead reason sev from') := by
  have app : (s.leading.setRole 1 reason sev).app = s.app := app_of_going (setRole_going s.leading 1 reason sev)
  have armed (k : PortId) : (s.leading.setRole 1 reason sev).cans[k].armed = s.cans[k].armed :=
    armed_of_timetable (setRole_timetable s.leading 1 reason sev k)
  have began (k : PortId) : (s.leading.setRole 1 reason sev).cans[k].cycleStart = s.cans[k].cycleStart :=
    cycleStart_of_timetable (setRole_timetable s.leading 1 reason sev k)
  have arms := canTakeover_armsFrom (s := s.leading.setRole 1 reason sev) (by rw [app]; exact cur) (fun k => (armed k).trans (unarmed k)) from'
  rw [lead_eq]
  intro k
  obtain ⟨kept, windows⟩ := arms k
  refine ⟨kept.trans (began k), fun i hi => ?_⟩
  obtain ⟨m, w, cycle, opens, late⟩ := windows i hi
  exact ⟨m, w, (began k).symm.trans cycle, opens, late⟩

/-- The TB from which a relief that takes over at base tick n arms windows (R391). -/
def State.takeoverFrom (s : State) (n : Nat) : Nat := max (tickCycles * n) (s.pair.hbTb.toNat + 11 * usCycles)

/-- A takeover is leading from its base tick on with QUIET_OUT towards a partner that is there, an event and the records of old proofs. -/
theorem takeOver_lead (s : State) (reason : BitVec 3) (n : Nat) : ∃ s₁ : State, s₁ = { s with pwr := { s.pwr with quietOut := s.pwr.pairPresent } } ∧
    (s.takeOver reason n).unreported = ((s₁.lead reason sevCritical (s.takeoverFrom n)).pairEvent evTakeover).unreported :=
  ⟨_, rfl, ageRecords_unreported ..⟩

theorem takeOver_pair (s : State) (reason : BitVec 3) (n : Nat) : (s.takeOver reason n).pair = { s.pair with
    frame := none, marked := none, due := none, missing := 0, inStepSince := s.now, role := 1, reason := reason, epoch := s.pair.epoch + 1
    evt := s.pair.evt ||| BitVec.twoPow 10 evTakeover } := by
  obtain ⟨s₁, rfl, eq⟩ := takeOver_lead s reason n
  rw [pair_of_unreported eq, pairEvent_pair, lead_pair]

theorem takeOver_going (s : State) (reason : BitVec 3) (n : Nat) :
    (s.takeOver reason n).going = (s.rooms, s.dmem, s.img, s.app, { s.pwr with quietOut := s.pwr.pairPresent }) := by
  obtain ⟨s₁, rfl, eq⟩ := takeOver_lead s reason n
  rw [going_of_undriven (undriven_of_unreported eq), pairEvent_going, lead_going]
  rfl

theorem takeOver_relief (s : State) (reason : BitVec 3) (n : Nat) {g : GrpId} (supplied : s.groups[g].lplus = true) :
    (s.takeOver reason n).groups[g].relief = false := by
  obtain ⟨s₁, rfl, eq⟩ := takeOver_lead s reason n
  rw [groups_of_unreported eq, pairEvent_groups]
  exact lead_relief _ _ _ _ supplied

theorem takeOver_armsFrom {s : State} {cf : Conf} (cur : s.app.cur = some cf) (unarmed : ∀ k : PortId, s.cans[k].armed = []) (reason : BitVec 3)
    (n : Nat) : s.ArmsFrom cf (s.takeoverFrom n) (s.takeOver reason n) := by
  obtain ⟨s₁, rfl, eq⟩ := takeOver_lead s reason n
  have cans := (cans_of_unreported eq).trans (pairEvent_cans ..)
  unfold State.ArmsFrom
  rw [cans]
  exact lead_armsFrom (s := { s with pwr := { s.pwr with quietOut := s.pwr.pairPresent } }) cur unarmed reason sevCritical _

theorem exec_takeover {s : State} {n : Nat} {reason : BitVec 3} (due : s.pair.due = some (n, reason)) (t : Nat) : exec (.takeover t) s =
    if s.pair.role = 2 ∧ n ≤ s.cycle ∧ s.pwr.quietIn = false ∧ s.halted = false ∧ s.steward = true ∧ s.pwr.pf = .none
    then .next ((s.at t).takeOver reason s.cycle) else .next (s.at t) := by
  change execTakeover t s = _
  unfold execTakeover
  dsimp only
  rw [State.at_pair, due]
  rfl

/-- Settles O49: what a heartbeat tells is kept by whatever it sets off, so each case is one change of state after it; the third missing
heartbeat and the takeover set off one role change each. -/
theorem heartbeatsAndTakeover : Obligations.HeartbeatsAndTakeover := by
  intro s t bs
  refine ⟨fun awake link => ⟨?heard, fun leads => ?leads, fun err phase => ?phase⟩,
    fun steward seen => ⟨fun role few => ?few, fun two single => ⟨fun role present => heartbeatMissing_takeover steward seen two single role present t,
      fun role => heartbeatMissing_primary steward seen two single role t,
      fun role absent => heartbeatMissing_cable steward seen two single role absent t⟩⟩,
    fun n reason due role steward => ⟨fun tick quiet halted pf => ?takeover, fun early => ?early⟩, fun role steward => ?powerfail⟩
  case heard =>
    obtain ⟨s', run, heard⟩ := exec_heartbeat_hearing awake link t bs
    simp only [Pair.hearing, Prod.mk.injEq] at heard
    obtain ⟨partner, tb, last, missing, seen⟩ := heard
    refine ⟨s', run, seen, missing, last, tb, ?_, ?_, ?_⟩ <;> rw [partner] <;> rfl
  case leads =>
    obtain ⟨cycle, -, lanes, field⟩ := heard_kept s t bs
    exact ⟨_, exec_heartbeat_of_leads awake link leads t bs, heard_role s t bs, cycle, heard_quietOut, lanes, field⟩
  case phase =>
    have h : Measures s t bs err := ⟨awake, link, phase⟩
    exact ⟨h.outside, h.beyond, h.notRunning, fun role low high marked quiet runs => h.within role low high marked quiet runs⟩
  case few =>
    refine ⟨_, exec_heartbeatMissing steward seen role t, ?_⟩
    rw [if_neg (by omega)]
    rfl
  case takeover =>
    have run := exec_takeover due t
    rw [if_pos ⟨role, tick, quiet, halted, steward, pf⟩] at run
    have going := takeOver_going (s.at t) reason s.cycle
    simp only [State.going, Prod.mk.injEq] at going
    obtain ⟨rooms, dmem, img, app, pwr⟩ := going
    have pair := takeOver_pair (s.at t) reason s.cycle
    refine ⟨_, run, ?_, ?_, ?_, ?_, ?_, by rw [pwr]; rfl, rooms, dmem, img, app, fun g supplied => takeOver_relief (s.at t) reason s.cycle supplied,
      fun cf cur unarmed k i armed => ?_⟩
    case refine_6 =>
      obtain ⟨m, w, began, opens, late⟩ := (takeOver_armsFrom (s := s.at t) cur unarmed reason s.cycle k).2 i armed
      exact ⟨m, w, began, opens, (le_max_left ..).trans late, (le_max_right ..).trans late⟩
    all_goals rw [pair]
    case refine_5 => simp [evTakeover]
    all_goals rfl
  case early =>
    refine ⟨_, (exec_takeover due t).trans (if_neg ?_), rfl⟩
    rintro ⟨-, tick, quiet, -⟩
    rcases early with before | silenced
    · omega
    · rw [quiet] at silenced; exact Bool.false_ne_true silenced
  case powerfail =>
    change ∃ s', execPowerfail t bs s = .next s' ∧ _
    unfold execPowerfail
    exact ⟨_, congrArg Host.Outcome.next (if_pos ⟨role, steward⟩), rfl⟩

end Sys2Proof.Machine
end

section
/-! PROOFS. One channel driven anew, outputs under QUIET_IN (R40, R260), a primary that falls out under it (R382), and what the entry of a reset
makes of phase, supplies and clock registers (R66). -/

namespace Sys2Proof.Machine

/-! ### What reports change, and nothing else -/

/-- A vector raised changes the host interface and what has gone out only. -/
theorem raiseNow_alone (s : State) (v : Fin 16) : s.raiseNow v = { s with host := (s.raiseNow v).host, out := (s.raiseNow v).out } := by
  unfold State.raiseNow State.msix
  split
  · split
    · rfl
    · split <;> rfl
  · rfl

/-- A guestbook event changes the guestbook only. -/
theorem gbEvent_alone (s : State) (typ src : Nat) (sev : BitVec 2) (ws : List Word) :
    s.gbEvent typ src sev ws = { s with gb := (s.gbEvent typ src sev ws).gb } := by
  unfold State.gbEvent
  split
  · split <;> rfl
  · rfl

theorem chans_of_unreported {s s' : State} (h : s'.unreported = s.unreported) : s'.chans = s.chans := (congrArg State.chans h :)
theorem steward_of_undriven {s s' : State} (h : s'.undriven = s.undriven) : s'.steward = s.steward := (congrArg State.steward h :)
theorem pwr_of_undriven {s s' : State} (h : s'.undriven = s.undriven) : s'.pwr = s.pwr := (congrArg State.pwr h :)
theorem pwr_of_going {s s' : State} (h : s'.going = s.going) : s'.pwr = s.pwr := congrArg (fun x => x.2.2.2.2) h

/-- While an invariant lasts, what the step of one entry of a list makes true and no step undoes is true at the end. -/
theorem foldl_establishes {α : Type} {I P : State → Prop} {f : State → α → State} {a : α} (inv : ∀ s b, I s → I (f s b))
    (set : ∀ s, I s → P (f s a)) (keep : ∀ s b, P s → P (f s b)) {l : List α} (mem : a ∈ l) {s : State} (start : I s) : P (l.foldl f s) := by
  obtain ⟨before, behind, rfl⟩ := List.append_of_mem mem
  have reached : I (before.foldl f s) := List.foldlRecOn before f start fun s i b _ => inv s b i
  rw [List.foldl_append, List.foldl_cons]
  exact List.foldlRecOn behind f (set _ reached) fun s p b _ => keep s b p

/-! ### One channel driven anew (R43, R44, R260, R287) -/

/-- What the drive of a channel makes of it: its terminal, then the switch or the stage of its mode. -/
def Chan.redriven (c : Chan) (quiet commit : Bool) (g : Group) (now : Nat) : Chan :=
  match (c.terminal g).cfg with
  | none => { c.terminal g with drive := false, aout := .off, applied := 0 }
  | some e =>
    if e.isDout then (c.terminal g).driven quiet commit g e now
    else if e.isAout then (c.terminal g).drivenAna quiet g e now
    else c.terminal g

theorem terminal_cfg (c : Chan) (g : Group) : (c.terminal g).cfg = c.cfg := by
  unfold Chan.terminal
  split <;> rfl

theorem redriven_cfg (c : Chan) (quiet commit : Bool) (g : Group) (now : Nat) : (c.redriven quiet commit g now).cfg = c.cfg := by
  rw [← terminal_cfg c g]
  unfold Chan.redriven
  split
  · rfl
  · split
    · rfl
    · split <;> rfl

/-- Under QUIET_IN the switch of a digital output is OFF (row 2 of R260). -/
theorem redriven_quiet {c : Chan} {e : ChanCfg} (entry : c.cfg = some e) (dout : e.isDout = true) (commit : Bool) (g : Group) (now : Nat) :
    (c.redriven true commit g now).drive = false := by
  have blocked : blockedOff true g (c.terminal g) = true := by simp [blockedOff]
  simp [Chan.redriven, terminal_cfg, entry, dout, Chan.driven, blocked]

/-- Channel n and its terminal driven anew, without the latch and record of a rate hold. -/
def State.redrive (s : State) (n : ChanId) (commit : Bool) : State :=
  s.updChan n fun c => c.redriven s.pwr.quietIn commit s.groups[grpOf n] s.now

theorem updChan_congr {s : State} {n : ChanId} {f g : Chan → Chan} (h : f s.chans[n] = g s.chans[n]) : s.updChan n f = s.updChan n g := by
  rw [State.updChan, State.updChan, upd, upd, h]

theorem updChan_twice (s : State) (n : ChanId) (f g : Chan → Chan) : (s.updChan n f).updChan n g = s.updChan n (g ∘ f) := by
  simp [State.updChan, upd]

theorem driveChan_eq (s : State) (n : ChanId) (commit : Bool) :
    s.driveChan n commit = s.redrive n commit ∨ s.driveChan n commit = (s.redrive n commit).latchRate n := by
  have at_n : (s.updChan n fun c => c.terminal s.groups[grpOf n]).chans[n] = s.chans[n].terminal s.groups[grpOf n] := getElem_upd_self ..
  unfold State.driveChan State.redrive
  dsimp only
  split
  case h_1 none' =>
    rw [at_n] at none'
    rw [updChan_twice]
    exact .inl (updChan_congr (by simp only [Chan.redriven, none', Function.comp]))
  case h_2 e entry =>
    rw [at_n] at entry
    split
    case isTrue dout =>
      rw [updChan_twice, updChan_congr (f := _ ∘ _) (g := fun c => c.redriven s.pwr.quietIn commit s.groups[grpOf n] s.now)
        (by simp only [Chan.redriven, entry, Function.comp, dout, if_true]; rfl)]
      split
      · exact .inr rfl
      · exact .inl rfl
    case isFalse ndout =>
      split
      case isTrue aout =>
        rw [updChan_twice]
        refine .inl (updChan_congr ?_)
        simp only [Chan.redriven, entry, Function.comp, if_neg ndout, if_pos aout]
        rfl
      case isFalse naout =>
        exact .inl (updChan_congr (by simp only [Chan.redriven, entry, if_neg ndout, if_neg naout]))

/-- L+ and modes of a group (R44, R261). -/
def Group.modes (p : Group) : Bool × Bool := (p.lplus, p.cfg)

theorem lplus_of_modes {p q : Group} (h : p.modes = q.modes) : p.lplus = q.lplus := congrArg Prod.fst h
theorem cfg_of_modes {p q : Group} (h : p.modes = q.modes) : p.cfg = q.cfg := congrArg Prod.snd h

theorem latchRate_chans (s : State) (n : ChanId) : (s.latchRate n).chans = s.chans := by
  unfold State.latchRate State.latchChan
  dsimp only
  split
  · rfl
  · exact (chans_of_unreported (channelEvent_unreported _ 0x34 n.val sevNotice [chReg n false]) :)

theorem latchRate_modes (s : State) (n : ChanId) : (s.latchRate n).groups.map Group.modes = s.groups.map Group.modes := by
  unfold State.latchRate State.latchChan
  dsimp only
  split
  · rfl
  · rw [groups_of_unreported (channelEvent_unreported ..)]
    exact map_upd_of_eq _ _ _ fun _ => rfl

theorem driveChan_chans (s : State) (n : ChanId) (commit : Bool) : (s.driveChan n commit).chans = (s.redrive n commit).chans := by
  rcases driveChan_eq s n commit with eq | eq <;> rw [eq]
  exact latchRate_chans ..

theorem driveChan_modes (s : State) (n : ChanId) (commit : Bool) :
    (s.driveChan n commit).groups.map Group.modes = s.groups.map Group.modes := by
  rcases driveChan_eq s n commit with eq | eq <;> rw [eq]
  · rfl
  · exact latchRate_modes ..

theorem modes_of_map {s s' : State} (h : s'.groups.map Group.modes = s.groups.map Group.modes) (g : GrpId) :
    s'.groups[g].modes = s.groups[g].modes := by
  simpa using congrArg (fun v : Vector (Bool × Bool) 12 => v[g]) h

theorem driveGroup_undriven (s : State) (g : GrpId) : (s.driveGroup g).undriven = s.undriven :=
  foldl_keeps_key State.undriven (fun s n => driveChan_undriven s n false) _ s

theorem driveGroup_modes (s : State) (g : GrpId) : (s.driveGroup g).groups.map Group.modes = s.groups.map Group.modes :=
  foldl_keeps_key (fun s => s.groups.map Group.modes) (fun s n => driveChan_modes s n false) _ s

/-! ### Outputs under QUIET_IN (R40) -/

/-- QUIET_IN is asserted, and channel n has this configuration. -/
def State.Quieted (s : State) (n : ChanId) (e : ChanCfg) : Prop := s.pwr.quietIn = true ∧ s.chans[n].cfg = some e

/-- So it is, and the channel's switch is OFF. -/
def State.Silenced (s : State) (n : ChanId) (e : ChanCfg) : Prop := s.Quieted n e ∧ s.chans[n].drive = false

theorem State.Quieted.congr {s s' : State} {n : ChanId} {e : ChanCfg} (h : s.Quieted n e) (chans : s'.chans = s.chans)
    (pwr : s'.pwr = s.pwr) : s'.Quieted n e := by
  rw [State.Quieted, chans, pwr]
  exact h

theorem State.Silenced.congr {s s' : State} {n : ChanId} {e : ChanCfg} (h : s.Silenced n e) (chans : s'.chans = s.chans)
    (pwr : s'.pwr = s.pwr) : s'.Silenced n e :=
  ⟨h.1.congr chans pwr, by rw [chans]; exact h.2⟩

theorem driveChan_quieted {s : State} {n : ChanId} {e : ChanCfg} (h : s.Quieted n e) (m : ChanId) (commit : Bool) :
    (s.driveChan m commit).Quieted n e := by
  obtain ⟨quiet, entry⟩ := h
  refine ⟨by rw [pwr_of_undriven (driveChan_undriven s m commit)]; exact quiet, ?_⟩
  rw [driveChan_chans, State.redrive, State.updChan_chan]
  split
  · exact (redriven_cfg ..).trans entry
  · exact entry

theorem driveChan_silenced {s : State} {n : ChanId} {e : ChanCfg} (h : s.Silenced n e) (dout : e.isDout = true) (m : ChanId) (commit : Bool) :
    (s.driveChan m commit).Silenced n e := by
  obtain ⟨⟨quiet, entry⟩, off⟩ := h
  refine ⟨driveChan_quieted ⟨quiet, entry⟩ m commit, ?_⟩
  rw [driveChan_chans, State.redrive, State.updChan_chan, quiet]
  split
  · exact redriven_quiet entry dout ..
  · exact off

theorem driveChan_silences {s : State} {n : ChanId} {e : ChanCfg} (h : s.Quieted n e) (dout : e.isDout = true) (commit : Bool) :
    (s.driveChan n commit).Silenced n e := by
  refine ⟨driveChan_quieted h n commit, ?_⟩
  obtain ⟨quiet, entry⟩ := h
  rw [driveChan_chans, State.redrive, State.updChan_chan, if_pos rfl, quiet]
  exact redriven_quiet entry dout ..

theorem mem_chansOf_grpOf (n : ChanId) : n ∈ chansOf (grpOf n) :=
  List.mem_map.mpr ⟨idxOf n, List.mem_finRange _, Fin.ext (Nat.div_add_mod n.val 16)⟩

theorem driveGroup_quieted {s : State} {n : ChanId} {e : ChanCfg} (h : s.Quieted n e) (g : GrpId) : (s.driveGroup g).Quieted n e :=
  List.foldlRecOn (motive := fun s => State.Quieted s n e) (chansOf g) _ h fun _ h m _ => driveChan_quieted h m false

theorem driveGroup_silenced {s : State} {n : ChanId} {e : ChanCfg} (h : s.Silenced n e) (dout : e.isDout = true) (g : GrpId) :
    (s.driveGroup g).Silenced n e :=
  List.foldlRecOn (motive := fun s => State.Silenced s n e) (chansOf g) _ h fun _ h m _ => driveChan_silenced h dout m false

theorem driveGroup_silences {s : State} {n : ChanId} {e : ChanCfg} (h : s.Quieted n e) (dout : e.isDout = true) :
    (s.driveGroup (grpOf n)).Silenced n e :=
  foldl_establishes (I := fun s => s.Quieted n e) (P := fun s => s.Silenced n e) (fun _ m h => driveChan_quieted h m false)
    (fun _ h => driveChan_silences h dout false) (fun _ m h => driveChan_silenced h dout m false) (mem_chansOf_grpOf n) h

theorem driveAll_silences {s : State} {n : ChanId} {e : ChanCfg} (h : s.Quieted n e) (dout : e.isDout = true) : s.driveAll.Silenced n e :=
  foldl_establishes (I := fun s => s.Quieted n e) (P := fun s => s.Silenced n e) (fun _ g h => driveGroup_quieted h g)
    (fun _ h => driveGroup_silences h dout) (fun _ g h => driveGroup_silenced h dout g) (List.mem_finRange (grpOf n)) h

/-! ### A primary that QUIET_IN silences (R40, R382) -/

/-- The state without what the end of a role touches: reports, commands, rooms, application, night porter and pair. -/
def State.unled (s : State) : State :=
  { s.unreported with
    rooms := Vector.replicate 100 Room.init
    app := App.init
    edits := Edits.init
    pair := Pair.init
    np := Porter.init }

theorem unled_of_unreported {s s' : State} (h : s'.unreported = s.unreported) : s'.unled = s.unled := (congrArg State.unled h :)

theorem completeOpt_unled (s : State) (ref : Option CmdRef) (st : BitVec 16) (res : List Byte) :
    (s.completeOpt ref st res).unled = s.unled := unled_of_unreported (completeOpt_unreported s ref st res)

theorem completeAll_unled (s : State) (refs : List CmdRef) (st : BitVec 16) (res : List Byte) :
    (s.completeAll refs st res).unled = s.unled := unled_of_unreported (completeAll_unreported s refs st res)

theorem discardEdits_unled (s : State) : s.discardEdits.unled = s.unled :=
  foldl_keeps_key State.unled (fun s r => completeOpt_unled s r 0x0228 []) _ { s with edits := { s.edits with batches := [], reads := [] } }

theorem abandonSwap_unled (s : State) (st : BitVec 16) : (s.abandonSwap st).unled = s.unled :=
  (completeAll_unled ..).trans (completeOpt_unled ..)

theorem app_unled (s : State) (a : App) : ({ s with app := a } : State).unled = s.unled := rfl
theorem pair_unled (s : State) (p : Pair) : ({ s with pair := p } : State).unled = s.unled := rfl

theorem dropCommands_unled (s : State) : s.dropCommands.unled = s.unled := by
  unfold State.dropCommands
  dsimp only
  rw [completeOpt_unled, pair_unled, apply_ite State.unled, abandonSwap_unled, ite_self]
  split <;> split <;>
    simp only [completeOpt_unled, completeAll_unled, app_unled, discardEdits_unled, apply_ite State.unled, ite_self]

theorem dropPoints_unled (s : State) : s.dropPoints.unled = s.unled := by
  refine (foldl_keeps_key State.unled (fun s p => ?_) s.nv.points s :)
  split <;> rfl

theorem stopRooms_unled (s : State) : s.stopRooms.unled = s.unled := rfl
theorem npBoot_unled (s : State) : s.npBoot.unled = s.unled := rfl
theorem restartSync_unled (s : State) : s.restartSync.unled = s.unled := rfl

theorem becomeOut_unled (s : State) (reason : BitVec 3) (sev : BitVec 2) : ∃ s₁ : State,
    s.becomeOut reason sev = s₁.setRole 3 reason sev ∧ s₁.unled = s.unled := by
  refine ⟨_, rfl, ?_⟩
  rw [restartSync_unled, app_unled, npBoot_unled, dropPoints_unled, stopRooms_unled, dropCommands_unled]

theorem applyRole_silences {s : State} {n : ChanId} {e : ChanCfg} (h : s.Quieted n e) (dout : e.isDout = true) : s.applyRole.Silenced n e := by
  have supervised : (s.supervise s.isRelief).Quieted n e :=
    h.congr (supervise_key State.chans (fun _ _ _ => rfl) ..) (supervise_key State.pwr (fun _ _ _ => rfl) ..)
  exact (driveAll_silences supervised dout).congr (canRefreshAll_key State.chans (fun _ _ _ => rfl) _)
    (canRefreshAll_key State.pwr (fun _ _ _ => rfl) _)

theorem becomeOut_silences {s : State} {n : ChanId} {e : ChanCfg} (h : s.Quieted n e) (dout : e.isDout = true) (reason : BitVec 3)
    (sev : BitVec 2) : (s.becomeOut reason sev).Silenced n e := by
  obtain ⟨s₁, ended, kept⟩ := becomeOut_unled s reason sev
  obtain ⟨s₂, applied, reported⟩ := setRole_eq_applyRole s₁ 3 reason sev
  have kept₂ : s₂.unled = s.unled := (unled_of_unreported reported).trans ((pair_unled ..).trans kept)
  rw [ended, applied]
  exact applyRole_silences (h.congr (congrArg State.chans kept₂ :) (congrArg State.pwr kept₂ :)) dout

theorem becomeOut_pwr (s : State) (reason : BitVec 3) (sev : BitVec 2) : (s.becomeOut reason sev).pwr = s.pwr := by
  obtain ⟨s₁, ended, kept⟩ := becomeOut_unled s reason sev
  rw [ended, pwr_of_going (setRole_going ..)]
  exact (congrArg State.pwr kept :)

/-! ### The entry of a reset (R66, R67) -/

/-- What supplies and resets govern: the phase, the supplies and pins, the clock and reset registers. -/
def State.powering (s : State) : Phase × Power × Clk := (s.phase, s.pwr, s.clk)

theorem powering_of_undriven {s s' : State} (h : s'.undriven = s.undriven) : s'.powering = s.powering := (congrArg State.powering h :)

/-- RESET_N resets the supervisor of one group when it has L+ (R35, R265). -/
def State.resetSupervisor (s : State) (g : GrpId) : State :=
  if s.groups[g].lplus then
    let s := s.updGrp g (fun p => { Group.init with almsel := p.almsel, lastAlign := s.now, lpv := p.lpv })
    let s := (chansOf g).foldl (fun s n => s.updChan n (fun c => c.anew c.cfg s.now)) s
    s.driveGroup g
  else s

theorem resetSupervisors_eq (s : State) : s.resetSupervisors = (fins 12).foldl State.resetSupervisor s := rfl

theorem updGrp_powering (s : State) (g : GrpId) (f : Group → Group) : (s.updGrp g f).powering = s.powering := rfl
theorem updChan_powering (s : State) (n : ChanId) (f : Chan → Chan) : (s.updChan n f).powering = s.powering := rfl

theorem withholdAll_powering (s : State) : s.withholdAll.powering = s.powering := by
  unfold State.withholdAll
  exact foldl_keeps_key State.powering (fun _ _ => updGrp_powering ..) (fins 12) s

theorem resetSupervisor_powering (s : State) (g : GrpId) : (s.resetSupervisor g).powering = s.powering := by
  unfold State.resetSupervisor
  split
  · rw [powering_of_undriven (driveGroup_undriven ..), foldl_keeps_key State.powering fun _ _ => updChan_powering .., updGrp_powering]
  · rfl

theorem resetSupervisors_powering (s : State) : s.resetSupervisors.powering = s.powering := by
  rw [resetSupervisors_eq]
  exact foldl_keeps_key State.powering resetSupervisor_powering (fins 12) s

/-- The supervisor of a group with L+ is reset: L+ stays, modes are gone. Other groups stay. -/
theorem resetSupervisor_modes {s : State} (a : GrpId) {g : GrpId} (supplied : s.groups[g].lplus = true) :
    (s.resetSupervisor a).groups[g].modes = if a = g then Group.init.modes else s.groups[g].modes := by
  unfold State.resetSupervisor
  split
  case isTrue lplus =>
    dsimp only
    rw [modes_of_map (driveGroup_modes ..), foldl_keeps_key State.groups fun _ _ => State.updChan_groups .., State.updGrp_group]
    split <;> rfl
  case isFalse dark => exact (if_neg (by rintro rfl; exact dark supplied)).symm

theorem resetSupervisor_lplus {s : State} (a : GrpId) {g : GrpId} (supplied : s.groups[g].lplus = true) :
    (s.resetSupervisor a).groups[g].lplus = true := by
  have modes := resetSupervisor_modes a supplied
  split at modes
  · exact lplus_of_modes modes
  · exact (lplus_of_modes modes).trans supplied

theorem resetSupervisor_keepsUnmoded {s : State} (a : GrpId) {g : GrpId} (reset : s.groups[g].modes = Group.init.modes) :
    (s.resetSupervisor a).groups[g].modes = Group.init.modes := by
  rw [resetSupervisor_modes a (lplus_of_modes reset), reset, ite_self]

theorem resetSupervisors_cfg {s : State} {g : GrpId} (supplied : s.groups[g].lplus = true) : s.resetSupervisors.groups[g].cfg = false := by
  rw [resetSupervisors_eq]
  refine cfg_of_modes (q := Group.init) ?_
  exact foldl_establishes (I := fun s => s.groups[g].lplus = true) (P := fun s => s.groups[g].modes = Group.init.modes)
    (fun _ a h => resetSupervisor_lplus a h) (fun _ h => (resetSupervisor_modes g h).trans (if_pos rfl))
    (fun _ a h => resetSupervisor_keepsUnmoded a h) (List.mem_finRange g) supplied

/-- A reset entered from outside one: its registers are those of the cause (R66). -/
theorem enterReset_powering {s : State} (out : s.phase ≠ .inReset) (cause : BitVec 8) : ∃ recent pwr, (s.enterReset cause).powering =
    (.inReset, pwr, s.clk.enter cause s.clk.cause s.clk.total recent s.now s.pwr.resetN) ∧ pwr.vsup = s.pwr.vsup := by
  have first : (s.phase != .inReset) = true := bne_iff_ne.mpr out
  unfold State.enterReset
  dsimp only
  rw [first, Bool.true_or, Bool.true_or, if_pos rfl]
  rw [powering_of_undriven (canRefreshAll_undriven _), powering_of_undriven (driveAll_undriven _), withholdAll_powering,
    apply_ite State.powering, resetSupervisors_powering, ite_self]
  exact ⟨_, _, rfl, rfl⟩

end Sys2Proof.Machine
end

section
/-! PROOFS. Supplies, temperature and pins (R26, R36, R38 to R40, R48 to R52, R438, R446). -/

namespace Sys2Proof.Machine

/-! ### Supplies (R48 to R52, R438, R446) -/

theorem clear_nvMem (s : State) (power : Bool) : (s.clear power).nv.mem = s.nv.mem := by
  have kept : (if s.halted then s else s.cutHandOver s.tb).nv = s.nv := by split <;> rfl
  exact (congrArg Nv.mem kept :)

/-- Starting a program moves it from the queue to the controller, no more (R437). -/
theorem start_alone (n : Nv) : n.start = { n with busy := n.start.busy, queue := n.start.queue } := by
  unfold Nv.start
  split
  · rfl
  · split
    · split <;> rfl
    · rfl

theorem start_ready (n : Nv) : n.start.ready = n.ready := (congrArg Nv.ready (start_alone n) :)
theorem start_writes (n : Nv) : n.start.writes = n.writes := (congrArg Nv.writes (start_alone n) :)

theorem powerDown_nvMem (s : State) : s.powerDown.nv.mem = s.nv.mem := clear_nvMem s true

/-- VSUP has failed with the storage charged (R50). -/
def State.failing (s : State) : State := { s with pwr := { s.pwr with vsup := false, pf := .failed, pfwarn := true } }

theorem exec_vsupFail {s : State} (vsup : s.pwr.vsup = true) (t : Nat) : exec (.vsupFail t) s = .next (
    if s.pwr.charged = false then (s.at t).powerDown
    else if s.phase = .inReset then { s.at t with pwr := { s.pwr with vsup := false, pfwarn := true } }
    else if s.pwr.pf = .none then
      (if s.host.linkUp && s.steward then (s.at t).failing.raiseNow 4 else (s.at t).failing).abandon
    else { s.at t with pwr := { s.pwr with vsup := false } }) := by
  change execVsupFail t s = _
  unfold execVsupFail
  simp only [apply_ite Host.Outcome.next]
  exact if_neg (by simp [vsup])

/-- VSUP has become valid (R48, R51). -/
def State.supplied (s : State) : State := { s with pwr := { s.pwr with vsup := true, holdUpOut := false } }

theorem exec_vsupValid {s : State} (vsup : s.pwr.vsup = false) (t : Nat) : exec (.vsupValid t) s = .next (
    if s.phase = .unpowered then (s.at t).supplied.enterReset 1
    else if s.phase = .inReset ∧ s.pwr.resetN = true then
      State.resetSupervisors { (s.at t).supplied with clk := { s.clk with exitAt := none } }
    else (s.at t).supplied) := by
  change execVsupValid t s = _
  unfold execVsupValid
  exact if_neg (by simp [vsup])

/-- Whether vector 4 is raised or not, what a power failure abandons is the same (R50, R52). -/
theorem abandon_failing (s : State) : ∃ host out,
    (if s.host.linkUp && s.steward then s.failing.raiseNow 4 else s.failing).abandon =
      State.abandon { s.failing with host := host, out := out } := by
  split
  · exact ⟨_, _, congrArg State.abandon (raiseNow_alone ..)⟩
  · exact ⟨_, _, rfl⟩

/-- NV writes are permitted: the storage is charged and the clock judged (R49, R438). -/
def State.charged (s : State) : State := { s with pwr := { s.pwr with charged := true }, nv := { s.nv with ready := true } }

theorem exec_holdUpCharged {s : State} (vsup : s.pwr.vsup = true) (steward : s.steward = true) (judged : s.clk.judged = true)
    (pf : s.pwr.pf = .none) (ready : s.nv.ready = false) (t : Nat) : exec (.holdUpCharged t) s = .next (
    if s.clk.cause = 1 ∨ s.clk.cause = 2 then (s.at t).charged.countUp 4 cyclesBase
    else { (s.at t).charged with nv := (s.at t).charged.nv.start }) := by
  have running : s.phase = .running := by simpa [State.steward] using steward
  change execHoldUpCharged t s = _
  unfold execHoldUpCharged
  exact if_pos ⟨vsup, by simp [running], by simp [running], pf, ready, steward, judged⟩

theorem supplyEvents : Stated.SupplyEvents := by
  intro s t
  refine ⟨fun vsup charged => ?ends, fun vsup charged out pf => ?fails, fun vsup charged reset => ?duringReset,
    fun vsup unpowered => ?powerOn, fun vsup reset resetN => ?heldInReset, fun vsup powered free => ?returns,
    fun vsup powered => ?exhausted, fun vsup steward judged pf ready => ?charges⟩
  case ends =>
    rw [exec_vsupFail vsup, if_pos charged]
    exact ⟨_, rfl, rfl, rfl, rfl, powerDown_nvMem _, rfl⟩
  case fails =>
    rw [exec_vsupFail vsup, if_neg (by simp [charged]), if_neg out, if_pos pf]
    obtain ⟨host, gone, eq⟩ := abandon_failing (s.at t)
    exact ⟨_, congrArg Host.Outcome.next eq, rfl, rfl, rfl, rfl, rfl, rfl, rfl, rfl, rfl, rfl, rfl, rfl, rfl, rfl, rfl, rfl⟩
  case duringReset =>
    rw [exec_vsupFail vsup, if_neg (by simp [charged]), if_pos reset]
    exact ⟨_, rfl, rfl⟩
  case powerOn =>
    obtain ⟨recent, pwr, entered, vsup'⟩ := enterReset_powering (s := (s.at t).supplied) (by simp [State.supplied, unpowered]) 1
    simp only [State.powering, Prod.mk.injEq] at entered
    obtain ⟨phase, power, clk⟩ := entered
    rw [exec_vsupValid vsup, if_pos unpowered]
    refine ⟨_, rfl, phase, ?_⟩
    rw [clk, power]
    exact ⟨rfl, vsup', rfl, rfl, rfl⟩
  case heldInReset =>
    have kept := resetSupervisors_powering { (s.at t).supplied with clk := { s.clk with exitAt := none } }
    simp only [State.powering, Prod.mk.injEq] at kept
    obtain ⟨phase, power, clk⟩ := kept
    rw [exec_vsupValid vsup, if_neg (by simp [reset]), if_pos ⟨reset, resetN⟩]
    exact ⟨_, rfl, by rw [power]; rfl, phase.trans reset, by rw [clk], fun g supplied => resetSupervisors_cfg supplied⟩
  case returns =>
    rw [exec_vsupValid vsup, if_neg powered, if_neg (fun held => by simp [free held.1] at held)]
    exact ⟨_, rfl, rfl⟩
  case exhausted =>
    change ∃ s', execHoldUpExhausted t s = .next s' ∧ _
    unfold execHoldUpExhausted
    exact ⟨_, congrArg Host.Outcome.next (if_pos ⟨vsup, powered⟩), rfl, powerDown_nvMem _, rfl, rfl⟩
  case charges =>
    rw [exec_holdUpCharged vsup steward judged pf ready]
    refine ⟨_, rfl, ?_⟩
    split
    case isTrue lost =>
      exact ⟨rfl, start_ready _, Nv.start_mem _, ⟨rfl, rfl, rfl⟩, fun _ => start_writes _⟩
    case isFalse kept =>
      exact ⟨rfl, start_ready _, Nv.start_mem _, ⟨rfl, rfl, rfl⟩, fun lost => absurd lost kept⟩

/-! ### Temperature (R26) -/

/-- A threshold flag with hysteresis: set above `high`, cleared at or below `low`, else as it was. -/
def hysteresis (high low x : Int) (was : Bool) : Bool := if high < x then true else if x ≤ low then false else was

/-- A measurement that sets a threshold flag for the first time is reported; it changes the flag and the guestbook only. -/
theorem crossing_eq {s : State} {flagged : Bool → State} {was : Bool} (same : flagged was = s) {high low : Int} (band : low ≤ high) (x : Int)
    (src : Nat) (sev : BitVec 2) (ws : List Word) : ∃ gb,
    (if high < x ∧ was = false then (flagged true).gbEvent 0x08 src sev ws else if x ≤ low then flagged false else s) =
      { flagged (hysteresis high low x was) with gb := gb } := by
  by_cases above : high < x
  · rw [hysteresis, if_pos above]
    cases was
    case false => exact ⟨_, (if_pos ⟨above, rfl⟩).trans (gbEvent_alone ..)⟩
    case true =>
      rw [if_neg (by simp), if_neg (by omega)]
      exact ⟨_, same.symm⟩
  · rw [if_neg (fun c => above c.1), hysteresis, if_neg above]
    split
    · exact ⟨_, rfl⟩
    · exact ⟨_, same.symm⟩

/-- The threshold of 85 °C is judged (R26). -/
def State.judge85 (s : State) (x : Int) : State :=
  if 8500 < x ∧ s.pwr.over85 = false then
    ({ s with pwr := { s.pwr with over85 := true } } : State).gbEvent 0x08 0 sevNotice [BitVec.ofInt 32 x]
  else if x ≤ 8000 then { s with pwr := { s.pwr with over85 := false } } else s

/-- The threshold of 95 °C is judged (R26). -/
def State.judge95 (s : State) (x : Int) : State :=
  if 9500 < x ∧ s.pwr.over95 = false then
    ({ s with pwr := { s.pwr with over95 := true } } : State).gbEvent 0x08 0 sevFault [BitVec.ofInt 32 x]
  else if x ≤ 9000 then { s with pwr := { s.pwr with over95 := false } } else s

theorem judge85_eq (s : State) (x : Int) : ∃ gb,
    s.judge85 x = { s with pwr := { s.pwr with over85 := hysteresis 8500 8000 x s.pwr.over85 }, gb := gb } :=
  crossing_eq (flagged := fun b => { s with pwr := { s.pwr with over85 := b } }) rfl (by decide) x 0 sevNotice [BitVec.ofInt 32 x]

theorem judge95_eq (s : State) (x : Int) : ∃ gb,
    s.judge95 x = { s with pwr := { s.pwr with over95 := hysteresis 9500 9000 x s.pwr.over95 }, gb := gb } :=
  crossing_eq (flagged := fun b => { s with pwr := { s.pwr with over95 := b } }) rfl (by decide) x 0 sevFault [BitVec.ofInt 32 x]

theorem exec_temperatureMeasure {s : State} (steward : s.steward = true) (t : Nat) (x : Int) : ∃ gb, exec (.temperatureMeasure t x) s =
    .next { s.at t with
      pwr := { s.pwr with temp := x, over85 := hysteresis 8500 8000 x s.pwr.over85, over95 := hysteresis 9500 9000 x s.pwr.over95 }
      gb := gb } := by
  have run : exec (.temperatureMeasure t x) s =
      .next ((State.judge85 { s.at t with pwr := { s.pwr with temp := x } } x).judge95 x) := if_pos steward
  obtain ⟨gb₁, over85⟩ := judge85_eq { s.at t with pwr := { s.pwr with temp := x } } x
  obtain ⟨gb₂, over95⟩ := judge95_eq (State.judge85 { s.at t with pwr := { s.pwr with temp := x } } x) x
  rw [run, over95, over85]
  exact ⟨gb₂, rfl⟩

/-! ### Pins (R36, R38 to R40) -/

theorem exec_perstNAssert {s : State} (high : s.pwr.perstN = false) (t : Nat) : ∃ gb, exec (.perstNAssert t) s =
    .next { s.at t with
      pwr := { s.pwr with perstN := true }
      host := { HostIf.init with gen := s.host.gen, lateVec6 := s.host.lateVec6 }
      gb := gb } := by
  change ∃ gb, execPerstNAssert t s = _
  have pinned : ∃ gb, (if s.steward then ({ s.at t with pwr := { s.pwr with perstN := true } } : State).gbEvent 0x09 2 sevNotice
      [barWord { s.at t with pwr := { s.pwr with perstN := true } } 0x0804] else { s.at t with pwr := { s.pwr with perstN := true } }) =
        { s.at t with pwr := { s.pwr with perstN := true }, gb := gb } := by
    split
    · exact ⟨_, gbEvent_alone ..⟩
    · exact ⟨_, rfl⟩
  obtain ⟨gb, pinned⟩ := pinned
  exact ⟨gb, (if_neg (by simp [high])).trans (congrArg (fun s => Host.Outcome.next (State.endpointReset s)) pinned)⟩

/-- The level of QUIET_IN. -/
def State.setQuiet (s : State) (q : Bool) : State := { s with pwr := { s.pwr with quietIn := q } }

/-- No attempt of a queued frame goes on (R325). -/
def Can.unattempted (c : Can) : Can := { c with queue := c.queue.map fun q => { q with attempt := false } }

/-- What QUIET_IN does before a primary falls out: outputs are driven anew, attempts end, and ports change mode (R40, R325). -/
def State.quieted (s : State) : State := ((s.setQuiet true).driveAll.mapCans Can.unattempted).canRefreshAll

theorem exec_quietInAssert {s : State} (off : s.pwr.quietIn = false) (t : Nat) : exec (.quietInAssert t) s =
    .next (if (s.at t).quieted.steward && (s.at t).quieted.pair.role == 1
      then ((s.at t).quieted.becomeOut 7 sevNotice).pairEvent evQuieted else (s.at t).quieted) := by
  change execQuietInAssert t s = _
  unfold execQuietInAssert
  rw [if_neg (by simp [off])]
  unfold State.quieted State.setQuiet
  rfl

theorem mapCans_unattempted_undriven (s : State) : (s.mapCans Can.unattempted).undriven = s.undriven := by
  have same : (s.cans.map Can.unattempted).map Can.timetable = s.cans.map Can.timetable := by rw [Vector.map_map]; rfl
  exact congrArg (fun cs => { s.undriven with cans := cs }) same

/-- QUIET_IN drives the field anew, and everything else goes on. -/
theorem quieted_undriven (s : State) : s.quieted.undriven = (s.setQuiet true).undriven :=
  (canRefreshAll_undriven _).trans ((mapCans_unattempted_undriven _).trans (driveAll_undriven _))

theorem quieted_silences {s : State} {n : ChanId} {e : ChanCfg} (entry : s.chans[n].cfg = some e) (dout : e.isDout = true) :
    s.quieted.Silenced n e := by
  have driven : (s.setQuiet true).driveAll.Silenced n e := driveAll_silences (s := s.setQuiet true) ⟨rfl, entry⟩ dout
  exact driven.congr ((canRefreshAll_key State.chans (fun _ _ _ => rfl) _).trans (State.mapCans_chans ..))
    ((canRefreshAll_key State.pwr (fun _ _ _ => rfl) _).trans (State.mapCans_pwr ..))

theorem pairEvent_silenced {s : State} {n : ChanId} {e : ChanCfg} (h : s.Silenced n e) (b : Nat) : (s.pairEvent b).Silenced n e :=
  h.congr (chans_of_unreported (pairEvent_unreported s b) :) (congrArg State.pwr (pairEvent_unreported s b) :)

theorem pairEvent_pwr (s : State) (b : Nat) : (s.pairEvent b).pwr = s.pwr := pwr_of_going (pairEvent_going s b)

theorem quieted_steward (s : State) : s.quieted.steward = s.steward := (steward_of_undriven (quieted_undriven s) :)
theorem quieted_pair (s : State) : s.quieted.pair = s.pair := (pair_of_undriven (quieted_undriven s) :)
theorem quieted_quietIn (s : State) : s.quieted.pwr.quietIn = true := by rw [pwr_of_undriven (quieted_undriven s)]; rfl

/-- QUIET_IN is asserted: a primary falls out after its outputs are OFF, and they stay so (R40, R382). -/
theorem quietInAssert_silences {s : State} (quiet : s.pwr.quietIn = false) (t : Nat) : ∃ s', exec (.quietInAssert t) s = .next s' ∧
    s'.pwr.quietIn = true ∧ (∀ n e, s.chans[n].cfg = some e → e.isDout = true → s'.Silenced n e) ∧
    (s.steward = true → s.pair.role = 1 → s'.pair.role = 3 ∧ s'.app.running = false) := by
  have silenced (n : ChanId) (e : ChanCfg) (entry : s.chans[n].cfg = some e) (dout : e.isDout = true) : (s.at t).quieted.Silenced n e :=
    quieted_silences (s := s.at t) entry dout
  refine ⟨_, exec_quietInAssert quiet t, ?_⟩
  rw [quieted_steward, quieted_pair, State.at_steward, State.at_pair]
  split
  case isTrue primary =>
    refine ⟨by rw [pairEvent_pwr, becomeOut_pwr, quieted_quietIn], fun n e entry dout => ?_, fun _ _ => ⟨?_, ?_⟩⟩
    · exact pairEvent_silenced (becomeOut_silences (silenced n e entry dout).1 dout ..) _
    · rw [pairEvent_role, becomeOut_role]
    · rw [app_of_going (pairEvent_going ..), becomeOut_running]
  case isFalse other => exact ⟨quieted_quietIn _, silenced, fun steward role => absurd (by simp [steward, role]) other⟩

theorem isDout_iff {e : ChanCfg} : e.isDout = true ↔ e.mode = 8 ∨ e.mode = 9 := by
  simp [ChanCfg.isDout]

theorem exec_quietInDeassert (s : State) (t : Nat) :
    exec (.quietInDeassert t) s = .next ((s.at t).setQuiet false).driveAll.canRefreshAll := rfl

/-- During a reset whose end is due within 1 ms ROLEPREF holds its sample, the level before its first change (R39). -/
theorem setPref_sample {s : State} {e : Nat} (reset : s.phase = .inReset) (exit : s.clk.exitAt = some e) (pin : Bool) :
    (s.setPref pin).pwr.prefSample = if e ≤ s.now + 400000 then some (s.pwr.prefSample.getD s.pwr.rolePrefPin) else none := by
  unfold State.setPref
  rw [reset, exit]
  by_cases due : e ≤ s.now + 400000 <;> cases s.pwr.prefSample <;> simp [msCycles, due]

theorem pinsAndTemperature : Stated.PinsAndTemperature := by
  intro s t x pins
  refine ⟨fun high => ?asserted, ⟨_, rfl, rfl, rfl, ⟨rfl, rfl, rfl⟩, ⟨rfl, rfl, rfl, rfl⟩⟩, fun steward => ?temperature,
    fun quiet => ?quieted, ?unquieted, ?present⟩
  case asserted =>
    obtain ⟨gb, run⟩ := exec_perstNAssert high t
    exact ⟨_, run, rfl⟩
  case temperature =>
    obtain ⟨gb, run⟩ := exec_temperatureMeasure steward t x
    exact ⟨_, run, rfl, ⟨rfl, rfl, rfl⟩, ⟨rfl, rfl, rfl, rfl⟩, rfl, rfl⟩
  case quieted =>
    obtain ⟨s', run, quietIn, silenced, out⟩ := quietInAssert_silences quiet t
    exact ⟨s', run, quietIn, fun n e entry mode => (silenced n e entry (isDout_iff.mpr mode)).2, out⟩
  case unquieted =>
    have kept := (canRefreshAll_undriven _).trans (driveAll_undriven ((s.at t).setQuiet false))
    have going := going_of_undriven kept
    exact ⟨_, exec_quietInDeassert s t, by rw [pwr_of_undriven kept]; rfl, (pair_of_undriven kept :), (lanesKept_of_going going :),
      (app_of_going going :)⟩
  case present =>
    refine ⟨_, rfl, rfl, rfl, rfl, rfl, rfl, fun e reset exit => ?_, ⟨rfl, rfl, rfl⟩, ⟨rfl, rfl, rfl, rfl⟩⟩
    rw [setPref_sample (s := s.at t) reset exit]
    rfl

/-- Settles O17: supplies by what `powerDown`, `abandon` and `enterReset` leave; temperature by one hysteresis for both thresholds; QUIET_IN
because driving every output anew under it turns it OFF, once before and once after a primary falls out. -/
theorem supplyAndPins : Obligations.SupplyAndPins := ⟨supplyEvents, pinsAndTemperature⟩

end Sys2Proof.Machine
end

section
/-! PROOFS. The fields of structures of bytes (R3), the completion of a command that awaited its end (R349, R350), and the post road with its
HELLO and HEARTBEAT (R375 to R378, R404). -/

namespace Sys2Proof.Machine

/-! ### Fields of a structure (R3) -/

@[simp] theorem length_toLe (k n : Nat) : (toLe k n).length = k := by
  induction k generalizing n with
  | zero => rfl
  | succ k ih => simp [toLe, ih]

@[simp] theorem ofLe_toLe (k n : Nat) : ofLe (toLe k n) = n % 256 ^ k := by
  induction k generalizing n with
  | zero => simp [toLe, ofLe, Nat.mod_one]
  | succ k ih => rw [toLe, ofLe, ih, pow_succ', Nat.mod_mul, BitVec.toNat_ofNat]

@[simp] theorem length_slice (bs : List Byte) (i n : Nat) : (slice bs i n).length = n := by
  induction n generalizing i with
  | zero => rfl
  | succ n ih => simp [slice, ih]

theorem slice_cons_succ (b : Byte) (bs : List Byte) (i n : Nat) : slice (b :: bs) (i + 1) n = slice bs i n := by
  induction n generalizing i with
  | zero => rfl
  | succ n ih => rw [slice, slice, ih]; rfl

theorem slice_all (bs : List Byte) : slice bs 0 bs.length = bs := by
  induction bs with
  | nil => rfl
  | cons b bs ih => rw [List.length_cons, slice, slice_cons_succ, ih]; rfl

@[simp] theorem slice_append_left (xs ys : List Byte) {i n : Nat} (h : i + n ≤ xs.length) : slice (xs ++ ys) i n = slice xs i n := by
  induction n generalizing i with
  | zero => rfl
  | succ n ih =>
    have first : byteAt (xs ++ ys) i = byteAt xs i := List.getD_append _ _ _ _ (by omega)
    rw [slice, slice, first, ih (by omega)]

@[simp] theorem slice_append_right (xs ys : List Byte) {i : Nat} (n : Nat) (h : xs.length ≤ i) :
    slice (xs ++ ys) i n = slice ys (i - xs.length) n := by
  induction n generalizing i with
  | zero => rfl
  | succ n ih =>
    have first : byteAt (xs ++ ys) i = byteAt ys (i - xs.length) := List.getD_append_right _ _ _ _ h
    rw [slice, slice, first, ih (by omega), Nat.succ_sub h]

@[simp] theorem slice_toLe (k n : Nat) : slice (toLe k n) 0 k = toLe k n := by
  simpa only [length_toLe] using slice_all (toLe k n)

theorem u8_eq_ofLe (bs : List Byte) (i : Nat) : u8 bs i = ofLe (slice bs i 1) := by simp [u8, slice, ofLe]

/-! ### The end of a command (R349, R350) -/

theorem length_completionBytes (c : Completion) (cycle index n : Nat) : (completionBytes c cycle index n).length = 16 := by
  simp [completionBytes]

/-- A completion carries the tag, the status and the first eight bytes of the result (R349). -/
theorem completionBytes_fields (c : Completion) (cycle index n : Nat) :
    u16 (completionBytes c cycle index n) 0 = c.ref.tag.toNat ∧ u16 (completionBytes c cycle index n) 2 = c.status.toNat ∧
      slice (completionBytes c cycle index n) 4 8 = slice c.result 0 8 := by
  have tag : c.ref.tag.toNat % 256 ^ 2 = c.ref.tag.toNat := Nat.mod_eq_of_lt c.ref.tag.isLt
  have status : c.status.toNat % 256 ^ 2 = c.status.toNat := Nat.mod_eq_of_lt c.status.isLt
  have result : slice (slice c.result 0 8) 0 8 = slice c.result 0 8 := by
    simpa only [length_slice] using slice_all (slice c.result 0 8)
  simp [completionBytes, u16, tag, status, result, -Nat.reducePow]

theorem writeCompletion_inProg (s : State) (q : RingId) (c : Completion) : (s.writeCompletion q c).host.inProg = s.host.inProg := by
  unfold State.writeCompletion
  dsimp only
  split <;> rfl

theorem writeCompletion_written (s : State) (q : RingId) (c : Completion) : ∃ bs, CompletionWritten s (s.writeCompletion q c) q bs ∧
    u16 bs 0 = c.ref.tag.toNat ∧ u16 bs 2 = c.status.toNat ∧ slice bs 4 8 = slice c.result 0 8 := by
  refine ⟨completionBytes c s.cycle s.host.cqTail[q].toNat (2 ^ (vget s.host.rings (8 + q.val) RingCfg.init).logn),
    ⟨length_completionBytes .., ?_⟩, completionBytes_fields ..⟩
  unfold State.writeCompletion
  dsimp only
  split <;> simp [State.emit, State.raiseLater]

/-- A command that has ended is off its ring. -/
theorem complete_inProg {s : State} {ref : CmdRef} (active : s.host.active = true) (inProg : s.host.inProg[ref.ring] = some ref)
    (status : BitVec 16) (result : List Byte) : (s.complete ref status result).host.inProg = upd s.host.inProg ref.ring (fun _ => none) := by
  unfold State.complete
  dsimp only
  rw [if_pos ⟨active, inProg⟩]
  split
  · rw [writeCompletion_inProg]
  · split <;> rfl

/-- The end of a command takes it off its ring, and its completion is written when there is room (R349, R351). -/
theorem complete_finishes (s : State) (ref : CmdRef) (status : BitVec 16) (result : List Byte) :
    Finishes s (s.complete ref status result) ref status result := by
  intro active inProg
  refine ⟨?_, fun master room free => ?_⟩
  · simp only [complete_inProg active inProg]
    exact getElem_upd_self ..
  · unfold State.complete
    dsimp only
    rw [if_pos ⟨active, inProg⟩, if_pos ⟨master, room, free⟩]
    exact writeCompletion_written { s with host := { s.host with inProg := upd s.host.inProg ref.ring fun _ => none } } _ _

/-! ### HELLO and HEARTBEAT (R377, R378) -/

/-- A HELLO tells serial number, role and epoch (R377). -/
theorem helloBytes_fields (s : State) : u64 s.helloBytes 0 = Config.serial.toNat ∧ u8 s.helloBytes 11 = s.pair.role.toNat ∧
    u32 s.helloBytes 20 = s.pair.epoch.toNat := by
  have serial : Config.serial.toNat % 256 ^ 8 = Config.serial.toNat := Nat.mod_eq_of_lt Config.serial.isLt
  have role : s.pair.role.toNat % 256 = s.pair.role.toNat := Nat.mod_eq_of_lt (s.pair.role.isLt.trans (by decide))
  have epoch : s.pair.epoch.toNat % 256 ^ 4 = s.pair.epoch.toNat := Nat.mod_eq_of_lt s.pair.epoch.isLt
  simp [State.helloBytes, u64, u8_eq_ofLe, u32, serial, role, epoch, -Nat.reducePow]

/-- The state bits of a HEARTBEAT in one byte read back (R378). -/
theorem stateBits (a b c d : Bool) : (b2n a + 2 * b2n b + 4 * b2n c + 8 * b2n d) % 256 = b2n a + 2 * b2n b + 4 * b2n c + 8 * b2n d ∧
    bit (b2n a + 2 * b2n b + 4 * b2n c + 8 * b2n d) 2 = c ∧ bit (b2n a + 2 * b2n b + 4 * b2n c + 8 * b2n d) 1 = b := by
  revert a b c d
  decide

/-- TB fits its eight bytes (R56). -/
theorem tb_mod (s : State) : s.tb % 256 ^ 8 = s.tb := by
  have bound := Int.emod_lt_of_pos ((s.now : Int) - s.tb0 + s.pair.tbOff) (b := ((2 ^ 64 : Nat) : Int)) (by decide)
  refine Nat.mod_eq_of_lt ?_
  unfold State.tb
  omega

/-- A HEARTBEAT tells TB, cycle number, role, state bits and the TB of the last one received (R378). -/
theorem heartbeatBytes_fields (s : State) : u64 s.heartbeatBytes 0 = s.tb ∧ u48 s.heartbeatBytes 8 = s.cycle % 2 ^ 48 ∧
    u8 s.heartbeatBytes 14 = s.pair.role.toNat ∧ bit (u8 s.heartbeatBytes 15) 2 = s.app.running ∧
    bit (u8 s.heartbeatBytes 15) 1 = s.pwr.quietIn ∧ u64 s.heartbeatBytes 16 = s.pair.hbTb.toNat := by
  have role : s.pair.role.toNat % 256 = s.pair.role.toNat := Nat.mod_eq_of_lt (s.pair.role.isLt.trans (by decide))
  have last : s.pair.hbTb.toNat % 256 ^ 8 = s.pair.hbTb.toNat := Nat.mod_eq_of_lt s.pair.hbTb.isLt
  obtain ⟨whole, run, quiet⟩ := stateBits s.pwr.quietOut s.pwr.quietIn s.app.running s.pair.rsync
  have six : 256 ^ 6 = 2 ^ 48 := by decide
  simp [State.heartbeatBytes, u64, u48, u8_eq_ofLe, tb_mod, six, role, last, whole, run, quiet, -Nat.reducePow]

/-! ### The post road (R375 to R378, R384, R385, R404) -/

theorem writeRole_writes (s : State) : s.writeRole.nv.writes = s.nv.writes + 1 := start_writes _

theorem ofNat_fld {w : Nat} (n lo : Nat) : BitVec.ofNat w (fld n lo w) = BitVec.ofNat w (n / 2 ^ lo) :=
  BitVec.eq_of_toNat_eq (by simp [fld])

/-- PAIR_CFG takes its three fields and is stored in the role record (R404). -/
theorem exec_pairCfgWrite {s : State} (steward : s.steward = true) (t : Nat) (val : Word) : exec (.pairCfgWrite t val) s =
    .next (State.writeRole { s.at t with pair := { s.pair with
      hold := BitVec.ofNat 12 (val.toNat % 2 ^ 12)
      dtime := BitVec.ofNat 10 (val.toNat / 2 ^ 12 % 2 ^ 10)
      agelim := BitVec.ofNat 10 (val.toNat / 2 ^ 22) } }) := by
  have hold : fld val.toNat 0 12 = val.toNat % 2 ^ 12 := by simp [fld]
  change execPairCfgWrite t val s = _
  unfold execPairCfgWrite
  dsimp only
  rw [State.at_steward, if_pos steward, hold, ofNat_fld val.toNat 22]
  rfl

theorem sendHello_trained {s : State} (trained : s.pair.trained = true) : s.sendHello = s.emit (.frame 1 s.helloBytes) := if_pos trained

theorem sendFrame_linked {s : State} (link : s.pair.link = true) (typ : Nat) (bs : List Byte) : s.sendFrame typ bs = s.emit (.frame typ bs) :=
  if_pos link

/-- The partner's lanes end here and the clock is judged: the post road may train (R59, R375, R384). -/
def State.mayTrain (s : State) : Prop := s.pwr.pairPresent = true ∧ s.pair.partnerPwr = true ∧ s.clk.judged = true

/-- The lanes have trained and nothing of an earlier partner is left (R375). -/
def Pair.trainedAnew (p : Pair) : Pair :=
  { p with trained := true, trains := satInc p.trains, partner := Partner.init, sent := [], waySent := none }

theorem exec_postRoadLinkUp {s : State} (steward : s.steward = true) (pair : s.inPair = true) (may : s.mayTrain)
    (untrained : s.pair.trained = false) (t : Nat) :
    exec (.postRoadLinkUp t) s = .next (State.sendHello { s.at t with pair := s.pair.trainedAnew }) := by
  obtain ⟨present, partner, judged⟩ := may
  exact if_pos ⟨steward, pair, present, partner, judged, untrained⟩

theorem exec_postRoadLinkUp_blocked {s : State} (blocked : ¬s.mayTrain) (t : Nat) : exec (.postRoadLinkUp t) s = .next (s.at t) :=
  if_neg fun ⟨_, _, present, partner, judged, _⟩ => blocked ⟨present, partner, judged⟩

/-- The road is down: the partner is to be heard anew, and an attempt to resynchronise has ended (R375, R398). -/
def Pair.down (p : Pair) : Pair :=
  { p with
    link := false, trained := false, rsync := false, locked := false, passDone := false, sent := [], joinRef := none
    partner := { p.partner with hello := false } }

theorem exec_postRoadLinkDown (s : State) (t : Nat) : exec (.postRoadLinkDown t) s =
    .next (State.completeOpt { s.at t with pair := s.pair.down } s.pair.joinRef 0x0707 []) := rfl

theorem completeOpt_lanesKept (s : State) (ref : Option CmdRef) (st : BitVec 16) (res : List Byte) :
    LanesKept s (s.completeOpt ref st res) :=
  lanesKept_of_going (going_of_undriven (undriven_of_unreported (completeOpt_unreported s ref st res)))

/-- What a HELLO received leaves of the pair before a relief out of step begins to resynchronise (R385). -/
def State.greeted (s : State) (bs : List Byte) : State :=
  let s := { s with pair := { s.pair with link := true, partner := s.pair.partner.hear bs } }
  { s with pair := { s.pair with cfgdiff := s.cfgDiffers } }

/-- A relief out of step goes on to resynchronise, or begins anew (R396). -/
def State.resumeSync (s : State) : State :=
  if s.pair.role ≠ 3 then s
  else if s.pair.rsync then { s with pair := { s.pair with rsync := s.maySync } }
  else s.restartSync

theorem exec_hello {s : State} (steward : s.steward = true) (trained : s.pair.trained = true) (t : Nat) (bs : List Byte) :
    exec (.hello t bs) s = .next ((s.at t).greeted bs).resumeSync.offerWaybill := if_pos ⟨steward, trained⟩

/-- The state without what a HELLO may set off: the figures of resynchronisation and of the waybill offered, and what goes out. -/
def State.greeting (s : State) : State :=
  { s with out := [], pair := { s.pair with waySent := none }.resyncing false }

theorem sendFrame_greeting (s : State) (typ : Nat) (bs : List Byte) : (s.sendFrame typ bs).greeting = s.greeting := by
  unfold State.sendFrame
  split <;> rfl

theorem offerWaybill_greeting (s : State) : s.offerWaybill.greeting = s.greeting := by
  unfold State.offerWaybill
  dsimp only
  split
  · rfl
  · rw [apply_ite State.greeting, foldl_keeps_key State.greeting fun s b => sendFrame_greeting s 6 b]
    exact ite_self s.greeting

theorem resumeSync_greeting (s : State) : s.resumeSync.greeting = s.greeting := by
  unfold State.resumeSync
  split
  · rfl
  · split <;> rfl

/-- A heartbeat that is due goes out while the module runs on and the road is up; only a primary's trim may change with it (R374, R378). -/
theorem exec_heartbeatSend {s : State} (awake : s.awake = true) (goes : s.halted = false) (ticks : s.pwr.pf ≠ .lastTick)
    (link : s.pair.link = true) (t : Nat) : ∃ trim, exec (.heartbeatSend t) s =
      .next { s.at t with out := s.out ++ [.frame 2 (s.at t).heartbeatBytes], pair := { s.pair with trim := trim } } := by
  change ∃ trim, execHeartbeatSend t s = _
  unfold execHeartbeatSend
  dsimp only
  rw [if_pos ⟨awake, goes, ticks⟩, sendFrame_linked (s := s.at t) link]
  split <;> exact ⟨_, rfl⟩

/-- Settles O48: what goes out is one frame whose fields read back; the loss of the road ends the command that awaited a join; a HELLO
received changes nothing beyond the pair and what goes out. -/
theorem postRoad : Obligations.PostRoad := by
  intro s t val bs
  refine ⟨fun steward => ?cfg, fun steward pair present partner judged untrained => ?up, fun steward blocked => ?blocked, ?down,
    ⟨_, rfl, rfl⟩, fun steward trained => ?helloSend, fun steward trained => ?hello, fun awake goes ticks link => ?heartbeat,
    fun still => ?still⟩
  case cfg =>
    exact ⟨_, exec_pairCfgWrite steward t val, (pair_of_unreported (writeRole_unreported _)).trans rfl, writeRole_writes _, rfl, rfl, rfl⟩
  case up =>
    have run := exec_postRoadLinkUp steward pair ⟨present, partner, judged⟩ untrained t
    rw [sendHello_trained rfl] at run
    obtain ⟨serial, role, -⟩ := helloBytes_fields { s.at t with pair := s.pair.trainedAnew }
    exact ⟨_, _, run, rfl, rfl, rfl, rfl, rfl, rfl, rfl, serial, role, rfl, rfl, rfl⟩
  case blocked =>
    refine ⟨_, exec_postRoadLinkUp_blocked ?_ t, rfl⟩
    rintro ⟨present, partner, judged⟩
    simp [present, partner, judged] at blocked
  case down =>
    have pair := completeOpt_pair { s.at t with pair := s.pair.down } s.pair.joinRef 0x0707 []
    refine ⟨_, exec_postRoadLinkDown s t, ?_, ?_, ?_, ?_, ?_, ?_,
      (completeOpt_lanesKept { s.at t with pair := s.pair.down } ..), fun ref waiting => ?finishes⟩
    case finishes =>
      rw [waiting]
      exact complete_finishes { s.at t with pair := s.pair.down } ref 0x0707 []
    all_goals rw [pair]; rfl
  case helloSend =>
    have run : exec (.helloSend t) s = .next (s.at t).sendHello := congrArg Host.Outcome.next (if_pos steward)
    rw [sendHello_trained (s := s.at t) trained] at run
    exact ⟨_, _, run, rfl, helloBytes_fields (s.at t)⟩
  case hello =>
    have kept := (offerWaybill_greeting _).trans (resumeSync_greeting ((s.at t).greeted bs))
    have pair := congrArg State.pair kept
    refine ⟨_, exec_hello steward trained t bs, congrArg Pair.link pair, congrArg (fun p => p.partner.hello) pair,
      congrArg (fun p => p.partner.role) pair, congrArg (fun p => p.partner.serial) pair, congrArg (fun p => p.partner.cfgid) pair,
      congrArg (fun p => p.partner.stored) pair, (congrArg Pair.role pair :), (congrArg State.app kept :), ?_, ?_⟩
    · exact ⟨(congrArg State.rooms kept :), (congrArg State.dmem kept :), (congrArg State.img kept :)⟩
    · exact ⟨(congrArg State.chans kept :), (congrArg State.groups kept :), (congrArg State.spare kept :), (congrArg State.cans kept :)⟩
  case heartbeat =>
    obtain ⟨trim, run⟩ := exec_heartbeatSend awake goes ticks link t
    exact ⟨_, _, run, rfl, heartbeatBytes_fields (s.at t)⟩
  case still =>
    refine ⟨_, if_neg ?_, rfl⟩
    rintro ⟨-, (goes : s.halted = false), ticks⟩
    exact still.elim (by simp [goes]) ticks

end Sys2Proof.Machine
end

section
/-! PROOFS. What a reset clears and keeps (R66, R67, R98, R413), and its end (R35, R39, R69). -/

namespace Sys2Proof.Machine

/-! ### What the field's drive leaves alone -/

/-- The state without the field and what a latched bit of it reports: channels, groups, ports, guestbook, marks, and of the host interface
vector 6, which waits while the steward does not run (R267). -/
def State.fieldless (s : State) : State :=
  { s with
    chans := Vector.replicate 192 Chan.init
    groups := Vector.replicate 12 Group.init
    cans := Vector.replicate 4 Can.init
    gb := Guest.init
    marks := []
    host := if s.steward then HostIf.init else { s.host with lateVec6 := false } }

theorem channelEvent_fieldless (s : State) (typ src : Nat) (sev : BitVec 2) (offs : List Nat) :
    (s.channelEvent typ src sev offs).fieldless = s.fieldless := by
  unfold State.channelEvent
  split
  case isTrue steward =>
    rw [gbEvent_alone, State.fieldless, if_pos (by exact steward), State.fieldless, if_pos steward]
    rfl
  case isFalse => rfl

theorem updGrp_fieldless (s : State) (g : GrpId) (f : Group → Group) : (s.updGrp g f).fieldless = s.fieldless := rfl
theorem updChan_fieldless (s : State) (n : ChanId) (f : Chan → Chan) : (s.updChan n f).fieldless = s.fieldless := rfl

theorem latchRate_fieldless (s : State) (n : ChanId) : (s.latchRate n).fieldless = s.fieldless := by
  unfold State.latchRate State.latchChan
  dsimp only
  split
  · rfl
  · exact channelEvent_fieldless ..

theorem driveChan_fieldless (s : State) (n : ChanId) (commit : Bool) : (s.driveChan n commit).fieldless = s.fieldless := by
  rcases driveChan_eq s n commit with eq | eq <;> rw [eq]
  · rfl
  · exact latchRate_fieldless ..

theorem driveGroup_fieldless (s : State) (g : GrpId) : (s.driveGroup g).fieldless = s.fieldless :=
  foldl_keeps_key State.fieldless (fun s n => driveChan_fieldless s n false) (chansOf g) s

theorem driveAll_fieldless (s : State) : s.driveAll.fieldless = s.fieldless :=
  foldl_keeps_key State.fieldless driveGroup_fieldless (fins 12) s

theorem withholdAll_fieldless (s : State) : s.withholdAll.fieldless = s.fieldless := by
  unfold State.withholdAll
  exact foldl_keeps_key State.fieldless (fun _ _ => updGrp_fieldless ..) (fins 12) s

theorem resetSupervisor_fieldless (s : State) (g : GrpId) : (s.resetSupervisor g).fieldless = s.fieldless := by
  unfold State.resetSupervisor
  split
  · rw [driveGroup_fieldless, foldl_keeps_key State.fieldless fun _ _ => updChan_fieldless .., updGrp_fieldless]
  · rfl

theorem resetSupervisors_fieldless (s : State) : s.resetSupervisors.fieldless = s.fieldless := by
  rw [resetSupervisors_eq]
  exact foldl_keeps_key State.fieldless resetSupervisor_fieldless (fins 12) s

/-! ### The entry of a reset (R66, R67) -/

/-- Supplies and pins after the entry of a reset (R31, R34, R50). -/
def Power.enter (p : Power) (cause : BitVec 8) : Power :=
  { p with
    charged := p.charged && cause != 1 && cause != 2
    pf := .none
    pfwarn := cause == 1 || cause == 2 || !p.vsup || p.pf != PfStep.none
    faultN := true
    faultAt := none
    faultHold := (p.faultHold && cause != 1) || faultCause cause
    prefSample := none
    quietOut := false }

/-- The state that a reset enters, before the outputs are driven anew. -/
def State.entering (s : State) (cause : BitVec 8) (hold : Bool) (recent : List Nat) : State :=
  { s.clear (cause == 1) with
    phase := .inReset
    app := { (s.clear (cause == 1)).app with hold := hold }
    clk := s.clk.enter cause s.clk.cause s.clk.total recent s.now s.pwr.resetN
    pwr := s.pwr.enter cause }

theorem enterReset_entering {s : State} (out : s.phase ≠ .inReset) (cause : BitVec 8) : ∃ hold recent,
    (s.enterReset cause).fieldless = (s.entering cause hold recent).fieldless := by
  have first : (s.phase != .inReset) = true := bne_iff_ne.mpr out
  unfold State.enterReset
  dsimp only
  rw [first, Bool.true_or, Bool.true_or, if_pos rfl]
  rw [canRefreshAll_key State.fieldless fun _ _ _ => rfl, driveAll_fieldless, withholdAll_fieldless, apply_ite State.fieldless,
    resetSupervisors_fieldless, ite_self]
  exact ⟨_, _, rfl⟩

theorem clear_keeps (s : State) (power : Bool) :
    (s.clear power).now = s.now ∧ (s.clear power).pending = s.pending ∧ (s.clear power).app.stored = s.app.stored := by
  unfold State.clear
  dsimp only
  split <;> exact ⟨rfl, rfl, rfl⟩

theorem enterReset_now {s : State} (out : s.phase ≠ .inReset) (cause : BitVec 8) : (s.enterReset cause).now = s.now := by
  obtain ⟨hold, recent, eq⟩ := enterReset_entering out cause
  obtain ⟨now, -, -⟩ := clear_keeps s (cause == 1)
  exact (congrArg State.now eq).trans now

theorem enterReset_pwr {s : State} (out : s.phase ≠ .inReset) (cause : BitVec 8) : (s.enterReset cause).pwr = s.pwr.enter cause := by
  obtain ⟨hold, recent, eq⟩ := enterReset_entering out cause
  exact (congrArg State.pwr eq :)

/-- The clock and reset registers of a reset entered from outside one. -/
theorem enterReset_clk {s : State} (out : s.phase ≠ .inReset) (cause : BitVec 8) : (s.enterReset cause).phase = .inReset ∧
    ∃ recent, (s.enterReset cause).clk = s.clk.enter cause s.clk.cause s.clk.total recent s.now s.pwr.resetN := by
  obtain ⟨recent, pwr, entered, -⟩ := enterReset_powering out cause
  simp only [State.powering, Prod.mk.injEq] at entered
  obtain ⟨phase, -, clk⟩ := entered
  exact ⟨phase, recent, clk⟩

/-- Reset has been entered from s with a cause: the previous one and the total follow, what a reset clears is clear, and the stored
configuration, the NV content and the queue are kept (R66 to R68). -/
def State.Entered (s s' : State) (cause : BitVec 8) : Prop :=
  s'.phase = .inReset ∧ s'.clk.cause = cause ∧ s'.clk.prev = s.clk.cause ∧ s'.clk.total = satInc s.clk.total ∧
    s'.rooms = Vector.replicate 100 Room.init ∧ s'.dmem = [] ∧ s'.img = Image.init ∧ { s'.host with lateVec6 := false } = HostIf.init ∧
    s'.nv.mem = s.nv.mem ∧ s'.app.stored = s.app.stored ∧ s'.app.running = false ∧ s'.pwr.faultN = true ∧ s'.pending = s.pending

theorem enterReset_entered {s : State} (out : s.phase ≠ .inReset) {cause : BitVec 8} (notPowerOn : cause ≠ 1) :
    s.Entered (s.enterReset cause) cause := by
  obtain ⟨hold, recent, eq⟩ := enterReset_entering out cause
  obtain ⟨phase, _, clk⟩ := enterReset_clk out cause
  obtain ⟨-, pending, stored⟩ := clear_keeps s (cause == 1)
  have steward : (s.enterReset cause).steward = false := by rw [State.steward, phase]; rfl
  have host : (if (s.enterReset cause).steward then HostIf.init else { (s.enterReset cause).host with lateVec6 := false }) = HostIf.init :=
    (congrArg State.host eq :)
  rw [steward] at host
  refine ⟨phase, by rw [clk]; rfl, by rw [clk]; exact if_neg notPowerOn, by rw [clk]; exact if_neg notPowerOn, (congrArg State.rooms eq :),
    (congrArg State.dmem eq :), (congrArg State.img eq :), host, ?_, ?_, (congrArg (fun s => s.app.running) eq :), ?_, ?_⟩
  · exact (congrArg (fun s => s.nv.mem) eq).trans (clear_nvMem ..)
  · exact (congrArg (fun s => s.app.stored) eq).trans stored
  · rw [enterReset_pwr out]; rfl
  · exact (congrArg State.pending eq).trans pending

theorem not_inReset_of_awake {s : State} (awake : s.awake = true) : s.phase ≠ .inReset := by
  intro reset
  simp [State.awake, reset] at awake

theorem not_unpowered_of_awake {s : State} (awake : s.awake = true) : s.phase ≠ .unpowered := by
  intro unpowered
  simp [State.awake, unpowered] at awake

theorem not_inReset_of_steward {s : State} (steward : s.steward = true) : s.phase ≠ .inReset := by
  intro reset
  simp [State.steward, reset] at steward

/-! ### Who enters a reset (R35, R50, R71, R413) -/

/-- The key of a register write stands in its upper half (R71). -/
theorem fld_upperHalf (val : Word) : fld val.toNat 16 16 = val.toNat / 2 ^ 16 :=
  Nat.mod_eq_of_lt (by have := val.isLt; omega)

theorem exec_driverReset {s : State} (steward : s.steward = true) {val : Word} (reset : val.getLsbD 0 = true)
    (key : val.toNat / 2 ^ 16 = 0xB00C) (pf : s.pwr.pf = .none) (t : Nat) :
    exec (.driverReset t val) s = .next ((s.at t).enterReset 0x0A) := by
  have key' : fld val.toNat 16 16 = 0xB00C := (fld_upperHalf val).trans key
  exact congrArg Host.Outcome.next (if_pos ⟨steward, reset, key', pf⟩)

theorem exec_driverReset_badKey {s : State} {val : Word} (key : val.toNat / 2 ^ 16 ≠ 0xB00C) (t : Nat) :
    exec (.driverReset t val) s = .next (s.at t) :=
  congrArg Host.Outcome.next (if_neg fun ⟨_, _, k, _⟩ => key ((fld_upperHalf val).symm.trans k))

theorem exec_npResetEntry {s : State} (expired : s.np.expired = true) (first : s.scan.faulted = false) (awake : s.awake = true)
    (idle : s.nv.busy = none) (t : Nat) :
    exec (.npResetEntry t) s = .next ((s.at (max t (s.cycleOfTb s.np.expAt + usCycles))).enterReset 4) := by
  have cause : s.haltCause = 4 := if_pos ⟨expired, .inl first⟩
  rw [← cause]
  exact if_pos ⟨expired, not_inReset_of_awake awake, not_unpowered_of_awake awake, .inl idle⟩

theorem exec_powerFailResetEntry {s : State} (last : s.pwr.pf = .lastTick) (idle : s.nv.busy = none) (written : ∀ j ∈ s.nv.queue, j.cls ≠ 1)
    (t : Nat) : exec (.powerFailResetEntry t) s = .next ((s.at t).enterReset 2) :=
  if_pos ⟨last, idle, List.all_eq_true.mpr fun j mem => bne_iff_ne.mpr (written j mem)⟩

/-- RESET_N is low. -/
def State.resetLow (s : State) : State := { s with pwr := { s.pwr with resetN := true } }

theorem exec_resetNAssert {s : State} (awake : s.awake = true) (pf : s.pwr.pf = .none) (vsup : s.pwr.vsup = true) (t : Nat) :
    exec (.resetNAssert t) s = .next ((s.at t).resetLow.enterReset 3) := by
  change execResetNAssert t s = _
  unfold execResetNAssert
  dsimp only
  rw [if_neg (by simp [pf, vsup, not_unpowered_of_awake awake]), State.at_phase, if_neg (not_inReset_of_awake awake)]
  rfl

/-! ### The end of a reset (R35, R39, R66, R69) -/

theorem exec_resetNDeassert {s : State} (reset : s.phase = .inReset) (lock : s.clk.plllock = true) (t : Nat) :
    ∃ from', exec (.resetNDeassert t) s = .next { s.at t with
      pwr := { s.pwr with resetN := false, prefSample := none }
      clk := { s.clk with exitAt := some (max s.clk.minExit (s.then t + msCycles)), judgeFrom := from' } } :=
  ⟨_, if_pos ⟨reset, lock⟩⟩

theorem exec_pllLock_inReset {s : State} (reset : s.phase = .inReset) (vsup : s.pwr.vsup = true) (unlocked : s.clk.plllock = false)
    (high : s.pwr.resetN = false) (t : Nat) : exec (.pllLock t) s = .next { s.at t with
      pwr := { s.pwr with prefSample := none }
      clk := { s.clk with
        plllock := true, judgeFrom := s.then t, good := 0, exitAt := some (max s.clk.minExit (s.then t + msCycles)) } } := by
  change execPllLock t s = _
  unfold execPllLock
  dsimp only
  rw [State.at_pwr, high, if_pos ⟨reset, vsup, unlocked⟩]
  rfl

/-- Reset has ended at the instant of s, with the boot ROM's selection b (R69, R476). -/
def State.leaving (s : State) (b : Sec × Bool) : State :=
  { s with
    tb0 := s.now
    cycle := 0
    phase := if b.2 then .boot else .bootHold
    sec := b.1
    clk := { s.clk with exitAt := none }
    np := s.np.boot 0
    chans := s.chans.map (fun c => { c with recv := none, lastEdge := none })
    pwr := { s.pwr with
      pfwarn := false
      rolePref := s.pwr.prefSample.getD s.pwr.rolePrefPin
      prefSample := none } }

theorem exec_resetExit {s : State} {e : Nat} (reset : s.phase = .inReset) (exit : s.clk.exitAt = some e) (vsup : s.pwr.vsup = true)
    (high : s.pwr.resetN = false) (t : Nat) : exec (.resetExit t) s = .next ((s.at (max t e)).leaving s.sec.boot) := by
  change execResetExit t s = _
  unfold execResetExit
  rw [reset, exit]
  exact if_pos ⟨vsup, high⟩

/-- Settles O14: every entry is `enterReset` of the state at its instant, whose drive of the outputs leaves what it cleared and kept. -/
theorem resetEntries : Obligations.ResetEntries := by
  intro s t val
  refine ⟨fun steward reset key pf => ?driver, fun steward key => ⟨_, exec_driverReset_badKey key t, rfl⟩,
    fun expired first awake idle => ?porter, fun last idle written awake => ?powerFail, fun awake pf vsup => ?resetN,
    fun reset lock => ?released, fun reset vsup unlocked high => ?locked, fun e reset exit vsup high => ?exit⟩
  case driver =>
    have out : (s.at t).phase ≠ .inReset := not_inReset_of_steward steward
    obtain ⟨-, _, clk⟩ := enterReset_clk out 0x0A
    refine ⟨_, exec_driverReset steward reset key pf t, enterReset_entered out (by decide), ?_⟩
    rw [clk]
    rfl
  case porter =>
    have out : (s.at (max t (s.cycleOfTb s.np.expAt + usCycles))).phase ≠ .inReset := not_inReset_of_awake awake
    refine ⟨_, exec_npResetEntry expired first awake idle t, enterReset_entered out (by decide), ?_⟩
    rw [enterReset_now out]
    exact (max_assoc ..).symm
  case powerFail =>
    have out : (s.at t).phase ≠ .inReset := not_inReset_of_awake awake
    obtain ⟨-, _, clk⟩ := enterReset_clk out 2
    refine ⟨_, exec_powerFailResetEntry last idle written t, enterReset_entered out (by decide), ?_⟩
    rw [clk, enterReset_pwr out]
    exact ⟨rfl, rfl, Bool.and_false _⟩
  case resetN =>
    have out : (s.at t).resetLow.phase ≠ .inReset := not_inReset_of_awake awake
    obtain ⟨-, _, clk⟩ := enterReset_clk out 3
    refine ⟨_, exec_resetNAssert awake pf vsup t, enterReset_entered out (by decide), ?_⟩
    rw [clk, enterReset_pwr out]
    exact ⟨rfl, rfl⟩
  case released =>
    obtain ⟨from', run⟩ := exec_resetNDeassert reset lock t
    exact ⟨_, run, rfl, _, rfl, le_max_right .., reset⟩
  case locked =>
    exact ⟨_, exec_pllLock_inReset reset vsup unlocked high t, rfl, _, rfl, le_max_right ..⟩
  case exit =>
    refine ⟨_, exec_resetExit reset exit vsup high t, (max_assoc ..).symm, rfl, rfl, ?_, rfl, rfl, rfl⟩
    change (if s.sec.boot.2 then Phase.boot else Phase.bootHold) = .boot ∨ (if s.sec.boot.2 then Phase.boot else Phase.bootHold) = .bootHold
    cases s.sec.boot.2
    · exact .inr rfl
    · exact .inl rfl

end Sys2Proof.Machine
end

section
/-! PROOFS. The clock monitor (R57 to R63). -/

namespace Sys2Proof.Machine

/-! ### What a clock fault and its records leave alone -/

/-- The state without ports and reports. -/
def State.portless (s : State) : State := { s.unreported with cans := Vector.replicate 4 Can.init }

theorem portless_of_unreported {s s' : State} (h : s'.unreported = s.unreported) : s'.portless = s.portless := (congrArg State.portless h :)

theorem updCan_portless (s : State) (k : PortId) (f : Can → Can) : (s.updCan k f).portless = s.portless := rfl

theorem canEvent_portless (s : State) (k : PortId) (b : Nat) : (s.canEvent k b).portless = s.portless := by
  unfold State.canEvent
  dsimp only
  split <;> rfl

theorem canRecord_portless (s : State) (k : PortId) (typ : Nat) (sev : BitVec 2) (ws : List Word) :
    (s.canRecord k typ sev ws).portless = s.portless := by
  unfold State.canRecord
  split
  · exact portless_of_unreported (gbEvent_unreported ..)
  · rfl

theorem canWithdraw_portless (s : State) (k : PortId) (entry : Nat) : (s.canWithdraw k entry).portless = s.portless :=
  (canRecord_portless ..).trans ((canEvent_portless ..).trans rfl)

theorem canDrain_portless (s : State) (k : PortId) : (s.canDrain k).portless = s.portless :=
  (foldl_keeps_key State.portless (fun s e => canWithdraw_portless s k e) _ _).trans (updCan_portless ..)

theorem canSilence_portless (s : State) : s.canSilence.portless = s.portless :=
  foldl_keeps_key State.portless canDrain_portless (fins 4) s

theorem phase_of_portless {s s' : State} (h : s'.portless = s.portless) : s'.phase = s.phase := (congrArg State.phase h :)
theorem clk_of_portless {s s' : State} (h : s'.portless = s.portless) : s'.clk = s.clk := (congrArg State.clk h :)
theorem now_of_portless {s s' : State} (h : s'.portless = s.portless) : s'.now = s.now := (congrArg State.now h :)

/-- Silence leaves the phase, the clock and reset registers and the time alone. -/
theorem silence_clocking (s : State) : s.silence.phase = s.phase ∧ s.silence.clk = s.clk ∧ s.silence.now = s.now := by
  have kept := canSilence_portless (s.cutHandOver s.tb)
  unfold State.silence
  dsimp only
  rw [phase_of_portless kept, clk_of_portless kept, now_of_portless kept]
  exact ⟨rfl, rfl, rfl⟩

/-- A clock fault of a module that is not halted resets it at once (R60). -/
theorem clockFault_resets {s : State} (awake : s.awake = true) (goes : s.halted = false) (cause : BitVec 8) :
    (s.clockFault cause).phase = .inReset ∧ (s.clockFault cause).clk.cause = cause ∧ (s.clockFault cause).now = s.now ∧
      (s.clockFault cause).clk.judged = (s.clk.judged && !rejudged cause) ∧
      (s.clockFault cause).clk.plllock = (s.clk.plllock && !relocks cause) := by
  have eq : s.clockFault cause = s.silence.enterReset cause := by
    rw [State.clockFault, if_neg (by simp [awake]), if_neg (by simp [goes])]
  obtain ⟨phase, clk, now⟩ := silence_clocking s
  have out : s.silence.phase ≠ .inReset := by rw [phase]; exact not_inReset_of_awake awake
  obtain ⟨entered, _, clk'⟩ := enterReset_clk out cause
  rw [eq, clk', enterReset_now out, now, clk]
  exact ⟨entered, rfl, rfl, rfl, rfl⟩

theorem clockEvent_unreported (s : State) (typ : Nat) (sev : BitVec 2) (off : Nat) : (s.clockEvent typ sev off).unreported = s.unreported := by
  unfold State.clockEvent
  split
  · exact (raiseLater_unreported ..).trans (gbEvent_unreported ..)
  · rfl

theorem clk_of_unreported {s s' : State} (h : s'.unreported = s.unreported) : s'.clk = s.clk := (congrArg State.clk h :)
theorem bk_of_unreported {s s' : State} (h : s'.unreported = s.unreported) : s'.bk = s.bk := (congrArg State.bk h :)

/-! ### Windows (R57 to R61) -/

/-- A window has ended with a count. -/
def State.counted (s : State) (t n : Nat) : State := { s.at t with clk := s.clk.counted n }

/-- The monitor runs: the PLL has locked, and there is a reference. -/
structure State.Monitors (s : State) : Prop where
  awake : s.awake = true
  lock : s.clk.plllock = true
  ref : s.clk.noref = false

theorem exec_clockMonitorWindow {s : State} (h : s.Monitors) (t n : Nat) : exec (.clockMonitorWindow t n) s =
    if s.clk.judged then
      if s.clk.inMonitor n = false then .next ((s.counted t n).clockFault 5)
      else if Clk.inWarning n = false then
        .next ((State.mark { s.counted t n with clk := { s.clk.counted n with warn := true } } 0x400 512).clockEvent 0x05 sevNotice 0x0404)
      else .next (s.counted t n)
    else if s.clk.inJudge n = false then .next { s.counted t n with clk := { s.clk.counted n with good := 0 } }
    else if s.clk.good < 2 then .next { s.counted t n with clk := { s.clk.counted n with good := s.clk.good + 1 } }
    else .next { s.counted t n with clk := { s.clk.counted n with
      good := 0
      judged := true
      tjudged := if s.awake then BitVec.ofNat 32 ((s.at t).tb / 400) else 0 } } := by
  obtain ⟨awake, lock, ref⟩ := h
  have runs : ¬(s.phase = .unpowered ∨ s.clk.plllock = false ∨ s.clk.noref = true) := by simp [not_unpowered_of_awake awake, lock, ref]
  exact if_neg runs

/-- Before judgement, against the RTC crystal, a window outside 0.1 % starts the count of good ones anew (R58). -/
theorem window_bad {s : State} (h : s.Monitors) (unjudged : s.clk.judged = false) (rtc : s.clk.refsrc = false) {n : Nat}
    (outside : n < 780469 ∨ 782031 < n) (t : Nat) :
    exec (.clockMonitorWindow t n) s = .next { s.counted t n with clk := { s.clk.counted n with good := 0 } } := by
  have bad : s.clk.inJudge n = false := by
    rw [Clk.inJudge, rtc]
    simp; omega
  rw [exec_clockMonitorWindow h, unjudged, if_neg Bool.false_ne_true, if_pos bad]

/-- A window within 0.1 % is good, and the third good one in a row judges the clock (R58). -/
theorem window_good {s : State} (h : s.Monitors) (unjudged : s.clk.judged = false) (rtc : s.clk.refsrc = false) {n : Nat}
    (low : 780469 ≤ n) (high : n ≤ 782031) (t : Nat) : exec (.clockMonitorWindow t n) s = .next (
      if s.clk.good < 2 then { s.counted t n with clk := { s.clk.counted n with good := s.clk.good + 1 } }
      else { s.counted t n with clk := { s.clk.counted n with
        good := 0, judged := true, tjudged := BitVec.ofNat 32 ((s.at t).tb / 400) } }) := by
  have good : s.clk.inJudge n = true := by
    rw [Clk.inJudge, rtc]
    simp; omega
  rw [exec_clockMonitorWindow h, unjudged, if_neg Bool.false_ne_true, if_neg (by simp [good]), h.awake, if_pos rfl, apply_ite Host.Outcome.next]

/-- After judgement a window outside 0.5 % is a clock fault (R60). -/
theorem window_fault {s : State} (h : s.Monitors) (judged : s.clk.judged = true) (rtc : s.clk.refsrc = false) {n : Nat}
    (outside : n < 777344 ∨ 785156 < n) (t : Nat) : exec (.clockMonitorWindow t n) s = .next ((s.counted t n).clockFault 5) := by
  have bad : s.clk.inMonitor n = false := by
    rw [Clk.inMonitor, rtc]
    simp; omega
  rw [exec_clockMonitorWindow h, if_pos judged, if_pos bad]

/-- A window within it is counted, and sets the warning outside 0.2 % (R61). -/
theorem window_monitored {s : State} (h : s.Monitors) (judged : s.clk.judged = true) (rtc : s.clk.refsrc = false) {n : Nat}
    (low : 777344 ≤ n) (high : n ≤ 785156) (t : Nat) : ∃ s', exec (.clockMonitorWindow t n) s = .next s' ∧
      s'.unreported = State.unreported { s.counted t n with clk := { s.clk.counted n with
        warn := s.clk.warn || decide (n < 779688) || decide (782812 < n) } } := by
  have inside : s.clk.inMonitor n = true := by
    rw [Clk.inMonitor, rtc]
    simp; omega
  rw [exec_clockMonitorWindow h, if_pos judged, if_neg (by simp [inside])]
  by_cases wide : Clk.inWarning n = false
  · have warns : (s.clk.warn || decide (n < 779688) || decide (782812 < n)) = true := by
      simp [Clk.inWarning] at wide ⊢; omega
    rw [if_pos wide, warns]
    exact ⟨_, rfl, clockEvent_unreported ..⟩
  · obtain ⟨low', high'⟩ : 779688 ≤ n ∧ n ≤ 782812 := by simpa [Clk.inWarning] using wide
    have quiet : (s.clk.warn || decide (n < 779688) || decide (782812 < n)) = s.clk.warn := by simp [not_lt.mpr low', not_lt.mpr high']
    rw [if_neg wide, quiet]
    exact ⟨_, rfl, rfl⟩

/-! ### Judgement and loss of lock (R58, R60) -/

theorem exec_clockJudgementTimeout {s : State} (h : s.Monitors) (unjudged : s.clk.judged = false) (t : Nat) :
    exec (.clockJudgementTimeout t) s = .next ((s.at (max t (s.clk.judgeFrom + secCycles))).clockFault 6) :=
  if_pos ⟨h.awake, unjudged, h.ref, h.lock⟩

theorem exec_pllLossOfLock_judged {s : State} (awake : s.awake = true) (lock : s.clk.plllock = true) (judged : s.clk.judged = true) (t : Nat) :
    exec (.pllLossOfLock t) s = .next ((s.at t).clockFault 5) := if_pos ⟨awake, lock, judged⟩

/-- Before judgement the module waits for the PLL (R58). -/
theorem exec_pllLossOfLock_unjudged {s : State} (unjudged : s.clk.judged = false) (t : Nat) : ∃ exit, exec (.pllLossOfLock t) s =
    .next { s.at t with clk := { s.clk with plllock := false, good := 0, exitAt := exit } } :=
  ⟨_, if_neg fun ⟨_, _, judged⟩ => Bool.false_ne_true (unjudged.symm.trans judged)⟩

/-- Out of reset the PLL locks again, and judgement starts anew (R58). -/
theorem exec_pllLock_awake {s : State} (awake : s.awake = true) (unlocked : s.clk.plllock = false) (t : Nat) :
    exec (.pllLock t) s = .next { s.at t with clk := { s.clk with plllock := true, judgeFrom := s.then t, good := 0 } } :=
  (if_neg fun ⟨reset, _, _⟩ => not_inReset_of_awake awake reset).trans (if_pos ⟨awake, unlocked⟩)

/-! ### The reference (R62, R63) -/

/-- The monitor with a group's oscillator as its reference, or none (R62, R63). -/
def Clk.refer (c : Clk) (g : Option GrpId) : Clk :=
  { c with refsrc := g.isSome, refgrp := (g.map fun g => BitVec.ofNat 4 g.val).getD c.refgrp, noref := g.isNone, good := 0 }

/-- The lowest group with L+ is the one that serves as reference. -/
theorem refGroup_lowest {s : State} {g : GrpId} (supplied : s.groups[g].lplus = true)
    (lower : ∀ h : GrpId, h < g → s.groups[h].lplus = false) : s.refGroup = some g := by
  refine List.find?_eq_some_iff_getElem.mpr ⟨supplied, g.val, by simp [fins], by simp [fins], fun j hj => ?_⟩
  simpa [fins] using lower ⟨j, _⟩ hj

theorem refGroup_none {s : State} (dark : ∀ g : GrpId, s.groups[g].lplus = false) : s.refGroup = none :=
  List.find?_eq_none.mpr fun g _ => by simpa using dark g

theorem chooseRef_unreported (s : State) : s.chooseRef.unreported = State.unreported { s with clk := s.clk.refer s.refGroup } := by
  unfold State.chooseRef
  cases s.refGroup with
  | some g => rfl
  | none =>
    dsimp only
    split
    · exact clockEvent_unreported ..
    · rfl

/-- The RTC oscillator has stopped: the retention latch is lost, and no alarm is armed (R62, R418). -/
def Backup.stopped (b : Backup) : Backup :=
  { b with valid := false, oscstop := true, alm1 := { b.alm1 with mode := 0 }, alm2 := { b.alm2 with mode := 0 } }

theorem exec_rtcOscillatorStopped {s : State} (awake : s.awake = true) (rtc : s.clk.refsrc = false) (ref : s.clk.noref = false) (t : Nat) :
    ∃ s', exec (.rtcOscillatorStopped t) s = .next s' ∧ s'.unreported =
      State.unreported { s.at t with bk := s.bk.stopped, clk := Clk.refer { s.clk with rtcstop := true } s.refGroup } :=
  ⟨_, if_pos ⟨not_unpowered_of_awake awake, rtc, ref⟩, (clockEvent_unreported ..).trans (chooseRef_unreported _)⟩

theorem exec_referenceAppears {s : State} (awake : s.awake = true) (lost : s.clk.noref = true) (t : Nat) : ∃ src grp,
    exec (.referenceAppears t) s = .next { s.at t with clk := { s.clk with
      noref := false, refsrc := src, refgrp := grp, good := 0, judgeFrom := s.then t } } :=
  ⟨_, _, if_pos ⟨not_unpowered_of_awake awake, lost⟩⟩

/-- Settles O16: a window by its three bands, a clock fault because silence leaves the clock registers to the reset that follows, and the
reference because the lowest group with L+ is the first that the choice finds. -/
theorem clockMonitor : Obligations.ClockMonitor := by
  intro s t n awake
  refine ⟨fun lock ref unjudged rtc => ?judging, fun lock ref judged rtc goes => ⟨fun outside => ?fault, fun low high => ?monitored⟩,
    fun unjudged ref lock goes => ?timeout, fun judged lock goes => ?lost, fun unjudged => ?waits, fun unlocked => ?locks,
    fun rtc ref => ?stopped, fun lost => ?appears⟩
  case judging =>
    have h : s.Monitors := ⟨awake, lock, ref⟩
    rcases (by omega : (n < 780469 ∨ 782031 < n) ∨ 780469 ≤ n ∧ n ≤ 782031) with outside | ⟨low, high⟩
    · exact ⟨_, window_bad h unjudged rtc outside t, rfl, ⟨rfl, rfl, rfl⟩, fun _ => ⟨rfl, unjudged⟩, fun low high => by omega⟩
    · have run := window_good h unjudged rtc low high t
      by_cases few : s.clk.good < 2
      · rw [if_pos few] at run
        exact ⟨_, run, rfl, ⟨rfl, rfl, rfl⟩, fun outside => by omega, fun _ _ => by rw [if_pos few]; exact ⟨rfl, unjudged⟩⟩
      · rw [if_neg few] at run
        exact ⟨_, run, rfl, ⟨rfl, rfl, rfl⟩, fun outside => by omega, fun _ _ => by rw [if_neg few]; exact ⟨rfl, rfl⟩⟩
  case fault =>
    obtain ⟨phase, cause, -, judged', -⟩ := clockFault_resets (s := s.counted t n) awake goes 5
    exact ⟨_, window_fault ⟨awake, lock, ref⟩ judged rtc outside t, phase, cause, judged'.trans (Bool.and_false _)⟩
  case monitored =>
    obtain ⟨s', run, eq⟩ := window_monitored ⟨awake, lock, ref⟩ judged rtc low high t
    have clk := clk_of_unreported eq
    exact ⟨s', run, (congrArg State.phase eq :), by rw [clk]; exact judged, by rw [clk], by rw [clk]; rfl⟩
  case timeout =>
    obtain ⟨phase, cause, now, -, -⟩ := clockFault_resets (s := s.at (max t (s.clk.judgeFrom + secCycles))) awake goes 6
    exact ⟨_, exec_clockJudgementTimeout ⟨awake, lock, ref⟩ unjudged t, phase, cause, now.trans (max_assoc ..).symm⟩
  case lost =>
    obtain ⟨phase, cause, -, -, lock'⟩ := clockFault_resets (s := s.at t) awake goes 5
    exact ⟨_, exec_pllLossOfLock_judged awake lock judged t, phase, cause, lock'.trans (Bool.and_false _)⟩
  case waits =>
    obtain ⟨exit, run⟩ := exec_pllLossOfLock_unjudged unjudged t
    exact ⟨_, run, rfl, rfl, rfl⟩
  case locks => exact ⟨_, exec_pllLock_awake awake unlocked t, rfl, rfl, rfl, rfl, rfl, rfl, rfl⟩
  case stopped =>
    obtain ⟨s', run, eq⟩ := exec_rtcOscillatorStopped awake rtc ref t
    have clk := clk_of_unreported eq
    have bk := bk_of_unreported eq
    refine ⟨s', run, by rw [bk]; rfl, by rw [bk]; rfl, by rw [clk]; rfl, fun g supplied lower => ?_, fun dark => ?_⟩
    · rw [clk, refGroup_lowest supplied lower]
      exact ⟨rfl, by simp [Clk.refer]; omega, rfl⟩
    · rw [clk, refGroup_none dark]
      rfl
  case appears =>
    obtain ⟨src, grp, run⟩ := exec_referenceAppears awake lost t
    exact ⟨_, run, rfl, rfl, rfl, rfl, rfl, rfl⟩

end Sys2Proof.Machine
end

section
/-! PROOFS. The start-up (R69, R70, R383): why the role does not settle by steward and judged clock alone. -/

namespace Sys2Proof.Machine

/-- The role settles after the load of step 9, not before it (R69, R383). -/
theorem exec_roleSettle_unloaded {s : State} (unloaded : s.app.loaded = false) (t : Nat) : exec (.roleSettle t) s = .next (s.at t) :=
  if_neg fun ⟨_, _, loaded, _⟩ => Bool.false_ne_true (unloaded.symm.trans loaded)

/-- A module whose steward runs with a judged clock and a stored configuration of a single module, before the load of step 9 of R69. -/
def State.unloaded : State := { State.reset with
  phase := .running
  clk := { Clk.init with judged := true }
  app := { App.init with stored := some default } }

/-- Refutes O15: its clauses about the role do not ask that the configuration has been loaded, and before the load the role stays open. In
`State.unloaded` the steward runs, the clock is judged and the stored configuration is that of a single module, and the role does not settle. -/
theorem not_startUp : ¬ Obligations.StartUp := by
  intro h
  obtain ⟨-, -, -, -, -, role⟩ := h State.unloaded 0 [] default
  obtain ⟨single, -, -⟩ := role rfl rfl rfl rfl
  obtain ⟨s', run, settled, -⟩ := single rfl
  rw [exec_roleSettle_unloaded rfl] at run
  cases run
  exact Bool.false_ne_true settled

end Sys2Proof.Machine
end

section
/-! PROOFS. Every step keeps every memory canonical and the stored g0 zero (R79, R91). -/

namespace Sys2Proof.Machine

/-- Every command keeps the invariant: the arms of the dispatch, each with what `Laws/Keep….lean` says of its meaning. -/
theorem exec_inv (i : Instr) {s : State} (h : s.Inv) : OutInv (exec i s) :=
  match i with
  | .nop t r => execNop_inv t r s h
  | .add t r rd ra rb => execAdd_inv t r rd ra rb s h
  | .sub t r rd ra rb => execSub_inv t r rd ra rb s h
  | .adc t r rd ra rb => execAdc_inv t r rd ra rb s h
  | .sbc t r rd ra rb => execSbc_inv t r rd ra rb s h
  | .and t r rd ra rb => execAnd_inv t r rd ra rb s h
  | .or t r rd ra rb => execOr_inv t r rd ra rb s h
  | .xor t r rd ra rb => execXor_inv t r rd ra rb s h
  | .andn t r rd ra rb => execAndn_inv t r rd ra rb s h
  | .shl t r rd ra rb => execShl_inv t r rd ra rb s h
  | .shr t r rd ra rb => execShr_inv t r rd ra rb s h
  | .sar t r rd ra rb => execSar_inv t r rd ra rb s h
  | .cmp t r ra rb => execCmp_inv t r ra rb s h
  | .min t r rd ra rb => execMin_inv t r rd ra rb s h
  | .max t r rd ra rb => execMax_inv t r rd ra rb s h
  | .minu t r rd ra rb => execMinu_inv t r rd ra rb s h
  | .maxu t r rd ra rb => execMaxu_inv t r rd ra rb s h
  | .sel t r rd ra rb => execSel_inv t r rd ra rb s h
  | .getb t r rd => execGetb_inv t r rd s h
  | .addi t r rd ra imm => execAddi_inv t r rd ra imm s h
  | .cmpi t r ra imm => execCmpi_inv t r ra imm s h
  | .andi t r rd ra imm => execAndi_inv t r rd ra imm s h
  | .ori t r rd ra imm => execOri_inv t r rd ra imm s h
  | .xori t r rd ra imm => execXori_inv t r rd ra imm s h
  | .lui t r rd imm => execLui_inv t r rd imm s h
  | .shli t r rd ra n5 => execShli_inv t r rd ra n5 s h
  | .shri t r rd ra n5 => execShri_inv t r rd ra n5 s h
  | .sari t r rd ra n5 => execSari_inv t r rd ra n5 s h
  | .tst t r ra n5 => execTst_inv t r ra n5 s h
  | .bext t r rd ra p5 w5 => execBext_inv t r rd ra p5 w5 s h
  | .bins t r rd ra p5 w5 => execBins_inv t r rd ra p5 w5 s h
  | .lpi t r rd imm => execLpi_inv t r rd imm s h
  | .lpr t r rd ra imm => execLpr_inv t r rd ra imm s h
  | .loop t r rd boff => execLoop_inv t r rd boff s h
  | .jtab t r ra imm => execJtab_inv t r ra imm s h
  | .b t r cond boff => execB_inv t r cond boff s h
  | .lw t r rd ra imm => execLw_inv t r rd ra imm s h
  | .lh t r rd ra imm => execLh_inv t r rd ra imm s h
  | .lhu t r rd ra imm => execLhu_inv t r rd ra imm s h
  | .lby t r rd ra imm => execLby_inv t r rd ra imm s h
  | .lbyu t r rd ra imm => execLbyu_inv t r rd ra imm s h
  | .sw t r rd ra imm => execSw_inv t r rd ra imm s h
  | .sh t r rd ra imm => execSh_inv t r rd ra imm s h
  | .sby t r rd ra imm => execSby_inv t r rd ra imm s h
  | .ilw t r rd ra imm => execIlw_inv t r rd ra imm s h
  | .ilh t r rd ra imm => execIlh_inv t r rd ra imm s h
  | .ilhu t r rd ra imm => execIlhu_inv t r rd ra imm s h
  | .ilby t r rd ra imm => execIlby_inv t r rd ra imm s h
  | .ilbyu t r rd ra imm => execIlbyu_inv t r rd ra imm s h
  | .isw t r rd ra imm => execIsw_inv t r rd ra imm s h
  | .ish t r rd ra imm => execIsh_inv t r rd ra imm s h
  | .isby t r rd ra imm => execIsby_inv t r rd ra imm s h
  | .ldb t r rd ra imm => execLdb_inv t r rd ra imm s h
  | .stb t r rd ra imm => execStb_inv t r rd ra imm s h
  | .set t r ra imm => execSet_inv t r ra imm s h
  | .rst t r ra imm => execRst_inv t r ra imm s h
  | .edgeR t r rd ra imm => execEdgeR_inv t r rd ra imm s h
  | .edgeF t r rd ra imm => execEdgeF_inv t r rd ra imm s h
  | .edgeA t r rd ra imm => execEdgeA_inv t r rd ra imm s h
  | .ton t r rd ra imm => execTon_inv t r rd ra imm s h
  | .tof t r rd ra imm => execTof_inv t r rd ra imm s h
  | .tp t r rd ra imm => execTp_inv t r rd ra imm s h
  | .tacc t r rd ra imm => execTacc_inv t r rd ra imm s h
  | .ctu t r rd ra imm => execCtu_inv t r rd ra imm s h
  | .ctd t r rd ra imm => execCtd_inv t r rd ra imm s h
  | .bool3 t r rd ra rb rc tt => execBool3_inv t r rd ra rb rc tt s h
  | .mul t r ra rb => execMul_inv t r ra rb s h
  | .mulu t r ra rb => execMulu_inv t r ra rb s h
  | .mac t r ra rb => execMac_inv t r ra rb s h
  | .macu t r ra rb => execMacu_inv t r ra rb s h
  | .fadd t r ra rb => execFadd_inv t r ra rb s h
  | .fsub t r ra rb => execFsub_inv t r ra rb s h
  | .fmul t r ra rb => execFmul_inv t r ra rb s h
  | .fdiv t r ra rb => execFdiv_inv t r ra rb s h
  | .fmin t r ra rb => execFmin_inv t r ra rb s h
  | .fmax t r ra rb => execFmax_inv t r ra rb s h
  | .fcmp t r ra rb => execFcmp_inv t r ra rb s h
  | .itof t r ra => execItof_inv t r ra s h
  | .utof t r ra => execUtof_inv t r ra s h
  | .ftoi t r ra => execFtoi_inv t r ra s h
  | .div t r ra rb => execDiv_inv t r ra rb s h
  | .divu t r ra rb => execDivu_inv t r ra rb s h
  | .mfs t r rd spr => execMfs_inv t r rd spr s h
  | .mts t r spr ra => execMts_inv t r spr ra s h
  | .rdfeat t r rd feat => execRdfeat_inv t r rd feat s h
  | .rest t r => execRest_inv t r s h
  | .wdk t r ra => execWdk_inv t r ra s h
  | .invalidWordFetched t r word => execInvalidWordFetched_inv t r word s h
  | .macResultWrite t r => execMacResultWrite_inv t r s h
  | .fpuResultWrite t r => execFpuResultWrite_inv t r s h
  | .dividerResultWrite t r => execDividerResultWrite_inv t r s h
  | .distanceRuleBroken t r => execDistanceRuleBroken_inv t r s h
  | .baseTick t => execBaseTick_inv t s h
  | .taskDeadline t r => execTaskDeadline_inv t r s h
  | .outputCommitApply t g => execOutputCommitApply_inv t g s h
  | .maintenanceSlot t lane => execMaintenanceSlot_inv t lane s h
  | .scrubRead t rd addr res => execScrubRead_inv t rd addr res s h
  | .memorySelfTest t bank test => execMemorySelfTest_inv t bank test s h
  | .hardwareFault t ev => execHardwareFault_inv t ev s h
  | .faultResetEntry t => execFaultResetEntry_inv t s h
  | .resetExit t => execResetExit_inv t s h
  | .stewardStart t => execStewardStart_inv t s h
  | .startupConfigLoad t digestsOk engines => execStartupConfigLoad_inv t digestsOk engines s h
  | .roleSettle t => execRoleSettle_inv t s h
  | .autoStart t => execAutoStart_inv t s h
  | .pllLock t => execPllLock_inv t s h
  | .clockMonitorWindow t count => execClockMonitorWindow_inv t count s h
  | .clockJudgementTimeout t => execClockJudgementTimeout_inv t s h
  | .pllLossOfLock t => execPllLossOfLock_inv t s h
  | .rtcOscillatorStopped t => execRtcOscillatorStopped_inv t s h
  | .referenceAppears t => execReferenceAppears_inv t s h
  | .vsupValid t => execVsupValid_inv t s h
  | .holdUpCharged t => execHoldUpCharged_inv t s h
  | .vsupFail t => execVsupFail_inv t s h
  | .powerFailResetEntry t => execPowerFailResetEntry_inv t s h
  | .resetNAssert t => execResetNAssert_inv t s h
  | .resetNDeassert t => execResetNDeassert_inv t s h
  | .perstNAssert t => execPerstNAssert_inv t s h
  | .perstNDeassert t => execPerstNDeassert_inv t s h
  | .temperatureMeasure t centi => execTemperatureMeasure_inv t centi s h
  | .supervisorTimeout t g => execSupervisorTimeout_inv t g s h
  | .quietInAssert t => execQuietInAssert_inv t s h
  | .quietInDeassert t => execQuietInDeassert_inv t s h
  | .lplusLost t g => execLplusLost_inv t g s h
  | .lplusReturn t g volts10mV => execLplusReturn_inv t g volts10mV s h
  | .groupConfigReload t g => execGroupConfigReload_inv t g s h
  | .inputRawChange t ch level => execInputRawChange_inv t ch level s h
  | .inputFilterAccept t ch => execInputFilterAccept_inv t ch s h
  | .wireBreak t ch set => execWireBreak_inv t ch set s h
  | .currentLimit t ch on milliamp => execCurrentLimit_inv t ch on milliamp s h
  | .shortCircuit t ch thermal => execShortCircuit_inv t ch thermal s h
  | .groupOvercurrent t g milliamps => execGroupOvercurrent_inv t g milliamps s h
  | .demagEnergyMeasured t ch millijoule => execDemagEnergyMeasured_inv t ch millijoule s h
  | .rateHoldEnd t ch => execRateHoldEnd_inv t ch s h
  | .readbackDiscrepancy t ch set => execReadbackDiscrepancy_inv t ch set s h
  | .openLoad t ch set => execOpenLoad_inv t ch set s h
  | .engineFrame t g frame => execEngineFrame_inv t g frame s h
  | .spareConnect t => execSpareConnect_inv t s h
  | .spareScheduleStart t => execSpareScheduleStart_inv t s h
  | .analogueInputFlag t ch flag set => execAnalogueInputFlag_inv t ch flag set s h
  | .analogueOutputFault t ch flag set => execAnalogueOutputFault_inv t ch flag set s h
  | .canFrameReceived t k frame => execCanFrameReceived_inv t k frame s h
  | .canWindowOpen t k entry => execCanWindowOpen_inv t k entry s h
  | .canTxAttempt t k tdelay => execCanTxAttempt_inv t k tdelay s h
  | .canTxComplete t k result => execCanTxComplete_inv t k result s h
  | .canFrameWithdraw t k entry => execCanFrameWithdraw_inv t k entry s h
  | .canError t k err => execCanError_inv t k err s h
  | .canRecoveryComplete t k => execCanRecoveryComplete_inv t k s h
  | .canVplusLost t k => execCanVplusLost_inv t k s h
  | .canVplusReturn t k => execCanVplusReturn_inv t k s h
  | .rateDetectionDataTimeout t k => execRateDetectionDataTimeout_inv t k s h
  | .rateDetectionTimeout t k => execRateDetectionTimeout_inv t k s h
  | .dominantTimeOut t k => execDominantTimeOut_inv t k s h
  | .canRecover t k => execCanRecover_inv t k s h
  | .canTermWrite t k on => execCanTermWrite_inv t k on s h
  | .canDetStart t k => execCanDetStart_inv t k s h
  | .canDetAbort t k => execCanDetAbort_inv t k s h
  | .driverReset t val => execDriverReset_inv t val s h
  | .scanClrEcc t => execScanClrEcc_inv t s h
  | .scanClrPeak t => execScanClrPeak_inv t s h
  | .scanClrFev t => execScanClrFev_inv t s h
  | .npClrEv t => execNpClrEv_inv t s h
  | .nvProtWrite t val => execNvProtWrite_inv t val s h
  | .confirm t val => execConfirm_inv t val s h
  | .ownerKeyEnrol t val => execOwnerKeyEnrol_inv t val s h
  | .ownerKeyRevoke t val => execOwnerKeyRevoke_inv t val s h
  | .pairCfgWrite t val => execPairCfgWrite_inv t val s h
  | .rtcTrimWrite t val => execRtcTrimWrite_inv t val s h
  | .saddlebagWrite t w val => execSaddlebagWrite_inv t w val s h
  | .rtcGroupRead t reg path => execRtcGroupRead_inv t reg path s h
  | .rtcSnapshotExpiry t path => execRtcSnapshotExpiry_inv t path s h
  | .splitValueRead t pair => execSplitValueRead_inv t pair s h
  | .registerWrite t off val be => execRegisterWrite_inv t off val be s h
  | .apply t table bell => execApply_inv t table bell s h
  | .disable t => execDisable_inv t s h
  | .busMasterDisable t => execBusMasterDisable_inv t s h
  | .busMasterEnable t => execBusMasterEnable_inv t s h
  | .bellPoll t bell => execBellPoll_inv t bell s h
  | .bellIntervalEnd t => execBellIntervalEnd_inv t s h
  | .dmaFailure t target => execDmaFailure_inv t target s h
  | .heldCompletionWrite t q => execHeldCompletionWrite_inv t q s h
  | .unknownCommand t c e op => execUnknownCommand_inv t c e op s h
  | .waybillLoad t c e dma => execWaybillLoad_inv t c e dma s h
  | .admitWaybill t c e => execAdmit_inv t c e s h
  | .admissionComplete t ms => execAdmissionComplete_inv t ms s h
  | .start t c e => execStart_inv t c e s h
  | .startTick t => execStartTick_inv t s h
  | .stop t c e => execStop_inv t c e s h
  | .stopTick t => execStopTick_inv t s h
  | .stopSafeStates t => execStopSafeStates_inv t s h
  | .valueEdit t c e dma => execValueEdit_inv t c e dma s h
  | .editBatchApply t => execEditBatchApply_inv t s h
  | .swapStage t c e => execSwapStage_inv t c e s h
  | .swapDiscard t c e => execSwapDiscard_inv t c e s h
  | .swapCommit t c e => execSwapCommit_inv t c e s h
  | .swapSwitchTick t => execSwapSwitchTick_inv t s h
  | .swapRelease t c e => execSwapRelease_inv t c e s h
  | .swapRollback t c e => execSwapRollback_inv t c e s h
  | .rollbackTick t => execRollbackTick_inv t s h
  | .variableRead t c e => execVariableRead_inv t c e s h
  | .variableReadApply t => execVariableReadApply_inv t s h
  | .variableWriteAtRelease t c e => execVariableWriteAtRelease_inv t c e s h
  | .calibrationLowPoint t c e mean ok => execCalibrationLowPoint_inv t c e mean ok s h
  | .calibrationHighPoint t c e mean ok => execCalibrationHighPoint_inv t c e mean ok s h
  | .calibrationStore t c e => execCalibrationStore_inv t c e s h
  | .calibrationDiscard t c e => execCalibrationDiscard_inv t c e s h
  | .factoryCalibration t c e => execFactoryCalibration_inv t c e s h
  | .spareEngineReturn t c e => execSpareEngineReturn_inv t c e s h
  | .rtcSet t c e => execRtcSet_inv t c e s h
  | .rtcSetCommit t => execRtcSetCommit_inv t s h
  | .summerTimeAdd t c e => execSummerTimeAdd_inv t c e s h
  | .summerTimeSubtract t c e => execSummerTimeSubtract_inv t c e s h
  | .summerTimeStep t => execSummerTimeStep_inv t s h
  | .alarmSetUp t c e => execAlarmSetUp_inv t c e s h
  | .rtcSecond t => execRtcSecond_inv t s h
  | .countdownExpiry t => execCountdownExpiry_inv t s h
  | .backupVoltageLow t => execBackupVoltageLow_inv t s h
  | .nvRecordWrite t c e dma => execNvRecordWrite_inv t c e dma s h
  | .nvRecordRead t c e => execNvRecordRead_inv t c e s h
  | .nvPageProgramComplete t ok => execNvPageProgramComplete_inv t ok s h
  | .journalFold t => execJournalFold_inv t s h
  | .hoursIncrement t => execHoursIncrement_inv t s h
  | .guestbookRecordWrite t => execGuestbookRecordWrite_inv t s h
  | .guestbookRepeatRewrite t => execGuestbookRepeatRewrite_inv t s h
  | .guestbookRead t c e => execGuestbookRead_inv t c e s h
  | .publication t p => execPublication_inv t p s h
  | .pairSwitch t c e => execPairSwitch_inv t c e s h
  | .plannedSwitch t => execPlannedSwitch_inv t s h
  | .reversion t => execReversion_inv t s h
  | .confirmTimeout t => execConfirmTimeout_inv t s h
  | .resync t c e => execResync_inv t c e s h
  | .joinAttempt t arrived blockRoom => execJoinAttempt_inv t arrived blockRoom s h
  | .updateChunk t c e dma => execUpdateChunk_inv t c e dma s h
  | .activate t c e => execActivate_inv t c e s h
  | .attest t c e => execAttest_inv t c e s h
  | .trialConfirm t => execTrialConfirm_inv t s h
  | .postRoadLinkUp t => execPostRoadLinkUp_inv t s h
  | .postRoadLinkDown t => execPostRoadLinkDown_inv t s h
  | .helloSend t => execHelloSend_inv t s h
  | .hello t payload => execHello_inv t payload s h
  | .heartbeatSend t => execHeartbeatSend_inv t s h
  | .heartbeat t payload => execHeartbeat_inv t payload s h
  | .heartbeatMissing t => execHeartbeatMissing_inv t s h
  | .takeover t => execTakeover_inv t s h
  | .input t payload => execInput_inv t payload s h
  | .digest t payload => execDigest_inv t payload s h
  | .digestLate t => execDigestLate_inv t s h
  | .powerfail t payload => execPowerfail_inv t payload s h
  | .edit t payload => execEdit_inv t payload s h
  | .swap t payload => execSwap_inv t payload s h
  | .stopMessage t payload => execStopMessage_inv t payload s h
  | .switch t payload => execSwitch_inv t payload s h
  | .outstep t payload => execOutstep_inv t payload s h
  | .join t payload => execJoin_inv t payload s h
  | .proof t payload => execProof_inv t payload s h
  | .disc t payload => execDisc_inv t payload s h
  | .waybill t payload => execWaybill_inv t payload s h
  | .stream t block => execStream_inv t block s h
  | .inputDiscrepancy t ch set => execInputDiscrepancy_inv t ch set s h
  | .proofWindowOpen t ch => execProofWindowOpen_inv t ch s h
  | .proofWindowClose t ch milliamp => execProofWindowClose_inv t ch milliamp s h
  | .proofAgeUpdate t => execProofAgeUpdate_inv t s h
  | .stewardKey t key => execStewardKey_inv t key s h
  | .npWindowClose t => execNpWindowClose_inv t s h
  | .npSecondPeriodEnd t => execNpSecondPeriodEnd_inv t s h
  | .npResetEntry t => execNpResetEntry_inv t s h
  | .holdUpExhausted t => execHoldUpExhausted_inv t s h
  | .pairPresentChange t pins => execPairPresentChange_inv t pins s h
  | .pcieLinkDown t => execPcieLinkDown_inv t s h
  | .completionHeldTimeout t q => execCompletionHeldTimeout_inv t q s h
  | .msixUnmask t v => execMsixUnmask_inv t v s h
  | .updateChunkComplete t => execUpdateChunkComplete_inv t s h
  | .swapReleaseComplete t => execSwapReleaseComplete_inv t s h
  | .canPortIntegrated t k => execCanPortIntegrated_inv t k s h
  | .discardedSegment t => execDiscardedSegment_inv t s h

theorem withPending_inv {s : State} (h : s.Inv) (rest : List Instr) : ({ s with pending := rest } : State).Inv :=
  { h with }

/-- Settles O56: the queue is no part of the invariant, so the front command starts in a state that has it, and keeps it. -/
theorem stepKeepsInv : Obligations.StepKeepsInv := by
  intro s s' inv run
  unfold step at run
  split at run
  case h_1 => cases run; exact inv
  case h_2 i rest _ => exact exec_inv i (withPending_inv inv rest) s' run

end Sys2Proof.Machine
end

section
/-! PROOFS. Accesses of a lane to data memory and image: the bytes of words, what a room keeps, and the report of an access outside (R3, R72,
R75, R88 to R90, R112). -/

namespace Sys2Proof.Machine

/-! ### Bytes of words (R3, R112) -/

theorem toNat_append_byte {n : Nat} (x : BitVec n) (b : Byte) : (x ++ b).toNat = 256 * x.toNat + b.toNat := by
  rw [BitVec.toNat_append, Nat.shiftLeft_eq, Nat.mul_comm, ← Nat.two_pow_add_eq_or_of_lt b.isLt]

theorem ofNat_ofLe_half (a b : Byte) : BitVec.ofNat 16 (ofLe [a, b]) = b ++ a := by
  apply BitVec.eq_of_toNat_eq
  simp only [ofLe, BitVec.toNat_ofNat, toNat_append_byte]
  omega

theorem extend_word (a b c d : Byte) : extend .word false [a, b, c, d] = d ++ c ++ b ++ a := by
  apply BitVec.eq_of_toNat_eq
  simp only [extend, ofLe, BitVec.toNat_ofNat, toNat_append_byte]
  omega

theorem extend_half_signed (a b : Byte) : extend .half true [a, b] = (b ++ a).signExtend 32 :=
  congrArg (BitVec.signExtend 32) (ofNat_ofLe_half a b)

theorem extend_half_unsigned (a b : Byte) : extend .half false [a, b] = (b ++ a).setWidth 32 := by
  apply BitVec.eq_of_toNat_eq
  simp only [extend, ofLe, BitVec.toNat_ofNat, BitVec.toNat_setWidth, toNat_append_byte]
  omega

theorem extend_byte_signed (a : Byte) : extend .byte true [a] = a.signExtend 32 := by
  simp [extend, ofLe]

theorem extend_byte_unsigned (a : Byte) : extend .byte false [a] = a.setWidth 32 := by
  apply BitVec.eq_of_toNat_eq
  simp [extend, ofLe]

theorem getD_toLe (k n : Nat) {i : Nat} (h : i < k) : (toLe k n).getD i 0 = BitVec.ofNat 8 (n / 256 ^ i) := by
  induction k generalizing n i with
  | zero => omega
  | succ k ih =>
    cases i with
    | zero => simp [toLe]
    | succ i =>
      have := ih (n / 256) (i := i) (by omega)
      rw [toLe, List.getD_cons_succ, this, Nat.div_div_eq_div_mul, pow_succ']

theorem getD_toLe_word (w : Word) {k i : Nat} (h : i < k) : (toLe k w.toNat).getD i 0 = w.extractLsb' (8 * i) 8 := by
  rw [getD_toLe k _ h]
  apply BitVec.eq_of_toNat_eq
  rw [BitVec.toNat_ofNat, BitVec.extractLsb'_toNat, Nat.shiftRight_eq_div_pow, Nat.pow_mul]

/-- A read after a write of bytes: the byte written there, what was there before elsewhere. -/
theorem Mem.get_write {m : Mem} (wf : m.wf = true) (a : Nat) (bs : List Byte) (y : Nat) :
    (m.write a bs).get y = if a ≤ y ∧ y < a + bs.length then bs.getD (y - a) 0 else m.get y := by
  split
  case isTrue inside =>
    obtain ⟨i, rfl⟩ := Nat.exists_eq_add_of_le inside.1
    rw [Mem.get_write_inside wf (by omega), Nat.add_sub_cancel_left]
  case isFalse outside => exact Mem.get_write_outside wf (by omega)

/-- A stored word, half or byte: its bytes where it is stored, what was there before elsewhere. -/
theorem Mem.get_write_toLe {m : Mem} (wf : m.wf = true) (a k : Nat) (w : Word) (y : Nat) :
    (m.write a (toLe k w.toNat)).get y = if a ≤ y ∧ y < a + k then w.extractLsb' (8 * (y - a)) 8 else m.get y := by
  rw [Mem.get_write wf, length_toLe]
  split
  case isTrue inside => exact getD_toLe_word w (by omega)
  case isFalse => rfl

/-! ### What an access may write of its room and the machine -/

/-- A room without what an access of its own may write in it: the load in flight, the marks of its retained window, the report. -/
def Room.unaccessed (v : Room) : Room := { v with load := none, dirty := [], changed := [], oow := false }

/-- The machine without what an access of room r may write in it: its own part of the room, memories, figures, records and night porter. -/
def State.unaccessed (s : State) (r : RoomId) : State :=
  { s.updRoom r Room.unaccessed with
    dmem := []
    img := Image.init
    gb := Guest.init
    marks := []
    np := Porter.init
    scan := { s.scan with oow := false, undo := [] } }

theorem upd_upd_of_eq {α : Type} {n : Nat} (v : Vector α n) (i : Fin n) {f g : α → α} (h : ∀ x, g (f x) = g x) :
    upd (upd v i f) i g = upd v i g := by
  ext j hj
  by_cases e : i.val = j <;> simp [upd, e, h]

theorem updRoom_unaccessed (s : State) (r : RoomId) {f : Room → Room} (h : ∀ v, (f v).unaccessed = v.unaccessed) :
    (s.updRoom r f).unaccessed r = s.unaccessed r :=
  congrArg (fun rs => { s.unaccessed r with rooms := rs }) (upd_upd_of_eq s.rooms r h)

/-- The report of R89: both OOW bits, their marks, and a record. -/
theorem reportOow_eq (s : State) (r : RoomId) (pc : BitVec 20) (a : Nat) : ∃ gb marks, s.reportOow r pc a =
    { s.updRoom r (fun v => { v with oow := true }) with scan := { s.scan with oow := true }, gb := gb, marks := marks } :=
  ⟨_, _, gbEvent_alone ..⟩

theorem reportOow_unaccessed (s : State) (r : RoomId) (pc : BitVec 20) (a : Nat) : (s.reportOow r pc a).unaccessed r = s.unaccessed r := by
  obtain ⟨gb, marks, eq⟩ := reportOow_eq s r pc a
  rw [eq]
  exact updRoom_unaccessed s r fun _ => rfl

theorem storeData_unaccessed (s : State) (r : RoomId) (a m : Nat) (bs : List Byte) : (s.storeData r a m bs).unaccessed r = s.unaccessed r := by
  unfold State.storeData
  dsimp only
  split
  · exact updRoom_unaccessed _ r fun _ => rfl
  · rfl

theorem laneStoreData_unaccessed (s : State) (cyc : Nat) (r : RoomId) (a m : Nat) (bs : List Byte) :
    (s.laneStoreData cyc r a m bs).unaccessed r = s.unaccessed r := storeData_unaccessed ..

theorem imageWrite_unaccessed (s : State) (cyc a : Nat) (bs : List Byte) (r : RoomId) :
    (s.imageWrite cyc a bs).unaccessed r = s.unaccessed r := rfl

/-- An access moves its room on by one instruction, which writes no general register and no flag (R105). -/
theorem roomStep_of_unaccessed {s s' : State} {t : Nat} {r : RoomId} {early : Bool}
    (h : s'.unaccessed r = (s.fetched t r early).unaccessed r) : RoomStep s s' t r early [] ∧ s'.rooms[r].b = (s.operands t r).b := by
  have rooms : ∀ q : RoomId, (upd s'.rooms r Room.unaccessed)[q] = (upd (s.fetched t r early).rooms r Room.unaccessed)[q] := fun q =>
    congrArg (fun x : State => x.rooms[q]) h
  have fetched := fetched_fetched s t r early
  have kept := issue_kept (s.operands t r) early (s.fetchCycle t r)
  obtain ⟨flags, pc, -, -, get⟩ := issue_fields (s.operands t r) early (s.fetchCycle t r)
  rw [← fetched_room s t r early] at kept flags pc get
  have own := rooms r
  rw [getElem_upd_self, getElem_upd_self] at own
  have flags' : s'.rooms[r].flags = (s.operands t r).flags := (congrArg Room.flags own :).trans flags
  simp only [Room.flags, Prod.mk.injEq] at flags'
  obtain ⟨z, n, c, v, b⟩ := flags'
  refine ⟨⟨⟨(congrArg State.now h :).trans fetched.now, fun q other => ?_, (congrArg Room.issued own :).trans fetched.issued,
    (congrArg (fun x => x.scan.current[s.rooms[r].lane]) h :).trans fetched.current, (congrArg Room.broken own :).trans fetched.broken⟩,
    fun g _ => (congrArg (fun w => w.get g) own :).trans (get g),
    ((congrArg Room.pc own :).trans pc).trans (congrArg (· + 1) (settle_fields s.rooms[r] _).1), ?_, by rw [z, n, c, v]⟩, b⟩
  · have same := rooms q
    rw [getElem_upd_other other.symm, getElem_upd_other other.symm] at same
    exact same.trans (fetched.others q other)
  · exact ⟨(congrArg Room.acc own :).trans (congrArg Room.acc kept :), (congrArg Room.mlo own :).trans (congrArg Room.mlo kept :),
      (congrArg Room.mhi own :).trans (congrArg Room.mhi kept :), (congrArg Room.frs own :).trans (congrArg Room.frs kept :),
      (congrArg Room.quo own :).trans (congrArg Room.quo kept :), (congrArg Room.rem own :).trans (congrArg Room.rem kept :)⟩

theorem updRoom_id (s : State) (r : RoomId) : s.updRoom r id = s := by
  have same : upd s.rooms r id = s.rooms := by simp [upd]
  exact congrArg (fun rs => { s with rooms := rs }) same

/-- An instruction that finds nothing to do only passes through the pipeline. -/
theorem leaves_idle {s : State} {r : RoomId} (issues : s.canIssue r = true) {t : Nat} {i : Instr} {early : Room → Bool}
    {act : Room → Nat → State → State} (run : exec i s = .next (s.lane t r early act))
    (idle : act (s.operands t r) (s.fetchCycle t r) (s.fetched t r (early (s.operands t r))) = s.fetched t r (early (s.operands t r))) :
    Leaves s t r i (early (s.operands t r)) (s.operands t r).flags ((s.operands t r).pc + 1) := by
  have passes : exec i s = .next (s.lane t r early fun _ _ s₁ => s₁) := by rw [run, lane_eq issues, lane_eq issues, idle]
  exact leaves_lane (f := id) passes issues (fun s₁ => (updRoom_id s₁ r).symm) (fun _ => rfl) fun _ flags pc => ⟨flags, pc⟩

theorem onlyRooms_fetched (s : State) (t : Nat) (r : RoomId) (early : Bool) : OnlyRooms s (s.fetched t r early) := rfl

theorem reportOow_reported {s s₁ : State} (only : OnlyRooms s s₁) (r : RoomId) (pc : BitVec 20) (a : Nat) :
    ReportedOow s (s₁.reportOow r pc a) r := by
  have recorded : (s₁.reportOow r pc a).recorded 0x13 r.val sevFault := gbEvent_recorded ..
  obtain ⟨gb, marks, eq⟩ := reportOow_eq s₁ r pc a
  rw [eq] at recorded ⊢
  refine ⟨?_, rfl, recorded, ?_⟩
  · exact congrArg Room.oow (updRoom_room s₁ r _)
  · rw [only]
    rfl

/-! ### The windows (R88) -/

theorem window_eq_some_iff (v : Room) (a m : Nat) : v.window a = some m ↔ v.Reaches a m := by
  unfold Room.window Room.Reaches
  split_ifs <;> simp <;> omega

theorem window_eq_none {v : Room} {a : Nat} (h : ∀ m, ¬v.Reaches a m) : v.window a = none :=
  Option.eq_none_iff_forall_ne_some.mpr fun m e => h m ((window_eq_some_iff v a m).mp e)

end Sys2Proof.Machine
end

section
/-! PROOFS. Data-memory loads and stores through the two windows (R75, R88, R89, R112, R138, R447). -/

namespace Sys2Proof.Machine

/-! ### Loads -/

/-- The machine after a load that found a value in its window. -/
def State.loaded (s : State) (t : Nat) (r : RoomId) (ra rd : Reg) (x : Word) : State :=
  (s.fetched t r (loadPending [ra] (s.operands t r))).updRoom r (fun w => { w with load := some { due := s.fetchCycle t r + 14, rd := rd, val := x } })

theorem loaded_room (s : State) (t : Nat) (r : RoomId) (ra rd : Reg) (x : Word) : (s.loaded t r ra rd x).rooms[r] =
    { (s.operands t r).issue (loadPending [ra] (s.operands t r)) (s.fetchCycle t r) with
      load := some { due := s.fetchCycle t r + 14, rd := rd, val := x } } := by
  rw [State.loaded, updRoom_room, fetched_room]

theorem loaded_kept (s : State) (t : Nat) (r : RoomId) (ra rd : Reg) (x : Word) : RoomKept (s.operands t r) (s.loaded t r ra rd x).rooms[r] := by
  rw [loaded_room]
  exact congrArg (fun w : Room => { w with load := some { due := s.fetchCycle t r + 14, rd := rd, val := x } })
    (issue_kept (s.operands t r) (loadPending [ra] (s.operands t r)) (s.fetchCycle t r))

theorem onlyRooms_loaded (s : State) (t : Nat) (r : RoomId) (ra rd : Reg) (x : Word) : OnlyRooms s (s.loaded t r ra rd x) := rfl

theorem loaded_unaccessed (s : State) (t : Nat) (r : RoomId) (ra rd : Reg) (x : Word) :
    (s.loaded t r ra rd x).unaccessed r = (s.fetched t r (loadPending [ra] (s.operands t r))).unaccessed r :=
  updRoom_unaccessed _ r fun _ => rfl

theorem laneLoad_inside {s : State} {r : RoomId} (issues : s.canIssue r = true) (t : Nat) (rd ra : Reg) (imm : BitVec 16) (sz : Size)
    (sg : Bool) {m : Nat} (inside : (s.operands t r).Reaches (alignTo sz (effAddr (s.operands t r) ra imm)) m) :
    s.laneLoad t r rd ra imm sz sg = s.loaded t r ra rd (extend sz sg (s.dmem.read m sz.bytes)) := by
  rw [State.laneLoad, lane_eq issues]
  dsimp only
  rw [(window_eq_some_iff ..).mpr inside]
  rfl

theorem laneLoad_outside {s : State} {r : RoomId} (issues : s.canIssue r = true) (t : Nat) (rd ra : Reg) (imm : BitVec 16) (sz : Size)
    (sg : Bool) (outside : ∀ m, ¬(s.operands t r).Reaches (alignTo sz (effAddr (s.operands t r) ra imm)) m) :
    s.laneLoad t r rd ra imm sz sg =
      (s.loaded t r ra rd 0).reportOow r (s.operands t r).pc (alignTo sz (effAddr (s.operands t r) ra imm)) := by
  rw [State.laneLoad, lane_eq issues]
  dsimp only
  rw [window_eq_none outside]
  rfl

/-- A load of any width: what it puts into flight inside and outside the windows. -/
theorem laneLoad_loads {s : State} {r : RoomId} (issues : s.canIssue r = true) (t : Nat) (rd ra : Reg) (imm : BitVec 16) (sz : Size)
    (sg : Bool) {a : Nat} (addr : alignTo sz (effAddr (s.operands t r) ra imm) = a) {val : Nat → Word}
    (value : ∀ m, extend sz sg (s.dmem.read m sz.bytes) = val m) :
    let s' := s.laneLoad t r rd ra imm sz sg
    let v := s.operands t r
    RoomStep s s' t r (loadPending [ra] v) [] ∧ s'.rooms[r].b = v.b ∧
      (∀ m, v.Reaches a m → OnlyRooms s s' ∧ RoomKept v s'.rooms[r] ∧
        s'.rooms[r].load = some { due := s.fetchCycle t r + 14, rd := rd, val := val m }) ∧
      ((∀ m, ¬v.Reaches a m) → ReportedOow s s' r ∧ s'.rooms[r].load = some { due := s.fetchCycle t r + 14, rd := rd, val := 0 }) := by
  subst addr
  intro s' v
  have outside : (∀ m, ¬v.Reaches (alignTo sz (effAddr v ra imm)) m) → s' = _ := laneLoad_outside issues t rd ra imm sz sg
  have inside : ∀ m, v.Reaches (alignTo sz (effAddr v ra imm)) m → s' = s.loaded t r ra rd (val m) := fun m reach => by
    rw [← value]; exact laneLoad_inside issues t rd ra imm sz sg reach
  have key : s'.unaccessed r = (s.fetched t r (loadPending [ra] v)).unaccessed r := by
    by_cases reach : ∃ m, v.Reaches (alignTo sz (effAddr v ra imm)) m
    · obtain ⟨m, reach⟩ := reach
      rw [inside m reach, loaded_unaccessed]
    · rw [outside (not_exists.mp reach), reportOow_unaccessed, loaded_unaccessed]
  obtain ⟨step, b⟩ := roomStep_of_unaccessed key
  refine ⟨step, b, fun m reach => ?_, fun out => ?_⟩
  · rw [inside m reach]
    exact ⟨onlyRooms_loaded .., loaded_kept .., congrArg Room.load (loaded_room ..)⟩
  · rw [outside out]
    refine ⟨reportOow_reported (onlyRooms_loaded ..) r _ _, ?_⟩
    obtain ⟨gb, marks, eq⟩ := reportOow_eq (s.loaded t r ra rd 0) r v.pc (alignTo sz (effAddr v ra imm))
    rw [eq]
    exact (congrArg Room.load (updRoom_room ..)).trans (congrArg Room.load (loaded_room ..))

theorem alignTo_byte (x : Word) : alignTo .byte x = x.toNat := by simp [alignTo, Size.bytes]

theorem dataLoads : Stated.DataLoads := by
  intro s t r rd ra imm issues
  refine ⟨?lw, ?lh, ?lhu, ?lby, ?lbyu⟩
  case lw => exact ⟨_, rfl, laneLoad_loads issues t rd ra imm .word false rfl fun m => extend_word ..⟩
  case lh => exact ⟨_, rfl, laneLoad_loads issues t rd ra imm .half true rfl fun m => extend_half_signed ..⟩
  case lhu => exact ⟨_, rfl, laneLoad_loads issues t rd ra imm .half false rfl fun m => extend_half_unsigned ..⟩
  case lby => exact ⟨_, rfl, laneLoad_loads issues t rd ra imm .byte true (alignTo_byte _) fun m => extend_byte_signed _⟩
  case lbyu => exact ⟨_, rfl, laneLoad_loads issues t rd ra imm .byte false (alignTo_byte _) fun m => extend_byte_unsigned _⟩

/-! ### Stores -/

theorem laneStore_inside {s : State} {r : RoomId} (issues : s.canIssue r = true) (t : Nat) (rd ra : Reg) (imm : BitVec 16) (sz : Size)
    {m : Nat} (inside : (s.operands t r).Reaches (alignTo sz (effAddr (s.operands t r) ra imm)) m) :
    s.laneStore t r rd ra imm sz = (s.fetched t r (loadPending [rd, ra] (s.operands t r))).laneStoreData (s.fetchCycle t r + 5) r
      (alignTo sz (effAddr (s.operands t r) ra imm)) m (toLe sz.bytes ((s.operands t r).get rd).toNat) := by
  rw [State.laneStore, lane_eq issues]
  dsimp only
  rw [(window_eq_some_iff ..).mpr inside]

theorem laneStore_outside {s : State} {r : RoomId} (issues : s.canIssue r = true) (t : Nat) (rd ra : Reg) (imm : BitVec 16) (sz : Size)
    (outside : ∀ m, ¬(s.operands t r).Reaches (alignTo sz (effAddr (s.operands t r) ra imm)) m) :
    s.laneStore t r rd ra imm sz = (s.fetched t r (loadPending [rd, ra] (s.operands t r))).reportOow r (s.operands t r).pc
      (alignTo sz (effAddr (s.operands t r) ra imm)) := by
  rw [State.laneStore, lane_eq issues]
  dsimp only
  rw [window_eq_none outside]

theorem mem_markDirty (blocks : List (Nat × Nat)) (b now : Nat) : ∃ e ∈ markDirty blocks b now, e.1 = b := by
  unfold markDirty
  split
  case isTrue marked =>
    obtain ⟨e, mem, eq⟩ := List.any_eq_true.mp marked
    exact ⟨e, mem, beq_iff_eq.mp eq⟩
  case isFalse => exact ⟨(b, now), by simp, rfl⟩

theorem laneStoreData_dmem (s : State) (cyc : Nat) (r : RoomId) (a m : Nat) (bs : List Byte) :
    (s.laneStoreData cyc r a m bs).dmem = s.dmem.write m bs := by
  unfold State.laneStoreData State.storeData
  dsimp only
  split <;> rfl

theorem laneStoreData_alone (s : State) (cyc : Nat) (r : RoomId) (a m : Nat) (bs : List Byte) : s.laneStoreData cyc r a m bs =
    { s with
      rooms := (s.laneStoreData cyc r a m bs).rooms
      scan := (s.laneStoreData cyc r a m bs).scan
      dmem := (s.laneStoreData cyc r a m bs).dmem } := by
  unfold State.laneStoreData State.storeData
  dsimp only
  split <;> rfl

theorem laneStoreData_private {s : State} {r : RoomId} {a : Nat} (window : a < 2 ^ 23) (cyc m : Nat) (bs : List Byte) :
    (s.laneStoreData cyc r a m bs).rooms = s.rooms := by
  unfold State.laneStoreData State.storeData
  dsimp only
  rw [if_neg]
  simp only [Room.inRetained, Bool.and_eq_true, decide_eq_true_eq]
  omega

theorem laneStoreData_retained {s : State} {r : RoomId} {a : Nat} (window : s.rooms[r].inRetained a = true) (cyc m : Nat) (bs : List Byte) :
    ∃ e ∈ (s.laneStoreData cyc r a m bs).rooms[r].dirty, e.1 = (a - 2 ^ 23) / 64 := by
  unfold State.laneStoreData State.storeData
  dsimp only
  rw [if_pos window, updRoom_room]
  exact mem_markDirty ..

theorem inRetained_of_reaches {v : Room} {a m : Nat} (reach : v.Reaches a m) (high : 2 ^ 23 ≤ a) : v.inRetained a = true := by
  unfold Room.Reaches at reach
  simp only [Room.inRetained, Bool.and_eq_true, decide_eq_true_eq]
  omega

/-- An address is aligned within its window and its block of 64 bytes. -/
theorem alignTo_retained (sz : Size) (x : Word) : (alignTo sz x < 2 ^ 23 ↔ x.toNat < 2 ^ 23) ∧
    (2 ^ 23 ≤ x.toNat → (alignTo sz x - 2 ^ 23) / 64 = (x.toNat - 2 ^ 23) / 64) := by
  cases sz <;> simp only [alignTo, Size.bytes] <;> omega

/-- A store of any width: what it writes inside and outside the windows. -/
theorem laneStore_stores {s : State} (inv : s.Inv) {r : RoomId} (issues : s.canIssue r = true) (t : Nat) (rd ra : Reg) (imm : BitVec 16)
    (sz : Size) :
    let s' := s.laneStore t r rd ra imm sz
    let v := s.operands t r
    let x := effAddr v ra imm
    RoomStep s s' t r (loadPending [rd, ra] v) [] ∧ s'.rooms[r].b = v.b ∧
      (∀ m, v.Reaches (alignTo sz x) m →
        s' = { s with rooms := s'.rooms, now := s'.now, scan := s'.scan, dmem := s'.dmem } ∧
        (∀ y, s'.dmem.get y = if m ≤ y ∧ y < m + sz.bytes then (v.get rd).extractLsb' (8 * (y - m)) 8 else s.dmem.get y) ∧
        (x.toNat < 2 ^ 23 → s'.rooms[r].dirty = v.dirty ∧ s'.rooms[r].changed = v.changed) ∧
        (2 ^ 23 ≤ x.toNat → ∃ e ∈ s'.rooms[r].dirty, e.1 = (x.toNat - 2 ^ 23) / 64)) ∧
      ((∀ m, ¬v.Reaches (alignTo sz x) m) → ReportedOow s s' r) := by
  intro s' v x
  have outside : (∀ m, ¬v.Reaches (alignTo sz x) m) → s' = _ := laneStore_outside issues t rd ra imm sz
  have inside : ∀ m, v.Reaches (alignTo sz x) m → s' = _ := fun m => laneStore_inside issues t rd ra imm sz
  have key : s'.unaccessed r = (s.fetched t r (loadPending [rd, ra] v)).unaccessed r := by
    by_cases reach : ∃ m, v.Reaches (alignTo sz x) m
    · obtain ⟨m, reach⟩ := reach
      rw [inside m reach, laneStoreData_unaccessed]
    · rw [outside (not_exists.mp reach), reportOow_unaccessed]
  obtain ⟨step, b⟩ := roomStep_of_unaccessed key
  obtain ⟨low, block⟩ := alignTo_retained sz x
  have kept := issue_kept v (loadPending [rd, ra] v) (s.fetchCycle t r)
  rw [← fetched_room s t r] at kept
  refine ⟨step, b, fun m reach => ⟨?_, fun y => ?_, fun priv => ?_, fun ret => ?_⟩, fun out => ?_⟩
  · rw [inside m reach, laneStoreData_alone]
    rfl
  · rw [inside m reach, laneStoreData_dmem]
    exact Mem.get_write_toLe inv.dmem ..
  · rw [inside m reach, laneStoreData_private (low.mpr priv)]
    exact ⟨(congrArg Room.dirty kept :), (congrArg Room.changed kept :)⟩
  · rw [inside m reach, ← block ret]
    refine laneStoreData_retained ?_ ..
    rw [kept]
    exact inRetained_of_reaches reach (not_lt.mp (low.not.mpr (not_lt.mpr ret)))
  · rw [outside out]
    exact reportOow_reported (onlyRooms_fetched ..) r _ _

theorem dataStores : Stated.DataStores := by
  intro s t r rd ra imm inv issues
  exact ⟨⟨_, rfl, laneStore_stores inv issues t rd ra imm .word⟩, ⟨_, rfl, laneStore_stores inv issues t rd ra imm .half⟩,
    ⟨_, rfl, laneStore_stores inv issues t rd ra imm .byte⟩⟩

/-- Settles O5: a load and a store of any width find their place by `Room.window`, or report. -/
theorem dataMemoryAccess : Obligations.DataMemoryAccess := ⟨dataLoads, dataStores⟩

end Sys2Proof.Machine
end

section
/-! PROOFS. Image stores, STB, SET and RST (R89, R90, R114, R138, R139, R192). -/

namespace Sys2Proof.Machine

/-! ### What a write of the pending image does -/

/-- Of machine and image nothing but the room, time, the figures, the pending copy and the channels written is written by a store at image
address a, and a channel counts as written when a lies in its output word. -/
def ImageStored (s s' : State) (v : Room) (r : RoomId) (a : Nat) : Prop :=
  s' = { s with rooms := s'.rooms, now := s'.now, scan := s'.scan, img := s'.img } ∧
    s'.img = { s.img with pend := s'.img.pend, written := s'.img.written } ∧ RoomKept v s'.rooms[r] ∧
    ∀ n, n ∈ s'.img.written ↔ n ∈ s.img.written ∨ (0x1000 ≤ a ∧ a < 0x1300 ∧ n = (a - 0x1000) / 4)

theorem imageWrite_written (s : State) (cyc a : Nat) (bs : List Byte) (n : Nat) : n ∈ (s.imageWrite cyc a bs).img.written ↔
    n ∈ s.img.written ∨ (0x1000 ≤ a ∧ a < 0x1300 ∧ n = (a - 0x1000) / 4) := by
  unfold State.imageWrite
  dsimp only
  split
  case isTrue output =>
    split
    case isTrue already =>
      refine ⟨.inl, fun h => h.elim id ?_⟩
      rintro ⟨-, -, rfl⟩
      exact List.contains_iff_mem.mp already
    case isFalse => simp [output]
  case isFalse other =>
    refine ⟨.inl, fun h => h.elim id ?_⟩
    rintro ⟨low, high, -⟩
    exact absurd ⟨low, high⟩ other

theorem imageWrite_stored (s : State) (t : Nat) (r : RoomId) (early : Bool) (cyc a : Nat) (bs : List Byte) :
    ImageStored s ((s.fetched t r early).imageWrite cyc a bs) (s.operands t r) r a := by
  refine ⟨rfl, rfl, ?_, imageWrite_written _ cyc a bs⟩
  have kept := issue_kept (s.operands t r) early (s.fetchCycle t r)
  rw [← fetched_room] at kept
  exact kept

/-! ### Stores of words, halves and bytes -/

/-- The write set is a matter of the running configuration, which no fetch changes. -/
theorem fetched_writable (s : State) (t : Nat) (r : RoomId) (early : Bool) (q : RoomId) (a : Nat) :
    (s.fetched t r early).writable q a = s.writable q a := rfl

/-- An image store of any width: what it writes inside and outside the write set. -/
theorem laneImgStore_stores {s : State} (inv : s.Inv) {r : RoomId} (issues : s.canIssue r = true) (t : Nat) (rd ra : Reg) (imm : BitVec 16)
    (sz : Size) :
    let s' := s.laneImgStore t r rd ra imm sz
    let v := s.operands t r
    let a := alignTo sz (effAddr v ra imm)
    RoomStep s s' t r (loadPending [rd, ra] v) [] ∧ s'.rooms[r].b = v.b ∧
      (s.writable r a = true → ImageStored s s' v r a ∧
        ∀ y, s'.img.pend.get y = if a ≤ y ∧ y < a + sz.bytes then (v.get rd).extractLsb' (8 * (y - a)) 8 else s.img.pend.get y) ∧
      (s.writable r a = false → ReportedOow s s' r) := by
  intro s' v a
  have eq : s' = if s.writable r a then
      (s.fetched t r (loadPending [rd, ra] v)).imageWrite (s.fetchCycle t r + 5) a (toLe sz.bytes (v.get rd).toNat)
    else (s.fetched t r (loadPending [rd, ra] v)).reportOow r v.pc a := by
    unfold s' State.laneImgStore
    rw [lane_eq issues]
    rfl
  have key : s'.unaccessed r = (s.fetched t r (loadPending [rd, ra] v)).unaccessed r := by
    rw [eq]
    split
    · exact imageWrite_unaccessed ..
    · exact reportOow_unaccessed ..
  obtain ⟨step, b⟩ := roomStep_of_unaccessed key
  refine ⟨step, b, fun own => ?_, fun foreign => ?_⟩
  · rw [eq, if_pos own]
    exact ⟨imageWrite_stored .., fun y => Mem.get_write_toLe inv.pend ..⟩
  · rw [eq, if_neg (by rw [foreign]; exact Bool.false_ne_true)]
    exact reportOow_reported (onlyRooms_fetched ..) r _ _

/-! ### Stores of bits -/

theorem setBit_eq_twoPow (b : Byte) (i : Nat) (x : Bool) :
    setBit b i x = if x then b ||| BitVec.twoPow 8 i else b &&& ~~~BitVec.twoPow 8 i := rfl

theorem getLsbD_setBit (b : Byte) (i : Nat) {k : Nat} (hk : k < 8) (x : Bool) :
    (setBit b i x).getLsbD k = if k = i then x else b.getLsbD k := by
  rw [setBit_eq_twoPow]
  by_cases e : k = i
  · subst e
    cases x <;> simp [hk]
  · cases x <;> simp [e, hk]

/-- The bits of the image after one of them is stored. -/
theorem get_write_setBit {m : Mem} (wf : m.wf = true) (x : Nat) (q : Bool) (y : Nat) {k : Nat} (hk : k < 8) :
    ((m.write (x / 8) [setBit (m.get (x / 8)) (x % 8) q]).get y).getLsbD k =
      if y = x / 8 ∧ k = x % 8 then q else (m.get y).getLsbD k := by
  change ((m.put (x / 8) _).get y).getLsbD k = _
  rw [Mem.get_put wf]
  by_cases here : y = x / 8
  · subst here
    simp [getLsbD_setBit _ _ hk]
  · simp [here]

/-- A store of one bit by a fetched instruction: what it writes inside and outside the write set. -/
theorem storeBit_stores {s : State} (inv : s.Inv) (t : Nat) (r : RoomId) (early : Bool) (x : Nat) (q : Bool) :
    let v := s.operands t r
    let s' := (s.fetched t r early).storeBit (s.fetchCycle t r + 5) r v.pc x q
    RoomStep s s' t r early [] ∧ s'.rooms[r].b = v.b ∧
      (x < 2 ^ 22 → s.writable r (x / 8) = true → ImageStored s s' v r (x / 8) ∧
        ∀ y, ∀ k < 8, (s'.img.pend.get y).getLsbD k = if y = x / 8 ∧ k = x % 8 then q else (s.img.pend.get y).getLsbD k) ∧
      ((2 ^ 22 ≤ x ∨ s.writable r (x / 8) = false) → ReportedOow s s' r) := by
  intro v s'
  have eq : s' = if x < 2 ^ 22 ∧ s.writable r (x / 8) = true then
      (s.fetched t r early).imageWrite (s.fetchCycle t r + 5) (x / 8) [setBit (s.img.pend.get (x / 8)) (x % 8) q]
    else (s.fetched t r early).reportOow r v.pc x := rfl
  have key : s'.unaccessed r = (s.fetched t r early).unaccessed r := by
    rw [eq]
    split
    · exact imageWrite_unaccessed ..
    · exact reportOow_unaccessed ..
  obtain ⟨step, b⟩ := roomStep_of_unaccessed key
  refine ⟨step, b, fun inside own => ?_, fun outside => ?_⟩
  · rw [eq, if_pos ⟨inside, own⟩]
    exact ⟨imageWrite_stored .., fun y k hk => get_write_setBit inv.pend x q y hk⟩
  · rw [eq, if_neg]
    · exact reportOow_reported (onlyRooms_fetched ..) r _ _
    · rintro ⟨inside, own⟩
      exact outside.elim (not_le.mpr inside) (by simp [own])

section
variable {s : State} {r : RoomId} (issues : s.canIssue r = true) (t : Nat) (rd ra : Reg) (imm : BitVec 16)
include issues

theorem exec_stb : exec (.stb t r rd ra imm) s = .next ((s.fetched t r (loadPending [rd, ra] (s.operands t r))).storeBit (s.fetchCycle t r + 5) r
    (s.operands t r).pc (effAddr (s.operands t r) ra imm).toNat (((s.operands t r).get rd).getLsbD 0)) :=
  congrArg Host.Outcome.next (lane_eq issues)

theorem exec_set (b : (s.operands t r).b = true) : exec (.set t r ra imm) s = .next ((s.fetched t r (loadPending [ra] (s.operands t r))).storeBit
    (s.fetchCycle t r + 5) r (s.operands t r).pc (effAddr (s.operands t r) ra imm).toNat true) :=
  congrArg Host.Outcome.next ((lane_eq issues).trans (if_pos b))

theorem exec_rst (b : (s.operands t r).b = true) : exec (.rst t r ra imm) s = .next ((s.fetched t r (loadPending [ra] (s.operands t r))).storeBit
    (s.fetchCycle t r + 5) r (s.operands t r).pc (effAddr (s.operands t r) ra imm).toNat false) :=
  congrArg Host.Outcome.next ((lane_eq issues).trans (if_pos b))

end

/-- Settles O7: each store writes its bytes, or its bit, of the pending image where the write set has the address, and reports elsewhere. -/
theorem imageStores : Obligations.ImageStores := by
  intro s t r rd ra imm inv issues
  refine ⟨⟨_, rfl, laneImgStore_stores inv issues t rd ra imm .word⟩, ⟨_, rfl, laneImgStore_stores inv issues t rd ra imm .half⟩,
    ⟨_, rfl, laneImgStore_stores inv issues t rd ra imm .byte⟩, ⟨_, exec_stb issues t rd ra imm, storeBit_stores inv ..⟩,
    fun b => ⟨⟨_, exec_set issues t ra imm b, storeBit_stores inv ..⟩, ⟨_, exec_rst issues t ra imm b, storeBit_stores inv ..⟩⟩,
    fun b => ⟨?_, ?_⟩⟩
  · exact leaves_idle issues rfl (if_neg (by simp [b]))
  · exact leaves_idle issues rfl (if_neg (by simp [b]))

end Sys2Proof.Machine
end

section
/-! PROOFS. REST, WDK, a word that is no instruction, and LPR without its entry (R81, R109, R126, R152, R153, R409). -/

namespace Sys2Proof.Machine

/-! ### Rooms whose results settle (R75, R78) -/

/-- A room without its registers and what waits to be written to them. -/
def Room.unsettled (v : Room) : Room :=
  { v with g := Vector.replicate 32 0, load := none, mlo := 0, mhi := 0, frs := 0, quo := 0, rem := 0, macQ := [], fpuQ := [], divQ := [] }

theorem put_unsettled (v : Room) (g : Reg) (w : Word) : ({ v.put g w with load := none } : Room).unsettled = v.unsettled := by
  rw [put_regs]
  rfl

/-- Results that settle write registers and leave their queues, no more. -/
theorem settle_unsettled (v : Room) (cyc : Nat) : (v.settle cyc).unsettled = v.unsettled := by
  have mac (w : Room) (q : List (Nat × DWord)) : ({ w with macQ := q } : Room).unsettled = w.unsettled := rfl
  have fpu (w : Room) (q : List (Nat × Word)) : ({ w with fpuQ := q } : Room).unsettled = w.unsettled := rfl
  have div (w : Room) (q : List (Nat × Word × Word)) : ({ w with divQ := q } : Room).unsettled = w.unsettled := rfl
  unfold Room.settle
  dsimp only
  rw [div, foldl_keeps Room.unsettled, fpu, foldl_keeps Room.unsettled, mac, foldl_keeps Room.unsettled]
  case hf | hf | hf => exact fun _ _ => rfl
  split
  · split
    · exact put_unsettled ..
    · rfl
  · rfl

/-- A room that can issue is READY and has no REST behind it (R81, R83). -/
theorem ready_of_canIssue {s : State} {r : RoomId} (issues : s.canIssue r = true) : s.rooms[r].st = .ready ∧ s.rooms[r].restAt = none := by
  simp only [State.canIssue, Room.ready, Bool.and_eq_true, beq_iff_eq, Option.isNone_iff_eq_none] at issues
  exact issues.1.2

theorem not_canIssue_of_rest {s : State} {r : RoomId} {e : Nat} (rest : s.rooms[r].restAt = some e) : s.canIssue r = false :=
  Bool.eq_false_iff.mpr fun issues => Option.some_ne_none e (rest.symm.trans (ready_of_canIssue issues).2)

theorem stAt_of_rest {v : Room} {e : Nat} (ready : v.st = .ready) (rest : v.restAt = some e) (x : Nat) :
    v.stAt x = if e ≤ x then .waiting else .ready := by
  simp [Room.stAt, ready, rest]

theorem fetched_st {s : State} {r : RoomId} (issues : s.canIssue r = true) (t : Nat) (early : Bool) :
    (s.fetched t r early).rooms[r].st = .ready := by
  have settled := settle_unsettled s.rooms[r] (s.fetchCycle t r + 2)
  have kept := issue_kept (s.operands t r) early (s.fetchCycle t r)
  rw [← fetched_room] at kept
  exact (congrArg Room.st kept :).trans ((congrArg Room.st settled :).trans (ready_of_canIssue issues).1)

/-! ### REST (R81, R85, R152, R447) -/

/-- A capture writes journal, records, and of its room the marks of the retained window. -/
theorem capture_eq (s : State) (r : RoomId) (i w : Nat) : ∃ (mark : Room → Room) (nv : Nv) (gb : Guest),
    s.capture r i w = { s.updRoom r mark with nv := nv, gb := gb } ∧
      ∀ v, mark v = { v with dirty := (mark v).dirty, jdead := (mark v).jdead } := by
  unfold State.capture State.skipCapture
  dsimp only
  split
  case isTrue => exact ⟨id, s.nv, s.gb, (updRoom_id s r).symm, fun _ => rfl⟩
  case isFalse =>
    split
    case isTrue =>
      split
      case isTrue => exact ⟨fun v => { v with jdead := true }, _, _, gbEvent_alone .., fun _ => rfl⟩
      case isFalse => exact ⟨id, _, s.gb, by rw [updRoom_id], fun _ => rfl⟩
    case isFalse => exact ⟨fun v => { v with dirty := [] }, _, s.gb, rfl, fun _ => rfl⟩

/-- What REST leaves of its issued room: nothing pending but its own write-back in cycle w, and the entry as the next instruction. -/
def Room.Rested (v v' : Room) (entry : BitVec 20) (w : Nat) : Prop :=
  ∃ peak resp dirty jdead,
    v' = { v with restAt := some w, pc := entry, restDone := w, peak := peak, resp := resp, dirty := dirty, jdead := jdead }

theorem Room.Rested.marked {v v₁ v' : Room} {entry : BitVec 20} {w : Nat} (h : v.Rested v₁ entry w)
    (marks : v' = { v₁ with dirty := v'.dirty, jdead := v'.jdead }) : v.Rested v' entry w := by
  obtain ⟨peak, resp, _, _, rfl⟩ := h
  exact ⟨peak, resp, _, _, marks⟩

theorem Fetched.of_room {s s₁ s' : State} {t : Nat} {r : RoomId} {early : Bool} (h : Fetched s s₁ t r early) (now : s'.now = s₁.now)
    (scan : s'.scan = s₁.scan) (others : ∀ q : RoomId, q ≠ r → s'.rooms[q] = s₁.rooms[q])
    (issued : s'.rooms[r].issued = s₁.rooms[r].issued) (broken : s'.rooms[r].broken = s₁.rooms[r].broken) : Fetched s s' t r early where
  now := now.trans h.now
  others q other := (others q other).trans (h.others q other)
  issued := issued.trans h.issued
  current := (congrArg (fun c => c.current[s.rooms[r].lane]) scan).trans h.current
  broken := broken.trans h.broken

theorem exec_rest {s : State} {r : RoomId} (issues : s.canIssue r = true) (t : Nat) {i : Nat} (task : s.taskOf r = some i) :
    ∃ rest : Room → Room, exec (.rest t r) s = .next (((s.fetched t r false).updRoom r rest).capture r i (s.fetchCycle t r + 7)) ∧
      ∀ v : Room, v.Rested (rest v) (s.entryPc i) (s.fetchCycle t r + 7) := by
  have run : exec (.rest t r) s = .next (match s.taskOf r with | none => _ | some i => State.capture (State.updRoom _ r _) r i _) :=
    congrArg Host.Outcome.next (lane_eq issues)
  rw [task] at run
  exact ⟨_, run, fun _ => ⟨_, _, _, _, rfl⟩⟩

/-- REST leaves its room READY at the entry until its write-back, memory and image alone, and every other room too. -/
theorem rest_rested {s : State} {r : RoomId} (issues : s.canIssue r = true) (t : Nat) {i : Nat} (task : s.taskOf r = some i) : ∃ s',
    exec (.rest t r) s = .next s' ∧ Fetched s s' t r false ∧ s'.dmem = s.dmem ∧ s'.img = s.img ∧
      (s.fetched t r false).rooms[r].Rested s'.rooms[r] (s.entryPc i) (s.fetchCycle t r + 7) := by
  obtain ⟨rest, run, rests⟩ := exec_rest issues t task
  obtain ⟨mark, nv, gb, captured, marks⟩ := capture_eq ((s.fetched t r false).updRoom r rest) r i (s.fetchCycle t r + 7)
  rw [captured] at run
  have rested := (rests (s.fetched t r false).rooms[r]).marked (marks _)
  have room : ({ ((s.fetched t r false).updRoom r rest).updRoom r mark with nv := nv, gb := gb } : State).rooms[r] =
      mark (rest (s.fetched t r false).rooms[r]) := by rw [← updRoom_room _ r rest]; exact updRoom_room ..
  rw [← room] at rested
  obtain ⟨_, _, _, _, eq⟩ := id rested
  refine ⟨_, run, (fetched_fetched s t r false).of_room rfl rfl (fun q other => ?_) (congrArg Room.issued eq :)
    (congrArg Room.broken eq :), rfl, rfl, rested⟩
  exact (updRoom_other _ r q mark other).trans (updRoom_other _ r q rest other)

/-! ### WDK (R153, R409) -/

/-- A key accepted in the open window. -/
theorem npKey_accepted {s : State} {key : BitVec 16} (right : key = appKey) (opened : s.np.start + s.np.open'.toNat ≤ s.tb)
    (closes : s.tb < s.np.start + s.np.close.toNat) (first : s.np.appok = false) (lives : s.np.expired = false) : ∃ np,
    s.npKey true key = { s with np := np } ∧ np.appok = true ∧ np.lastApp = BitVec.ofNat 64 s.tb := by
  have inWindow : ¬(s.tb - s.np.start < s.np.open'.toNat ∨ s.np.close.toNat ≤ s.tb - s.np.start) := by omega
  simp only [State.npKey, right, if_true, ne_eq, not_true_eq_false, if_false, inWindow, first, lives, Bool.false_eq_true]
  unfold State.npRecover
  split
  · exact ⟨_, rfl, rfl, rfl⟩
  · exact ⟨_, rfl, rfl, rfl⟩

theorem setWidth_eq_appKey {x : Word} (h : x.toNat % 2 ^ 16 = 0x3C5A) : x.setWidth 16 = appKey :=
  BitVec.eq_of_toNat_eq (by rw [BitVec.toNat_setWidth, h]; rfl)

theorem exec_wdk_supervisor {s : State} {r : RoomId} (issues : s.canIssue r = true) {c : Conf} (cur : s.app.cur = some c)
    (super : s.roomOf c.way.super = some r) (t : Nat) (ra : Reg) : exec (.wdk t r ra) s = .next
      { ({ s.fetched t r (loadPending [ra] (s.operands t r)) with now := s.fetchCycle t r + 5 } : State).npKey true
          (((s.operands t r).get ra).setWidth 16) with now := s.fetchCycle t r + 1 } := by
  change execWdk t r ra s = _
  unfold execWdk
  rw [lane_eq issues]
  dsimp only
  rw [show (s.fetched t r (loadPending [ra] (s.operands t r))).app.cur = some c from cur]
  exact congrArg Host.Outcome.next (if_pos super)

/-- Settles O11: REST and WDK write what belongs to them on top of the fetch, the other two nothing. -/
theorem restWdkAndInvalidWords : Obligations.RestWdkAndInvalidWords := by
  intro s t r ra rd imm w issues
  refine ⟨leaves_idle (early := fun _ => false) issues rfl rfl, fun none => ?lpr, fun i task => ?rest, fun other => ?foreign,
    fun c cur super lives first opened closes right => ?key⟩
  case lpr =>
    have bound : s.bound imm = .none := by
      unfold State.bound
      split
      case h_1 => rfl
      case h_2 c cur => exact none c cur
    have run : exec (.lpr t r rd ra imm) s = .next (s.lane t r (fun _ => false) fun _ _ s₁ => s₁) := by
      change execLpr t r rd ra imm s = _
      rw [execLpr, bound]
    exact leaves_idle issues run rfl
  case rest =>
    obtain ⟨s', run, fetched, dmem, img, rested⟩ := rest_rested issues t task
    obtain ⟨flags, -, -, -, get⟩ := issue_fields (s.operands t r) false (s.fetchCycle t r)
    rw [← fetched_room s t r] at flags get
    have ready := fetched_st issues t false
    generalize (s.fetched t r false).rooms[r] = v at flags get rested ready
    obtain ⟨_, _, _, _, rested⟩ := rested
    have restAt : s'.rooms[r].restAt = some (s.fetchCycle t r + 7) := congrArg Room.restAt rested
    exact ⟨s', run, fetched, stAt_of_rest ((congrArg Room.st rested :).trans ready) restAt, not_canIssue_of_rest restAt,
      congrArg Room.pc rested, congrArg Room.restDone rested, fun g => (congrArg (fun w => w.get g) rested :).trans (get g),
      (congrArg Room.flags rested :).trans flags, dmem, img⟩
  case foreign =>
    refine leaves_idle issues rfl ?_
    dsimp only
    split
    case h_1 => rfl
    case h_2 c cur => exact if_neg (other c cur)
  case key =>
    obtain ⟨np, accepted, appok, lastApp⟩ := npKey_accepted
      (s := { s.fetched t r (loadPending [ra] (s.operands t r)) with now := s.fetchCycle t r + 5 }) (setWidth_eq_appKey right) opened closes
      first lives
    have run := exec_wdk_supervisor issues cur super t ra
    rw [accepted] at run
    obtain ⟨step, b⟩ := roomStep_of_unaccessed (s := s) (r := r)
      (s' := { s.fetched t r (loadPending [ra] (s.operands t r)) with np := np }) rfl
    exact ⟨_, run, step, b, appok, lastApp, rfl⟩

end Sys2Proof.Machine
end

section
/-! PROOFS. The first hardware fault (R16, R34, R97 to R99): silence, the writes of later stages that it cuts, and the evidence. -/

namespace Sys2Proof.Machine

/-! ### Silence (R34, R98) -/

/-- FAULT_N is asserted at most 1 µs from now, until the first commit after the restart. -/
def State.FaultAsserts (s : State) : Prop := (∃ x, s.pwr.faultAt = some x ∧ x ≤ s.now + usCycles) ∧ s.pwr.faultHold = true

theorem cutHandOver_lanes (s : State) (f : Nat) : LanesKept s (s.cutHandOver f) ∧ (s.cutHandOver f).scan = s.scan := ⟨⟨rfl, rfl, rfl⟩, rfl⟩

/-- Silence stops the lanes and asserts FAULT_N; rooms, memories and what is in the pipeline stay. -/
theorem silence_stops (s : State) : LanesKept s s.silence ∧ s.silence.scan = { s.scan with lanes := false } ∧ s.silence.FaultAsserts := by
  have kept := canSilence_portless (s.cutHandOver s.tb)
  obtain ⟨⟨rooms, dmem, img⟩, scan⟩ := cutHandOver_lanes s s.tb
  unfold State.silence
  dsimp only
  generalize s.cutHandOver s.tb = s₁ at kept rooms dmem img scan
  generalize s₁.canSilence = s₂ at kept
  refine ⟨⟨(congrArg State.rooms kept :).trans rooms, (congrArg State.dmem kept :).trans dmem, (congrArg State.img kept :).trans img⟩, ?_,
    ⟨_, rfl, Nat.min_le_right ..⟩, rfl⟩
  rw [← scan]
  exact (congrArg (fun s : State => { s.scan with lanes := false }) kept :)

/-! ### Stores taken back (R98) -/

/-- The byte of the data memory, or of the pending image, that a lane's store may write. -/
def State.storedByte (s : State) (image : Bool) (a : Nat) : Byte := if image then s.img.pend.get a else s.dmem.get a

/-- The memories that lanes store to have their canonical form. -/
def State.StoresOk (s : State) : Prop := s.dmem.wf = true ∧ s.img.pend.wf = true

/-- One store taken back. -/
def State.undoStore (s : State) (u : Undo) : State :=
  if u.image then { s with img := { s.img with pend := s.img.pend.put u.addr u.old } } else { s with dmem := s.dmem.put u.addr u.old }

theorem undoStores_eq (s : State) :
    s.undoStores = (s.scan.undo.reverse.filter (fun u => decide (s.now < u.at'))).foldl State.undoStore s := rfl

theorem undoStore_ok {s : State} (ok : s.StoresOk) (u : Undo) : (s.undoStore u).StoresOk := by
  unfold State.undoStore
  split
  · exact ⟨ok.1, Mem.wf_put ok.2⟩
  · exact ⟨Mem.wf_put ok.1, ok.2⟩

theorem undoStore_storedByte {s : State} (ok : s.StoresOk) (u : Undo) (image : Bool) (a : Nat) :
    (s.undoStore u).storedByte image a = if u.image = image ∧ u.addr = a then u.old else s.storedByte image a := by
  unfold State.undoStore State.storedByte
  cases u.image <;> cases image <;> simp [Mem.get_put ok.1, Mem.get_put ok.2, eq_comm]

/-- A byte that one of the stores taken back has written, and no other one of them, is again what it was before that store. -/
theorem storedByte_undone {s : State} (ok : s.StoresOk) {us : List Undo} {u : Undo} (mem : u ∈ us)
    (alone : ∀ w ∈ us, w.image = u.image → w.addr = u.addr → w = u) : (us.foldl State.undoStore s).storedByte u.image u.addr = u.old := by
  obtain ⟨before, behind, rfl⟩ := List.append_of_mem mem
  have reached : (before.foldl State.undoStore s).StoresOk := List.foldlRecOn before _ ok fun _ h w _ => undoStore_ok h w
  have set := undoStore_storedByte reached u u.image u.addr
  rw [if_pos ⟨rfl, rfl⟩] at set
  rw [List.foldl_append, List.foldl_cons]
  refine (List.foldlRecOn (motive := fun s : State => s.StoresOk ∧ s.storedByte u.image u.addr = u.old) behind _ ⟨undoStore_ok reached u, set⟩
    fun s' h w memw => ⟨undoStore_ok h.1 w, ?_⟩).2
  rw [undoStore_storedByte h.1]
  split
  case isTrue same => rw [alone w (by simp [memw]) same.1 same.2]
  case isFalse => exact h.2

/-- Of the machine, stores taken back write data memory and pending image only. -/
theorem undoStores_alone (s : State) : s.undoStores = { s with dmem := s.undoStores.dmem, img := s.undoStores.img } := by
  rw [undoStores_eq]
  refine List.foldlRecOn (motive := fun s' : State => s' = { s with dmem := s'.dmem, img := s'.img }) _ _ rfl fun s' h u _ => ?_
  unfold State.undoStore
  split <;> rw [h]

/-- Stores taken back leave the rooms, the pipeline and the time alone. -/
theorem undoStores_keeps (s : State) : s.undoStores.rooms = s.rooms ∧ s.undoStores.scan = s.scan ∧ s.undoStores.now = s.now :=
  ⟨(congrArg State.rooms (undoStores_alone s) :), (congrArg State.scan (undoStores_alone s) :), (congrArg State.now (undoStores_alone s) :)⟩

theorem undoStores_of_done {s : State} (done : ∀ u ∈ s.scan.undo, u.at' ≤ s.now) : s.undoStores = s := by
  have none : s.scan.undo.reverse.filter (fun u => decide (s.now < u.at')) = [] := by simpa using done
  rw [undoStores_eq, none]
  rfl

/-! ### Instructions taken back (R98) -/

/-- An instruction taken back: its room is as before its fetch. -/
def State.undoFlight (s : State) (x : Flight) : State := s.updRoom x.room (fun v => v.before x.before)

theorem undoFlights_other {s : State} {xs : List Flight} {q : RoomId} (others : ∀ x ∈ xs, x.room ≠ q) :
    (xs.foldl State.undoFlight s).rooms[q] = s.rooms[q] :=
  List.foldlRecOn (motive := fun s' : State => s'.rooms[q] = s.rooms[q]) xs _ rfl fun s' h x mem =>
    (updRoom_other s' x.room q _ (others x mem).symm).trans h

theorem undoFlights_alone (s : State) (xs : List Flight) :
    xs.foldl State.undoFlight s = { s with rooms := (xs.foldl State.undoFlight s).rooms } :=
  List.foldlRecOn (motive := fun s' : State => s' = { s with rooms := s'.rooms }) xs _ rfl fun s' h x _ => by
    rw [State.undoFlight, h]
    rfl

/-- The rooms after a fault: what has not reached write-back is taken back, and no result in flight comes in any more. -/
def State.cutRooms (s : State) : Vector Room 100 :=
  ((s.scan.flights.reverse.filter (fun x => decide (s.now < x.at' + 7))).foldl State.undoFlight s).rooms.map (fun v => v.cut s.now)

/-- What a cut of the pipeline writes: rooms, data memory, pending image, and the pipeline's own marks. -/
theorem cutPipeline_eq (s : State) : s.cutPipeline =
    { s with
      rooms := s.undoStores.cutRooms
      dmem := s.undoStores.dmem
      img := s.undoStores.img
      scan := { s.scan with undo := [], flights := [] } } := by
  have undo := undoStores_alone s
  have cut : s.cutPipeline = { s.undoStores with
      rooms := s.undoStores.cutRooms
      scan := { s.undoStores.scan with undo := [], flights := [] } } := by
    unfold State.cutRooms
    have alone := undoFlights_alone s.undoStores
      (s.undoStores.scan.flights.reverse.filter (fun x => decide (s.undoStores.now < x.at' + 7)))
    exact congrArg (fun s : State => { s.mapRooms (fun v => v.cut s.now) with scan := { s.scan with undo := [], flights := [] } }) alone
  rw [cut, undo]

/-- The instructions that a fault now takes back, the newest first. -/
def State.underWay (s : State) : List Flight := s.scan.flights.reverse.filter (fun x => decide (s.now < x.at' + 7))

theorem cutRooms_at (s : State) (q : RoomId) : s.cutRooms[q] = (s.underWay.foldl State.undoFlight s).rooms[q].cut s.now :=
  Vector.getElem_map ..

/-- A room none of whose instructions is under way is cut where it stands. -/
theorem cutRooms_done {s : State} {q : RoomId} (done : ∀ f ∈ s.scan.flights, f.room = q → f.at' + 7 ≤ s.now) :
    s.cutRooms[q] = s.rooms[q].cut s.now := by
  have others : ∀ x ∈ s.underWay, x.room ≠ q := by
    intro x mem same
    rw [State.underWay, List.mem_filter, List.mem_reverse, decide_eq_true_eq] at mem
    have := done x mem.1 same
    omega
  rw [cutRooms_at, undoFlights_other others]

/-- A room whose one instruction is under way is cut where that instruction found it. -/
theorem cutRooms_single {s : State} {f : Flight} (single : s.scan.flights.filter (fun f => decide (s.now < f.at' + 7)) = [f]) :
    s.cutRooms[f.room] = (s.rooms[f.room].before f.before).cut s.now := by
  rw [cutRooms_at, State.underWay, List.filter_reverse, single]
  exact congrArg (Room.cut · s.now) (updRoom_room s f.room _)

/-- A cut room settles and drops results in flight: what arrives by itself only is written. -/
theorem cut_unsettled (v : Room) (f : Nat) : (v.cut f).unsettled = v.unsettled := settle_unsettled v (f + 1)

theorem cut_broken (v : Room) (f : Nat) : (v.cut f).broken = v.broken := (congrArg Room.broken (cut_unsettled v f) :)

theorem undoFlight_broken (s : State) (x : Flight) (q : RoomId) : (s.undoFlight x).rooms[q].broken = s.rooms[q].broken := by
  unfold State.undoFlight
  by_cases same : q = x.room
  case pos => rw [same, updRoom_room, Room.before]
  case neg => rw [updRoom_other _ _ _ _ same]

/-- Taking instructions back keeps the mark of an early read. -/
theorem cutRooms_broken (s : State) (q : RoomId) : s.cutRooms[q].broken = s.rooms[q].broken := by
  have kept := foldl_keeps_key (fun s : State => s.rooms[q].broken) (fun s x => undoFlight_broken s x q) s.underWay s
  rw [cutRooms_at, cut_broken]
  exact kept

/-! ### The fault (R97 to R99) -/

theorem storesOk_of_inv {s : State} (inv : s.Inv) : s.StoresOk := ⟨inv.dmem, inv.pend⟩

/-- Of the writes under way in the cycle of a cut none of a later stage takes effect (R98 step 1). -/
theorem cutPipeline_writesCut (s : State) : Stated.WritesCutAt s s.cutPipeline := by
  obtain ⟨rooms, scan, now⟩ := undoStores_keeps s
  rw [cutPipeline_eq]
  refine ⟨fun done => ?_, fun inv u mem later alone => ?_, fun q done => ?_, fun f single => ?_⟩
  case refine_1 =>
    have same := undoStores_of_done done
    exact ⟨(congrArg State.dmem same :), (congrArg State.img same :)⟩
  case refine_2 =>
    have listed (w : Undo) : w ∈ s.scan.undo.reverse.filter (fun u => decide (s.now < u.at')) ↔ w ∈ s.scan.undo ∧ s.now < w.at' := by simp
    exact storedByte_undone (storesOk_of_inv inv) ((listed u).mpr ⟨mem, later⟩) fun w memw =>
      alone w ((listed w).mp memw).1 ((listed w).mp memw).2
  case refine_3 =>
    have cut := cutRooms_done (s := s.undoStores) (q := q)
    rw [scan, now, rooms] at cut
    exact cut done
  case refine_4 =>
    have cut := cutRooms_single (s := s.undoStores) (f := f)
    rw [scan, now, rooms] at cut
    have kept := (congrArg Room.unsettled (cut single)).trans (cut_unsettled ..)
    exact ⟨(congrArg Room.pc kept :), (congrArg Room.flags kept :)⟩

/-- The low byte of a register is the field that stands there. -/
theorem pack_lowByte {x : BitVec 8} {fs : List (Nat × Nat × Nat)} (ord : Spaced 8 fs) : (pack ((0, 8, x.toNat) :: fs)).setWidth 8 = x := by
  obtain ⟨q, above⟩ := two_pow_dvd_fieldSum ord
  rw [pack_eq_fieldSum, fieldSum_cons, above]
  apply BitVec.eq_of_toNat_eq
  have := x.isLt
  simp only [BitVec.toNat_setWidth, BitVec.toNat_ofNat]
  omega

/-- SCAN_FEV0 names the cause in its low byte (R101). -/
theorem fevWords_cause (e : FaultEvidence) (more : Bool) (tb : Nat) : (fevWords e more tb)[0].setWidth 8 = e.cause :=
  pack_lowByte (by simp)

/-- The lanes stand in this instant, with nothing in the pipeline, FAULT_N is asserted, no write of a later stage has taken effect, and the
marks of early reads are as they were. -/
def State.StandsAfter (s p : State) : Prop :=
  p.scan.lanes = false ∧ p.scan.flights = [] ∧ p.FaultAsserts ∧ p.now = s.now ∧ Stated.WritesCutAt s p ∧
    ∀ q : RoomId, p.rooms[q].broken = s.rooms[q].broken

theorem silence_cutPipeline_stands (s : State) : s.StandsAfter s.silence.cutPipeline := by
  obtain ⟨⟨rooms, dmem, img⟩, scan, asserts⟩ := silence_stops s
  obtain ⟨-, -, now⟩ := silence_clocking s
  have inv := State.silence_inv s
  generalize s.silence = q at *
  have undo : q.scan.undo = s.scan.undo := (congrArg Scan.undo scan :)
  have flights : q.scan.flights = s.scan.flights := (congrArg Scan.flights scan :)
  obtain ⟨done, later, rest, single⟩ := cutPipeline_writesCut q
  rw [undo] at done later
  rw [dmem, img] at done
  rw [flights] at rest single
  rw [rooms] at rest
  refine ⟨?_, ?_, ?_, ?_, ⟨done, fun h => later (inv h), rest, single⟩, fun r => ?_⟩ <;> rw [cutPipeline_eq]
  case refine_1 => exact (congrArg Scan.lanes scan :)
  case refine_3 => exact asserts
  case refine_4 => exact now
  case refine_5 =>
    rw [← rooms, ← (undoStores_keeps q).1]
    exact cutRooms_broken q.undoStores r

/-- Evidence and cause of a fault latched (R99). -/
def State.latched (s : State) (e : FaultEvidence) (f : Nat) : State :=
  { s with scan := { s.scan with fev := fevWords e false f, faulted := true, faultAt := s.now, fcause := e.cause } }

/-- A record that waits for the steward changes the guestbook only, and stands there once the steward runs. -/
theorem gbEvent_onceSteward (s : State) (typ src : Nat) (sev : BitVec 2) (ws : List Word) :
    ∃ gb, (if s.steward then s.gbEvent typ src sev ws else s) = { s with gb := gb } ∧
      ((if s.steward then s.gbEvent typ src sev ws else s).steward = true →
        (if s.steward then s.gbEvent typ src sev ws else s).recorded typ src sev) := by
  split
  case isTrue steward => exact ⟨_, gbEvent_alone .., fun _ => gbEvent_recorded ..⟩
  case isFalse early => exact ⟨s.gb, rfl, fun steward => absurd steward early⟩

/-- The first fault silences the module, cuts the pipeline, latches its evidence and is recorded once the steward runs. -/
theorem hardwareFault_first {s : State} (first : s.scan.faulted = false) (unexpired : s.np.expired = false) (e : FaultEvidence) :
    ∃ p gb, s.StandsAfter p ∧ s.hardwareFault e = { p.latched e s.tb with gb := gb } ∧
      ((s.hardwareFault e).steward = true → (s.hardwareFault e).recorded 0x03 e.cause.toNat sevCritical) := by
  have run : s.hardwareFault e = if (s.silence.cutPipeline.latched e s.tb).steward then
      (s.silence.cutPipeline.latched e s.tb).gbEvent 0x03 e.cause.toNat sevCritical (s.silence.cutPipeline.latched e s.tb).scan.fev.toList
      else s.silence.cutPipeline.latched e s.tb := by
    rw [State.hardwareFault, if_neg (by simp [first]), if_neg (by simp [unexpired])]
    rfl
  have stands := silence_cutPipeline_stands s
  obtain ⟨gb, eq, recorded⟩ := gbEvent_onceSteward (s.silence.cutPipeline.latched e s.tb) 0x03 e.cause.toNat sevCritical
    (s.silence.cutPipeline.latched e s.tb).scan.fev.toList
  rw [← run] at eq recorded
  exact ⟨_, gb, stands, eq, recorded⟩

theorem hardwareFault_faultedNow {s : State} (first : s.scan.faulted = false) (unexpired : s.np.expired = false) (e : FaultEvidence) :
    (s.hardwareFault e).faultedNow e.cause := by
  obtain ⟨p, gb, ⟨lanes, flights, ⟨asserts, hold⟩, -⟩, eq, recorded⟩ := hardwareFault_first first unexpired e
  rw [eq] at recorded ⊢
  exact ⟨rfl, rfl, rfl, lanes, asserts, hold, flights, fevWords_cause e false s.tb, recorded⟩

/-- The evidence of the first fault, and the time. -/
theorem hardwareFault_evidence {s : State} (first : s.scan.faulted = false) (unexpired : s.np.expired = false) (e : FaultEvidence) :
    (s.hardwareFault e).scan.fev = fevWords e false s.tb ∧ (s.hardwareFault e).now = s.now := by
  obtain ⟨p, gb, ⟨-, -, -, now, -⟩, eq, -⟩ := hardwareFault_first first unexpired e
  rw [eq]
  exact ⟨rfl, now⟩

theorem hardwareFault_writesCut {s : State} (first : s.scan.faulted = false) (unexpired : s.np.expired = false) (e : FaultEvidence) :
    Stated.WritesCutAt s (s.hardwareFault e) := by
  obtain ⟨p, gb, ⟨-, -, -, -, cut, -⟩, eq, -⟩ := hardwareFault_first first unexpired e
  rw [eq]
  exact cut

theorem hardwareFault_broken {s : State} (first : s.scan.faulted = false) (unexpired : s.np.expired = false) (e : FaultEvidence) (q : RoomId) :
    (s.hardwareFault e).rooms[q].broken = s.rooms[q].broken := by
  obtain ⟨p, gb, ⟨-, -, -, -, -, broken⟩, eq, -⟩ := hardwareFault_first first unexpired e
  rw [eq]
  exact broken q

end Sys2Proof.Machine
end

section
/-! PROOFS. Hardware faults as commands, and the reset that follows one (R16, R34, R66, R97 to R99). -/

namespace Sys2Proof.Machine

theorem going_of_unhalted {s : State} (goes : s.halted = false) : s.scan.faulted = false ∧ s.np.expired = false :=
  Bool.or_eq_false_iff.mp goes

theorem exec_hardwareFault {s : State} (awake : s.awake = true) {ev : FaultEvidence} (low : 7 ≤ ev.cause) (high : ev.cause ≤ 9) (t : Nat) :
    exec (.hardwareFault t ev) s = .next ((s.at t).hardwareFault ev) :=
  congrArg Host.Outcome.next (if_pos ⟨awake, low, high⟩)

/-- A fault after the first sets MORE and nothing else of SCAN_FEV0 (R99). -/
theorem hardwareFault_later {s : State} (faulted : s.scan.faulted = true) (later : s.scan.faultAt ≠ s.now) (e : FaultEvidence) :
    s.hardwareFault e = { s with scan := s.scan.more } := by
  rw [State.hardwareFault, if_pos faulted, if_neg (fun same => later same.1)]

theorem more_getLsbD (c : Scan) (k : Nat) : c.more.fev[0].getLsbD k = (c.fev[0].getLsbD k || decide (k = 22)) := by
  have set : c.more.fev[0] = c.fev[0] ||| 1 <<< 22 := Vector.getElem_set_self ..
  have bit : (1 <<< 22 : Word) = BitVec.twoPow 32 22 := rfl
  rw [set, BitVec.getLsbD_or, bit, BitVec.getLsbD_twoPow]
  simp [eq_comm]

theorem exec_distanceRuleBroken {s : State} (awake : s.awake = true) {r : RoomId} {c : Nat} {pc : BitVec 20} (early : s.rooms[r].broken = some (c, pc))
    (t : Nat) : exec (.distanceRuleBroken t r) s = .next (((s.at (max t c)).updRoom r (fun v => { v with broken := none })).hardwareFault
      { cause := 9, lane := s.rooms[r].lane, room := BitVec.ofNat 7 r.val, mem := 0, pc := pc, addr := 0 }) := by
  change execDistanceRuleBroken t r s = _
  unfold execDistanceRuleBroken
  rw [early]
  exact congrArg Host.Outcome.next (if_pos awake)

theorem haltCause_of_fault {s : State} (unexpired : s.np.expired = false) : s.haltCause = s.scan.fcause :=
  if_neg fun both => by simp [unexpired] at both

theorem exec_faultResetEntry {s : State} (awake : s.awake = true) (faulted : s.scan.faulted = true) (unexpired : s.np.expired = false) (t : Nat) :
    exec (.faultResetEntry t) s = .next ((s.at (max t (s.scan.faultAt + msCycles))).enterReset s.scan.fcause) := by
  rw [← haltCause_of_fault unexpired]
  exact if_pos ⟨faulted, not_inReset_of_awake awake, not_unpowered_of_awake awake⟩

theorem clear_fev (s : State) (power : Bool) : (s.clear power).scan.fev = s.scan.fev := by
  unfold State.clear
  dsimp only
  split <;> rfl

theorem enterReset_fev {s : State} (out : s.phase ≠ .inReset) (cause : BitVec 8) : (s.enterReset cause).scan.fev = s.scan.fev := by
  obtain ⟨hold, recent, eq⟩ := enterReset_entering out cause
  exact (congrArg (fun s => s.scan.fev) eq).trans (clear_fev s (cause == 1))

theorem hardwareFault_takesEffect {s : State} (awake : s.awake = true) (goes : s.halted = false) {ev : FaultEvidence} (low : 7 ≤ ev.cause)
    (high : ev.cause ≤ 9) (t : Nat) : ∃ s', exec (.hardwareFault t ev) s = .next s' ∧ s'.faultedNow ev.cause ∧ Stated.WritesCutAt s s' ∧
      s'.scan.fev[1] = ev.pc.setWidth 32 ∧ s'.scan.fev[2] = ev.addr.setWidth 32 := by
  obtain ⟨first, unexpired⟩ := going_of_unhalted goes
  have now := hardwareFault_faultedNow (s := s.at t) first unexpired ev
  obtain ⟨done, later, rest, single⟩ := hardwareFault_writesCut (s := s.at t) first unexpired ev
  obtain ⟨fev, -⟩ := hardwareFault_evidence (s := s.at t) first unexpired ev
  refine ⟨_, exec_hardwareFault awake low high t, now, ⟨done, fun inv => later (State.at_inv s t inv), rest, single⟩, ?_, ?_⟩ <;> rw [fev] <;> rfl

theorem hardwareFault_setsMore {s : State} (awake : s.awake = true) (faulted : s.scan.faulted = true) {t : Nat} (past : s.scan.faultAt < s.then t)
    {ev : FaultEvidence} (low : 7 ≤ ev.cause) (high : ev.cause ≤ 9) : ∃ s', exec (.hardwareFault t ev) s = .next s' ∧
      s'.scan.fcause = s.scan.fcause ∧ (s'.scan.fev[0]).getLsbD 22 = true ∧
      ∀ k, k ≠ 22 → (s'.scan.fev[0]).getLsbD k = (s.scan.fev[0]).getLsbD k := by
  refine ⟨_, (exec_hardwareFault awake low high t).trans (congrArg _ (hardwareFault_later (s := s.at t) faulted past.ne ev)), rfl, ?_, ?_⟩
  · exact (more_getLsbD s.scan 22).trans (by simp)
  · exact fun k other => (more_getLsbD s.scan k).trans (by simp [other])

theorem distanceRuleBroken_faults {s : State} (awake : s.awake = true) (goes : s.halted = false) {r : RoomId} {c : Nat} {pc : BitVec 20}
    (early : s.rooms[r].broken = some (c, pc)) (t : Nat) : ∃ s', exec (.distanceRuleBroken t r) s = .next s' ∧ s'.faultedNow 9 ∧
      s'.rooms[r].broken = none ∧ s'.scan.fev[1] = pc.setWidth 32 ∧ s'.now = max (s.then t) c := by
  obtain ⟨first, unexpired⟩ := going_of_unhalted goes
  have run := exec_distanceRuleBroken awake early t
  generalize reached : (s.at (max t c)).updRoom r (fun v => { v with broken := none }) = q at run
  have now : q.now = max s.now (max t c) := by rw [← reached]; rfl
  have none : q.rooms[r].broken = none := by rw [← reached, updRoom_room]
  have first' : q.scan.faulted = false := by rw [← reached]; exact first
  have unexpired' : q.np.expired = false := by rw [← reached]; exact unexpired
  obtain ⟨fev, still⟩ := hardwareFault_evidence first' unexpired'
    { cause := 9, lane := s.rooms[r].lane, room := BitVec.ofNat 7 r.val, mem := 0, pc := pc, addr := 0 }
  refine ⟨_, run, hardwareFault_faultedNow first' unexpired' _, (hardwareFault_broken first' unexpired' _ r).trans none, ?_, ?_⟩
  · rw [fev]; rfl
  · rw [still, now]; exact (max_assoc ..).symm

theorem faultResetEntry_resets {s : State} (awake : s.awake = true) (faulted : s.scan.faulted = true) (unexpired : s.np.expired = false)
    (notPowerOn : s.scan.fcause ≠ 1) (t : Nat) : ∃ s', exec (.faultResetEntry t) s = .next s' ∧ s'.phase = .inReset ∧
      s'.clk.cause = s.scan.fcause ∧ s'.clk.prev = s.clk.cause ∧ s'.now = max (s.then t) (s.scan.faultAt + 400000) ∧ s'.pwr.faultN = true ∧
      s'.dmem = [] ∧ s'.rooms = Vector.replicate 100 Room.init ∧ s'.scan.fev = s.scan.fev ∧ s'.nv.mem = s.nv.mem ∧
      s'.app.stored = s.app.stored := by
  have out : (s.at (max t (s.scan.faultAt + msCycles))).phase ≠ .inReset := not_inReset_of_awake awake
  obtain ⟨phase, cause, prev, -, rooms, dmem, -, -, mem, stored, -, faultN, -⟩ := enterReset_entered out notPowerOn
  refine ⟨_, exec_faultResetEntry awake faulted unexpired t, phase, cause, prev, ?_, faultN, dmem, rooms, enterReset_fev out _, mem, stored⟩
  exact (enterReset_now out _).trans (max_assoc ..).symm

theorem hardwareFaults : Stated.HardwareFaults := fun _s t _r _ev awake =>
  ⟨fun goes low high => hardwareFault_takesEffect awake goes low high t,
    fun faulted past low high => hardwareFault_setsMore awake faulted past low high,
    fun _c _pc early goes => distanceRuleBroken_faults awake goes early t,
    fun faulted unexpired notPowerOn => faultResetEntry_resets awake faulted unexpired notPowerOn t⟩

end Sys2Proof.Machine
end

section
/-! PROOFS. Maintenance slots, scrubbing, reads through the corrector, self-test, and the clear registers (R74, R92 to R96, R100, R415). -/

namespace Sys2Proof.Machine

/-! ### Cleared memory -/

/-- A read after a range has been cleared: 0 inside, what was there before elsewhere. -/
theorem Mem.get_clear {m : Mem} (a n y : Nat) : ∀ {lo : Nat}, Mem.wfFrom lo m = true →
    (m.clear a n).get y = if a ≤ y ∧ y < a + n then 0 else m.get y := by
  induction m with
  | nil => intro lo _; exact (ite_self _).symm
  | cons c r ih =>
    obtain ⟨k, v⟩ := c
    intro lo wf
    simp only [Mem.wfFrom, Bool.and_eq_true] at wf
    obtain ⟨-, wfr⟩ := wf
    have rest := ih wfr
    by_cases cleared : a ≤ k ∧ k < a + n
    case pos =>
      have dropped : Mem.clear ((k, v) :: r) a n = Mem.clear r a n := List.filter_cons_of_neg (by simp; omega)
      rw [dropped, rest, Mem.get]
      split
      case isTrue => rfl
      case isFalse outside =>
        rw [if_neg (by omega)]
        split
        case isTrue below => exact Mem.get_of_wfFrom wfr (by omega)
        case isFalse => rfl
    case neg =>
      have stays : Mem.clear ((k, v) :: r) a n = (k, v) :: Mem.clear r a n := List.filter_cons_of_pos (by simp; omega)
      rw [stays, Mem.get, Mem.get, rest]
      grind

/-! ### Corrected words (R92, R93) -/

/-- A corrected error sets SBE, counts, and notes where it was; the suspect record and the hits follow R93; else only reports are written. -/
theorem corrected_unreported (s : State) (m : MemId) (a : Nat) : ∃ suspect hits, (s.corrected m a).unreported =
    { s.unreported with scan := { s.scan with
      sbe := true
      suspect := suspect
      ecc := upd s.scan.ecc (memIdx m) satInc
      eccAddr := BitVec.ofNat 20 a
      eccMem := BitVec.ofNat 4 (memCode m)
      eccHits := hits } } := by
  have once (q : State) (typ src : Nat) (sev : BitVec 2) (ws : List Word) :
      (if q.steward then q.gbEvent typ src sev ws else q).unreported = q.unreported := by
    split
    case isTrue => exact gbEvent_unreported ..
    case isFalse => rfl
  unfold State.corrected
  extract_lets hits same scan noted told
  have kept : told.unreported = noted.unreported := once ..
  split
  case isTrue =>
    refine ⟨true, hits.filter (fun h => !(h.mem == m && h.addr == a)), (once ..).trans ?_⟩
    exact congrArg (fun s : State => { s with scan := { s.scan with
      suspect := true
      eccHits := hits.filter (fun h => !(h.mem == m && h.addr == a)) } }) kept
  case isFalse => exact ⟨s.scan.suspect, hits, kept⟩

/-! ### Reads through the corrector (R92, R94) -/

/-- A corrected word of memory m at a, which awaits its write-back; rooms and memories are as they were. -/
def State.CorrectedAt (s s' : State) (m : MemId) (a : Nat) : Prop :=
  LanesKept s s' ∧ s'.scan.sbe = true ∧ s'.scan.faulted = s.scan.faulted ∧ s'.scan.eccAddr = BitVec.ofNat 20 a ∧ (m, a) ∈ s'.scan.writeBack

theorem eccRead_single (s : State) (m : MemId) (a : Nat) (scrubber byLane : Bool) :
    s.CorrectedAt (s.eccRead m a .single scrubber byLane) m a := by
  obtain ⟨suspect, hits, eq⟩ := corrected_unreported s m a
  exact ⟨⟨(congrArg State.rooms eq :), (congrArg State.dmem eq :), (congrArg State.img eq :)⟩, (congrArg (fun s => s.scan.sbe) eq :),
    (congrArg (fun s => s.scan.faulted) eq :), (congrArg (fun s => s.scan.eccAddr) eq :), List.mem_append_right _ (List.mem_singleton_self _)⟩

theorem eccEvidence_cause (s : State) (m : MemId) (a : Nat) (byLane : Bool) : (s.eccEvidence m a byLane).cause = 8 := by
  unfold State.eccEvidence
  split <;> rfl

/-- An uncorrectable error is a hardware fault of cause 0x08, unless the scrubber finds it in a word that no configuration uses. -/
theorem eccRead_double_faults {s : State} (goes : s.halted = false) {m : MemId} {a : Nat} {scrubber : Bool} (byLane : Bool)
    (used : scrubber = true → s.usedWord m a = true) : (s.eccRead m a .double scrubber byLane).faultedNow 8 := by
  obtain ⟨first, unexpired⟩ := going_of_unhalted goes
  have run : s.eccRead m a .double scrubber byLane = s.hardwareFault (s.eccEvidence m a byLane) :=
    if_neg fun unused => by simp [used unused.1] at unused
  rw [run, ← eccEvidence_cause s m a byLane]
  exact hardwareFault_faultedNow first unexpired _

/-- What zero written into an unused word leaves alone, and what data memory then holds. -/
theorem zeroWord_keeps (s : State) (m : MemId) (a : Nat) : (s.zeroWord m a).scan = s.scan ∧ (s.zeroWord m a).rooms = s.rooms ∧
    (s.dmem.wf = true → ∀ y, (s.zeroWord m a).dmem.get y = if m = .data ∧ 4 * a ≤ y ∧ y < 4 * a + 4 then 0 else s.dmem.get y) := by
  refine ⟨by cases m <;> rfl, by cases m <;> rfl, fun wf y => ?_⟩
  cases m
  case data => exact (Mem.get_clear (4 * a) 4 y wf).trans (by simp)
  all_goals exact (if_neg (by simp)).symm

/-- The scrubber's uncorrectable error in an unused word: zero is written there, and it is recorded. -/
theorem eccRead_double_unused {s : State} {m : MemId} {a : Nat} (unused : s.usedWord m a = false) :
    ∃ gb, s.eccRead m a .double true false = { s.zeroWord m a with gb := gb } := by
  obtain ⟨gb, eq, -⟩ := gbEvent_onceSteward (s.zeroWord m a) 0x12 (memCode m) sevFault [BitVec.ofNat 32 a]
  exact ⟨gb, (if_pos ⟨rfl, unused⟩).trans eq⟩

/-! ### Scrub reads as commands (R74, R92, R94, R95) -/

/-- The scrubber has taken its next word. -/
def State.nextWord (s : State) : State := { s with scan := { s.scan.swept s.now with writeBack := [] } }

theorem swept_keeps (c : Scan) (now : Nat) : (c.swept now).sbe = c.sbe ∧ (c.swept now).faulted = c.faulted := by
  unfold Scan.swept
  split <;> exact ⟨rfl, rfl⟩

theorem nextWord_halted (s : State) : s.nextWord.halted = s.halted :=
  congrArg (· || s.np.expired) (swept_keeps s.scan s.now).2

theorem swept_advances (c : Scan) (now : Nat) :
    (c.scrubbed + 1 < 1707736 → (c.swept now).scrubbed = c.scrubbed + 1 ∧ (c.swept now).sweeps = c.sweeps) ∧
      (1707736 ≤ c.scrubbed + 1 → (c.swept now).scrubbed = 0 ∧ (c.swept now).sweeps = c.sweeps + 1) := by
  refine ⟨fun inside => ?_, fun last => ?_⟩
  · rw [Scan.swept, sweepWords, if_pos inside]
    exact ⟨rfl, rfl⟩
  · rw [Scan.swept, sweepWords, if_neg (Nat.not_lt.mpr last)]
    exact ⟨rfl, rfl⟩

section
variable {s : State} (awake : s.awake = true) (goes : s.halted = false) (t : Nat)
include awake goes

theorem corrector_runs : ¬ ((s.at t).awake = false ∨ (s.at t).halted = true) := by
  rintro (asleep | halts)
  · exact absurd (awake.symm.trans asleep) (by decide)
  · exact absurd (goes.symm.trans halts) (by decide)

theorem exec_sweepRead (slot : (s.at t).scrubSlot = true) (a : Nat) (res : EccResult) : exec (.scrubRead t .sweep a res) s =
    .next ((s.at t).nextWord.eccRead (sweepWord s.scan.scrubbed).1 (sweepWord s.scan.scrubbed).2 res true false) :=
  (if_neg (corrector_runs awake goes t)).trans (if_pos slot)

theorem exec_sweepRead_slotless (slotless : (s.at t).scrubSlot = false) (a : Nat) (res : EccResult) :
    exec (.scrubRead t .sweep a res) s = .next (s.at t) :=
  (if_neg (corrector_runs awake goes t)).trans (if_neg (by simp [slotless]))

theorem exec_laneRead {m : MemId} (lanes : m ≠ .steward) {a : Nat} (inside : a < memWords m) (res : EccResult) :
    exec (.scrubRead t (.lane m) a res) s = .next ((s.at t).eccRead m a res false true) :=
  (if_neg (corrector_runs awake goes t)).trans (congrArg Host.Outcome.next (if_pos ⟨lanes, inside⟩))

theorem exec_stewardSweep {a : Nat} (inside : a < memWords .steward) (res : EccResult) :
    exec (.scrubRead t .stewardSweep a res) s = .next ((s.at t).eccRead .steward a res true false) :=
  (if_neg (corrector_runs awake goes t)).trans (congrArg Host.Outcome.next (if_pos inside))

theorem exec_coreRead {a : Nat} (inside : a < memWords .steward) (res : EccResult) :
    exec (.scrubRead t .core a res) s = .next ((s.at t).eccRead .steward a res false false) :=
  (if_neg (corrector_runs awake goes t)).trans (congrArg Host.Outcome.next (if_pos inside))

end

/-! ### The sweep over the lane memories (R94, R95) -/

section
variable {s : State} (awake : s.awake = true) (goes : s.halted = false) {t : Nat} (slot : (s.at t).scrubSlot = true)
  {q : MemId} {w : Nat} (next : sweepWord s.scan.scrubbed = (q, w)) (a : Nat)
include awake goes slot

theorem sweep_clean : ∃ s', exec (.scrubRead t .sweep a .clean) s = .next s' ∧ LanesKept s s' ∧ s'.scan.sbe = s.scan.sbe ∧
    (s.scan.scrubbed + 1 < 1707736 → s'.scan.scrubbed = s.scan.scrubbed + 1 ∧ s'.scan.sweeps = s.scan.sweeps) ∧
    (1707736 ≤ s.scan.scrubbed + 1 → s'.scan.scrubbed = 0 ∧ s'.scan.sweeps = s.scan.sweeps + 1) :=
  ⟨(s.at t).nextWord, exec_sweepRead awake goes t slot a .clean, ⟨rfl, rfl, rfl⟩, (swept_keeps ..).1, swept_advances ..⟩

include next

theorem sweep_single : ∃ s', exec (.scrubRead t .sweep a .single) s = .next s' ∧ s.CorrectedAt s' q w := by
  have run := exec_sweepRead awake goes t slot a .single
  rw [next] at run
  obtain ⟨kept, sbe, faulted, place, waits⟩ := eccRead_single (s.at t).nextWord q w true false
  exact ⟨_, run, kept, sbe, faulted.trans (swept_keeps ..).2, place, waits⟩

theorem sweep_double_used (used : s.usedWord q w = true) : ∃ s', exec (.scrubRead t .sweep a .double) s = .next s' ∧ s'.faultedNow 8 := by
  have run := exec_sweepRead awake goes t slot a .double
  rw [next] at run
  exact ⟨_, run, eccRead_double_faults ((nextWord_halted (s.at t)).trans goes) false fun _ => used⟩

theorem sweep_double_unused (unused : s.usedWord q w = false) (inv : s.Inv) : ∃ s', exec (.scrubRead t .sweep a .double) s = .next s' ∧
    s'.scan.faulted = s.scan.faulted ∧ s'.rooms = s.rooms ∧
    ∀ y, s'.dmem.get y = if q = .data ∧ 4 * w ≤ y ∧ y < 4 * w + 4 then 0 else s.dmem.get y := by
  have run := exec_sweepRead awake goes t slot a .double
  rw [next] at run
  obtain ⟨gb, eq⟩ := eccRead_double_unused (s := (s.at t).nextWord) unused
  obtain ⟨scan, rooms, dmem⟩ := zeroWord_keeps (s.at t).nextWord q w
  refine ⟨_, run, ?_⟩
  rw [eq]
  exact ⟨(congrArg Scan.faulted scan).trans (swept_keeps ..).2, rooms, dmem inv.dmem⟩

end

/-! ### Self-test (R96) -/

theorem testPasses_iff (x : SelfTest) : testPasses x = true ↔ x.back = x.pattern ∧ x.one = .single ∧ x.two = .double := by
  simp [testPasses, and_assoc]

/-- The test word of a bank written. -/
def State.tested (s : State) (bank : Nat) (x : SelfTest) : State :=
  { s with scan := { s.scan with tests := (bank, x.pattern) :: s.scan.tests.filter (fun x => x.1 != bank) } }

section
variable {s : State} (awake : s.awake = true) (goes : s.halted = false) {t : Nat} (bank : Nat) {x : SelfTest}

theorem exec_memorySelfTest_slotless (slotless : (s.at t).testSlot = false) : exec (.memorySelfTest t bank x) s = .next (s.at t) :=
  if_neg fun runs => absurd (slotless.symm.trans runs.2.2) (by decide)

include awake goes

theorem memorySelfTest_passes (slot : (s.at t).testSlot = true) (back : x.back = x.pattern) (one : x.one = .single) (two : x.two = .double) :
    ∃ s', exec (.memorySelfTest t bank x) s = .next s' ∧ LanesKept s s' ∧ s'.scan.faulted = s.scan.faulted ∧
      (bank, x.pattern) ∈ s'.scan.tests :=
  ⟨(s.at t).tested bank x,
    (if_pos ⟨awake, goes, slot⟩).trans (congrArg Host.Outcome.next (if_pos ((testPasses_iff x).mpr ⟨back, one, two⟩))),
    ⟨rfl, rfl, rfl⟩, rfl, List.mem_cons_self⟩

theorem memorySelfTest_faults (slot : (s.at t).testSlot = true) (wrong : x.back ≠ x.pattern ∨ x.one ≠ .single ∨ x.two ≠ .double) :
    ∃ s', exec (.memorySelfTest t bank x) s = .next s' ∧ s'.faultedNow 8 := by
  obtain ⟨first, unexpired⟩ := going_of_unhalted goes
  have fails : ¬ testPasses x = true := by
    rw [testPasses_iff]
    rintro ⟨back, one, two⟩
    exact wrong.elim (· back) (Or.elim · (· one) (· two))
  exact ⟨_, (if_pos ⟨awake, goes, slot⟩).trans (congrArg Host.Outcome.next (if_neg fails)),
    hardwareFault_faultedNow (s := (s.at t).tested bank x) first unexpired
      { cause := 8, lane := 0, room := 127, mem := 6, pc := 0, addr := BitVec.ofNat 20 bank }⟩

end

/-! ### Maintenance slots, clear registers, and the whole (R74, R100, R415) -/

theorem maintenanceSlot_marks (s : State) (t : Nat) (k : LaneId) : ∃ s', exec (.maintenanceSlot t k) s = .next s' ∧ LanesKept s s' ∧
    (s.scan.lanes = true → s'.scan.current[k] = 127 ∧ s'.scan.writeBack = []) := by
  cases lanes : s.scan.lanes
  case false => exact ⟨s.at t, congrArg Host.Outcome.next (if_neg (by simp [State.at, lanes])), ⟨rfl, rfl, rfl⟩, nofun⟩
  case true => exact ⟨_, congrArg Host.Outcome.next (if_pos lanes), ⟨rfl, rfl, rfl⟩, fun _ => ⟨getElem_upd_self .., rfl⟩⟩

theorem scrubAndSelfTest : Stated.ScrubAndSelfTest := by
  intro s t k m a bank x
  refine ⟨maintenanceSlot_marks s t k, fun awake goes => ?_⟩
  refine ⟨fun slot q w next => ?sweeps, fun slotless res => exec_sweepRead_slotless awake goes t slotless a res, fun inside lanes => ?lane,
    fun inside => ?core, fun slot => ?tests, exec_memorySelfTest_slotless bank⟩
  case sweeps => exact ⟨sweep_clean awake goes slot a, sweep_single awake goes slot next a, sweep_double_used awake goes slot next a,
    sweep_double_unused awake goes slot next a⟩
  case lane =>
    have run := exec_laneRead awake goes t lanes inside
    exact ⟨run .clean, ⟨_, run .single, eccRead_single ..⟩, ⟨_, run .double, eccRead_double_faults (s := s.at t) (scrubber := false) goes true nofun⟩⟩
  case core => exact ⟨⟨_, exec_stewardSweep awake goes t inside .single, eccRead_single ..⟩,
    ⟨_, exec_coreRead awake goes t inside .double, eccRead_double_faults (s := s.at t) (scrubber := false) goes false nofun⟩⟩
  case tests => exact ⟨memorySelfTest_passes awake goes bank slot, memorySelfTest_faults awake goes bank slot⟩

theorem evidenceClears : Stated.EvidenceClears := by
  intro s t steward
  refine ⟨?ecc, ?peak, ?fev, ?ev⟩
  case ecc => exact ⟨_, congrArg Host.Outcome.next (if_pos steward), rfl, rfl, rfl, rfl, rfl, rfl, rfl, rfl, rfl⟩
  case peak => exact ⟨_, if_pos steward, fun _ => Vector.getElem_map .., rfl, rfl, rfl, rfl⟩
  case fev => exact ⟨_, congrArg Host.Outcome.next (if_pos steward), rfl, rfl, rfl, rfl, rfl, rfl⟩
  case ev => exact ⟨_, congrArg Host.Outcome.next (if_pos steward), rfl, rfl, rfl, rfl, rfl, rfl, rfl, rfl, rfl, rfl, rfl⟩

/-- Settles O13: maintenance, scrubbing and self-test by the one read through the corrector, hardware faults by the cut of the pipeline and
the evidence latched with it, and the clear registers each by its own write. -/
theorem faultsAndEvidence : Obligations.FaultsAndEvidence := ⟨scrubAndSelfTest, hardwareFaults, evidenceClears⟩

end Sys2Proof.Machine
end

section
/-! PROOFS. Branches, counted loops and jump tables (R110, R111, R126, R128, R142). -/

namespace Sys2Proof.Machine

theorem loadPending_nil (v : Room) : loadPending [] v = false := by
  unfold loadPending
  split
  case h_1 => exact Bool.and_false _
  case h_2 => rfl

/-! ### Targets and counts -/

/-- The target of a branch, reckoned in the integers (R111). -/
theorem branchTo_eq_ofInt (pc : BitVec 20) (off : BitVec 21) : branchTo pc off = BitVec.ofInt 20 (pc.toNat + off.toInt) := by
  rw [BitVec.ofInt_add, BitVec.ofInt_natCast, BitVec.ofNat_toNat, BitVec.setWidth_eq, branchTo]
  exact congrArg (pc + ·) (BitVec.signExtend_eq_setWidth_of_le off (by decide)).symm

/-- LPR clamps its count between 1 and the bound, and V tells whether it had to (R126). -/
theorem lprCount_eq (a : Word) {b : Nat} (pos : 1 ≤ b) :
    lprCount a b = (BitVec.ofNat 32 (max 1 (min a.toNat b)), a.toNat == 0 || decide (b < a.toNat)) := by
  unfold lprCount
  split
  case isTrue zero => simp [zero]
  case isFalse nonzero =>
    split
    case isTrue above => simp [above, Nat.min_eq_right above.le, Nat.max_eq_right pos]
    case isFalse within =>
      have clamp : max 1 (min a.toNat b) = a.toNat := by omega
      rw [clamp, BitVec.ofNat_toNat, BitVec.setWidth_eq]
      simp [within, nonzero]

/-- The default of a jump table stands behind its last entry (R128). -/
theorem jtab_index (pc : BitVec 20) (a imm : Nat) :
    pc + 1 + (if a < imm then BitVec.ofNat 20 a else BitVec.ofNat 20 imm) = BitVec.ofNat 20 (pc.toNat + 1 + min a imm) := by
  have entry : (if a < imm then BitVec.ofNat 20 a else BitVec.ofNat 20 imm) = BitVec.ofNat 20 (min a imm) := by
    split
    case isTrue listed => rw [Nat.min_eq_left listed.le]
    case isFalse beyond => rw [Nat.min_eq_right (not_lt.mp beyond)]
  rw [entry, BitVec.ofNat_add, BitVec.ofNat_add, BitVec.ofNat_toNat, BitVec.setWidth_eq]
  rfl

/-! ### Instructions that write the PC -/

/-- A room after LOOP: its count written, and where it goes on. -/
def Room.counted (v : Room) (rd : Reg) (x : Word) (pc : BitVec 20) : Room := { v.put rd x with pc := pc }

theorem counted_eq (v : Room) (rd : Reg) (x : Word) (pc : BitVec 20) : v.counted rd x pc = { v with g := (v.put rd x).g, pc := pc } := by
  rw [Room.counted, put_regs]

theorem counted_get (v : Room) (rd g : Reg) (x : Word) (pc : BitVec 20) :
    (v.counted rd x pc).get g = if g = rd then (if rd = 0 then 0 else x) else v.get g := put_get v rd g x

theorem counted_kept {v w : Room} (kept : RoomKept v w) (rd : Reg) (x : Word) (pc : BitVec 20) : RoomKept v (w.counted rd x pc) := by
  unfold RoomKept at kept ⊢
  rw [counted_eq, kept]

section
variable {s : State} {r : RoomId} (issues : s.canIssue r = true) (t : Nat)
include issues

/-- An instruction of the shape `laneJump` leaves everything but the PC. -/
theorem leaves_laneJump {i : Instr} {reads : List Reg} {f : Room → BitVec 20} (run : exec i s = .next (s.laneJump t r reads f)) :
    Leaves s t r i (loadPending reads (s.operands t r)) (s.operands t r).flags (f (s.operands t r)) :=
  leaves_lane (f := fun w => { w with pc := f (s.operands t r) }) run issues (fun _ => rfl) (fun _ => rfl) fun _ flags _ => ⟨flags, rfl⟩

theorem exec_loop (rd : Reg) (off : BitVec 21) :
    let v := s.operands t r
    ∃ s', exec (.loop t r rd off) s = .next s' ∧ Fetched s s' t r (loadPending [rd] v) ∧ OnlyRooms s s' ∧
      s'.rooms[r] = (v.issue (loadPending [rd] v) (s.fetchCycle t r)).counted rd (v.get rd - 1)
        (if v.get rd - 1 != 0 then branchTo v.pc off else v.pc + 1) :=
  ⟨_, rfl, lane_room (act := fun v _ s => s.updRoom r fun w =>
      w.counted rd (v.get rd - 1) (if v.get rd - 1 != 0 then branchTo v.pc off else v.pc + 1))
    issues (fun _ => rfl) fun w => by rw [counted_eq]; exact ⟨rfl, rfl⟩⟩

/-- LOOP counts down, and goes back to its body until the count is 0 (R126, R142). -/
theorem loop_counts (rd : Reg) (off : BitVec 21) :
    let v := s.operands t r
    ∃ s', exec (.loop t r rd off) s = .next s' ∧ Fetched s s' t r (loadPending [rd] v) ∧ OnlyRooms s s' ∧
      RoomKept v s'.rooms[r] ∧ RegsKept v s'.rooms[r] rd ∧ s'.rooms[r].get rd = (if rd = 0 then 0 else v.get rd - 1) ∧
      s'.rooms[r].flags = v.flags ∧ s'.rooms[r].pc = if v.get rd - 1 = 0 then v.pc + 1 else branchTo v.pc off := by
  intro v
  obtain ⟨s', run, fetched, only, room⟩ := exec_loop issues t rd off
  obtain ⟨flags, -, -, -, get⟩ := issue_fields v (loadPending [rd] v) (s.fetchCycle t r)
  refine ⟨s', run, fetched, only, ?_, fun g other => ?_, ?_, ?_, ?_⟩ <;> rw [room]
  · exact counted_kept (issue_kept ..) rd _ _
  · rw [counted_get, if_neg other, get]
  · rw [counted_get, if_pos rfl]
  · rw [counted_eq]
    exact flags
  · simp only [Room.counted, bne_iff_ne, ne_eq, ite_not, v]

/-- LPR with its entry: the clamped count and V (R126). -/
theorem writes_lpr {c : Conf} (cur : s.app.cur = some c) (rd ra : Reg) {imm : BitVec 16} {b : Nat} (bound : c.way.bound[imm.toNat]? = some b)
    (pos : 1 ≤ b) :
    let v := s.operands t r
    let a := v.get ra
    Writes s t r (.lpr t r rd ra imm) (loadPending [ra] v) rd (BitVec.ofNat 32 (max 1 (min a.toNat b)))
      (v.z, v.n, v.c, a.toNat == 0 || decide (b < a.toNat), v.b) := by
  intro v a
  have entry : s.bound imm = some b := by rw [State.bound, cur]; exact bound
  have run : exec (.lpr t r rd ra imm) s = .next (s.laneReg t r rd [ra] (fun v => (lprCount (v.get ra) b).1)
      fun v w => { w with v := (lprCount (v.get ra) b).2 }) := by
    change execLpr t r rd ra imm s = _
    rw [execLpr, entry]
  have clamped : lprCount ((s.operands t r).get ra) b = _ := lprCount_eq _ pos
  have writes := writes_laneReg (fl := (v.z, v.n, v.c, (lprCount a b).2, v.b)) run issues (fun _ => rfl) fun w flags => by
    simp only [Room.flags, Prod.mk.injEq] at flags ⊢
    obtain ⟨z, n, c, -, b⟩ := flags
    exact ⟨z, n, c, rfl, b⟩
  rw [clamped] at writes
  exact writes

end

/-- Settles O4: a branch and a table by the PC they select, LOOP by its count, LPI and LPR as writes of one register. -/
theorem controlTransfers : Obligations.ControlTransfers := by
  intro s t r rd ra cond off imm issues
  dsimp only
  rw [← branchTo_eq_ofInt, ← jtab_index]
  refine ⟨?b, loop_counts issues t rd off, ?lpi, fun c b cur bound pos _ => writes_lpr issues t cur rd ra bound pos, ?jtab⟩
  case b =>
    have jumps := leaves_laneJump (i := .b t r cond off) issues t rfl
    rw [loadPending_nil] at jumps
    cases cond <;> exact jumps
  case jtab => exact leaves_laneJump (i := .jtab t r ra imm) issues t rfl
  case lpi =>
    have run : exec (.lpi t r rd imm) s = .next (s.laneReg t r rd [] (fun _ => zx16 imm) fun _ w => w) := rfl
    have writes := writes_laneReg run issues (fun _ => rfl) fun _ flags => flags
    rwa [loadPending_nil] at writes

end Sys2Proof.Machine
end

section
/-! PROOFS. Special result registers and feature words (R122, R131, R151). -/

namespace Sys2Proof.Machine

/-! ### What the arithmetic units write of a room (R77, R78) -/

/-- A room without its special result registers, its accumulator and the results in flight. -/
def Room.unitless (v : Room) : Room := { v with mlo := 0, mhi := 0, frs := 0, quo := 0, rem := 0, acc := 0, macQ := [], fpuQ := [], divQ := [] }

/-- An issue writes general registers, flags, PC and its own marks. -/
theorem issue_eq (v : Room) (early : Bool) (c : Nat) : ∃ g load pc z n c' v' b issued broken, v.issue early c =
    { v with g := g, load := load, pc := pc, z := z, n := n, c := c', v := v', b := b, issued := issued, broken := broken } :=
  ⟨_, _, _, _, _, _, _, _, _, _, issue_kept v early c⟩

theorem keeps_of_unitless {w v : Room} (h : w.unitless = v.unitless) :
    w.issued = v.issued ∧ w.broken = v.broken ∧ w.pc = v.pc ∧ w.flags = v.flags ∧ ∀ g, w.get g = v.get g :=
  ⟨(congrArg Room.issued h :), (congrArg Room.broken h :), (congrArg Room.pc h :), (congrArg Room.flags h :),
    fun g => (congrArg (fun u => u.get g) h :)⟩

/-- An instruction that writes nothing but what the units hold goes on at the next index, with registers and flags as they were. -/
theorem runs_units {s : State} {t : Nat} {r : RoomId} {i : Instr} {early : Room → Bool} {act : Room → Nat → State → State} {f : Room → Room}
    (run : exec i s = .next (s.lane t r early act)) (issues : s.canIssue r = true)
    (acts : ∀ s₁ : State, act (s.operands t r) (s.fetchCycle t r) s₁ = s₁.updRoom r f) (units : ∀ w : Room, (f w).unitless = w.unitless) :
    let v := s.operands t r
    ∃ s', exec i s = .next s' ∧ Fetched s s' t r (early v) ∧ OnlyRooms s s' ∧ (∀ g : Reg, s'.rooms[r].get g = v.landed g) ∧
      s'.rooms[r].flags = v.flags ∧ s'.rooms[r].pc = s.rooms[r].pc + 1 ∧ s'.rooms[r] = f (v.issue (early v) (s.fetchCycle t r)) := by
  intro v
  obtain ⟨fetched, only, room⟩ := lane_room (t := t) (early := early) issues acts fun w =>
    ⟨(keeps_of_unitless (units w)).1, (keeps_of_unitless (units w)).2.1⟩
  obtain ⟨flags, pc, -, -, get⟩ := issue_fields v (early v) (s.fetchCycle t r)
  obtain ⟨-, -, samePc, sameFlags, sameGet⟩ := keeps_of_unitless (units (v.issue (early v) (s.fetchCycle t r)))
  rw [← room] at samePc sameFlags sameGet
  exact ⟨_, run, fetched, only, fun g => (sameGet g).trans (get g), sameFlags.trans flags,
    (samePc.trans pc).trans (congrArg (· + 1) (settle_fields s.rooms[r] _).1), room⟩

/-! ### MFS, MTS and RDFEAT -/

/-- MTS writes the one register it names, and for MLO or MHI its half of the accumulator (R122, R144). -/
theorem setSpr_eq (v : Room) (p : Spr) (x : Word) : v.setSpr p x =
    { v with
      mlo := if p = .mlo then x else v.mlo
      mhi := if p = .mhi then x else v.mhi
      frs := if p = .frs then x else v.frs
      quo := if p = .quo then x else v.quo
      rem := if p = .rem then x else v.rem
      acc := if p = .mlo then v.acc.extractLsb' 32 32 ++ x else if p = .mhi then x ++ v.acc.setWidth 32 else v.acc } := by
  cases p <;> rfl

/-- LANEARITH of FEAT0 (R131). -/
theorem feature_zero_arith (arith : Bool) : (feature 0 arith).getLsbD 7 = arith := by
  cases arith <;> decide

theorem put_flags (v : Room) (rd : Reg) (x : Word) : (v.put rd x).flags = v.flags := by rw [put_regs]; rfl

theorem put_pc (v : Room) (rd : Reg) (x : Word) : (v.put rd x).pc = v.pc := by rw [put_regs]

theorem put_kept {v w : Room} (kept : RoomKept v w) (rd : Reg) (x : Word) : RoomKept v (w.put rd x) := by
  unfold RoomKept at kept ⊢
  rw [put_regs, kept]

section
variable {s : State} {r : RoomId} (issues : s.canIssue r = true) (t : Nat)
include issues

theorem exec_mfs (rd : Reg) (p : Spr) :
    let v := s.operands t r
    ∃ s', exec (.mfs t r rd p) s = .next s' ∧ Fetched s s' t r (sprPending p v) ∧ OnlyRooms s s' ∧
      s'.rooms[r] = (v.issue (sprPending p v) (s.fetchCycle t r)).put rd (v.spr p) :=
  ⟨_, rfl, lane_room (act := fun v _ s => s.updRoom r fun w => w.put rd (v.spr p)) issues (fun _ => rfl) fun w => by
    rw [put_regs]; exact ⟨rfl, rfl⟩⟩

/-- MFS reads its register, early while a result for it is in flight (R97, R122). -/
theorem writes_mfs (rd : Reg) (p : Spr) {early : Bool} (pending : sprPending p (s.operands t r) = early) :
    Writes s t r (.mfs t r rd p) early rd ((s.operands t r).spr p) (s.operands t r).flags := by
  subst pending
  obtain ⟨s', run, fetched, only, room⟩ := exec_mfs issues t rd p
  obtain ⟨flags, pc, -, -, get⟩ := issue_fields (s.operands t r) (sprPending p (s.operands t r)) (s.fetchCycle t r)
  refine ⟨s', run, fetched, only, ?_, fun g other => ?_, ?_, ?_, ?_⟩ <;> rw [room]
  · exact put_kept (issue_kept ..) rd _
  · rw [put_get, if_neg other, get]
  · rw [put_get, if_pos rfl]
  · rw [put_flags, flags]
  · rw [put_pc]
    exact pc.trans (congrArg (· + 1) (settle_fields s.rooms[r] _).1)

theorem writes_rdfeat (rd : Reg) (k : Fin 4) :
    let v := s.operands t r
    Writes s t r (.rdfeat t r rd k) false rd (feature k.val (decide (6 ≤ v.lane.val))) v.flags := by
  have run : exec (.rdfeat t r rd k) s =
    .next (s.laneReg t r rd [] (fun v => feature k.val (decide (6 ≤ v.lane.val))) fun _ w => w) := rfl
  have writes := writes_laneReg run issues (fun _ => rfl) fun _ flags => flags
  rwa [loadPending_nil] at writes

end

/-- Settles O10: MFS as a read of one register, MTS as a write of what the units hold, RDFEAT by its word. -/
theorem specialMoves : Obligations.SpecialMoves := by
  intro s t r rd ra issues
  refine ⟨writes_mfs issues t rd .mlo (congrArg not List.beq_nil_eq), writes_mfs issues t rd .mhi (congrArg not List.beq_nil_eq),
    writes_mfs issues t rd .frs (congrArg not List.beq_nil_eq), writes_mfs issues t rd .quo (congrArg not List.beq_nil_eq),
    writes_mfs issues t rd .rem (congrArg not List.beq_nil_eq), fun p => ?mts, fun k => ⟨_, writes_rdfeat issues t rd k, ?feat⟩⟩
  case mts =>
    obtain ⟨s', run, fetched, only, get, flags, pc, room⟩ := runs_units (i := .mts t r p ra) rfl issues (fun _ => rfl) fun w => by
      rw [setSpr_eq]; rfl
    obtain ⟨_, _, _, _, _, _, _, _, _, _, issued⟩ := issue_eq (s.operands t r) (loadPending [ra] (s.operands t r)) (s.fetchCycle t r)
    rw [setSpr_eq, issued] at room
    exact ⟨s', run, fetched, only, get, flags, pc, congrArg Room.mlo room, congrArg Room.mhi room, congrArg Room.frs room,
      congrArg Room.quo room, congrArg Room.rem room, congrArg Room.acc room⟩
  case feat =>
    rintro rfl
    exact feature_zero_arith _

end Sys2Proof.Machine
end

section
/-! PROOFS. What the arithmetic units are given, and when their results arrive (R75 to R78, R119 to R124, R143, R144). -/

namespace Sys2Proof.Machine

/-! ### Division (R124) -/

/-- Quotient and remainder of a division with the remainder's sign that of the dividend, or zero. -/
theorem tdiv_tmod_of_identity {a b q m : Int} (nonzero : b ≠ 0) (identity : a = q * b + m) (small : m.natAbs < b.natAbs)
    (sign : m = 0 ∨ (m < 0 ↔ a < 0)) : a.tdiv b = q ∧ a.tmod b = m := by
  rcases Int.le_total 0 a with up | down
  · exact (Int.tdiv_tmod_unique up nonzero).mpr ⟨by rw [identity, Int.mul_comm, Int.add_comm], by omega, by omega⟩
  · have nonpos : m ≤ 0 := by
      rcases Int.lt_or_le a 0 with negative | zero
      · omega
      · obtain rfl : a = 0 := by omega
        have divides : b ∣ m := ⟨-q, by linarith⟩
        exact (Int.eq_zero_of_dvd_of_natAbs_lt_natAbs divides small).le
    exact (Int.tdiv_tmod_unique' down nonzero).mpr ⟨by rw [identity, Int.mul_comm, Int.add_comm], by omega, nonpos⟩

/-- What DIV leaves in QUO and REM is the one quotient and remainder of the division identity, its two corners apart. -/
theorem divS_eq {a b q m : Word} (h : if b = 0 then q = 0xFFFFFFFF ∧ m = a
    else if a = 0x80000000 ∧ b = 0xFFFFFFFF then q = 0x80000000 ∧ m = 0
    else a.toInt = q.toInt * b.toInt + m.toInt ∧ m.toInt.natAbs < b.toInt.natAbs ∧ (m = 0 ∨ m.msb = a.msb)) : divS a b = (q, m) := by
  unfold divS
  split at h
  case isTrue zero =>
    obtain ⟨rfl, rfl⟩ := h
    exact if_pos zero
  case isFalse nonzero =>
    rw [if_neg nonzero]
    split at h
    case isTrue corner =>
      obtain ⟨rfl, rfl⟩ := corner
      obtain ⟨rfl, rfl⟩ := h
      decide
    case isFalse =>
      obtain ⟨identity, small, sign⟩ := h
      have signed : m.toInt = 0 ∨ (m.toInt < 0 ↔ a.toInt < 0) := by
        refine sign.imp (by rintro rfl; exact BitVec.toInt_zero) fun same => ?_
        rwa [BitVec.msb_eq_toInt, BitVec.msb_eq_toInt, decide_eq_decide] at same
      obtain ⟨quo, rem⟩ := tdiv_tmod_of_identity (fun zero => nonzero (BitVec.toInt_inj.mp zero)) identity small signed
      rw [quo, rem, BitVec.ofInt_toInt, BitVec.ofInt_toInt]

theorem divU_eq {a b q m : Word} (h : if b = 0 then q = 0xFFFFFFFF ∧ m = a else a.toNat = q.toNat * b.toNat + m.toNat ∧ m.toNat < b.toNat) :
    divU a b = (q, m) := by
  unfold divU
  split at h
  case isTrue zero =>
    obtain ⟨rfl, rfl⟩ := h
    exact if_pos zero
  case isFalse nonzero =>
    obtain ⟨identity, small⟩ := h
    rw [if_neg nonzero]
    have parts : a.toNat / b.toNat = q.toNat ∧ a.toNat % b.toNat = m.toNat :=
      (Nat.div_mod_unique (by omega)).mpr ⟨by rw [identity, Nat.mul_comm, Nat.add_comm], small⟩
    exact Prod.ext (BitVec.eq_of_toNat_eq ((BitVec.toNat_udiv ..).trans parts.1)) (BitVec.eq_of_toNat_eq ((BitVec.toNat_umod ..).trans parts.2))

/-! ### Products (R119, R143) -/

theorem acc_add_mulS (acc : DWord) (a b : Word) : acc + mulS a b = BitVec.ofInt 64 (acc.toInt + a.toInt * b.toInt) := by
  rw [BitVec.ofInt_add, BitVec.ofInt_toInt, mulS]

theorem acc_add_mulU (acc : DWord) (a b : Word) : acc + mulU a b = BitVec.ofNat 64 (acc.toNat + a.toNat * b.toNat) := by
  rw [BitVec.ofNat_add, BitVec.ofNat_toNat, BitVec.setWidth_eq, mulU]

/-! ### Issue (R77, R78) -/

/-- MLO, MHI, FRS, QUO and REM (R122). -/
def Room.results (v : Room) : Word × Word × Word × Word × Word := (v.mlo, v.mhi, v.frs, v.quo, v.rem)

/-- A fetch touches neither results nor units. -/
theorem issue_units (v : Room) (early : Bool) (c : Nat) : (v.issue early c).results = v.results ∧ (v.issue early c).acc = v.acc ∧
    (v.issue early c).macQ = v.macQ ∧ (v.issue early c).fpuQ = v.fpuQ ∧ (v.issue early c).divQ = v.divQ := by
  obtain ⟨_, _, _, _, _, _, _, _, _, _, issued⟩ := issue_eq v early c
  rw [issued]
  exact ⟨rfl, rfl, rfl, rfl, rfl⟩

/-- A function of one or two general registers, as the operand stage reads them. -/
def ofReg (f : Word → Word) (ra : Reg) (v : Room) : Word := f (v.get ra)
def ofRegs {α : Type} (f : Word → Word → α) (ra rb : Reg) (v : Room) : α := f (v.get ra) (v.get rb)

theorem insertDue_perm {α : Type} (q : List (Nat × α)) (e : Nat × α) : (insertDue q e).Perm (e :: q) := by
  unfold insertDue
  rw [List.append_assoc, List.singleton_append]
  exact List.perm_middle.trans (by rw [List.takeWhile_append_dropWhile])

/-- An operation of the arithmetic units, issued: on L0 to L5 it writes nothing; on L6 and L7 registers, flags and the results written so far
stay, and P says what its own unit holds. -/
def ArithIssued (s : State) (t : Nat) (r : RoomId) (i : Instr) (reads : List Reg) (P : Room → Prop) : Prop :=
  let v := s.operands t r
  (v.lane.val < 6 → Leaves s t r i false v.flags (v.pc + 1)) ∧
  (6 ≤ v.lane.val → ∃ s', exec i s = .next s' ∧ Fetched s s' t r (loadPending reads v) ∧ OnlyRooms s s' ∧
    (∀ g : Reg, s'.rooms[r].get g = v.landed g) ∧ s'.rooms[r].flags = v.flags ∧ s'.rooms[r].pc = s.rooms[r].pc + 1 ∧
    s'.rooms[r].mlo = v.mlo ∧ s'.rooms[r].mhi = v.mhi ∧ s'.rooms[r].frs = v.frs ∧ s'.rooms[r].quo = v.quo ∧ s'.rooms[r].rem = v.rem ∧
    P s'.rooms[r])

section
variable {s : State} {r : RoomId} (issues : s.canIssue r = true) {t : Nat} {i : Instr} {reads : List Reg}
include issues

/-- An operation that only changes the accumulator or adds to the results in flight does no more than a fetch besides. -/
theorem arithIssued {f : Room → Nat → Room → Room} (run : exec i s = .next (s.laneArith t r reads f))
    (units : ∀ w : Room, (f (s.operands t r) (s.fetchCycle t r) w).unitless = w.unitless)
    (results : ∀ w : Room, (f (s.operands t r) (s.fetchCycle t r) w).results = w.results) {P : Room → Prop}
    (holds : ∀ w : Room, w.acc = (s.operands t r).acc → w.macQ = (s.operands t r).macQ → w.fpuQ = (s.operands t r).fpuQ →
      w.divQ = (s.operands t r).divQ → P (f (s.operands t r) (s.fetchCycle t r) w)) :
    ArithIssued s t r i reads P := by
  refine ⟨fun low => ?_, fun high => ?_⟩
  · have idle := leaves_idle issues run (if_neg (not_le.mpr low))
    rwa [decide_eq_false (not_le.mpr low), Bool.false_and] at idle
  · obtain ⟨s', run, fetched, only, get, flags, pc, room⟩ := runs_units run issues (fun _ => if_pos high) units
    rw [decide_eq_true high, Bool.true_and] at fetched room
    obtain ⟨same, acc, mac, fpu, div⟩ := issue_units (s.operands t r) (loadPending reads (s.operands t r)) (s.fetchCycle t r)
    have same := (results _).trans same
    have result := holds _ acc mac fpu div
    rw [← room] at same result
    simp only [Room.results, Prod.mk.injEq] at same
    obtain ⟨mlo, mhi, frs, quo, rem⟩ := same
    exact ⟨s', run, fetched, only, get, flags, pc, mlo, mhi, frs, quo, rem, result⟩

theorem product_issued (x : Room → DWord) (run : exec i s = .next (s.laneArith t r reads fun v c w => w.mulIssue c (x v)))
    {y : DWord} (value : x (s.operands t r) = y) :
    ArithIssued s t r i reads (fun w => w.acc = y ∧ w.macQ.Perm ((s.fetchCycle t r + 24, y) :: (s.operands t r).macQ) ∧
      w.fpuQ = (s.operands t r).fpuQ ∧ w.divQ = (s.operands t r).divQ) := by
  subst value
  exact arithIssued issues run (fun _ => rfl) (fun _ => rfl) fun _ _ mac fpu div => ⟨rfl, mac ▸ insertDue_perm .., fpu, div⟩

theorem float_issued (x : Room → Word) {lat : Nat} (run : exec i s = .next (s.laneArith t r reads fun v c w => w.fpuIssue c lat (x v))) :
    ArithIssued s t r i reads (fun w => w.fpuQ.Perm ((s.fetchCycle t r + lat, x (s.operands t r)) :: (s.operands t r).fpuQ) ∧
      w.acc = (s.operands t r).acc ∧ w.macQ = (s.operands t r).macQ ∧ w.divQ = (s.operands t r).divQ) :=
  arithIssued issues run (fun _ => rfl) (fun _ => rfl) fun _ acc mac fpu div => ⟨fpu ▸ insertDue_perm .., acc, mac, div⟩

theorem quotient_issued (x : Room → Word × Word) (run : exec i s = .next (s.laneArith t r reads fun v c w => w.divIssue c (x v)))
    {q m : Word} (value : x (s.operands t r) = (q, m)) :
    ArithIssued s t r i reads (fun w => w.divQ.Perm ((s.fetchCycle t r + 144, q, m) :: (s.operands t r).divQ) ∧ w.acc = (s.operands t r).acc ∧
      w.macQ = (s.operands t r).macQ ∧ w.fpuQ = (s.operands t r).fpuQ) := by
  rw [← value]
  exact arithIssued issues run (fun _ => rfl) (fun _ => rfl) fun _ acc mac fpu div => ⟨div ▸ insertDue_perm .., acc, mac, fpu⟩

end

theorem arithmeticIssue : Stated.ArithmeticIssue := by
  intro s t r ra rb issues
  refine ⟨product_issued issues (ofRegs mulS ra rb) rfl rfl, product_issued issues (ofRegs mulU ra rb) rfl rfl,
    product_issued issues (fun v => v.acc + mulS (v.get ra) (v.get rb)) rfl (acc_add_mulS ..),
    product_issued issues (fun v => v.acc + mulU (v.get ra) (v.get rb)) rfl (acc_add_mulU ..),
    float_issued issues (ofRegs fAdd ra rb) rfl, float_issued issues (ofRegs fSub ra rb) rfl, float_issued issues (ofRegs fMul ra rb) rfl,
    float_issued issues (ofRegs fDiv ra rb) rfl, float_issued issues (ofRegs fMin ra rb) rfl, float_issued issues (ofRegs fMax ra rb) rfl,
    float_issued issues (ofRegs fCmp ra rb) rfl, float_issued issues (ofReg itof ra) rfl, float_issued issues (ofReg utof ra) rfl,
    float_issued issues (ofReg ftoi ra) rfl, fun q m identity => quotient_issued issues (ofRegs divS ra rb) rfl (divS_eq identity),
    fun q m identity => quotient_issued issues (ofRegs divU ra rb) rfl (divU_eq identity)⟩

end Sys2Proof.Machine
end

section
/-! PROOFS. When results arrive: the write events of the arithmetic units, and a load in flight (R75, R76, R78). -/

namespace Sys2Proof.Machine

/-- Of a queue ordered by due cycle, the first entry alone is due. -/
theorem filter_due {α : Type} {rest : List (Nat × α)} {d now : Nat} (x : α) (due : d ≤ now) (later : ∀ e ∈ rest, now < e.1) :
    ((d, x) :: rest).filter (fun e => decide (e.1 ≤ now)) = [(d, x)] ∧ ((d, x) :: rest).filter (fun e => !decide (e.1 ≤ now)) = rest := by
  have waits : ∀ e ∈ rest, ¬e.1 ≤ now := fun e mem => not_le.mpr (later e mem)
  constructor
  · rw [List.filter_cons_of_pos (by simpa using due), List.filter_eq_nil_iff.mpr fun e mem => by simpa using waits e mem]
  · rw [List.filter_cons_of_neg (by simpa using due), List.filter_eq_self.mpr fun e mem => by simpa using waits e mem]

section
variable {v : Room} {d now : Nat} (due : d ≤ now)
include due

theorem landMac_first {x : DWord} {rest : List (Nat × DWord)} (queue : v.macQ = (d, x) :: rest) (later : ∀ e ∈ rest, now < e.1) :
    v.landMac now = { v with mlo := x.setWidth 32, mhi := (x >>> 32).setWidth 32, macQ := rest } := by
  obtain ⟨lands, stays⟩ := filter_due x due later
  rw [Room.landMac, queue, lands, stays]
  rfl

theorem landFpu_first {x : Word} {rest : List (Nat × Word)} (queue : v.fpuQ = (d, x) :: rest) (later : ∀ e ∈ rest, now < e.1) :
    v.landFpu now = { v with frs := x, fpuQ := rest } := by
  obtain ⟨lands, stays⟩ := filter_due x due later
  rw [Room.landFpu, queue, lands, stays]
  rfl

theorem landDiv_first {q m : Word} {rest : List (Nat × Word × Word)} (queue : v.divQ = (d, q, m) :: rest) (later : ∀ e ∈ rest, now < e.1) :
    v.landDiv now = { v with quo := q, rem := m, divQ := rest } := by
  obtain ⟨lands, stays⟩ := filter_due (q, m) due later
  rw [Room.landDiv, queue, lands, stays]
  rfl

end

/-- A write event at the instant of its command changes its room alone. -/
theorem writes_event {s : State} {t : Nat} {r : RoomId} {i : Instr} {f : Room → Room} {w : Room}
    (run : exec i s = .next ((s.at t).updRoom r f)) (lands : f s.rooms[r] = w) :
    ∃ s', exec i s = .next s' ∧ s' = { s with now := max s.now t, rooms := s'.rooms } ∧ s'.rooms = s.rooms.set r.val w := by
  subst lands
  exact ⟨_, run, rfl, rfl⟩

/-- General registers settle by the load in flight alone (R75). -/
theorem settle_g {v : Room} {f : LoadFlight} (flight : v.load = some f) (cyc : Nat) :
    (v.settle cyc).g = (if f.due < cyc then v.put f.rd f.val else v).g := by
  have mac (w : Room) (q : List (Nat × DWord)) : ({ w with macQ := q } : Room).g = w.g := rfl
  have fpu (w : Room) (q : List (Nat × Word)) : ({ w with fpuQ := q } : Room).g = w.g := rfl
  have div (w : Room) (q : List (Nat × Word × Word)) : ({ w with divQ := q } : Room).g = w.g := rfl
  unfold Room.settle
  dsimp only
  rw [div, foldl_keeps Room.g, fpu, foldl_keeps Room.g, mac, foldl_keeps Room.g, flight]
  case hf | hf | hf => exact fun _ _ => rfl
  dsimp only
  split <;> rfl

/-- What a register that a load is for reads in cycle cyc (R75, R79). -/
theorem settle_get_load {v : Room} {f : LoadFlight} (flight : v.load = some f) (cyc : Nat) :
    (v.settle cyc).get f.rd = if f.due < cyc ∧ f.rd ≠ 0 then f.val else v.get f.rd := by
  have settled : (v.settle cyc).get f.rd = (if f.due < cyc then v.put f.rd f.val else v).get f.rd := by
    rw [Room.get, Room.get, settle_g flight]
  rw [settled]
  by_cases landed : f.due < cyc
  · rw [if_pos landed, put_get, if_pos rfl]
    by_cases zero : f.rd = 0
    · simp [zero, get_zero]
    · simp [zero, landed]
  · simp [landed]

theorem resultWrites : Stated.ResultWrites := by
  intro s t r d due
  refine ⟨fun x rest queue later => writes_event rfl (landMac_first due queue later),
    fun x rest queue later => writes_event rfl (landFpu_first due queue later),
    fun q m rest queue later => writes_event rfl (landDiv_first due queue later), fun _ cyc flight => settle_get_load flight cyc⟩

end Sys2Proof.Machine
end

section
/-! PROOFS. Binary32 at its corners: NaN, infinities, zeros, and integers that convert exactly (R123, R145). -/

namespace Sys2Proof.Machine

/-! ### Classes of values -/

theorem fIsNan_iff (x : Word) : fIsNan x = true ↔ x.toNat / 2 ^ 23 % 256 = 255 ∧ x.toNat % 2 ^ 23 ≠ 0 := by
  simp [fIsNan, fExp, fFrac]

theorem fIsInf_iff (x : Word) : fIsInf x = true ↔ x = 0x7F800000 ∨ x = 0xFF800000 := by
  simp only [fIsInf, fExp, fFrac, Bool.and_eq_true, beq_iff_eq]
  bv_omega

theorem fIsZero_iff (x : Word) : fIsZero x = true ↔ x = 0 ∨ x = 0x80000000 := by
  simp only [fIsZero, fExp, fFrac, Bool.and_eq_true, beq_iff_eq]
  bv_omega

theorem fIsNan_of_inf {x : Word} (h : fIsInf x = true) : fIsNan x = false := by
  rcases (fIsInf_iff x).mp h with rfl | rfl <;> rfl

theorem fIsNan_of_zero {x : Word} (h : fIsZero x = true) : fIsNan x = false := by
  rcases (fIsZero_iff x).mp h with rfl | rfl <;> rfl

theorem fIsInf_of_zero {x : Word} (h : fIsZero x = true) : fIsInf x = false := by
  rcases (fIsZero_iff x).mp h with rfl | rfl <;> rfl

/-! ### NaN operands (R123) -/

section
variable {a b : Word} (h : fIsNan a = true ∨ fIsNan b = true)
include h

theorem fAdd_nan : fAdd a b = qnan := if_pos ((Bool.or_eq_true ..).mpr h)

theorem fMul_nan : fMul a b = qnan := if_pos ((Bool.or_eq_true ..).mpr h)

theorem fDiv_nan : fDiv a b = qnan := if_pos ((Bool.or_eq_true ..).mpr h)

theorem fCmp_nan : fCmp a b = 3 := if_pos ((Bool.or_eq_true ..).mpr h)

theorem fSub_nan : fSub a b = qnan := by
  unfold fSub
  split
  case isTrue => rfl
  case isFalse number => exact if_pos ((Bool.or_eq_true ..).mpr (.inl (h.resolve_right number)))

end

/-! ### Infinities and zeros -/

theorem fAdd_inf {a b : Word} (ha : fIsInf a = true) (hb : fIsInf b = true) : fAdd a b = if a = b then a else qnan := by
  rcases (fIsInf_iff a).mp ha with rfl | rfl <;> rcases (fIsInf_iff b).mp hb with rfl | rfl <;> rfl

theorem fDiv_inf {a b : Word} (ha : fIsInf a = true) (hb : fIsInf b = true) : fDiv a b = qnan := by
  simp [fDiv, ha, hb]

theorem fMul_inf_zero {a b : Word} (ha : fIsInf a = true) (hb : fIsZero b = true) : fMul a b = qnan := by
  simp [fMul, ha, hb]

theorem fDiv_zero {a b : Word} (ha : fIsZero a = true) (hb : fIsZero b = true) : fDiv a b = qnan := by
  simp [fDiv, ha, hb, fIsInf_of_zero]

/-! ### Comparison (R145) -/

theorem fCmp_zero {a b : Word} (ha : fIsZero a = true) (hb : fIsZero b = true) : fCmp a b = 0 := by
  simp [fCmp, ha, hb, fIsNan_of_zero]

theorem eq_of_fCmp_eq_zero {a b : Word} (ha : fIsZero a = false) (equal : fCmp a b = 0) : a = b := by
  simp only [fCmp, ha, Bool.false_and, Bool.or_false, decide_eq_true_eq] at equal
  split_ifs at equal with unordered same less
  · exact absurd equal (by decide)
  · exact same
  · exact absurd equal (by decide)
  · exact absurd equal (by decide)

/-! ### Smaller and larger (R145) -/

theorem fMin_nan {a b : Word} (ha : fIsNan a = true) (hb : fIsNan b = true) : fMin a b = qnan := by simp [fMin, ha, hb]

theorem fMax_nan {a b : Word} (ha : fIsNan a = true) (hb : fIsNan b = true) : fMax a b = qnan := by simp [fMax, ha, hb]

theorem fMin_number {a b : Word} (ha : fIsNan a = true) (hb : fIsNan b = false) : fMin a b = b ∧ fMin b a = b := by simp [fMin, ha, hb]

theorem fMax_number {a b : Word} (ha : fIsNan a = true) (hb : fIsNan b = false) : fMax a b = b ∧ fMax b a = b := by simp [fMax, ha, hb]

/-! ### Conversion of integers below 2²⁴, which binary32 holds exactly (R145) -/

theorem shiftRound_mul_two_pow (m k : Nat) : shiftRound (m * 2 ^ k) k = m := by
  unfold shiftRound
  dsimp only
  rw [Nat.mul_div_cancel _ (by positivity), Nat.mul_mod_left]
  split
  case isTrue zero => simp [zero]
  case isFalse positive =>
    have half : 0 < 2 ^ k / 2 := Nat.div_pos (Nat.le_self_pow positive 2) (by decide)
    exact if_neg (by omega)

/-- The mantissa of a positive integer below 2²⁴, with its leading bit at 23. -/
def intMant (m : Nat) : Nat := m * 2 ^ (23 - m.log2)

theorem log2_le_of_lt {m : Nat} (pos : m ≠ 0) (h : m < 2 ^ 24) : m.log2 ≤ 23 := Nat.lt_succ_iff.mp ((Nat.log2_lt pos).mpr h)

theorem intMant_bounds {m : Nat} (pos : m ≠ 0) (h : m < 2 ^ 24) : 2 ^ 23 ≤ intMant m ∧ intMant m < 2 ^ 24 := by
  have log := log2_le_of_lt pos h
  constructor
  · calc 2 ^ 23 = 2 ^ m.log2 * 2 ^ (23 - m.log2) := by rw [← pow_add]; congr 1; omega
      _ ≤ intMant m := Nat.mul_le_mul_right _ (Nat.log2_self_le pos)
  · calc intMant m < 2 ^ (m.log2 + 1) * 2 ^ (23 - m.log2) := Nat.mul_lt_mul_of_pos_right Nat.lt_log2_self (by positivity)
      _ = 2 ^ 24 := by rw [← pow_add]; congr 1; omega

theorem fRound_int {m : Nat} (pos : m ≠ 0) (h : m < 2 ^ 24) :
    fRound false m 0 = BitVec.ofNat 32 ((m.log2 + 126) * 2 ^ 23 + intMant m) := by
  have log := log2_le_of_lt pos h
  have bounds := intMant_bounds pos h
  have exponent : max ((0 : Int) + (m.log2 : Int) - 23) (-149) = (m.log2 : Int) - 23 := by omega
  have shift : ((0 : Int) - ((m.log2 : Int) - 23)).toNat = 23 - m.log2 := by omega
  have biased : ((m.log2 : Int) - 23 + 149).toNat = m.log2 + 126 := by omega
  unfold fRound
  dsimp only
  rw [if_neg pos, exponent, if_pos (by omega : (m.log2 : Int) - 23 ≤ 0), shift, biased, show m * 2 ^ (23 - m.log2) = intMant m from rfl,
    if_neg (by omega), if_neg Bool.false_ne_true, Nat.add_zero]

/-- The fields of an integer's value. -/
theorem fields_fRound_int {m : Nat} (pos : m ≠ 0) (h : m < 2 ^ 24) :
    fSign (fRound false m 0) = false ∧ fExp (fRound false m 0) = m.log2 + 127 ∧ fFrac (fRound false m 0) = intMant m - 2 ^ 23 := by
  have log := log2_le_of_lt pos h
  have bounds := intMant_bounds pos h
  have nat : (fRound false m 0).toNat = (m.log2 + 126) * 2 ^ 23 + intMant m := by
    rw [fRound_int pos h, BitVec.toNat_ofNat, Nat.mod_eq_of_lt (by omega)]
  refine ⟨?_, ?_, ?_⟩
  · rw [fSign, BitVec.msb_eq_false_iff_two_mul_lt, nat]
    omega
  · rw [fExp, nat]
    omega
  · rw [fFrac, nat]
    omega

theorem fMant_fRound_int {m : Nat} (pos : m ≠ 0) (h : m < 2 ^ 24) : fMant (fRound false m 0) = m * 2 ^ (23 - m.log2) := by
  obtain ⟨-, exp, frac⟩ := fields_fRound_int pos h
  rw [fMant, exp, frac, if_neg (by omega)]
  exact Nat.sub_add_cancel (intMant_bounds pos h).1

theorem fPow_fRound_int {m : Nat} (pos : m ≠ 0) (h : m < 2 ^ 24) : fPow (fRound false m 0) = (m.log2 : Int) - 23 := by
  obtain ⟨-, exp, -⟩ := fields_fRound_int pos h
  rw [fPow, exp, if_neg (by omega)]
  omega

/-- The integer that an exact mantissa and its exponent stand for. -/
theorem rounded_intMant {m : Nat} (log : m.log2 ≤ 23) :
    (if (0 : Int) ≤ (m.log2 : Int) - 23 then m * 2 ^ (23 - m.log2) * 2 ^ ((m.log2 : Int) - 23).toNat
      else shiftRound (m * 2 ^ (23 - m.log2)) (-((m.log2 : Int) - 23)).toNat) = m := by
  split
  case isTrue top =>
    have last : m.log2 = 23 := by omega
    simp [last]
  case isFalse =>
    rw [show (-((m.log2 : Int) - 23)).toNat = 23 - m.log2 by omega, shiftRound_mul_two_pow]

theorem ftoi_fRound {m : Nat} (h : m < 2 ^ 24) : ftoi (fRound false m 0) = BitVec.ofNat 32 m := by
  rcases eq_or_ne m 0 with rfl | pos
  · decide
  · have log := log2_le_of_lt pos h
    obtain ⟨sign, exp, -⟩ := fields_fRound_int pos h
    have finite : (fExp (fRound false m 0) == 255) = false := by rw [exp, beq_eq_false_iff_ne]; omega
    unfold ftoi fIsNan fIsInf
    rw [finite, Bool.false_and, Bool.false_and, if_neg Bool.false_ne_true, if_neg Bool.false_ne_true, sign, fMant_fRound_int pos h,
      fPow_fRound_int pos h, rounded_intMant log]
    dsimp only
    rw [if_neg Bool.false_ne_true, if_neg (by omega)]

theorem ftoi_utof {a : Word} (h : a.toNat < 2 ^ 24) : ftoi (utof a) = a := by
  rw [utof, ftoi_fRound h, BitVec.ofNat_toNat, BitVec.setWidth_eq]

theorem itof_eq_utof {a : Word} (h : a.toNat < 2 ^ 24) : itof a = utof a := by
  have nonneg : a.toInt = a.toNat := BitVec.toInt_eq_toNat_of_lt (by omega)
  rw [itof, utof, nonneg, Int.natAbs_natCast, decide_eq_false (by omega)]

/-! ### The corners together -/

theorem floatCorners : Stated.FloatCorners := by
  intro a b
  dsimp only
  simp only [← fIsNan_iff, ← fIsInf_iff, ← fIsZero_iff, Bool.not_eq_true]
  refine ⟨fun nan => ⟨fAdd_nan nan, fSub_nan nan, fMul_nan nan, fDiv_nan nan, fCmp_nan nan⟩, fun ha hb => ⟨fAdd_inf ha hb, fDiv_inf ha hb⟩,
    fMul_inf_zero, fun ha hb => ⟨fDiv_zero ha hb, fCmp_zero ha hb⟩, fun _ _ => eq_of_fCmp_eq_zero,
    fun ha hb => ⟨fMin_nan ha hb, fMax_nan ha hb⟩, fun ha hb => ?_, fun ha => if_pos ha, by decide, by decide, fun h => ⟨by rw [itof_eq_utof h, ftoi_utof h], ftoi_utof h⟩⟩
  obtain ⟨min, min'⟩ := fMin_number ha hb
  obtain ⟨max, max'⟩ := fMax_number ha hb
  exact ⟨min, max, min', max'⟩

/-- Settles O9: an operation adds to the results in flight of its unit alone; the identity of division has one solution; a write event lands
the first entry of its queue; the corners by the classes of binary32 values. -/
theorem arithmeticUnits : Obligations.ArithmeticUnits := ⟨arithmeticIssue, resultWrites, floatCorners⟩

end Sys2Proof.Machine
end

section
/-! PROOFS. Integer, logic, select, shift, field and Boolean instructions (R103, R104, R134 to R137, R141). -/

namespace Sys2Proof.Machine

/-! ### Flags (R103, R135) -/

/-- Two rooms agree in Z, N, C, V and B, field by field. -/
theorem flags_eq_iff (w v : Room) : w.flags = v.flags ↔ w.z = v.z ∧ w.n = v.n ∧ w.c = v.c ∧ w.v = v.v ∧ w.b = v.b := by
  simp only [Room.flags, Prod.mk.injEq]

/-- A signed value lies outside the range of a word exactly when the word it leaves is not that value (R103). -/
theorem signed_misfit {x : Word} {e : Int} (residue : x = BitVec.ofInt 32 e) :
    (decide (e < -(2 ^ 31)) || decide (2 ^ 31 ≤ e)) = (x.toInt != e) := by
  have value : x.toInt = e.bmod (2 ^ 32) := by rw [residue, BitVec.toInt_ofInt]
  rw [Bool.eq_iff_iff, Bool.or_eq_true, decide_eq_true_iff, decide_eq_true_iff, bne_iff_ne, value, Int.bmod_def]
  omega

theorem addResult_eq_ofInt (a b : Word) (cin : Bool) : addResult a b cin = BitVec.ofInt 32 (a.toInt + b.toInt + b2n cin) := by
  rw [BitVec.ofInt_add, BitVec.ofInt_add, BitVec.ofInt_toInt, BitVec.ofInt_toInt, BitVec.ofInt_natCast, addResult]

theorem subResult_eq_ofInt (a b : Word) (borrow : Bool) : subResult a b borrow = BitVec.ofInt 32 (a.toInt - b.toInt - b2n borrow) := by
  rw [Int.sub_eq_add_neg, Int.sub_eq_add_neg, BitVec.ofInt_add, BitVec.ofInt_add, BitVec.ofInt_neg, BitVec.ofInt_neg, BitVec.ofInt_toInt,
    BitVec.ofInt_toInt, BitVec.ofInt_natCast, ← BitVec.sub_eq_add_neg, ← BitVec.sub_eq_add_neg, subResult]

section
variable {v w : Room} (same : w.flags = v.flags)
include same

theorem setZN_flags (x : Word) : (w.setZN x).flags = v.zn x := by
  obtain ⟨-, -, c, v, b⟩ := (flags_eq_iff w v).mp same
  simp only [Room.flags, Room.setZN, Room.zn, c, v, b]

theorem flagsAdd_flags (a y : Word) (cin : Bool) : (w.flagsAdd a y cin).flags =
    v.arith (addResult a y cin) (decide (2 ^ 32 ≤ a.toNat + y.toNat + b2n cin)) (a.toInt + y.toInt + b2n cin) := by
  obtain ⟨-, -, -, -, b⟩ := (flags_eq_iff w v).mp same
  simp only [Room.flags, Room.flagsAdd, Room.setZN, Room.arith, addCarry, addOverflow, signed_misfit (addResult_eq_ofInt a y cin), b]

theorem flagsSub_flags (a y : Word) (borrow : Bool) : (w.flagsSub a y borrow).flags =
    v.arith (subResult a y borrow) (decide (y.toNat + b2n borrow ≤ a.toNat)) (a.toInt - y.toInt - b2n borrow) := by
  obtain ⟨-, -, -, -, b⟩ := (flags_eq_iff w v).mp same
  simp only [Room.flags, Room.flagsSub, Room.setZN, Room.arith, subCarry, subOverflow, signed_misfit (subResult_eq_ofInt a y borrow), b]

theorem flagsShift_flags (x : Word) (n : Nat) (last : Bool) : (w.flagsShift x n last).flags = v.shifted x n last := by
  obtain ⟨-, -, c, v, b⟩ := (flags_eq_iff w v).mp same
  simp only [Room.flags, Room.flagsShift, Room.setZN, Room.shifted, c, v, b]

end

/-! ### Instructions by the flags they set -/

section
variable {s : State} {t : Nat} {r : RoomId} {i : Instr} {reads : List Reg} {rd : Reg} (issues : s.canIssue r = true)
include issues

/-- An instruction that writes a register and no flag. -/
theorem writes_plain {f : Room → Word} (run : exec i s = .next (s.laneReg t r rd reads f fun _ w => w))
    {x : Word} (result : f (s.operands t r) = x) :
    Writes s t r i (loadPending reads (s.operands t r)) rd x (s.operands t r).flags := by
  subst result
  exact writes_laneReg run issues (fun _ => rfl) fun _ same => same

/-- An instruction that sets Z and N from its result. -/
theorem writes_zn {f : Room → Word} (run : exec i s = .next (s.laneReg t r rd reads f fun v w => w.setZN (f v)))
    {x : Word} (result : f (s.operands t r) = x) :
    Writes s t r i (loadPending reads (s.operands t r)) rd x ((s.operands t r).zn x) := by
  subst result
  exact writes_laneReg run issues (fun _ => rfl) fun _ same => setZN_flags same _

/-- A sum, with the four flags of its exact value. -/
theorem writes_add {ra : Reg} (y : Room → Word) (cin : Room → Bool)
    (run : exec i s = .next (s.laneReg t r rd reads (fun v => addResult (v.get ra) (y v) (cin v)) fun v w => w.flagsAdd (v.get ra) (y v) (cin v)))
    {x : Word} (result : addResult ((s.operands t r).get ra) (y (s.operands t r)) (cin (s.operands t r)) = x) :
    let v := s.operands t r
    Writes s t r i (loadPending reads v) rd x (v.arith (v.get ra + y v + BitVec.ofNat 32 (b2n (cin v)))
      (decide (2 ^ 32 ≤ (v.get ra).toNat + (y v).toNat + b2n (cin v))) ((v.get ra).toInt + (y v).toInt + b2n (cin v))) := by
  subst result
  exact writes_laneReg run issues (fun _ => rfl) fun _ same => flagsAdd_flags same _ _ _

/-- A difference, with the four flags of its exact value. -/
theorem writes_sub {ra : Reg} (y : Room → Word) (borrow : Room → Bool)
    (run : exec i s = .next (s.laneReg t r rd reads (fun v => subResult (v.get ra) (y v) (borrow v))
      fun v w => w.flagsSub (v.get ra) (y v) (borrow v)))
    {x : Word} (result : subResult ((s.operands t r).get ra) (y (s.operands t r)) (borrow (s.operands t r)) = x) :
    let v := s.operands t r
    Writes s t r i (loadPending reads v) rd x (v.arith (v.get ra - y v - BitVec.ofNat 32 (b2n (borrow v)))
      (decide ((y v).toNat + b2n (borrow v) ≤ (v.get ra).toNat)) ((v.get ra).toInt - (y v).toInt - b2n (borrow v))) := by
  subst result
  exact writes_laneReg run issues (fun _ => rfl) fun _ same => flagsSub_flags same _ _ _

/-- A shift by j, with Z, N and the last bit moved out in C. -/
theorem writes_shift {ra : Reg} (f : Word → Nat → Word) (out : Word → Nat → Bool) (j : Room → Nat)
    (run : exec i s = .next (s.laneReg t r rd reads (fun v => f (v.get ra) (j v))
      fun v w => w.flagsShift (f (v.get ra) (j v)) (j v) (out (v.get ra) (j v)))) :
    let v := s.operands t r
    Writes s t r i (loadPending reads v) rd (f (v.get ra) (j v)) (v.shifted (f (v.get ra) (j v)) (j v) (out (v.get ra) (j v))) :=
  writes_laneReg run issues (fun _ => rfl) fun _ same => flagsShift_flags same _ _ _

/-- An instruction of the shape `laneFlags` sets flags and goes on at the next index. -/
theorem leaves_laneFlags {g : Room → Room → Room} {fl : Bool × Bool × Bool × Bool × Bool}
    (run : exec i s = .next (s.laneFlags t r reads g))
    (only : ∀ w, g (s.operands t r) w = { w with
      z := (g (s.operands t r) w).z, n := (g (s.operands t r) w).n, c := (g (s.operands t r) w).c,
      v := (g (s.operands t r) w).v, b := (g (s.operands t r) w).b })
    (flags : ∀ w : Room, w.flags = (s.operands t r).flags → (g (s.operands t r) w).flags = fl) :
    Leaves s t r i (loadPending reads (s.operands t r)) fl ((s.operands t r).pc + 1) :=
  leaves_lane (f := g (s.operands t r)) run issues (fun _ => rfl) (fun w => by rw [only]) fun w same pc =>
    ⟨flags w same, by rw [only]; exact pc⟩

/-- A compare sets the four flags of the exact difference. -/
theorem leaves_compare {ra : Reg} (y : Room → Word)
    (run : exec i s = .next (s.laneFlags t r reads fun v w => w.flagsSub (v.get ra) (y v) false)) :
    let v := s.operands t r
    Leaves s t r i (loadPending reads v) (v.arith (v.get ra - y v - 0)
      (decide ((y v).toNat + 0 ≤ (v.get ra).toNat)) ((v.get ra).toInt - (y v).toInt - (0 : Nat))) (v.pc + 1) :=
  leaves_laneFlags issues run (fun _ => rfl) fun _ same => flagsSub_flags same _ _ false

end

/-! ### Sums and differences -/

/-- SBC borrows one less the carry (R134). -/
theorem b2n_not (c : Bool) : b2n (!c) = 1 - b2n c := by cases c <;> rfl

theorem addResult_false (a b : Word) : addResult a b false = a + b := BitVec.add_zero (a + b)

theorem subResult_false (a b : Word) : subResult a b false = a - b := BitVec.sub_zero (a - b)

/-- Settles O1: each of the seven is a sum or difference with the flags of its exact value. -/
theorem integerArithmeticResults : Obligations.IntegerArithmeticResults := by
  intro s t r rd ra rb imm issues v a b k sum dif cy
  have sbc := writes_sub (i := .sbc t r rd ra rb) (t := t) issues (fun v => v.get rb) (fun v => !v.c) rfl rfl
  simp only [subResult, b2n_not] at sbc
  exact ⟨writes_add issues (fun v => v.get rb) (fun _ => false) rfl (addResult_false ..),
    writes_sub issues (fun v => v.get rb) (fun _ => false) rfl (subResult_false ..),
    writes_add issues (fun v => v.get rb) (fun v => v.c) rfl rfl, sbc,
    writes_add issues (fun _ => sx16 imm) (fun _ => false) rfl (addResult_false ..),
    leaves_compare issues (fun v => v.get rb) rfl, leaves_compare issues (fun _ => sx16 imm) rfl⟩

/-! ### Logic, minimum and maximum -/

theorem signedMin_eq (a b : Word) : (if b.slt a then b else a) = if a.toInt ≤ b.toInt then a else b := by
  simp only [BitVec.slt_iff_toInt_lt, ← not_le, ite_not]

theorem unsignedMin_eq (a b : Word) : (if b.ult a then b else a) = if a.toNat ≤ b.toNat then a else b := by
  simp only [BitVec.ult_iff_toNat_lt, ← not_le, ite_not]

/-- The larger of two words; of equal values either is the same word. -/
theorem signedMax_eq (a b : Word) : (if a.slt b then b else a) = if a.toInt ≤ b.toInt then b else a := by
  simp only [BitVec.slt_iff_toInt_lt]
  split_ifs with less notMore notMore
  · rfl
  · omega
  · exact BitVec.toInt_inj.mp (by omega)
  · rfl

theorem unsignedMax_eq (a b : Word) : (if a.ult b then b else a) = if a.toNat ≤ b.toNat then b else a := by
  simp only [BitVec.ult_iff_toNat_lt]
  split_ifs with less notMore notMore
  · rfl
  · omega
  · exact BitVec.toNat_inj.mp (by omega)
  · rfl

theorem ofNat_b2n (b : Bool) : BitVec.ofNat 32 (b2n b) = if b then 1 else 0 := by cases b <;> rfl

/-- Settles O2: the logic and minimum/maximum forms set Z and N from their result, the others write a register alone, NOP nothing. -/
theorem logicAndSelectResults : Obligations.LogicAndSelectResults := by
  intro s t r rd ra rb imm issues v a b k lo hi lou hiu
  have getb := writes_plain (i := .getb t r rd) (t := t) issues rfl (ofNat_b2n _)
  have lui := writes_plain (i := .lui t r rd imm) (t := t) issues rfl rfl
  rw [loadPending_nil] at getb lui
  exact ⟨writes_zn issues rfl rfl, writes_zn issues rfl rfl, writes_zn issues rfl rfl, writes_zn issues rfl rfl,
    writes_zn issues rfl (signedMin_eq a b), writes_zn issues rfl (signedMax_eq a b), writes_zn issues rfl (unsignedMin_eq a b),
    writes_zn issues rfl (unsignedMax_eq a b), writes_zn issues rfl rfl, writes_zn issues rfl rfl, writes_zn issues rfl rfl,
    writes_plain issues rfl rfl, getb, lui, leaves_idle (early := fun _ => false) issues rfl rfl⟩

/-! ### Shifts, bit fields and BOOL3 (R135, R137, R141) -/

/-- The count of a shift by a register: its bits [4:0] (R135). -/
def shiftCount (rb : Reg) (v : Room) : Nat := (v.get rb).toNat % 32


theorem testBit_fieldMask (w : BitVec 5) (j : Nat) : (fieldMask w).testBit j = decide (j ≤ w.toNat) := by
  rw [fieldMask, Nat.testBit_two_pow_sub_one, decide_eq_decide, Nat.lt_succ_iff]

theorem getLsbD_bextResult (a : Word) (p w : BitVec 5) {j : Nat} (hj : j < 32) :
    (bextResult a p w).getLsbD j = (decide (j ≤ w.toNat) && a.getLsbD (p.toNat + j)) := by
  rw [bextResult, BitVec.getLsbD_ofNat, Nat.testBit_and, Nat.testBit_div_two_pow, testBit_fieldMask, decide_eq_true hj, Bool.true_and,
    Bool.and_comm, Nat.add_comm, BitVec.getLsbD]

/-- The bits of a number moved up by p. -/
theorem getLsbD_ofNat_mul_two_pow (n p : Nat) {j : Nat} (hj : j < 32) :
    (BitVec.ofNat 32 (n * 2 ^ p)).getLsbD j = (decide (p ≤ j) && n.testBit (j - p)) := by
  rw [BitVec.getLsbD_ofNat, decide_eq_true hj, Bool.true_and, Nat.testBit_mul_two_pow]

theorem getLsbD_binsResult (d a : Word) (p w : BitVec 5) {j : Nat} (hj : j < 32) : (binsResult d a p w).getLsbD j =
    if p.toNat ≤ j ∧ j ≤ p.toNat + w.toNat then a.getLsbD (j - p.toNat) else d.getLsbD j := by
  simp only [binsResult, BitVec.getLsbD_or, BitVec.getLsbD_and, BitVec.getLsbD_not, getLsbD_ofNat_mul_two_pow _ _ hj, Nat.testBit_and,
    testBit_fieldMask, decide_eq_true hj, Bool.true_and]
  have inside : (p.toNat ≤ j ∧ j ≤ p.toNat + w.toNat) ↔ p.toNat ≤ j ∧ j - p.toNat ≤ w.toNat := by omega
  rw [if_congr inside rfl rfl]
  split
  case isTrue field => simp [field, BitVec.getLsbD]
  case isFalse outside =>
    have clear : (decide (p.toNat ≤ j) && decide (j - p.toNat ≤ w.toNat)) = false := by simpa using outside
    rw [clear, Bool.not_false, Bool.and_true, Bool.and_comm (a.toNat.testBit _), ← Bool.and_assoc, clear, Bool.false_and, Bool.or_false]

/-- Bit j of a BOOL3 result: the bit of the truth table that the three bits j select (R141). -/
theorem getLsbD_bool3 (a b c : Word) (tt : Byte) {j : Nat} (hj : j < 32) : (bool3 a b c tt).getLsbD j =
    tt.getLsbD (4 * (a.getLsbD j).toNat + 2 * (b.getLsbD j).toNat + (c.getLsbD j).toNat) := by
  have pick (x : Bool) : (if x then BitVec.allOnes 32 else (0 : Word)).getLsbD j = x := by
    cases x
    · exact BitVec.getLsbD_zero
    · exact (BitVec.getLsbD_allOnes ..).trans (decide_eq_true hj)
  simp only [bool3, BitVec.getLsbD_or, BitVec.getLsbD_and, BitVec.getLsbD_not, pick, hj, decide_true, Bool.true_and]
  cases a.getLsbD j <;> cases b.getLsbD j <;> cases c.getLsbD j <;> simp

/-- Settles O3: shifts by the count each names, TST by its bit, BEXT, BINS and BOOL3 by the bits of their results. -/
theorem shiftAndFieldResults : Obligations.ShiftAndFieldResults := by
  intro s t r rd ra rb rc n p w tt issues v a k last shl shr sar
  refine ⟨writes_shift issues (· <<< ·) shlOut (shiftCount rb) rfl, writes_shift issues (· >>> ·) shrOut (shiftCount rb) rfl,
    writes_shift issues BitVec.sshiftRight shrOut (shiftCount rb) rfl, writes_shift issues (· <<< ·) shlOut (fun _ => n.toNat) rfl,
    writes_shift issues (· >>> ·) shrOut (fun _ => n.toNat) rfl, writes_shift issues BitVec.sshiftRight shrOut (fun _ => n.toNat) rfl,
    ?tst, ⟨_, fun j => getLsbD_bextResult a p w, writes_zn issues rfl rfl⟩,
    ⟨_, fun j => getLsbD_binsResult (v.get rd) a p w, writes_plain issues rfl rfl⟩,
    ⟨_, fun j => getLsbD_bool3 a (v.get rb) (v.get rc) tt, ?bool3⟩⟩
  case tst =>
    refine leaves_laneFlags issues rfl (fun _ => rfl) fun w same => ?_
    obtain ⟨z, n, c, v, -⟩ := (flags_eq_iff w (s.operands t r)).mp same
    simp only [Room.flags, z, n, c, v]
    rfl
  case bool3 =>
    have run : exec (.bool3 t r rd ra rb rc tt) s = .next (s.laneReg t r rd [ra, rb, rc]
      (fun v => bool3 (v.get ra) (v.get rb) (v.get rc) tt) fun v w => { w with
        z := bool3 (v.get ra) (v.get rb) (v.get rc) tt == 0
        b := (bool3 (v.get ra) (v.get rb) (v.get rc) tt).getLsbD 0 }) := rfl
    refine writes_laneReg run issues (fun _ => rfl) fun w same => ?_
    obtain ⟨-, n, c, v, -⟩ := (flags_eq_iff w (s.operands t r)).mp same
    simp only [Room.flags, n, c, v]
    rfl

end Sys2Proof.Machine
end

section
/-! PROOFS. An instruction that delivers a value to rd and an output to B (R140, R146): what it writes of its room, and with a report. -/

namespace Sys2Proof.Machine

/-- A room with a value in rd and an output in B. -/
def Room.delivered (rd : Reg) (x : Word) (q : Bool) (v : Room) : Room := { v.put rd x with b := q }

theorem delivered_eq (rd : Reg) (x : Word) (q : Bool) (v : Room) : v.delivered rd x q = { v with g := (v.put rd x).g, b := q } := by
  rw [Room.delivered, put_regs]

theorem delivered_get (v : Room) (rd g : Reg) (x : Word) (q : Bool) :
    (v.delivered rd x q).get g = if g = rd then (if rd = 0 then 0 else x) else v.get g := put_get v rd g x

/-- The order in which register and B are written does not matter. -/
theorem delivered_eq_put (rd : Reg) (x : Word) (q : Bool) (v : Room) : ({ v with b := q } : Room).put rd x = v.delivered rd x q := by
  unfold Room.delivered Room.put
  split <;> rfl

/-- A step of a room stays one when of that room registers and reports alone, and of the machine neither time nor lanes, are written. -/
theorem RoomStep.updRoom {s s₁ s' : State} {t : Nat} {r : RoomId} {early : Bool} {rds rds' : List Reg} (h : RoomStep s s₁ t r early rds)
    {f : Room → Room} (rooms : s'.rooms = (s₁.updRoom r f).rooms) (now : s'.now = s₁.now) (current : s'.scan.current = s₁.scan.current)
    (kept : ∀ w, f w = { w with g := (f w).g, b := (f w).b, oow := (f w).oow })
    (regs : ∀ g : Reg, g ∉ rds' → (f s₁.rooms[r]).get g = (s.operands t r).landed g) : RoomStep s s' t r early rds' := by
  have room : s'.rooms[r] = f s₁.rooms[r] := (congrArg (fun rs => rs[r]) rooms).trans (updRoom_room s₁ r f)
  have other : ∀ q : RoomId, q ≠ r → s'.rooms[q] = s₁.rooms[q] := fun q ne =>
    (congrArg (fun rs => rs[q]) rooms).trans (updRoom_other s₁ r q f ne)
  obtain ⟨fetched, -, pc, arith, zncv⟩ := h
  refine ⟨⟨now.trans fetched.now, fun q ne => (other q ne).trans (fetched.others q ne), ?_, ?_, ?_⟩, fun g out => ?_, ?_, ?_, ?_⟩
  case refine_2 => rw [current, fetched.current]
  case refine_4 => rw [room, regs g out]
  all_goals rw [room, kept]
  · exact fetched.issued
  · exact fetched.broken
  · exact pc
  · exact arith
  · exact zncv

section
variable {s s₁ : State} {t : Nat} {r : RoomId} {early : Bool}

theorem RoomStep.deliver (h : RoomStep s s₁ t r early []) (rd : Reg) (x : Word) (q : Bool) :
    RoomStep s (s₁.updRoom r (Room.delivered rd x q)) t r early [rd] :=
  h.updRoom rfl rfl rfl (fun w => by rw [delivered_eq]) fun g out => by
    rw [delivered_get, if_neg (List.mem_singleton.not.mp out), h.regs g List.not_mem_nil]

theorem RoomStep.report {rds : List Reg} (h : RoomStep s s₁ t r early rds) (pc : BitVec 20) (a : Nat) :
    RoomStep s (s₁.reportOow r pc a) t r early rds := by
  obtain ⟨gb, marks, eq⟩ := reportOow_eq s₁ r pc a
  rw [eq]
  exact h.updRoom (f := fun v => { v with oow := true }) rfl rfl rfl (fun _ => rfl) h.regs

/-- A report writes neither registers nor B. -/
theorem reportOow_get_b (s : State) (r : RoomId) (pc : BitVec 20) (a : Nat) (g : Reg) :
    (s.reportOow r pc a).rooms[r].get g = s.rooms[r].get g ∧ (s.reportOow r pc a).rooms[r].b = s.rooms[r].b := by
  obtain ⟨gb, marks, eq⟩ := reportOow_eq s r pc a
  have room : (s.reportOow r pc a).rooms[r] = { s.rooms[r] with oow := true } := by
    rw [eq]
    exact updRoom_room ..
  rw [room]
  exact ⟨rfl, rfl⟩

theorem deliver_get_b (s : State) (r : RoomId) (rd : Reg) (x : Word) (q : Bool) :
    (s.updRoom r (Room.delivered rd x q)).rooms[r].get rd = (if rd = 0 then 0 else x) ∧ (s.updRoom r (Room.delivered rd x q)).rooms[r].b = q := by
  rw [updRoom_room, delivered_get, if_pos rfl]
  exact ⟨rfl, rfl⟩

theorem fetched_step (s : State) (t : Nat) (r : RoomId) (early : Bool) : RoomStep s (s.fetched t r early) t r early [] :=
  (roomStep_of_unaccessed rfl).1

theorem onlyRooms_delivered (s : State) (t : Nat) (r : RoomId) (early : Bool) (rd : Reg) (x : Word) (q : Bool) :
    OnlyRooms s ((s.fetched t r early).updRoom r (Room.delivered rd x q)) := rfl

/-- A delivery by a fetched instruction whose access is reported (R89). -/
theorem delivered_reported (s : State) (t : Nat) (r : RoomId) (early : Bool) (rd : Reg) (x : Word) (q : Bool) (pc : BitVec 20) (a : Nat) :
    let s' := ((s.fetched t r early).updRoom r (Room.delivered rd x q)).reportOow r pc a
    RoomStep s s' t r early [rd] ∧ ReportedOow s s' r ∧ s'.rooms[r].get rd = (if rd = 0 then 0 else x) ∧ s'.rooms[r].b = q := by
  intro s'
  obtain ⟨get, b⟩ := deliver_get_b (s.fetched t r early) r rd x q
  obtain ⟨get', b'⟩ := reportOow_get_b ((s.fetched t r early).updRoom r (Room.delivered rd x q)) r pc a rd
  exact ⟨((fetched_step s t r early).deliver rd x q).report pc a, reportOow_reported (onlyRooms_delivered ..) r pc a, get'.trans get, b'.trans b⟩

/-- A delivery by a fetched instruction that does nothing else. -/
theorem writes_delivered (issues : s.canIssue r = true) {i : Instr} {reads : List Reg} {rd : Reg} {x : Word} {q : Bool}
    (run : exec i s = .next ((s.fetched t r (loadPending reads (s.operands t r))).updRoom r (Room.delivered rd x q))) :
    let v := s.operands t r
    Writes s t r i (loadPending reads v) rd x (v.z, v.n, v.c, v.v, q) := by
  have shape : exec i s = .next (s.laneReg t r rd reads (fun _ => x) fun _ w => { w with b := q }) := by
    rw [run, State.laneReg, lane_eq issues]
    simp only [delivered_eq_put]
  refine writes_laneReg shape issues (fun _ => rfl) fun w same => ?_
  obtain ⟨z, n, c, v, -⟩ := (flags_eq_iff w (s.operands t r)).mp same
  simp only [Room.flags, z, n, c, v]

end

end Sys2Proof.Machine
end

section
/-! PROOFS. EDGE (R140, R196). -/

namespace Sys2Proof.Machine

/-- The image bit address x is that of the state bit of channel n, a Type 1 or Type 3 input (R140, R196). -/
def State.EdgeInput (s : State) (x n : Nat) : Prop :=
  n < 192 ∧ x = 0x3000 + 32 * (n / 16) + n % 16 ∧ ∃ e, s.chanCfg n = some e ∧ (e.mode = 1 ∨ e.mode = 2)

theorem isDin_iff (e : ChanCfg) : e.isDin = true ↔ e.mode = 1 ∨ e.mode = 2 := by
  rw [ChanCfg.isDin, Bool.or_eq_true, beq_iff_eq, beq_iff_eq]

theorem edgeChannel_eq_some_iff (s : State) (x n : Nat) : s.edgeChannel x = some n ↔ s.EdgeInput x n := by
  unfold State.edgeChannel State.EdgeInput
  split
  case isFalse outside =>
    refine iff_of_false (Option.some_ne_none n ∘ Eq.symm) ?_
    rintro ⟨low, rfl, -⟩
    omega
  case isTrue area =>
    have place : (n < 192 ∧ x = 0x3000 + 32 * (n / 16) + n % 16) ↔ (x - 0x3000) / 32 * 16 + (x - 0x3000) % 32 = n := by omega
    rw [← and_assoc, place]
    dsimp only
    constructor
    · intro h
      split at h
      · cases h
      case h_2 e cfg =>
        split at h
        case isTrue din =>
          obtain rfl := Option.some.inj h
          exact ⟨rfl, e, cfg, (isDin_iff e).mp din⟩
        case isFalse => cases h
    · rintro ⟨rfl, e, cfg, din⟩
      rw [cfg]
      exact if_pos ((isDin_iff e).mpr din)

theorem fetched_edgeChannel (s : State) (t : Nat) (r : RoomId) (early : Bool) (x : Nat) :
    (s.fetched t r early).edgeChannel x = s.edgeChannel x := rfl

theorem u16_read_rise (m : Mem) (a : Nat) : u16 (m.read a 4) 0 = (m.get (a + 1) ++ m.get a).toNat := by
  rw [toNat_append_byte, Nat.add_comm]
  rfl

theorem u16_read_fall (m : Mem) (a : Nat) : u16 (m.read a 4) 2 = (m.get (a + 3) ++ m.get (a + 2)).toNat := by
  rw [toNat_append_byte, Nat.add_comm]
  rfl

section
variable {s : State} {r : RoomId} (issues : s.canIssue r = true) (t : Nat) (rd ra : Reg) (imm : BitVec 16) (f : Nat → Nat → Nat)
include issues

theorem laneEdge_input {n : Nat} (input : s.EdgeInput (effAddr (s.operands t r) ra imm).toNat n) :
    let v := s.operands t r
    let x := f (v.snap.get (8 * n + 1) ++ v.snap.get (8 * n)).toNat (v.snap.get (8 * n + 3) ++ v.snap.get (8 * n + 2)).toNat
    s.laneEdge t r rd ra imm f = (s.fetched t r (loadPending [ra] v)).updRoom r (Room.delivered rd (BitVec.ofNat 32 x) (x != 0)) := by
  have low : (effAddr (s.operands t r) ra imm).toNat < 2 ^ 22 := by
    obtain ⟨bound, place, -⟩ := input
    omega
  rw [State.laneEdge, lane_eq issues]
  dsimp only
  rw [if_pos low, fetched_edgeChannel, (edgeChannel_eq_some_iff ..).mpr input, ← u16_read_rise, ← u16_read_fall]
  rfl

theorem laneEdge_other (low : (effAddr (s.operands t r) ra imm).toNat < 2 ^ 22)
    (other : ∀ n, ¬s.EdgeInput (effAddr (s.operands t r) ra imm).toNat n) :
    s.laneEdge t r rd ra imm f = (s.fetched t r (loadPending [ra] (s.operands t r))).updRoom r (Room.delivered rd 0 false) := by
  have none : s.edgeChannel (effAddr (s.operands t r) ra imm).toNat = none :=
    Option.eq_none_iff_forall_ne_some.mpr fun n e => other n ((edgeChannel_eq_some_iff ..).mp e)
  rw [State.laneEdge, lane_eq issues]
  dsimp only
  rw [if_pos low, fetched_edgeChannel, none]
  rfl

theorem laneEdge_outside (high : 2 ^ 22 ≤ (effAddr (s.operands t r) ra imm).toNat) :
    let v := s.operands t r
    s.laneEdge t r rd ra imm f = ((s.fetched t r (loadPending [ra] v)).updRoom r (Room.delivered rd 0 false)).reportOow r v.pc
      (effAddr v ra imm).toNat := by
  rw [State.laneEdge, lane_eq issues]
  exact if_neg (not_lt.mpr high)

/-- An EDGE instruction: the count of an input, zero elsewhere in the map, a report beyond it. -/
theorem laneEdge_counts {i : Instr} (run : exec i s = .next (s.laneEdge t r rd ra imm f)) :
    let v := s.operands t r
    let x := (effAddr v ra imm).toNat
    let count (n : Nat) : Nat :=
      f (v.snap.get (8 * n + 1) ++ v.snap.get (8 * n)).toNat (v.snap.get (8 * n + 3) ++ v.snap.get (8 * n + 2)).toNat
    (∀ n, s.EdgeInput x n → Writes s t r i (loadPending [ra] v) rd (BitVec.ofNat 32 (count n)) (v.z, v.n, v.c, v.v, count n != 0)) ∧
      ((∀ n, ¬s.EdgeInput x n) → x < 2 ^ 22 → Writes s t r i (loadPending [ra] v) rd 0 (v.z, v.n, v.c, v.v, false)) ∧
      (2 ^ 22 ≤ x → ∃ s', exec i s = .next s' ∧ RoomStep s s' t r (loadPending [ra] v) [rd] ∧ s'.rooms[r].get rd = 0 ∧
        s'.rooms[r].b = false ∧ ReportedOow s s' r) := by
  intro v x count
  refine ⟨fun n input => ?_, fun other low => ?_, fun high => ?_⟩
  · rw [laneEdge_input issues t rd ra imm f input] at run
    exact writes_delivered issues run
  · rw [laneEdge_other issues t rd ra imm f low other] at run
    exact writes_delivered issues run
  · rw [laneEdge_outside issues t rd ra imm f high] at run
    obtain ⟨step, reported, get, b⟩ := delivered_reported s t r (loadPending [ra] v) rd 0 false v.pc x
    exact ⟨_, run, step, get.trans (ite_self 0), b, reported⟩

end

theorem edgeCounts : Stated.EdgeCounts := by
  intro s t r rd ra imm issues
  exact ⟨laneEdge_counts issues t rd ra imm (fun rise _ => rise) rfl, laneEdge_counts issues t rd ra imm (fun _ fall => fall) rfl,
    laneEdge_counts issues t rd ra imm (fun rise fall => rise + fall) rfl⟩

end Sys2Proof.Machine
end

section
/-! PROOFS. Timers and counters on their 16-byte records (R146 to R150). -/

namespace Sys2Proof.Machine

/-! ### The record of an instruction (R146) -/

/-- The address of the record: its 16 bytes are aligned (R146). -/
def recordAddr (v : Room) (ra : Reg) (imm : BitVec 16) : Nat := (effAddr v ra imm).toNat / 16 * 16

section
variable {s : State} {r : RoomId} (issues : s.canIssue r = true) (t : Nat) (rd ra : Reg) (imm : BitVec 16)
  (f : Room → List Byte → List Byte × Nat × Bool) {old new : List Byte} {x : Nat} {q : Bool} (result : f (s.operands t r) old = (new, x, q))
include issues result

theorem laneRecord_inside {m : Nat} (inside : (s.operands t r).Reaches (recordAddr (s.operands t r) ra imm) m) (read : old = s.dmem.read m 16) :
    let v := s.operands t r
    s.laneRecord t r rd ra imm f =
      ((s.fetched t r (loadPending [ra] v)).laneStoreData (s.fetchCycle t r + 6) r (recordAddr v ra imm) m new).updRoom r
        (Room.delivered rd (BitVec.ofNat 32 x) q) := by
  subst read
  rw [State.laneRecord, lane_eq issues]
  dsimp only
  rw [show (effAddr (s.operands t r) ra imm).toNat / 16 * 16 = recordAddr (s.operands t r) ra imm from rfl,
    (window_eq_some_iff ..).mpr inside, show (s.fetched t r (loadPending [ra] (s.operands t r))).dmem = s.dmem from rfl]
  dsimp only
  rw [result]
  rfl

theorem laneRecord_outside (outside : ∀ m, ¬(s.operands t r).Reaches (recordAddr (s.operands t r) ra imm) m)
    (zeros : old = List.replicate 16 0) :
    let v := s.operands t r
    s.laneRecord t r rd ra imm f =
      ((s.fetched t r (loadPending [ra] v)).updRoom r (Room.delivered rd (BitVec.ofNat 32 x) q)).reportOow r v.pc (recordAddr v ra imm) := by
  subst zeros
  rw [State.laneRecord, lane_eq issues]
  dsimp only
  rw [show (effAddr (s.operands t r) ra imm).toNat / 16 * 16 = recordAddr (s.operands t r) ra imm from rfl, window_eq_none outside]
  dsimp only
  rw [result]
  rfl

end

/-- An instruction on a record that was old: in a window it leaves new there and no other byte written; outside it writes no memory and is
reported; either way it delivers x and q. -/
def RecordStep (s : State) (t : Nat) (r : RoomId) (rd ra : Reg) (imm : BitVec 16) (i : Instr) (old new : List Byte) (x : Nat) (q : Bool) :
    Prop :=
  let v := s.operands t r
  let a := recordAddr v ra imm
  (∀ m, v.Reaches a m → old = s.dmem.read m 16 → ∃ s', exec i s = .next s' ∧ RoomStep s s' t r (loadPending [ra] v) [rd] ∧
    s' = { s with rooms := s'.rooms, now := s'.now, scan := s'.scan, dmem := s'.dmem } ∧
    (∀ y, s'.dmem.get y = if m ≤ y ∧ y < m + 16 then byteAt new (y - m) else s.dmem.get y) ∧
    s'.rooms[r].get rd = (if rd = 0 then 0 else BitVec.ofNat 32 x) ∧ s'.rooms[r].b = q) ∧
  ((∀ m, ¬v.Reaches a m) → old = List.replicate 16 0 → ∃ s', exec i s = .next s' ∧ RoomStep s s' t r (loadPending [ra] v) [rd] ∧
    ReportedOow s s' r ∧ s'.rooms[r].get rd = (if rd = 0 then 0 else BitVec.ofNat 32 x) ∧ s'.rooms[r].b = q)

section
variable {s : State} (inv : s.Inv) {r : RoomId} (issues : s.canIssue r = true) {t : Nat} {rd ra : Reg} {imm : BitVec 16} {i : Instr}
include inv issues

theorem laneRecord_step {f : Room → List Byte → List Byte × Nat × Bool} (run : exec i s = .next (s.laneRecord t r rd ra imm f))
    {old new : List Byte} {x : Nat} {q : Bool} (result : f (s.operands t r) old = (new, x, q)) (length : new.length = 16) :
    RecordStep s t r rd ra imm i old new x q := by
  refine ⟨fun m inside read => ?_, fun outside zeros => ?_⟩
  · rw [laneRecord_inside issues t rd ra imm f result inside read] at run
    obtain ⟨get, b⟩ := deliver_get_b ((s.fetched t r (loadPending [ra] (s.operands t r))).laneStoreData (s.fetchCycle t r + 6) r
      (recordAddr (s.operands t r) ra imm) m new) r rd (BitVec.ofNat 32 x) q
    refine ⟨_, run, (roomStep_of_unaccessed (laneStoreData_unaccessed ..)).1.deliver rd _ q, ?_, fun y => ?_, get, b⟩
    · rw [laneStoreData_alone]
      rfl
    · change (State.laneStoreData ..).dmem.get y = _
      rw [laneStoreData_dmem, ← length]
      exact Mem.get_write inv.dmem ..
  · rw [laneRecord_outside issues t rd ra imm f result outside zeros] at run
    exact ⟨_, run, delivered_reported ..⟩

end

/-! ### Fields of records (R147, R149) -/

theorem bit_toNat (x : Byte) (i : Nat) : bit x.toNat i = x.getLsbD i := by
  rw [bit, BitVec.getLsbD, Nat.testBit_eq_decide_div_mod_eq, ← Bool.beq_eq_decide_eq]

theorem ofLe_lt (bs : List Byte) : ofLe bs < 256 ^ bs.length := by
  induction bs with
  | nil => exact Nat.one_pos
  | cons b bs ih =>
    rw [ofLe, List.length_cons, pow_succ]
    omega

theorem u32_lt (bs : List Byte) (i : Nat) : u32 bs i < 2 ^ 32 := by
  have lt := ofLe_lt (slice bs i 4)
  rwa [length_slice] at lt

theorem timerOf_inp (bs : List Byte) : (timerOf bs).inp = (byteAt bs 14).getLsbD 0 := bit_toNat ..

theorem timerOf_run (bs : List Byte) : (timerOf bs).run = (byteAt bs 14).getLsbD 2 := bit_toNat ..

theorem b2n_eq_toNat (b : Bool) : b2n b = b.toNat := by cases b <;> rfl

theorem timerBytes_eq (x : TimerRec) : timerBytes x = toLe 4 x.pt ++ toLe 4 x.et ++ toLe 6 x.t0 ++
    [BitVec.ofNat 8 (x.inp.toNat + 2 * x.q.toNat + 4 * x.run.toNat), 0] := by
  rw [timerBytes, List.append_assoc, b2n_eq_toNat, b2n_eq_toNat, b2n_eq_toNat]
  rfl

/-! ### What each timer does (R148) -/

theorem since_self (now : Nat) : since now now = 0 := by
  unfold since
  omega

/-- The time since T0 is what brings T0 to the present, modulo 2⁴⁸. -/
theorem since_eq {now t0 d : Nat} (elapsed : (d + t0) % 2 ^ 48 = now) (lt : d < 2 ^ 48) : since now t0 = d := by
  unfold since
  omega

section
variable {now d : Nat} {x : TimerRec}

theorem tonStep_timing (inp : x.inp = true) (elapsed : since now x.t0 = d) :
    tonStep now true x = { x with et := min d x.pt, q := decide (x.pt ≤ d) } := by
  simp [tonStep, inp, elapsed]

theorem tonStep_start (inp : x.inp = false) :
    tonStep now true x = { x with et := 0, t0 := now, q := decide (x.pt = 0) } := by
  simp [tonStep, inp, since_self]

/-- TOF and TP while they run: ET follows the time until it reaches PT, and then they stop. -/
theorem tofStep_timing (inp : x.inp = false) (run : x.run = true) (elapsed : since now x.t0 = d) :
    tofStep now false x = { x with et := min d x.pt, q := decide (d < x.pt), run := decide (d < x.pt) } := by
  simp [tofStep, inp, run, elapsed]

theorem tofStep_start (inp : x.inp = true) :
    tofStep now false x = { x with et := 0, t0 := now, q := decide (0 < x.pt), run := decide (0 < x.pt) } := by
  simp [tofStep, inp, since_self]

theorem tofStep_idle (inp : x.inp = false) (run : x.run = false) : tofStep now false x = { x with q := false, run := false } := by
  simp [tofStep, inp, run]

theorem tpStep_timing (i : Bool) (run : x.run = true) (elapsed : since now x.t0 = d) :
    tpStep now i x = { x with et := min d x.pt, q := decide (d < x.pt), run := decide (d < x.pt) } := by
  simp [tpStep, run, elapsed]

theorem tpStep_start (inp : x.inp = false) (run : x.run = false) :
    tpStep now true x = { x with et := 0, t0 := now, q := decide (0 < x.pt), run := decide (0 < x.pt) } := by
  simp [tpStep, inp, run, since_self]

theorem tpStep_over (inp : x.inp = true) (run : x.run = false) : tpStep now true x = { x with q := false, run := false } := by
  simp [tpStep, inp, run]

theorem tpStep_idle (run : x.run = false) : tpStep now false x = { x with et := 0, q := false, run := false } := by
  simp [tpStep, run]

theorem taccStep_timing (inp : x.inp = true) (elapsed : since now x.t0 = d) :
    taccStep now true x = { x with et := min (x.et + d) x.pt, t0 := now, q := decide (x.pt ≤ x.et + d) } := by
  simp [taccStep, inp, elapsed]

theorem taccStep_start (inp : x.inp = false) : taccStep now true x = { x with t0 := now, q := decide (x.pt ≤ x.et) } := by
  simp [taccStep, inp]

end

/-- An instruction on a timer record: it leaves PT, the given ET, T0, Q and RUN and the room's B as INP, and delivers ET and Q. -/
def TimerStep (s : State) (t : Nat) (r : RoomId) (rd ra : Reg) (imm : BitVec 16) (i : Instr) (old : List Byte) (et t0 : Nat) (q run : Bool) :
    Prop :=
  RecordStep s t r rd ra imm i old (toLe 4 (u32 old 0) ++ toLe 4 et ++ toLe 6 t0 ++
    [BitVec.ofNat 8 ((s.operands t r).b.toNat + 2 * q.toNat + 4 * run.toNat), 0]) et q

theorem timer_step {s : State} (inv : s.Inv) {r : RoomId} (issues : s.canIssue r = true) {t : Nat} {rd ra : Reg} {imm : BitVec 16}
    {i : Instr} {step : Nat → Bool → TimerRec → TimerRec}
    (exe : exec i s = .next (s.laneRecord t r rd ra imm fun v x => timerOut v.b (step v.logical v.b (timerOf x))))
    {old : List Byte} {b : Bool} (input : (s.operands t r).b = b) {et t0 : Nat} {q run : Bool}
    (steps : step (s.operands t r).logical b (timerOf old) = { timerOf old with et := et, t0 := t0, q := q, run := run }) :
    TimerStep s t r rd ra imm i old et t0 q run := by
  refine laneRecord_step inv issues exe ?_ (by simp)
  rw [input, steps, timerOut, timerBytes_eq]
  rfl

/-! ### Counters (R149, R150) -/

theorem sgn_eq_toInt (n : Nat) : sgn 32 n = (BitVec.ofNat 32 n).toInt := by
  rw [BitVec.toInt_eq_toNat_cond, BitVec.toNat_ofNat, sgn]
  split_ifs <;> omega

theorem unsgn_toInt (w : Word) : unsgn 32 w.toInt = w.toNat := by
  have lt := w.isLt
  rw [unsgn, BitVec.toInt_eq_toNat_cond]
  split_ifs <;> omega

/-- A counter's value goes up by one, but not beyond 2³¹ − 1. -/
theorem countUp_eq (c : Word) : (if c.toInt = 2 ^ 31 - 1 then c.toInt else c.toInt + 1) = (if c ≠ 0x7FFFFFFF then c + 1 else c).toInt := by
  have top : c.toInt = 2 ^ 31 - 1 ↔ c = 0x7FFFFFFF := BitVec.toInt_inj (y := 0x7FFFFFFF)
  have one : (1 : Word).toInt = 1 := rfl
  have above := BitVec.toInt_lt (x := c)
  have below := BitVec.le_toInt c
  rw [ite_not, apply_ite BitVec.toInt]
  refine ite_congr (propext top) (fun _ => rfl) fun rises => ?_
  rw [← top] at rises
  rw [BitVec.toInt_add_of_not_saddOverflow, one]
  simp only [BitVec.saddOverflow, one, Bool.or_eq_true, decide_eq_true_iff]
  omega

/-- A counter's value goes down by one, but not below −2³¹. -/
theorem countDown_eq (c : Word) : (if c.toInt = -(2 ^ 31) then c.toInt else c.toInt - 1) = (if c ≠ 0x80000000 then c - 1 else c).toInt := by
  have bottom : c.toInt = -(2 ^ 31) ↔ c = 0x80000000 := BitVec.toInt_inj (y := 0x80000000)
  have one : (1 : Word).toInt = 1 := rfl
  have above := BitVec.toInt_lt (x := c)
  have below := BitVec.le_toInt c
  rw [ite_not, apply_ite BitVec.toInt]
  refine ite_congr (propext bottom) (fun _ => rfl) fun falls => ?_
  rw [← bottom] at falls
  rw [BitVec.toInt_sub_of_not_ssubOverflow, one]
  simp only [BitVec.ssubOverflow, one, Bool.or_eq_true, decide_eq_true_iff]
  omega

/-- An instruction on a counter record: it leaves PV, the given CV and the room's B as INP, and delivers CV and Q. -/
def CounterStep (s : State) (t : Nat) (r : RoomId) (rd ra : Reg) (imm : BitVec 16) (i : Instr) (old : List Byte) (pv cv : Word) (q : Bool) :
    Prop :=
  RecordStep s t r rd ra imm i old
    (toLe 4 pv.toNat ++ toLe 4 cv.toNat ++ [BitVec.ofNat 8 (s.operands t r).b.toNat, 0, 0, 0, 0, 0, 0, 0]) cv.toNat q

/-- A counter counts on a rising edge of B alone. -/
theorem counter_step {s : State} (inv : s.Inv) {r : RoomId} (issues : s.canIssue r = true) {t : Nat} {rd ra : Reg} {imm : BitVec 16}
    {i : Instr} (step : Int → Int) (out : Int → Int → Bool)
    (run : exec i s = .next (s.laneRecord t r rd ra imm fun v x => counterStep v.b x step out))
    {old : List Byte} {pv cv : Word} (preset : pv = BitVec.ofNat 32 (u32 old 0)) (value : cv = BitVec.ofNat 32 (u32 old 4))
    {count : Word} (counts : step cv.toInt = count.toInt) {w : Word}
    (result : w = if (s.operands t r).b = true ∧ (byteAt old 8).getLsbD 0 = false then count else cv) :
    CounterStep s t r rd ra imm i old pv w (out w.toInt pv.toInt) := by
  have kept : pv.toNat = u32 old 0 := by rw [preset, BitVec.toNat_ofNat, Nat.mod_eq_of_lt (u32_lt old 0)]
  have rising : ((s.operands t r).b && !bit (u8 old 8) 0) = true ↔ (s.operands t r).b = true ∧ (byteAt old 8).getLsbD 0 = false := by
    rw [u8, bit_toNat, Bool.and_eq_true, Bool.not_eq_true']
  have counted : (if (s.operands t r).b && !bit (u8 old 8) 0 then step cv.toInt else cv.toInt) = w.toInt := by
    rw [result, if_congr rising rfl rfl, counts, apply_ite BitVec.toInt]
  refine laneRecord_step inv issues run ?_ (by simp)
  rw [counterStep, sgn_eq_toInt, sgn_eq_toInt, ← preset, ← value, counted, unsgn_toInt, ← kept, b2n_eq_toNat, List.append_assoc]
  rfl

theorem timersAndCounters : Stated.TimersAndCounters := by
  intro s t r rd ra imm inv issues v a now record
  refine ⟨?timers, ?counters⟩
  case timers =>
    rintro old _ _ _ d _ _ rfl rfl rfl elapsed lt rfl rfl new out
    have elapses : since v.logical (timerOf old).t0 = d := since_eq elapsed lt
    have out_of_step : ∀ {i et t0 q run}, TimerStep s t r rd ra imm i old et t0 q run → out i et t0 q run := id
    have steps {i : Instr} {b : Bool} {step : Nat → Bool → TimerRec → TimerRec} {et t0 : Nat} {q run : Bool} exe input result :
        out i et t0 q run := out_of_step (timer_step (step := step) (b := b) inv issues exe input result)
    rw [← timerOf_inp, ← timerOf_run]
    exact ⟨fun b inp => steps rfl b (tonStep_timing inp elapses), fun b inp => steps rfl b (tonStep_start inp), fun b => steps rfl b rfl,
      fun b => steps rfl b rfl, fun b inp => steps rfl b (tofStep_start inp),
      fun b inp run => steps rfl b (tofStep_timing inp run elapses), fun b inp run => steps rfl b (tofStep_idle inp run),
      fun run => steps rfl rfl (tpStep_timing _ run elapses), fun run b inp => steps rfl b (tpStep_start inp run),
      fun run b inp => steps rfl b (tpStep_over inp run), fun run b => steps rfl b (tpStep_idle run),
      fun b inp => steps rfl b (taccStep_timing inp elapses), fun b inp => steps rfl b (taccStep_start inp), fun b => steps rfl b rfl⟩
  case counters =>
    intro old pv cv preset value edge out
    have steps : ∀ {i w q}, CounterStep s t r rd ra imm i old pv w q → out i w q := id
    refine ⟨fun w result => ?_, fun w result => ?_⟩
    · exact steps (counter_step inv issues (fun c => if c = 2 ^ 31 - 1 then c else c + 1) (fun c p => decide (p ≤ c)) rfl preset value
        (countUp_eq cv) (result.trans (ite_and ..)))
    · exact steps (counter_step inv issues (fun c => if c = -(2 ^ 31) then c else c - 1) (fun c _ => decide (c ≤ 0)) rfl preset value
        (countDown_eq cv) (result.trans (ite_and ..)))

/-- Settles O8: EDGE by the channel of its address, a timer by its step on the record, a counter by its count. -/
theorem edgesTimersCounters : Obligations.EdgesTimersCounters := ⟨edgeCounts, timersAndCounters⟩

end Sys2Proof.Machine
end

section
/-! PROOFS. Driver commands that begin (R346 to R350): what refuses one, what takes one, and its completion in the same step. -/

namespace Sys2Proof.Machine

/-! ### Checks (R348) -/

theorem firstFail_eq_find? (ks : List Check) : firstFail ks = (ks.find? Prod.fst).map Prod.snd := by
  induction ks with
  | nil => rfl
  | cons k ks ih => cases h : k.1 <;> simp [firstFail, h, ih]

/-- Without a power failure under way its status is never the answer (R50). -/
theorem firstFail_withPower_false (ks : List Check) : firstFail (withPower false ks) = firstFail ks := by
  rw [withPower, firstFail_eq_find?, firstFail_eq_find?, List.find?_append, List.find?_cons_of_neg Bool.false_ne_true, ← List.find?_append,
    List.takeWhile_append_dropWhile]

theorem firstFail_of_passes {ks : List Check} (h : Passes ks) : firstFail ks = none := by
  rw [firstFail_eq_find?, List.find?_eq_none.mpr fun k mem => by simp [h k mem]]
  rfl

/-! ### A command taken (R343, R346) -/

@[simp] theorem taken_inn (s : State) (t : Nat) (c : RingId) (e : CmdEntry) (op : Nat) : (s.taken t c e op).inn = s.inn := rfl
@[simp] theorem taken_app (s : State) (t : Nat) (c : RingId) (e : CmdEntry) (op : Nat) : (s.taken t c e op).app = s.app := rfl
@[simp] theorem taken_edits (s : State) (t : Nat) (c : RingId) (e : CmdEntry) (op : Nat) : (s.taken t c e op).edits = s.edits := rfl
@[simp] theorem taken_pwr (s : State) (t : Nat) (c : RingId) (e : CmdEntry) (op : Nat) : (s.taken t c e op).pwr = s.pwr := rfl

theorem rings_of_mayBegin {s : State} {c : RingId} (begins : s.mayBegin c = true) :
    s.host.active = true ∧ s.host.busMaster = true ∧ s.host.heldC[s.host.cqOf c] = [] := by
  simp only [State.mayBegin, Bool.and_eq_true, List.isEmpty_iff] at begins
  obtain ⟨⟨⟨⟨⟨⟨⟨-, active⟩, master⟩, -⟩, -⟩, -⟩, free⟩, -⟩ := begins
  exact ⟨active, master, free⟩

section
variable {s : State} {t : Nat} {c : RingId} {op : Nat} {e : CmdEntry} {checks : State → List Check} {act : CmdRef → State → State}
  (begins : s.mayBegin c = true) (power : s.pwr.pfwarn = false)
include begins power

/-- A command that begins is taken; then the first check that fails decides its status, or it has its effect (R346, R348). -/
theorem command_taken : s.command t c op e checks act = (firstFail (checks (s.taken t c e op))).elim (act (s.refOf c e op) (s.taken t c e op))
    (fun st => (s.taken t c e op).complete (s.refOf c e op) st []) := by
  have judged : firstFail (withPower (s.taken t c e op).pwr.pfwarn (checks (s.taken t c e op))) = firstFail (checks (s.taken t c e op)) := by
    rw [taken_pwr, power, firstFail_withPower_false]
  rw [← judged]
  unfold State.command
  dsimp only
  rw [if_pos (by exact begins)]
  change (match firstFail (withPower (s.taken t c e op).pwr.pfwarn (checks (s.taken t c e op))) with | some st => _ | none => _) = _
  cases firstFail (withPower (s.taken t c e op).pwr.pfwarn (checks (s.taken t c e op))) <;> rfl

theorem command_refused {st : BitVec 16} (fails : firstFail (checks (s.taken t c e op)) = some st) :
    s.command t c op e checks act = (s.taken t c e op).complete (s.refOf c e op) st [] := by
  rw [command_taken begins power, fails, Option.elim_some]

theorem command_passes (passes : Passes (checks (s.taken t c e op))) :
    s.command t c op e checks act = act (s.refOf c e op) (s.taken t c e op) := by
  rw [command_taken begins power, firstFail_of_passes passes, Option.elim_none]

end

/-! ### Its completion (R349, R350) -/

/-- A completion changes the rings' figures, but not how many commands have been taken, what has gone out and the marks of bits set. -/
theorem complete_writes (s : State) (ref : CmdRef) (st : BitVec 16) (res : List Byte) :
    s.complete ref st res =
      { s with host := (s.complete ref st res).host, out := (s.complete ref st res).out, marks := (s.complete ref st res).marks } ∧
      (s.complete ref st res).host.cmdHead = s.host.cmdHead := by
  unfold State.complete State.writeCompletion
  dsimp only
  split
  · split
    · split <;> exact ⟨rfl, rfl⟩
    · split <;> exact ⟨rfl, rfl⟩
  · exact ⟨rfl, rfl⟩

theorem complete_alone (s : State) (ref : CmdRef) (st : BitVec 16) (res : List Byte) : s.complete ref st res =
    { s with host := (s.complete ref st res).host, out := (s.complete ref st res).out, marks := (s.complete ref st res).marks } :=
  (complete_writes s ref st res).left

theorem complete_cmdHead (s : State) (ref : CmdRef) (st : BitVec 16) (res : List Byte) :
    (s.complete ref st res).host.cmdHead = s.host.cmdHead := (complete_writes s ref st res).right

/-- A completion written after something else has gone out has been written since before that. -/
theorem CompletionWritten.since {s s₁ s' : State} {q : RingId} {bs : List Byte} (h : CompletionWritten s₁ s' q bs)
    (rings : s₁.host.rings = s.host.rings) (tail : s₁.host.cqTail = s.host.cqTail) (out : s.out <+: s₁.out) : CompletionWritten s s' q bs := by
  obtain ⟨sent, out⟩ := out
  obtain ⟨length, written⟩ := h
  rw [rings, tail, ← out, List.length_append, ← List.drop_drop] at written
  exact ⟨length, written.trans (List.drop_suffix ..).isInfix⟩

/-- A command taken that completes when nothing has happened to the rings since is answered. -/
theorem complete_answers {s s₁ : State} {t : Nat} {c : RingId} {e : CmdEntry} {op : Nat} (can : s.CanAnswer c)
    (host : s₁.host = (s.taken t c e op).host) (out : s₁.out = (s.taken t c e op).out) (st : BitVec 16) (res : List Byte) :
    Answers s (s₁.complete (s.refOf c e op) st res) c e st res := by
  obtain ⟨begins, -, room⟩ := can
  obtain ⟨active, master, free⟩ := rings_of_mayBegin begins
  have finishes := complete_finishes s₁ (s.refOf c e op) st res
  simp only [Finishes, host] at finishes
  obtain ⟨done, completes⟩ := finishes active (Vector.getElem_set_self ..)
  obtain ⟨bs, written, fields⟩ := completes master room free
  refine ⟨done, ?_, bs, written.since ?_ ?_ ?_, fields⟩
  · rw [complete_cmdHead, host]
    exact Vector.getElem_set_self ..
  · rw [host]; rfl
  · rw [host]; rfl
  · rw [out]
    exact ⟨_, rfl⟩

theorem taken_awaits {s s₁ : State} {t : Nat} {c : RingId} {e : CmdEntry} {op : Nat} (host : s₁.host = (s.taken t c e op).host) :
    Awaits s s₁ c e op := by
  rw [Awaits, host]
  exact ⟨Vector.getElem_set_self .., Vector.getElem_set_self ..⟩

/-- A command that has completed is answered, and its completion has changed the rings' figures, what has gone out and the marks only. -/
theorem exec_answers {s s₁ : State} {t : Nat} {c : RingId} {e : CmdEntry} {op : Nat} {i : Instr} {st : BitVec 16} {res : List Byte}
    (can : s.CanAnswer c) (run : exec i s = .next (s₁.complete (s.refOf c e op) st res)) (host : s₁.host = (s.taken t c e op).host)
    (out : s₁.out = (s.taken t c e op).out) :
    ∃ s', exec i s = .next s' ∧ Answers s s' c e st res ∧ s' = { s₁ with host := s'.host, out := s'.out, marks := s'.marks } :=
  ⟨_, run, complete_answers can host out st res, complete_alone ..⟩

/-- A command refused is answered with its status, and but for time nothing else changes. -/
theorem exec_refused {s : State} {t : Nat} {c : RingId} {op : Nat} {e : CmdEntry} {checks : State → List Check} {act : CmdRef → State → State}
    {i : Instr} (can : s.CanAnswer c) (run : exec i s = .next (s.command t c op e checks act)) {st : BitVec 16}
    (fails : firstFail (checks (s.taken t c e op)) = some st) :
    ∃ s', exec i s = .next s' ∧ Answers s s' c e st [] ∧ s' = { s.at t with host := s'.host, out := s'.out, marks := s'.marks } := by
  have ⟨begins, power, _⟩ := can
  rw [command_refused begins power fails] at run
  obtain ⟨s', run', answers, same⟩ := exec_answers can run rfl rfl
  exact ⟨s', run', answers, same⟩

end Sys2Proof.Machine
end

section
/-! PROOFS. Loading and admitting waybills, staging and discarding swaps: the requests (R154, R155, R220, R354). -/

namespace Sys2Proof.Machine

/-! ### The loaded waybill (R154) -/

theorem byteAt_slice (bs : List Byte) {i j n : Nat} (h : j < n) : byteAt (slice bs i n) j = byteAt bs (i + j) := by
  induction n generalizing i j with
  | zero => omega
  | succ n ih =>
    cases j with
    | zero => rfl
    | succ j => exact (ih (i := i + 1) (by omega)).trans (congrArg (byteAt bs) (by omega))

theorem slice_slice (bs : List Byte) {i j k n : Nat} (h : j + k ≤ n) : slice (slice bs i n) j k = slice bs (i + j) k := by
  induction k generalizing j with
  | zero => rfl
  | succ k ih => rw [slice, slice, byteAt_slice bs (by omega), ih (by omega), Nat.add_assoc]

/-- The free half of the code store is not the one that runs (R154). -/
theorem one_sub_ne_self (h : Fin 2) : 1 - h ≠ h := by decide +revert

theorem loadWaybill_code (s : State) (bs : List Byte) :
    (s.loadWaybill bs).app.code = upd s.app.code (1 - s.app.half) (fun _ => codeWords bs (sections bs)) := rfl

theorem loadWaybill_code_kept (s : State) (bs : List Byte) : (s.loadWaybill bs).app.code[s.app.half] = s.app.code[s.app.half] := by
  rw [loadWaybill_code]
  exact getElem_upd_other (one_sub_ne_self s.app.half)

theorem loadWaybill_code_filled (s : State) (bs : List Byte) :
    (s.loadWaybill bs).app.code[1 - s.app.half] = codeWords bs (sections bs) := by
  rw [loadWaybill_code]
  exact getElem_upd_self ..

/-! ### The requests -/

@[simp] theorem taken_applies (s : State) (t : Nat) (c : RingId) (e : CmdEntry) (op : Nat) : (s.taken t c e op).applies = s.applies := rfl
@[simp] theorem taken_batchOfChanged (s : State) (t : Nat) (c : RingId) (e : CmdEntry) (op : Nat) :
    (s.taken t c e op).batchOfChanged = s.batchOfChanged := rfl

/-- An examination begun awaits its end, and its command is the one in progress. -/
theorem beginExam_awaits (s : State) (t : Nat) (c : RingId) (e : CmdEntry) (op : Nat) (stage : Bool) :
    let s' := (s.taken t c e op).beginExam (some (s.refOf c e op)) stage
    Awaits s s' c e op ∧ s'.inn = { s.inn with exam := some { ref := s'.host.inProg[c], stage := stage } } := by
  intro s'
  have awaits : Awaits s s' c e op := taken_awaits (t := t) rfl
  obtain ⟨inProg, head⟩ := awaits
  refine ⟨⟨inProg, head⟩, ?_⟩
  rw [inProg]
  rfl

section
variable {s : State} {t : Nat} {c : RingId} {e : CmdEntry} (can : s.CanAnswer c)
include can

/-- A load that passes its checks: the memory of the innkeeper and the free half of the code store are filled, nothing else (R154, R354). -/
theorem exec_waybillLoad {bs : List Byte} (passes : Passes (loadChecks e (some bs) (s.taken t c e 0x10))) :
    exec (.waybillLoad t c e (some bs)) s = .next (((s.taken t c e 0x10).loadWaybill (slice bs 0 (e.w 4))).complete (s.refOf c e 0x10) 0
      (toLe 4 (slice bs 0 (e.w 4)).length ++ toLe 4 (u32 (slice bs 0 (e.w 4)) 16))) := by
  obtain ⟨begins, power, -⟩ := can
  exact congrArg Host.Outcome.next (command_passes begins power passes)

theorem waybillLoad_loads {bs : List Byte} (passes : Passes (loadChecks e (some bs) (s.taken t c e 0x10))) (long : 256 ≤ e.w 4) :
    ∃ s', exec (.waybillLoad t c e (some bs)) s = .next s' ∧
      Answers s s' c e 0 (toLe 4 (e.w 4) ++ toLe 4 (u32 bs 16)) ∧ s'.inn = { s.inn with loaded := some (slice bs 0 (e.w 4)) } ∧
      { s'.app with code := s.app.code } = s.app ∧ s'.app.code[s.app.half] = s.app.code[s.app.half] ∧
      s'.app.code[1 - s.app.half] = codeWords (slice bs 0 (e.w 4)) (sections (slice bs 0 (e.w 4))) ∧ LanesKept s s' ∧ s'.nv = s.nv ∧
      s'.edits = s.edits := by
  have crc : u32 (slice bs 0 (e.w 4)) 16 = u32 bs 16 := congrArg ofLe ((slice_slice bs (by omega)).trans (by rw [Nat.zero_add]))
  have run := exec_waybillLoad can passes
  rw [length_slice, crc] at run
  obtain ⟨s', run, answers, same⟩ := exec_answers (t := t) can run rfl rfl
  refine ⟨s', run, answers, ?_⟩
  rw [same]
  exact ⟨rfl, rfl, loadWaybill_code_kept s _, loadWaybill_code_filled s _, ⟨rfl, rfl, rfl⟩, rfl, rfl⟩

/-- An admission that may begin awaits its examination (R155). -/
theorem exec_admitWaybill (form : e.formOk 0 [] = true) (stopped : s.app.running = false) (unscheduled : s.app.start = none)
    (free : s.inn.exam = none) :
    exec (.admitWaybill t c e) s = .next ((s.taken t c e 0x11).beginExam (some (s.refOf c e 0x11)) false) := by
  obtain ⟨begins, power, -⟩ := can
  refine congrArg Host.Outcome.next (command_passes begins power ?_)
  simp [Passes, form, stopped, unscheduled, free]

/-- A staging that may begin awaits its examination (R220). -/
theorem exec_swapStage (form : e.formOk 1 [] = true) (free : s.inn.exam = none) (applies : s.applies = true)
    (unstaged : s.edits.swap = .none) (unchanged : s.batchOfChanged = false) :
    exec (.swapStage t c e) s = .next ((s.taken t c e 0x21).beginExam (some (s.refOf c e 0x21)) true) := by
  obtain ⟨begins, power, -⟩ := can
  refine congrArg Host.Outcome.next (command_passes begins power ?_)
  simp [Passes, form, free, applies, unstaged, unchanged]

/-- A staged swap is discarded (R220). -/
theorem exec_swapDiscard (form : e.formOk 1 [] = true) (staged : s.edits.swap = .staged) :
    exec (.swapDiscard t c e) s = .next (({ s.taken t c e 0x21 with
      edits := { s.edits with swap := .none, new := none } } : State).complete (s.refOf c e 0x21) 0 []) := by
  obtain ⟨begins, power, -⟩ := can
  refine congrArg Host.Outcome.next (command_passes begins power ?_)
  simp [Passes, form, staged]

end

/-- Settles O31: a refusal is the first check that fails, and changes nothing; a request that passes either completes in the same step or
awaits its examination. -/
theorem waybillRequests : Obligations.WaybillRequests := by
  intro s t c e bs can
  refine ⟨fun form => ⟨fun length => ?length, fun long short aligned free unstaged => ⟨?unread, fun small => ?loads⟩,
    fun long short aligned free swap => ?swap⟩,
    fun form => ⟨fun running => ?running, fun stopped unscheduled x exam => ?examining, fun stopped unscheduled free => ?admits⟩,
    fun form => ⟨fun free applies unstaged unchanged => ?stages, fun free applies => ?idle, fun staged => ?discards, fun pending => ?pending,
      fun unstaged => ?unstaged⟩⟩
  case length =>
    obtain ⟨s', run, answers, same⟩ := exec_refused (i := .waybillLoad t c e (some bs)) (st := 0x0103) can rfl
      (by simp [loadChecks, firstFail, form, length])
    exact ⟨s', run, answers, (congrArg State.inn same :)⟩
  case unread =>
    obtain ⟨s', run, answers, same⟩ := exec_refused (i := .waybillLoad t c e none) (st := 0x0105) can rfl
      (by simp [loadChecks, firstFail, form, long, short, aligned, free, unstaged])
    exact ⟨s', run, answers, (congrArg State.inn same :)⟩
  case loads =>
    refine waybillLoad_loads can ?_ long
    simp [Passes, loadChecks, form, long, short, aligned, free, unstaged, small]
  case swap =>
    obtain ⟨s', run, answers, same⟩ := exec_refused (i := .waybillLoad t c e (some bs)) (st := 0x0222) can rfl
      (by simp [loadChecks, firstFail, form, long, short, aligned, free, swap])
    exact ⟨s', run, answers, (congrArg State.inn same :), (congrArg State.app same :)⟩
  case running =>
    obtain ⟨s', run, answers, same⟩ := exec_refused (i := .admitWaybill t c e) (st := 0x0211) can rfl
      (by simp [firstFail, form, running])
    exact ⟨s', run, answers, (congrArg State.inn same :)⟩
  case examining =>
    obtain ⟨s', run, answers, same⟩ := exec_refused (i := .admitWaybill t c e) (st := 0x0210) can rfl
      (by simp [firstFail, form, stopped, unscheduled, exam])
    exact ⟨s', run, answers, (congrArg State.inn same :)⟩
  case admits =>
    obtain ⟨awaits, inn⟩ := beginExam_awaits s t c e 0x11 false
    exact ⟨_, exec_admitWaybill can form stopped unscheduled free, awaits, inn, rfl, rfl, rfl, rfl⟩
  case stages =>
    obtain ⟨awaits, inn⟩ := beginExam_awaits s t c e 0x21 true
    exact ⟨_, exec_swapStage can form free applies unstaged unchanged, awaits, inn, rfl, rfl, rfl, rfl, rfl⟩
  case idle =>
    obtain ⟨s', run, answers, same⟩ := exec_refused (i := .swapStage t c e) (st := 0x0220) can rfl
      (by simp [firstFail, form, free, applies])
    exact ⟨s', run, answers, (congrArg State.inn same :)⟩
  case discards =>
    obtain ⟨s', run, answers, same⟩ := exec_answers (t := t) can (exec_swapDiscard can form staged) rfl rfl
    exact ⟨s', run, answers, (congrArg State.edits same :), (congrArg State.app same :), (congrArg State.rooms same :),
      (congrArg State.dmem same :), (congrArg State.img same :)⟩
  case pending =>
    obtain ⟨s', run, answers, same⟩ := exec_refused (i := .swapDiscard t c e) (st := 0x0227) can rfl
      (by rcases pending with h | h <;> simp [firstFail, form, h])
    exact ⟨s', run, answers, (congrArg State.edits same :)⟩
  case unstaged =>
    obtain ⟨s', run, answers, same⟩ := exec_refused (i := .swapDiscard t c e) (st := 0x0223) can rfl
      (by rcases unstaged with h | h <;> simp [firstFail, form, h])
    exact ⟨s', run, answers, (congrArg State.edits same :)⟩

end Sys2Proof.Machine
end

section
/-! PROOFS. What reports, the drive of the field and a role change leave alone, with the rings as a completion finds them (R349, R351). -/

namespace Sys2Proof.Machine

/-! ### What completions depend on -/

/-- The host interface without vectors raised. -/
def HostIf.unraised (h : HostIf) : HostIf := { h with msixPend := 0, evtPend := 0, lateVec6 := false, sentNow := 0 }

/-- Vectors raised and messages sent in between do not change how a command ends. -/
theorem Finishes.since {s s₁ s' : State} {ref : CmdRef} {st : BitVec 16} {res : List Byte} (h : Finishes s₁ s' ref st res)
    (host : s₁.host.unraised = s.host.unraised) (out : s.out <+: s₁.out) : Finishes s s' ref st res := by
  have active : s₁.host.active = s.host.active := (congrArg HostIf.active host :)
  have master : s₁.host.busMaster = s.host.busMaster := (congrArg HostIf.busMaster host :)
  have inProg : s₁.host.inProg = s.host.inProg := (congrArg HostIf.inProg host :)
  have ring : s₁.host.cqOf ref.ring = s.host.cqOf ref.ring := (congrArg (HostIf.cqOf · ref.ring) host :)
  have room (q : RingId) : s₁.host.cqRoom q = s.host.cqRoom q := (congrArg (HostIf.cqRoom · q) host :)
  have held : s₁.host.heldC = s.host.heldC := (congrArg HostIf.heldC host :)
  simp only [Finishes, active, master, inProg, ring, room, held] at h
  intro on inProg
  obtain ⟨done, completes⟩ := h on inProg
  refine ⟨done, fun master room free => ?_⟩
  obtain ⟨bs, written, fields⟩ := completes master room free
  exact ⟨bs, written.since (congrArg HostIf.rings host :) (congrArg HostIf.cqTail host :) out, fields⟩

theorem completeOpt_alone (s : State) (ref : Option CmdRef) (st : BitVec 16) (res : List Byte) : s.completeOpt ref st res =
    { s with
      host := (s.completeOpt ref st res).host, out := (s.completeOpt ref st res).out, marks := (s.completeOpt ref st res).marks } := by
  cases ref with
  | none => rfl
  | some r => exact complete_alone s r st res

/-! ### What faces the field and the host -/

/-- The state without field, NV store, reports and vectors raised. -/
def State.inward (s : State) : State :=
  { s with
    host := s.host.unraised
    nv := Nv.init
    gb := Guest.init
    marks := []
    chans := Vector.replicate 192 Chan.init
    groups := Vector.replicate 12 Group.init
    cans := Vector.replicate 4 Can.init }

theorem pair_of_inward {s s' : State} (h : s'.inward = s.inward) : s'.pair = s.pair := (congrArg State.pair h :)

/-- Besides field, NV store and reports only the pair has changed, and what goes out follows what has gone out. -/
def OnlyOutward (s s' : State) : Prop := ∃ sent, s'.inward = { s.inward with out := s.out ++ sent, pair := s'.pair }

theorem OnlyOutward.of_inward {s s' : State} (h : s'.inward = s.inward) : OnlyOutward s s' := by
  refine ⟨[], ?_⟩
  rw [h, pair_of_inward h, List.append_nil]
  rfl

theorem OnlyOutward.trans {s s₁ s' : State} (h : OnlyOutward s s₁) (h' : OnlyOutward s₁ s') : OnlyOutward s s' := by
  obtain ⟨sent, eq⟩ := h
  obtain ⟨sent', eq'⟩ := h'
  have out : s₁.out = s.out ++ sent := (congrArg State.out eq :)
  refine ⟨sent ++ sent', ?_⟩
  rw [eq', eq, out, List.append_assoc]

theorem OnlyOutward.rooms {s s' : State} (h : OnlyOutward s s') : s'.rooms = s.rooms := let ⟨_, eq⟩ := h; (congrArg State.rooms eq :)
theorem OnlyOutward.dmem {s s' : State} (h : OnlyOutward s s') : s'.dmem = s.dmem := let ⟨_, eq⟩ := h; (congrArg State.dmem eq :)
theorem OnlyOutward.img {s s' : State} (h : OnlyOutward s s') : s'.img = s.img := let ⟨_, eq⟩ := h; (congrArg State.img eq :)
theorem OnlyOutward.app {s s' : State} (h : OnlyOutward s s') : s'.app = s.app := let ⟨_, eq⟩ := h; (congrArg State.app eq :)
theorem OnlyOutward.inn {s s' : State} (h : OnlyOutward s s') : s'.inn = s.inn := let ⟨_, eq⟩ := h; (congrArg State.inn eq :)
theorem OnlyOutward.edits {s s' : State} (h : OnlyOutward s s') : s'.edits = s.edits := let ⟨_, eq⟩ := h; (congrArg State.edits eq :)
theorem OnlyOutward.unraised {s s' : State} (h : OnlyOutward s s') : s'.host.unraised = s.host.unraised :=
  let ⟨_, eq⟩ := h; (congrArg State.host eq :)
theorem OnlyOutward.out {s s' : State} (h : OnlyOutward s s') : s.out <+: s'.out :=
  let ⟨sent, eq⟩ := h; ⟨sent, (congrArg State.out eq :).symm⟩

/-! ### Reports and the drive of the field -/

theorem gbEvent_inward (s : State) (typ src : Nat) (sev : BitVec 2) (ws : List Word) : (s.gbEvent typ src sev ws).inward = s.inward := by
  rw [gbEvent_alone]
  rfl

theorem channelEvent_inward (s : State) (typ src : Nat) (sev : BitVec 2) (offs : List Nat) :
    (s.channelEvent typ src sev offs).inward = s.inward := by
  unfold State.channelEvent
  split
  · rw [gbEvent_alone]
    rfl
  · rfl

theorem raiseNow_outward (s : State) (v : Fin 16) : OnlyOutward s (s.raiseNow v) := by
  unfold State.raiseNow State.msix
  split
  · split
    · exact .of_inward rfl
    · split
      · exact .of_inward rfl
      · exact ⟨[.msix v], rfl⟩
  · exact .of_inward rfl

theorem flushLate_inward (s : State) (relief : Bool) : (s.flushLate relief).inward = s.inward :=
  foldl_keeps_key State.inward (fun _ _ => gbEvent_inward ..) s.gb.late _

theorem latchRate_inward (s : State) (n : ChanId) : (s.latchRate n).inward = s.inward := by
  unfold State.latchRate State.latchChan
  dsimp only
  split
  · rfl
  · exact channelEvent_inward ..

theorem driveChan_inward (s : State) (n : ChanId) (commit : Bool) : (s.driveChan n commit).inward = s.inward := by
  rcases driveChan_eq s n commit with eq | eq <;> rw [eq]
  · rfl
  · exact latchRate_inward ..

theorem driveGroup_inward (s : State) (g : GrpId) : (s.driveGroup g).inward = s.inward :=
  foldl_keeps_key State.inward (fun s n => driveChan_inward s n false) (chansOf g) s

theorem driveAll_inward (s : State) : s.driveAll.inward = s.inward := foldl_keeps_key State.inward driveGroup_inward (fins 12) s

/-! ### A configuration loaded into the field (R265, R308) -/

theorem updChan_inward (s : State) (n : ChanId) (f : Chan → Chan) : (s.updChan n f).inward = s.inward := rfl
theorem updGrp_inward (s : State) (g : GrpId) (f : Group → Group) : (s.updGrp g f).inward = s.inward := rfl
theorem updCan_inward (s : State) (k : PortId) (f : Can → Can) : (s.updCan k f).inward = s.inward := rfl

theorem loadGroup_inward (s : State) (c : Conf) (g : GrpId) : (s.loadGroup c g).inward = s.inward := by
  unfold State.loadGroup
  split
  · exact (driveGroup_inward ..).trans
      ((updGrp_inward ..).trans (foldl_keeps_key State.inward (fun _ _ => updChan_inward ..) (chansOf g) s))
  · rfl

theorem canConfigure_inward (s : State) (w : Option Way) (k : PortId) : (s.canConfigure w k).inward = s.inward :=
  (updCan_inward ..).trans (updCan_inward ..)

theorem configureField_inward (s : State) (c : Conf) : (s.configureField c).inward = s.inward := by
  unfold State.configureField
  dsimp only
  rw [foldl_keeps_key State.inward fun s k => canConfigure_inward s (some c.way) k, foldl_keeps_key State.inward fun s g => loadGroup_inward s c g]

/-! ### The pair and a new stored configuration (R382, R385, R404) -/

theorem applyRole_inward (s : State) : s.applyRole.inward = s.inward :=
  (canRefreshAll_key State.inward (fun _ _ _ => rfl) _).trans
    ((driveAll_inward _).trans (supervise_key State.inward (fun _ _ _ => rfl) s s.isRelief))

theorem setRole_outward (s : State) (role : BitVec 2) (reason : BitVec 3) (sev : BitVec 2) : OnlyOutward s (s.setRole role reason sev) := by
  unfold State.setRole
  refine .trans ?_ (.of_inward (applyRole_inward _))
  refine .trans ?_ (.of_inward (gbEvent_inward ..))
  refine .trans ⟨[], ?_⟩ (raiseNow_outward _ 3)
  rw [List.append_nil]
  rfl

theorem sendHello_outward (s : State) : OnlyOutward s s.sendHello := by
  unfold State.sendHello
  split
  · exact ⟨[_], rfl⟩
  · exact .of_inward rfl

/-- A state in which nothing but the pair is new. -/
theorem OnlyOutward.withPair (s : State) (p : Pair) : OnlyOutward s { s with pair := p } := by
  refine ⟨[], ?_⟩
  rw [List.append_nil]
  rfl

theorem storedPair_outward (s : State) (c : Conf) : OnlyOutward s (s.storedPair c) := by
  refine .trans (.withPair s { s.pair with hyper := c.hyper, cfgdiff := s.cfgDiffers }) ?_
  unfold State.storedPair
  dsimp only
  split
  · split
    · exact .withPair ..
    · split
      · exact .withPair ..
      · exact .of_inward rfl
  · split
    · exact (OnlyOutward.withPair ..).trans (.of_inward (flushLate_inward ..))
    · exact ((setRole_outward ..).trans (sendHello_outward _)).trans (.withPair ..)

/-- A single module stays one when the new configuration is for one (R404). -/
theorem storedPair_single {s : State} {c : Conf} (role : s.pair.role = 0) (single : c.way.pair = false) : (s.storedPair c).pair.role = 0 := by
  unfold State.storedPair
  dsimp only
  rw [if_neg (by simp [single]), if_pos role]
  exact (congrArg (fun s => s.pair.role) (flushLate_inward _ false) :).trans role

end Sys2Proof.Machine
end

section
/-! PROOFS. Rooms set up for a configuration (R80, R81), and the end of an examination (R156, R157, R181, R195, R220). -/

namespace Sys2Proof.Machine

/-! ### Rooms set up (R80, R81) -/

/-- A room that was v waits for its first release: registers zero, what is marked of its retained window as it was. -/
structure Room.SetUpAs (v w : Room) : Prop where
  waiting : w.st = .waiting
  zero : ∀ g : Reg, w.get g = 0
  dirty : w.dirty = v.dirty
  jdead : w.jdead = v.jdead

/-- The room of a task is set up, and no other. -/
theorem setUpRoom_assigned (s : State) {c : Conf} {i : Nat} {r : RoomId} (task : i < c.way.tasks.length)
    (room : c.an.rooms[i]? = some r.val) : ∃ f : Room → Room, (∀ v, Room.SetUpAs v (f v)) ∧ s.setUpRoom c i = s.updRoom r f := by
  have task' : c.task i = some c.way.tasks[i] := List.getElem?_eq_getElem task
  have room' : (c.an.rooms[i]?).bind (toFin? 100) = some r := by rw [room]; exact toFin?_val r
  unfold State.setUpRoom
  rw [task', room']
  refine ⟨_, fun v => ?_, rfl⟩
  exact ⟨rfl, fun g => by simp [Room.get, Room.init], rfl, rfl⟩

theorem setUpRoom_cases (s : State) (c : Conf) (i : Nat) : s.setUpRoom c i = s ∨
    ∃ (r : RoomId) (f : Room → Room), r.val ∈ c.an.rooms ∧ (∀ v, Room.SetUpAs v (f v)) ∧ s.setUpRoom c i = s.updRoom r f := by
  by_cases assigned : i < c.way.tasks.length ∧ ∃ r : RoomId, c.an.rooms[i]? = some r.val
  · obtain ⟨task, r, room⟩ := assigned
    obtain ⟨f, waits, eq⟩ := setUpRoom_assigned s task room
    exact .inr ⟨r, f, List.mem_of_getElem? room, waits, eq⟩
  · refine .inl ?_
    unfold State.setUpRoom
    split
    next t r task room =>
      obtain ⟨n, room, bounded⟩ := Option.bind_eq_some_iff.mp room
      obtain ⟨lt, -⟩ := Option.dite_none_right_eq_some.mp bounded
      exact absurd ⟨(List.getElem?_eq_some_iff.mp task).1, ⟨n, lt⟩, room⟩ assigned
    · rfl

/-- What setting up a room writes of any room: nothing, or it waits its release. -/
theorem setUpRoom_room (s : State) (c : Conf) (i : Nat) (q : RoomId) : (s.setUpRoom c i).rooms[q] = s.rooms[q] ∨
    q.val ∈ c.an.rooms ∧ s.rooms[q].SetUpAs (s.setUpRoom c i).rooms[q] := by
  rcases setUpRoom_cases s c i with eq | ⟨r, f, assigned, waits, eq⟩
  · exact .inl (by rw [eq])
  · by_cases same : r = q
    · subst same
      refine .inr ⟨assigned, ?_⟩
      rw [eq, State.updRoom_rooms, getElem_upd_self]
      exact waits _
    · refine .inl ?_
      rw [eq]
      exact getElem_upd_other same

/-- The rooms that a configuration does not assign are UNUSED (R81). -/
def State.unassign (s : State) (c : Conf) : State :=
  { s with rooms := s.rooms.mapFinIdx (fun r v _ => if c.an.rooms.contains r then v else Room.init) }

theorem setUpRooms_eq (s : State) (c : Conf) :
    s.setUpRooms c = (List.range c.way.tasks.length).foldl (fun s i => s.setUpRoom c i) (s.unassign c) := rfl

theorem unassign_room (s : State) (c : Conf) (r : RoomId) :
    (s.unassign c).rooms[r] = if r.val ∈ c.an.rooms then s.rooms[r] else Room.init := by
  simp [State.unassign]

theorem setUpRooms_setUpFor (s : State) (c : Conf) : (s.setUpRooms c).SetUpFor c := by
  rw [setUpRooms_eq]
  refine ⟨fun r unassigned => ?unused, fun r i task room => ?assigned⟩
  case unused =>
    have kept (s : State) (i : Nat) : (s.setUpRoom c i).rooms[r] = s.rooms[r] :=
      (setUpRoom_room s c i r).resolve_right fun h => unassigned h.1
    rw [foldl_keeps_key (fun s : State => s.rooms[r]) kept, unassign_room, if_neg unassigned]
  case assigned =>
    refine foldl_establishes (I := fun _ => True) (P := fun s : State => s.rooms[r].st = .waiting ∧ ∀ g : Reg, s.rooms[r].get g = 0)
      (fun _ _ _ => trivial) (fun s _ => ?_) (fun s b h => ?_) (List.mem_range.mpr task) trivial
    · obtain ⟨f, waits, eq⟩ := setUpRoom_assigned s task room
      rw [eq, State.updRoom_rooms, getElem_upd_self]
      exact ⟨(waits _).waiting, (waits _).zero⟩
    · rcases setUpRoom_room s c b r with same | ⟨-, waits⟩
      · rw [same]
        exact h
      · exact ⟨waits.waiting, waits.zero⟩

/-- Marks of retained windows that no room has, none has once the rooms are set up. -/
theorem setUpRooms_unmarked {s : State} (c : Conf) {r : RoomId} (unmarked : s.rooms[r].dirty = [] ∧ s.rooms[r].jdead = false) :
    (s.setUpRooms c).rooms[r].dirty = [] ∧ (s.setUpRooms c).rooms[r].jdead = false := by
  rw [setUpRooms_eq]
  refine List.foldlRecOn (motive := fun s : State => s.rooms[r].dirty = [] ∧ s.rooms[r].jdead = false) _ _ ?_ fun s h i _ => ?_
  · rw [unassign_room]
    split
    · exact unmarked
    · exact ⟨rfl, rfl⟩
  · rcases setUpRoom_room s c i r with same | ⟨-, waits⟩
    · rw [same]
      exact h
    · obtain ⟨dirty, jdead⟩ := h
      exact ⟨waits.dirty.trans dirty, waits.jdead.trans jdead⟩

theorem setUpRooms_alone (s : State) (c : Conf) : s.setUpRooms c = { s with rooms := (s.setUpRooms c).rooms } := by
  rw [setUpRooms_eq]
  refine List.foldlRecOn (motive := fun s' : State => s' = { s with rooms := s'.rooms }) _ _ rfl fun s' h i _ => ?_
  rcases setUpRoom_cases s' c i with eq | ⟨r, f, -, -, eq⟩
  · rw [eq]
    exact h
  · rw [eq, h]
    rfl

theorem setUpFor_of_rooms {s s' : State} {c : Conf} (h : s.SetUpFor c) (rooms : s'.rooms = s.rooms) : s'.SetUpFor c := by
  rw [State.SetUpFor, rooms]
  exact h

/-! ### A configuration stored (R157, R195, R452) -/

/-- The retained windows that a configuration starts with. -/
def State.keptWindows (s : State) (c : Conf) : List (List Byte) := (List.range c.way.tasks.length).map (s.keptWindow s.app.stored c)

/-- The configuration stands in place of the stored one, its rooms not yet set up. -/
def State.adopted (s : State) (c : Conf) : State :=
  { s with
    dmem := Mem.ofChunks ((s.keptWindows c).mapIdx (fun i w => (c.an.retBase.getD i 0, w)))
    app := { s.app with stored := some c, cur := some c, runFlag := false, half := 1 - s.app.half }
    img := { s.img with canRx := [] }
    rooms := s.rooms.map (fun v => { v with dirty := [], jdead := false }) }

theorem store_eq (s : State) (c : Conf) :
    s.store c = ((((s.adopted c).setUpRooms c).commitConf c (s.keptWindows c) false).configureField c).storedPair c := rfl

theorem commitConf_inward (s : State) (c : Conf) (windows : List (List Byte)) (run : Bool) :
    (s.commitConf c windows run).inward = s.inward := rfl

theorem store_outward (s : State) (c : Conf) : OnlyOutward ((s.adopted c).setUpRooms c) (s.store c) := by
  rw [store_eq]
  exact (OnlyOutward.of_inward ((configureField_inward ..).trans (commitConf_inward ..))).trans (storedPair_outward ..)

/-- What a module holds once a configuration is stored. -/
theorem store_holds (s : State) (c : Conf) : (s.store c).app = (s.adopted c).app ∧ (s.store c).dmem = (s.adopted c).dmem ∧
    (s.store c).img = (s.adopted c).img ∧ (s.store c).inn = s.inn ∧ (s.store c).edits = s.edits ∧
    (s.store c).rooms = ((s.adopted c).setUpRooms c).rooms := by
  have stored := store_outward s c
  rw [setUpRooms_alone] at stored
  exact ⟨stored.app, stored.dmem, stored.img, stored.inn, stored.edits, stored.rooms⟩

/-- To the rings a configuration stored is a matter of vectors raised and messages sent. -/
theorem store_rings (s : State) (c : Conf) : (s.store c).host.unraised = s.host.unraised ∧ s.out <+: (s.store c).out := by
  have stored := store_outward s c
  rw [setUpRooms_alone] at stored
  exact ⟨stored.unraised, stored.out⟩

theorem store_setUpFor (s : State) (c : Conf) : (s.store c).SetUpFor c :=
  setUpFor_of_rooms (setUpRooms_setUpFor ..) (store_outward s c).rooms

theorem store_unmarked (s : State) (c : Conf) (r : RoomId) : (s.store c).rooms[r].dirty = [] ∧ (s.store c).rooms[r].jdead = false := by
  rw [(store_outward s c).rooms]
  exact setUpRooms_unmarked c (by simp [State.adopted])

theorem configureField_pair (s : State) (c : Conf) : (s.configureField c).pair = s.pair :=
  pair_of_inward (configureField_inward s c)

theorem commitConf_pair (s : State) (c : Conf) (windows : List (List Byte)) (run : Bool) : (s.commitConf c windows run).pair = s.pair := rfl
theorem setUpRooms_pair (s : State) (c : Conf) : (s.setUpRooms c).pair = s.pair := by
  rw [setUpRooms_alone]

theorem store_single {s : State} {c : Conf} (role : s.pair.role = 0) (single : c.way.pair = false) : (s.store c).pair.role = 0 := by
  rw [store_eq]
  refine storedPair_single ?_ single
  rw [configureField_pair, commitConf_pair, setUpRooms_pair]
  exact role

/-! ### The end of an examination (R156, R181, R220) -/

theorem signatureRecord_alone (s : State) (r : Report) (bs : List Byte) :
    s.signatureRecord r bs = { s with gb := (s.signatureRecord r bs).gb } := by
  unfold State.signatureRecord
  split
  · exact gbEvent_alone ..
  · rfl

/-- The examination has ended: its result stands in the innkeeper's registers, and a refused signature is recorded. -/
def State.examined (s : State) (t ms : Nat) (stage : Bool) : State :=
  { (s.at t).signatureRecord (s.examineLoaded stage) (s.inn.loaded.getD []) with inn := s.inn.report (s.examineLoaded stage) ms }

theorem examined_eq (s : State) (t ms : Nat) (stage : Bool) : s.examined t ms stage =
    { s.at t with inn := s.inn.report (s.examineLoaded stage) ms, gb := (s.examined t ms stage).gb } := by
  unfold State.examined
  rw [signatureRecord_alone]

theorem examined_pair (s : State) (t ms : Nat) (stage : Bool) : (s.examined t ms stage).pair = s.pair := by
  rw [examined_eq]
  rfl

/-- The rings are those of s when the examination has ended. -/
theorem examined_rings (s : State) (t ms : Nat) (stage : Bool) :
    (s.examined t ms stage).host = s.host ∧ (s.examined t ms stage).out = s.out := by
  rw [examined_eq]
  exact ⟨rfl, rfl⟩

/-- The state without time and what reports and completions change. -/
def State.unnoted (s : State) : State := { s with now := 0, host := HostIf.init, gb := Guest.init, out := [], marks := [] }

theorem examined_unnoted (s : State) (t ms : Nat) (stage : Bool) :
    (s.examined t ms stage).unnoted = State.unnoted { s with inn := s.inn.report (s.examineLoaded stage) ms } := by
  rw [examined_eq]
  rfl

theorem completeOpt_unnoted (s : State) (ref : Option CmdRef) (st : BitVec 16) (res : List Byte) :
    (s.completeOpt ref st res).unnoted = s.unnoted := by
  rw [completeOpt_alone]
  rfl

theorem lanesKept_of_unnoted {s s' : State} (h : s'.unnoted = s.unnoted) : LanesKept s s' :=
  ⟨(congrArg State.rooms h :), (congrArg State.dmem h :), (congrArg State.img h :)⟩

theorem fieldKept_of_unnoted {s s' : State} (h : s'.unnoted = s.unnoted) : FieldKept s s' :=
  ⟨(congrArg State.chans h :), (congrArg State.groups h :), (congrArg State.spare h :), (congrArg State.cans h :)⟩

/-- The command that awaited an end has it: nothing has happened to the rings meanwhile but vectors raised and messages sent. -/
theorem completeOpt_finishes {s s₁ : State} {x : Option CmdRef} (host : s₁.host.unraised = s.host.unraised) (out : s.out <+: s₁.out)
    (st : BitVec 16) (res : List Byte) (ref : CmdRef) (awaited : x = some ref) : Finishes s (s₁.completeOpt x st res) ref st res := by
  rw [awaited]
  exact (complete_finishes s₁ ref st res).since host out

/-- A swap is staged (R220). -/
def State.staged (s : State) (c : Conf) : State := { s with edits := { s.edits with swap := .staged, new := some c } }

theorem staged_unnoted {s s' : State} (h : s'.unnoted = s.unnoted) (c : Conf) : (s'.staged c).unnoted = (s.staged c).unnoted :=
  congrArg (fun s => s.staged c) h

/-- What an examination that has ended with a report leads to. -/
def State.conclude (s : State) (x : Exam) (r : Report) : State :=
  match r.conf with
  | none => s.completeOpt x.ref (BitVec.ofNat 16 r.status) (r.bytes.take 8)
  | some c =>
    if x.stage then (s.staged c).completeOpt x.ref 0 (toLe 4 c.way.crc.toNat ++ toLe 2 c.an.swapSlots ++ [0, 0])
    else (s.store c).completeOpt x.ref 0 (toLe 4 c.way.crc.toNat ++ [0, 0, 0, 0])

section
variable {s : State} {x : Exam} (exam : s.inn.exam = some x) (applies : x.stage = true → s.applies = true)
include exam applies

/-- An examination ends, unless it is of an admission that passes while the NV store may not be written (R157, R438). -/
theorem exec_admissionComplete (t ms : Nat) : exec (.admissionComplete t ms) s = .next
    (if x.stage = false ∧ (s.examineLoaded x.stage).conf.isSome = true ∧ s.nv.ready = false then s.at t
    else (s.examined t ms x.stage).conclude x (s.examineLoaded x.stage)) := by
  have goes : ¬ (x.stage = true ∧ (s.at t).applies = false) := fun ⟨stage, idle⟩ => Bool.false_ne_true (idle.symm.trans (applies stage))
  have same : (s.at t).examineLoaded x.stage = s.examineLoaded x.stage := rfl
  change execAdmissionComplete t ms s = _
  unfold execAdmissionComplete
  dsimp only
  rw [State.at_inn, exam]
  dsimp only
  rw [if_neg goes, same, State.at_nv]
  split
  · rfl
  · unfold State.conclude
    cases (s.examineLoaded x.stage).conf with
    | none => rfl
    | some c => exact (apply_ite Host.Outcome.next ..).symm

/-- A refused waybill leaves a result and reports (R156, R181). -/
theorem admissionComplete_refused (t ms : Nat) (refused : (s.examineLoaded x.stage).conf = none) :
    ∃ s', exec (.admissionComplete t ms) s = .next s' ∧
      s'.unnoted = State.unnoted { s with inn := s.inn.report (s.examineLoaded x.stage) ms } ∧
      ∀ ref, x.ref = some ref →
        Finishes s s' ref (BitVec.ofNat 16 (s.examineLoaded x.stage).status) ((s.examineLoaded x.stage).bytes.take 8) := by
  obtain ⟨host, out⟩ := examined_rings s t ms x.stage
  have run := exec_admissionComplete exam applies t ms
  rw [if_neg (by simp [refused]), State.conclude, refused] at run
  exact ⟨_, run, (completeOpt_unnoted ..).trans (examined_unnoted ..), completeOpt_finishes (by rw [host]) (by rw [out]) _ _⟩

/-- A swap that passes is staged, with a result and reports (R220). -/
theorem admissionComplete_staged (t ms : Nat) {c : Conf} (passed : (s.examineLoaded x.stage).conf = some c) (stage : x.stage = true) :
    ∃ s', exec (.admissionComplete t ms) s = .next s' ∧
      s'.unnoted = (State.staged { s with inn := s.inn.report (s.examineLoaded x.stage) ms } c).unnoted ∧
      ∀ ref, x.ref = some ref → Finishes s s' ref 0 (toLe 4 c.way.crc.toNat ++ toLe 2 c.an.swapSlots ++ [0, 0]) := by
  obtain ⟨host, out⟩ := examined_rings s t ms x.stage
  have host' : ((s.examined t ms x.stage).staged c).host = s.host := host
  have out' : ((s.examined t ms x.stage).staged c).out = s.out := out
  have run := exec_admissionComplete exam applies t ms
  rw [if_neg (by simp [stage]), State.conclude, passed] at run
  exact ⟨_, run.trans (congrArg Host.Outcome.next (if_pos stage)), (completeOpt_unnoted ..).trans (staged_unnoted (examined_unnoted ..) c),
    completeOpt_finishes (by rw [host']) (by rw [out']) _ _⟩

/-- An admission that passes waits until the NV store may be written (R438). -/
theorem admissionComplete_waits (t ms : Nat) {c : Conf} (passed : (s.examineLoaded x.stage).conf = some c) (admission : x.stage = false)
    (uncharged : s.nv.ready = false) : exec (.admissionComplete t ms) s = .next (s.at t) := by
  rw [exec_admissionComplete exam applies, if_pos ⟨admission, by rw [passed]; rfl, uncharged⟩]

/-- An admission that passes while the NV store may be written is stored, with a result and reports (R157). -/
theorem admissionComplete_stored (t ms : Nat) {c : Conf} (passed : (s.examineLoaded x.stage).conf = some c) (admission : x.stage = false)
    (charged : s.nv.ready = true) :
    ∃ s', exec (.admissionComplete t ms) s = .next s' ∧ s'.unnoted = ((s.examined t ms x.stage).store c).unnoted ∧
      ∀ ref, x.ref = some ref → Finishes s s' ref 0 (toLe 4 c.way.crc.toNat ++ [0, 0, 0, 0]) := by
  obtain ⟨host, out⟩ := examined_rings s t ms x.stage
  obtain ⟨unraised, sent⟩ := store_rings (s.examined t ms x.stage) c
  have run := exec_admissionComplete exam applies t ms
  rw [if_neg (by simp [charged]), State.conclude, passed] at run
  exact ⟨_, run.trans (congrArg Host.Outcome.next (if_neg (by simp [admission]))), completeOpt_unnoted ..,
    completeOpt_finishes (unraised.trans (congrArg _ host)) (out ▸ sent) _ _⟩

end

/-- What an admission that has been stored leaves of the configuration, the innkeeper, the memories and the rooms. -/
theorem admitted_holds {s s' : State} {t ms : Nat} {stage : Bool} {c : Conf}
    (h : s'.unnoted = ((s.examined t ms stage).store c).unnoted) :
    s'.app = { s.app with stored := some c, cur := some c, runFlag := false, half := 1 - s.app.half } ∧
      s'.inn = s.inn.report (s.examineLoaded stage) ms ∧ s'.img = { s.img with canRx := [] } ∧ s'.edits = s.edits ∧
      s'.dmem = Mem.ofChunks ((s.keptWindows c).mapIdx (fun i w => (c.an.retBase.getD i 0, w))) ∧
      s'.rooms = ((s.examined t ms stage).store c).rooms ∧ s'.pair = ((s.examined t ms stage).store c).pair := by
  obtain ⟨app, dmem, img, inn, edits, -⟩ := store_holds (s.examined t ms stage) c
  refine ⟨(congrArg State.app h :).trans (app.trans ?_), (congrArg State.inn h :).trans (inn.trans ?_),
    (congrArg State.img h :).trans (img.trans ?_), (congrArg State.edits h :).trans (edits.trans ?_),
    (congrArg State.dmem h :).trans (dmem.trans ?_), (congrArg State.rooms h :), (congrArg State.pair h :)⟩ <;> rw [examined_eq] <;> rfl

/-- Settles O32: an examination ends in one of four ways; a configuration that is stored changes, besides what faces field and host, what
`State.adopted` and the set-up of the rooms write. -/
theorem examinationEnds : Obligations.ExaminationEnds := by
  intro s t ms x exam applies
  refine ⟨fun refused => ?refused, fun c passed => ⟨fun stage => ?staged,
    fun admission uncharged => ⟨_, admissionComplete_waits exam applies t ms passed admission uncharged, rfl⟩,
    fun admission charged => ?stored, fun admission charged role single => ?single⟩⟩
  case refused =>
    obtain ⟨s', run, reports, finishes⟩ := admissionComplete_refused exam applies t ms refused
    have inn : s'.inn = s.inn.report (s.examineLoaded x.stage) ms := (congrArg State.inn reports :)
    exact ⟨s', run, inn, by rw [inn]; rfl, by rw [inn]; rfl, (congrArg State.app reports :), (congrArg State.edits reports :),
      (lanesKept_of_unnoted reports :), (fieldKept_of_unnoted reports :), (congrArg State.nv reports :), finishes⟩
  case staged =>
    obtain ⟨s', run, reports, finishes⟩ := admissionComplete_staged exam applies t ms passed stage
    exact ⟨s', run, (congrArg State.edits reports :), (congrArg (fun s => s.inn.exam) reports :), (congrArg State.app reports :),
      (lanesKept_of_unnoted reports :), (congrArg State.nv reports :), finishes⟩
  case stored =>
    obtain ⟨s', run, reports, finishes⟩ := admissionComplete_stored exam applies t ms passed admission charged
    obtain ⟨app, inn, -, -, dmem, rooms, -⟩ := admitted_holds reports
    exact ⟨s', run, app, inn, setUpFor_of_rooms (store_setUpFor ..) rooms, dmem, finishes⟩
  case single =>
    obtain ⟨s', run, reports, finishes⟩ := admissionComplete_stored exam applies t ms passed admission charged
    obtain ⟨app, inn, img, edits, -, rooms, pair⟩ := admitted_holds reports
    have alone : s'.pair.role = 0 := by
      rw [pair]
      exact store_single (by rw [examined_pair]; exact role) single
    have unmarked : ∀ r : RoomId, s'.rooms[r].dirty = [] ∧ s'.rooms[r].jdead = false := by
      rw [rooms]
      exact store_unmarked (s.examined t ms x.stage) c
    exact ⟨s', run, app, by rw [inn]; rfl, img, edits, alone, setUpFor_of_rooms (store_setUpFor ..) rooms, unmarked, finishes⟩

end Sys2Proof.Machine
end

section
/-! PROOFS. Which copy a byte of the image comes from, and what the next commit makes of it (R72, R187, R190, R191, R195, R204). -/

namespace Sys2Proof.Machine

/-! ### Which copy a byte comes from (R187, R190, R191, R195) -/

theorem isOutput_iff (e : ChanCfg) : e.isOutput = true ↔ e.mode = 8 ∨ e.mode = 9 ∨ 0x20 ≤ e.mode ∧ e.mode ≤ 0x22 := by
  simp only [ChanCfg.isOutput, ChanCfg.isDout, ChanCfg.isAout, Bool.or_eq_true, Bool.and_eq_true, beq_iff_eq, decide_eq_true_iff, or_assoc]

/-- The address lies in a transmit buffer, in a publication, or in the output word of a channel in an output mode (R194, R195). -/
theorem outputArea_iff (s : State) (a : Nat) : s.outputArea a = true ↔
    (0x2000 ≤ a ∧ a < 0x2400) ∨ (0x40000 ≤ a ∧ a < 0x4C000) ∨
      (0x1000 ≤ a ∧ a < 0x1300 ∧ ∃ e, s.chanCfg ((a - 0x1000) / 4) = some e ∧
        (e.mode = 8 ∨ e.mode = 9 ∨ 0x20 ≤ e.mode ∧ e.mode ≤ 0x22)) := by
  unfold State.outputArea
  split
  case isTrue word =>
    have outside : ¬(0x2000 ≤ a ∧ a < 0x2400) ∧ ¬(0x40000 ≤ a ∧ a < 0x4C000) := by omega
    cases s.chanCfg ((a - 0x1000) / 4) <;> simp [outside, word, isOutput_iff]
  case isFalse other =>
    simp only [Bool.or_eq_true, Bool.and_eq_true, decide_eq_true_iff]
    exact ⟨fun h => h.elim .inl (.inr ∘ .inl), fun h => h.elim .inl fun h => h.elim .inr fun word => absurd ⟨word.1, word.2.1⟩ other⟩

theorem le_of_outputArea {s : State} {a : Nat} (out : s.outputArea a = true) : 0xC00 ≤ a := by
  rcases (outputArea_iff s a).mp out with h | h | h <;> omega

theorem imageByte_output {s : State} {a : Nat} (out : s.outputArea a = true) (r : RoomId) :
    s.imageByte r a = if s.writable r a then s.img.pend.get a else s.img.com.get a := by
  rw [State.imageByte, if_neg (not_lt.mpr (le_of_outputArea out)), if_pos out]

theorem imageByteSources : Stated.ImageByteSources := by
  intro s r a
  simp only [← outputArea_iff]
  refine ⟨fun low => if_pos low, fun out own => ?_, fun out foreign => ?_, fun high other => ?_⟩
  · rw [imageByte_output out, if_pos own]
  · rw [imageByte_output out, foreign]
    rfl
  · rw [State.imageByte, if_neg (not_lt.mpr high), if_neg other]

/-! ### What the next commit makes of a byte (R72, R185, R190, R191, R204) -/

/-- Task i of the configuration publishes, and the stamp of its publication holds the byte at address a (R204). -/
def Conf.Stamps (c : Conf) (a i : Nat) : Prop :=
  ∃ k b, c.task i = some k ∧ k.pubLen ≠ 0 ∧ c.an.pubBase[i]? = some b ∧ b ≤ a ∧ a < b + 4

/-- The commit's own test for it. -/
def Conf.stamped (c : Conf) (a i : Nat) : Bool :=
  decide (((c.task i).map Task.pubLen).getD 0 ≠ 0) && decide (c.an.pubBase.getD i 0 ≤ a) && decide (a < c.an.pubBase.getD i 0 + 4)

/-- A task without a base counts as one of base zero, whose stamp holds no byte of the outputs. -/
theorem stamped_iff (c : Conf) {a : Nat} (output : 0xC00 ≤ a) (i : Nat) : c.stamped a i = true ↔ c.Stamps a i := by
  simp only [Conf.stamped, Bool.and_eq_true, decide_eq_true_iff, List.getD_eq_getElem?_getD, Conf.Stamps]
  cases c.task i <;> cases c.an.pubBase[i]? <;> simp [and_assoc]
  omega

section
variable {s : State} {c : Conf} (cur : s.app.cur = some c) (n : Nat) {a : Nat}
include cur

theorem nextByte_eq : s.nextByte n a =
    if (s.img.closed.find? fun i => c.owns i (a / 4 * 4)).isSome then s.img.frozen.get a
    else (s.img.closed.find? (c.stamped a)).elim (s.img.com.get a) fun i => byteAt (toLe 4 (n % 2 ^ 32)) (a - c.an.pubBase.getD i 0) := by
  rw [State.nextByte, cur]
  unfold Conf.stamped
  dsimp only
  cases s.img.closed.find? fun i => c.owns i (a / 4 * 4)
  case some i => rfl
  case none =>
    split
    case h_1 absent => cases absent
    case h_2 i _ found => rw [found]; rfl
    case h_3 _ absent => rw [absent]; rfl

theorem nextByte_owned (owned : ∃ i ∈ s.img.closed, c.owns i (a / 4 * 4) = true) : s.nextByte n a = s.img.frozen.get a := by
  rw [nextByte_eq cur, if_pos (List.find?_isSome.mpr owned)]

theorem nextByte_unowned (unowned : ∀ i ∈ s.img.closed, c.owns i (a / 4 * 4) = false) : s.nextByte n a =
    (s.img.closed.find? (c.stamped a)).elim (s.img.com.get a) fun i => byteAt (toLe 4 (n % 2 ^ 32)) (a - c.an.pubBase.getD i 0) := by
  rw [nextByte_eq cur, if_neg]
  rw [List.find?_isSome]
  rintro ⟨i, closed, owns⟩
  exact Bool.false_ne_true ((unowned i closed).symm.trans owns)

theorem nextByte_kept (output : 0xC00 ≤ a) (kept : ∀ i ∈ s.img.closed, c.owns i (a / 4 * 4) = false ∧ ¬c.Stamps a i) :
    s.nextByte n a = s.img.com.get a := by
  rw [nextByte_unowned cur n fun i closed => (kept i closed).1,
    List.find?_eq_none.mpr fun i closed => (stamped_iff c output i).not.mpr (kept i closed).2]
  rfl

/-- Of the tasks whose deadlines have passed only task i stamps the byte, with the number of the base tick (R204). -/
theorem nextByte_stamp (output : 0xC00 ≤ a) {i b : Nat} (closed : i ∈ s.img.closed) (stamps : c.Stamps a i) (base : c.an.pubBase[i]? = some b)
    (alone : ∀ j ∈ s.img.closed, c.Stamps a j → j = i) (unowned : ∀ i ∈ s.img.closed, c.owns i (a / 4 * 4) = false) :
    s.nextByte n a = (BitVec.ofNat 32 n).extractLsb' (8 * (a - b)) 8 := by
  obtain ⟨j, found⟩ := Option.isSome_iff_exists.mp (List.find?_isSome.mpr ⟨i, closed, (stamped_iff c output i).mpr stamps⟩)
  obtain rfl : j = i := alone j (List.mem_of_find?_eq_some found) ((stamped_iff c output j).mp (List.find?_some found))
  obtain ⟨-, b', -, -, base', low, high⟩ := stamps
  obtain rfl : b' = b := Option.some.inj (base'.symm.trans base)
  rw [nextByte_unowned cur n unowned, found, Option.elim_some, List.getD_eq_getElem?_getD, base, Option.getD_some, ← BitVec.toNat_ofNat]
  exact getD_toLe_word _ (by omega)

end

theorem imageByteAt_next {s : State} {cyc : Nat} {r : RoomId} {a : Nat} (later : s.cycle < (s.tb + (cyc - s.now)) / 20000)
    (others : 0xC00 ≤ a ∧ s.outputArea a = true ∧ s.writable r a = false) :
    s.imageByteAt cyc r a = s.nextByte ((s.tb + (cyc - s.now)) / 20000) a :=
  if_pos ⟨later, not_lt.mpr others.1, others.2⟩

theorem imageBytesAtCommit : Stated.ImageBytesAtCommit := by
  intro s r a cyc c cur n others stamps
  refine ⟨fun before => ?_, fun own => ?_, fun later foreign => ⟨fun owned => ?_, fun kept => ?_, fun i closed b stamp base alone unowned => ?_⟩⟩
  · exact if_neg fun h => absurd h.1 (not_lt.mpr before)
  · exact if_neg fun h => own ⟨not_lt.mp h.2.1, h.2.2⟩
  · rw [imageByteAt_next later foreign, nextByte_owned cur _ owned]
  · rw [imageByteAt_next later foreign, nextByte_kept cur _ foreign.1 kept]
  · rw [imageByteAt_next later foreign, nextByte_stamp cur _ foreign.1 closed stamp base alone unowned]

end Sys2Proof.Machine
end

section
/-! PROOFS. Image loads and LDB (R72, R89, R113, R114, R138). -/

namespace Sys2Proof.Machine

theorem le_fetchAt (s : State) (k : LaneId) (t : Nat) : s.now ≤ s.fetchAt k t := by
  unfold State.fetchAt
  dsimp only [State.at_now]
  omega

/-- The fetched machine reads the same image as the machine at the fetch. -/
theorem fetched_imageByteAt (s : State) (t : Nat) (r : RoomId) (early : Bool) (cyc a : Nat) :
    (s.fetched t r early).imageByteAt cyc r a = (s.at (s.fetchCycle t r + 1)).imageByteAt cyc r a := by
  have time : s.at (s.fetchCycle t r + 1) = { s with now := s.fetchCycle t r + 1 } :=
    congrArg (fun x => { s with now := x }) (max_eq_right (Nat.le_succ_of_le (le_fetchAt s _ t)))
  have snap : (s.fetched t r early).rooms[r].snap = s.rooms[r].snap := by
    rw [fetched_room]
    exact (congrArg Room.snap (issue_kept (s.operands t r) early (s.fetchCycle t r)) :).trans (congrArg Room.snap (settle_unsettled ..) :)
  unfold State.imageByteAt State.imageByte
  rw [snap, time]
  rfl

theorem imageRead_byte (s : State) (cyc : Nat) (r : RoomId) (a : Nat) : s.imageRead cyc r a 1 = [s.imageByteAt cyc r a] := rfl

theorem imageRead_half (s : State) (cyc : Nat) (r : RoomId) (a : Nat) :
    s.imageRead cyc r a 2 = [s.imageByteAt cyc r a, s.imageByteAt cyc r (a + 1)] := rfl

theorem imageRead_word (s : State) (cyc : Nat) (r : RoomId) (a : Nat) : s.imageRead cyc r a 4 =
    [s.imageByteAt cyc r a, s.imageByteAt cyc r (a + 1), s.imageByteAt cyc r (a + 2), s.imageByteAt cyc r (a + 3)] := rfl

/-- A fetched instruction that delivers to rd alone leaves B as its operand stage reads it. -/
theorem put_eq_delivered (s : State) (t : Nat) (r : RoomId) (early : Bool) (rd : Reg) (x : Word) :
    (s.fetched t r early).updRoom r (fun w => w.put rd x) = (s.fetched t r early).updRoom r (Room.delivered rd x (s.operands t r).b) := by
  have b : (s.fetched t r early).rooms[r].b = (s.operands t r).b := (roomStep_of_unaccessed rfl).2
  rw [State.updRoom, State.updRoom, upd, upd, ← delivered_eq_put, ← b]

section
variable {s : State} {r : RoomId} (issues : s.canIssue r = true) (t : Nat) (rd ra : Reg) (imm : BitVec 16)
include issues

theorem laneImgLoad_eq (sz : Size) (sg : Bool) :
    let v := s.operands t r
    let a := alignTo sz (effAddr v ra imm)
    let s₁ := s.fetched t r (loadPending [ra] v)
    s.laneImgLoad t r rd ra imm sz sg =
      if a < 2 ^ 19 then s₁.updRoom r (Room.delivered rd (extend sz sg (s₁.imageRead (s.fetchCycle t r + 5) r a sz.bytes)) v.b)
      else (s₁.updRoom r (Room.delivered rd 0 v.b)).reportOow r v.pc a := by
  intro v a s₁
  rw [State.laneImgLoad, lane_eq issues, ← put_eq_delivered, ← put_eq_delivered]

/-- An image load of any width: its value inside the image, zero and a report beyond it. -/
theorem laneImgLoad_loads {i : Instr} {sz : Size} {sg : Bool} (run : exec i s = .next (s.laneImgLoad t r rd ra imm sz sg)) {a : Nat}
    (addr : alignTo sz (effAddr (s.operands t r) ra imm) = a) {val : Word}
    (value : extend sz sg ((s.fetched t r (loadPending [ra] (s.operands t r))).imageRead (s.fetchCycle t r + 5) r a sz.bytes) = val) :
    let v := s.operands t r
    (a < 2 ^ 19 → Writes s t r i (loadPending [ra] v) rd val v.flags) ∧
      (2 ^ 19 ≤ a → ∃ s', exec i s = .next s' ∧ RoomStep s s' t r (loadPending [ra] v) [rd] ∧ s'.rooms[r].b = v.b ∧
        s'.rooms[r].get rd = 0 ∧ ReportedOow s s' r) := by
  intro v
  subst addr value
  rw [laneImgLoad_eq issues] at run
  refine ⟨fun inside => ?_, fun outside => ?_⟩
  · rw [if_pos inside] at run
    exact writes_delivered issues run
  · rw [if_neg (not_lt.mpr outside)] at run
    obtain ⟨step, reported, get, b⟩ := delivered_reported s t r (loadPending [ra] v) rd 0 v.b v.pc (alignTo sz (effAddr v ra imm))
    exact ⟨_, run, step, b, get.trans (ite_self 0), reported⟩

theorem exec_ldb_inside (inside : (effAddr (s.operands t r) ra imm).toNat < 2 ^ 22) :
    let v := s.operands t r
    let s₁ := s.fetched t r (loadPending [ra] v)
    let q := (s₁.imageByteAt (s.fetchCycle t r + 5) r ((effAddr v ra imm).toNat / 8)).getLsbD ((effAddr v ra imm).toNat % 8)
    exec (.ldb t r rd ra imm) s = .next (s₁.updRoom r (Room.delivered rd (BitVec.ofNat 32 (b2n q)) q)) :=
  congrArg Host.Outcome.next ((lane_eq issues).trans (if_pos inside))

theorem exec_ldb_outside (outside : 2 ^ 22 ≤ (effAddr (s.operands t r) ra imm).toNat) :
    let v := s.operands t r
    exec (.ldb t r rd ra imm) s = .next (((s.fetched t r (loadPending [ra] v)).updRoom r (Room.delivered rd 0 false)).reportOow r v.pc
      (effAddr v ra imm).toNat) :=
  congrArg Host.Outcome.next ((lane_eq issues).trans (if_neg (not_lt.mpr outside)))

end

theorem imageLoads : Stated.ImageLoads := by
  intro s t r rd ra imm issues
  simp only [← fetched_imageByteAt s t r (loadPending [ra] (s.operands t r))]
  refine ⟨?ilw, ?ilh, ?ilhu, ?ilby, ?ilbyu, fun inside => ?ldb, fun outside => ?beyond⟩
  case ilw => exact laneImgLoad_loads issues t rd ra imm rfl rfl (extend_word ..)
  case ilh => exact laneImgLoad_loads issues t rd ra imm rfl rfl (extend_half_signed ..)
  case ilhu => exact laneImgLoad_loads issues t rd ra imm rfl rfl (extend_half_unsigned ..)
  case ilby => exact laneImgLoad_loads issues t rd ra imm rfl (alignTo_byte _) (extend_byte_signed _)
  case ilbyu => exact laneImgLoad_loads issues t rd ra imm rfl (alignTo_byte _) (extend_byte_unsigned _)
  case ldb =>
    have value (q : Bool) : BitVec.ofNat 32 (b2n q) = if q then 1 else 0 := by cases q <;> rfl
    rw [← value]
    exact writes_delivered issues (exec_ldb_inside issues t rd ra imm inside)
  case beyond =>
    obtain ⟨step, reported, get, b⟩ := delivered_reported s t r (loadPending [ra] (s.operands t r)) rd 0 false (s.operands t r).pc
      (effAddr (s.operands t r) ra imm).toNat
    exact ⟨_, exec_ldb_outside issues t rd ra imm outside, step, get.trans (ite_self 0), b, reported⟩

/-- Settles O6: a byte comes from the copy that area and owner select, or from what the next commit makes of it; the loads extend these bytes,
or report. -/
theorem imageReads : Obligations.ImageReads := ⟨imageByteSources, imageBytesAtCommit, imageLoads⟩

end Sys2Proof.Machine
end

section
/-! PROOFS. Raw changes of inputs and the edges they become: filters, stamps, counters and their gates (R207, R236, R241, R242, R244). -/

namespace Sys2Proof.Machine

/-! ### Gates (R236, R244) -/

/-- A channel without what it counts under a gate. -/
def Chan.ungated (c : Chan) : Chan := { c with gateVal := none, count := 0, gateDefer := 0 }

theorem fields_of_ungated {c c' : Chan} (h : c.ungated = c'.ungated) :
    c.raw = c'.raw ∧ c.rawAt = c'.rawAt ∧ c.level = c'.level ∧ c.rise = c'.rise ∧ c.fall = c'.fall :=
  ⟨(congrArg Chan.raw h :), (congrArg Chan.rawAt h :), (congrArg Chan.level h :), (congrArg Chan.rise h :), (congrArg Chan.fall h :)⟩

/-- Channel m is a counter that channel n gates. -/
def State.Gates (s : State) (n m : ChanId) : Prop := ∃ e, s.chans[m].cfg = some e ∧ grpOf m = grpOf n ∧ gateOf (grpOf n) e = some n

/-- The counters that channel n gates may have learnt the state of their gate, and nothing else has changed. -/
def State.Gated (s s' : State) (n : ChanId) : Prop :=
  s' = { s with chans := s'.chans } ∧ ∀ m : ChanId, s'.chans[m].ungated = s.chans[m].ungated ∧ (¬s.Gates n m → s'.chans[m] = s.chans[m])

theorem grpOf_of_mem_chansOf {g : GrpId} {m : ChanId} (h : m ∈ chansOf g) : grpOf m = g := by
  obtain ⟨i, -, rfl⟩ := List.mem_map.mp h
  have := i.isLt
  exact Fin.ext (show (16 * g.val + i.val) / 16 = g.val by omega)

theorem decideGate_gated (s : State) (n : ChanId) (v : Bool) : s.Gated (s.decideGate n v) n := by
  refine List.foldlRecOn (motive := fun s' => s.Gated s' n) _ _ ⟨rfl, fun _ => ⟨rfl, fun _ => rfl⟩⟩ fun s' h m mem => ?_
  obtain ⟨alone, chans⟩ := h
  split
  case h_1 => exact ⟨alone, chans⟩
  case h_2 e entry =>
    split
    case isFalse => exact ⟨alone, chans⟩
    case isTrue gate =>
      have gates : s.Gates n m := by
        have kept : s'.chans[m].cfg = s.chans[m].cfg := (congrArg Chan.cfg (chans m).1 :)
        exact ⟨e, kept.symm.trans entry, grpOf_of_mem_chansOf mem, gate⟩
      refine ⟨congrArg (fun s : State => { s with chans := upd s'.chans m fun c => c.gateDecided v }) alone, fun m' => ?_⟩
      rw [State.updChan_chan]
      split
      case isTrue same => subst same; exact ⟨(chans m).1, fun other => absurd gates other⟩
      case isFalse => exact chans m'

/-! ### What an input may write -/

/-- Rooms, memories and image are as they were, and so is every channel of another group than that of channel ch. -/
def InputKept (s s' : State) (ch : ChanId) : Prop := LanesKept s s' ∧ ∀ m : ChanId, grpOf m ≠ grpOf ch → s'.chans[m] = s.chans[m]

theorem InputKept.trans {s s₁ s' : State} {ch : ChanId} (h : InputKept s s₁ ch) (h' : InputKept s₁ s' ch) : InputKept s s' ch := by
  obtain ⟨⟨rooms, dmem, img⟩, chans⟩ := h
  obtain ⟨⟨rooms', dmem', img'⟩, chans'⟩ := h'
  exact ⟨⟨rooms'.trans rooms, dmem'.trans dmem, img'.trans img⟩, fun m other => (chans' m other).trans (chans m other)⟩

theorem inputKept_at (s : State) (t : Nat) (ch : ChanId) : InputKept s (s.at t) ch := ⟨⟨rfl, rfl, rfl⟩, fun _ _ => rfl⟩

theorem updChan_kept (s : State) (ch : ChanId) (f : Chan → Chan) : InputKept s (s.updChan ch f) ch :=
  ⟨⟨rfl, rfl, rfl⟩, fun m other => by rw [State.updChan_chan, if_neg]; rintro rfl; exact other rfl⟩

theorem State.Gated.kept {s s' : State} {ch : ChanId} (h : s.Gated s' ch) : InputKept s s' ch := by
  obtain ⟨alone, chans⟩ := h
  refine ⟨?_, fun m other => (chans m).2 fun ⟨_, _, group, _⟩ => other group⟩
  rw [alone]
  exact ⟨rfl, rfl, rfl⟩

/-! ### An edge accepted (R207, R241, R242, R244) -/

theorem filterCfg_eq {s : State} {ch : ChanId} {e : ChanCfg} (entry : s.chans[ch].cfg = some e) (state : e.hasState = true)
    (supplied : s.groups[grpOf ch].lplus = true) (moded : s.groups[grpOf ch].cfg = true) : s.filterCfg ch = some e := by
  rw [State.filterCfg, entry]
  exact if_pos (by rw [state, supplied, moded]; rfl)

theorem edgeSelected_eq (e : ChanCfg) (rising : Bool) : edgeSelected e rising = (byteAt e.param 6).getLsbD (if rising then 0 else 1) := by
  cases rising <;> exact bit_toNat ..

/-- What is no counter has no gate. -/
theorem gateOf_of_not_counter {e : ChanCfg} (level : e.isCounter = false) (g : GrpId) : gateOf g e = none := by
  simp [gateOf, level]

theorem edge_count_of_not_counter (c : Chan) {e : ChanCfg} (level : e.isCounter = false) (tb0 now : Nat) :
    (c.edge e tb0 now).count = c.count := by
  simp [Chan.edge, level]

/-- Behind an open gate a counter counts the edges it selects (R244). -/
theorem edge_count_of_counter {c : Chan} (gate : c.gateVal = some true) {e : ChanCfg} (counter : e.isCounter = true) (tb0 now : Nat) :
    (c.edge e tb0 now).count = if (byteAt e.param 6).getLsbD (if c.raw then 0 else 1) then c.count + 1 else c.count := by
  simp [Chan.edge, counter, gate, edgeSelected_eq]

/-- An accepted edge is one of its own channel, of which the counters that this channel gates learn. -/
theorem takeEdge_gated (s : State) (ch : ChanId) (e : ChanCfg) :
    (s.updChan ch fun c => c.edge e s.tb0 s.now).Gated (s.takeEdge ch e) ch := decideGate_gated ..

theorem updChan_edge (s : State) (ch : ChanId) (e : ChanCfg) :
    (s.updChan ch fun c => c.edge e s.tb0 s.now).chans[ch] = s.chans[ch].edge e s.tb0 s.now := getElem_upd_self ..

theorem takeEdge_kept (s : State) (ch : ChanId) (e : ChanCfg) : InputKept s (s.takeEdge ch e) ch :=
  (updChan_kept s ch _).trans (takeEdge_gated s ch e).kept

theorem takeEdge_now (s : State) (ch : ChanId) (e : ChanCfg) : (s.takeEdge ch e).now = s.now :=
  (congrArg State.now (takeEdge_gated s ch e).1 :)

theorem takeEdge_fields (s : State) (ch : ChanId) (e : ChanCfg) :
    let c := s.chans[ch]
    let c' := (s.takeEdge ch e).chans[ch]
    c'.level = c.raw ∧ c'.rise = (if c.raw then c.rise + 1 else c.rise) ∧ c'.fall = if c.raw then c.fall else c.fall + 1 := by
  obtain ⟨-, -, fields⟩ := fields_of_ungated ((takeEdge_gated s ch e).2 ch).1
  rwa [updChan_edge] at fields

/-- Unless the channel is its own gate, the accepted edge is all that it sees. -/
theorem takeEdge_chan {s : State} {ch : ChanId} {e : ChanCfg} (entry : s.chans[ch].cfg = some e) (other : gateOf (grpOf ch) e ≠ some ch) :
    (s.takeEdge ch e).chans[ch] = s.chans[ch].edge e s.tb0 s.now := by
  rw [← updChan_edge]
  refine ((takeEdge_gated s ch e).2 ch).2 fun ⟨e', entry', _, gate⟩ => other ?_
  rw [updChan_edge] at entry'
  rwa [Option.some.inj (entry.symm.trans entry')]

/-! ### The comparator changes its level (R241, R242) -/

/-- The raw level of a channel changes; back to the accepted level, the change decides what waits for this gate (R244). -/
def State.rawChanged (s : State) (ch : ChanId) (l : Bool) (gate : Option Bool) : State :=
  let s' := s.updChan ch fun c => { c with raw := l, rawAt := s.now, gateVal := gate }
  if l = s.chans[ch].level then s'.decideGate ch s.chans[ch].level else s'

theorem rawChanged_kept (s : State) (ch : ChanId) (l : Bool) (gate : Option Bool) : InputKept s (s.rawChanged ch l gate) ch := by
  unfold State.rawChanged
  dsimp only
  split
  · exact (updChan_kept s ch _).trans (decideGate_gated _ ch _).kept
  · exact updChan_kept s ch _

/-- A raw change writes the raw level and its instant, and leaves level and edge counts. -/
theorem rawChanged_fields (s : State) (ch : ChanId) (l : Bool) (gate : Option Bool) :
    let c := (s.rawChanged ch l gate).chans[ch]
    c.raw = l ∧ c.rawAt = s.now ∧ c.level = s.chans[ch].level ∧ c.rise = s.chans[ch].rise ∧ c.fall = s.chans[ch].fall := by
  have here : (s.updChan ch fun c => { c with raw := l, rawAt := s.now, gateVal := gate }).chans[ch] =
    { s.chans[ch] with raw := l, rawAt := s.now, gateVal := gate } := getElem_upd_self ..
  unfold State.rawChanged
  dsimp only
  split
  · have fields := fields_of_ungated ((decideGate_gated (s.updChan ch fun c => { c with raw := l, rawAt := s.now, gateVal := gate }) ch
      s.chans[ch].level).2 ch).1
    rwa [here] at fields
  · rw [here]
    exact ⟨rfl, rfl, rfl, rfl, rfl⟩

/-- The cycles after which a pending change is an edge at the latest: those of the filter, or without one 2.5 µs (R241). -/
def ChanCfg.ripeAfter (e : ChanCfg) : Nat := if u16 e.param 4 = 0 then 1000 else u16 e.param 4 * 4000

theorem ripeAfter_eq (e : ChanCfg) : (if filterOf e = 0 then 1000 else filterOf e) = e.ripeAfter :=
  if_congr (by simp [filterOf]) rfl rfl

section
variable {s : State} {ch : ChanId} {e : ChanCfg}

theorem ripeEdge_unripe (entry : s.chans[ch].cfg = some e)
    (unripe : s.chans[ch].raw = s.chans[ch].level ∨ s.now < s.chans[ch].rawAt + e.ripeAfter) : s.ripeEdge ch = s := by
  unfold State.ripeEdge
  dsimp only
  split
  case h_1 => rfl
  case h_2 e' filters =>
    obtain rfl : e = e' := by
      rw [State.filterCfg, entry] at filters
      exact Option.some.inj (Option.ite_none_right_eq_some.mp filters).2
    rw [ripeAfter_eq]
    exact if_neg fun ⟨pending, ripe⟩ => unripe.elim pending (not_lt.mpr ripe)

theorem ripeEdge_ripe (filters : s.filterCfg ch = some e) (pending : s.chans[ch].raw ≠ s.chans[ch].level)
    (ripe : s.chans[ch].rawAt + e.ripeAfter ≤ s.now) : s.ripeEdge ch = s.takeEdge ch e := by
  unfold State.ripeEdge
  rw [filters]
  exact if_pos ⟨pending, (ripeAfter_eq e).symm ▸ ripe⟩

theorem exec_inputRawChange (t : Nat) {l : Bool} (change : s.chans[ch].raw ≠ l) (supplied : s.groups[grpOf ch].lplus = true) :
    ∃ gate, exec (.inputRawChange t ch l) s = .next (((s.at t).ripeEdge ch).rawChanged ch l gate) :=
  ⟨_, if_neg (not_or.mpr ⟨change, ne_false_of_eq_true supplied⟩)⟩

theorem exec_inputFilterAccept (t : Nat) (filters : s.filterCfg ch = some e) (pending : s.chans[ch].raw ≠ s.chans[ch].level) :
    exec (.inputFilterAccept t ch) s =
      .next ((s.at (max t (s.chans[ch].rawAt + max 200 (u16 e.param 4 * 4000)))).takeEdge ch e) := by
  show execInputFilterAccept t ch s = _
  rw [execInputFilterAccept, filters]
  exact if_pos pending

end

end Sys2Proof.Machine
end

section
/-! PROOFS. Wire break (R243, R266, R267), and the digital inputs as a whole (R207, R236, R241 to R244). -/

namespace Sys2Proof.Machine

/-! ### A latched bit of a group (R266, R267) -/

theorem oneShifted_eq_twoPow (i : Nat) : ((1 <<< i : Nat) : BitVec 16) = BitVec.twoPow 16 i := by
  apply BitVec.eq_of_toNat_eq
  simp [Nat.shiftLeft_eq]

theorem and_oneShifted_ne_zero_iff (x : BitVec 16) (i : Fin 16) : (x &&& ((1 <<< i.val : Nat) : BitVec 16) != 0) = true ↔
    x.getLsbD i.val = true := by
  have nonzero : BitVec.twoPow 16 i.val ≠ 0 := fun zero => by simpa using congrArg (BitVec.getLsbD · i.val) zero
  rw [oneShifted_eq_twoPow, BitVec.and_twoPow, bne_iff_ne]
  split
  case isTrue set => exact iff_of_true nonzero set
  case isFalse => exact iff_of_false (not_not.mpr rfl) ‹_›

section
variable (s : State) (n : ChanId) (rd : Group → BitVec 16) (wr : Group → BitVec 16 → Group) (off typ : Nat) (sev : BitVec 2) (ana : Bool)

/-- Besides reports, a latched bit that sets writes its register of the group, unless it has been set before (R267). -/
theorem latchChan_unreported :
    ((s.latchChan n rd wr off typ sev ana).unreported = s.unreported ∧ (rd s.groups[grpOf n]).getLsbD (idxOf n).val = true) ∨
      (s.latchChan n rd wr off typ sev ana).unreported =
        (s.updGrp (grpOf n) fun p => wr p (rd p ||| ((1 <<< (idxOf n).val : Nat) : BitVec 16))).unreported := by
  by_cases set : (rd s.groups[grpOf n]).getLsbD (idxOf n).val = true
  case pos =>
    have eq : s.latchChan n rd wr off typ sev ana = _ := if_pos ((and_oneShifted_ne_zero_iff ..).mpr set)
    exact .inl ⟨(congrArg State.unreported eq).trans rfl, set⟩
  case neg =>
    have eq : s.latchChan n rd wr off typ sev ana = _ := if_neg ((and_oneShifted_ne_zero_iff ..).not.mpr set)
    exact .inr ((congrArg State.unreported eq).trans (channelEvent_unreported ..))

theorem latchChan_chans : (s.latchChan n rd wr off typ sev ana).chans = s.chans := by
  rcases latchChan_unreported s n rd wr off typ sev ana with ⟨eq, -⟩ | eq <;> exact (chans_of_unreported eq :)

theorem latchChan_lanes : LanesKept s (s.latchChan n rd wr off typ sev ana) := by
  rcases latchChan_unreported s n rd wr off typ sev ana with ⟨eq, -⟩ | eq <;>
    exact ⟨(congrArg State.rooms eq :), (congrArg State.dmem eq :), (congrArg State.img eq :)⟩

/-- A latched bit stands in its register, whether it sets now or has been set before. -/
theorem latchChan_latched (written : ∀ p x, rd (wr p x) = x) :
    (rd (s.latchChan n rd wr off typ sev ana).groups[grpOf n]).getLsbD (idxOf n).val = true := by
  rcases latchChan_unreported s n rd wr off typ sev ana with ⟨eq, set⟩ | eq
  · exact (congrArg (fun gs => (rd gs[grpOf n]).getLsbD (idxOf n).val) (groups_of_unreported eq)).trans set
  · refine (congrArg (fun gs => (rd gs[grpOf n]).getLsbD (idxOf n).val) (groups_of_unreported eq)).trans ?_
    rw [State.updGrp_groups, getElem_upd_self, written, oneShifted_eq_twoPow]
    simp [(idxOf n).isLt]

end

/-! ### Wire break (R243) -/

/-- OPEN of a channel follows, and with a rise its latched bit (R266). -/
theorem setOpen_opens (s : State) (ch : ChanId) (l : Bool) :
    let s' := s.setOpen ch l
    s'.chans[ch].copen = l ∧ s'.chans[ch].level = s.chans[ch].level ∧ InputKept s s' ch ∧
      (l = true → s.chans[ch].copen = false → s'.groups[grpOf ch].openLatch.getLsbD (idxOf ch).val = true) := by
  intro s'
  let s₁ := s.updChan ch fun c => { c with copen := l }
  have here : s₁.chans[ch] = { s.chans[ch] with copen := l } := getElem_upd_self ..
  have kept : InputKept s s₁ ch := updChan_kept ..
  by_cases rises : (l && !s.chans[ch].copen) = true
  case pos =>
    have eq : s' = s₁.latchOpen ch := if_pos rises
    have chans : s'.chans = s₁.chans := (congrArg State.chans eq).trans (latchChan_chans ..)
    refine ⟨?_, ?_, kept.trans ⟨eq ▸ latchChan_lanes .., fun m _ => congrArg (·[m]) chans⟩, fun _ _ => ?_⟩
    · rw [chans, here]
    · rw [chans, here]
    · rw [eq]
      exact latchChan_latched _ _ _ _ _ _ _ _ fun _ _ => rfl
  case neg =>
    have eq : s' = s₁ := if_neg rises
    rw [eq, here]
    exact ⟨rfl, rfl, kept, fun opens had => absurd (by rw [opens, had]; rfl) rises⟩

theorem exec_wireBreak {s : State} {ch : ChanId} {e : ChanCfg} (entry : s.chans[ch].cfg = some e) (input : e.mode = 1 ∨ e.mode = 2 ∨ e.mode = 3)
    (watched : (byteAt e.param 1).getLsbD 0 = true) (supplied : s.groups[grpOf ch].lplus = true) (moded : s.groups[grpOf ch].cfg = true)
    (t : Nat) (l : Bool) : exec (.wireBreak t ch l) s = .next ((s.at t).setOpen ch l) := by
  have kind : (e.isDin || e.isCounter) = true := by
    simpa [ChanCfg.isDin, ChanCfg.isCounter, or_assoc] using input
  have bit : bit (u8p e 21) 0 = true := (bit_toNat ..).trans watched
  have up : s.groups[grpOf ch].up = true := by rw [Group.up, supplied, moded]; rfl
  show execWireBreak t ch l s = _
  unfold execWireBreak
  dsimp only
  rw [show (s.at t).chans[ch].cfg = some e from entry]
  exact if_pos ⟨kind, bit, up⟩

/-! ### The inputs together -/

/-- Inputs and outputs that read back have a state bit and are no counters (R235). -/
theorem hasState_of_mode {e : ChanCfg} (mode : e.mode = 1 ∨ e.mode = 2 ∨ e.mode = 9) : e.hasState = true ∧ e.isCounter = false := by
  rcases mode with mode | mode | mode <;> simp [ChanCfg.hasState, ChanCfg.isDin, ChanCfg.isCounter, ChanCfg.isReadback, mode]

/-- Settles O19: a raw change and an accepted one write their channel and, through its gate, counters of its group; OPEN follows the wire. -/
theorem digitalInputs : Obligations.DigitalInputs := by
  intro s t ch l e entry supplied moded
  refine ⟨fun change unripe => ?unripe, fun mode change pending ripe => ?ripe, fun mode pending => ?accept, fun mode pending gate => ?count,
    fun mode watched => ?broken⟩
  case unripe =>
    obtain ⟨gate, run⟩ := exec_inputRawChange t change supplied
    rw [ripeEdge_unripe (s := s.at t) entry unripe] at run
    obtain ⟨raw, rawAt, level, rise, fall⟩ := rawChanged_fields (s.at t) ch l gate
    exact ⟨_, run, raw, rawAt, level, rise, fall, (inputKept_at s t ch).trans (rawChanged_kept ..)⟩
  case ripe =>
    obtain ⟨gate, run⟩ := exec_inputRawChange t change supplied
    rw [ripeEdge_ripe (s := s.at t) (filterCfg_eq entry (hasState_of_mode mode).1 supplied moded) pending ripe] at run
    obtain ⟨raw, rawAt, level, rise, fall⟩ := rawChanged_fields ((s.at t).takeEdge ch e) ch l gate
    obtain ⟨level', rise', fall'⟩ := takeEdge_fields (s.at t) ch e
    exact ⟨_, run, raw, rawAt.trans (takeEdge_now ..), level.trans level', rise.trans rise', fall.trans fall',
      ((inputKept_at s t ch).trans (takeEdge_kept ..)).trans (rawChanged_kept ..)⟩
  case accept =>
    obtain ⟨state, counts⟩ := hasState_of_mode mode
    refine ⟨_, exec_inputFilterAccept t (filterCfg_eq entry state supplied moded) pending, ?_⟩
    generalize instant : max t _ = x
    have other : gateOf (grpOf ch) e ≠ some ch := gateOf_of_not_counter counts _ ▸ (Option.some_ne_none ch).symm
    rw [takeEdge_now, takeEdge_chan (s := s.at x) entry other]
    refine ⟨?_, rfl, rfl, rfl, rfl, rfl, ?_, (inputKept_at s x ch).trans (takeEdge_kept ..)⟩
    · rw [← instant]
      exact (max_assoc ..).symm
    · exact edge_count_of_not_counter _ counts ..
  case count =>
    have state : e.hasState = true := by simp [ChanCfg.hasState, ChanCfg.isCounter, mode]
    refine ⟨_, exec_inputFilterAccept t (filterCfg_eq entry state supplied moded) pending, ?_⟩
    generalize max t _ = x
    refine ⟨(takeEdge_fields (s.at x) ch e).1, fun other => ?_, (inputKept_at s x ch).trans (takeEdge_kept ..)⟩
    rw [takeEdge_chan (s := s.at x) entry other]
    exact edge_count_of_counter gate (beq_iff_eq.mpr mode) ..
  case broken =>
    obtain ⟨copen, level, kept, latched⟩ := setOpen_opens (s.at t) ch l
    exact ⟨_, exec_wireBreak entry mode watched supplied moded t l, copen, level, (inputKept_at s t ch).trans kept, latched⟩

end Sys2Proof.Machine
end

section
/-! PROOFS. A command that ends among others (R349, R351), and the messages that modules exchange about swaps (R3, R233, R381). -/

namespace Sys2Proof.Machine

/-! ### A command that ends among others (R349, R351) -/

/-- Two host interfaces alike in all that decides how the command of ring k ends. -/
structure HostIf.EndsAs (h h' : HostIf) (k : RingId) : Prop where
  active : h.active = h'.active
  busMaster : h.busMaster = h'.busMaster
  inProg : h.inProg[k] = h'.inProg[k]
  heldC : h.heldC = h'.heldC
  cqHead : h.cqHead = h'.cqHead
  cqTail : h.cqTail = h'.cqTail
  ring : ∀ j < 16, vget h.rings j RingCfg.init = vget h'.rings j RingCfg.init

theorem HostIf.EndsAs.of_eq {h h' : HostIf} (same : h = h') (k : RingId) : h.EndsAs h' k := by
  subst same
  exact ⟨rfl, rfl, rfl, rfl, rfl, rfl, fun _ _ => rfl⟩

theorem HostIf.EndsAs.cqOf {h h' : HostIf} {k : RingId} (same : h.EndsAs h' k) (c : RingId) : h.cqOf c = h'.cqOf c := by
  unfold HostIf.cqOf
  rw [same.ring c.val (by omega)]

theorem HostIf.EndsAs.cqRoom {h h' : HostIf} {k : RingId} (same : h.EndsAs h' k) (q : RingId) : h.cqRoom q = h'.cqRoom q := by
  unfold HostIf.cqRoom
  rw [same.ring (8 + q.val) (by omega), same.cqHead, same.cqTail]

/-- What a command's end does not depend on may have changed before it. -/
theorem Finishes.of_endsAs {s s₁ s' : State} {ref : CmdRef} {st : BitVec 16} {res : List Byte} (h : Finishes s₁ s' ref st res)
    (same : s₁.host.EndsAs s.host ref.ring) (out : s.out <+: s₁.out) : Finishes s s' ref st res := by
  simp only [Finishes, same.active, same.inProg, same.busMaster, same.cqOf, same.cqRoom, same.heldC] at h
  intro on inProg
  obtain ⟨done, completes⟩ := h on inProg
  refine ⟨done, fun master room free => ?_⟩
  obtain ⟨bs, ⟨length, written⟩, fields⟩ := completes master room free
  obtain ⟨sent, out⟩ := out
  rw [same.cqTail, same.ring _ (by omega), ← out, List.length_append, ← List.drop_drop] at written
  exact ⟨bs, ⟨length, written.trans (List.drop_suffix ..).isInfix⟩, fields⟩

/-- From s to s' nothing that has gone out is taken back, and no command begins on ring k. -/
structure State.Follows (s s' : State) (k : RingId) : Prop where
  out : s.out <+: s'.out
  idle : s.host.inProg[k] = none → s'.host.inProg[k] = none

theorem State.Follows.refl (s : State) (k : RingId) : s.Follows s k := ⟨List.prefix_rfl, id⟩

theorem State.Follows.trans {s s₁ s' : State} {k : RingId} (h : s.Follows s₁ k) (h' : s₁.Follows s' k) : s.Follows s' k :=
  ⟨h.out.trans h'.out, h'.idle ∘ h.idle⟩

/-- A command that has ended stays so. -/
theorem Finishes.followed {s s₁ s' : State} {ref : CmdRef} {st : BitVec 16} {res : List Byte} (h : Finishes s s₁ ref st res)
    (follows : s₁.Follows s' ref.ring) : Finishes s s' ref st res := by
  obtain ⟨⟨sent, out⟩, idle⟩ := follows
  intro on inProg
  obtain ⟨done, completes⟩ := h on inProg
  refine ⟨idle done, fun master room free => ?_⟩
  obtain ⟨bs, ⟨length, written⟩, fields⟩ := completes master room free
  refine ⟨bs, ⟨length, ?_⟩, fields⟩
  rw [← out, List.drop_append]
  exact written.trans (List.prefix_append ..).isInfix

theorem complete_out (s : State) (ref : CmdRef) (st : BitVec 16) (res : List Byte) : s.out <+: (s.complete ref st res).out := by
  unfold State.complete State.writeCompletion
  dsimp only
  split
  · split
    · split <;> simp [State.emit, State.raiseLater]
    · split <;> exact List.prefix_rfl
  · exact List.prefix_rfl

/-- A completion takes a command off its own ring, or none off any. -/
theorem complete_inProg_cases (s : State) (ref : CmdRef) (st : BitVec 16) (res : List Byte) :
    (s.complete ref st res).host.inProg = upd s.host.inProg ref.ring (fun _ => none) ∨
      (s.complete ref st res).host.inProg = s.host.inProg := by
  by_cases ends : s.host.active = true ∧ s.host.inProg[ref.ring] = some ref
  · exact .inl (complete_inProg ends.1 ends.2 st res)
  · refine .inr ?_
    unfold State.complete
    dsimp only
    rw [if_neg ends]

theorem complete_follows (s : State) (ref : CmdRef) (st : BitVec 16) (res : List Byte) (k : RingId) :
    s.Follows (s.complete ref st res) k := by
  refine ⟨complete_out s ref st res, fun idle => ?_⟩
  rcases complete_inProg_cases s ref st res with eq | eq <;> rw [eq]
  · rw [getElem_upd, idle]
    exact ite_self none
  · exact idle

theorem completeAll_follows (s : State) (refs : List CmdRef) (st : BitVec 16) (res : List Byte) (k : RingId) :
    s.Follows (s.completeAll refs st res) k :=
  List.foldlRecOn (motive := fun s' : State => s.Follows s' k) refs _ (.refl s k) fun s' h ref _ => h.trans (complete_follows s' ref st res k)

theorem complete_inProg_other (s : State) {ref : CmdRef} {k : RingId} (other : ref.ring ≠ k) (st : BitVec 16) (res : List Byte) :
    (s.complete ref st res).host.inProg[k] = s.host.inProg[k] := by
  rcases complete_inProg_cases s ref st res with eq | eq <;> rw [eq]
  exact getElem_upd_other other

/-- A command that ends together with others has its completion before theirs. -/
theorem completeOpt_completeAll_finishes {s s₁ : State} {x : Option CmdRef} {ref : CmdRef} (awaited : x = some ref)
    (same : s₁.host.EndsAs s.host ref.ring) (out : s.out <+: s₁.out) (refs : List CmdRef) (st : BitVec 16) (res : List Byte) :
    Finishes s ((s₁.completeOpt x st res).completeAll refs st res) ref st res := by
  rw [awaited]
  exact ((complete_finishes s₁ ref st res).of_endsAs same out).followed (completeAll_follows _ refs st res ref.ring)

/-! ### Messages about swaps (R233, R381) -/

/-- What a SWAP message carries: its code, a base tick and a configuration ID (R233). -/
def swapMessage (code tick id : Nat) : List Byte := toLe 1 code ++ toLe 6 tick ++ toLe 4 id

theorem swapMessage_fields (code tick id : Nat) : u8 (swapMessage code tick id) 0 = code % 256 ∧
    u48 (swapMessage code tick id) 1 = tick % 2 ^ 48 ∧ u32 (swapMessage code tick id) 7 = id % 2 ^ 32 := by
  have six : 256 ^ 6 = 2 ^ 48 := by decide
  have four : 256 ^ 4 = 2 ^ 32 := by decide
  simp [swapMessage, u8_eq_ofLe, u48, u32, six, four, -Nat.reducePow]

/-- A control message: its code, the length of what it carries, what it carries, and padding (R381). -/
def controlBytes (op : Nat) (args : List Byte) : List Byte :=
  toLe 1 op ++ toLe 1 0 ++ toLe 2 args.length ++ args ++ List.replicate ((4 - args.length % 4) % 4) 0

theorem slice_controlBytes (op : Nat) (args : List Byte) {i n : Nat} (inside : i + n ≤ args.length) :
    slice (controlBytes op args) (4 + i) n = slice args i n := by
  unfold controlBytes
  rw [slice_append_left _ _ (by simp; omega), slice_append_right _ _ _ (by simp)]
  simp

theorem controlBytes_code (op : Nat) (args : List Byte) : u8 (controlBytes op args) 0 = op % 256 := by
  simp [controlBytes, u8_eq_ofLe]

/-- A SWAP message as it goes out reads back (R381). -/
theorem controlBytes_swapMessage (code tick id : Nat) : u8 (controlBytes 2 (swapMessage code tick id)) 0 = 2 ∧
    u8 (controlBytes 2 (swapMessage code tick id)) 4 = code % 256 ∧ u48 (controlBytes 2 (swapMessage code tick id)) 5 = tick % 2 ^ 48 ∧
    u32 (controlBytes 2 (swapMessage code tick id)) 11 = id % 2 ^ 32 := by
  obtain ⟨hcode, htick, hid⟩ := swapMessage_fields code tick id
  have length : (swapMessage code tick id).length = 11 := by simp [swapMessage]
  rw [u8_eq_ofLe] at hcode
  refine ⟨controlBytes_code .., ?_, (congrArg ofLe (slice_controlBytes 2 _ (i := 1) (by omega))).trans htick,
    (congrArg ofLe (slice_controlBytes 2 _ (i := 7) (by omega))).trans hid⟩
  rw [u8_eq_ofLe]
  exact (congrArg ofLe (slice_controlBytes 2 _ (i := 0) (by omega))).trans hcode

/-- A control message goes out while the road is up, and nothing else happens (R375, R381). -/
theorem sendControl_alone (s : State) (op : Nat) (args : List Byte) :
    s.sendControl op args = { s with out := (s.sendControl op args).out } := by
  unfold State.sendControl State.sendFrame
  split <;> rfl

theorem sendControl_out (s : State) (op : Nat) (args : List Byte) : s.out <+: (s.sendControl op args).out := by
  unfold State.sendControl State.sendFrame
  split
  · exact List.prefix_append ..
  · exact List.prefix_rfl

/-- While the road is up a message about a swap goes out, and its fields read back (R233, R381). -/
theorem swapMessage_sent {s s₁ : State} (link : s₁.pair.link = true) (out : s.out <+: s₁.out) (code tick id : Nat) :
    ∃ b, Out.frame 5 b ∈ (s₁.sendControl 2 (swapMessage code tick id)).out.drop s.out.length ∧ u8 b 0 = 2 ∧ u8 b 4 = code % 256 ∧
      u48 b 5 = tick % 2 ^ 48 ∧ u32 b 11 = id % 2 ^ 32 := by
  refine ⟨controlBytes 2 (swapMessage code tick id), ?_, controlBytes_swapMessage code tick id⟩
  obtain ⟨sent, out⟩ := out
  rw [show s₁.sendControl 2 (swapMessage code tick id) = s₁.emit (.frame 5 (controlBytes 2 (swapMessage code tick id))) from
    sendFrame_linked link .., State.emit, ← out, List.append_assoc, List.drop_left]
  exact List.mem_append_right _ (List.mem_singleton_self _)

end Sys2Proof.Machine
end

section
/-! PROOFS. A swap over a pair: proposal, confirmation, time-out (R233, R393). -/

namespace Sys2Proof.Machine

/-! ### A swap given up (R233) -/

/-- The state to which a swap returns that is given up before its tick. -/
def SwapSt.former : SwapSt → SwapSt
  | .pendSwitch => .staged
  | .pendRollback | .releasing => .trial
  | x => x

/-- The swap stands in its former state, and no command awaits it. -/
def State.swapBack (s : State) : State := { s with edits := { s.edits with swap := s.edits.swap.former, ref := none, also := [] } }

theorem abandonSwap_eq (s : State) (st : BitVec 16) :
    s.abandonSwap st = (s.swapBack.completeOpt s.edits.ref st []).completeAll s.edits.also st [] := by
  unfold State.abandonSwap State.swapBack SwapSt.former
  rfl

theorem abandonSwap_unreported (s : State) (st : BitVec 16) : (s.abandonSwap st).unreported = s.swapBack.unreported := by
  rw [abandonSwap_eq, completeAll_unreported, completeOpt_unreported]

theorem abandonSwap_edits (s : State) (st : BitVec 16) :
    (s.abandonSwap st).edits = { s.edits with swap := s.edits.swap.former, ref := none, also := [] } :=
  (congrArg State.edits (abandonSwap_unreported s st) :)

theorem abandonSwap_lanesKept (s : State) (st : BitVec 16) : LanesKept s (s.abandonSwap st) :=
  have same := abandonSwap_unreported s st
  ⟨(congrArg State.rooms same :), (congrArg State.dmem same :), (congrArg State.img same :)⟩

/-- The command of a swap that is given up ends with the status. -/
theorem abandonSwap_finishes {s s₁ : State} {ref : CmdRef} (same : s₁.host.EndsAs s.host ref.ring) (out : s.out <+: s₁.out)
    (awaited : s₁.edits.ref = some ref) (st : BitVec 16) : Finishes s (s₁.abandonSwap st) ref st [] := by
  rw [abandonSwap_eq]
  exact completeOpt_completeAll_finishes (s₁ := s₁.swapBack) awaited same out s₁.edits.also st []

theorem abandonSwap_at_finishes (s : State) (t : Nat) (st : BitVec 16) (ref : CmdRef) (awaited : s.edits.ref = some ref) :
    Finishes s ((s.at t).abandonSwap st) ref st [] :=
  abandonSwap_finishes (s₁ := s.at t) (.of_eq rfl _) List.prefix_rfl awaited st

/-! ### A message received (R233; log entry 45) -/

section
variable {s : State} {n : Conf} (new : s.edits.new = some n) {code tick : Nat} (short : tick < 2 ^ 48) (id : Word)
include new short

/-- A message as it is read: code, tick, and whether it names the module's own swap. -/
theorem swapMessage_read (byte : code < 256) : u8 (swapMessage code tick id.toNat) 0 = code ∧ u48 (swapMessage code tick id.toNat) 1 = tick ∧
    (s.edits.new.isSome && u32 (swapMessage code tick id.toNat) 7 == swapId s.edits.new) = decide (id = n.way.crc) := by
  obtain ⟨hcode, htick, hid⟩ := swapMessage_fields code tick id.toNat
  rw [hcode, htick, hid, Nat.mod_eq_of_lt byte, Nat.mod_eq_of_lt short, Nat.mod_eq_of_lt id.isLt, new, Bool.eq_iff_iff]
  simp [swapId, BitVec.toNat_inj]

theorem exec_swap_relief (byte : code < 256) (steward : s.steward = true) (t : Nat) (role : s.pair.role = 2) :
    exec (.swap t (swapMessage code tick id.toNat)) s = .next
    (if id ≠ n.way.crc ∧ (code = 0 ∨ code = 2 ∨ code = 3) then (s.at t).refuseSwap tick
    else if tick < s.cycle + 20 then s.at t
    else if code = 0 ∧ s.edits.swap = .staged then (s.at t).acceptSwap .pendSwitch tick
    else if code = 2 ∧ s.edits.onTrial = true then (s.at t).acceptSwap .pendRollback tick
    else if code = 3 ∧ s.edits.swap = .trial then (s.at t).acceptSwap .releasing tick
    else s.at t) := by
  obtain ⟨hcode, htick, hid⟩ := swapMessage_read new short id byte
  change execSwap t _ s = _
  unfold execSwap
  simp only [State.at_edits, State.at_pair, State.at_cycle, State.at_steward, steward, role, hcode, htick, hid, Bool.true_eq_false, if_false,
    if_true, decide_eq_false_iff_not, ← apply_ite Host.Outcome.next, ne_eq]

theorem exec_swap_primary (steward : s.steward = true) (t : Nat) (role : s.pair.role = 1) (pending : s.edits.swap = .pendSwitch)
    (unconfirmed : s.edits.confirmed = false) (same : s.edits.tick = tick) : exec (.swap t (swapMessage 1 tick id.toNat)) s = .next
    (if id = n.way.crc then { s.at t with edits := { s.edits with confirmed := true } } else (s.at t).abandonSwap 0x0702) := by
  obtain ⟨hcode, htick, hid⟩ := swapMessage_read new (code := 1) short id (by decide)
  change execSwap t _ s = _
  unfold execSwap
  simp [steward, role, hcode, htick, hid, pending, unconfirmed, same, Edits.pending]

end

theorem acceptSwap_edits (s : State) (st : SwapSt) (tick : Nat) :
    (s.acceptSwap st tick).edits = { s.edits with swap := st, tick := tick, ref := none, confirmed := true } := by
  unfold State.acceptSwap
  rw [sendControl_alone]

theorem acceptSwap_lanesKept (s : State) (st : SwapSt) (tick : Nat) : LanesKept s (s.acceptSwap st tick) := by
  unfold State.acceptSwap
  rw [sendControl_alone]
  exact ⟨rfl, rfl, rfl⟩

theorem refuseSwap_alone (s : State) (tick : Nat) : s.refuseSwap tick = { s with out := (s.refuseSwap tick).out } := sendControl_alone ..

/-! ### No confirmation in time (R233, R393) -/

/-- Twenty base ticks before its tick a swap that awaits its confirmation is given up. -/
theorem exec_confirmTimeout {s : State} (unplanned : s.pair.reqSwitch = none) (unconfirmed : s.edits.confirmed = false) (t : Nat) :
    exec (.confirmTimeout t) s = .next (if (s.edits.pending || s.edits.swap == .releasing) = true ∧ s.edits.tick ≤ s.cycle + 20 then
      (s.at t).abandonSwap 0x0703 else s.at t) := by
  change execConfirmTimeout t s = _
  unfold execConfirmTimeout
  simp only [State.at_edits, State.at_cycle, unconfirmed, true_and]
  have idle (p : Prop) [Decidable p] : (if p then (s.at t).abandonSwap 0x0703 else s.at t).pair.reqSwitch = none := by
    split <;> simp [unplanned]
  rw [idle]

/-- Settles O39: a message received either is answered, taken over or confirms, by its code and the swap it names; a swap given up returns to
its former state. -/
theorem swapExchange : Obligations.SwapExchange := by
  intro s t tick n steward short new
  refine ⟨fun role other differs => ?other, fun role late => ?late,
    fun role early => ⟨fun staged => ?switch, fun trial => ?rollback, fun trial => ?release⟩,
    fun role pending unconfirmed same => ⟨?confirmed, fun other differs => ?differs⟩,
    fun unplanned unconfirmed => ⟨fun pending late => ?switchLate, fun releasing late => ?releaseLate, fun early => ?early⟩⟩
  case other =>
    have run := exec_swap_relief new (code := 0) short other (by decide) steward t role
    rw [if_pos ⟨differs, .inl rfl⟩] at run
    refine ⟨_, run, ?_, ?_, fun link => ?_⟩
    · rw [refuseSwap_alone]
      rfl
    · rw [refuseSwap_alone]
      exact ⟨rfl, rfl, rfl⟩
    · obtain ⟨b, sent, op, code, tick', id⟩ := swapMessage_sent (s := s) (s₁ := s.at t) link List.prefix_rfl 1 tick (swapId s.edits.new)
      refine ⟨b, sent, op, code, tick'.trans (Nat.mod_eq_of_lt short), id.trans ?_⟩
      rw [new]
      exact Nat.mod_eq_of_lt n.way.crc.isLt
  case late =>
    have run := exec_swap_relief new (code := 0) short n.way.crc (by decide) steward t role
    rw [if_neg (by simp), if_pos late] at run
    exact ⟨_, run, rfl⟩
  case switch =>
    have run := exec_swap_relief new (code := 0) short n.way.crc (by decide) steward t role
    rw [if_neg (by simp), if_neg (by omega), if_pos ⟨rfl, staged⟩] at run
    refine ⟨_, run, ?_, ?_, ?_, acceptSwap_lanesKept .., fun link => ?_⟩
    · rw [acceptSwap_edits]
    · rw [acceptSwap_edits]
    · rw [acceptSwap_edits]
    · obtain ⟨b, sent, op, code, tick', -⟩ := swapMessage_sent (s := s)
        (s₁ := { s.at t with edits := { s.edits with swap := .pendSwitch, tick := tick, ref := none, confirmed := true } }) link
        List.prefix_rfl 1 tick (swapId s.edits.new)
      exact ⟨b, sent, op, code, tick'.trans (Nat.mod_eq_of_lt short)⟩
  case rollback =>
    have run := exec_swap_relief new (code := 2) short n.way.crc (by decide) steward t role
    rw [if_neg (by simp), if_neg (by omega), if_neg (by simp), if_pos ⟨rfl, by simp [Edits.onTrial, trial]⟩] at run
    refine ⟨_, run, ?_, ?_, ?_, acceptSwap_lanesKept ..⟩ <;> rw [acceptSwap_edits]
  case release =>
    have run := exec_swap_relief new (code := 3) short n.way.crc (by decide) steward t role
    rw [if_neg (by simp), if_neg (by omega), if_neg (by simp), if_neg (by simp), if_pos ⟨rfl, trial⟩] at run
    refine ⟨_, run, ?_, ?_, acceptSwap_lanesKept ..⟩ <;> rw [acceptSwap_edits]
  case confirmed =>
    have run := exec_swap_primary new short n.way.crc steward t role pending unconfirmed same
    rw [if_pos rfl] at run
    exact ⟨_, run, rfl⟩
  case differs =>
    have run := exec_swap_primary new short other steward t role pending unconfirmed same
    rw [if_neg differs] at run
    refine ⟨_, run, ?_, ?_, abandonSwap_at_finishes s t 0x0702⟩ <;> rw [abandonSwap_edits]
    exact congrArg SwapSt.former pending
  case switchLate =>
    have run := exec_confirmTimeout unplanned unconfirmed t
    rw [if_pos ⟨by simp [Edits.pending, pending], late⟩] at run
    refine ⟨_, run, ?_, ?_, abandonSwap_lanesKept .., abandonSwap_at_finishes s t 0x0703⟩ <;> rw [abandonSwap_edits]
    · exact congrArg SwapSt.former pending
    · rfl
  case releaseLate =>
    have run := exec_confirmTimeout unplanned unconfirmed t
    rw [if_pos ⟨by simp [releasing], late⟩] at run
    refine ⟨_, run, ?_, abandonSwap_at_finishes s t 0x0703⟩
    rw [abandonSwap_edits]
    exact congrArg SwapSt.former releasing
  case early =>
    have run := exec_confirmTimeout unplanned unconfirmed t
    rw [if_neg (by omega)] at run
    exact ⟨_, run, rfl⟩

end Sys2Proof.Machine
end

section
/-! PROOFS. SWAP COMMIT, RELEASE and ROLLBACK: acceptance and refusals (R225, R228 to R230, R233). -/

namespace Sys2Proof.Machine

/-! ### Releases from a base tick on (R164, R225) -/

theorem le_ceilDiv_mul (a : Nat) {k : Nat} (pos : 0 < k) : a ≤ ceilDiv a k * k := by
  have step := Nat.div_add_mod (a + k - 1) k
  have small := Nat.mod_lt (a + k - 1) pos
  rw [Nat.mul_comm] at step
  unfold ceilDiv
  omega

/-- The first multiple of a period from a start on that is not before n. -/
theorem le_periodFrom (start n : Nat) {k : Nat} (pos : 0 < k) : n ≤ start + ceilDiv (n - start) k * k := by
  have := le_ceilDiv_mul (n - start) pos
  omega

theorem le_commonRelease (s : State) (c : Option Conf) (n : Nat) : n ≤ s.commonRelease c n := le_periodFrom _ _ (by omega)

/-! ### A switch, rollback or release begins (R233) -/

@[simp] theorem taken_isRelief (s : State) (t : Nat) (c : RingId) (e : CmdEntry) (op : Nat) : (s.taken t c e op).isRelief = s.isRelief := rfl
@[simp] theorem taken_leads (s : State) (t : Nat) (c : RingId) (e : CmdEntry) (op : Nat) : (s.taken t c e op).leads = s.leads := rfl
@[simp] theorem taken_reliefDiffers (s : State) (t : Nat) (c : RingId) (e : CmdEntry) (op code : Nat) :
    (s.taken t c e op).reliefDiffers code = s.reliefDiffers code := rfl

theorem taken_out (s : State) (t : Nat) (c : RingId) (e : CmdEntry) (op : Nat) : s.out <+: (s.taken t c e op).out := List.prefix_append ..

/-- A relief in step that holds the swap in the state that a command needs does not stand in its way (R233). -/
theorem reliefDiffers_eq_false {s : State} {code : Nat} {x : BitVec 2} (code_eq : x.toNat = code)
    (agrees : s.reliefInStep = true → s.pair.partner.swap = x) : s.reliefDiffers code = false := by
  unfold State.reliefDiffers
  cases inStep : s.reliefInStep
  · rfl
  · simp [agrees inStep, code_eq]

theorem reliefInStep_of_pair {s s' : State} (same : s'.pair = s.pair) : s'.reliefInStep = s.reliefInStep := by
  unfold State.reliefInStep
  rw [same]

theorem link_of_reliefInStep {s : State} (inStep : s.reliefInStep = true) : s.pair.link = true := by
  simp only [State.reliefInStep, Bool.and_eq_true] at inStep
  exact inStep.1.1.2

/-- A switch, rollback or release stands with the edits; without a relief in step it needs no confirmation. -/
def State.awaitSwap (s : State) (ref : CmdRef) (st : SwapSt) (tick : Nat) : State :=
  { s with edits := { s.edits with swap := st, tick := tick, ref := some ref, confirmed := !s.reliefInStep } }

/-- A swap that begins is proposed to a relief in step; a primary that goes on alone records it. -/
theorem beginSwap_eq (s : State) (ref : CmdRef) (st : SwapSt) (code tick : Nat) : s.beginSwap ref st code tick =
    if s.reliefInStep then (s.awaitSwap ref st tick).sendControl 2 (swapMessage code tick (swapId s.edits.new))
    else if s.pair.role = 1 then (s.awaitSwap ref st tick).gbEvent 0x22 0 sevNotice [BitVec.ofNat 32 (swapId s.edits.new)]
    else s.awaitSwap ref st tick := by
  unfold State.beginSwap State.awaitSwap
  cases s.reliefInStep <;> rfl

theorem beginSwap_alone (s : State) (ref : CmdRef) (st : SwapSt) (code tick : Nat) : s.beginSwap ref st code tick =
    { s.awaitSwap ref st tick with gb := (s.beginSwap ref st code tick).gb, out := (s.beginSwap ref st code tick).out } := by
  rw [beginSwap_eq]
  split
  · rw [sendControl_alone]
  · split
    · rw [gbEvent_alone]
    · rfl

theorem beginSwap_out (s : State) (ref : CmdRef) (st : SwapSt) (code tick : Nat) : s.out <+: (s.beginSwap ref st code tick).out := by
  rw [beginSwap_eq]
  split
  · exact sendControl_out (s.awaitSwap ref st tick) ..
  · split
    · rw [gbEvent_alone]
      exact List.prefix_rfl
    · exact List.prefix_rfl

theorem beginSwap_host (s : State) (ref : CmdRef) (st : SwapSt) (code tick : Nat) : (s.beginSwap ref st code tick).host = s.host := by
  rw [beginSwap_alone]
  rfl

theorem beginSwap_follows (s : State) (ref : CmdRef) (st : SwapSt) (code tick : Nat) (k : RingId) :
    s.Follows (s.beginSwap ref st code tick) k := ⟨beginSwap_out .., fun idle => by rwa [beginSwap_host]⟩

/-- What a relief in step is proposed reads back. -/
theorem beginSwap_proposes {s s₁ : State} (inStep : s₁.reliefInStep = true) (out : s.out <+: s₁.out) (ref : CmdRef) (st : SwapSt)
    (code tick : Nat) : ∃ b, Out.frame 5 b ∈ (s₁.beginSwap ref st code tick).out.drop s.out.length ∧ u8 b 0 = 2 ∧ u8 b 4 = code % 256 ∧
      u48 b 5 = tick % 2 ^ 48 ∧ u32 b 11 = swapId s₁.edits.new % 2 ^ 32 := by
  rw [beginSwap_eq, if_pos inStep]
  exact swapMessage_sent (s₁ := s₁.awaitSwap ref st tick) (link_of_reliefInStep inStep) out code tick (swapId s₁.edits.new)

/-- From s, whose command has been taken at s₁, a swap has begun at s': it stands with the edits, and nothing that runs has changed. -/
structure SwapBegun (s s₁ s' : State) (c : RingId) (e : CmdEntry) (op : Nat) (st : SwapSt) (tick : Nat) : Prop where
  awaits : Awaits s s' c e op
  swap : s'.edits.swap = st
  new : s'.edits.new = s₁.edits.new
  old : s'.edits.old = s₁.edits.old
  tick : s'.edits.tick = tick
  confirmed : s'.edits.confirmed = !s₁.reliefInStep
  ref : s'.edits.ref = s'.host.inProg[c]
  app : s'.app = s₁.app
  kept : LanesKept s₁ s'

theorem beginSwap_begins {s s₁ : State} {c : RingId} {e : CmdEntry} {op : Nat} (awaits : Awaits s s₁ c e op) (st : SwapSt) (code tick : Nat) :
    SwapBegun s s₁ (s₁.beginSwap (s.refOf c e op) st code tick) c e op st tick := by
  obtain ⟨inProg, head⟩ := awaits
  rw [beginSwap_alone]
  exact ⟨⟨inProg, head⟩, rfl, rfl, rfl, rfl, rfl, inProg.symm, rfl, rfl, rfl, rfl⟩

/-! ### The commands -/

section
variable {s : State} {t : Nat} {c : RingId} {e : CmdEntry} (can : s.CanAnswer c)
include can

theorem exec_swapCommit (form : e.formOk 1 [] = true) (staged : s.edits.swap = .staged) (running : s.app.running = true)
    (leads : s.isRelief = false) (agrees : s.reliefDiffers 1 = false) : exec (.swapCommit t c e) s =
      .next ((s.taken t c e 0x22).beginSwap (s.refOf c e 0x22) .pendSwitch 0 (s.commonRelease s.edits.new (s.cycle + 40))) := by
  obtain ⟨begins, power, -⟩ := can
  refine congrArg Host.Outcome.next (command_passes begins power ?_)
  simp [Passes, form, staged, running, leads, Edits.pending, agrees]

/-- On trial a release passes its checks. -/
theorem exec_swapRelease (form : e.formOk 1 [] = true) (trial : s.edits.swap = .trial ∨ s.edits.swap = .releasing)
    (leads : s.isRelief = false) (agrees : s.reliefDiffers 2 = false) : exec (.swapRelease t c e) s = .next
      (if s.edits.swap = .releasing then { s.taken t c e 0x22 with edits := { s.edits with also := s.edits.also ++ [s.refOf c e 0x22] } }
      else (s.taken t c e 0x22).beginSwap (s.refOf c e 0x22) .releasing 3 (s.cycle + 40)) := by
  obtain ⟨begins, power, -⟩ := can
  refine congrArg Host.Outcome.next (command_passes begins power ?_)
  rcases trial with trial | trial <;>
    simp [Passes, form, trial, leads, Edits.pending, Edits.onTrial, agrees]

theorem exec_swapRollback (form : e.formOk 0 [] = true) (trial : s.edits.swap = .trial ∨ s.edits.swap = .releasing)
    (leads : s.isRelief = false) (agrees : s.reliefDiffers 2 = false) : exec (.swapRollback t c e) s = .next
      ((s.taken t c e 0x23).dropRelease.beginSwap (s.refOf c e 0x23) .pendRollback 2 (s.commonRelease s.app.cur (s.cycle + 40))) := by
  obtain ⟨begins, power, -⟩ := can
  refine congrArg Host.Outcome.next (command_passes begins power ?_)
  rcases trial with trial | trial <;>
    simp [Passes, form, trial, leads, Edits.pending, Edits.onTrial, agrees]

end

/-! ### A release given up (R229; log entry 44) -/

theorem dropRelease_eq (s : State) : s.dropRelease = if s.edits.swap = .releasing then s.abandonSwap 0x0224 else s := by
  unfold State.dropRelease
  split
  next releasing =>
    rw [abandonSwap_eq, State.swapBack, releasing]
    rfl
  · rfl

theorem dropRelease_kept (s : State) : s.dropRelease.app = s.app ∧ s.dropRelease.pair = s.pair ∧ s.dropRelease.edits.old = s.edits.old ∧
    LanesKept s s.dropRelease := by
  rw [dropRelease_eq]
  split
  · have same := abandonSwap_unreported s 0x0224
    exact ⟨(congrArg State.app same :), (congrArg State.pair same :), (congrArg (fun s => s.edits.old) same :), abandonSwap_lanesKept s _⟩
  · exact ⟨rfl, rfl, rfl, rfl, rfl, rfl⟩

theorem taken_endsAs (s : State) (t : Nat) {c : RingId} (e : CmdEntry) (op : Nat) {k : RingId} (other : k ≠ c) :
    (s.taken t c e op).host.EndsAs s.host k :=
  ⟨rfl, rfl, Vector.getElem_set_ne c.isLt k.isLt fun same => other (Fin.ext same.symm), rfl, rfl, rfl, fun _ _ => rfl⟩

/-- A command in progress goes on while those of other rings end. -/
theorem Awaits.complete {s s₁ : State} {c : RingId} {e : CmdEntry} {op : Nat} (awaits : Awaits s s₁ c e op) {ref : CmdRef}
    (other : ref.ring ≠ c) (st : BitVec 16) (res : List Byte) : Awaits s (s₁.complete ref st res) c e op := by
  rw [Awaits, complete_cmdHead, complete_inProg_other s₁ other]
  exact awaits

theorem Awaits.abandonSwap {s s₁ : State} {c : RingId} {e : CmdEntry} {op : Nat} (awaits : Awaits s s₁ c e op)
    (others : ∀ ref, s₁.edits.ref = some ref ∨ ref ∈ s₁.edits.also → ref.ring ≠ c) (st : BitVec 16) :
    Awaits s (s₁.abandonSwap st) c e op := by
  rw [abandonSwap_eq]
  refine List.foldlRecOn (motive := fun s' => Awaits s s' c e op) s₁.edits.also _ ?_ fun s' h ref also => h.complete (others ref (.inr also)) st []
  cases own : s₁.edits.ref with
  | none => exact awaits
  | some ref => exact Awaits.complete (s₁ := s₁.swapBack) awaits (others ref (.inl own)) st []

theorem Awaits.dropRelease {s s₁ : State} {c : RingId} {e : CmdEntry} {op : Nat} (awaits : Awaits s s₁ c e op)
    (others : ∀ ref, s₁.edits.ref = some ref ∨ ref ∈ s₁.edits.also → ref.ring ≠ c) : Awaits s s₁.dropRelease c e op := by
  rw [dropRelease_eq]
  split
  · exact awaits.abandonSwap others _
  · exact awaits

/-- Settles O37: the first check that fails answers; a command that passes begins a switch, rollback or release, which a relief in step is
proposed, or joins the release in progress. -/
theorem swapCommands : Obligations.SwapCommands := by
  intro s t c e can
  refine ⟨fun form => ⟨fun pending => ?pending, fun unstaged => ?unstaged, fun staged relief => ?relief,
    fun staged running leads agrees => ?commit, fun trial leads agrees => ?release, fun releasing leads agrees => ?joins, fun untried => ?untried⟩,
    fun form => ⟨fun trial leads agrees others => ?rollback, fun untried => ?stable⟩⟩
  case pending =>
    obtain ⟨s', run, answers, same⟩ := exec_refused (i := .swapCommit t c e) (st := 0x0227) can rfl
      (by rcases pending with h | h <;> simp [firstFail, form, h, Edits.pending])
    exact ⟨s', run, answers, (congrArg State.edits same :)⟩
  case unstaged =>
    obtain ⟨s', run, answers, same⟩ := exec_refused (i := .swapCommit t c e) (st := 0x0223) can rfl
      (by rcases unstaged with h | h | h <;> simp [firstFail, form, h, Edits.pending])
    exact ⟨s', run, answers, (congrArg State.edits same :)⟩
  case relief =>
    obtain ⟨s', run, answers, same⟩ := exec_refused (i := .swapCommit t c e) (st := 0x0701) can rfl
      (by simp [firstFail, form, staged, relief, Edits.pending, State.leads])
    exact ⟨s', run, answers, (congrArg State.edits same :)⟩
  case commit =>
    have run := exec_swapCommit (t := t) can form staged running leads (reliefDiffers_eq_false rfl agrees)
    have begun := beginSwap_begins (taken_awaits (s₁ := s.taken t c e 0x22) rfl) .pendSwitch 0 (s.commonRelease s.edits.new (s.cycle + 40))
    refine ⟨_, run, begun.awaits, begun.swap, begun.new, (le_commonRelease ..).trans_eq begun.tick.symm, begun.tick, begun.confirmed, begun.ref, begun.app,
      begun.kept, fun inStep => ?_⟩
    obtain ⟨b, sent, op, code, tick, -⟩ := beginSwap_proposes (s := s) (s₁ := s.taken t c e 0x22) inStep (taken_out ..)
      (s.refOf c e 0x22) .pendSwitch 0 (s.commonRelease s.edits.new (s.cycle + 40))
    exact ⟨b, sent, op, code, by rw [begun.tick, tick]⟩
  case release =>
    have run := exec_swapRelease (t := t) can form (.inl trial) leads (reliefDiffers_eq_false rfl agrees)
    rw [if_neg (by simp [trial])] at run
    have begun := beginSwap_begins (taken_awaits (s₁ := s.taken t c e 0x22) rfl) .releasing 3 (s.cycle + 40)
    exact ⟨_, run, begun.awaits, begun.swap, begun.tick, begun.confirmed, begun.ref, begun.app, begun.kept⟩
  case joins =>
    have run := exec_swapRelease (t := t) can form (.inr releasing) leads (reliefDiffers_eq_false rfl agrees)
    rw [if_pos releasing] at run
    exact ⟨_, s.refOf c e 0x22, run, taken_awaits (t := t) rfl, Vector.getElem_set_self .., rfl, rfl, rfl, rfl, rfl⟩
  case untried =>
    obtain ⟨s', run, answers, same⟩ := exec_refused (i := .swapRelease t c e) (st := 0x0224) can rfl
      (by rcases untried with h | h <;> simp [firstFail, form, h, Edits.pending, Edits.onTrial])
    exact ⟨s', run, answers, (congrArg State.edits same :)⟩
  case rollback =>
    have run := exec_swapRollback (t := t) can form trial leads (reliefDiffers_eq_false rfl agrees)
    obtain ⟨app, pair, old, kept⟩ := dropRelease_kept (s.taken t c e 0x23)
    have begun := beginSwap_begins ((taken_awaits (s₁ := s.taken t c e 0x23) rfl).dropRelease others) .pendRollback 2
      (s.commonRelease s.app.cur (s.cycle + 40))
    refine ⟨_, run, begun.awaits, begun.swap, begun.old.trans old, (le_commonRelease ..).trans_eq begun.tick.symm, begun.tick,
      begun.confirmed.trans (congrArg not (reliefInStep_of_pair pair)), begun.ref, begun.app.trans app, LanesKept.trans kept begun.kept,
      fun releasing ref awaited => ?_⟩
    have finishes : Finishes s (s.taken t c e 0x23).dropRelease ref 0x0224 [] := by
      rw [dropRelease_eq, if_pos (by exact releasing)]
      exact abandonSwap_finishes (taken_endsAs s t e 0x23 (others ref (.inl awaited))) (taken_out ..) awaited _
    exact finishes.followed (beginSwap_follows ..)
  case stable =>
    obtain ⟨s', run, answers, same⟩ := exec_refused (i := .swapRollback t c e) (st := 0x0224) can rfl
      (by rcases untried with h | h <;> simp [firstFail, form, h, Edits.pending, Edits.onTrial])
    exact ⟨s', run, answers, (congrArg State.edits same :)⟩

end Sys2Proof.Machine
end

section
/-! PROOFS. Value edits, variable writes and reads: acceptance and refusals (R211 to R215, R357, R358). -/

namespace Sys2Proof.Machine

/-! ### The tick of a batch or read (R215) -/

theorem le_findTe (s : State) (k n te : Nat) : te ≤ s.findTe k n te := by
  induction n generalizing te with
  | zero => exact le_rfl
  | succ n ih =>
    unfold State.findTe
    split
    · exact le_rfl
    · exact (Nat.le_add_right te k).trans (ih _)

theorem le_chooseTe (s : State) (i : Nat) : s.cycle + 4 ≤ s.chooseTe i := (le_periodFrom _ _ (by omega)).trans (le_findTe ..)

theorem le_of_teAllowed {s : State} {i te : Nat} (allowed : s.teAllowed i te = true) : s.cycle + 4 ≤ te := by
  simp only [State.teAllowed, Bool.and_eq_true, decide_eq_true_eq] at allowed
  exact allowed.1.1.2

/-! ### A batch accepted (R215) -/

/-- The batch that bytes stand for. -/
def State.batchOf (s : State) (ref : Option CmdRef) (task te : Nat) (bs : List Byte) : Batch :=
  let es := (batchEntries bs.length bs).getD []
  { task := task, te := te, entries := es.length, writes := (s.entryWrites es).getD [], ref := ref }

/-- A batch waits with the others for its release. -/
def State.queueBatch (s : State) (b : Batch) : State :=
  { s with edits := { s.edits with
    batches := s.edits.batches ++ [b]
    lastTe := b.te :: s.edits.lastTe.filter (fun x => decide (s.cycle < x + 64)) } }

theorem acceptBatch_alone (s : State) (ref : Option CmdRef) (task te : Nat) (bs : List Byte) : s.acceptBatch ref task te bs =
    { s.queueBatch (s.batchOf ref task te bs) with out := (s.acceptBatch ref task te bs).out } := by
  unfold State.acceptBatch
  dsimp only
  split
  · rw [sendControl_alone]
    rfl
  · rfl

/-- From s, whose command has been taken at s₁, a batch has been accepted at s': it awaits its release, and nothing that runs has changed. -/
structure BatchAccepted (s s₁ s' : State) (c : RingId) (e : CmdEntry) (op : Nat) (b : Batch) : Prop where
  awaits : Awaits s s' c e op
  batches : s'.edits.batches = s₁.edits.batches ++ [b]
  ref : b.ref = s'.host.inProg[c]
  kept : LanesKept s₁ s'
  reads : s'.edits.reads = s₁.edits.reads
  swap : s'.edits.swap = s₁.edits.swap

theorem acceptBatch_accepted {s s₁ : State} {c : RingId} {e : CmdEntry} {op : Nat} (awaits : Awaits s s₁ c e op) (task te : Nat) (bs : List Byte) :
    BatchAccepted s s₁ (s₁.acceptBatch (some (s.refOf c e op)) task te bs) c e op (s₁.batchOf (some (s.refOf c e op)) task te bs) := by
  obtain ⟨inProg, head⟩ := awaits
  rw [acceptBatch_alone]
  exact ⟨⟨inProg, head⟩, rfl, inProg.symm, ⟨rfl, rfl, rfl⟩, rfl, rfl⟩

/-- The entries of a batch that passes its checks lie in their variables. -/
theorem entryWrites_of_batchStatus {s : State} {task : Nat} {es : List (Nat × Nat × List Byte)} (passes : s.batchStatus task (some es) = 0) :
    ∃ ws, s.entryWrites es = some ws := by
  cases writes : s.entryWrites es with
  | some ws => exact ⟨ws, rfl⟩
  | none => simp [State.batchStatus, writes] at passes

theorem batchOf_writes {s : State} {task : Nat} {bs : List Byte} {es : List (Nat × Nat × List Byte)} (entries : batchEntries bs.length bs = some es)
    (passes : s.batchStatus task (some es) = 0) (ref : Option CmdRef) (te : Nat) :
    some (s.batchOf ref task te bs).writes = s.entryWrites es := by
  obtain ⟨ws, writes⟩ := entryWrites_of_batchStatus passes
  simp [State.batchOf, entries, writes]

/-! ### The checks (R214, R348) -/

theorem Passes.append {ks ls : List Check} (h : Passes ks) (h' : Passes ls) : Passes (ks ++ ls) := fun k mem =>
  (List.mem_append.mp mem).elim (h k) (h' k)

theorem firstFail_append {ks : List Check} (passes : Passes ks) (ls : List Check) : firstFail (ks ++ ls) = firstFail ls := by
  rw [firstFail_eq_find?, firstFail_eq_find?, List.find?_append, List.find?_eq_none.mpr fun k mem => by simp [passes k mem], Option.none_or]

section
variable {s : State} {task : Nat} (running : s.app.running = true) (unchanged : s.swapChanges task = false)
include running unchanged

theorem editChecks_passes (free : ∀ b ∈ s.edits.batches, b.task ≠ task) (leads : s.isRelief = false) : Passes (s.editChecks task) := by
  simp only [Passes, State.editChecks, running, unchanged, leads]
  simpa using free

/-- One batch for each task (R214). -/
theorem editChecks_occupied (occupied : ∃ b ∈ s.edits.batches, b.task = task) (ls : List Check) :
    firstFail (s.editChecks task ++ ls) = some 0x0221 := by
  simp [State.editChecks, firstFail, running, unchanged, occupied]

theorem editChecks_relief (free : ∀ b ∈ s.edits.batches, b.task ≠ task) (relief : s.isRelief = true) (ls : List Check) :
    firstFail (s.editChecks task ++ ls) = some 0x0701 := by
  have none : ¬ ∃ b ∈ s.edits.batches, b.task = task := fun ⟨b, mem, same⟩ => free b mem same
  simp [State.editChecks, firstFail, running, unchanged, relief, none]

end

/-! ### A value edit (R214, R215) -/

section
variable {s : State} {t : Nat} {c : RingId} {e : CmdEntry} {bs : List Byte}

theorem editFormChecks_passes (form : e.formOk 0 [(4, 12)] = true) (long : 12 ≤ e.h 6) (short : e.h 6 ≤ 256) (words : e.h 6 % 4 = 0)
    (task : e.h 4 < s.taskCount) (aligned : e.q 8 % 8 = 0) : Passes (editFormChecks e s) := by
  simp [Passes, editFormChecks, form, long, short, words, task, aligned]

@[simp] theorem taken_batchStatus (s : State) (t : Nat) (c : RingId) (e : CmdEntry) (op task : Nat)
    (es : Option (List (Nat × Nat × List Byte))) : (s.taken t c e op).batchStatus task es = s.batchStatus task es := rfl

theorem taken_findTe (s : State) (t : Nat) (c : RingId) (e : CmdEntry) (op k n te : Nat) :
    (s.taken t c e op).findTe k n te = s.findTe k n te := by
  induction n generalizing te with
  | zero => rfl
  | succ n ih =>
    rw [State.findTe, State.findTe, ih]
    rfl

@[simp] theorem taken_chooseTe (s : State) (t : Nat) (c : RingId) (e : CmdEntry) (op task : Nat) :
    (s.taken t c e op).chooseTe task = s.chooseTe task := taken_findTe ..

/-- An edit that passes the checks of its state is judged by its bytes, and accepted or answered. -/
theorem exec_valueEdit (can : s.CanAnswer c) (form : Passes (editFormChecks e s)) (state : Passes (s.editChecks (e.h 4))) :
    exec (.valueEdit t c e (some bs)) s = .next
      (if s.batchStatus (e.h 4) (batchEntries (e.h 6) (slice bs 0 (e.h 6))) ≠ 0 then
        (s.taken t c e 0x20).complete (s.refOf c e 0x20)
          (BitVec.ofNat 16 (s.batchStatus (e.h 4) (batchEntries (e.h 6) (slice bs 0 (e.h 6))))) []
      else (s.taken t c e 0x20).acceptBatch (some (s.refOf c e 0x20)) (e.h 4) (s.chooseTe (e.h 4)) (slice bs 0 (e.h 6))) := by
  obtain ⟨begins, power, -⟩ := can
  have passes : Passes (editFormChecks e s ++ s.editChecks (e.h 4) ++ [(false, 0x0105)]) := (form.append state).append (by simp [Passes])
  have length : (slice bs 0 (e.h 6)).length = e.h 6 := length_slice ..
  change execValueEdit t c e (some bs) s = _
  unfold execValueEdit
  dsimp only [Option.getD_some]
  rw [length, command_passes begins power (by exact passes), taken_batchStatus, taken_chooseTe]

theorem valueEdit_refused (can : s.CanAnswer c) (form : Passes (editFormChecks e s)) {st : BitVec 16}
    (fails : firstFail (s.editChecks (e.h 4) ++ [(false, 0x0105)]) = some st) :
    ∃ s', exec (.valueEdit t c e (some bs)) s = .next s' ∧ Answers s s' c e st [] ∧ s'.edits = s.edits := by
  have first : firstFail (editFormChecks e s ++ s.editChecks (e.h 4) ++ [(false, 0x0105)]) = some st := by
    rw [List.append_assoc, firstFail_append form, fails]
  obtain ⟨s', run, answers, same⟩ := exec_refused (i := .valueEdit t c e (some bs)) can rfl first
  exact ⟨s', run, answers, (congrArg State.edits same :)⟩

end

/-! ### A write at release (R358) -/

section
variable {s : State} {t : Nat} {c : RingId} {e : CmdEntry} {v : Var}

@[simp] theorem taken_findVar (s : State) (t : Nat) (c : RingId) (e : CmdEntry) (op id : Nat) : (s.taken t c e op).findVar id = s.findVar id := rfl
@[simp] theorem taken_teAllowed (s : State) (t : Nat) (c : RingId) (e : CmdEntry) (op i te : Nat) :
    (s.taken t c e op).teAllowed i te = s.teAllowed i te := rfl

/-- A write of a variable whose bytes pass waits for the release it names, when that one is allowed, or for one of the module's choice. -/
theorem exec_variableWriteAtRelease (can : s.CanAnswer c) (form : e.formOk 0 [(4, 14), (20, 32)] = true) (nonempty : 1 ≤ e.h 10) (few : e.h 10 ≤ 32)
    (clean : (slice e.body (16 + e.h 10) (32 - e.h 10)).any (· != 0) = false) (var : s.findVar (e.w 4) = some v)
    (state : Passes (s.editChecks v.task)) (bytes : s.batchStatus v.task (batchEntries (oneEntry e).length (oneEntry e)) = 0) :
    exec (.variableWriteAtRelease t c e) s = .next
      (if u48 e.body 8 ≠ 0 ∧ s.teAllowed v.task (u48 e.body 8) = false then (s.taken t c e 0x31).complete (s.refOf c e 0x31) 0x0250 []
      else (s.taken t c e 0x31).acceptBatch (some (s.refOf c e 0x31)) v.task
        (if u48 e.body 8 = 0 then s.chooseTe v.task else u48 e.body 8) (oneEntry e)) := by
  obtain ⟨begins, power, -⟩ := can
  have passes : Passes ([(!e.formOk 0 [(4, 14), (20, 32)] || (slice e.body (16 + e.h 10) (32 - e.h 10)).any (· != 0), (0x0101 : BitVec 16)),
      (decide (e.h 10 < 1) || decide (32 < e.h 10), 0x0103)] ++ s.editChecks (((s.findVar (e.w 4)).map Var.task).getD 0xFFFF)) := by
    refine Passes.append ?_ (by rw [var]; exact state)
    simp only [Passes, form, clean]
    simp [Nat.pos_iff_ne_zero.mp nonempty, few]
  change execVariableWriteAtRelease t c e s = _
  unfold execVariableWriteAtRelease
  dsimp only
  rw [command_passes begins power (by exact passes)]
  simp only [taken_findVar, var, Option.map_some, Option.getD_some, taken_batchStatus, bytes, taken_teAllowed, taken_chooseTe, ne_eq,
    not_true_eq_false, if_false]

end

/-! ### A read (R357) -/

section
variable {s : State} {t : Nat} {c : RingId} {e : CmdEntry} {v : Var}

@[simp] theorem taken_readStatus (s : State) (t : Nat) (c : RingId) (e e' : CmdEntry) (op : Nat) :
    (s.taken t c e op).readStatus e' = s.readStatus e' := rfl

/-- A read waits with the others for its release. -/
def State.queueRead (s : State) (r : VRead) : State :=
  { s with edits := { s.edits with
    reads := s.edits.reads ++ [r]
    lastTe := r.te :: s.edits.lastTe.filter (fun x => decide (s.cycle < x + 64)) } }

/-- The read that a command asks for of a variable (R357). -/
def State.readOf (s : State) (c : RingId) (e : CmdEntry) (v : Var) : VRead :=
  { task := v.task, te := s.chooseTe v.task, addr := s.varAddr v + e.h 8, len := e.h 10, host := e.q 16, ref := some (s.refOf c e 0x30) }

/-- A read of a running application is judged by its variable, and waits or is answered. -/
theorem exec_variableRead (can : s.CanAnswer c) (running : s.app.running = true) (form : e.formOk 0 [(4, 8), (16, 8)] = true)
    (nonempty : 1 ≤ e.h 10) (few : e.h 10 ≤ 32) (aligned : e.q 16 % 8 = 0) : exec (.variableRead t c e) s = .next
      ((s.findVar (e.w 4)).elim ((s.taken t c e 0x30).complete (s.refOf c e 0x30) 0x0121 []) fun v =>
        if s.readStatus e ≠ 0 then (s.taken t c e 0x30).complete (s.refOf c e 0x30) (BitVec.ofNat 16 (s.readStatus e)) []
        else (s.taken t c e 0x30).queueRead (s.readOf c e v)) := by
  obtain ⟨begins, power, -⟩ := can
  change execVariableRead t c e s = _
  unfold execVariableRead
  rw [command_passes begins power (by simp [Passes, form, Nat.pos_iff_ne_zero.mp nonempty, few, aligned, running])]
  simp only [taken_findVar, taken_readStatus, taken_chooseTe]
  cases s.findVar (e.w 4) <;> rfl

/-- A read that reaches beyond its variable answers 0x0120 (R357). -/
theorem readStatus_beyond (var : s.findVar (e.w 4) = some v) (beyond : v.size < e.h 8 + e.h 10) : s.readStatus e = 0x0120 := by
  unfold State.readStatus
  rw [var]
  exact if_pos (.inl beyond)

end

/-! ### Acceptance -/

/-- What is answered at once leaves batches, reads and swap, and what the rooms see, as they were. -/
theorem kept_of_answered {s₁ s' : State} (same : s' = { s₁ with host := s'.host, out := s'.out, marks := s'.marks }) :
    s'.edits = s₁.edits ∧ LanesKept s₁ s' :=
  ⟨(congrArg State.edits same :), (congrArg State.rooms same :), (congrArg State.dmem same :), (congrArg State.img same :)⟩

/-- Settles O33: the first check that fails answers; what passes waits, with the bytes or the place that the command names, for a release that
is not nearer than four base ticks. -/
theorem editsAndReadsAccepted : Obligations.EditsAndReadsAccepted := by
  intro s t c e bs can running
  refine ⟨fun form long short words task aligned => ?edit, fun v form nonempty few clean var leads unchanged free bytes => ?write,
    fun form nonempty few aligned => ?read⟩
  case edit =>
    have form := editFormChecks_passes form long short words task aligned
    refine ⟨fun leads unchanged => ⟨fun occupied => valueEdit_refused can form (editChecks_occupied running unchanged occupied _), fun free => ?_⟩,
      fun relief unchanged free => valueEdit_refused can form (editChecks_relief running unchanged free relief _)⟩
    have run := exec_valueEdit (t := t) (bs := bs) can form (editChecks_passes running unchanged free leads)
    refine ⟨fun es entries passes => ?accepted, fun st fails nonzero => ?faulty⟩
    case accepted =>
      rw [entries, if_neg (not_not.mpr passes)] at run
      have accepted := acceptBatch_accepted (taken_awaits (s₁ := s.taken t c e 0x20) rfl) (e.h 4) (s.chooseTe (e.h 4)) (slice bs 0 (e.h 6))
      refine ⟨_, _, run, accepted.awaits, accepted.batches, rfl, le_chooseTe .., accepted.ref, ?_, accepted.kept, accepted.reads, accepted.swap⟩
      exact batchOf_writes (s := s.taken t c e 0x20) (by rw [length_slice, entries]) passes ..
    case faulty =>
      rw [fails, if_pos nonzero] at run
      obtain ⟨s', run, answers, same⟩ := exec_answers (t := t) can run rfl rfl
      obtain ⟨edits, kept⟩ := kept_of_answered same
      exact ⟨s', run, answers, edits, kept⟩
  case write =>
    have run := exec_variableWriteAtRelease (t := t) can form nonempty few clean var (editChecks_passes running unchanged free leads) bytes
    refine ⟨fun choice => ?accepted, fun named forbidden => ?forbidden⟩
    case accepted =>
      rw [if_neg fun ⟨named, forbidden⟩ => choice.elim named fun allowed => by simp [allowed] at forbidden] at run
      generalize chosen : (if u48 e.body 8 = 0 then s.chooseTe v.task else u48 e.body 8) = te at run
      have later : s.cycle + 4 ≤ te := by
        rw [← chosen]
        split
        · exact le_chooseTe ..
        next named => exact le_of_teAllowed (choice.resolve_left named)
      have accepted := acceptBatch_accepted (taken_awaits (s₁ := s.taken t c e 0x31) rfl) v.task te (oneEntry e)
      exact ⟨_, _, run, accepted.awaits, accepted.batches, rfl, later, accepted.ref, fun named => chosen.symm.trans (if_neg named), accepted.kept⟩
    case forbidden =>
      rw [if_pos ⟨named, forbidden⟩] at run
      obtain ⟨s', run, answers, same⟩ := exec_answers (t := t) can run rfl rfl
      exact ⟨s', run, answers, (kept_of_answered same).left⟩
  case read =>
    have run := exec_variableRead (t := t) can running form nonempty few aligned
    refine ⟨fun unknown => ?unknown, fun v var => ⟨fun beyond => ?beyond, fun passes => ?accepted⟩⟩
    case unknown =>
      rw [unknown, Option.elim_none] at run
      obtain ⟨s', run, answers, same⟩ := exec_answers (t := t) can run rfl rfl
      exact ⟨s', run, answers, (kept_of_answered same).left⟩
    case beyond =>
      rw [var, Option.elim_some, readStatus_beyond var beyond, if_pos (by decide)] at run
      obtain ⟨s', run, answers, same⟩ := exec_answers (t := t) can run rfl rfl
      exact ⟨s', run, answers, (kept_of_answered same).left⟩
    case accepted =>
      rw [var, Option.elim_some, if_neg (not_not.mpr passes)] at run
      obtain ⟨inProg, head⟩ : Awaits s ((s.taken t c e 0x30).queueRead (s.readOf c e v)) c e 0x30 := taken_awaits (t := t) rfl
      exact ⟨_, s.readOf c e v, run, ⟨inProg, head⟩, rfl, rfl, rfl, rfl, rfl, inProg.symm, le_chooseTe .., rfl, rfl, rfl, rfl⟩

end Sys2Proof.Machine
end

section
/-! PROOFS. Value edits and variable reads at their release (R215 to R218, R333, R342, R357). -/

namespace Sys2Proof.Machine

/-! ### Scattered bytes written (R216) -/

/-- Of the bytes written at an address the last one stands there. -/
theorem Mem.get_writeAll {m : Mem} (wf : m.wf = true) (ws : List (Nat × Byte)) (a : Nat) :
    (m.writeAll ws).get a = ((ws.filter (fun w => w.1 == a)).getLast?.map Prod.snd).getD (m.get a) := by
  induction ws generalizing m with
  | nil => rfl
  | cons w ws ih =>
    change ((m.put w.1 w.2).writeAll ws).get a = _
    rw [ih (Mem.wf_put wf)]
    by_cases here : w.1 = a
    · subst here
      rw [List.filter_cons_of_pos (by simp), List.getLast?_cons, Mem.get_put_self wf]
      cases (ws.filter (fun w' => w'.1 == w.1)).getLast? <;> rfl
    · rw [List.filter_cons_of_neg (by simpa using here), Mem.get_put_other wf (Ne.symm here)]

theorem Mem.get_writeAll_other {m : Mem} (wf : m.wf = true) {ws : List (Nat × Byte)} {a : Nat} (others : ∀ w ∈ ws, w.1 ≠ a) :
    (m.writeAll ws).get a = m.get a := by
  rw [Mem.get_writeAll wf, List.filter_eq_nil_iff.mpr fun w mem => by simpa using others w mem]
  rfl

theorem Mem.get_writeAll_single {m : Mem} (wf : m.wf = true) {ws : List (Nat × Byte)} {a : Nat} {x : Byte}
    (single : ws.filter (fun w => w.1 == a) = [(a, x)]) : (m.writeAll ws).get a = x := by
  rw [Mem.get_writeAll wf, single]
  rfl

/-! ### A batch written into the windows of its room (R215, R218) -/

/-- A room without the marks of its retained window. -/
def Room.unmarked (v : Room) : Room := { v with dirty := [], changed := [] }

/-- From s to s' the bytes ws have been written into windows of room r: nothing else is written but the marks of its retained window. -/
structure Poked (s s' : State) (r : RoomId) (ws : List (Nat × Byte)) : Prop where
  alone : s' = { s with rooms := s'.rooms, dmem := s'.dmem }
  dmem : s'.dmem = s.dmem.writeAll ws
  others : ∀ q : RoomId, q ≠ r → s'.rooms[q] = s.rooms[q]
  room : s'.rooms[r].unmarked = s.rooms[r].unmarked

theorem storeData_poked (s : State) (r : RoomId) (a m : Nat) (b : Byte) : Poked s (s.storeData r a m [b]) r [(m, b)] := by
  unfold State.storeData
  dsimp only
  split
  · refine ⟨rfl, rfl, fun q other => getElem_upd_other other.symm, ?_⟩
    rw [State.updRoom_rooms, getElem_upd_self]
    rfl
  · exact ⟨rfl, rfl, fun _ _ => rfl, rfl⟩

theorem pokeByte_poked (s : State) (r : RoomId) (a : Nat) (b : Byte) : Poked s (s.pokeByte r a b) r [(a, b)] := storeData_poked ..

theorem Poked.trans {s s₁ s' : State} {r : RoomId} {ws ws' : List (Nat × Byte)} (h : Poked s s₁ r ws) (h' : Poked s₁ s' r ws') :
    Poked s s' r (ws ++ ws') := by
  refine ⟨?_, ?_, fun q other => (h'.others q other).trans (h.others q other), h'.room.trans h.room⟩
  · rw [h'.alone, h.alone]
  · rw [h'.dmem, h.dmem, Mem.writeAll, Mem.writeAll, Mem.writeAll, List.foldl_append]

/-- The bytes of a batch written one by one. -/
def State.poked (s : State) (r : RoomId) (ws : List (Nat × Byte)) : State := ws.foldl (fun s w => s.pokeByte r w.1 w.2) s

theorem poked_poked (s : State) (r : RoomId) (ws : List (Nat × Byte)) : Poked s (s.poked r ws) r ws := by
  induction ws generalizing s with
  | nil => exact ⟨rfl, rfl, fun _ _ => rfl, rfl⟩
  | cons w ws ih => exact (pokeByte_poked s r w.1 w.2).trans (ih _)

/-- A batch is written, recorded and completed (R215, R216). -/
theorem applyBatch_eq {s : State} {b : Batch} {r : RoomId} (room : s.roomOf b.task = some r) : s.applyBatch b =
    ((s.poked r b.writes).gbEvent 0x20 r.val sevInfo [BitVec.ofNat 32 b.entries, BitVec.ofNat 32 b.te]).completeOpt b.ref 0 (toLe 6 b.te) := by
  unfold State.applyBatch
  rw [room]
  rfl

theorem recorded_completeOpt {s : State} {typ src : Nat} {sev : BitVec 2} (h : s.recorded typ src sev) (ref : Option CmdRef) (st : BitVec 16)
    (res : List Byte) : (s.completeOpt ref st res).recorded typ src sev := by
  rw [completeOpt_alone]
  exact h

theorem applyBatch_recorded {s : State} {b : Batch} {r : RoomId} (room : s.roomOf b.task = some r) :
    (s.applyBatch b).recorded 0x20 r.val sevInfo := by
  rw [applyBatch_eq room]
  exact recorded_completeOpt (gbEvent_recorded ..) ..

/-- What a batch leaves of memory, rooms, edits and image. -/
theorem applyBatch_kept {s : State} {b : Batch} {r : RoomId} (room : s.roomOf b.task = some r) :
    (s.applyBatch b).edits = s.edits ∧ (s.applyBatch b).img = s.img ∧ (s.applyBatch b).dmem = s.dmem.writeAll b.writes ∧
      (∀ q : RoomId, q ≠ r → (s.applyBatch b).rooms[q] = s.rooms[q]) ∧ (s.applyBatch b).rooms[r].unmarked = s.rooms[r].unmarked := by
  have poked := poked_poked s r b.writes
  have same : (s.applyBatch b).unreported = (s.poked r b.writes).unreported := by
    rw [applyBatch_eq room, completeOpt_unreported, gbEvent_unreported]
  have rooms : (s.applyBatch b).rooms = (s.poked r b.writes).rooms := (congrArg State.rooms same :)
  rw [rooms]
  exact ⟨(congrArg State.edits same :).trans (congrArg State.edits poked.alone :), (congrArg State.img same :).trans (congrArg State.img poked.alone :),
    (congrArg State.dmem same :).trans poked.dmem, poked.others, poked.room⟩

theorem applyBatch_finishes {s : State} {b : Batch} {r : RoomId} (room : s.roomOf b.task = some r) (ref : CmdRef) (awaited : b.ref = some ref) :
    Finishes s (s.applyBatch b) ref 0 (toLe 6 b.te) := by
  have poked := poked_poked s r b.writes
  rw [applyBatch_eq room]
  refine completeOpt_finishes ?_ ?_ 0 (toLe 6 b.te) ref awaited <;> rw [gbEvent_alone, poked.alone]

/-! ### What is due (R215, R217) -/

section
variable {s : State} (running : s.app.running = true) (goes : s.halted = false) (t : Nat)
include running goes

/-- The batches due whose release no stop leaves out are carried out; the others stay. -/
theorem exec_editBatchApply : exec (.editBatchApply t) s = .next
    ((s.edits.batches.filter (fun b => decide (b.te ≤ s.cycle) && s.teComes b.te)).foldl State.applyBatch { s.at t with
      edits := { s.edits with batches := s.edits.batches.filter (fun b => !(decide (b.te ≤ s.cycle) && s.teComes b.te)) } }) :=
  if_pos ⟨running, goes⟩

theorem exec_variableReadApply : exec (.variableReadApply t) s = .next
    ((s.edits.reads.filter (fun r => decide (r.te ≤ s.cycle) && s.teComes r.te)).foldl State.applyRead { s.at t with
      edits := { s.edits with reads := s.edits.reads.filter (fun r => !(decide (r.te ≤ s.cycle) && s.teComes r.te)) } }) :=
  if_pos ⟨running, goes⟩

end

/-- Where every entry waits, none is due. -/
theorem filter_waiting {α : Type} {l : List α} {s : State} {te : α → Nat} (waits : ∀ x ∈ l, s.cycle < te x ∨ s.teComes (te x) = false) :
    l.filter (fun x => decide (te x ≤ s.cycle) && s.teComes (te x)) = [] ∧
      l.filter (fun x => !(decide (te x ≤ s.cycle) && s.teComes (te x))) = l := by
  have waits' (x : α) (mem : x ∈ l) : (decide (te x ≤ s.cycle) && s.teComes (te x)) = false := by
    rcases waits x mem with early | stopped
    · simp [early]
    · simp [stopped]
  exact ⟨List.filter_eq_nil_iff.mpr fun x mem => by simp [waits' x mem], List.filter_eq_self.mpr fun x mem => by simp [waits' x mem]⟩

theorem singleton_due {α : Type} {s : State} {te : α → Nat} {x : α} (due : te x ≤ s.cycle) (comes : s.teComes (te x) = true) :
    [x].filter (fun x => decide (te x ≤ s.cycle) && s.teComes (te x)) = [x] ∧
      [x].filter (fun x => !(decide (te x ≤ s.cycle) && s.teComes (te x))) = [] := by
  simp [due, comes]

/-! ### A read sent (R333, R357) -/

theorem request_alone (s : State) (o : Out) :
    s.request o = { s with host := { s.host with outbox := (s.request o).host.outbox }, out := (s.request o).out } := by
  unfold State.request
  split
  · rfl
  · split <;> rfl

theorem request_out (s : State) (o : Out) : s.out <+: (s.request o).out := by
  unfold State.request
  split
  · exact List.prefix_rfl
  · split
    · exact List.prefix_append ..
    · exact List.prefix_rfl

theorem request_endsAs (s : State) (o : Out) (k : RingId) : (s.request o).host.EndsAs s.host k := by
  rw [request_alone]
  exact ⟨rfl, rfl, rfl, rfl, rfl, rfl, fun _ _ => rfl⟩

/-- A write request goes out, or waits while requests pause (R333). -/
theorem request_made {s : State} (requests : s.host.mute = false) (o : Out) :
    if s.host.busMaster then o ∈ (s.request o).out.drop s.out.length else o ∈ (s.request o).host.outbox := by
  unfold State.request
  simp only [requests, Bool.false_eq_true, if_false]
  split <;> simp [State.emit]

theorem complete_outbox (s : State) (ref : CmdRef) (st : BitVec 16) (res : List Byte) : (s.complete ref st res).host.outbox = s.host.outbox := by
  unfold State.complete State.writeCompletion
  dsimp only
  split
  · split <;> split <;> rfl
  · rfl

theorem applyRead_eq {s : State} {r : VRead} {ref : CmdRef} (asked : r.ref = some ref) :
    s.applyRead r = (s.request (.hostWrite r.host (s.dmem.read r.addr r.len))).complete ref 0 (toLe 6 r.te) := by
  unfold State.applyRead
  rw [asked]

theorem mem_drop_of_prefix {α : Type} {l l' : List α} {x : α} {n : Nat} (mem : x ∈ l.drop n) (pre : l <+: l') : x ∈ l'.drop n := by
  obtain ⟨more, rfl⟩ := pre
  rw [List.drop_append]
  exact List.mem_append_left _ mem

theorem applyRead_ends {s : State} {r : VRead} {ref : CmdRef} (asked : r.ref = some ref) :
    (s.applyRead r).unreported = s.unreported ∧ Finishes s (s.applyRead r) ref 0 (toLe 6 r.te) := by
  rw [applyRead_eq asked]
  refine ⟨?_, (complete_finishes _ ref 0 (toLe 6 r.te)).of_endsAs (request_endsAs ..) (request_out ..)⟩
  rw [complete_unreported, request_alone]
  rfl

/-- The bytes of a read go to the host as they stand (R333, R357). -/
theorem applyRead_sends {s : State} {r : VRead} {ref : CmdRef} (asked : r.ref = some ref) (requests : s.host.mute = false) :
    if s.host.busMaster then Out.hostWrite r.host (s.dmem.read r.addr r.len) ∈ (s.applyRead r).out.drop s.out.length
    else Out.hostWrite r.host (s.dmem.read r.addr r.len) ∈ (s.applyRead r).host.outbox := by
  have made := request_made requests (.hostWrite r.host (s.dmem.read r.addr r.len))
  rw [applyRead_eq asked, complete_outbox]
  split at made
  next master =>
    rw [if_pos master]
    exact mem_drop_of_prefix made (complete_out ..)
  next paused =>
    rw [if_neg paused]
    exact made

/-- Settles O34: a batch due writes its bytes through the windows of its room, is recorded and ends its command; a read due sends the bytes
as they stand and ends its command; what is not due waits. -/
theorem editsAndReadsTakeEffect : Obligations.EditsAndReadsTakeEffect := by
  intro s t inv running goes
  refine ⟨fun b r single room due comes => ?batch, fun waits => ?batchWaits, fun r ref single asked due comes => ?read, fun waits => ?readWaits⟩
  case batch =>
    have run := exec_editBatchApply running goes t
    obtain ⟨all, rest⟩ := singleton_due (te := Batch.te) due comes
    rw [single, all, rest] at run
    have room' : ({ s.at t with edits := { s.edits with batches := [] } } : State).roomOf b.task = some r := room
    obtain ⟨edits, img, dmem, others, own⟩ := applyBatch_kept room'
    refine ⟨_, run, edits, applyBatch_recorded room', img,
      fun m others => (congrArg (Mem.get · m) dmem :).trans (Mem.get_writeAll_other inv.dmem others),
      fun m x once => (congrArg (Mem.get · m) dmem :).trans (Mem.get_writeAll_single inv.dmem once), others, (congrArg Room.g own :),
      (congrArg Room.pc own :), (congrArg Room.st own :), (congrArg Room.flags own :), applyBatch_finishes room'⟩
  case batchWaits =>
    have run := exec_editBatchApply running goes t
    obtain ⟨due, rest⟩ := filter_waiting (te := Batch.te) waits
    rw [due, rest] at run
    exact ⟨_, run, rfl⟩
  case read =>
    have run := exec_variableReadApply running goes t
    obtain ⟨all, rest⟩ := singleton_due (te := VRead.te) due comes
    rw [single, all, rest] at run
    obtain ⟨kept, finishes⟩ := applyRead_ends (s := { s.at t with edits := { s.edits with reads := [] } }) asked
    exact ⟨_, run, (congrArg State.edits kept :), ⟨(congrArg State.rooms kept :), (congrArg State.dmem kept :), (congrArg State.img kept :)⟩,
      applyRead_sends (s := { s.at t with edits := { s.edits with reads := [] } }) asked, finishes⟩
  case readWaits =>
    have run := exec_variableReadApply running goes t
    obtain ⟨due, rest⟩ := filter_waiting (te := VRead.te) waits
    rw [due, rest] at run
    exact ⟨_, run, rfl⟩

end Sys2Proof.Machine
end

section
/-! PROOFS. The rooms at a switch or rollback, and publication rings over the limit (R221, R224, R225, R228, R365). -/

namespace Sys2Proof.Machine

/-! ### Publication rings over the limit (R365) -/

theorem vget_vset_other {α : Type} {n : Nat} (v : Vector α n) {i j : Nat} (other : i ≠ j) (x d : α) : vget (vset v i x) j d = vget v j d := by
  unfold vset
  split
  · simp [vget, List.getD_eq_getElem?_getD, other]
  · rfl

/-- Only publication rings can exceed the limit. -/
theorem le_of_mem_overLimit {rings : List RingCfg} {c : Option Conf} {r : Nat} (exceeds : r ∈ overLimit rings c) : 16 ≤ r := by
  suffices all : ∀ r ∈ overLimit rings c, 16 ≤ r from all r exceeds
  unfold overLimit
  dsimp only
  refine List.foldlRecOn (motive := fun acc : Nat × Nat × List Nat => ∀ r ∈ acc.2.2, 16 ≤ r) _ _ (by simp) fun acc below i mem => ?_
  have pub : 16 ≤ i := by
    obtain ⟨k, -, rfl⟩ := List.mem_map.mp mem
    omega
  split
  · exact below
  · split
    · simpa [or_imp, forall_and] using ⟨below, pub⟩
    · exact below

theorem limitPublications_alone (s : State) (c : Conf) : s.limitPublications c =
    { s with host := (s.limitPublications c).host, marks := (s.limitPublications c).marks } := by
  unfold State.limitPublications
  dsimp only
  split <;> rfl

/-- To commands a publication ring disabled is no matter. -/
theorem limitPublications_endsAs (s : State) (c : Conf) (k : RingId) : (s.limitPublications c).host.EndsAs s.host k := by
  unfold State.limitPublications
  dsimp only
  split
  · exact .of_eq rfl k
  · refine ⟨rfl, rfl, rfl, rfl, rfl, rfl, fun j low => ?_⟩
    refine List.foldlRecOn (motive := fun v : Vector RingCfg 21 => vget v j RingCfg.init = vget s.host.rings j RingCfg.init) _ _ rfl
      fun v same r exceeds => (vget_vset_other v ?_ _ _).trans same
    have := le_of_mem_overLimit exceeds
    omega

/-! ### A room turned (R224 to R226) -/

/-- A room has the windows that a configuration gives task i, and runs or waits for its release. -/
structure Room.Serves (w : Room) (c : Conf) (i : Nat) (k : Task) : Prop where
  privBase : w.privBase = c.an.privBase.getD i 0
  privLen : w.privLen = k.privLen
  retBase : w.retBase = c.an.retBase.getD i 0
  retLen : w.retLen = k.retLen
  runs : w.st = .waiting ∨ w.st = .ready

theorem Room.Serves.windows {w : Room} {c : Conf} {i : Nat} {k : Task} (h : w.Serves c i k) : w.privBase = c.an.privBase.getD i 0 ∧
    w.privLen = k.privLen ∧ w.retBase = c.an.retBase.getD i 0 ∧ w.retLen = k.retLen ∧ (w.st = .waiting ∨ w.st = .ready) :=
  ⟨h.privBase, h.privLen, h.retBase, h.retLen, h.runs⟩

theorem bind_toFin?_eq_some_iff {x : Option Nat} {r : RoomId} : x.bind (toFin? 100) = some r ↔ x = some r.val := by
  constructor
  · intro found
    obtain ⟨m, rfl, bounded⟩ := Option.bind_eq_some_iff.mp found
    obtain ⟨lt, same⟩ := Option.dite_none_right_eq_some.mp bounded
    exact congrArg (fun x : Option RoomId => x.map Fin.val) same
  · rintro rfl
    exact toFin?_val r

section
variable {s : State} {o c : Conf} {i : Nat} {k : Task} {q r : RoomId}

theorem setUpRoom_alone (s : State) (c : Conf) (i : Nat) : s.setUpRoom c i = { s with rooms := (s.setUpRoom c i).rooms } := by
  unfold State.setUpRoom
  split <;> rfl

theorem setUpRoom_other (other : c.an.rooms[i]? ≠ some q.val) : (s.setUpRoom c i).rooms[q] = s.rooms[q] := by
  unfold State.setUpRoom
  split
  next t r task room =>
    refine getElem_upd_other fun same : r = q => other ?_
    rw [← same]
    exact bind_toFin?_eq_some_iff.mp room
  · rfl

theorem setUpRoom_serves (task : c.task i = some k) (room : c.an.rooms[i]? = some r.val) : (s.setUpRoom c i).rooms[r].Serves c i k := by
  unfold State.setUpRoom
  rw [task, bind_toFin?_eq_some_iff.mpr room]
  dsimp only
  rw [State.updRoom_rooms, getElem_upd_self]
  exact ⟨rfl, rfl, rfl, rfl, .inl rfl⟩

theorem turnRoom_alone (s : State) (o c : Conf) (i : Nat) : s.turnRoom o c i = { s with rooms := (s.turnRoom o c i).rooms } := by
  unfold State.turnRoom
  split
  · rfl
  · dsimp only
    rw [setUpRoom_alone]
    rfl

/-- Turning task i touches no room but its own. -/
theorem turnRoom_other (other : c.an.rooms[i]? ≠ some q.val) : (s.turnRoom o c i).rooms[q] = s.rooms[q] := by
  unfold State.turnRoom
  split
  · rfl
  next r room =>
    have distinct : r ≠ q := fun same => other (same ▸ bind_toFin?_eq_some_iff.mp room)
    exact (getElem_upd_other distinct).trans (setUpRoom_other other)

/-- Its own room serves it from now on (R224). -/
theorem turnRoom_serves (task : c.task i = some k) (room : c.an.rooms[i]? = some r.val) : (s.turnRoom o c i).rooms[r].Serves c i k := by
  have serves : (s.setUpRoom c i).rooms[r].Serves c i k := setUpRoom_serves task room
  unfold State.turnRoom
  rw [bind_toFin?_eq_some_iff.mpr room]
  dsimp only
  rw [State.updRoom_rooms, getElem_upd_self]
  exact ⟨serves.privBase, serves.privLen, serves.retBase, serves.retLen, serves.runs⟩

/-! ### A room released (R81, R228) -/

theorem release_alone (s : State) (i : Nat) : s.release i =
    { s with rooms := (s.release i).rooms, clk := (s.release i).clk, np := (s.release i).np } := by
  unfold State.release
  split
  · dsimp only
    split
    · split <;> rfl
    · rfl
  · rfl

/-- Room r as a release of task i leaves it. -/
def State.readyRoom (s : State) (c : Conf) (i : Nat) (r : RoomId) (w : Room) : Room := { w with
  st := .ready
  restAt := none
  relTb := BitVec.ofNat 64 s.tb
  pc := s.releasePc i
  issued := 0
  changed := []
  snap := snapshot c.way.chans s.pair.stg s.pair.words s.rooms[r] s.tb s.cycle
  baseline := baselineOf s.pair.stg c.way.chans
  firstRel := false }

/-- A release of task i makes its room READY, and writes no other. -/
theorem release_cases (cur : s.app.cur = some c) (i : Nat) : (s.release i).rooms = s.rooms ∨ ∃ (r : RoomId) (f : Room → Room),
    c.an.rooms[i]? = some r.val ∧ (∀ (w : Room) (j : Nat) (k : Task), w.Serves c j k → (f w).Serves c j k) ∧
      (s.release i).rooms = upd s.rooms r f := by
  unfold State.release
  rw [cur]
  cases found : s.roomOf i with
  | none => exact .inl rfl
  | some r =>
    have room : c.an.rooms[i]? = some r.val := by
      unfold State.roomOf at found
      rw [cur] at found
      cases assigned : c.an.rooms[i]? with
      | none => simp [assigned] at found
      | some m => exact bind_toFin?_eq_some_iff.mp (by simpa [assigned] using found)
    dsimp only
    by_cases waits : s.rooms[r].stAt s.now = .waiting
    · refine .inr ⟨r, s.readyRoom c i r, room, fun w j k h => ⟨h.privBase, h.privLen, h.retBase, h.retLen, .inr rfl⟩, ?_⟩
      rw [if_pos waits, apply_ite State.rooms]
      exact ite_self (upd s.rooms r (s.readyRoom c i r))
    · rw [if_neg waits]
      exact .inl rfl

theorem release_other (cur : s.app.cur = some c) (other : c.an.rooms[i]? ≠ some q.val) : (s.release i).rooms[q] = s.rooms[q] := by
  rcases release_cases cur i with eq | ⟨r, f, room, -, eq⟩ <;> rw [eq]
  exact getElem_upd_other fun same => other (same ▸ room)

theorem release_serves (cur : s.app.cur = some c) (i : Nat) {j : Nat} (serves : s.rooms[q].Serves c j k) : (s.release i).rooms[q].Serves c j k := by
  rcases release_cases cur i with eq | ⟨r, f, -, keeps, eq⟩ <;> rw [eq]
  · exact serves
  · rw [getElem_upd]
    split
    · exact keeps _ j k serves
    · exact serves

end

end Sys2Proof.Machine
end

section
/-! PROOFS. Switch, rollback and release of a swap at their ticks (R224 to R229). -/

namespace Sys2Proof.Machine

/-! ### The module turned to another version (R224, R225, R228) -/

/-- The tasks of a configuration that another one marks as changed. -/
def Conf.changedTasks (c marks : Conf) : List Nat :=
  (List.range c.way.tasks.length).filter (fun i => ((marks.task i).map Task.changed).getD false)

theorem mem_changedTasks {c marks : Conf} {i : Nat} :
    i ∈ c.changedTasks marks ↔ i < c.way.tasks.length ∧ ∃ k, marks.task i = some k ∧ k.changed = true := by
  unfold Conf.changedTasks
  cases task : marks.task i <;> simp [task]

/-- The state without what a turn writes besides configuration, code half, memory and swap: rooms, clock figures, night porter and rings. -/
def State.unturned (s : State) : State :=
  { s with rooms := Vector.replicate 100 Room.init, clk := Clk.init, np := Porter.init, host := HostIf.init, marks := [] }

/-- The state with the running configuration, code half and data memory of a turn. -/
def State.turnedTo (s : State) (c : Conf) (m : Mem) : State :=
  { s with
    app := { s.app with cur := some c, half := 1 - s.app.half }
    edits := { s.edits with confirmed := false }
    dmem := m }

/-- The swap slot that begins with a turn (R225). -/
def State.slotted (s : State) (slots : Nat) : State := { s with edits := { s.edits with slotEnd := s.now + 8 * (slots + 1) } }

/-- From s to s' the module has turned to configuration c, with the tasks that `marks` gives as changed. -/
structure Turned (s s' : State) (c marks : Conf) (slots : Nat) (m : Mem) : Prop where
  alone : s'.unturned = ((s.turnedTo c m).slotted slots).unturned
  ends : ∀ k, s'.host.EndsAs s.host k
  others : ∀ r : RoomId, (∀ i k, marks.task i = some k → k.changed = true → c.an.rooms[i]? ≠ some r.val) → s'.rooms[r] = s.rooms[r]
  own : c.an.rooms.Nodup → ∀ (r : RoomId) (i : Nat) (k k' : Task), marks.task i = some k → k.changed = true → c.task i = some k' →
    c.an.rooms[i]? = some r.val → s'.rooms[r].Serves c i k'

section
variable {s : State} {o c : Conf} {l : List Nat} {r : RoomId}

theorem turnRooms_alone (s : State) (o c : Conf) (l : List Nat) : l.foldl (fun s i => s.turnRoom o c i) s =
    { s with rooms := (l.foldl (fun s i => s.turnRoom o c i) s).rooms } := by
  refine List.foldlRecOn (motive := fun s' : State => s' = { s with rooms := s'.rooms }) l _ rfl fun s' same i _ => ?_
  rw [turnRoom_alone, same]

theorem turnRooms_other (others : ∀ i ∈ l, c.an.rooms[i]? ≠ some r.val) : (l.foldl (fun s i => s.turnRoom o c i) s).rooms[r] = s.rooms[r] :=
  List.foldlRecOn (motive := fun s' : State => s'.rooms[r] = s.rooms[r]) l _ rfl fun _ same i mem => (turnRoom_other (others i mem)).trans same

/-- No two tasks share a room, so what the turn of a task makes of its room the turns of the others leave. -/
theorem turnRooms_serves {i : Nat} {k : Task} (distinct : c.an.rooms.Nodup) (mem : i ∈ l) (task : c.task i = some k)
    (room : c.an.rooms[i]? = some r.val) : (l.foldl (fun s i => s.turnRoom o c i) s).rooms[r].Serves c i k := by
  refine foldl_establishes (I := fun _ => True) (P := fun s => s.rooms[r].Serves c i k) (fun _ _ _ => trivial)
    (fun s _ => turnRoom_serves task room) (fun s j serves => ?_) mem trivial
  by_cases own : j = i
  · rw [own]
    exact turnRoom_serves task room
  · rw [turnRoom_other fun shared => own ?_]
    · exact serves
    · exact ((List.getElem?_inj (List.getElem?_eq_some_iff.mp room).1 distinct).mp (room.trans shared.symm)).symm

/-- The tasks of a list released that have their release now. -/
def State.releaseDue (s : State) (l : List Nat) : State := l.foldl (fun s i => if s.releasedAt i s.cycle then s.release i else s) s

theorem releaseDue_alone (s : State) (l : List Nat) : s.releaseDue l =
    { s with rooms := (s.releaseDue l).rooms, clk := (s.releaseDue l).clk, np := (s.releaseDue l).np } := by
  unfold State.releaseDue
  refine List.foldlRecOn (motive := fun s' : State => s' = { s with rooms := s'.rooms, clk := s'.clk, np := s'.np }) l _ rfl fun s' same i _ => ?_
  split
  · rw [release_alone, same]
  · exact same

/-- What releases keep of a room they keep one by one; the configuration stays. -/
theorem releaseDue_keeps {P : Room → Prop} (cur : s.app.cur = some c)
    (keep : ∀ s : State, s.app.cur = some c → ∀ i ∈ l, P s.rooms[r] → P (s.release i).rooms[r]) (start : P s.rooms[r]) :
    P (s.releaseDue l).rooms[r] := by
  unfold State.releaseDue
  refine (List.foldlRecOn (motive := fun s : State => s.app.cur = some c ∧ P s.rooms[r]) l _ ⟨cur, start⟩ fun s' ⟨cur, holds⟩ i mem => ?_).2
  split
  · refine ⟨?_, keep s' cur i mem holds⟩
    rw [release_alone]
    exact cur
  · exact ⟨cur, holds⟩

theorem releaseDue_other (cur : s.app.cur = some c) (others : ∀ i ∈ l, c.an.rooms[i]? ≠ some r.val) : (s.releaseDue l).rooms[r] = s.rooms[r] :=
  releaseDue_keeps (P := (· = s.rooms[r])) cur (fun _ cur i mem same => (release_other cur (others i mem)).trans same) rfl

theorem releaseDue_serves {i : Nat} {k : Task} (cur : s.app.cur = some c) (serves : s.rooms[r].Serves c i k) :
    (s.releaseDue l).rooms[r].Serves c i k :=
  releaseDue_keeps (P := (Room.Serves · c i k)) cur (fun _ cur j _ serves => release_serves cur j serves) serves

end

/-- The module turned, its changed tasks not yet released. -/
def State.turnedRooms (s : State) (o c marks : Conf) (slots : Nat) (m : Mem) : State :=
  let s := ((c.changedTasks marks).foldl (fun s i => s.turnRoom o c i) (s.turnedTo c m)).slotted slots
  { s with np := { s.np with open' := BitVec.ofNat 29 c.an.npOpen, close := BitVec.ofNat 29 c.an.npClose } }

section
variable {s : State} (o c marks : Conf) (slots : Nat) (m : Mem)

theorem turn_eq (running : s.app.running = true) (mem : Mem → Mem) : s.turn o c marks slots mem =
    ((s.turnedRooms o c marks slots (mem s.dmem)).limitPublications c).releaseDue (c.changedTasks marks) := by
  have goes : ((c.changedTasks marks).foldl (fun s i => s.turnRoom o c i) (s.turnedTo c (mem s.dmem))).app.running = true := by
    rw [turnRooms_alone]
    exact running
  exact if_pos goes

theorem turnedRooms_unturned : (s.turnedRooms o c marks slots m).unturned = ((s.turnedTo c m).slotted slots).unturned := by
  unfold State.turnedRooms
  rw [turnRooms_alone]
  rfl

theorem turnedRooms_host : (s.turnedRooms o c marks slots m).host = s.host := by
  unfold State.turnedRooms
  rw [turnRooms_alone]
  rfl

theorem limitPublications_unturned (s : State) (c : Conf) : (s.limitPublications c).unturned = s.unturned := by
  rw [limitPublications_alone]
  rfl

theorem releaseDue_unturned (s : State) (l : List Nat) : (s.releaseDue l).unturned = s.unturned := by
  rw [releaseDue_alone]
  rfl

/-- A turn at a tick of the running application. -/
theorem turn_turned (running : s.app.running = true) (mem : Mem → Mem) :
    Turned s (s.turn o c marks slots mem) c marks slots (mem s.dmem) := by
  rw [turn_eq o c marks slots running]
  generalize turned : s.turnedRooms o c marks slots (mem s.dmem) = s₁
  have alone : s₁.unturned = ((s.turnedTo c (mem s.dmem)).slotted slots).unturned := turned ▸ turnedRooms_unturned ..
  have host : s₁.host = s.host := turned ▸ turnedRooms_host ..
  have rooms : s₁.rooms = ((c.changedTasks marks).foldl (fun s i => s.turnRoom o c i) (s.turnedTo c (mem s.dmem))).rooms := turned ▸ rfl
  have limited : (s₁.limitPublications c).rooms = s₁.rooms := by rw [limitPublications_alone]
  have cur : (s₁.limitPublications c).app.cur = some c := by
    rw [limitPublications_alone]
    exact (congrArg (fun s => s.app.cur) alone :)
  refine ⟨?alone, fun k => ?ends, fun r unmarked => ?others, fun distinct r i k k' marked changed task room => ?own⟩
  case alone => rw [releaseDue_unturned, limitPublications_unturned, alone]
  case ends =>
    rw [releaseDue_alone, ← host]
    exact limitPublications_endsAs ..
  case others =>
    have others : ∀ i ∈ c.changedTasks marks, c.an.rooms[i]? ≠ some r.val := fun i mem =>
      let ⟨_, k, marked, changed⟩ := mem_changedTasks.mp mem
      unmarked i k marked changed
    rw [releaseDue_other cur others, limited, rooms, turnRooms_other others]
    rfl
  case own =>
    have mem : i ∈ c.changedTasks marks := mem_changedTasks.mpr ⟨(List.getElem?_eq_some_iff.mp task).1, k, marked, changed⟩
    refine releaseDue_serves cur ?_
    rw [limited, rooms]
    exact turnRooms_serves distinct mem task room

end

/-! ### The tick of a switch and of a rollback (R225, R228) -/

theorem Turned.cycle {s s' : State} {c marks : Conf} {slots : Nat} {m : Mem} (turned : Turned s s' c marks slots m) : s'.cycle = s.cycle :=
  (congrArg State.cycle turned.alone :)

theorem gbEvent_cycle (s : State) (typ src : Nat) (sev : BitVec 2) (ws : List Word) : (s.gbEvent typ src sev ws).cycle = s.cycle := by
  rw [gbEvent_alone]

/-- A command completed once the module has turned ends. -/
theorem Turned.finishes {s s₁ s' : State} {c marks : Conf} {slots : Nat} {m : Mem} (turned : Turned s s₁ c marks slots m)
    (host : s'.host = s₁.host) (out : s'.out = s₁.out) (st : BitVec 16) (res : List Byte) {x : Option CmdRef} (ref : CmdRef)
    (awaited : x = some ref) : Finishes s (s'.completeOpt x st res) ref st res :=
  completeOpt_completeAll_finishes awaited (host ▸ turned.ends ref.ring)
    (((congrArg State.out turned.alone :).symm.trans out.symm) ▸ List.prefix_rfl) [] st res

/-- On trial, with o as the former version. -/
def State.switched (s : State) (o : Conf) : State :=
  { s with edits := { s.edits with swap := .trial, old := some o, ref := none, confirmed := false } }

/-- No swap is under way. -/
def State.unswapped (s : State) : State :=
  { s with edits := { s.edits with swap := .none, new := none, old := none, ref := none, confirmed := false } }

/-- The state that a switch from o to n leads to. -/
def State.afterSwitch (s : State) (o n : Conf) : State :=
  (((s.turn o n n n.an.swapSlots (fun m => migrate o n (clearNew o n m))).switched o).gbEvent 0x21 0 sevNotice
    [n.way.crc, BitVec.ofNat 32 s.cycle]).completeOpt s.edits.ref 0 (toLe 6 s.cycle)

/-- The state that a rollback from n to o leads to. -/
def State.afterRollback (s : State) (o n : Conf) : State :=
  (s.turn n o n n.an.swapSlots (migrateBack o n)).unswapped.completeOpt s.edits.ref 0 (toLe 6 s.cycle)

section
variable {s : State} {o n : Conf}

theorem switch_turned (o n : Conf) (running : s.app.running = true) :
    Turned s (s.turn o n n n.an.swapSlots (fun m => migrate o n (clearNew o n m))) n n n.an.swapSlots (migrate o n (clearNew o n s.dmem)) :=
  turn_turned o n n n.an.swapSlots running _

theorem rollback_turned (o n : Conf) (running : s.app.running = true) :
    Turned s (s.turn n o n n.an.swapSlots (migrateBack o n)) o n n.an.swapSlots (migrateBack o n s.dmem) :=
  turn_turned n o n n.an.swapSlots running _

theorem exec_swapSwitchTick (cur : s.app.cur = some o) (new : s.edits.new = some n) (running : s.app.running = true)
    (due : s.swapDue .pendSwitch = true) (t : Nat) : exec (.swapSwitchTick t) s = .next ((s.at t).afterSwitch o n) := by
  have turned : Turned (s.at t) _ n n n.an.swapSlots _ := switch_turned o n running
  have cycle := turned.cycle
  change execSwapSwitchTick t s = _
  unfold execSwapSwitchTick
  dsimp only
  rw [State.at_app, State.at_edits, cur, new]
  dsimp only
  rw [if_pos (show (s.at t).swapDue .pendSwitch = true from due), gbEvent_cycle]
  unfold State.afterSwitch
  rw [← cycle]
  rfl

theorem exec_rollbackTick (cur : s.app.cur = some n) (old : s.edits.old = some o) (running : s.app.running = true)
    (due : s.swapDue .pendRollback = true) (t : Nat) : exec (.rollbackTick t) s = .next ((s.at t).afterRollback o n) := by
  have turned : Turned (s.at t) _ o n n.an.swapSlots _ := rollback_turned o n running
  have cycle := turned.cycle
  change execRollbackTick t s = _
  unfold execRollbackTick
  dsimp only
  rw [State.at_app, State.at_edits, cur, old]
  dsimp only
  rw [if_pos (show (s.at t).swapDue .pendRollback = true from due)]
  unfold State.afterRollback
  rw [← cycle]
  rfl

/-- A switch is reported and completed besides the turn. -/
theorem afterSwitch_unreported (s : State) (o n : Conf) : (s.afterSwitch o n).unreported =
    ((s.turn o n n n.an.swapSlots (fun m => migrate o n (clearNew o n m))).switched o).unreported := by
  unfold State.afterSwitch
  rw [completeOpt_unreported, gbEvent_unreported]

theorem afterSwitch_alone (o n : Conf) (running : s.app.running = true) : (s.afterSwitch o n).unreported.unturned =
    (((s.turnedTo n (migrate o n (clearNew o n s.dmem))).slotted n.an.swapSlots).switched o).unreported.unturned :=
  (congrArg State.unturned (afterSwitch_unreported s o n)).trans
    (congrArg (fun s => (s.switched o).unreported) (switch_turned o n running).alone :)

theorem afterSwitch_rooms (s : State) (o n : Conf) :
    (s.afterSwitch o n).rooms = (s.turn o n n n.an.swapSlots (fun m => migrate o n (clearNew o n m))).rooms :=
  (congrArg State.rooms (afterSwitch_unreported s o n) :)

theorem afterSwitch_nv (o n : Conf) (running : s.app.running = true) : (s.afterSwitch o n).nv = s.nv := by
  unfold State.afterSwitch
  rw [completeOpt_alone, gbEvent_alone]
  exact (congrArg State.nv (switch_turned o n running).alone :)

theorem afterSwitch_finishes (o n : Conf) (running : s.app.running = true) (ref : CmdRef) (awaited : s.edits.ref = some ref) :
    Finishes s (s.afterSwitch o n) ref 0 (toLe 6 s.cycle) := by
  unfold State.afterSwitch
  refine (switch_turned o n running).finishes ?_ ?_ 0 (toLe 6 s.cycle) ref awaited <;> rw [gbEvent_alone] <;> rfl

theorem afterRollback_unreported (s : State) (o n : Conf) : (s.afterRollback o n).unreported =
    (s.turn n o n n.an.swapSlots (migrateBack o n)).unswapped.unreported := by
  unfold State.afterRollback
  rw [completeOpt_unreported]

theorem afterRollback_alone (o n : Conf) (running : s.app.running = true) : (s.afterRollback o n).unreported.unturned =
    ((s.turnedTo o (migrateBack o n s.dmem)).slotted n.an.swapSlots).unswapped.unreported.unturned :=
  (congrArg State.unturned (afterRollback_unreported s o n)).trans
    (congrArg (fun s => s.unswapped.unreported) (rollback_turned o n running).alone :)

theorem afterRollback_rooms (s : State) (o n : Conf) :
    (s.afterRollback o n).rooms = (s.turn n o n n.an.swapSlots (migrateBack o n)).rooms :=
  (congrArg State.rooms (afterRollback_unreported s o n) :)

theorem afterRollback_finishes (o n : Conf) (running : s.app.running = true) (ref : CmdRef) (awaited : s.edits.ref = some ref) :
    Finishes s (s.afterRollback o n) ref 0 (toLe 6 s.cycle) :=
  (rollback_turned o n running).finishes (s' := State.unswapped _) rfl rfl 0 (toLe 6 s.cycle) ref awaited

/-! ### The release of a swap (R229) -/

theorem flushLate_alone (s : State) (relief : Bool) : s.flushLate relief = { s with gb := (s.flushLate relief).gb } := by
  unfold State.flushLate
  refine List.foldlRecOn (motive := fun s' : State => s' = { s with gb := s'.gb }) _ _ rfl fun s' same e _ => ?_
  rw [gbEvent_alone, same]

/-- The module with n as its stored configuration and no swap under way. -/
def State.releaseStored (s : State) (o n : Conf) : State := ({ s with edits := { s.edits with also := [] } }.storeReleased o n).storedPair n

/-- The state that a release leads to: n stored, and the commands of the release completed. -/
def State.afterRelease (s : State) (o n : Conf) : State :=
  ((s.releaseStored o n).completeOpt s.edits.ref 0 []).completeAll s.edits.also 0 []

/-- On a single module with a configuration for one, a release changes the pair figures besides what it stores and reports held back. -/
theorem releaseStored_alone (o : Conf) (role : s.pair.role = 0) (single : n.way.pair = false) : s.releaseStored o n =
    { s with
      app := { s.app with stored := some n }
      edits := { s.unswapped.edits with also := [] }
      pair := (s.releaseStored o n).pair
      nv := (s.releaseStored o n).nv
      gb := (s.releaseStored o n).gb } := by
  have stays : ({ s with edits := { s.edits with also := [] } }.storeReleased o n).pair.role = 0 := role
  unfold State.releaseStored State.storedPair
  dsimp only
  rw [if_neg (by simp [single]), if_pos stays, flushLate_alone]
  rfl

theorem releaseStored_role (o : Conf) (role : s.pair.role = 0) (single : n.way.pair = false) : (s.releaseStored o n).pair.role = 0 := by
  unfold State.releaseStored
  exact storedPair_single role single

theorem exec_swapReleaseComplete (cur : s.app.cur = some n) (old : s.edits.old = some o) (releasing : s.edits.swap = .releasing)
    (confirmed : s.edits.confirmed = true) (steward : s.steward = true) (t : Nat) :
    exec (.swapReleaseComplete t) s = .next ((s.at t).afterRelease o n) := by
  change execSwapReleaseComplete t s = _
  unfold execSwapReleaseComplete
  dsimp only
  rw [State.at_app, State.at_edits, State.at_steward, cur, old]
  exact if_pos ⟨releasing, confirmed, steward⟩

theorem afterRelease_unreported (s : State) (o n : Conf) : (s.afterRelease o n).unreported = (s.releaseStored o n).unreported := by
  unfold State.afterRelease
  rw [completeAll_unreported, completeOpt_unreported]

theorem afterRelease_finishes (o : Conf) (role : s.pair.role = 0) (single : n.way.pair = false) (ref : CmdRef) (awaited : s.edits.ref = some ref) :
    Finishes s (s.afterRelease o n) ref 0 [] := by
  unfold State.afterRelease
  refine completeOpt_completeAll_finishes awaited ?_ ?_ s.edits.also 0 [] <;> rw [releaseStored_alone o role single]
  exact .of_eq rfl _

end

/-- Settles O38: a switch and a rollback turn the rooms of the changed tasks, one by one, and release them; a release stores. -/
theorem swapTicks : Obligations.SwapTicks := by
  intro s t o n
  refine ⟨fun cur new running due => ?switch, fun cur old running due => ?rollback,
    fun cur old releasing confirmed steward role single => ?release⟩
  case switch =>
    have turned : Turned (s.at t) _ n n n.an.swapSlots _ := switch_turned o n running
    have same := afterSwitch_alone (s := s.at t) o n running
    refine ⟨_, exec_swapSwitchTick cur new running due t, (congrArg State.app same :), (congrArg (fun s => s.edits.swap) same :),
      (congrArg (fun s => s.edits.old) same :), (congrArg (fun s => s.edits.new) same :).trans new, (congrArg (fun s => s.edits.ref) same :),
      (congrArg (fun s => s.edits.slotEnd) same :), (congrArg (fun s => s.edits.batches) same :), (congrArg State.dmem same :),
      (congrArg State.img same :), recorded_completeOpt (gbEvent_recorded ..) .., ?_, afterSwitch_nv o n running, ?_, ?_,
      afterSwitch_finishes (s := s.at t) o n running⟩
    · exact ⟨(congrArg State.chans same :), (congrArg State.groups same :), (congrArg State.spare same :), (congrArg State.cans same :)⟩
    · rw [afterSwitch_rooms]
      exact turned.others
    · rw [afterSwitch_rooms]
      exact fun distinct r i k task changed room => (turned.own distinct r i k k task changed task room).windows
  case rollback =>
    have turned : Turned (s.at t) _ o n n.an.swapSlots _ := rollback_turned o n running
    have same := afterRollback_alone (s := s.at t) o n running
    refine ⟨_, exec_rollbackTick cur old running due t, (congrArg State.app same :), (congrArg (fun s => s.edits.swap) same :),
      (congrArg (fun s => s.edits.old) same :), (congrArg (fun s => s.edits.new) same :), (congrArg (fun s => s.edits.ref) same :),
      (congrArg State.dmem same :), (congrArg State.img same :), ?_, ?_, ?_, afterRollback_finishes (s := s.at t) o n running⟩
    · exact ⟨(congrArg State.chans same :), (congrArg State.groups same :), (congrArg State.spare same :), (congrArg State.cans same :)⟩
    · rw [afterRollback_rooms]
      exact turned.others
    · rw [afterRollback_rooms]
      exact fun distinct r i k k' task changed task' room => (turned.own distinct r i k k' task changed task' room).windows
  case release =>
    have same : ((s.at t).afterRelease o n).unreported = _ :=
      (afterRelease_unreported (s.at t) o n).trans (congrArg State.unreported (releaseStored_alone (s := s.at t) o role single))
    exact ⟨_, exec_swapReleaseComplete cur old releasing confirmed steward t, (congrArg State.app same :),
      (congrArg (fun s => s.edits.swap) same :), (congrArg (fun s => s.edits.old) same :), (congrArg (fun s => s.edits.new) same :),
      ⟨(congrArg State.rooms same :), (congrArg State.dmem same :), (congrArg State.img same :)⟩,
      ⟨(congrArg State.chans same :), (congrArg State.groups same :), (congrArg State.spare same :), (congrArg State.cans same :)⟩,
      (congrArg (fun s => s.pair.role) same :).trans (releaseStored_role (s := s.at t) o role single),
      afterRelease_finishes (s := s.at t) o role single⟩

end Sys2Proof.Machine
end

section
/-! PROOFS. What the drive of a whole group makes of its channels (R43, R44, R252, R260, R287). -/

namespace Sys2Proof.Machine

/-! ### One channel (R43, R44, R260, R287) -/

/-- A channel without its terminal, switch and stage: what its drive leaves. -/
def Chan.undriven (c : Chan) : Chan :=
  { c with
    bypass := true
    sink := false
    excite := false
    drive := false
    aout := .off
    applied := 0
    changedAt := 0
    offAt := 0
    rateUntil := none
    rateHeld := false
    clamped := false }

theorem terminal_undriven (c : Chan) (g : Group) : (c.terminal g).undriven = c.undriven := by
  unfold Chan.terminal
  split <;> rfl

theorem terminal_drive (c : Chan) (g : Group) : (c.terminal g).drive = c.drive := by
  unfold Chan.terminal
  split <;> rfl

section
variable (c : Chan) (quiet commit : Bool) (g : Group) (now : Nat)

theorem redriven_undriven : (c.redriven quiet commit g now).undriven = c.undriven := by
  rw [← terminal_undriven c g]
  unfold Chan.redriven
  split
  · rfl
  · split
    · rfl
    · split <;> rfl

theorem redriven_follow : (c.redriven quiet commit g now).follow = c.follow := (congrArg Chan.follow (redriven_undriven ..) :)

theorem redriven_terminal : let c' := c.redriven quiet commit g now
    c'.bypass = (c.terminal g).bypass ∧ c'.sink = (c.terminal g).sink ∧ c'.excite = (c.terminal g).excite := by
  unfold Chan.redriven
  dsimp only
  split
  · exact ⟨rfl, rfl, rfl⟩
  · split
    · exact ⟨rfl, rfl, rfl⟩
    · split <;> exact ⟨rfl, rfl, rfl⟩

end

/-- Without L+ or modes a terminal is that of a channel without a mode (R43, R44). -/
theorem terminal_unmoded (c : Chan) {g : Group} (unmoded : g.up = false) :
    (c.terminal g).bypass = true ∧ (c.terminal g).sink = false ∧ (c.terminal g).excite = false := by
  have off : (g.lplus && g.cfg) = false := unmoded
  unfold Chan.terminal
  split
  · exact ⟨rfl, rfl, rfl⟩
  · dsimp only
    rw [off]
    exact ⟨rfl, rfl, rfl⟩

/-- With L+ and modes the bypass is closed where the channel has no mode. -/
theorem terminal_bypass (c : Chan) {g : Group} (moded : g.up = true) : (c.terminal g).bypass = c.cfg.isNone := by
  have on : (g.lplus && g.cfg) = true := moded
  unfold Chan.terminal
  split
  case h_1 none' => rw [none']; rfl
  case h_2 e entry => rw [entry, on]; rfl

section
variable {c : Chan} {e : ChanCfg} (entry : c.cfg = some e)
include entry

theorem redriven_dout (dout : e.isDout = true) (quiet commit : Bool) (g : Group) (now : Nat) :
    c.redriven quiet commit g now = (c.terminal g).driven quiet commit g e now := by
  simp only [Chan.redriven, terminal_cfg, entry, dout, if_true]

theorem redriven_aout (aout : e.isAout = true) (other : e.isDout = false) (quiet commit : Bool) (g : Group) (now : Nat) :
    c.redriven quiet commit g now = (c.terminal g).drivenAna quiet g e now := by
  simp only [Chan.redriven, terminal_cfg, entry, other, aout, if_true, Bool.false_eq_true, if_false]

end

/-- Rows 1 to 3 and 5 of R260. -/
theorem driven_blocked {c : Chan} {quiet : Bool} {g : Group} (blocked : blockedOff quiet g c = true) (commit : Bool) (e : ChanCfg) (now : Nat) :
    (c.driven quiet commit g e now).drive = false := by
  simp [Chan.driven, blocked]

/-- A switch that nothing wants ON is OFF (rows 6 to 8 of R260). -/
theorem driven_unwanted {c : Chan} {g : Group} {e : ChanCfg} (off : c.applies g e = false) (owner : g.relief = false) (quiet commit : Bool)
    (now : Nat) : (c.driven quiet commit g e now).drive = false := by
  simp [Chan.driven, off, owner]

/-- Until its first commit an output whose safe state is OFF wants to be OFF (R262). -/
theorem wantOn_safeOff {c : Chan} {e : ChanCfg} (supervised : c.follow = false) (safe : e.safe = 0) : c.wantOn e = false := by
  simp [Chan.wantOn, Chan.safeOn, supervised, safe]

/-- The power-on states of a group without modes (R44, R285, R291). -/
theorem drivenAna_powerOn {g : Group} (supplied : g.lplus = true) (unmoded : g.cfg = false) (owner : g.relief = false) (c : Chan) (e : ChanCfg)
    (now : Nat) : (c.drivenAna false g e now).aout = if e.mode = 0x22 then .alarm (!g.almsel) else .off := by
  simp [Chan.drivenAna, Chan.anaState, alarmOf, supplied, unmoded, owner]

/-! ### The channels of a group -/

theorem mem_chansOf {g : GrpId} {n : ChanId} : n ∈ chansOf g ↔ grpOf n = g :=
  ⟨grpOf_of_mem_chansOf, fun own => own ▸ mem_chansOf_grpOf n⟩

theorem chanOf_injective (g : GrpId) : Function.Injective (chanOf g) := fun i j same => by
  have := congrArg Fin.val same
  exact Fin.ext (Nat.add_left_cancel this)

theorem nodup_chansOf (g : GrpId) : (chansOf g).Nodup := (List.nodup_finRange 16).map (chanOf_injective g)

/-- Where each step writes its own channel only, a fold leaves the other channels. -/
theorem foldl_otherChan {f : State → ChanId → State} {n : ChanId} (other : ∀ s m, m ≠ n → (f s m).chans[n] = s.chans[n])
    {l : List ChanId} (absent : n ∉ l) (s : State) : (l.foldl f s).chans[n] = s.chans[n] :=
  List.foldlRecOn (motive := fun s' : State => s'.chans[n] = s.chans[n]) l f rfl fun s' same m mem =>
    (other s' m fun eq => absent (eq ▸ mem)).trans same

/-- And it does to a channel what the step of that channel does, when no channel comes twice. -/
theorem foldl_ownChan {f : State → ChanId → State} {n : ChanId} {F : Chan → Chan} {I : State → Prop} (inv : ∀ s m, I s → I (f s m))
    (own : ∀ s, I s → (f s n).chans[n] = F s.chans[n]) (other : ∀ s m, m ≠ n → (f s m).chans[n] = s.chans[n]) {l : List ChanId}
    (distinct : l.Nodup) (mem : n ∈ l) {s : State} (start : I s) : (l.foldl f s).chans[n] = F s.chans[n] := by
  obtain ⟨before, behind, rfl⟩ := List.append_of_mem mem
  obtain ⟨-, twice, apart⟩ := List.nodup_append.mp distinct
  have reached : I (before.foldl f s) := List.foldlRecOn before f start fun s i b _ => inv s b i
  rw [List.foldl_append, List.foldl_cons, foldl_otherChan other (List.nodup_cons.mp twice).1, own _ reached,
    foldl_otherChan other fun mem => apart n mem n (List.mem_cons_self ..) rfl]

/-- Each channel of a group written, at the state's instant. -/
def State.rechan (s : State) (g : GrpId) (f : Nat → ChanId → Chan → Chan) : State :=
  (chansOf g).foldl (fun s n => s.updChan n (f s.now n)) s

section
variable (s : State) {g : GrpId} (f : Nat → ChanId → Chan → Chan) {n : ChanId}

theorem rechan_inward (g : GrpId) : (s.rechan g f).inward = s.inward := foldl_keeps_key State.inward (fun _ _ => updChan_inward ..) (chansOf g) s

theorem rechan_groups (g : GrpId) : (s.rechan g f).groups = s.groups := foldl_keeps_key State.groups (fun _ _ => State.updChan_groups ..) (chansOf g) s

theorem rechan_pwr (g : GrpId) : (s.rechan g f).pwr = s.pwr := foldl_keeps_key State.pwr (fun _ _ => State.updChan_pwr ..) (chansOf g) s

theorem rechan_now (g : GrpId) : (s.rechan g f).now = s.now := foldl_keeps_key State.now (fun _ _ => State.updChan_now ..) (chansOf g) s

theorem rechan_chan (own : grpOf n = g) : (s.rechan g f).chans[n] = f s.now n s.chans[n] := by
  unfold State.rechan
  refine foldl_ownChan (F := f s.now n) (I := fun s' => s'.now = s.now) (fun s' m same => ?_) (fun s' same => ?_) (fun s' m other => ?_)
    (nodup_chansOf g) (mem_chansOf.mpr own) rfl
  · exact same
  · rw [State.updChan_chan, if_pos rfl, same]
  · rw [State.updChan_chan, if_neg other]

theorem rechan_otherChan (other : grpOf n ≠ g) : (s.rechan g f).chans[n] = s.chans[n] := by
  unfold State.rechan
  refine foldl_otherChan (fun s' m other => ?_) (mem_chansOf.not.mpr other) s
  rw [State.updChan_chan, if_neg other]

end

/-! ### The drive of a group -/

/-- A group without the latched bits of R252, which a drive may set. -/
def Group.unrated (p : Group) : Group := { p with rateLatch := 0 }

theorem redriven_congr {g g' : Group} (same : g.unrated = g'.unrated) (c : Chan) (quiet commit : Bool) (now : Nat) :
    c.redriven quiet commit g now = c.redriven quiet commit g' now :=
  calc c.redriven quiet commit g now = c.redriven quiet commit g.unrated now := rfl
    _ = c.redriven quiet commit g'.unrated now := by rw [same]

theorem latchChan_groups (s : State) (n : ChanId) (rd : Group → BitVec 16) (wr : Group → BitVec 16 → Group) (off typ : Nat) (sev : BitVec 2)
    (ana : Bool) : (s.latchChan n rd wr off typ sev ana).groups = s.groups ∨
      (s.latchChan n rd wr off typ sev ana).groups =
        upd s.groups (grpOf n) fun p => wr p (rd p ||| ((1 <<< (idxOf n).val : Nat) : BitVec 16)) :=
  
  (latchChan_unreported s n rd wr off typ sev ana).imp (fun ⟨kept, _⟩ => groups_of_unreported kept) fun set => (groups_of_unreported set :)

theorem latchRate_unrated (s : State) (n : ChanId) (h : GrpId) : (s.latchRate n).groups[h].unrated = s.groups[h].unrated := by
  rcases latchChan_groups s n Group.rateLatch (fun p x => { p with rateLatch := x }) 0x20 0x34 sevNotice false with eq | eq
  · exact congrArg (fun gs => Group.unrated gs[h]) eq
  · refine (congrArg (fun gs => Group.unrated gs[h]) eq).trans ?_
    rw [getElem_upd]
    split <;> rfl

theorem latchRate_otherGroup (s : State) {n : ChanId} {h : GrpId} (other : grpOf n ≠ h) : (s.latchRate n).groups[h] = s.groups[h] := by
  rcases latchChan_groups s n Group.rateLatch (fun p x => { p with rateLatch := x }) 0x20 0x34 sevNotice false with eq | eq
  · exact congrArg (·[h]) eq
  · exact (congrArg (·[h]) eq).trans (getElem_upd_other other)

theorem driveChan_unrated (s : State) (n : ChanId) (commit : Bool) (h : GrpId) :
    (s.driveChan n commit).groups[h].unrated = s.groups[h].unrated := by
  rcases driveChan_eq s n commit with eq | eq <;> rw [eq]
  · rfl
  · exact latchRate_unrated ..

theorem driveChan_otherGroup (s : State) {n : ChanId} (commit : Bool) {h : GrpId} (other : grpOf n ≠ h) :
    (s.driveChan n commit).groups[h] = s.groups[h] := by
  rcases driveChan_eq s n commit with eq | eq <;> rw [eq]
  · rfl
  · exact latchRate_otherGroup _ other

theorem driveChan_chan (s : State) (n : ChanId) (commit : Bool) :
    (s.driveChan n commit).chans[n] = s.chans[n].redriven s.pwr.quietIn commit s.groups[grpOf n] s.now := by
  rw [driveChan_chans]
  exact getElem_upd_self ..

theorem driveChan_otherChan (s : State) {n m : ChanId} (commit : Bool) (other : n ≠ m) : (s.driveChan n commit).chans[m] = s.chans[m] := by
  rw [driveChan_chans]
  exact getElem_upd_other other

section
variable (s : State) {g : GrpId}

theorem driveGroup_unrated (g h : GrpId) : (s.driveGroup g).groups[h].unrated = s.groups[h].unrated :=
  foldl_keeps_key (fun s : State => s.groups[h].unrated) (fun _ _ => driveChan_unrated ..) (chansOf g) s

theorem driveGroup_otherGroup {h : GrpId} (other : h ≠ g) : (s.driveGroup g).groups[h] = s.groups[h] :=
  List.foldlRecOn (motive := fun s' : State => s'.groups[h] = s.groups[h]) (chansOf g) _ rfl fun s' same n mem =>
    (driveChan_otherGroup s' false fun eq => other ((mem_chansOf.mp mem).symm.trans eq).symm).trans same

/-- The drive of a group drives each channel once, by supplies, group and instant at its start. -/
theorem driveGroup_chan {n : ChanId} (own : grpOf n = g) :
    (s.driveGroup g).chans[n] = s.chans[n].redriven s.pwr.quietIn false s.groups[g] s.now := by
  subst own
  refine foldl_ownChan (F := fun c => c.redriven s.pwr.quietIn false s.groups[grpOf n] s.now)
    (I := fun s' => s'.inward = s.inward ∧ s'.groups[grpOf n].unrated = s.groups[grpOf n].unrated)
    (fun s' m ⟨kept, group⟩ => ⟨(driveChan_inward ..).trans kept, (driveChan_unrated ..).trans group⟩) (fun s' ⟨kept, group⟩ => ?_)
    (fun _ _ other => driveChan_otherChan _ false other) (nodup_chansOf _) (mem_chansOf_grpOf n) ⟨rfl, rfl⟩
  have quiet : s'.pwr.quietIn = s.pwr.quietIn := (congrArg (fun s => s.pwr.quietIn) kept :)
  have now : s'.now = s.now := (congrArg State.now kept :)
  rw [driveChan_chan, redriven_congr group, quiet, now]

theorem driveGroup_otherChan {n : ChanId} (other : grpOf n ≠ g) : (s.driveGroup g).chans[n] = s.chans[n] :=
  foldl_otherChan (fun _ _ other => driveChan_otherChan _ false other) (mem_chansOf.not.mpr other) s

end

end Sys2Proof.Machine
end

section
/-! PROOFS. The supervisor of a group, loss and return of its L+, and the reload of its configuration (R239, R261 to R265). -/

namespace Sys2Proof.Machine

/-! ### Reports -/

theorem mark_inward (s : State) (off bits : Nat) : (s.mark off bits).inward = s.inward := rfl

theorem pwr_of_inward {s s' : State} (h : s'.inward = s.inward) : s'.pwr = s.pwr := (congrArg State.pwr h :)
theorem now_of_inward {s s' : State} (h : s'.inward = s.inward) : s'.now = s.now := (congrArg State.now h :)

theorem lanesKept_of_inward {s s' : State} (h : s'.inward = s.inward) : LanesKept s s' :=
  ⟨(congrArg State.rooms h :), (congrArg State.dmem h :), (congrArg State.img h :)⟩

theorem lanesKept_of_unreported {s s' : State} (h : s'.unreported = s.unreported) : LanesKept s s' :=
  ⟨(congrArg State.rooms h :), (congrArg State.dmem h :), (congrArg State.img h :)⟩

theorem channelEvent_recorded {s : State} (steward : s.steward = true) (typ src : Nat) (sev : BitVec 2) (offs : List Nat) :
    (s.channelEvent typ src sev offs).recorded typ src sev := by
  rw [State.channelEvent, if_pos steward]
  exact gbEvent_recorded ..

theorem safeEvent_unreported (s : State) (g : GrpId) : (s.safeEvent g).unreported = s.unreported := by
  unfold State.safeEvent
  split
  · rfl
  · exact channelEvent_unreported ..

/-- With a settled role that is no relief's the entry into safe states is critical (R267). -/
theorem safeEvent_recorded {s : State} (steward : s.steward = true) (settled : s.pair.settled = true) (owner : s.isRelief = false) (g : GrpId) :
    (s.safeEvent g).recorded 0x35 g.val sevCritical := by
  have eq : s.safeEvent g = s.channelEvent 0x35 g.val sevCritical [grpReg g 0, grpReg g 8] := by
    simp [State.safeEvent, settled, owner]
  exact eq ▸ channelEvent_recorded steward ..

/-- An entry is recorded the first time its latched bit sets; each one raises vector 6 (R267). -/
def State.entryReported (s : State) (g : GrpId) (again : Bool) : State := if again then s.raiseLater 6 else s.safeEvent g

theorem entryReported_unreported (s : State) (g : GrpId) (again : Bool) : (s.entryReported g again).unreported = s.unreported := by
  cases again
  · exact safeEvent_unreported s g
  · rfl

/-! ### The supervisor (R261, R262) -/

/-- The group whose supervisor is in control. -/
def Group.supervised (p : Group) : Group := { p with supact := true }

/-- The channel that follows no owner. -/
def Chan.unfollowing (c : Chan) : Chan := { c with follow := false }

section
variable (s : State) (g : GrpId)

theorem applySafe_eq : s.applySafe g = ((s.updGrp g Group.supervised).rechan g fun _ _ => Chan.unfollowing).driveGroup g := rfl

theorem applySafe_inward : (s.applySafe g).inward = s.inward := by
  rw [applySafe_eq, driveGroup_inward, rechan_inward, updGrp_inward]

theorem applySafe_group : (s.applySafe g).groups[g].unrated = s.groups[g].supervised.unrated := by
  rw [applySafe_eq, driveGroup_unrated, rechan_groups, State.updGrp_group, if_pos rfl]

variable {g} {n : ChanId}

theorem applySafe_chan (own : grpOf n = g) :
    (s.applySafe g).chans[n] = s.chans[n].unfollowing.redriven s.pwr.quietIn false s.groups[g].supervised s.now := by
  rw [applySafe_eq, driveGroup_chan _ own, rechan_chan _ _ own, rechan_groups, rechan_pwr, rechan_now, State.updGrp_group, if_pos rfl]
  rfl

theorem applySafe_otherChan (other : grpOf n ≠ g) : (s.applySafe g).chans[n] = s.chans[n] := by
  rw [applySafe_eq, driveGroup_otherChan _ other, rechan_otherChan _ _ other, State.updGrp_chans]

end

/-- From s to s' the supervisor of group g has applied its safe states: no channel of the group follows, outputs whose safe state is OFF are
OFF where the module is the owner, and nothing else has changed in rooms and channels. -/
structure SafeApplied (s s' : State) (g : GrpId) : Prop where
  lanes : LanesKept s s'
  own : ∀ n : ChanId, grpOf n = g → s'.chans[n].follow = false
  off : ∀ (n : ChanId) (e : ChanCfg), grpOf n = g → s.chans[n].cfg = some e → e.mode = 8 ∨ e.mode = 9 → e.safe = 0 →
    s.groups[g].relief = false → s'.chans[n].drive = false
  others : ∀ n : ChanId, grpOf n ≠ g → s'.chans[n] = s.chans[n]

theorem SafeApplied.congr {s s₁ s' : State} {g : GrpId} (h : SafeApplied s s₁ g) (chans : s'.chans = s₁.chans) (lanes : LanesKept s₁ s') :
    SafeApplied s s' g :=
  ⟨h.lanes.trans lanes, chans ▸ h.own, chans ▸ h.off, chans ▸ h.others⟩

theorem redriven_safeOff {c : Chan} {e : ChanCfg} (entry : c.cfg = some e) (dout : e.isDout = true) (supervised : c.follow = false)
    (safe : e.safe = 0) {g : Group} (owner : g.relief = false) (quiet commit : Bool) (now : Nat) :
    (c.redriven quiet commit g now).drive = false := by
  have still : (c.terminal g).follow = false := (congrArg Chan.follow (terminal_undriven c g) :).trans supervised
  rw [redriven_dout entry dout]
  exact driven_unwanted (by rw [Chan.applies, wantOn_safeOff still safe, Bool.and_false]) owner ..

theorem applySafe_safe (s : State) (g : GrpId) : SafeApplied s (s.applySafe g) g where
  lanes := lanesKept_of_inward (applySafe_inward s g)
  own n own := by
    rw [applySafe_chan s own, redriven_follow]
    rfl
  off n e own entry mode safe owner := by
    rw [applySafe_chan s own]
    exact redriven_safeOff (c := s.chans[n].unfollowing) entry (isDout_iff.mpr mode) rfl safe owner ..
  others n other := applySafe_otherChan s other

/-- The group that may align again (R263). -/
def Group.realigning (p : Group) : Group := { p with withhold := false }

/-- The group after an entry into safe states that counts (R261). -/
def Group.enteredSafe (p : Group) : Group := { p with supevt := true, supcount := satInc p.supcount }

theorem realigning_unrated {p q : Group} (same : p.unrated = q.unrated) : p.realigning.unrated = q.realigning.unrated :=
  congrArg Group.realigning same

theorem enteredSafe_unrated {p q : Group} (same : p.unrated = q.unrated) : p.enteredSafe.unrated = q.enteredSafe.unrated :=
  congrArg Group.enteredSafe same

/-- The supervisor has applied the safe states, and alignment may begin again (R261, R263). -/
def State.timedOut (s : State) (g : GrpId) : State := (s.applySafe g).updGrp g Group.realigning

/-- It has done so anew, which is not yet recorded. -/
def State.enteredSafe (s : State) (g : GrpId) : State := ((s.timedOut g).updGrp g Group.enteredSafe).mark (grpReg g 0) 16

section
variable (s : State) (g : GrpId)

theorem timedOut_inward : (s.timedOut g).inward = s.inward := (updGrp_inward ..).trans (applySafe_inward s g)

theorem timedOut_safe : SafeApplied s (s.timedOut g) g :=
  (applySafe_safe s g).congr (State.updGrp_chans ..) (lanesKept_of_inward (updGrp_inward ..))

theorem timedOut_group : (s.timedOut g).groups[g].unrated = s.groups[g].supervised.realigning.unrated := by
  rw [State.timedOut, State.updGrp_group, if_pos rfl]
  exact realigning_unrated (applySafe_group s g)

theorem enteredSafe_inward : (s.enteredSafe g).inward = s.inward := by
  rw [State.enteredSafe, mark_inward, updGrp_inward, timedOut_inward]

theorem enteredSafe_safe : SafeApplied s (s.enteredSafe g) g := by
  refine (timedOut_safe s g).congr ?_ (lanesKept_of_inward ((enteredSafe_inward s g).trans (timedOut_inward s g).symm))
  rw [State.enteredSafe, State.mark_chans, State.updGrp_chans]

theorem enteredSafe_group : (s.enteredSafe g).groups[g].unrated = s.groups[g].supervised.realigning.enteredSafe.unrated := by
  rw [State.enteredSafe, State.mark_groups, State.updGrp_group, if_pos rfl]
  exact enteredSafe_unrated (timedOut_group s g)

end

section
variable {s : State} {g : GrpId} (t : Nat)

/-- Silence within the timeout does nothing. -/
theorem exec_supervisorTimeout_early (early : s.then t < s.groups[g].lastAlign + s.groups[g].timeout.toNat * 400000) :
    exec (.supervisorTimeout t g) s = .next (s.at t) := by
  refine congrArg Host.Outcome.next (if_neg fun ⟨_, due⟩ => ?_)
  have due' : s.groups[g].lastAlign + (if s.groups[g].timeout = 0 then 5 else s.groups[g].timeout.toNat) * 400000 ≤ s.then t := due
  split at due'
  case isTrue zero =>
    rw [zero] at early
    change _ < s.groups[g].lastAlign + 0 * 400000 at early
    omega
  case isFalse => omega

variable (supplied : s.groups[g].lplus = true) (timed : s.groups[g].timeout ≠ 0)
  (due : s.groups[g].lastAlign + s.groups[g].timeout.toNat * 400000 ≤ s.then t)
include supplied timed due

theorem exec_supervisorTimeout_due : exec (.supervisorTimeout t g) s = .next (
    if s.groups[g].supact then (s.at t).timedOut g
    else ((s.at t).enteredSafe g).entryReported g s.groups[g].supevt) := by
  refine congrArg Host.Outcome.next (if_pos ⟨supplied, ?_⟩)
  change s.groups[g].lastAlign + (if s.groups[g].timeout = 0 then 5 else s.groups[g].timeout.toNat) * 400000 ≤ s.then t
  rw [if_neg timed]
  exact due

/-- A supervisor already in control applies its safe states again and counts nothing. -/
theorem supervisorTimeout_repeats (acting : s.groups[g].supact = true) : ∃ s', exec (.supervisorTimeout t g) s = .next s' ∧
    SafeApplied (s.at t) s' g ∧ s'.groups[g].unrated = s.groups[g].supervised.realigning.unrated := by
  refine ⟨_, exec_supervisorTimeout_due t supplied timed due, ?_⟩
  rw [acting, if_pos rfl]
  exact ⟨timedOut_safe .., timedOut_group ..⟩

/-- An entry counts, and is recorded unless the latched bit has been set before. -/
theorem supervisorTimeout_enters (idle : s.groups[g].supact = false) : ∃ s', exec (.supervisorTimeout t g) s = .next s' ∧
    SafeApplied (s.at t) s' g ∧ s'.groups[g].unrated = s.groups[g].supervised.realigning.enteredSafe.unrated ∧
    (s.groups[g].supevt = false → s.steward = true → s.pair.settled = true → s.isRelief = false → s'.recorded 0x35 g.val sevCritical) := by
  have safe := enteredSafe_safe (s.at t) g
  have group := enteredSafe_group (s.at t) g
  have kept := enteredSafe_inward (s.at t) g
  refine ⟨_, exec_supervisorTimeout_due t supplied timed due, ?_⟩
  rw [idle, if_neg Bool.false_ne_true]
  generalize (s.at t).enteredSafe g = s₁ at *
  have same := entryReported_unreported s₁ g s.groups[g].supevt
  refine ⟨safe.congr (chans_of_unreported same) (lanesKept_of_unreported same), ?_, fun new steward settled owner => ?_⟩
  · exact (congrArg (·[g].unrated) (groups_of_unreported same)).trans group
  · have steward' : s₁.steward = true := (congrArg State.steward kept :).trans steward
    have settled' : s₁.pair.settled = true := (pair_of_inward kept ▸ settled :)
    have owner' : s₁.isRelief = false := by
      rw [State.isRelief, pair_of_inward kept]
      exact owner
    rw [new]
    exact safeEvent_recorded steward' settled' owner' g

end

/-! ### Loss of L+ (R262, R264) -/

/-- The group that has lost L+. -/
def Group.lost (p : Group) : Group :=
  { p with
    lplus := false
    cfg := false
    supact := false
    lploss := true
    lpv := 0
    igrp := 0
    engok := false
    held := []
    cjok := false }

/-- Group g has lost L+, which the host may read from now on. -/
def State.darkened (s : State) (g : GrpId) : State := (s.updGrp g Group.lost).mark (grpReg g 0) 32

/-- Its outputs are OFF, and its channels have forgotten what they held. -/
def State.unsupplied (s : State) (g : GrpId) : State := (((s.darkened g).driveGroup g).rechan g fun _ _ => Chan.unpowered).driveGroup g

/-- The channel that its drive in a group without L+ leaves before and after it forgets. -/
def Chan.unsupplied (c : Chan) (quiet : Bool) (p : Group) (now : Nat) : Chan :=
  (c.redriven quiet false p.lost now).unpowered.redriven quiet false p.lost now

section
variable (s : State) {g : GrpId}

theorem darkened_group (g : GrpId) : (s.darkened g).groups[g] = s.groups[g].lost := getElem_upd_self ..

theorem darkened_driven (g : GrpId) : ((s.darkened g).driveGroup g).inward = s.inward := by
  rw [driveGroup_inward, State.darkened, mark_inward, updGrp_inward]

theorem unsupplied_inward (g : GrpId) : (s.unsupplied g).inward = s.inward := by
  rw [State.unsupplied, driveGroup_inward, rechan_inward, darkened_driven]

theorem unsupplied_group (g : GrpId) : (s.unsupplied g).groups[g].unrated = s.groups[g].lost.unrated := by
  rw [State.unsupplied, driveGroup_unrated, rechan_groups, driveGroup_unrated, darkened_group]

theorem unsupplied_otherGroup {h : GrpId} (other : h ≠ g) : (s.unsupplied g).groups[h] = s.groups[h] := by
  rw [State.unsupplied, driveGroup_otherGroup _ other, rechan_groups, driveGroup_otherGroup _ other, State.darkened, State.mark_groups,
    State.updGrp_group, if_neg other.symm]

theorem unsupplied_chan {n : ChanId} (own : grpOf n = g) :
    (s.unsupplied g).chans[n] = s.chans[n].unsupplied s.pwr.quietIn s.groups[g] s.now := by
  have pwr := pwr_of_inward (darkened_driven s g)
  have now := now_of_inward (darkened_driven s g)
  have group : ((s.darkened g).driveGroup g).groups[g].unrated = s.groups[g].lost.unrated := by rw [driveGroup_unrated, darkened_group]
  rw [State.unsupplied, driveGroup_chan _ own, rechan_chan _ _ own, rechan_groups, rechan_pwr, rechan_now, pwr, now, redriven_congr group,
    driveGroup_chan _ own, darkened_group]
  rfl

end

/-- Without L+ a channel has its bypass closed and its load and excitation off, and holds nothing as committed (R43, R264). -/
theorem Chan.unsupplied_fields (c : Chan) (quiet : Bool) (p : Group) (now : Nat) : let c' := c.unsupplied quiet p now
    (c'.bypass = true ∧ c'.sink = false ∧ c'.excite = false) ∧ c'.held = false ∧ c'.lastCom = none ∧ c'.recv = none := by
  have kept : (c.unsupplied quiet p now).undriven = (c.redriven quiet false p.lost now).unpowered.undriven := redriven_undriven ..
  obtain ⟨bypass, sink, excite⟩ := redriven_terminal (c.redriven quiet false p.lost now).unpowered quiet false p.lost now
  obtain ⟨bypass', sink', excite'⟩ := terminal_unmoded (c.redriven quiet false p.lost now).unpowered (g := p.lost) rfl
  exact ⟨⟨bypass.trans bypass', sink.trans sink', excite.trans excite'⟩, (congrArg Chan.held kept :), (congrArg Chan.lastCom kept :),
    (congrArg Chan.recv kept :)⟩

theorem Chan.unsupplied_off {c : Chan} {e : ChanCfg} (entry : c.cfg = some e) (dout : e.isDout = true) (quiet : Bool) (p : Group) (now : Nat) :
    (c.unsupplied quiet p now).drive = false := by
  have entry' : (c.redriven quiet false p.lost now).unpowered.cfg = some e := (redriven_cfg ..).trans entry
  rw [Chan.unsupplied, redriven_dout entry' dout]
  exact driven_blocked rfl ..

/-- The loss is reported, and the clock monitor chooses another reference when this group was its own (R62, R264). -/
def State.lossReported (s : State) (g : GrpId) (first : Bool) : State :=
  let s := if first then s.channelEvent 0x36 g.val sevFault [grpReg g 4] else s.raiseLater 6
  if s.clk.refsrc = true ∧ s.clk.refgrp.toNat = g.val then s.chooseRef else s

theorem lossReported_unreported (s : State) (g : GrpId) (first : Bool) : ∃ clk,
    (s.lossReported g first).unreported = State.unreported { s with clk := clk } := by
  have report : State.unreported (if first then s.channelEvent 0x36 g.val sevFault [grpReg g 4] else s.raiseLater 6) = s.unreported := by
    split
    · exact channelEvent_unreported ..
    · rfl
  unfold State.lossReported
  generalize (if first then s.channelEvent 0x36 g.val sevFault [grpReg g 4] else s.raiseLater 6) = s₁ at report
  dsimp only
  split
  case isTrue =>
    exact ⟨_, (chooseRef_unreported s₁).trans (congrArg (fun s₂ : State => { s₂ with clk := s₁.clk.refer s₁.refGroup }) report)⟩
  case isFalse => exact ⟨s.clk, report⟩

theorem exec_lplusLost {s : State} {g : GrpId} (supplied : s.groups[g].lplus = true) (t : Nat) :
    exec (.lplusLost t g) s = .next (((s.at t).unsupplied g).lossReported g (!((s.at t).groups[g]).lploss)) := if_pos supplied

/-- Loss of L+ writes its group and the group's channels. -/
theorem lplusLost_unsupplies {s : State} {g : GrpId} (supplied : s.groups[g].lplus = true) (t : Nat) : ∃ s', exec (.lplusLost t g) s = .next s' ∧
    LanesKept s s' ∧ s'.groups[g].unrated = s.groups[g].lost.unrated ∧ (∀ h : GrpId, h ≠ g → s'.groups[h] = s.groups[h]) ∧
    ∀ n : ChanId, grpOf n = g → s'.chans[n] = s.chans[n].unsupplied s.pwr.quietIn s.groups[g] (s.then t) := by
  have lanes := lanesKept_of_inward (unsupplied_inward (s.at t) g)
  have group := unsupplied_group (s.at t) g
  have others := fun h => unsupplied_otherGroup (s.at t) (g := g) (h := h)
  have chans := fun n => unsupplied_chan (s.at t) (g := g) (n := n)
  refine ⟨_, exec_lplusLost supplied t, ?_⟩
  generalize (s.at t).unsupplied g = s₁ at *
  obtain ⟨clk, same⟩ := lossReported_unreported s₁ g (!((s.at t).groups[g]).lploss)
  generalize s₁.lossReported g _ = s' at *
  have lanes' : LanesKept s₁ s' := ⟨(congrArg State.rooms same :), (congrArg State.dmem same :), (congrArg State.img same :)⟩
  have groups : s'.groups = s₁.groups := (congrArg State.groups same :)
  have chans' : s'.chans = s₁.chans := (congrArg State.chans same :)
  exact ⟨lanes.trans lanes', (congrArg (·[g].unrated) groups).trans group, fun h other => (congrArg (·[h]) groups).trans (others h other),
    fun n own => (congrArg (·[n]) chans').trans (chans n own)⟩

/-! ### Return of L+ (R264, R265) -/

/-- The group whose L+ has returned with a voltage. -/
def Group.restored (p : Group) (volts now : Nat) : Group :=
  { Group.init with
    lpv := BitVec.ofNat 12 volts
    almsel := p.almsel
    lastAlign := now
    spare := p.spare
    engfail := p.engfail
    calCh := p.calCh
    calLow := p.calLow
    calHigh := p.calHigh }

/-- Its channel: without a running logic side the mode is set anew. -/
def Chan.restored (c : Chan) (anew : Bool) (now : Nat) : Chan := (if anew then c.anew c.cfg now else c).unfollowing

/-- L+ of a group has returned. -/
def State.resupplied (s : State) (g : GrpId) (volts : Nat) : State :=
  ((s.updGrp g fun p => p.restored volts s.now).rechan g fun now _ c => c.restored (!s.steward) now).driveGroup g

theorem exec_lplusReturn {s : State} {g : GrpId} (dark : s.groups[g].lplus = false) (t volts : Nat) :
    exec (.lplusReturn t g volts) s = .next ((s.at t).resupplied g volts) :=
  if_neg (ne_true_of_eq_false dark)

section
variable (s : State) {g : GrpId} (volts : Nat)

theorem resupplied_inward (g : GrpId) : (s.resupplied g volts).inward = s.inward := by
  rw [State.resupplied, driveGroup_inward, rechan_inward, updGrp_inward]

theorem resupplied_group (g : GrpId) : (s.resupplied g volts).groups[g].unrated = (s.groups[g].restored volts s.now).unrated := by
  rw [State.resupplied, driveGroup_unrated, rechan_groups, State.updGrp_group, if_pos rfl]

theorem resupplied_chan {n : ChanId} (own : grpOf n = g) : (s.resupplied g volts).chans[n] =
    (s.chans[n].restored (!s.steward) s.now).redriven s.pwr.quietIn false (s.groups[g].restored volts s.now) s.now := by
  rw [State.resupplied, driveGroup_chan _ own, rechan_chan _ _ own, rechan_groups, rechan_pwr, rechan_now, State.updGrp_group, if_pos rfl]
  rfl

end

theorem restored_cfg (c : Chan) (anew : Bool) (now : Nat) : (c.restored anew now).cfg = c.cfg := by cases anew <;> rfl

theorem isAout_of_mode {e : ChanCfg} (mode : e.mode = 0x20 ∨ e.mode = 0x21 ∨ e.mode = 0x22) : e.isAout = true ∧ e.isDout = false := by
  rcases mode with mode | mode | mode <;> simp [ChanCfg.isAout, ChanCfg.isDout, mode]

/-- The power-on states of a channel whose L+ has returned (R44, R285, R291). -/
theorem restored_powerOn {c : Chan} {e : ChanCfg} (entry : c.cfg = some e) (anew : Bool) (p : Group) (volts now : Nat) :
    let c' := (c.restored anew now).redriven false false (p.restored volts now) now
    c'.bypass = true ∧ (e.mode = 8 ∨ e.mode = 9 → c'.drive = false) ∧ (e.mode = 0x20 ∨ e.mode = 0x21 → c'.aout = .off) ∧
      (e.mode = 0x22 → c'.aout = .alarm (!p.almsel)) := by
  have entry' : (c.restored anew now).cfg = some e := (restored_cfg ..).trans entry
  generalize c.restored anew now = d at entry'
  have stage (mode : e.mode = 0x20 ∨ e.mode = 0x21 ∨ e.mode = 0x22) : (d.redriven false false (p.restored volts now) now).aout =
      if e.mode = 0x22 then .alarm (!p.almsel) else .off := by
    obtain ⟨aout, other⟩ := isAout_of_mode mode
    rw [redriven_aout entry' aout other]
    exact drivenAna_powerOn rfl rfl rfl ..
  refine ⟨(redriven_terminal ..).1.trans (terminal_unmoded d rfl).1, fun mode => ?_, fun mode => ?_, fun mode => ?_⟩
  · rw [redriven_dout entry' (isDout_iff.mpr mode)]
    exact driven_unwanted rfl rfl ..
  · rw [stage (by omega), if_neg (by omega)]
  · rw [stage (.inr (.inr mode)), if_pos mode]

/-! ### The configuration of a group (R239, R265) -/

/-- The entry of channel n in a configuration. -/
def Conf.entry (c : Conf) (n : ChanId) : Option ChanCfg := c.way.chans.find? (fun e => e.ch == n.val)

/-- The group with the modes of a configuration. -/
def Group.moded (p : Group) (c : Conf) (g : GrpId) (relief : Bool) : Group :=
  { p with
    cfg := true
    timeout := BitVec.ofNat 7 (timeoutOf ((chansOf g).filterMap c.entry))
    relief := relief
    sched := Config.slotSchedule (schedUse c.way g.val) }

/-- Channels and group have the modes of a configuration, and drive accordingly. -/
def State.moded (s : State) (c : Conf) (g : GrpId) : State :=
  ((s.rechan g fun now n x => x.load (c.entry n) now).updGrp g fun p => p.moded c g (if s.pair.settled then s.isRelief else p.relief)).driveGroup g

theorem loadGroup_eq {s : State} {g : GrpId} (supplied : s.groups[g].lplus = true) (c : Conf) : s.loadGroup c g = s.moded c g := by
  have pair := pair_of_inward (rechan_inward s (fun now n x => x.load (c.entry n) now) g)
  have eq : s.loadGroup c g = _ := if_pos supplied
  rw [eq, State.moded, State.isRelief, ← pair]
  rfl

section
variable (s : State) (c : Conf) {g : GrpId}

theorem moded_inward (g : GrpId) : (s.moded c g).inward = s.inward := by
  rw [State.moded, driveGroup_inward, updGrp_inward, rechan_inward]

theorem moded_group (g : GrpId) : (s.moded c g).groups[g].unrated =
    (s.groups[g].moded c g (if s.pair.settled then s.isRelief else s.groups[g].relief)).unrated := by
  rw [State.moded, driveGroup_unrated, State.updGrp_group, if_pos rfl, rechan_groups]

theorem moded_chan {n : ChanId} (own : grpOf n = g) : (s.moded c g).chans[n] = (s.chans[n].load (c.entry n) s.now).redriven s.pwr.quietIn false
    (s.groups[g].moded c g (if s.pair.settled then s.isRelief else s.groups[g].relief)) s.now := by
  rw [State.moded, driveGroup_chan _ own, State.updGrp_chans, rechan_chan _ _ own, State.updGrp_group, if_pos rfl, rechan_groups, State.updGrp_pwr,
    rechan_pwr, State.updGrp_now, rechan_now]

end

theorem load_cfg (c : Chan) (e : Option ChanCfg) (now : Nat) : (c.load e now).cfg = e := by
  unfold Chan.load
  split
  · assumption
  · rfl

theorem exec_groupConfigReload {s : State} {g : GrpId} {c : Conf} (steward : s.steward = true) (supplied : s.groups[g].lplus = true)
    (unmoded : s.groups[g].cfg = false) (cur : s.app.cur = some c) (t : Nat) :
    exec (.groupConfigReload t g) s = .next ((s.at t).moded c g) := by
  have held : (s.at t).fieldConf = some c := by rw [State.fieldConf, State.at_app, cur]; rfl
  rw [← loadGroup_eq (s := s.at t) supplied]
  show execGroupConfigReload t g s = _
  rw [execGroupConfigReload, held]
  exact congrArg Host.Outcome.next (if_pos ⟨steward, unmoded⟩)

/-- Settles O18: an event of a group writes the group, then each of its channels, then drives them once; what each becomes is the drive of one
channel under the group's new L+, modes and owner. -/
theorem supervisorsAndFieldSupply : Obligations.SupervisorsAndFieldSupply := by
  intro s t g volts c
  refine ⟨fun supplied idle timed due => ?enters, fun supplied acting timed due => ?repeats,
    fun _ early => ⟨_, exec_supervisorTimeout_early t early, rfl⟩, fun supplied => ?lost, fun dark => ?returns,
    fun steward supplied unmoded cur => ?reloads⟩
  case enters =>
    obtain ⟨s', run, ⟨lanes, own, off, others⟩, group, recorded⟩ := supervisorTimeout_enters t supplied timed due idle
    exact ⟨s', run, (congrArg Group.supact group :), (congrArg Group.supevt group :), (congrArg Group.supcount group :), lanes,
      (congrArg Group.withhold group :), recorded, own, off, others⟩
  case repeats =>
    obtain ⟨s', run, ⟨lanes, own, -, others⟩, group⟩ := supervisorTimeout_repeats t supplied timed due acting
    exact ⟨s', run, (congrArg Group.supact group :), (congrArg Group.withhold group :), (congrArg Group.supevt group :),
      (congrArg Group.supcount group :), lanes, own, others⟩
  case lost =>
    obtain ⟨s', run, lanes, group, others, chans⟩ := lplusLost_unsupplies supplied t
    refine ⟨s', run, (congrArg Group.lplus group :), (congrArg Group.cfg group :), (congrArg Group.lploss group :),
      (congrArg Group.engok group :), lanes, fun n e own entry mode => ?_, fun n own => ?_, others⟩
    · rw [chans n own]
      exact ⟨Chan.unsupplied_off entry (isDout_iff.mpr mode) .., (Chan.unsupplied_fields ..).2⟩
    · rw [chans n own]
      exact (Chan.unsupplied_fields ..).1
  case returns =>
    have group := resupplied_group (s.at t) volts g
    have lanes := lanesKept_of_inward (resupplied_inward (s.at t) volts g)
    have chans := fun n => resupplied_chan (s.at t) volts (g := g) (n := n)
    refine ⟨_, exec_lplusReturn dark t volts, ?_⟩
    generalize (s.at t).resupplied g volts = s' at *
    refine ⟨(congrArg Group.lplus group :), (congrArg Group.cfg group :), (congrArg Group.supact group :), (congrArg Group.supevt group :),
      (congrArg Group.protLatch group :), (congrArg Group.almsel group :), lanes, (congrArg Group.lastAlign group :),
      fun n e own entry quiet => ?_⟩
    rw [chans n own, State.at_pwr, quiet]
    exact restored_powerOn (c := s.chans[n]) entry ..
  case reloads =>
    have group := moded_group (s.at t) c g
    have lanes := lanesKept_of_inward (moded_inward (s.at t) c g)
    have chans := fun n => moded_chan (s.at t) c (g := g) (n := n)
    refine ⟨_, exec_groupConfigReload steward supplied unmoded cur t, ?_⟩
    generalize (s.at t).moded c g = s' at *
    refine ⟨(congrArg Group.cfg group :), (congrArg Group.relief group :), lanes, fun n own => ?_⟩
    rw [chans n own]
    refine ⟨(redriven_cfg ..).trans (load_cfg ..), (redriven_terminal ..).1.trans ((terminal_bypass _ ?_).trans (congrArg _ (load_cfg ..)))⟩
    exact (Bool.and_true _).trans supplied

end Sys2Proof.Machine
end

section
/-! PROOFS. The end of a rate hold (R252): why it may begin the next one, where an output is ON that is to be OFF. -/

namespace Sys2Proof.Machine

/-- The channel whose interval has ended (R252). -/
def Chan.intervalEnded (c : Chan) : Chan := { c with rateUntil := none }

/-- A channel that does not follow its commits is driven anew when its interval ends (R260). -/
theorem exec_rateHoldEnd_supervised {s : State} {ch : ChanId} {u : Nat} (running : s.chans[ch].rateUntil = some u)
    (supervised : s.chans[ch].follow = false) (t : Nat) :
    exec (.rateHoldEnd t ch) s = .next (((s.at (max t u)).updChan ch Chan.intervalEnded).driveChan ch false) := by
  have still : ((s.at (max t u)).updChan ch Chan.intervalEnded).chans[ch].follow = false := by
    rw [State.updChan_chan, if_pos rfl]
    exact supervised
  show execRateHoldEnd t ch s = _
  rw [execRateHoldEnd, running]
  exact congrArg Host.Outcome.next (if_neg (ne_true_of_eq_false still))

/-- A switch-off of a channel with EOFF above 0 starts an interval (R252). -/
theorem driven_startsInterval {c : Chan} {e : ChanCfg} (on : c.drive = true) (limited : 0 < e.eoff) {quiet commit : Bool} {g : Group} {now : Nat}
    (off : (c.driven quiet commit g e now).drive = false) : (c.driven quiet commit g e now).rateUntil ≠ none := by
  have eq : (c.driven quiet commit g e now).rateUntil =
      if c.drive && !(c.driven quiet commit g e now).drive then c.interval e now else c.rateUntil := rfl
  rw [eq, on, off, Chan.interval, if_pos limited]
  exact Option.some_ne_none _

/-- So does the end of an interval that finds an output ON whose safe state is OFF. -/
theorem rateHoldEnd_startsInterval {s : State} {ch : ChanId} {e : ChanCfg} {u : Nat} (entry : s.chans[ch].cfg = some e)
    (dout : e.isDout = true) (limited : 0 < e.eoff) (safe : e.safe = 0) (on : s.chans[ch].drive = true)
    (running : s.chans[ch].rateUntil = some u) (supervised : s.chans[ch].follow = false) (owner : s.groups[grpOf ch].relief = false) (t : Nat) :
    ∃ s', exec (.rateHoldEnd t ch) s = .next s' ∧ s'.chans[ch].rateUntil ≠ none := by
  refine ⟨_, exec_rateHoldEnd_supervised running supervised t, ?_⟩
  have off := redriven_safeOff (c := s.chans[ch].intervalEnded) entry dout supervised safe owner s.pwr.quietIn false (max s.now (max t u))
  have on' : (s.chans[ch].intervalEnded.terminal s.groups[grpOf ch]).drive = true := (terminal_drive ..).trans on
  rw [redriven_dout (c := s.chans[ch].intervalEnded) entry dout] at off
  rw [driveChan_chan, State.updChan_chan, if_pos rfl]
  rw [redriven_dout (c := (s.at (max t u)).chans[ch].intervalEnded) entry dout]
  exact driven_startsInterval on' limited off

/-- After reset group 0 has modes, and its channel 0 is a rate-limited digital output with a safe state of OFF that is ON while an interval
runs. -/
def State.onInInterval : State :=
  (State.reset.updGrp 0 fun p => { p with cfg := true }).updChan 0 fun c =>
    { c with cfg := some { (default : ChanCfg) with mode := 8, eoff := 1 }, drive := true, rateUntil := some 0 }

/-- Refutes O20: its clause about the end of a rate hold does not ask that the output is OFF. In `State.onInInterval` the end of the interval
drives an output that is ON to its safe state OFF, and this switch-off starts the next interval. By R252 an output with EOFF above 0 is OFF
while its interval runs, which the clause would have to ask for. -/
theorem not_outputProtection : ¬ Obligations.OutputProtection := by
  rintro ⟨protection, -⟩
  obtain ⟨-, -, -, ends, -⟩ := protection State.onInInterval 0 0 false false 0 0 _ rfl (.inl rfl) rfl rfl
  obtain ⟨s', run, -, ended, -⟩ := ends 0 rfl
  obtain ⟨s₁, run', restarted⟩ :=
    rateHoldEnd_startsInterval (s := State.onInInterval) (ch := 0) (t := 0) rfl rfl Nat.one_pos rfl rfl rfl rfl rfl
  cases run.symm.trans run'
  exact restarted ended

end Sys2Proof.Machine
end

section
/-! PROOFS. Every command answers, leaves the queue to itself and clears no fuse (R346, R353, R481); a step, and the machine after reset. -/

namespace Sys2Proof.Machine

/-! ### Queue and fuses -/

theorem burns_of_outFixed {s s' : State} {o : Host.Outcome State Fault Refusal} (h : OutFixed s o) (run : o = .next s') : s.Burns s' :=
  State.burns_of_fixed (h s' run)

/-- Every command leaves the queue to itself, and of the fuses it may only blow some (R481): the arms of the dispatch, each with what
`Laws/Keep….lean` says of its meaning. -/
theorem exec_burns (i : Instr) {s s' : State} : exec i s = .next s' → s.Burns s' :=
  match i with
  | .nop t r => burns_of_outFixed (execNop_fixed t r s)
  | .add t r rd ra rb => burns_of_outFixed (execAdd_fixed t r rd ra rb s)
  | .sub t r rd ra rb => burns_of_outFixed (execSub_fixed t r rd ra rb s)
  | .adc t r rd ra rb => burns_of_outFixed (execAdc_fixed t r rd ra rb s)
  | .sbc t r rd ra rb => burns_of_outFixed (execSbc_fixed t r rd ra rb s)
  | .and t r rd ra rb => burns_of_outFixed (execAnd_fixed t r rd ra rb s)
  | .or t r rd ra rb => burns_of_outFixed (execOr_fixed t r rd ra rb s)
  | .xor t r rd ra rb => burns_of_outFixed (execXor_fixed t r rd ra rb s)
  | .andn t r rd ra rb => burns_of_outFixed (execAndn_fixed t r rd ra rb s)
  | .shl t r rd ra rb => burns_of_outFixed (execShl_fixed t r rd ra rb s)
  | .shr t r rd ra rb => burns_of_outFixed (execShr_fixed t r rd ra rb s)
  | .sar t r rd ra rb => burns_of_outFixed (execSar_fixed t r rd ra rb s)
  | .cmp t r ra rb => burns_of_outFixed (execCmp_fixed t r ra rb s)
  | .min t r rd ra rb => burns_of_outFixed (execMin_fixed t r rd ra rb s)
  | .max t r rd ra rb => burns_of_outFixed (execMax_fixed t r rd ra rb s)
  | .minu t r rd ra rb => burns_of_outFixed (execMinu_fixed t r rd ra rb s)
  | .maxu t r rd ra rb => burns_of_outFixed (execMaxu_fixed t r rd ra rb s)
  | .sel t r rd ra rb => burns_of_outFixed (execSel_fixed t r rd ra rb s)
  | .getb t r rd => burns_of_outFixed (execGetb_fixed t r rd s)
  | .addi t r rd ra imm => burns_of_outFixed (execAddi_fixed t r rd ra imm s)
  | .cmpi t r ra imm => burns_of_outFixed (execCmpi_fixed t r ra imm s)
  | .andi t r rd ra imm => burns_of_outFixed (execAndi_fixed t r rd ra imm s)
  | .ori t r rd ra imm => burns_of_outFixed (execOri_fixed t r rd ra imm s)
  | .xori t r rd ra imm => burns_of_outFixed (execXori_fixed t r rd ra imm s)
  | .lui t r rd imm => burns_of_outFixed (execLui_fixed t r rd imm s)
  | .shli t r rd ra n5 => burns_of_outFixed (execShli_fixed t r rd ra n5 s)
  | .shri t r rd ra n5 => burns_of_outFixed (execShri_fixed t r rd ra n5 s)
  | .sari t r rd ra n5 => burns_of_outFixed (execSari_fixed t r rd ra n5 s)
  | .tst t r ra n5 => burns_of_outFixed (execTst_fixed t r ra n5 s)
  | .bext t r rd ra p5 w5 => burns_of_outFixed (execBext_fixed t r rd ra p5 w5 s)
  | .bins t r rd ra p5 w5 => burns_of_outFixed (execBins_fixed t r rd ra p5 w5 s)
  | .lpi t r rd imm => burns_of_outFixed (execLpi_fixed t r rd imm s)
  | .lpr t r rd ra imm => burns_of_outFixed (execLpr_fixed t r rd ra imm s)
  | .loop t r rd boff => burns_of_outFixed (execLoop_fixed t r rd boff s)
  | .jtab t r ra imm => burns_of_outFixed (execJtab_fixed t r ra imm s)
  | .b t r cond boff => burns_of_outFixed (execB_fixed t r cond boff s)
  | .lw t r rd ra imm => burns_of_outFixed (execLw_fixed t r rd ra imm s)
  | .lh t r rd ra imm => burns_of_outFixed (execLh_fixed t r rd ra imm s)
  | .lhu t r rd ra imm => burns_of_outFixed (execLhu_fixed t r rd ra imm s)
  | .lby t r rd ra imm => burns_of_outFixed (execLby_fixed t r rd ra imm s)
  | .lbyu t r rd ra imm => burns_of_outFixed (execLbyu_fixed t r rd ra imm s)
  | .sw t r rd ra imm => burns_of_outFixed (execSw_fixed t r rd ra imm s)
  | .sh t r rd ra imm => burns_of_outFixed (execSh_fixed t r rd ra imm s)
  | .sby t r rd ra imm => burns_of_outFixed (execSby_fixed t r rd ra imm s)
  | .ilw t r rd ra imm => burns_of_outFixed (execIlw_fixed t r rd ra imm s)
  | .ilh t r rd ra imm => burns_of_outFixed (execIlh_fixed t r rd ra imm s)
  | .ilhu t r rd ra imm => burns_of_outFixed (execIlhu_fixed t r rd ra imm s)
  | .ilby t r rd ra imm => burns_of_outFixed (execIlby_fixed t r rd ra imm s)
  | .ilbyu t r rd ra imm => burns_of_outFixed (execIlbyu_fixed t r rd ra imm s)
  | .isw t r rd ra imm => burns_of_outFixed (execIsw_fixed t r rd ra imm s)
  | .ish t r rd ra imm => burns_of_outFixed (execIsh_fixed t r rd ra imm s)
  | .isby t r rd ra imm => burns_of_outFixed (execIsby_fixed t r rd ra imm s)
  | .ldb t r rd ra imm => burns_of_outFixed (execLdb_fixed t r rd ra imm s)
  | .stb t r rd ra imm => burns_of_outFixed (execStb_fixed t r rd ra imm s)
  | .set t r ra imm => burns_of_outFixed (execSet_fixed t r ra imm s)
  | .rst t r ra imm => burns_of_outFixed (execRst_fixed t r ra imm s)
  | .edgeR t r rd ra imm => burns_of_outFixed (execEdgeR_fixed t r rd ra imm s)
  | .edgeF t r rd ra imm => burns_of_outFixed (execEdgeF_fixed t r rd ra imm s)
  | .edgeA t r rd ra imm => burns_of_outFixed (execEdgeA_fixed t r rd ra imm s)
  | .ton t r rd ra imm => burns_of_outFixed (execTon_fixed t r rd ra imm s)
  | .tof t r rd ra imm => burns_of_outFixed (execTof_fixed t r rd ra imm s)
  | .tp t r rd ra imm => burns_of_outFixed (execTp_fixed t r rd ra imm s)
  | .tacc t r rd ra imm => burns_of_outFixed (execTacc_fixed t r rd ra imm s)
  | .ctu t r rd ra imm => burns_of_outFixed (execCtu_fixed t r rd ra imm s)
  | .ctd t r rd ra imm => burns_of_outFixed (execCtd_fixed t r rd ra imm s)
  | .bool3 t r rd ra rb rc tt => burns_of_outFixed (execBool3_fixed t r rd ra rb rc tt s)
  | .mul t r ra rb => burns_of_outFixed (execMul_fixed t r ra rb s)
  | .mulu t r ra rb => burns_of_outFixed (execMulu_fixed t r ra rb s)
  | .mac t r ra rb => burns_of_outFixed (execMac_fixed t r ra rb s)
  | .macu t r ra rb => burns_of_outFixed (execMacu_fixed t r ra rb s)
  | .fadd t r ra rb => burns_of_outFixed (execFadd_fixed t r ra rb s)
  | .fsub t r ra rb => burns_of_outFixed (execFsub_fixed t r ra rb s)
  | .fmul t r ra rb => burns_of_outFixed (execFmul_fixed t r ra rb s)
  | .fdiv t r ra rb => burns_of_outFixed (execFdiv_fixed t r ra rb s)
  | .fmin t r ra rb => burns_of_outFixed (execFmin_fixed t r ra rb s)
  | .fmax t r ra rb => burns_of_outFixed (execFmax_fixed t r ra rb s)
  | .fcmp t r ra rb => burns_of_outFixed (execFcmp_fixed t r ra rb s)
  | .itof t r ra => burns_of_outFixed (execItof_fixed t r ra s)
  | .utof t r ra => burns_of_outFixed (execUtof_fixed t r ra s)
  | .ftoi t r ra => burns_of_outFixed (execFtoi_fixed t r ra s)
  | .div t r ra rb => burns_of_outFixed (execDiv_fixed t r ra rb s)
  | .divu t r ra rb => burns_of_outFixed (execDivu_fixed t r ra rb s)
  | .mfs t r rd spr => burns_of_outFixed (execMfs_fixed t r rd spr s)
  | .mts t r spr ra => burns_of_outFixed (execMts_fixed t r spr ra s)
  | .rdfeat t r rd feat => burns_of_outFixed (execRdfeat_fixed t r rd feat s)
  | .rest t r => burns_of_outFixed (execRest_fixed t r s)
  | .wdk t r ra => burns_of_outFixed (execWdk_fixed t r ra s)
  | .invalidWordFetched t r word => burns_of_outFixed (execInvalidWordFetched_fixed t r word s)
  | .macResultWrite t r => burns_of_outFixed (execMacResultWrite_fixed t r s)
  | .fpuResultWrite t r => burns_of_outFixed (execFpuResultWrite_fixed t r s)
  | .dividerResultWrite t r => burns_of_outFixed (execDividerResultWrite_fixed t r s)
  | .distanceRuleBroken t r => burns_of_outFixed (execDistanceRuleBroken_fixed t r s)
  | .baseTick t => burns_of_outFixed (execBaseTick_fixed t s)
  | .taskDeadline t r => burns_of_outFixed (execTaskDeadline_fixed t r s)
  | .outputCommitApply t g => burns_of_outFixed (execOutputCommitApply_fixed t g s)
  | .maintenanceSlot t lane => burns_of_outFixed (execMaintenanceSlot_fixed t lane s)
  | .scrubRead t rd addr res => burns_of_outFixed (execScrubRead_fixed t rd addr res s)
  | .memorySelfTest t bank test => burns_of_outFixed (execMemorySelfTest_fixed t bank test s)
  | .hardwareFault t ev => burns_of_outFixed (execHardwareFault_fixed t ev s)
  | .faultResetEntry t => burns_of_outFixed (execFaultResetEntry_fixed t s)
  | .resetExit t => burns_of_outFixed (execResetExit_fixed t s)
  | .stewardStart t => burns_of_outFixed (execStewardStart_fixed t s)
  | .startupConfigLoad t digestsOk engines => burns_of_outFixed (execStartupConfigLoad_fixed t digestsOk engines s)
  | .roleSettle t => burns_of_outFixed (execRoleSettle_fixed t s)
  | .autoStart t => burns_of_outFixed (execAutoStart_fixed t s)
  | .pllLock t => burns_of_outFixed (execPllLock_fixed t s)
  | .clockMonitorWindow t count => burns_of_outFixed (execClockMonitorWindow_fixed t count s)
  | .clockJudgementTimeout t => burns_of_outFixed (execClockJudgementTimeout_fixed t s)
  | .pllLossOfLock t => burns_of_outFixed (execPllLossOfLock_fixed t s)
  | .rtcOscillatorStopped t => burns_of_outFixed (execRtcOscillatorStopped_fixed t s)
  | .referenceAppears t => burns_of_outFixed (execReferenceAppears_fixed t s)
  | .vsupValid t => burns_of_outFixed (execVsupValid_fixed t s)
  | .holdUpCharged t => burns_of_outFixed (execHoldUpCharged_fixed t s)
  | .vsupFail t => burns_of_outFixed (execVsupFail_fixed t s)
  | .powerFailResetEntry t => burns_of_outFixed (execPowerFailResetEntry_fixed t s)
  | .resetNAssert t => burns_of_outFixed (execResetNAssert_fixed t s)
  | .resetNDeassert t => burns_of_outFixed (execResetNDeassert_fixed t s)
  | .perstNAssert t => burns_of_outFixed (execPerstNAssert_fixed t s)
  | .perstNDeassert t => burns_of_outFixed (execPerstNDeassert_fixed t s)
  | .temperatureMeasure t centi => burns_of_outFixed (execTemperatureMeasure_fixed t centi s)
  | .supervisorTimeout t g => burns_of_outFixed (execSupervisorTimeout_fixed t g s)
  | .quietInAssert t => burns_of_outFixed (execQuietInAssert_fixed t s)
  | .quietInDeassert t => burns_of_outFixed (execQuietInDeassert_fixed t s)
  | .lplusLost t g => burns_of_outFixed (execLplusLost_fixed t g s)
  | .lplusReturn t g volts10mV => burns_of_outFixed (execLplusReturn_fixed t g volts10mV s)
  | .groupConfigReload t g => burns_of_outFixed (execGroupConfigReload_fixed t g s)
  | .inputRawChange t ch level => burns_of_outFixed (execInputRawChange_fixed t ch level s)
  | .inputFilterAccept t ch => burns_of_outFixed (execInputFilterAccept_fixed t ch s)
  | .wireBreak t ch set => burns_of_outFixed (execWireBreak_fixed t ch set s)
  | .currentLimit t ch on milliamp => burns_of_outFixed (execCurrentLimit_fixed t ch on milliamp s)
  | .shortCircuit t ch thermal => burns_of_outFixed (execShortCircuit_fixed t ch thermal s)
  | .groupOvercurrent t g milliamps => burns_of_outFixed (execGroupOvercurrent_fixed t g milliamps s)
  | .demagEnergyMeasured t ch millijoule => burns_of_outFixed (execDemagEnergyMeasured_fixed t ch millijoule s)
  | .rateHoldEnd t ch => burns_of_outFixed (execRateHoldEnd_fixed t ch s)
  | .readbackDiscrepancy t ch set => burns_of_outFixed (execReadbackDiscrepancy_fixed t ch set s)
  | .openLoad t ch set => burns_of_outFixed (execOpenLoad_fixed t ch set s)
  | .engineFrame t g frame => burns_of_outFixed (execEngineFrame_fixed t g frame s)
  | .spareConnect t => burns_of_outFixed (execSpareConnect_fixed t s)
  | .spareScheduleStart t => burns_of_outFixed (execSpareScheduleStart_fixed t s)
  | .analogueInputFlag t ch flag set => burns_of_outFixed (execAnalogueInputFlag_fixed t ch flag set s)
  | .analogueOutputFault t ch flag set => burns_of_outFixed (execAnalogueOutputFault_fixed t ch flag set s)
  | .canFrameReceived t k frame => burns_of_outFixed (execCanFrameReceived_fixed t k frame s)
  | .canWindowOpen t k entry => burns_of_outFixed (execCanWindowOpen_fixed t k entry s)
  | .canTxAttempt t k tdelay => burns_of_outFixed (execCanTxAttempt_fixed t k tdelay s)
  | .canTxComplete t k result => burns_of_outFixed (execCanTxComplete_fixed t k result s)
  | .canFrameWithdraw t k entry => burns_of_outFixed (execCanFrameWithdraw_fixed t k entry s)
  | .canError t k err => burns_of_outFixed (execCanError_fixed t k err s)
  | .canRecoveryComplete t k => burns_of_outFixed (execCanRecoveryComplete_fixed t k s)
  | .canVplusLost t k => burns_of_outFixed (execCanVplusLost_fixed t k s)
  | .canVplusReturn t k => burns_of_outFixed (execCanVplusReturn_fixed t k s)
  | .rateDetectionDataTimeout t k => burns_of_outFixed (execRateDetectionDataTimeout_fixed t k s)
  | .rateDetectionTimeout t k => burns_of_outFixed (execRateDetectionTimeout_fixed t k s)
  | .dominantTimeOut t k => burns_of_outFixed (execDominantTimeOut_fixed t k s)
  | .canRecover t k => burns_of_outFixed (execCanRecover_fixed t k s)
  | .canTermWrite t k on => burns_of_outFixed (execCanTermWrite_fixed t k on s)
  | .canDetStart t k => burns_of_outFixed (execCanDetStart_fixed t k s)
  | .canDetAbort t k => burns_of_outFixed (execCanDetAbort_fixed t k s)
  | .driverReset t val => burns_of_outFixed (execDriverReset_fixed t val s)
  | .scanClrEcc t => burns_of_outFixed (execScanClrEcc_fixed t s)
  | .scanClrPeak t => burns_of_outFixed (execScanClrPeak_fixed t s)
  | .scanClrFev t => burns_of_outFixed (execScanClrFev_fixed t s)
  | .npClrEv t => burns_of_outFixed (execNpClrEv_fixed t s)
  | .nvProtWrite t val => burns_of_outFixed (execNvProtWrite_fixed t val s)
  | .confirm t val => execConfirm_burns t val s _
  | .ownerKeyEnrol t val => execOwnerKeyEnrol_burns t val s _
  | .ownerKeyRevoke t val => execOwnerKeyRevoke_burns t val s _
  | .pairCfgWrite t val => burns_of_outFixed (execPairCfgWrite_fixed t val s)
  | .rtcTrimWrite t val => burns_of_outFixed (execRtcTrimWrite_fixed t val s)
  | .saddlebagWrite t w val => burns_of_outFixed (execSaddlebagWrite_fixed t w val s)
  | .rtcGroupRead t reg path => burns_of_outFixed (execRtcGroupRead_fixed t reg path s)
  | .rtcSnapshotExpiry t path => burns_of_outFixed (execRtcSnapshotExpiry_fixed t path s)
  | .splitValueRead t pair => burns_of_outFixed (execSplitValueRead_fixed t pair s)
  | .registerWrite t off val be => burns_of_outFixed (execRegisterWrite_fixed t off val be s)
  | .apply t table bell => burns_of_outFixed (execApply_fixed t table bell s)
  | .disable t => burns_of_outFixed (execDisable_fixed t s)
  | .busMasterDisable t => burns_of_outFixed (execBusMasterDisable_fixed t s)
  | .busMasterEnable t => burns_of_outFixed (execBusMasterEnable_fixed t s)
  | .bellPoll t bell => burns_of_outFixed (execBellPoll_fixed t bell s)
  | .bellIntervalEnd t => burns_of_outFixed (execBellIntervalEnd_fixed t s)
  | .dmaFailure t target => burns_of_outFixed (execDmaFailure_fixed t target s)
  | .heldCompletionWrite t q => burns_of_outFixed (execHeldCompletionWrite_fixed t q s)
  | .unknownCommand t c e op => burns_of_outFixed (execUnknownCommand_fixed t c e op s)
  | .waybillLoad t c e dma => burns_of_outFixed (execWaybillLoad_fixed t c e dma s)
  | .admitWaybill t c e => burns_of_outFixed (execAdmit_fixed t c e s)
  | .admissionComplete t ms => burns_of_outFixed (execAdmissionComplete_fixed t ms s)
  | .start t c e => burns_of_outFixed (execStart_fixed t c e s)
  | .startTick t => burns_of_outFixed (execStartTick_fixed t s)
  | .stop t c e => burns_of_outFixed (execStop_fixed t c e s)
  | .stopTick t => burns_of_outFixed (execStopTick_fixed t s)
  | .stopSafeStates t => burns_of_outFixed (execStopSafeStates_fixed t s)
  | .valueEdit t c e dma => burns_of_outFixed (execValueEdit_fixed t c e dma s)
  | .editBatchApply t => burns_of_outFixed (execEditBatchApply_fixed t s)
  | .swapStage t c e => burns_of_outFixed (execSwapStage_fixed t c e s)
  | .swapDiscard t c e => burns_of_outFixed (execSwapDiscard_fixed t c e s)
  | .swapCommit t c e => burns_of_outFixed (execSwapCommit_fixed t c e s)
  | .swapSwitchTick t => burns_of_outFixed (execSwapSwitchTick_fixed t s)
  | .swapRelease t c e => burns_of_outFixed (execSwapRelease_fixed t c e s)
  | .swapRollback t c e => burns_of_outFixed (execSwapRollback_fixed t c e s)
  | .rollbackTick t => burns_of_outFixed (execRollbackTick_fixed t s)
  | .variableRead t c e => burns_of_outFixed (execVariableRead_fixed t c e s)
  | .variableReadApply t => burns_of_outFixed (execVariableReadApply_fixed t s)
  | .variableWriteAtRelease t c e => burns_of_outFixed (execVariableWriteAtRelease_fixed t c e s)
  | .calibrationLowPoint t c e mean ok => burns_of_outFixed (execCalibrationLowPoint_fixed t c e mean ok s)
  | .calibrationHighPoint t c e mean ok => burns_of_outFixed (execCalibrationHighPoint_fixed t c e mean ok s)
  | .calibrationStore t c e => burns_of_outFixed (execCalibrationStore_fixed t c e s)
  | .calibrationDiscard t c e => burns_of_outFixed (execCalibrationDiscard_fixed t c e s)
  | .factoryCalibration t c e => burns_of_outFixed (execFactoryCalibration_fixed t c e s)
  | .spareEngineReturn t c e => burns_of_outFixed (execSpareEngineReturn_fixed t c e s)
  | .rtcSet t c e => burns_of_outFixed (execRtcSet_fixed t c e s)
  | .rtcSetCommit t => burns_of_outFixed (execRtcSetCommit_fixed t s)
  | .summerTimeAdd t c e => burns_of_outFixed (execSummerTimeAdd_fixed t c e s)
  | .summerTimeSubtract t c e => burns_of_outFixed (execSummerTimeSubtract_fixed t c e s)
  | .summerTimeStep t => burns_of_outFixed (execSummerTimeStep_fixed t s)
  | .alarmSetUp t c e => burns_of_outFixed (execAlarmSetUp_fixed t c e s)
  | .rtcSecond t => burns_of_outFixed (execRtcSecond_fixed t s)
  | .countdownExpiry t => burns_of_outFixed (execCountdownExpiry_fixed t s)
  | .backupVoltageLow t => burns_of_outFixed (execBackupVoltageLow_fixed t s)
  | .nvRecordWrite t c e dma => burns_of_outFixed (execNvRecordWrite_fixed t c e dma s)
  | .nvRecordRead t c e => burns_of_outFixed (execNvRecordRead_fixed t c e s)
  | .nvPageProgramComplete t ok => burns_of_outFixed (execNvPageProgramComplete_fixed t ok s)
  | .journalFold t => burns_of_outFixed (execJournalFold_fixed t s)
  | .hoursIncrement t => burns_of_outFixed (execHoursIncrement_fixed t s)
  | .guestbookRecordWrite t => burns_of_outFixed (execGuestbookRecordWrite_fixed t s)
  | .guestbookRepeatRewrite t => burns_of_outFixed (execGuestbookRepeatRewrite_fixed t s)
  | .guestbookRead t c e => burns_of_outFixed (execGuestbookRead_fixed t c e s)
  | .publication t p => burns_of_outFixed (execPublication_fixed t p s)
  | .pairSwitch t c e => burns_of_outFixed (execPairSwitch_fixed t c e s)
  | .plannedSwitch t => burns_of_outFixed (execPlannedSwitch_fixed t s)
  | .reversion t => burns_of_outFixed (execReversion_fixed t s)
  | .confirmTimeout t => burns_of_outFixed (execConfirmTimeout_fixed t s)
  | .resync t c e => burns_of_outFixed (execResync_fixed t c e s)
  | .joinAttempt t arrived blockRoom => burns_of_outFixed (execJoinAttempt_fixed t arrived blockRoom s)
  | .updateChunk t c e dma => burns_of_outFixed (execUpdateChunk_fixed t c e dma s)
  | .activate t c e => burns_of_outFixed (execActivate_fixed t c e s)
  | .attest t c e => burns_of_outFixed (execAttest_fixed t c e s)
  | .trialConfirm t => execTrialConfirm_burns t s _
  | .postRoadLinkUp t => burns_of_outFixed (execPostRoadLinkUp_fixed t s)
  | .postRoadLinkDown t => burns_of_outFixed (execPostRoadLinkDown_fixed t s)
  | .helloSend t => burns_of_outFixed (execHelloSend_fixed t s)
  | .hello t payload => burns_of_outFixed (execHello_fixed t payload s)
  | .heartbeatSend t => burns_of_outFixed (execHeartbeatSend_fixed t s)
  | .heartbeat t payload => burns_of_outFixed (execHeartbeat_fixed t payload s)
  | .heartbeatMissing t => burns_of_outFixed (execHeartbeatMissing_fixed t s)
  | .takeover t => burns_of_outFixed (execTakeover_fixed t s)
  | .input t payload => burns_of_outFixed (execInput_fixed t payload s)
  | .digest t payload => burns_of_outFixed (execDigest_fixed t payload s)
  | .digestLate t => burns_of_outFixed (execDigestLate_fixed t s)
  | .powerfail t payload => burns_of_outFixed (execPowerfail_fixed t payload s)
  | .edit t payload => burns_of_outFixed (execEdit_fixed t payload s)
  | .swap t payload => burns_of_outFixed (execSwap_fixed t payload s)
  | .stopMessage t payload => burns_of_outFixed (execStopMessage_fixed t payload s)
  | .switch t payload => burns_of_outFixed (execSwitch_fixed t payload s)
  | .outstep t payload => burns_of_outFixed (execOutstep_fixed t payload s)
  | .join t payload => burns_of_outFixed (execJoin_fixed t payload s)
  | .proof t payload => burns_of_outFixed (execProof_fixed t payload s)
  | .disc t payload => burns_of_outFixed (execDisc_fixed t payload s)
  | .waybill t payload => burns_of_outFixed (execWaybill_fixed t payload s)
  | .stream t block => burns_of_outFixed (execStream_fixed t block s)
  | .inputDiscrepancy t ch set => burns_of_outFixed (execInputDiscrepancy_fixed t ch set s)
  | .proofWindowOpen t ch => burns_of_outFixed (execProofWindowOpen_fixed t ch s)
  | .proofWindowClose t ch milliamp => burns_of_outFixed (execProofWindowClose_fixed t ch milliamp s)
  | .proofAgeUpdate t => burns_of_outFixed (execProofAgeUpdate_fixed t s)
  | .stewardKey t key => burns_of_outFixed (execStewardKey_fixed t key s)
  | .npWindowClose t => burns_of_outFixed (execNpWindowClose_fixed t s)
  | .npSecondPeriodEnd t => burns_of_outFixed (execNpSecondPeriodEnd_fixed t s)
  | .npResetEntry t => burns_of_outFixed (execNpResetEntry_fixed t s)
  | .holdUpExhausted t => burns_of_outFixed (execHoldUpExhausted_fixed t s)
  | .pairPresentChange t pins => burns_of_outFixed (execPairPresentChange_fixed t pins s)
  | .pcieLinkDown t => burns_of_outFixed (execPcieLinkDown_fixed t s)
  | .completionHeldTimeout t q => burns_of_outFixed (execCompletionHeldTimeout_fixed t q s)
  | .msixUnmask t v => burns_of_outFixed (execMsixUnmask_fixed t v s)
  | .updateChunkComplete t => burns_of_outFixed (execUpdateChunkComplete_fixed t s)
  | .swapReleaseComplete t => burns_of_outFixed (execSwapReleaseComplete_fixed t s)
  | .canPortIntegrated t k => burns_of_outFixed (execCanPortIntegrated_fixed t k s)
  | .discardedSegment t => burns_of_outFixed (execDiscardedSegment_fixed t s)

/-- Settles O58: a command that blows fuses and one that blows none leave the queue as it was. -/
theorem queueUntouched : Obligations.QueueUntouched := by
  intro i s s' run
  obtain ⟨queue, -⟩ := exec_burns i run
  exact queue

/-- Settles O54: the front command is the one that `step` matches. -/
theorem stepRunsFront : Obligations.StepRunsFront := by
  refine fun s i rest => ⟨rfl, fun empty => ?_⟩
  rw [step, empty]

/-- A step blows no other fuses than the command it runs. -/
theorem step_grows {s s' : State} (run : step s = .next s') : s.sec.Grew s'.sec := by
  unfold step at run
  split at run
  case h_1 => cases run; exact Sec.grew_of_fuses rfl
  case h_2 i rest _ =>
    obtain ⟨-, grown⟩ := exec_burns i run
    exact grown

theorem testBit_fieldSum_below {fs : List (Nat × Nat × Nat)} {n b : Nat} (spaced : Spaced n fs) (below : b < n) :
    (fieldSum fs).testBit b = false := by
  obtain ⟨q, eq⟩ := two_pow_dvd_fieldSum spaced
  rw [eq, Nat.testBit_two_pow_mul, decide_eq_false (by omega), Bool.false_and]

theorem le_of_mem_spaced {fs : List (Nat × Nat × Nat)} {f : Nat × Nat × Nat} (mem : f ∈ fs) : ∀ {n : Nat}, Spaced n fs → n ≤ f.1 := by
  induction fs with
  | nil => cases mem
  | cons k r ih =>
    rintro n ⟨le, spaced⟩
    rcases List.mem_cons.mp mem with rfl | mem
    · exact le
    · have := ih mem spaced
      omega

theorem testBit_fieldSum_flag {fs : List (Nat × Nat × Nat)} {b : Nat} {x : Bool} (mem : (b, 1, b2n x) ∈ fs) :
    ∀ {n : Nat}, Spaced n fs → (fieldSum fs).testBit b = x := by
  induction fs with
  | nil => cases mem
  | cons f r ih =>
    rintro n ⟨-, spaced⟩
    rw [testBit_fieldSum_cons spaced]
    rcases List.mem_cons.mp mem with rfl | mem
    · rw [testBit_fieldSum_below spaced (Nat.lt_succ_self b)]
      cases x <;> simp [b2n]
    · have beyond : f.1 + f.2.1 ≤ b := le_of_mem_spaced mem spaced
      have outside : ¬ b - f.1 < f.2.1 := by omega
      rw [ih mem spaced, decide_eq_false outside, Bool.and_false, Bool.false_and, Bool.false_or]

/-- A register reads the flag that stands in it at bit b. -/
theorem pack_flag {fs : List (Nat × Nat × Nat)} {b : Nat} {x : Bool} (spaced : Spaced 0 fs) (mem : (b, 1, b2n x) ∈ fs) (lt : b < 32) :
    (pack fs).getLsbD b = x := by
  rw [pack_eq_fieldSum, BitVec.getLsbD_ofNat, decide_eq_true lt, Bool.true_and, testBit_fieldSum_flag mem spaced]

/-- SEC_STAT.OPEN (R481). -/
theorem barWord_open (s : State) : (barWord s 0x6000).getLsbD 0 = (s.sec.oset == 0) := by
  exact pack_flag (by simp) (by simp) (by decide)

/-- A set of owner slots that is not empty stays so when no slot is cleared. -/
theorem oset_ne_zero_of_grew {a b : Sec} (grown : a.Grew b) (set : a.oset ≠ 0) : b.oset ≠ 0 := by
  obtain ⟨-, slots⟩ := grown
  intro clear
  refine set (BitVec.eq_of_getLsbD_eq fun i lt => ?_)
  obtain ⟨-, -, kept, -⟩ := slots ⟨i, lt⟩
  rw [clear] at kept
  simpa using kept

/-- Settles O59: no command clears a fuse, and OPEN reads the owner slots. -/
theorem fusesNeverClear : Obligations.FusesNeverClear := by
  intro s s' run
  have grown := step_grows run
  have ⟨svn, slots⟩ := grown
  refine ⟨barWord_open s, fun set => ?_, svn, slots⟩
  have set' := oset_ne_zero_of_grew grown set
  exact ⟨set', (barWord_open s').trans (beq_false_of_ne set')⟩

/-! ### Every command answers (R353; log entries 2 and 3) -/

/-- The outcome is a next state. -/
def Answered (o : Host.Outcome State Fault Refusal) : Prop := ∃ s', o = .next s'

theorem answered_next (s : State) : Answered (.next s) ↔ True := iff_true_intro ⟨s, rfl⟩

theorem answered_ite (c : Prop) [Decidable c] (a b : Host.Outcome State Fault Refusal) :
    Answered (if c then a else b) ↔ (c → Answered a) ∧ (¬c → Answered b) := by
  split <;> simp [*]

/-- A command either has one answer, or it asks conditions of the state and answers either way, or it looks for something and answers whether it
is there or not. -/
theorem exec_answered (i : Instr) (s : State) : Answered (exec i s) := by
  cases i
  case baseTick | memorySelfTest | faultResetEntry | stewardStart | autoStart | pllLock | clockMonitorWindow | clockJudgementTimeout |
    pllLossOfLock | rtcOscillatorStopped | referenceAppears | vsupValid | holdUpCharged | vsupFail | powerFailResetEntry | resetNAssert |
    resetNDeassert | perstNAssert | temperatureMeasure | quietInAssert | lplusLost | lplusReturn | inputRawChange | groupOvercurrent |
    engineFrame | canRecoveryComplete | canVplusLost | canVplusReturn | rateDetectionDataTimeout | rateDetectionTimeout | canTermWrite |
    canDetStart | scanClrPeak | nvProtWrite | pairCfgWrite | rtcTrimWrite | splitValueRead | bellIntervalEnd | unknownCommand |
    editBatchApply | variableReadApply | rtcSecond | countdownExpiry | hoursIncrement | reversion | updateChunk | activate | trialConfirm |
    postRoadLinkUp | hello | heartbeatSend | heartbeat | heartbeatMissing | swap | stopMessage | join | waybill |
    proofWindowOpen | proofWindowClose | proofAgeUpdate | npWindowClose | npSecondPeriodEnd | npResetEntry | pcieLinkDown |
    completionHeldTimeout | msixUnmask | canPortIntegrated =>
    simp only [exec, execBaseTick, execMemorySelfTest, execFaultResetEntry, execStewardStart, execAutoStart, execPllLock,
      execClockMonitorWindow, execClockJudgementTimeout, execPllLossOfLock, execRtcOscillatorStopped, execReferenceAppears, execVsupValid,
      execHoldUpCharged, execVsupFail, execPowerFailResetEntry, execResetNAssert, execResetNDeassert, execPerstNAssert,
      execTemperatureMeasure, execQuietInAssert, execLplusLost, execLplusReturn, execInputRawChange, execGroupOvercurrent, execEngineFrame,
      execCanRecoveryComplete, execCanVplusLost, execCanVplusReturn, execRateDetectionDataTimeout, execRateDetectionTimeout,
      execCanTermWrite, execCanDetStart, execScanClrPeak, execNvProtWrite, execPairCfgWrite, execRtcTrimWrite, execSplitValueRead,
      execBellIntervalEnd, execUnknownCommand, execEditBatchApply, execVariableReadApply, execRtcSecond, execCountdownExpiry,
      execHoursIncrement, execReversion, execUpdateChunk, execActivate, execTrialConfirm, execPostRoadLinkUp, execHello, execHeartbeatSend,
      execHeartbeat, execHeartbeatMissing, execSwap, execStopMessage, execJoin, execWaybill, execProofWindowOpen,
      execProofWindowClose, execProofAgeUpdate, execNpWindowClose, execNpSecondPeriodEnd, execNpResetEntry, execPcieLinkDown,
      execCompletionHeldTimeout, execMsixUnmask, execCanPortIntegrated, answered_ite, answered_next, implies_true, and_self]
  case registerWrite t off val be =>
    obtain ⟨s', run, -⟩ := registerWrite_framed t off val be s
    exact ⟨s', run⟩
  case distanceRuleBroken | taskDeadline | outputCommitApply | scrubRead | resetExit | startupConfigLoad | roleSettle | groupConfigReload |
    inputFilterAccept | wireBreak | currentLimit | shortCircuit | demagEnergyMeasured | rateHoldEnd | readbackDiscrepancy | openLoad |
    spareConnect | spareScheduleStart | analogueInputFlag | analogueOutputFault | canFrameReceived | canWindowOpen | canTxAttempt |
    canTxComplete | canFrameWithdraw | canError | ownerKeyEnrol | ownerKeyRevoke | rtcGroupRead | rtcSnapshotExpiry | apply | bellPoll |
    dmaFailure | heldCompletionWrite | admissionComplete | startTick | stopTick | stopSafeStates | swapSwitchTick | rollbackTick |
    rtcSetCommit | summerTimeStep | nvPageProgramComplete | journalFold | guestbookRecordWrite | guestbookRepeatRewrite | publication |
    plannedSwitch | confirmTimeout | joinAttempt | takeover | digestLate | proof | stream | inputDiscrepancy | updateChunkComplete |
    swapReleaseComplete | switch =>
    simp only [exec, execDistanceRuleBroken, execTaskDeadline, execOutputCommitApply, execScrubRead, execResetExit, execStartupConfigLoad,
      execRoleSettle, execGroupConfigReload, execInputFilterAccept, execWireBreak, execCurrentLimit, execShortCircuit,
      execDemagEnergyMeasured, execRateHoldEnd, execReadbackDiscrepancy, execOpenLoad, execSpareConnect, execSpareScheduleStart,
      execAnalogueInputFlag, execAnalogueOutputFault, execCanFrameReceived, execCanWindowOpen, execCanTxAttempt, execCanTxComplete,
      execCanFrameWithdraw, execCanError, execOwnerKeyEnrol, execOwnerKeyRevoke, execRtcGroupRead, execRtcSnapshotExpiry, execApply,
      execBellPoll, execDmaFailure, execHeldCompletionWrite, execAdmissionComplete, execStartTick, execStopTick, execStopSafeStates,
      execSwapSwitchTick, execRollbackTick, execRtcSetCommit, execSummerTimeStep, execNvPageProgramComplete, execJournalFold,
      execGuestbookRecordWrite, execGuestbookRepeatRewrite, execPublication, execPlannedSwitch, execConfirmTimeout, execJoinAttempt,
      execTakeover, execDigestLate, execProof, execStream, execInputDiscrepancy, execUpdateChunkComplete, execSwapReleaseComplete, execSwitch]
    (repeat' split) <;> exact ⟨_, rfl⟩
  all_goals exact ⟨_, rfl⟩

/-- Settles O57: a command without an occasion answers the state with time alone moved. -/
theorem everyCommandAnswers : Obligations.EveryCommandAnswers := exec_answered

/-! ### The machine after reset -/

/-- Settles O55: the reset state holds the values of the tables. -/
theorem resetState : Obligations.ResetState := by
  refine ⟨?_, rfl, rfl, rfl, rfl, rfl, rfl, rfl, fun r => ?_, ?_⟩
  · exact (State.inv_mk ..).mpr ⟨rfl, Image.ok_init, Nv.wf_init, Pair.wf_init, HostIf.wf_init, RoomsOk.replicate Room.ok_init⟩
  · have unused : State.reset.rooms[r] = Room.init := Vector.getElem_replicate _
    rw [unused]
    exact ⟨rfl, by decide⟩
  · decide

end Sys2Proof.Machine
end

section
/-! PROOFS. The calendar, second by second, the comparators, and the summer-time step (R418, R424, R426, R429 to R431). -/

namespace Sys2Proof.Machine

/-! ### The calendar (R426) -/

theorem next_second {c : Cal} (h : c.second < 59) : c.next = ({ c with second := c.second + 1 }, false) := by
  rw [Cal.next, if_pos h]

theorem next_minute {c : Cal} (second : c.second = 59) (h : c.minute < 59) :
    c.next = ({ c with second := 0, minute := c.minute + 1 }, false) := by
  rw [Cal.next, if_neg (by omega)]
  exact if_pos h

theorem next_hour {c : Cal} (second : c.second = 59) (minute : c.minute = 59) :
    c.next = ({ c with second := 0, minute := 0 } : Cal).nextHour := by
  rw [Cal.next, if_neg (by omega)]
  exact if_neg (by simp [minute])

theorem next_day {c : Cal} (second : c.second = 59) (minute : c.minute = 59) (hour : c.hour = 23) :
    c.next = ({ c with second := 0, minute := 0, hour := 0 } : Cal).nextDay :=
  (next_hour second minute).trans (if_neg (by simp [hour]))

/-- Leap years are those of the rule: every fourth year but 2100. -/
theorem daysIn_eq (y m : Nat) : daysIn y m = if m = 2 then (if y % 4 = 0 ∧ y ≠ 100 then 29 else 28)
    else if m = 4 ∨ m = 6 ∨ m = 9 ∨ m = 11 then 30 else 31 := by
  simp [daysIn, leap]

theorem nextDay_inMonth {c : Cal} (h : c.day < daysIn c.year c.month) :
    c.nextDay = ({ c with day := c.day + 1, weekday := (c.weekday + 1) % 7 }, false) := if_pos h

theorem nextDay_month {c : Cal} (day : c.day = daysIn c.year c.month) (h : c.month < 12) :
    c.nextDay = ({ c with day := 1, month := c.month + 1, weekday := (c.weekday + 1) % 7 }, false) :=
  (if_neg (by omega)).trans (if_pos h)

theorem nextDay_december {c : Cal} (day : c.day = daysIn c.year c.month) (month : c.month = 12) : c.nextDay =
    if c.year < 199 then ({ c with day := 1, month := 1, year := c.year + 1, weekday := (c.weekday + 1) % 7 }, false)
    else ({ c with day := 1, month := 1, year := 0, weekday := 5 }, true) :=
  (if_neg (by omega)).trans (if_neg (by omega))

/-- The day before the next day is the day itself, except where the calendar wraps. -/
theorem prevDay_nextDay {c : Cal} (low : 1 ≤ c.month) (high : c.month ≤ 12) (first : 1 ≤ c.day) (last : c.day ≤ daysIn c.year c.month)
    (unwrapped : c.nextDay.2 = false) : ∃ p, c.nextDay.1.prevDay = some p ∧ { p with weekday := c.weekday } = c := by
  rcases Nat.lt_or_eq_of_le last with inMonth | day
  · rw [nextDay_inMonth inMonth, Cal.prevDay]
    exact ⟨_, if_pos (Nat.lt_add_of_pos_left first), rfl⟩
  rcases Nat.lt_or_eq_of_le high with month | month
  · rw [nextDay_month day month, Cal.prevDay]
    refine ⟨_, (if_neg (Nat.lt_irrefl 1)).trans (if_pos (Nat.lt_add_of_pos_left low)), ?_⟩
    simp [← day]
  · rw [nextDay_december day month] at unwrapped ⊢
    by_cases year : c.year < 199
    · rw [if_pos year, Cal.prevDay]
      refine ⟨_, (if_neg (Nat.lt_irrefl 1)).trans ((if_neg (Nat.lt_irrefl 1)).trans (if_pos (Nat.succ_pos _))), ?_⟩
      have december : c.day = 31 := day.trans (by rw [month]; rfl)
      simp [← month, ← december]
    · rw [if_neg year] at unwrapped
      cases unwrapped

/-- The rule of the calendar, from seconds to years. -/
theorem calendarRule : Stated.CalendarRule := by
  intro c low high last year hour minute
  refine ⟨next_second, next_minute, fun second minute hour => ?_, fun second minute hour => ?_, fun first => prevDay_nextDay low high first last,
    daysIn_eq .., by decide⟩
  · rw [next_hour second minute, Cal.nextHour, if_pos hour]
  · rw [next_day second minute hour]
    refine ⟨fun day => nextDay_inMonth day, fun day month => nextDay_month day month, fun day month year => ?_, fun day month year => ?_⟩
    all_goals
      have turn := nextDay_december (c := { c with second := 0, minute := 0, hour := 0 })
        (day.trans (congrArg (daysIn c.year) month).symm) month
    · exact turn.trans (if_pos year)
    · exact turn.trans (if_neg (by simp [year]))

/-! ### Comparators (R429 to R431) -/

/-- The backup domain is b now; what else has changed only reports. -/
def State.Clocked (s s' : State) (b : Backup) : Prop :=
  ∃ vectors gb marks, s' = { s with bk := b, host := { s.host with evtPend := vectors }, gb := gb, marks := marks }

/-- An event flag sets (R431). -/
def Backup.flagged (b : Backup) (k : Nat) : Backup := if k = 1 then { b with a1 := true } else { b with a2 := true }

theorem alarmFlag_clocked (s : State) (k : Nat) : s.Clocked (s.alarmFlag k) (s.bk.flagged k) := by
  let flagged : State := { s with bk := s.bk.flagged k }.mark 0x1400 (if k = 1 then 256 else 512)
  change s.Clocked (if flagged.steward then flagged.alarmRecord k else flagged) _
  split
  · rw [State.alarmRecord, gbEvent_alone]
    exact ⟨_, _, _, rfl⟩
  · exact ⟨_, _, _, rfl⟩

theorem State.Clocked.trans {s s₁ s' : State} {b₁ b : Backup} (h : s.Clocked s₁ b₁) (h' : s₁.Clocked s' b) : s.Clocked s' b := by
  obtain ⟨_, _, _, rfl⟩ := h
  obtain ⟨_, _, _, rfl⟩ := h'
  exact ⟨_, _, _, rfl⟩

theorem State.Clocked.bk {s s' : State} {b : Backup} (h : s.Clocked s' b) : s'.bk = b := by
  obtain ⟨_, _, _, rfl⟩ := h
  rfl

theorem gbEvent_clocked (s : State) (typ src : Nat) (sev : BitVec 2) (ws : List Word) : s.Clocked (s.gbEvent typ src sev ws) s.bk := by
  rw [gbEvent_alone]
  exact ⟨_, _, _, rfl⟩

/-- The flags of the comparators that match are set (R430). -/
def Backup.compared (b : Backup) : Backup := { b with a1 := b.a1 || b.alm1.hit b.cal, a2 := b.a2 || b.alm2.hit b.cal }

theorem compareAlarms_clocked (s : State) : s.Clocked s.compareAlarms s.bk.compared := by
  unfold State.compareAlarms
  have first := alarmFlag_clocked s 1
  cases one : s.bk.alm1.hit s.bk.cal <;> cases two : s.bk.alm2.hit s.bk.cal
  · exact ⟨_, _, _, by simp only [Backup.compared, one, two, Bool.or_false]; rfl⟩
  · have := alarmFlag_clocked s 2
    simpa [Backup.compared, Backup.flagged, one, two] using this
  · have := alarmFlag_clocked s 1
    simpa [Backup.compared, Backup.flagged, one, two] using this
  · have := (alarmFlag_clocked s 1).trans (alarmFlag_clocked _ 2)
    rw [first.bk] at this
    simpa [Backup.compared, Backup.flagged, one, two] using this

theorem State.Clocked.lanesKept {s s' : State} {b : Backup} (h : s.Clocked s' b) : LanesKept s s' := by
  obtain ⟨_, _, _, rfl⟩ := h
  exact ⟨rfl, rfl, rfl⟩

theorem State.Clocked.fieldKept {s s' : State} {b : Backup} (h : s.Clocked s' b) : FieldKept s s' := by
  obtain ⟨_, _, _, rfl⟩ := h
  exact ⟨rfl, rfl, rfl, rfl⟩

theorem State.Clocked.now {s s' : State} {b : Backup} (h : s.Clocked s' b) : s'.now = s.now := by
  obtain ⟨_, _, _, rfl⟩ := h
  rfl

theorem State.Clocked.nv {s s' : State} {b : Backup} (h : s.Clocked s' b) : s'.nv = s.nv := by
  obtain ⟨_, _, _, rfl⟩ := h
  rfl

/-- An event at an instant, or at its due time when that is later. -/
theorem at_now_due (s : State) (t due : Nat) : (s.at (max t due)).now = max (s.then t) due := (max_assoc ..).symm

/-! ### Seconds (R424, R426) -/

theorem exec_rtcSecond {s : State} (plain : s.bk.dstStep = none) (t : Nat) : exec (.rtcSecond t) s =
    .next ({ s.at (max t (s.bk.secAt + secCycles)) with bk := s.bk.second } : State).compareAlarms := by
  change execRtcSecond t s = _
  simp [execRtcSecond, plain]

/-- The calendar's next second, with the alarms that match it (R426, R430). -/
theorem rtcSecond_ticks {s : State} (plain : s.bk.dstStep = none) (t : Nat) : ∃ s', exec (.rtcSecond t) s = .next s' ∧
    s'.bk.cal = s.bk.cal.next.1 ∧ s'.bk.secAt = s.bk.secAt + secCycles ∧ s'.bk.wrapped = (s.bk.wrapped || s.bk.cal.next.2) ∧
      s'.now = max (s.then t) (s.bk.secAt + secCycles) ∧ s'.bk.a1 = (s.bk.a1 || s.bk.alm1.hit s.bk.cal.next.1) ∧
      s'.bk.a2 = (s.bk.a2 || s.bk.alm2.hit s.bk.cal.next.1) ∧ s'.bk.saddle = s.bk.saddle ∧ s'.bk.valid = s.bk.valid ∧ LanesKept s s' ∧
      FieldKept s s' ∧ s'.nv = s.nv := by
  have compared := compareAlarms_clocked { s.at (max t (s.bk.secAt + secCycles)) with bk := s.bk.second }
  refine ⟨_, exec_rtcSecond plain t, ?_⟩
  rw [compared.bk, compared.now, compared.nv]
  exact ⟨rfl, rfl, rfl, at_now_due .., rfl, rfl, rfl, rfl, compared.lanesKept, compared.fieldKept, rfl⟩

/-- The backup domain after the summer-time step at a boundary, before the comparators compare (R424). -/
def Backup.stepped (b : Backup) (sub : Bool) (due : Nat) : Backup :=
  { b.upTo due with
    cal := ((b.upTo due).cal.shift sub).getD (b.upTo due).cal
    dst := !sub
    dstStep := none }

/-- The step sets calendar and DST, compares, is recorded, and its command ends. -/
theorem stepDst_steps {s : State} {sub : Bool} {due : Nat} {ref : CmdRef} (step : s.bk.dstStep = some (sub, due, ref)) :
    ∃ s₁ b, s.stepDst = s₁.complete ref 0 [] ∧ s.Clocked s₁ b ∧ b.cal = (s.bk.stepped sub due).cal ∧ b.dst = (!sub) ∧ b.dstStep = none ∧
      (s.steward = true → s₁.recorded 0x82 0 sevInfo) := by
  let compared : State := ({ s with bk := s.bk.stepped sub due } : State).compareAlarms
  have clocked : s.Clocked compared (s.bk.stepped sub due).compared := compareAlarms_clocked { s with bk := s.bk.stepped sub due }
  have eq : s.stepDst = (if compared.steward then compared.gbEvent 0x82 0 sevInfo [] else compared).complete ref 0 [] := by
    unfold State.stepDst
    rw [step]
    rfl
  have steward : compared.steward = s.steward := by
    obtain ⟨_, _, _, same⟩ := clocked
    rw [same]
    rfl
  refine ⟨_, (s.bk.stepped sub due).compared, eq, ?_, rfl, rfl, rfl, fun runs => ?_⟩
  · split
    · refine clocked.trans ?_
      rw [← clocked.bk]
      exact gbEvent_clocked ..
    · exact clocked
  · rw [steward, runs]
    exact gbEvent_recorded ..

theorem complete_recorded {s : State} {typ src : Nat} {sev : BitVec 2} (h : s.recorded typ src sev) (ref : CmdRef) (st : BitVec 16)
    (res : List Byte) : (s.complete ref st res).recorded typ src sev := recorded_completeOpt h (some ref) st res

theorem State.Clocked.finishes {s s₁ : State} {b : Backup} (h : s.Clocked s₁ b) (ref : CmdRef) (st : BitVec 16) (res : List Byte) :
    Finishes s (s₁.complete ref st res) ref st res := by
  obtain ⟨_, _, _, rfl⟩ := h
  exact (complete_finishes _ ref st res).since rfl List.prefix_rfl

/-- The summer-time step at its boundary (R424). -/
theorem summerTimeStep_steps {s : State} {sub : Bool} {due : Nat} {ref : CmdRef} (step : s.bk.dstStep = some (sub, due, ref)) (t : Nat) :
    ∃ s', exec (.summerTimeStep t) s = .next s' ∧ s'.bk.dstStep = none ∧ s'.bk.dst = (!sub) ∧
      s'.bk.cal = ((s.bk.upTo due).cal.shift sub).getD (s.bk.upTo due).cal ∧ s'.now = max (s.then t) due ∧
      (s.steward = true → s'.recorded 0x82 0 sevInfo) ∧ LanesKept s s' ∧ Finishes s s' ref 0 [] := by
  obtain ⟨s₁, b, eq, clocked, cal, dst, made, recorded⟩ := stepDst_steps (s := s.at (max t due)) step
  have run : exec (.summerTimeStep t) s = .next (s.at (max t due)).stepDst := by
    change execSummerTimeStep t s = _
    rw [execSummerTimeStep, step]
  have same := complete_alone s₁ ref 0 []
  rw [eq] at run
  have bk : (s₁.complete ref 0 []).bk = b := (congrArg State.bk same).trans clocked.bk
  refine ⟨_, run, ?_, ?_, ?_, ?_, fun runs => complete_recorded (recorded runs) .., ?_, clocked.finishes ref 0 []⟩
  · rw [bk, made]
  · rw [bk, dst]
  · rw [bk, cal]
    rfl
  · exact (congrArg State.now same).trans (clocked.now.trans (at_now_due ..))
  · rw [same]
    exact clocked.lanesKept

/-! ### The countdown and the backup voltage (R418, R429) -/

theorem countdownExpiry_expires {s : State} (counts : s.bk.alm2.mode = 2) (t : Nat) : ∃ s', exec (.countdownExpiry t) s = .next s' ∧
    s'.bk.a2 = true ∧ s'.bk.alm2.mode = 0 ∧ s'.bk.cal = s.bk.cal ∧
      s'.now = max (s.then t) (s.bk.cntAt + (s.bk.cnt.toNat - 1) * 6250000) ∧ LanesKept s s' := by
  let off : State := { s.at (max t (s.bk.cntAt + (s.bk.cnt.toNat - 1) * 6250000)) with
    bk := { s.bk with alm2 := { s.bk.alm2 with mode := 0 } } }
  have run : exec (.countdownExpiry t) s = .next (off.alarmFlag 2) := by
    change execCountdownExpiry t s = _
    rw [execCountdownExpiry, if_pos counts]
    rfl
  have clocked := alarmFlag_clocked off 2
  refine ⟨_, run, ?_, ?_, ?_, clocked.now.trans (at_now_due ..), clocked.lanesKept⟩ <;> rw [clocked.bk] <;> rfl

/-- What happens to the clock without a command. -/
theorem calendarTicks : Stated.CalendarTicks := fun _ t =>
  ⟨(rtcSecond_ticks · t), fun _ _ _ step => summerTimeStep_steps step t, (countdownExpiry_expires · t),
    _, rfl, rfl, rfl, rfl, rfl, rfl, rfl, rfl, rfl⟩

/-- Settles O40: the calendar by the unit that carries, the comparators and the step by what they write besides their reports. -/
theorem calendar : Obligations.Calendar := ⟨calendarRule, calendarTicks⟩

end Sys2Proof.Machine
end

section
/-! PROOFS. The queue of page programs and the writes that go through it (R436, R437, R442). -/

namespace Sys2Proof.Machine

/-! ### Programs started (R437) -/

/-- What the controller still has to program. -/
def Nv.jobs (n : Nv) : List NvJob := n.busy.toList ++ n.queue

theorem mem_queue_of_pick {n : Nv} {j : NvJob} (picked : n.pick = some j) : j ∈ n.queue := by
  obtain ⟨c, -, found⟩ := List.exists_of_findSome?_eq_some picked
  exact List.mem_of_find?_eq_some found

/-- Starting a program loses none and adds none. -/
theorem start_jobs (n : Nv) : n.start.jobs.Perm n.jobs := by
  unfold Nv.start Nv.jobs
  split
  case h_1 => exact .refl _
  case h_2 idle =>
    split
    · split
      case h_1 => exact .refl _
      case h_2 j picked =>
        simp only [idle]
        exact (List.perm_cons_erase (mem_queue_of_pick picked)).symm
    · exact .refl _

theorem start_mem_queue {n : Nv} {q : NvJob} (h : q ∈ n.start.queue) : q ∈ n.queue := by
  unfold Nv.start at h
  split at h
  · exact h
  · split at h
    · split at h
      · exact h
      · exact List.mem_of_mem_erase h
    · exact h

/-! ### Writes queued (R437, R442) -/

/-- A write that is queued changes the queue, the program in progress and the number of writes, no more. -/
theorem nvWrite_alone (s : State) (cls : Nat) (pages : List (Nat × List Byte)) (done : NvDone) : s.nvWrite cls pages done = { s with nv := { s.nv with
    busy := (s.nvWrite cls pages done).nv.busy
    queue := (s.nvWrite cls pages done).nv.queue
    writes := s.nv.writes + 1 } } :=
  congrArg (fun n => { s with nv := n }) (start_alone (s.nv.enqueue cls pages done))

theorem recWrite_alone (s : State) (cls rec' : Nat) (data : List Byte) (done : Nat → NvDone) :
    s.recWrite cls rec' data done = { s with nv := { s.nv with
      busy := (s.recWrite cls rec' data done).nv.busy
      queue := (s.recWrite cls rec' data done).nv.queue
      writes := s.nv.writes + 1 } } := nvWrite_alone ..

theorem countUp_alone (s : State) (cls base : Nat) : s.countUp cls base = { s with nv := { s.nv with
    busy := (s.countUp cls base).nv.busy
    queue := (s.countUp cls base).nv.queue
    writes := s.nv.writes + 1 } } := nvWrite_alone ..

/-- The program of page i of a write (R437). -/
def Nv.pageJob (n : Nv) (cls : Nat) (pages : List (Nat × List Byte)) (done : NvDone) (i : Nat) (p : Nat × List Byte) : NvJob where
  cls := cls
  addr := p.1
  bytes := p.2
  retry := false
  write := n.writes
  done := if i = pages.length - 1 then done else .nothing

theorem enqueue_queue (n : Nv) (cls : Nat) (pages : List (Nat × List Byte)) (done : NvDone) :
    (n.enqueue cls pages done).queue = n.queue ++ pages.mapIdx (n.pageJob cls pages done) := rfl

/-- Every page of a write waits for its program or has begun it, the last one with what follows the write. -/
theorem nvWrite_page (s : State) (cls : Nat) {pages : List (Nat × List Byte)} (done : NvDone) {i : Nat} (lt : i < pages.length) :
    ∃ q ∈ (s.nvWrite cls pages done).nv.jobs, q.addr = pages[i].1 ∧ q.bytes = pages[i].2 ∧ q.cls = cls ∧
      (i + 1 = pages.length → q.done = done) := by
  have queued : s.nv.pageJob cls pages done i pages[i] ∈ (s.nv.enqueue cls pages done).queue := by
    rw [enqueue_queue]
    exact List.mem_append_right _ (List.mem_mapIdx.mpr ⟨i, lt, rfl⟩)
  exact ⟨_, (start_jobs _).mem_iff.mpr (List.mem_append_right _ queued), rfl, rfl, rfl, fun last => if_pos (by omega)⟩

/-- What waited before a write still does. -/
theorem nvWrite_job (s : State) (cls : Nat) (pages : List (Nat × List Byte)) (done : NvDone) {q : NvJob} (h : q ∈ s.nv.jobs) :
    q ∈ (s.nvWrite cls pages done).nv.jobs := by
  refine (start_jobs _).mem_iff.mpr ?_
  rcases List.mem_append.mp h with busy | queued
  · exact List.mem_append_left _ busy
  · exact List.mem_append_right _ (List.mem_append_left _ queued)

theorem pageCuts_ne_nil {a : Nat} {bs : List Byte} (h : bs ≠ []) (n : Nat) : pageCuts (n + 1) a bs ≠ [] := by
  rw [pageCuts, if_neg h]
  dsimp only
  split <;> exact List.cons_ne_nil _ _

theorem slotBytes_ne_nil (rec' seq : Nat) (data : List Byte) : slotBytes rec' seq data ≠ [] := List.cons_ne_nil _ _

theorem slotPages_ne_nil (a : Nat) {bs : List Byte} (h : bs ≠ []) : slotPages a bs ≠ [] := by
  unfold slotPages
  split
  case h_1 none => exact absurd none (pageCuts_ne_nil h 19)
  case h_2 => exact List.append_ne_nil_of_right_ne_nil _ (List.cons_ne_nil _ _)

/-- Every page of a record's slot waits for its program or has begun it. -/
theorem recWrite_page (s : State) (cls rec' : Nat) (data : List Byte) (done : Nat → NvDone) {x : Nat × List Byte}
    (mem : x ∈ slotPages (recAddr rec' (recNext s.nv.settled rec').1) (slotBytes rec' (recNext s.nv.settled rec').2 data)) :
    ∃ q ∈ (s.recWrite cls rec' data done).nv.jobs, q.addr = x.1 ∧ q.bytes = x.2 ∧ q.cls = cls := by
  obtain ⟨i, lt, rfl⟩ := List.mem_iff_getElem.mp mem
  obtain ⟨q, job, addr, bytes, class', -⟩ := nvWrite_page s cls (done (recNext s.nv.settled rec').2) lt
  exact ⟨q, job, addr, bytes, class'⟩

/-- The last program of a record write carries what follows it. -/
theorem recWrite_done (s : State) (cls rec' : Nat) (data : List Byte) (done : Nat → NvDone) :
    ∃ q ∈ (s.recWrite cls rec' data done).nv.jobs, q.done = done (recNext s.nv.settled rec').2 := by
  have pages := List.length_pos_of_ne_nil
    (slotPages_ne_nil (recAddr rec' (recNext s.nv.settled rec').1) (slotBytes_ne_nil rec' (recNext s.nv.settled rec').2 data))
  obtain ⟨q, job, -, -, -, last⟩ := nvWrite_page s cls (done (recNext s.nv.settled rec').2) (Nat.sub_one_lt_of_lt pages)
  exact ⟨q, job, last (Nat.sub_add_cancel pages)⟩

end Sys2Proof.Machine
end

section
/-! PROOFS. The registers of the backup domain and its commands (R421 to R428, R432). -/

namespace Sys2Proof.Machine

/-! ### Registers (R421, R422, R427, R432) -/

theorem at_eq (s : State) (t : Nat) : s.at t = { s with now := s.then t } := rfl

theorem exec_rtcGroupRead {s : State} (steward : s.steward = true) (t : Nat) (reg : RtcReg) (p : RtcPath) :
    exec (.rtcGroupRead t reg p) s = .next { s.at t with bk := match p with
      | .bar0 => { s.bk with snapBar := if reg = .date then none else some ((s.at t).rtcSnap .bar0).1, numBar := ((s.at t).rtcSnap .bar0).2 }
      | .steward => { s.bk with
          snapStw := if reg = .date then none else some ((s.at t).rtcSnap .steward).1
          numStw := ((s.at t).rtcSnap .steward).2 } } := by
  change execRtcGroupRead t reg p s = _
  unfold execRtcGroupRead
  dsimp only
  rw [State.at_steward, if_pos steward]
  cases p <;> cases reg <;> rfl

theorem rtcSnap_held {s : State} {x : RtcSnap} (held : s.bk.snapBar = some x) (young : s.now < x.at' + secCycles) : (s.rtcSnap .bar0).1 = x := by
  simp only [State.rtcSnap, held, if_pos young]

theorem rtcSnap_fresh {s : State} {x : RtcSnap} (held : s.bk.snapBar = some x) (old : x.at' + secCycles ≤ s.now) :
    (s.rtcSnap .bar0).1.cal = s.bk.cal ∧ (s.rtcSnap .bar0).1.num = s.bk.numBar + 1 := by
  simp only [State.rtcSnap, held, if_neg (Nat.not_lt.mpr old), and_self]

theorem exec_rtcSnapshotExpiry_bar0 {s : State} {x : RtcSnap} (held : s.bk.snapBar = some x) (t : Nat) :
    exec (.rtcSnapshotExpiry t .bar0) s = .next { s with
      now := max (s.then t) (x.at' + secCycles)
      bk := { s.bk with snapBar := none } } := by
  change execRtcSnapshotExpiry t .bar0 s = _
  unfold execRtcSnapshotExpiry
  rw [held, ← at_now_due]
  rfl

theorem exec_rtcSnapshotExpiry_steward {s : State} {x : RtcSnap} (held : s.bk.snapStw = some x) (t : Nat) :
    exec (.rtcSnapshotExpiry t .steward) s = .next { s with
      now := max (s.then t) (x.at' + secCycles)
      bk := { s.bk with snapStw := none } } := by
  change execRtcSnapshotExpiry t .steward s = _
  unfold execRtcSnapshotExpiry
  rw [held, ← at_now_due]
  rfl

/-- A trim that changes is written to the NV store (R427). -/
theorem rtcTrimWrite_writes {s : State} (steward : s.steward = true) (t : Nat) (val : Word) : ∃ s', exec (.rtcTrimWrite t val) s = .next s' ∧
    s'.bk = { s.bk with trim := val.setWidth 6 } ∧ LanesKept s s' ∧ s'.host = s.host ∧
      s'.nv.writes = (if s.bk.trim = val.setWidth 6 then s.nv.writes else s.nv.writes + 1) := by
  let trimmed : State := { s.at t with bk := { s.bk with trim := val.setWidth 6 } }
  have run : exec (.rtcTrimWrite t val) s = .next (if s.bk.trim = val.setWidth 6 then trimmed
      else trimmed.recWrite 4 4 (toLe 1 (fld val.toNat 0 6)) (fun _ => .nothing)) := by
    change execRtcTrimWrite t val s = _
    unfold execRtcTrimWrite
    dsimp only
    rw [State.at_steward, if_pos steward]
    simp only [State.at_bk, beq_iff_eq]
    rfl
  refine ⟨_, run, ?_⟩
  split
  · exact ⟨rfl, ⟨rfl, rfl, rfl⟩, rfl, rfl⟩
  · rw [recWrite_alone]
    exact ⟨rfl, ⟨rfl, rfl, rfl⟩, rfl, rfl⟩

theorem exec_saddlebagWrite {s : State} (steward : s.steward = true) (t : Nat) (w : Fin 32) (val : Word) :
    exec (.saddlebagWrite t w val) s = .next { s.at t with bk := { s.bk with saddle := upd s.bk.saddle w (fun _ => val) } } :=
  congrArg Host.Outcome.next (if_pos steward)

/-- Settles O41: each register command by the one field it writes. -/
theorem clockRegisters : Obligations.ClockRegisters := by
  intro s t p val w steward
  refine ⟨fun reg => ⟨_, exec_rtcGroupRead steward t reg p, ?_, rfl⟩, fun x held => ⟨rtcSnap_held (s := s.at t) held, rtcSnap_fresh (s := s.at t) held, ?_⟩,
    fun x held => ⟨_, exec_rtcSnapshotExpiry_steward held t, rfl⟩, rtcTrimWrite_writes steward t val,
    _, exec_saddlebagWrite steward t w val, getElem_upd_self .., fun k other => getElem_upd_other (Ne.symm other), rfl, ⟨rfl, rfl, rfl⟩, rfl⟩
  · cases p <;> rfl
  · exact ⟨_, exec_rtcSnapshotExpiry_bar0 held t, rfl⟩

/-! ### Commands (R423 to R428) -/

/-- RTC_STAT shows a set and a step that are pending (R425). -/
theorem rtcStat_pending (s : State) :
    (barWord s 0x1400).getLsbD 7 = s.bk.stagedSet.isSome ∧ (barWord s 0x1400).getLsbD 6 = s.bk.dstStep.isSome := by
  have spaced : Spaced 0 [(0, 1, b2n s.bk.valid), (1, 2, s.bkSource), (3, 1, b2n s.bk.oscstop), (4, 1, b2n s.bk.lostevt), (5, 1, b2n s.bk.wrapped),
    (6, 1, b2n s.bk.dstStep.isSome), (7, 1, b2n s.bk.stagedSet.isSome), (8, 1, b2n s.bk.a1), (9, 1, b2n s.bk.a2)] := by simp
  exact ⟨pack_flag spaced (by simp) (by decide), pack_flag spaced (by simp) (by decide)⟩

@[simp] theorem taken_bk (s : State) (t : Nat) (c : RingId) (e : CmdEntry) (op : Nat) : (s.taken t c e op).bk = s.bk := rfl
@[simp] theorem taken_inProg (s : State) (t : Nat) (c : RingId) (e : CmdEntry) (op : Nat) :
    (s.taken t c e op).host.inProg[c] = some (s.refOf c e op) := Vector.getElem_set_self ..

theorem waits_of_pending {b : Backup} (h : b.stagedSet.isSome = true ∨ b.dstStep.isSome = true) : b.waits = true := by
  rw [Backup.waits, Bool.or_eq_true]
  exact h

section
variable {s : State} {t : Nat} {c : RingId} {e : CmdEntry} (can : s.CanAnswer c)
include can

/-- A command refused changes nothing of the clock. -/
theorem clock_refused {op : Nat} {checks : State → List Check} {act : CmdRef → State → State} {i : Instr}
    (run : exec i s = .next (s.command t c op e checks act)) {st : BitVec 16} (fails : firstFail (checks (s.taken t c e op)) = some st) :
    ∃ s', exec i s = .next s' ∧ Answers s s' c e st [] ∧ s'.bk = s.bk := by
  obtain ⟨s', run, answers, same⟩ := exec_refused can run fails
  exact ⟨s', run, answers, (congrArg State.bk same :)⟩

/-- A command that stages a set or a step awaits its end. -/
theorem clock_awaits {op : Nat} {checks : State → List Check} {act : CmdRef → State → State} {b : CmdRef → Backup} {i : Instr}
    (run : exec i s = .next (s.command t c op e checks act)) (passes : Passes (checks (s.taken t c e op)))
    (stages : act (s.refOf c e op) (s.taken t c e op) = { s.taken t c e op with bk := b (s.refOf c e op) }) :
    ∃ s' ref, exec i s = .next s' ∧ Awaits s s' c e op ∧ s'.host.inProg[c] = some ref ∧ s'.bk = b ref ∧ LanesKept s s' := by
  obtain ⟨begins, power, -⟩ := can
  rw [command_passes begins power passes, stages] at run
  exact ⟨_, _, run, taken_awaits (t := t) rfl, taken_inProg (t := t) .., rfl, rfl, rfl, rfl⟩

end

/-- An entry of 0x50 whose fields lie in their ranges is judged by what is pending and by its date (R423). -/
theorem rtcSetChecks_ranged {e : CmdEntry} (form : e.formOk 0 [(4, 8)] = true) (dst : e.b 11 ≤ 1) (early : 2000 ≤ e.h 4) (late : e.h 4 ≤ 2199)
    (month : 1 ≤ e.b 6 ∧ e.b 6 ≤ 12) (day : 1 ≤ e.b 7 ∧ e.b 7 ≤ 31) (hour : e.b 8 ≤ 23) (minute : e.b 9 ≤ 59) (second : e.b 10 ≤ 59)
    (s : State) : rtcSetChecks e s = [(false, 0x0101), (false, 0x0103), (s.bk.waits, 0x0260),
      (decide (daysIn (e.h 4 - 2000) (e.b 6) < e.b 7), 0x0150)] := by
  obtain ⟨month1, month12⟩ := month
  obtain ⟨day1, day31⟩ := day
  simp [rtcSetChecks, Nat.not_lt.mpr, *]

/-- The boundary of a step lies 61 µs ahead, and is the next or the one after it (R424). -/
theorem dstDue_bounds {s : State} (early : s.now ≤ s.bk.secAt + secCycles) : s.now + 61 * usCycles < s.dstDue ∧
    (s.dstDue = s.bk.secAt + secCycles ∨ s.dstDue = s.bk.secAt + 2 * secCycles) := by
  unfold State.dstDue
  have short : 61 * usCycles < secCycles := by decide
  dsimp only
  split
  case isTrue ahead => exact ⟨ahead, .inl rfl⟩
  case isFalse => exact ⟨by omega, .inr (by omega)⟩

section
variable {s : State} {t : Nat} {c : RingId} {e : CmdEntry} (can : s.CanAnswer c) (form : e.formOk 1 [] = true)
include can form

theorem dst_occupied (waits : s.bk.waits = true) :
    (∃ s', exec (.summerTimeAdd t c e) s = .next s' ∧ Answers s s' c e 0x0260 [] ∧ s'.bk = s.bk) ∧
      ∃ s', exec (.summerTimeSubtract t c e) s = .next s' ∧ Answers s s' c e 0x0260 [] ∧ s'.bk = s.bk :=
  ⟨clock_refused (t := t) can rfl (by simp [dstChecks, firstFail, form, waits]),
    clock_refused (t := t) can rfl (by simp [dstChecks, firstFail, form, waits])⟩

theorem summerTimeAdd_inForce (free : s.bk.waits = false) (dst : s.bk.dst = true) :
    ∃ s', exec (.summerTimeAdd t c e) s = .next s' ∧ Answers s s' c e 0x0261 [] ∧ s'.bk = s.bk :=
  clock_refused (t := t) can rfl (by simp [dstChecks, firstFail, form, free, dst])

theorem summerTimeSubtract_idle (free : s.bk.waits = false) (dst : s.bk.dst = false) :
    ∃ s', exec (.summerTimeSubtract t c e) s = .next s' ∧ Answers s s' c e 0x0261 [] ∧ s'.bk = s.bk :=
  clock_refused (t := t) can rfl (by simp [dstChecks, firstFail, form, free, dst])

theorem dstChecks_pass (sub : Bool) (free : s.bk.waits = false) (dst : s.bk.dst = sub)
    (inside : ((s.at t).dstBase.shift sub).isNone = false) : Passes (dstChecks e sub (s.taken t c e 0x51)) := by
  have base : (s.taken t c e 0x51).dstBase = (s.at t).dstBase := rfl
  cases sub <;> simp [Passes, dstChecks, form, free, dst, base, inside]

end

/-- A comparator takes its set-up at once, and the command completes (R428). -/
theorem alarmSetUp_takes {s : State} {t : Nat} {c : RingId} {e : CmdEntry} (can : s.CanAnswer c) (passes : Passes (alarmChecks e s)) :
    ∃ s', exec (.alarmSetUp t c e) s = .next s' ∧ Answers s s' c e 0 [] ∧ s'.bk =
      if e.b 4 = 1 then { s.bk with alm1 := alarmOfEntry e, a1 := false }
      else { s.bk with alm2 := alarmOfEntry e, a2 := false, cnt := BitVec.ofNat 24 (e.w 16), cntAt := s.then t } := by
  have ⟨begins, power, _⟩ := can
  have run : exec (.alarmSetUp t c e) s = .next ((if e.b 4 = 1 then
      ({ s.taken t c e 0x52 with bk := { s.bk with alm1 := alarmOfEntry e, a1 := false } } : State)
      else { s.taken t c e 0x52 with bk := { s.bk with
        alm2 := alarmOfEntry e, a2 := false, cnt := BitVec.ofNat 24 (e.w 16), cntAt := s.then t } }).complete (s.refOf c e 0x52) 0 []) :=
    congrArg Host.Outcome.next (command_passes begins power passes)
  obtain ⟨s', run, answers, same⟩ := exec_answers (t := t) can run (by split <;> rfl) (by split <;> rfl)
  refine ⟨s', run, answers, (congrArg State.bk same).trans ?_⟩
  dsimp only
  split <;> rfl

/-- The clock's commands, each by its first check that fails or by what it stages. -/
theorem clockCommands : Stated.ClockCommands := by
  intro s t c e can
  refine ⟨rtcStat_pending s, fun form dst early late month1 month12 day1 day31 hour minute second => ?set, fun form => ?step, fun sound => ?alarm⟩
  case set =>
    have judged := rtcSetChecks_ranged form dst early late ⟨month1, month12⟩ ⟨day1, day31⟩ hour minute second
    refine ⟨fun pending => ?_, fun free date => ?_, fun free date => ?_⟩
    · exact clock_refused (t := t) can rfl (by simp [judged, firstFail, waits_of_pending pending])
    · exact clock_refused (t := t) can rfl (by simp [judged, firstFail, free, date])
    · obtain ⟨s', ref, run, awaits, inProg, bk, lanes⟩ := clock_awaits (t := t) (i := .rtcSet t c e) can rfl
        (by simp [Passes, judged, free, date]) (b := fun ref => { s.bk with stagedSet := some (calOf e, bit (e.b 11) 0, ref) }) rfl
      exact ⟨s', ref, run, awaits, inProg, bk, lanes, rfl⟩
  case step =>
    refine ⟨fun pending => dst_occupied can form (waits_of_pending pending), fun free dst inside => ?_, summerTimeAdd_inForce can form,
      fun free dst inside => ?_, summerTimeSubtract_idle can form⟩
    · obtain ⟨s', ref, run, awaits, inProg, bk, -⟩ := clock_awaits (t := t) (i := .summerTimeAdd t c e) can rfl
        (dstChecks_pass can form false free dst inside)
        (b := fun ref => { s.bk with dstStep := some (false, (s.at t).dstDue, ref) }) rfl
      exact ⟨s', ref, _, run, awaits, inProg, bk, dstDue_bounds (s := s.at t)⟩
    · obtain ⟨s', ref, run, awaits, inProg, bk, -⟩ := clock_awaits (t := t) (i := .summerTimeSubtract t c e) can rfl
        (dstChecks_pass can form true free dst inside)
        (b := fun ref => { s.bk with dstStep := some (true, (s.at t).dstDue, ref) }) rfl
      exact ⟨s', ref, _, run, awaits, inProg, bk⟩
  case alarm =>
    obtain ⟨s', run, answers, bk⟩ := alarmSetUp_takes (t := t) can sound
    exact ⟨fun one => ⟨s', run, answers, bk.trans (if_pos one)⟩, fun two => ⟨s', run, answers, bk.trans (if_neg (by omega))⟩⟩

/-- The staged time is taken, recorded while the steward runs, and its command ends (R423). -/
theorem clockSetCommits : Stated.ClockSetCommits := by
  intro s t cal dst ref staged
  let set : State := { s.at t with bk := { s.bk with
    cal := cal
    dst := dst
    secAt := s.then t
    valid := true
    wrapped := false
    stagedSet := none } }
  let told : State := if set.steward then set.gbEvent 0x81 0 sevInfo [] else set
  have run : exec (.rtcSetCommit t) s = .next (told.complete ref 0 []) := by
    change execRtcSetCommit t s = _
    unfold execRtcSetCommit
    dsimp only
    rw [State.at_bk, staged]
    rfl
  have clocked : set.Clocked told set.bk := by
    unfold told
    split
    · exact gbEvent_clocked ..
    · exact ⟨_, _, _, rfl⟩
  have same := complete_alone told ref 0 []
  refine ⟨_, run, ?_, fun steward => complete_recorded ?_ .., (clocked.finishes ref 0 []).since rfl List.prefix_rfl, ?_, ?_, ?_⟩
  · exact (congrArg State.bk same).trans clocked.bk
  · rw [show told = set.gbEvent 0x81 0 sevInfo [] from if_pos steward]
    exact gbEvent_recorded ..
  · rw [same]
    exact clocked.lanesKept
  · rw [same]
    exact clocked.fieldKept
  · exact (congrArg State.nv same).trans clocked.nv

/-- Settles O42: a command is refused by the first check that fails, or stages what it says; a staged set is committed. -/
theorem clockCommandsTake : Obligations.ClockCommandsTake := ⟨clockCommands, clockSetCommits⟩

end Sys2Proof.Machine
end

section
/-! PROOFS. Page programs, operating hours and journal folds (R436, R437, R446, R450). -/

namespace Sys2Proof.Machine

/-! ### The end of a write -/

/-- Only the rings, what has gone out and the marks of bits set have changed. -/
def State.OnlyRings (s s' : State) : Prop := ∃ host out marks, s' = { s with host := host, out := out, marks := marks }

theorem State.OnlyRings.refl (s : State) : s.OnlyRings s := ⟨_, _, _, rfl⟩

theorem State.OnlyRings.trans {s s₁ s' : State} (h : s.OnlyRings s₁) (h' : s₁.OnlyRings s') : s.OnlyRings s' := by
  obtain ⟨_, _, _, rfl⟩ := h
  obtain ⟨_, _, _, rfl⟩ := h'
  exact ⟨_, _, _, rfl⟩

theorem complete_onlyRings (s : State) (ref : CmdRef) (st : BitVec 16) (res : List Byte) : s.OnlyRings (s.complete ref st res) :=
  ⟨_, _, _, complete_alone ..⟩

theorem completeOpt_onlyRings (s : State) (ref : Option CmdRef) (st : BitVec 16) (res : List Byte) : s.OnlyRings (s.completeOpt ref st res) :=
  ⟨_, _, _, completeOpt_alone ..⟩

theorem completeAll_onlyRings (s : State) (refs : List CmdRef) (st : BitVec 16) (res : List Byte) : s.OnlyRings (s.completeAll refs st res) :=
  List.foldlRecOn refs _ (.refl s) fun s' h ref _ => h.trans (complete_onlyRings s' ref st res)

/-- What the end of a write may change: application, trims and points of the field, the point folded, and what reports. -/
def State.WriteEnds (s s' : State) : Prop := ∃ app chans groups folded gb host out marks, s' = { s with
  app := app, chans := chans, groups := groups, nv := { s.nv with folded := folded }, gb := gb, host := host, out := out, marks := marks }

theorem State.OnlyRings.writeEnds {s s' : State} (h : s.OnlyRings s') : s.WriteEnds s' := by
  obtain ⟨_, _, _, rfl⟩ := h
  exact ⟨_, _, _, _, _, _, _, _, rfl⟩

theorem State.WriteEnds.of_onlyRings {s s₁ s' : State} (h : s.WriteEnds s₁) (h' : s₁.OnlyRings s') : s.WriteEnds s' := by
  obtain ⟨_, _, _, _, _, _, _, _, rfl⟩ := h
  obtain ⟨_, _, _, rfl⟩ := h'
  exact ⟨_, _, _, _, _, _, _, _, rfl⟩

theorem trimStored_ends (s : State) (ref : CmdRef) (n : ChanId) (res : List Byte) (points : Bool) :
    s.WriteEnds (s.trimStored ref n res points) := by
  refine .of_onlyRings ?_ (complete_onlyRings ..)
  rw [gbEvent_alone]
  split <;> exact ⟨_, _, _, _, _, _, _, _, rfl⟩

theorem written_ends (s : State) (d : NvDone) : s.WriteEnds (s.written d) := by
  cases d with
  | nothing => exact (State.OnlyRings.refl s).writeEnds
  | command ref seq => exact (complete_onlyRings ..).writeEnds
  | startFlag =>
    unfold State.written
    cases s.app.start with
    | none => exact (State.OnlyRings.refl s).writeEnds
    | some q => exact ⟨_, _, _, _, _, _, _, _, rfl⟩
  | stopFlag =>
    unfold State.written
    cases s.app.stop with
    | none => exact (State.OnlyRings.refl s).writeEnds
    | some q => exact .of_onlyRings ⟨_, _, _, _, _, _, _, _, rfl⟩ (completeAll_onlyRings ..)
  | calib ref ch res points => exact trimStored_ends ..
  | fold upto => exact ⟨_, _, _, _, _, _, _, _, rfl⟩

theorem writeFailed_ends (s : State) (d : NvDone) : ∃ app, State.OnlyRings { s with app := app } (s.writeFailed d) := by
  cases d with
  | nothing => exact ⟨_, .refl s⟩
  | command ref seq => exact ⟨_, complete_onlyRings s ..⟩
  | startFlag =>
    unfold State.writeFailed
    cases s.app.start with
    | none => exact ⟨_, .refl s⟩
    | some q => exact ⟨_, completeOpt_onlyRings ..⟩
  | stopFlag =>
    unfold State.writeFailed
    cases s.app.stop with
    | none => exact ⟨_, .refl s⟩
    | some q => exact ⟨_, completeAll_onlyRings ..⟩
  | calib ref ch res points => exact ⟨_, complete_onlyRings s ..⟩
  | fold upto => exact ⟨_, .refl s⟩

/-- The controller's next program changes nothing else (R437). -/
theorem nvNext_alone (s : State) : s.nvNext = { s with nv := { s.nv with busy := s.nvNext.nv.busy, queue := s.nvNext.nv.queue } } :=
  congrArg (fun n => { s with nv := n }) (start_alone s.nv)

/-! ### A program that is good (R436) -/

/-- The state in which a program has just been read back good. -/
def State.programmed (s : State) (t : Nat) (j : NvJob) : State := { s.at t with nv := { s.nv with
  pages := s.nv.pages + 1
  busy := none
  mem := s.nv.mem.write j.addr j.bytes } }

theorem exec_nvPageProgramComplete_good {s : State} {j : NvJob} (busy : s.nv.busy = some j) (t : Nat) :
    exec (.nvPageProgramComplete t true) s = .next ((s.programmed t j).written j.done).nvNext := by
  change execNvPageProgramComplete t true s = _
  have busy' : (s.at t).nv.busy = some j := busy
  simp only [execNvPageProgramComplete, busy', if_true]
  rfl

theorem programmed_kept (s : State) (t : Nat) (j : NvJob) : let s' := ((s.programmed t j).written j.done).nvNext
    s'.nv.pages = s.nv.pages + 1 ∧ s'.nv.mem = s.nv.mem.write j.addr j.bytes ∧ LanesKept s s' := by
  intro s'
  have ends := written_ends (s.programmed t j) j.done
  have next : s' = _ := nvNext_alone _
  obtain ⟨_, _, _, _, _, _, _, _, eq⟩ := ends
  rw [next, eq]
  exact ⟨rfl, rfl, rfl, rfl, rfl⟩

/-- What awaits a write gets its answer as the write ends. -/
theorem programmed_finishes (s : State) (t : Nat) {j : NvJob} {ref : CmdRef} {seq : Word} (done : j.done = .command ref seq) :
    Finishes s ((s.programmed t j).written j.done).nvNext ref 0 (toLe 4 seq.toNat) := by
  rw [done]
  exact (complete_finishes (s.programmed t j) ref 0 (toLe 4 seq.toNat)).since rfl List.prefix_rfl

theorem programmed_starts (s : State) (t : Nat) {j : NvJob} {q : StartReq} (done : j.done = .startFlag) (start : s.app.start = some q) :
    ((s.programmed t j).written j.done).nvNext.app = { s.app with
      runFlag := true
      start := some { q with flagOk := true, tick := max q.tick (s.cycle + 1) } } := by
  have due : (s.programmed t j).app.start = some q := start
  simp only [done, State.nvNext, State.written, due]
  rfl

theorem programmed_stops (s : State) (t : Nat) {j : NvJob} {q : StopReq} (done : j.done = .stopFlag) (stop : s.app.stop = some q) :
    let s' := ((s.programmed t j).written j.done).nvNext
    s'.app = { s.app with runFlag := false, stop := none } ∧ ∀ ref, q.refs = [ref] → Finishes s s' ref 0 (toLe 6 q.tick) := by
  intro s'
  let stopped : State := { s.programmed t j with app := { s.app with runFlag := false, stop := none } }
  have due : (s.programmed t j).app.stop = some q := stop
  have eq : s' = (stopped.completeAll q.refs 0 (toLe 6 q.tick)).nvNext := by
    simp only [s', done, State.written, due]
    rfl
  refine ⟨?_, fun ref single => ?_⟩
  · obtain ⟨_, _, _, same⟩ := completeAll_onlyRings stopped q.refs 0 (toLe 6 q.tick)
    rw [eq, same]
    rfl
  · rw [eq, single]
    exact (complete_finishes stopped ref 0 (toLe 6 q.tick)).since rfl List.prefix_rfl

theorem programmed_folds (s : State) (t : Nat) {j : NvJob} {n : Nat} (done : j.done = .fold n) :
    ((s.programmed t j).written j.done).nvNext.nv.folded = max s.nv.folded n := by
  rw [nvNext_alone, done]
  rfl

/-! ### A program that fails (R436) -/

theorem length_freeBytes (n k : Nat) : (freeBytes n k).length = n := by
  induction n generalizing k with
  | zero => rfl
  | succ n ih => rw [freeBytes, List.length_cons, ih]

/-- The state in which a program has just failed: its bytes are free values (log entry 10). -/
def State.misprogrammed (s : State) (t : Nat) (j : NvJob) : State := { s.at t with
  fresh := s.fresh + j.bytes.length
  nv := { s.nv with
    pages := s.nv.pages + 1
    mem := s.nv.mem.write j.addr (freeBytes j.bytes.length s.fresh) } }

theorem misprogrammed_outside {s : State} (wf : s.nv.mem.wf = true) (t : Nat) (j : NvJob) {a : Nat}
    (outside : a < j.addr ∨ j.addr + j.bytes.length ≤ a) : (s.misprogrammed t j).nv.mem.get a = s.nv.mem.get a :=
  Mem.get_write_outside wf (by rwa [length_freeBytes])

/-- A first failure repeats the program. -/
theorem exec_nvPageProgramComplete_first {s : State} {j : NvJob} (busy : s.nv.busy = some j) (first : j.retry = false) (t : Nat) :
    exec (.nvPageProgramComplete t false) s = .next { s.misprogrammed t j with nv := { (s.misprogrammed t j).nv with
      busy := some { j with retry := true } } } := by
  change execNvPageProgramComplete t false s = _
  have busy' : (s.at t).nv.busy = some j := busy
  simp only [execNvPageProgramComplete, busy', if_pos first]
  rfl

theorem spoiled_outside {m : Mem} (wf : m.wf = true) {j : NvJob} {a : Nat} (outside : a < j.addr ∨ j.addr + j.bytes.length ≤ a) :
    (spoiled m j).get a = m.get a := by
  unfold spoiled
  split
  case isTrue slot =>
    obtain ⟨bytes, -⟩ := slot
    have long := List.length_pos_of_ne_nil bytes
    exact Mem.get_write_outside wf (by rw [List.length_singleton]; omega)
  case isFalse => rfl

/-- The state in which a program has failed twice: its write is given up. -/
def State.givenUp (s : State) (t : Nat) (j : NvJob) : State := { s.misprogrammed t j with nv := { (s.misprogrammed t j).nv with
  mem := spoiled (s.misprogrammed t j).nv.mem j
  busy := none
  pfail := true
  queue := s.nv.queue.filter (fun q => q.write != j.write) } }.mark 0x1800 4

/-- That is recorded while the steward runs. -/
def State.lostWrite (s : State) (t : Nat) (j : NvJob) : State :=
  if s.steward then (s.givenUp t j).gbEvent 0x88 0 sevFault [BitVec.ofNat 32 (j.addr / 256 * 256)] else s.givenUp t j

theorem exec_nvPageProgramComplete_second {s : State} {j : NvJob} (busy : s.nv.busy = some j) (second : j.retry = true) (t : Nat) :
    exec (.nvPageProgramComplete t false) s = .next ((s.lostWrite t j).writeFailed (s.nv.doneOf j)).nvNext := by
  change execNvPageProgramComplete t false s = _
  have busy' : (s.at t).nv.busy = some j := busy
  simp only [execNvPageProgramComplete, busy', second]
  rfl

theorem lostWrite_eq (s : State) (t : Nat) (j : NvJob) : s.lostWrite t j = { s.givenUp t j with gb := (s.lostWrite t j).gb } := by
  unfold State.lostWrite
  split
  · rw [gbEvent_alone]
  · rfl

theorem doneOf_command {n : Nv} {j : NvJob} {ref : CmdRef} {seq : Word} (done : j.done = .command ref seq) : n.doneOf j = .command ref seq := by
  simp [Nv.doneOf, done]

/-- A write given up: its other programs are dropped, other pages stay, the failure is recorded, and its command is answered. -/
theorem lostWrite_ends {s : State} (wf : s.nv.mem.wf = true) (t : Nat) (j : NvJob) :
    let s' := ((s.lostWrite t j).writeFailed (s.nv.doneOf j)).nvNext
    s'.nv.pfail = true ∧ LanesKept s s' ∧ (∀ q ∈ s'.nv.queue, q.write ≠ j.write) ∧ (s.steward = true → s'.recorded 0x88 0 sevFault) ∧
      (∀ a, (a < j.addr ∨ j.addr + j.bytes.length ≤ a) → s'.nv.mem.get a = s.nv.mem.get a) ∧
      ∀ ref seq, j.done = .command ref seq → Finishes s s' ref 0x0605 [] := by
  intro s'
  obtain ⟨app, host, out, marks, ended⟩ := writeFailed_ends (s.lostWrite t j) (s.nv.doneOf j)
  have nv : ((s.lostWrite t j).writeFailed (s.nv.doneOf j)).nv = (s.givenUp t j).nv := by rw [ended, lostWrite_eq]
  have next : s' = _ := nvNext_alone _
  have outside : ∀ a, (a < j.addr ∨ j.addr + j.bytes.length ≤ a) → (s.givenUp t j).nv.mem.get a = s.nv.mem.get a := fun a h =>
    (spoiled_outside (Mem.wf_write wf) h).trans (misprogrammed_outside wf t j h)
  refine ⟨?_, ?_, fun q queued => ?_, fun steward => ?_, fun a h => ?_, fun ref seq done => ?_⟩
  · rw [next, nv]
    rfl
  · rw [next, ended, lostWrite_eq]
    exact ⟨rfl, rfl, rfl⟩
  · have queued := start_mem_queue queued
    rw [nv] at queued
    have := (List.mem_filter.mp queued).2
    simpa using this
  · have told : (s.lostWrite t j).recorded 0x88 0 sevFault := by
      rw [State.lostWrite, if_pos steward]
      exact gbEvent_recorded ..
    rw [next, ended]
    exact told
  · rw [next, nv]
    exact outside a h
  · have answered : s' = ((s.lostWrite t j).complete ref 0x0605 []).nvNext := by
      simp only [s', doneOf_command done, State.writeFailed]
    rw [answered]
    refine (complete_finishes (s.lostWrite t j) ref 0x0605 []).since ?_ ?_ <;> rw [lostWrite_eq]
    · rfl
    · exact List.prefix_rfl

/-! ### Hours and folds (R446, R450) -/

theorem exec_hoursIncrement {s : State} (steward : s.steward = true) (ready : s.nv.ready = true) (power : s.pwr.pf = .none) (t : Nat) :
    exec (.hoursIncrement t) s = .next (({ s.at (max t (s.cycleOfTb (s.nv.lastHours + 360 * secCycles))) with
      nv := { s.nv with lastHours := s.nv.lastHours + 360 * secCycles } } : State).countUp 4 hoursBase) := by
  change execHoursIncrement t s = _
  rw [execHoursIncrement, if_pos ⟨steward, ready, power⟩]
  rfl

/-- The first program of a counter's increment is its value (R446). -/
theorem countUp_value (s : State) (cls base : Nat) : let v := min (counter s.nv.settled base + 1) 0xFFFFFF
    ∃ q ∈ (s.countUp cls base).nv.jobs, q.addr = base + 4 * (v % 8) ∧ q.bytes = toLe 3 v := by
  obtain ⟨q, job, addr, bytes, -⟩ := nvWrite_page s cls (pages := _ :: _ :: []) .nothing (i := 0) Nat.two_pos
  exact ⟨q, job, addr, bytes⟩

theorem hoursIncrement_counts {s : State} (steward : s.steward = true) (ready : s.nv.ready = true) (power : s.pwr.pf = .none) (t : Nat) :
    ∃ s', exec (.hoursIncrement t) s = .next s' ∧ s'.nv.lastHours = s.nv.lastHours + 360 * secCycles ∧ s'.nv.writes = s.nv.writes + 1 ∧
      s'.nv.mem = s.nv.mem ∧ s'.now = max (s.then t) (s.cycleOfTb (s.nv.lastHours + 360 * secCycles)) ∧ LanesKept s s' ∧ s'.host = s.host ∧
      (let v := min (counter s.nv.settled hoursBase + 1) 0xFFFFFF;
        ∃ q ∈ s'.nv.busy.toList ++ s'.nv.queue, q.addr = hoursBase + 4 * (v % 8) ∧ q.bytes = toLe 3 v) := by
  let counted : State := { s.at (max t (s.cycleOfTb (s.nv.lastHours + 360 * secCycles))) with
    nv := { s.nv with lastHours := s.nv.lastHours + 360 * secCycles } }
  refine ⟨_, exec_hoursIncrement steward ready power t, ?_, ?_, ?_, ?_, ?_, ?_, countUp_value counted 4 hoursBase⟩
  all_goals rw [countUp_alone]
  case refine_4 => exact at_now_due ..
  case refine_5 => exact ⟨rfl, rfl, rfl⟩
  all_goals rfl

/-- The complete points of the ring that may be folded (R450). -/
def State.foldable (s : State) : List (Nat × List (List Byte)) :=
  (pointsFrom s.nv.mem 512 s.nv.folded []).filter (fun p => decide (p.1 ≤ s.nv.jseq))

section
variable {s : State} {c : Conf} (steward : s.steward = true) (stored : s.app.stored = some c)
include steward stored

theorem exec_journalFold_none (none : s.foldable = []) (t : Nat) : exec (.journalFold t) s = .next (s.at t) := by
  change execJournalFold t s = _
  have none' : (s.at t).foldable = [] := none
  unfold State.foldable at none'
  simp only [execJournalFold, State.at_app, stored, State.at_steward, steward, none', List.getLast?_nil]

theorem exec_journalFold_some {p : Nat × List (List Byte)} (last : s.foldable.getLast? = some p) (t : Nat) : exec (.journalFold t) s =
    .next (((s.at t).nvWrite 4 ((s.foldable.flatMap (fun p => p.2.flatMap (pageWrites c))).flatMap (fun w => pageCuts 3 w.1 w.2)) .nothing).recWrite
      4 8 (toLe 4 (p.1 - 1)) (fun _ => .fold p.1)) := by
  change execJournalFold t s = _
  have last' : (s.at t).foldable.getLast? = some p := last
  unfold State.foldable at last'
  simp only [execJournalFold, State.at_app, stored, State.at_steward, steward, last']
  rfl

/-- A fold queues the pages of the base image, then the record of the point folded up to (R450). -/
theorem journalFold_folds {p : Nat × List (List Byte)} (last : s.foldable.getLast? = some p) (t : Nat) :
    ∃ s' q, exec (.journalFold t) s = .next s' ∧ q ∈ s'.nv.busy.toList ++ s'.nv.queue ∧ q.done = .fold p.1 ∧ s'.nv.folded = s.nv.folded ∧
      s'.nv.mem = s.nv.mem ∧ s'.nv.writes = s.nv.writes + 2 ∧ LanesKept s s' := by
  let pages := (s.foldable.flatMap (fun p => p.2.flatMap (pageWrites c))).flatMap (fun w => pageCuts 3 w.1 w.2)
  obtain ⟨q, job, done⟩ := recWrite_done ((s.at t).nvWrite 4 pages .nothing) 4 8 (toLe 4 (p.1 - 1)) (fun _ => .fold p.1)
  refine ⟨_, q, exec_journalFold_some steward stored last t, job, done, ?_⟩
  rw [recWrite_alone, nvWrite_alone]
  exact ⟨rfl, rfl, rfl, rfl, rfl, rfl⟩

end

/-- Settles O43: a program by what has been read back, the hours and a fold by the writes they queue. -/
theorem nvPrograms : Obligations.NvPrograms := by
  intro s t j inv
  refine ⟨fun busy => ⟨?good, fun first => ⟨_, exec_nvPageProgramComplete_first busy first t, ?_⟩, fun second => ?second⟩,
    fun steward ready power => hoursIncrement_counts steward ready power t, fun c steward stored =>
      ⟨fun none => ⟨_, exec_journalFold_none steward stored none t, rfl⟩, fun p last => journalFold_folds steward stored last t⟩⟩
  case good =>
    obtain ⟨pages, mem, lanes⟩ := programmed_kept s t j
    refine ⟨_, exec_nvPageProgramComplete_good busy t, pages, lanes, fun i lt => ?_, fun a outside => ?_, fun ref seq => programmed_finishes s t,
      fun q => programmed_starts s t, fun q => programmed_stops s t, fun n => programmed_folds s t⟩
    · rw [mem]
      exact Mem.get_write_inside inv.nv lt
    · rw [mem]
      exact Mem.get_write_outside inv.nv outside
  case second =>
    exact ⟨_, exec_nvPageProgramComplete_second busy second t, lostWrite_ends inv.nv t j⟩
  · exact ⟨rfl, rfl, rfl, rfl, ⟨rfl, rfl, rfl⟩, fun a outside => misprogrammed_outside inv.nv t j outside⟩

end Sys2Proof.Machine
end

section
/-! PROOFS. Records of the NV store, its protection register, and the guestbook's slots (R439, R453 to R455, R461 to R467). -/

namespace Sys2Proof.Machine

/-! ### Completions after a request of the command's own -/

/-- A command taken that completes is answered, whatever it has sent before. -/
theorem complete_answers_of_mayBegin {s s₁ : State} {t : Nat} {c : RingId} {e : CmdEntry} {op : Nat} (begins : s.mayBegin c = true)
    (room : s.host.cqRoom (s.host.cqOf c) = true) (host : s₁.host = (s.taken t c e op).host) (out : (s.taken t c e op).out <+: s₁.out)
    (st : BitVec 16) (res : List Byte) : Answers s (s₁.complete (s.refOf c e op) st res) c e st res := by
  obtain ⟨active, master, free⟩ := rings_of_mayBegin begins
  have finishes := complete_finishes s₁ (s.refOf c e op) st res
  simp only [Finishes, host] at finishes
  obtain ⟨done, completes⟩ := finishes active (taken_inProg ..)
  obtain ⟨bs, written, fields⟩ := completes master room free
  refine ⟨done, ?_, bs, written.since ?_ ?_ ((List.prefix_append ..).trans out), fields⟩
  · rw [complete_cmdHead, host]
    exact Vector.getElem_set_self ..
  · rw [host]; rfl
  · rw [host]; rfl

/-- With bus mastering on, a request leaves the rings' figures alone. -/
theorem request_host {s : State} (master : s.host.busMaster = true) (o : Out) : (s.request o).host = s.host := by
  unfold State.request
  rw [if_pos master]
  split <;> rfl

theorem taken_master {s : State} {c : RingId} (can : s.CanAnswer c) (t : Nat) (e : CmdEntry) (op : Nat) :
    (s.taken t c e op).host.busMaster = true := (rings_of_mayBegin can.1).2.1

/-- A command that passes, sends a block to the host and completes. -/
theorem command_sends {s : State} {t : Nat} {c : RingId} {e : CmdEntry} {op : Nat} {checks : State → List Check} {act : CmdRef → State → State}
    {i : Instr} {st : BitVec 16} {res data : List Byte} {a : Nat} (can : s.CanAnswer c) (run : exec i s = .next (s.command t c op e checks act))
    (passes : Passes (checks (s.taken t c e op)))
    (acts : act (s.refOf c e op) (s.taken t c e op) = ((s.taken t c e op).request (.hostWrite a data)).complete (s.refOf c e op) st res) :
    ∃ s', exec i s = .next s' ∧ Answers s s' c e st res ∧ (s.host.mute = false → Out.hostWrite a data ∈ s'.out.drop s.out.length) ∧
      (s.at t).OnlyRings s' := by
  have ⟨begins, power, _⟩ := can
  rw [command_passes begins power passes, acts] at run
  have master := taken_master can t e op
  refine ⟨_, run, complete_answers_of_mayBegin begins can.2.2 (request_host master _) (request_out ..) st res, fun requests => ?_, ?_⟩
  · have made := request_made (s := s.taken t c e op) requests (.hostWrite a data)
    rw [if_pos master] at made
    refine mem_drop_of_prefix ?_ (complete_out ..)
    have longer : s.out.length ≤ (s.taken t c e op).out.length := by simp [State.taken]
    obtain ⟨k, more⟩ := Nat.exists_eq_add_of_le longer
    rw [more, ← List.drop_drop] at made
    exact List.mem_of_mem_drop made
  · rw [complete_alone, request_alone]
    exact ⟨_, _, _, rfl⟩

theorem writeCompletion_out (s : State) (q : RingId) (c : Completion) :
    ∃ i a bs a' bs', (s.writeCompletion q c).out = s.out ++ [.completion q i a bs, .completion q i a' bs'] := by
  unfold State.writeCompletion State.emit State.raiseLater
  dsimp only
  split <;> exact ⟨_, _, _, _, _, List.append_assoc ..⟩

/-- A completion writes its own entry to the host and nothing else. -/
theorem complete_sends_no_block (s : State) (ref : CmdRef) (st : BitVec 16) (res : List Byte) :
    ∃ more, (s.complete ref st res).out = s.out ++ more ∧ ∀ a d, Out.hostWrite a d ∉ more := by
  unfold State.complete
  dsimp only
  split
  · split
    · obtain ⟨_, _, _, _, _, out⟩ := writeCompletion_out _ _ _
      exact ⟨_, out, by simp⟩
    · refine ⟨[], ?_, by simp⟩
      split <;> exact (List.append_nil _).symm
  · exact ⟨[], (List.append_nil _).symm, by simp⟩

/-! ### Records of the driver (R453, R454) -/

theorem recSize_of_driver {n : Nat} (low : 0x100 ≤ n) (high : n ≤ 0x13B) : recSize n = 4096 := by
  unfold recSize
  grind

theorem recSize_above {n : Nat} (high : 0x13B < n) : recSize n = 0 := by
  unfold recSize
  grind

section
variable {s : State} {t : Nat} {c : RingId} {e : CmdEntry} (can : s.CanAnswer c)
include can

/-- A command refused leaves the store alone. -/
theorem nv_refused {op : Nat} {checks : State → List Check} {act : CmdRef → State → State} {i : Instr}
    (run : exec i s = .next (s.command t c op e checks act)) {st : BitVec 16} (fails : firstFail (checks (s.taken t c e op)) = some st) :
    ∃ s', exec i s = .next s' ∧ Answers s s' c e st [] ∧ s'.nv = s.nv := by
  obtain ⟨s', run, answers, same⟩ := exec_refused can run fails
  exact ⟨s', run, answers, (congrArg State.nv same :)⟩

variable (form : e.formOk 0 [(4, 12)] = true) (some' : 1 ≤ e.h 6) (most : e.h 6 ≤ 4096) (aligned : e.q 8 % 8 = 0)
include form some' most aligned

/-- A sound write entry of a driver record is judged by its protection and by the store's charge (R453). -/
theorem nvWriteChecks_driver (low : 0x100 ≤ e.h 4) (high : e.h 4 ≤ 0x13B) (bs : List Byte) (s : State) :
    nvWriteChecks e (some bs) s = [(false, 0x0101), (false, 0x0103), (false, 0x0104), (false, 0x0601), (s.protected' (e.h 4), 0x0604),
      (!s.nv.ready, 0x0606), (false, 0x0105)] := by
  simp [nvWriteChecks, form, aligned, recSize_of_driver low high, Nat.not_lt.mpr low, Nat.not_lt.mpr most, Nat.ne_of_gt some']

theorem nvRecordWrite_outside (bs : List Byte) (outside : e.h 4 < 0x100 ∨ 0x13B < e.h 4) :
    ∃ s', exec (.nvRecordWrite t c e (some bs)) s = .next s' ∧ Answers s s' c e 0x0601 [] ∧ s'.nv = s.nv := by
  have none' : recSize (e.h 4) = 0 ∨ e.h 4 < 256 := outside.symm.imp_left recSize_above
  exact nv_refused can rfl (by simp [nvWriteChecks, firstFail, form, aligned, none', Nat.not_lt.mpr most, Nat.ne_of_gt some'])

theorem nvRecordWrite_awaits (bs : List Byte) (low : 0x100 ≤ e.h 4) (high : e.h 4 ≤ 0x13B) (open' : s.protected' (e.h 4) = false)
    (ready : s.nv.ready = true) : ∃ s' ref q seq, exec (.nvRecordWrite t c e (some bs)) s = .next s' ∧
      Awaits s s' c e 0x60 ∧ s'.host.inProg[c] = some ref ∧ q ∈ s'.nv.busy.toList ++ s'.nv.queue ∧ q.done = .command ref seq ∧
      seq.toNat = (recNext s.nv.settled (e.h 4)).2 % 2 ^ 32 ∧ s'.nv.mem = s.nv.mem ∧ s'.nv.writes = s.nv.writes + 1 ∧ LanesKept s s' := by
  have ⟨begins, power, _⟩ := can
  have run : exec (.nvRecordWrite t c e (some bs)) s = .next _ := congrArg Host.Outcome.next (command_passes begins power (by
    have open'' : (s.taken t c e 0x60).protected' (e.h 4) = false := open'
    have ready' : (s.taken t c e 0x60).nv.ready = true := ready
    simp [Passes, nvWriteChecks_driver can form some' most aligned low high, open'', ready']))
  obtain ⟨q, job, done⟩ := recWrite_done (s.taken t c e 0x60) 5 (e.h 4) (slice bs 0 (e.h 6))
    (fun seq => .command (s.refOf c e 0x60) (BitVec.ofNat 32 seq))
  refine ⟨_, _, q, _, run, ?_, ?_, job, done, BitVec.toNat_ofNat .., ?_⟩
  · exact taken_awaits (by rw [recWrite_alone])
  · rw [recWrite_alone]
    exact taken_inProg s t c e 0x60
  · rw [recWrite_alone]
    exact ⟨rfl, rfl, rfl, rfl, rfl⟩

/-- A sound read entry is judged by whether there is such a record and a valid copy (R454). -/
theorem nvReadChecks_sound (s : State) : nvReadChecks e s = [(false, 0x0101), (false, 0x0103), (false, 0x0104), (recSize (e.h 4) == 0, 0x0601),
    ((recRead s.nv.mem (e.h 4)).isNone, 0x0603)] := by
  simp [nvReadChecks, form, aligned, Nat.not_lt.mpr most, Nat.ne_of_gt some']

theorem nvReadChecks_pass {x : Nat × Nat × List Byte} (size : recSize (e.h 4) ≠ 0) (read : recRead s.nv.mem (e.h 4) = some x) :
    Passes (nvReadChecks e (s.taken t c e 0x61)) := by
  have read' : recRead (s.taken t c e 0x61).nv.mem (e.h 4) = some x := read
  simp [Passes, nvReadChecks_sound can form some' most aligned, read', size]

variable {slot seq : Nat} {data : List Byte} (size : recSize (e.h 4) ≠ 0) (read : recRead s.nv.mem (e.h 4) = some (slot, seq, data))
include size read

/-- A buffer too small for the record is answered with the length it needs, and nothing is sent to it. -/
theorem nvRecordRead_short (short : e.h 6 < data.length) : ∃ s', exec (.nvRecordRead t c e) s = .next s' ∧
    Answers s s' c e 0x0602 ([0, 0, 0, 0] ++ toLe 2 data.length) ∧ s'.nv = s.nv ∧ ∀ a d, Out.hostWrite a d ∉ s'.out.drop s.out.length := by
  have ⟨begins, power, _⟩ := can
  have read' : recRead (s.taken t c e 0x61).nv.mem (e.h 4) = some (slot, seq, data) := read
  have run : exec (.nvRecordRead t c e) s =
      .next ((s.taken t c e 0x61).complete (s.refOf c e 0x61) 0x0602 ([0, 0, 0, 0] ++ toLe 2 data.length)) := by
    refine congrArg Host.Outcome.next ((command_passes begins power (nvReadChecks_pass can form some' most aligned size read)).trans ?_)
    simp only [read', if_pos short]
    rfl
  refine ⟨_, run, complete_answers can rfl rfl _ _, ?_, fun a d mem => ?_⟩
  · rw [complete_alone]
    rfl
  · obtain ⟨more, sent, no⟩ := complete_sends_no_block (s.taken t c e 0x61) (s.refOf c e 0x61) 0x0602 ([0, 0, 0, 0] ++ toLe 2 data.length)
    rw [sent, State.taken, List.append_assoc, List.drop_left] at mem
    simp [no] at mem

theorem nvRecordRead_sends (fits : data.length ≤ e.h 6) : ∃ s', exec (.nvRecordRead t c e) s = .next s' ∧
    Answers s s' c e 0 (toLe 4 seq ++ toLe 2 data.length) ∧
      (s.host.mute = false → Out.hostWrite (e.q 8) data ∈ s'.out.drop s.out.length) ∧ s'.nv = s.nv ∧ LanesKept s s' := by
  have read' : recRead (s.taken t c e 0x61).nv.mem (e.h 4) = some (slot, seq, data) := read
  obtain ⟨s', run, answers, sends, same⟩ := command_sends (t := t) (i := .nvRecordRead t c e) can rfl
    (nvReadChecks_pass can form some' most aligned size read) (by simp only [read', if_neg (Nat.not_lt.mpr fits)]; rfl)
  obtain ⟨_, _, _, rfl⟩ := same
  exact ⟨_, run, answers, sends, rfl, rfl, rfl, rfl⟩

end

/-! ### The protection register (R439) -/

theorem exec_nvProtWrite_key {s : State} (steward : s.steward = true) {val : Word} (key : val.toNat / 2 ^ 16 = 0xB10C) (open' : s.nv.lock = false)
    (t : Nat) : exec (.nvProtWrite t val) s = .next { (s.at t).recWrite 4 7 (toLe 1 (val.toNat % 4)) (fun _ => .nothing) with
      nv := { ((s.at t).recWrite 4 7 (toLe 1 (val.toNat % 4)) (fun _ => .nothing)).nv with lock := val.getLsbD 2 } } := by
  change execNvProtWrite t val s = _
  have keyed : fld val.toNat 16 16 = 0xB10C := by
    have := val.isLt
    unfold fld
    omega
  have low : fld val.toNat 0 2 = val.toNat % 4 := by simp [fld]
  have unlocked : (s.at t).nv.lock = false := open'
  simp only [execNvProtWrite, State.at_steward, steward, keyed, unlocked, low, and_self, if_true, Bool.false_or]
  rfl

/-- With its key the register queues the record that holds BP and takes the lock. -/
theorem nvProtWrite_keeps {s : State} (steward : s.steward = true) {val : Word} (key : val.toNat / 2 ^ 16 = 0xB10C) {t : Nat}
    (open' : s.nv.lock = false) :
    ∃ s', exec (.nvProtWrite t val) s = .next s' ∧ s'.nv.lock = val.getLsbD 2 ∧ s'.nv.writes = s.nv.writes + 1 ∧
      (let p := recNext s.nv.settled 7;
        ∀ x ∈ slotPages (recAddr 7 p.1) (slotBytes 7 p.2 (toLe 1 (val.toNat % 4))),
          ∃ q ∈ s'.nv.busy.toList ++ s'.nv.queue, q.addr = x.1 ∧ q.bytes = x.2 ∧ q.cls = 4) ∧
      s' = { s with now := s.then t, nv := s'.nv } ∧ s'.nv.mem = s.nv.mem := by
  have alone := recWrite_alone (s.at t) 4 7 (toLe 1 (val.toNat % 4)) (fun _ => .nothing)
  have page := fun {x} => recWrite_page (s.at t) 4 7 (toLe 1 (val.toNat % 4)) (fun _ => .nothing) (x := x)
  refine ⟨_, exec_nvProtWrite_key steward key open' t, rfl, ?_, fun x mem => page mem, ?_⟩
  · rw [alone]
    rfl
  · rw [alone]
    exact ⟨rfl, rfl⟩

theorem exec_nvProtWrite_locked {s : State} (lock : s.nv.lock = true) (t : Nat) (val : Word) :
    exec (.nvProtWrite t val) s = .next (s.at t) := by
  change execNvProtWrite t val s = _
  have locked : (s.at t).nv.lock = true := lock
  simp only [execNvProtWrite, locked, if_true, Bool.true_or]
  split
  · exact congrArg (fun l => Host.Outcome.next { s.at t with nv := { s.nv with lock := l } }) lock.symm
  · rfl

theorem exec_nvProtWrite_refused {s : State} {val : Word} (refused : val.toNat / 2 ^ 16 ≠ 0xB10C ∨ s.steward = false) (t : Nat) :
    exec (.nvProtWrite t val) s = .next (s.at t) := by
  refine if_neg fun ⟨steward, keyed⟩ => ?_
  rcases refused with other | off
  · have := val.isLt
    unfold fld at keyed
    omega
  · rw [State.at_steward, off] at steward
    contradiction

/-- Settles O44: a command by its first check that fails, a write by the record it queues, a read by the newest copy. -/
theorem nvRecords : Obligations.NvRecords := by
  intro s t c e bs val
  refine ⟨fun can form some' most aligned => ⟨nvRecordWrite_outside can form some' most aligned bs, fun low high => ?write, ?_, ?_,
    fun slot seq data size read => ⟨nvRecordRead_short can form some' most aligned size read,
      nvRecordRead_sends can form some' most aligned size read⟩⟩, fun steward key => ?prot,
    fun refused => ⟨_, exec_nvProtWrite_refused refused t, rfl⟩⟩
  case write =>
    have judged := nvWriteChecks_driver can form some' most aligned low high bs (s.taken t c e 0x60)
    refine ⟨fun shut => ?_, fun open' empty => ?_, nvRecordWrite_awaits can form some' most aligned bs low high⟩
    · have shut' : (s.taken t c e 0x60).protected' (e.h 4) = true := shut
      exact nv_refused (t := t) can rfl (by simp [judged, firstFail, shut'])
    · have open'' : (s.taken t c e 0x60).protected' (e.h 4) = false := open'
      have empty' : (s.taken t c e 0x60).nv.ready = false := empty
      exact nv_refused (t := t) can rfl (by simp [judged, firstFail, open'', empty'])
  case prot =>
    exact ⟨nvProtWrite_keeps steward key, fun lock => ⟨_, exec_nvProtWrite_locked lock t val, rfl⟩⟩
  · intro size
    exact nv_refused (t := t) can rfl (by simp [nvReadChecks_sound can form some' most aligned, firstFail, size])
  · intro size none'
    have none'' : recRead (s.taken t c e 0x61).nv.mem (e.h 4) = none := none'
    exact nv_refused (t := t) can rfl (by simp [nvReadChecks_sound can form some' most aligned, firstFail, size, none''])

end Sys2Proof.Machine
end

section
/-! PROOFS. Guestbook records placed, repeated and read (R366, R461 to R467). -/

namespace Sys2Proof.Machine

/-! ### Ring E (R366) -/

theorem pushBook_alone (s : State) (bs : List Byte) : s.pushBook bs =
    { s with host := (s.pushBook bs).host, out := (s.pushBook bs).out, marks := (s.pushBook bs).marks } := by
  unfold State.pushBook
  dsimp only
  split
  · split
    · split
      · rw [request_alone, request_alone]
        rfl
      · rw [request_alone, request_alone]
    · rw [request_alone]
      rfl
  · rfl

/-- A later request takes back none that has been made. -/
theorem request_outbox (s : State) (o : Out) : s.host.outbox <+: (s.request o).host.outbox := by
  unfold State.request
  split
  · exact List.prefix_rfl
  · split
    · exact List.prefix_rfl
    · exact List.prefix_append ..

/-- The host request that carries a record to ring E (R339, R366). -/
def State.bookPush (s : State) (bs : List Byte) : Out :=
  .gbPush s.host.gbTail.toNat (s.host.rings[20].base + 64 * (s.host.gbTail.toNat % 2 ^ s.host.rings[20].logn)) bs

section
variable {s : State} (active : s.host.active = true) (enable : s.host.rings[20].enable = true) (bs : List Byte)
include active enable

theorem pushBook_room (room : (s.host.gbTail - s.host.gbHead).toNat < 2 ^ s.host.rings[20].logn) :
    (s.pushBook bs).host.gbTail = s.host.gbTail + 1 ∧ (s.host.mute = false →
      if s.host.busMaster then s.bookPush bs ∈ (s.pushBook bs).out.drop s.out.length else s.bookPush bs ∈ (s.pushBook bs).host.outbox) := by
  have ring : vget s.host.rings 20 RingCfg.init = s.host.rings[20] := vget_val s.host.rings 20 _
  have pushed : (s.pushBook bs).host.gbTail = s.host.gbTail + 1 ∧ ∃ bell, (s.pushBook bs).out = ((s.request (s.bookPush bs)).request bell).out ∧
      (s.pushBook bs).host.outbox = ((s.request (s.bookPush bs)).request bell).host.outbox := by
    unfold State.pushBook
    dsimp only
    rw [ring, if_pos ⟨active, enable⟩, if_pos room]
    split <;> exact ⟨rfl, _, rfl, rfl⟩
  obtain ⟨tail, bell, out, outbox⟩ := pushed
  refine ⟨tail, fun requests => ?_⟩
  have made := request_made requests (s.bookPush bs)
  rw [out, outbox]
  split at made
  next master =>
    rw [if_pos master]
    exact mem_drop_of_prefix made (request_out ..)
  next paused =>
    rw [if_neg paused]
    exact (request_outbox ..).mem made

theorem pushBook_full (full : ¬ (s.host.gbTail - s.host.gbHead).toNat < 2 ^ s.host.rings[20].logn) :
    (s.pushBook bs).host.gbLost = satInc s.host.gbLost ∧ (s.pushBook bs).host.gbfull = true ∧ (s.pushBook bs).host.gbTail = s.host.gbTail := by
  have ring : vget s.host.rings 20 RingCfg.init = s.host.rings[20] := vget_val s.host.rings 20 _
  unfold State.pushBook
  dsimp only
  rw [ring, if_pos ⟨active, enable⟩, if_neg full, request_alone]
  exact ⟨rfl, rfl, rfl⟩

end

/-! ### Records placed and repeated (R462, R463) -/

/-- A record's one program waits or has begun, and nothing that the record names but the rings changes. -/
theorem rewriteBook_queues (s : State) (slot : Nat) (r : GbRec) :
    (∃ q ∈ (s.rewriteBook slot r).nv.jobs, q.addr = gbAddr slot ∧ q.bytes = r.bytes ∧ q.cls = 3) ∧
      ∃ busy queue host out marks, s.rewriteBook slot r = { s with
        nv := { s.nv with busy := busy, queue := queue, writes := s.nv.writes + 1 }, host := host, out := out, marks := marks } := by
  have written := nvWrite_alone s 3 [(gbAddr slot, r.bytes)] .nothing
  have pushed := pushBook_alone (s.nvWrite 3 [(gbAddr slot, r.bytes)] .nothing) r.bytes
  obtain ⟨q, job, addr, bytes, cls, -⟩ := nvWrite_page s 3 (pages := [(gbAddr slot, r.bytes)]) .nothing (i := 0) Nat.one_pos
  unfold State.rewriteBook
  refine ⟨⟨q, ?_, addr, bytes, cls⟩, ?_⟩
  · rw [pushed]
    exact job
  · rw [pushed, written]
    exact ⟨_, _, _, _, _, rfl⟩

/-- The book once its oldest queued record has been given a slot. -/
def Guest.placed (g : Guest) (r : GbRec) (rest : List GbRec) (slot : Nat) : Guest :=
  let newest := (g.last.map GbRec.seq) == some r.seq
  { g with
    queue := rest
    lastSlot := if newest then some slot else if g.lastSlot = some slot then none else g.lastSlot
    unwritten := g.unwritten.filter (fun x => x.2.1 != slot)
    lastDirty := g.lastDirty && !newest
    lastWrite := if newest then none else g.lastWrite }

section
variable {s : State} (steward : s.steward = true)
include steward

section
variable {r : GbRec} {rest : List GbRec} (queue : s.gb.queue = r :: rest) (ready : s.nv.ready = true) (power : s.pwr.pf = .none)
include queue ready power

theorem exec_guestbookRecordWrite_none (noSlot : bookSlot s.nv.settled r.sev = none) (t : Nat) : exec (.guestbookRecordWrite t) s =
    .next { s.at t with gb := { s.gb with queue := rest }.drop r.sev } := by
  change execGuestbookRecordWrite t s = _
  have queue' : (s.at t).gb.queue = r :: rest := queue
  have noSlot' : bookSlot (s.at t).nv.settled r.sev = none := noSlot
  have on : (s.at t).steward = true ∧ (s.at t).nv.ready = true ∧ (s.at t).pwr.pf = .none := ⟨steward, ready, power⟩
  simp only [execGuestbookRecordWrite, queue', if_pos on, noSlot']
  rfl

theorem exec_guestbookRecordWrite_some {slot : Nat} (some' : bookSlot s.nv.settled r.sev = some slot) (t : Nat) :
    exec (.guestbookRecordWrite t) s = .next (({ s.at t with gb := s.gb.placed r rest slot } : State).rewriteBook slot r) := by
  change execGuestbookRecordWrite t s = _
  have queue' : (s.at t).gb.queue = r :: rest := queue
  have some'' : bookSlot (s.at t).nv.settled r.sev = some slot := some'
  have on : (s.at t).steward = true ∧ (s.at t).nv.ready = true ∧ (s.at t).pwr.pf = .none := ⟨steward, ready, power⟩
  simp only [execGuestbookRecordWrite, queue', if_pos on, some'']
  rfl

end

theorem exec_guestbookRecordWrite_empty (empty : s.gb.queue = []) (t : Nat) : exec (.guestbookRecordWrite t) s = .next (s.at t) := by
  change execGuestbookRecordWrite t s = _
  have empty' : (s.at t).gb.queue = [] := empty
  simp only [execGuestbookRecordWrite, empty']

section
variable (ready : s.nv.ready = true) (power : s.pwr.pf = .none)
include ready power

theorem exec_guestbookRepeatRewrite_older {x : GbRec × Nat × Nat} {rest : List (GbRec × Nat × Nat)} (unwritten : s.gb.unwritten = x :: rest)
    (t : Nat) : exec (.guestbookRepeatRewrite t) s =
      .next (({ s.at (max t x.2.2) with gb := { s.gb with unwritten := rest } } : State).rewriteBook x.2.1 x.1) := by
  change execGuestbookRepeatRewrite t s = _
  simp only [execGuestbookRepeatRewrite, if_pos (And.intro steward (And.intro ready power)), unwritten]
  rfl

theorem exec_guestbookRepeatRewrite_newest {r : GbRec} {slot : Nat} (unwritten : s.gb.unwritten = []) (last : s.gb.last = some r)
    (lastSlot : s.gb.lastSlot = some slot) (dirty : s.gb.lastDirty = true) (t : Nat) :
    let now := (s.at (max t ((s.gb.lastWrite.map (· + 100 * msCycles)).getD 0))).now
    exec (.guestbookRepeatRewrite t) s =
      .next (({ s with now := now, gb := { s.gb with lastDirty := false, lastWrite := some now } } : State).rewriteBook slot r) := by
  change execGuestbookRepeatRewrite t s = _
  rw [execGuestbookRepeatRewrite, if_pos ⟨steward, ready, power⟩]
  split
  case h_1 older => exact absurd (older.symm.trans unwritten) (List.cons_ne_nil _ _)
  case h_2 r' slot' _ isLast isSlot =>
    rw [if_pos dirty, Option.some.inj (isLast.symm.trans last), Option.some.inj (isSlot.symm.trans lastSlot)]
    rfl
  case h_3 neither => exact (neither r slot unwritten last lastSlot).elim

end

end

/-! ### Reads (R467) -/

theorem length_read (m : Mem) (a n : Nat) : (m.read a n).length = n := by
  induction n generalizing a with
  | zero => rfl
  | succ n ih => rw [Mem.read, List.length_cons, ih]

theorem length_bookEntry (m : Mem) (slot : Nat) : (bookEntry m slot).length = 64 := by
  unfold bookEntry
  dsimp only
  split
  · simp
  · exact length_read ..

/-- Entry j of entries of n bytes each stands at byte n j. -/
theorem slice_flatMap {α : Type} {f : α → List Byte} {n : Nat} (long : ∀ x, (f x).length = n) {l : List α} {j : Nat} (lt : j < l.length) :
    slice (l.flatMap f) (n * j) n = f l[j] := by
  induction l generalizing j with
  | nil => contradiction
  | cons x l ih =>
    cases j with
    | zero => rw [List.flatMap_cons, slice_append_left _ _ (by simp [long]), ← long x]; exact slice_all _
    | succ j =>
      rw [List.flatMap_cons, slice_append_right _ _ _ (by rw [long, Nat.mul_succ]; omega), long, Nat.mul_succ, Nat.add_sub_cancel]
      exact ih (Nat.lt_of_succ_lt_succ lt)

theorem length_flatMap_const {α : Type} {f : α → List Byte} {n : Nat} (long : ∀ x, (f x).length = n) (l : List α) :
    (l.flatMap f).length = n * l.length := by
  simp [List.length_flatMap, long, Nat.mul_comm]

/-- The slots that a read of the book names (R467). -/
def bookSlots (e : CmdEntry) : List Nat := (List.range (e.h 6)).map (fun j => (e.h 4 + j) % 4096)

section
variable {s : State} {t : Nat} {c : RingId} {e : CmdEntry} (can : s.CanAnswer c) (form : e.formOk 0 [(4, 12)] = true) (aligned : e.q 8 % 8 = 0)
include can form aligned

theorem guestbookRead_outside (outside : 4095 < e.h 4 ∨ e.h 6 < 1 ∨ 4096 < e.h 6) :
    ∃ s', exec (.guestbookRead t c e) s = .next s' ∧ Answers s s' c e 0x0103 [] := by
  have wrong : (decide (4095 < e.h 4) || decide (e.h 6 < 1) || decide (4096 < e.h 6)) = true := by simpa [or_assoc] using outside
  obtain ⟨s', run, answers, -⟩ := exec_refused (t := t) (i := .guestbookRead t c e) (st := 0x0103) can rfl
    (by simp only [bookReadChecks, firstFail, form, wrong]; rfl)
  exact ⟨s', run, answers⟩

theorem guestbookRead_sends (from' : e.h 4 ≤ 4095) (some' : 1 ≤ e.h 6) (most : e.h 6 ≤ 4096) :
    ∃ s' last, exec (.guestbookRead t c e) s = .next s' ∧
      (s.host.mute = false → Out.hostWrite (e.q 8) ((bookSlots e).flatMap (bookEntry s.nv.mem)) ∈ s'.out.drop s.out.length) ∧
      Answers s s' c e 0 (toLe 2 ((bookSlots e).filter (fun i => !gbFree s.nv.mem i)).length ++ toLe 2 last) ∧ (s.at t).OnlyRings s' := by
  obtain ⟨s', run, answers, sends, same⟩ := command_sends (t := t) (i := .guestbookRead t c e) can rfl
    (by simp [Passes, bookReadChecks, form, aligned, Nat.not_lt.mpr from', Nat.not_lt.mpr most, Nat.ne_of_gt some']) rfl
  exact ⟨s', _, run, sends, answers, same⟩

end

/-- A record dropped for want of a slot is counted by its severity (R463). -/
theorem guestbookRecordWrite_drops {s : State} (steward : s.steward = true) {r : GbRec} {rest : List GbRec} (queue : s.gb.queue = r :: rest)
    (ready : s.nv.ready = true) (power : s.pwr.pf = .none) (noSlot : bookSlot s.nv.settled r.sev = none) (t : Nat) :
    ∃ s', exec (.guestbookRecordWrite t) s = .next s' ∧ s'.gb.queue = rest ∧ s'.nv = s.nv ∧
      s'.gb.drops[r.sev.toFin] = satInc s.gb.drops[r.sev.toFin] ∧ s'.host = s.host ∧ LanesKept s s' :=
  ⟨_, exec_guestbookRecordWrite_none steward queue ready power noSlot t, rfl, rfl, getElem_upd_self .., rfl, rfl, rfl, rfl⟩

/-- Settles O45: a record placed, one repeated and a read, each through the write it queues or the block it sends. -/
theorem guestbookWrites : Obligations.GuestbookWrites := by
  intro s t steward
  refine ⟨fun r rest queue ready power => ⟨fun noSlot => guestbookRecordWrite_drops steward queue ready power noSlot t, fun slot some' => ?placed⟩,
    fun empty => ⟨_, exec_guestbookRecordWrite_empty steward empty t, rfl⟩, fun x rest unwritten ready power => ?older,
    fun r slot unwritten last lastSlot dirty ready power => ?newest, fun c e can form aligned => ⟨guestbookRead_outside can form aligned, ?_⟩⟩
  case placed =>
    have run := exec_guestbookRecordWrite_some steward queue ready power some' t
    obtain ⟨⟨q, job, addr, bytes, cls⟩, _, _, _, _, _, same⟩ := rewriteBook_queues { s.at t with gb := s.gb.placed r rest slot } slot r
    refine ⟨_, q, run, ?_, ?_, job, addr, bytes, cls, ?_, ?_, fun active enable => ?_⟩
    case refine_5 =>
      let written : State := ({ s.at t with gb := s.gb.placed r rest slot } : State).nvWrite 3 [(gbAddr slot, r.bytes)] .nothing
      split
      next room => exact pushBook_room (s := written) active enable r.bytes room
      next full => exact pushBook_full (s := written) active enable r.bytes full
    all_goals rw [same]
    case refine_4 => exact ⟨rfl, rfl, rfl⟩
    all_goals rfl
  case older =>
    obtain ⟨⟨q, job, addr, bytes, -⟩, _, _, _, _, _, same⟩ :=
      rewriteBook_queues { s.at (max t x.2.2) with gb := { s.gb with unwritten := rest } } x.2.1 x.1
    refine ⟨_, q, exec_guestbookRepeatRewrite_older steward ready power unwritten t, ?_, ?_, job, addr, bytes, ?_⟩ <;> rw [same]
    · exact (Nat.le_max_right ..).trans (Nat.le_max_right ..)
    · exact ⟨rfl, rfl, rfl⟩
  case newest =>
    obtain ⟨⟨q, job, addr, bytes, -⟩, _, _, _, _, _, same⟩ := rewriteBook_queues _ slot r
    refine ⟨_, q, exec_guestbookRepeatRewrite_newest steward ready power unwritten last lastSlot dirty t, ?_, ?_, fun w written => ?_, job, addr,
      bytes, ?_, ?_, ?_⟩
    all_goals rw [same]
    case refine_3 =>
      dsimp only
      rw [written]
      exact (Nat.le_max_right ..).trans (Nat.le_max_right ..)
    case refine_6 => exact ⟨rfl, rfl, rfl⟩
  · intro from' some' most
    obtain ⟨s', newest, run, sends, answers, same⟩ := guestbookRead_sends (t := t) can form aligned from' some' most
    obtain ⟨_, _, _, rfl⟩ := same
    refine ⟨_, _, _, newest, run, sends, ?_, fun j lt => ?_, answers, ?_, rfl, rfl, rfl, rfl, rfl⟩
    · rw [length_flatMap_const (length_bookEntry _)]
      simp [bookSlots]
    · rw [slice_flatMap (length_bookEntry _) (by simpa [bookSlots] using lt)]
      simp [bookSlots]
    · simp [bookSlots, List.filter_map, Function.comp_def]

end Sys2Proof.Machine
end

section
/-! PROOFS. The checks that all driver commands share (R50, R348; log entry 2). -/

namespace Sys2Proof.Machine

/-- A command that may not begin changes nothing but time (log entry 2). -/
theorem command_idle {s : State} {c : RingId} (idle : s.mayBegin c = false) (t op : Nat) (e : CmdEntry) (checks : State → List Check)
    (act : CmdRef → State → State) : s.command t c op e checks act = s.at t := by
  unfold State.command
  exact if_neg (by change ¬ s.mayBegin c = true; simp [idle])

/-- A command that begins is judged with the wrong-state status of a power failure among its checks (R50). -/
theorem command_judged {s : State} {t : Nat} {c : RingId} {op : Nat} {e : CmdEntry} {checks : State → List Check} {act : CmdRef → State → State}
    (begins : s.mayBegin c = true) {st : BitVec 16} (fails : firstFail (withPower s.pwr.pfwarn (checks (s.taken t c e op))) = some st) :
    s.command t c op e checks act = (s.taken t c e op).complete (s.refOf c e op) st [] := by
  have fails' : firstFail (withPower (s.taken t c e op).pwr.pfwarn (checks (s.taken t c e op))) = some st := fails
  unfold State.command
  dsimp only
  rw [if_pos (by exact begins)]
  change (match firstFail (withPower (s.taken t c e op).pwr.pfwarn (checks (s.taken t c e op))) with | some st => _ | none => _) = _
  rw [fails']
  rfl

/-- While a power failure is under way STOP is refused behind its form (R50, R348). -/
theorem stop_powerFailing {s : State} {c : RingId} {e : CmdEntry} (begins : s.mayBegin c = true) (room : s.host.cqRoom (s.host.cqOf c) = true)
    (failing : s.pwr.pfwarn = true) (form : e.formOk 0 [] = true) (t : Nat) :
    ∃ s', exec (.stop t c e) s = .next s' ∧ Answers s s' c e 0x0201 [] ∧ s'.app = s.app := by
  have run : exec (.stop t c e) s = .next ((s.taken t c e 0x13).complete (s.refOf c e 0x13) 0x0201 []) :=
    congrArg Host.Outcome.next (command_judged begins (by simp [withPower, firstFail, form, failing]))
  refine ⟨_, run, complete_answers_of_mayBegin begins room rfl List.prefix_rfl _ _, ?_⟩
  rw [complete_alone]
  rfl

/-- Settles O29: the answer is that of the first check that fails. -/
theorem commandChecks : Obligations.CommandChecks := by
  intro s t c e op
  refine ⟨fun can unknown => ?_, fun can malformed => ?_, fun begins room failing form => stop_powerFailing begins room failing form t,
    fun idle => ⟨_, congrArg Host.Outcome.next (command_idle idle ..), rfl⟩⟩
  · obtain ⟨s', run, answers, same⟩ := exec_refused (t := t) (i := .unknownCommand t c e op) (st := 0x0102) can
      (if_neg fun known => unknown (List.contains_iff_mem.mp known)) rfl
    exact ⟨s', run, answers, (kept_of_answered same).2⟩
  · obtain ⟨s', run, answers, same⟩ := exec_refused (t := t) (i := .stop t c e) (st := 0x0101) can rfl (by simp [firstFail, malformed])
    exact ⟨s', run, answers, (congrArg State.app same :)⟩

end Sys2Proof.Machine
end

section
/-! PROOFS. START and the start tick (R69, R81, R164, R192, R204, R355, R383, R452). -/

namespace Sys2Proof.Machine

/-! ### START (R355, R383) -/

/-- The role of an unsettled pair is settled by START (R383). -/
theorem settleByStart_settles {s : State} {cf : Conf} (stored : s.app.stored = some cf) (open' : s.pair.settled = false) (pair : cf.way.pair = true) :
    s.settleByStart =
      { s.setRole 1 1 sevNotice with pair := { (s.setRole 1 1 sevNotice).pair with settled := true } }.flushLate false := by
  unfold State.settleByStart
  rw [if_pos ⟨open', by rw [stored]; exact pair⟩]

theorem settleByStart_settled {s : State} {cf : Conf} (stored : s.app.stored = some cf) (settled : ¬ (s.pair.settled = false ∧ cf.way.pair = true)) :
    s.settleByStart = s := by
  unfold State.settleByStart
  rw [if_neg (by rw [stored]; exact settled)]

theorem settleByStart_outward (s : State) : OnlyOutward s s.settleByStart := by
  unfold State.settleByStart
  split
  · exact ((setRole_outward ..).trans (.withPair ..)).trans (.of_inward (flushLate_inward ..))
  · exact .of_inward rfl

/-- What settling a role leaves of the pair. -/
theorem settleByStart_pair {s : State} {cf : Conf} (stored : s.app.stored = some cf) (open' : s.pair.settled = false) (pair : cf.way.pair = true) :
    s.settleByStart.pair = { s.pair with role := 1, reason := 1, epoch := s.pair.epoch + 1, settled := true } := by
  rw [settleByStart_settles stored open' pair, flushLate_alone]
  dsimp only
  rw [setRole_pair]

theorem OnlyOutward.cycle {s s' : State} (h : OnlyOutward s s') : s'.cycle = s.cycle := let ⟨_, eq⟩ := h; (congrArg State.cycle eq :)

/-- Vectors raised are no matter to the commands in progress. -/
theorem awaits_of_unraised {s s₁ : State} {t : Nat} {c : RingId} {e : CmdEntry} {op : Nat}
    (host : s₁.host.unraised = (s.taken t c e op).host.unraised) : Awaits s s₁ c e op := by
  have inProg : s₁.host.inProg = (s.taken t c e op).host.inProg := (congrArg HostIf.inProg host :)
  have head : s₁.host.cmdHead = (s.taken t c e op).host.cmdHead := (congrArg HostIf.cmdHead host :)
  rw [Awaits, inProg, head]
  exact ⟨Vector.getElem_set_self .., Vector.getElem_set_self ..⟩

/-- A start scheduled: the rooms of the stored configuration are set up (R80, R355). -/
theorem scheduleStart_eq {s : State} {cf : Conf} (stored : s.app.stored = some cf) (tick : Nat) (flagOk : Bool) (ref : Option CmdRef) :
    s.scheduleStart tick flagOk ref = { s with
      rooms := (s.setUpRooms cf).rooms
      app := { s.app with start := some { tick := tick, flagOk := flagOk, ref := ref } } } := by
  have alone := setUpRooms_alone s cf
  unfold State.scheduleStart
  rw [stored]
  dsimp only
  generalize s.setUpRooms cf = s' at alone ⊢
  rw [alone]

/-- The application is no longer held back. -/
def State.unheld (s : State) : State := { s with app := { s.app with held := false } }

/-- A start has been asked for: its role settled, its rooms set up, the run flag on its way (R355, R452). -/
def State.startAsked (s : State) (cf : Conf) (ref : CmdRef) : State :=
  (s.settleByStart.unheld.scheduleStart (s.settleByStart.cycle + 40) false (some ref)).recWrite 4 1 (confRecord cf.way.crc true) (fun _ => .startFlag)

/-- It leaves the role settled, the rooms set up, the start scheduled and a write queued, and nothing else new. -/
theorem startAsked_alone {s : State} {cf : Conf} (stored : s.app.stored = some cf) (ref : CmdRef) : ∃ busy queue,
    s.startAsked cf ref = { s.settleByStart with
      app := { s.app with held := false, start := some { tick := s.cycle + 40, flagOk := false, ref := some ref } }
      rooms := (s.settleByStart.unheld.setUpRooms cf).rooms
      nv := { s.settleByStart.nv with busy := busy, queue := queue, writes := s.settleByStart.nv.writes + 1 } } := by
  have settled := settleByStart_outward s
  have stored' : s.settleByStart.unheld.app.stored = some cf := (congrArg App.stored settled.app :).trans stored
  have scheduled : s.settleByStart.unheld.scheduleStart (s.settleByStart.cycle + 40) false (some ref) = { s.settleByStart with
      app := { s.app with held := false, start := some { tick := s.cycle + 40, flagOk := false, ref := some ref } }
      rooms := (s.settleByStart.unheld.setUpRooms cf).rooms } := by
    rw [scheduleStart_eq stored', settled.cycle, ← settled.app]
    rfl
  rw [State.startAsked, scheduled]
  exact ⟨_, _, recWrite_alone ..⟩

section
variable {s : State} {t : Nat} {c : RingId} {e : CmdEntry}

/-- A sound START of a stored configuration is judged by what runs, what is examined, the role and the partner (R355; log entry 34). -/
theorem exec_start {cf : Conf} (begins : s.mayBegin c = true) (power : s.pwr.pfwarn = false) (form : e.formOk 0 [] = true)
    (stored : s.app.stored = some cf) (stopped : s.app.running = false) (unscheduled : s.app.start = none) (free : s.inn.exam = none)
    (leads : s.isRelief = false) (known : s.partnerUnknown = false) :
    exec (.start t c e) s = .next ((s.taken t c e 0x12).startAsked cf (s.refOf c e 0x12)) := by
  have known' : (s.taken t c e 0x12).partnerUnknown = false := known
  refine congrArg Host.Outcome.next ((command_passes begins power ?_).trans ?_)
  · simp [Passes, form, stored, stopped, unscheduled, free, leads, known']
  · rw [taken_app, stored]
    rfl

variable (can : s.CanAnswer c)
include can

/-- A command refused leaves the application as it was. -/
theorem app_refused {op : Nat} {checks : State → List Check} {act : CmdRef → State → State} {i : Instr}
    (run : exec i s = .next (s.command t c op e checks act)) {st : BitVec 16} (fails : firstFail (checks (s.taken t c e op)) = some st) :
    ∃ s', exec i s = .next s' ∧ Answers s s' c e st [] ∧ s'.app = s.app := by
  obtain ⟨s', run, answers, same⟩ := exec_refused can run fails
  exact ⟨s', run, answers, (congrArg State.app same :)⟩

/-- START that passes awaits its start tick (R355). -/
theorem start_schedules {cf : Conf} (form : e.formOk 0 [] = true)
    (stored : s.app.stored = some cf) (stopped : s.app.running = false) (unscheduled : s.app.start = none) (free : s.inn.exam = none)
    (leads : s.isRelief = false) (known : s.partnerUnknown = false) : ∃ s', exec (.start t c e) s = .next s' ∧ Awaits s s' c e 0x12 ∧
      s'.app = { s.app with held := false, start := some { tick := s.cycle + 40, flagOk := false, ref := s'.host.inProg[c] } } ∧
      s'.SetUpFor cf ∧ s'.dmem = s.dmem ∧
      (if s.pair.settled = false ∧ cf.way.pair = true then s'.pair.role = 1 ∧ s'.pair.settled = true ∧ s'.pair.epoch = s.pair.epoch + 1
        else s'.pair = s.pair ∧ FieldKept s s') := by
  have ⟨begins, power, _⟩ := can
  have settled := settleByStart_outward (s.taken t c e 0x12)
  obtain ⟨busy, queue, same⟩ := startAsked_alone (s := s.taken t c e 0x12) stored (s.refOf c e 0x12)
  have awaits : Awaits s ((s.taken t c e 0x12).startAsked cf (s.refOf c e 0x12)) c e 0x12 := by
    rw [same]
    exact awaits_of_unraised (t := t) settled.unraised
  refine ⟨_, exec_start begins power form stored stopped unscheduled free leads known, awaits, ?_, ?_, ?_, ?_⟩
  · rw [awaits.1, same]
    rfl
  · exact setUpFor_of_rooms (setUpRooms_setUpFor (s.taken t c e 0x12).settleByStart.unheld cf) (by rw [same])
  · rw [same]
    exact settled.dmem
  · split
    next open' =>
      have pair := settleByStart_pair (s := s.taken t c e 0x12) stored open'.1 open'.2
      rw [same]
      exact ⟨congrArg Pair.role pair, congrArg Pair.settled pair, congrArg Pair.epoch pair⟩
    next closed =>
      rw [same, settleByStart_settled (s := s.taken t c e 0x12) stored closed]
      exact ⟨rfl, rfl, rfl, rfl, rfl⟩

end

/-- The refusals of START, and what it leaves when it passes. -/
theorem startRequested : Stated.StartRequested := by
  intro s t c e can form
  refine ⟨fun none' => ?none, fun cf stored => ⟨fun busy => ?busy, fun stopped unscheduled free relief => ?relief,
    fun stopped unscheduled free leads => ⟨fun open' pair present heard => ?unknown,
      start_schedules can form stored stopped unscheduled free leads⟩⟩⟩
  case none => exact app_refused (t := t) can rfl (by simp [firstFail, form, none'])
  case busy =>
    have occupied : s.app.running = true ∨ s.app.start.isSome = true := busy.imp_right Option.isSome_iff_ne_none.mpr
    exact app_refused (t := t) can rfl (by simp [firstFail, form, stored, occupied])
  case relief => exact app_refused (t := t) can rfl (by simp [firstFail, form, stored, stopped, unscheduled, free, relief])
  case unknown =>
    have unknown : (s.taken t c e 0x12).partnerUnknown = true := by
      change s.partnerUnknown = true
      simp [State.partnerUnknown, open', stored, pair, present, heard]
    exact app_refused (t := t) can rfl (by simp [firstFail, form, stored, stopped, unscheduled, free, leads, unknown])

/-! ### Memory at the start tick (R192, R204) -/

/-- Ranges cleared one after another: outside them all a byte stays. -/
theorem get_clearEach_outside {l : List Nat} {base len : Nat → Nat} {y : Nat} (outside : ∀ i ∈ l, ¬ (base i ≤ y ∧ y < base i + len i)) {m : Mem}
    (wf : m.wf = true) : (l.foldl (fun (m : Mem) i => m.clear (base i) (len i)) m).get y = m.get y := by
  refine (List.foldlRecOn (motive := fun m' : Mem => m'.wf = true ∧ m'.get y = m.get y) l _ ⟨wf, rfl⟩ fun m' ⟨wf', same⟩ i mem => ⟨Mem.wf_clear wf', ?_⟩).2
  rw [Mem.get_clear _ _ _ wf', if_neg (outside i mem), same]

theorem get_clearEach_inside {l : List Nat} {base len : Nat → Nat} {y i : Nat} (mem : i ∈ l) (inside : base i ≤ y ∧ y < base i + len i) {m : Mem}
    (wf : m.wf = true) : (l.foldl (fun (m : Mem) i => m.clear (base i) (len i)) m).get y = 0 := by
  obtain ⟨before, behind, rfl⟩ := List.append_of_mem mem
  rw [List.foldl_append, List.foldl_cons]
  have reached : (before.foldl (fun (m : Mem) i => m.clear (base i) (len i)) m).wf = true :=
    List.foldlRecOn (motive := fun m' : Mem => m'.wf = true) before _ wf fun m' wf' i _ => Mem.wf_clear wf'
  refine (List.foldlRecOn (motive := fun m' : Mem => m'.wf = true ∧ m'.get y = 0) behind _ ⟨Mem.wf_clear reached, ?_⟩
    fun m' ⟨wf', zero⟩ j _ => ⟨Mem.wf_clear wf', ?_⟩).2
  · rw [Mem.get_clear _ _ _ reached, if_pos inside]
  · rw [Mem.get_clear _ _ _ wf', zero, ite_self]

/-- The data memory with the private windows of a configuration cleared (R204). -/
def Conf.clearPrivate (c : Conf) (m : Mem) : Mem :=
  (List.range c.way.tasks.length).foldl (fun (m : Mem) i =>
    m.clear (c.an.privBase.getD i 0) (((c.task i).map Task.privLen).getD 0)) m

theorem lt_of_task {c : Conf} {i : Nat} {k : Task} (task : c.task i = some k) : i < c.way.tasks.length := (List.getElem?_eq_some_iff.mp task).1

section
variable {c : Conf} {m : Mem} (wf : m.wf = true)
include wf

theorem clearPrivate_inside {i y : Nat} {k : Task} (task : c.task i = some k) (low : c.an.privBase.getD i 0 ≤ y)
    (high : y < c.an.privBase.getD i 0 + k.privLen) : (c.clearPrivate m).get y = 0 :=
  get_clearEach_inside (List.mem_range.mpr (lt_of_task task)) ⟨low, by rw [task]; exact high⟩ wf

theorem clearPrivate_outside {y : Nat}
    (outside : ∀ i k, c.task i = some k → ¬ (c.an.privBase.getD i 0 ≤ y ∧ y < c.an.privBase.getD i 0 + k.privLen)) :
    (c.clearPrivate m).get y = m.get y := by
  refine get_clearEach_outside (fun i mem => ?_) wf
  have task : c.task i = some _ := List.getElem?_eq_getElem (List.mem_range.mp mem)
  rw [task]
  exact outside i _ task

theorem get_write_zeros (a : Nat) {y : Nat} : (m.write a (toLe 4 0)).get y = if a ≤ y ∧ y < a + 4 then 0 else m.get y :=
  Mem.get_write_toLe wf a 4 0 y |>.trans (by simp)

/-- Every publication stamp is zero (R192). -/
theorem zeroStamps_stamp {i j : Nat} {k : Task} (task : c.task i = some k) (publishes : 0 < k.pubLen) (lt : j < 4) :
    (c.zeroStamps m).get (c.an.pubBase.getD i 0 + j) = 0 := by
  obtain ⟨before, behind, split⟩ := List.append_of_mem (List.mem_range.mpr (lt_of_task task))
  have step (m' : Mem) (h : Nat) (wf' : m'.wf = true) : (if ((c.task h).map Task.pubLen).getD 0 = 0 then m'
      else m'.write (c.an.pubBase.getD h 0) (toLe 4 0)).wf = true := by
    split
    · exact wf'
    · exact Mem.wf_write wf'
  unfold Conf.zeroStamps
  rw [split, List.foldl_append, List.foldl_cons]
  have reached := List.foldlRecOn (motive := fun m' : Mem => m'.wf = true) before _ wf fun m' wf' h _ => step m' h wf'
  refine (List.foldlRecOn (motive := fun m' : Mem => m'.wf = true ∧ m'.get (c.an.pubBase.getD i 0 + j) = 0) behind _ ⟨step _ i reached, ?_⟩
    fun m' ⟨wf', zero⟩ h _ => ⟨step m' h wf', ?_⟩).2
  · rw [task, if_neg (show ¬((some k).map Task.pubLen).getD 0 = 0 from Nat.ne_of_gt publishes), get_write_zeros reached, if_pos (by omega)]
  · split
    · exact zero
    · rw [get_write_zeros wf', zero, ite_self]

end

/-! ### Rooms at the start tick (R81) -/

/-- A room that waits for its first release. -/
def Room.Awaiting (v : Room) : Prop := v.st = .waiting ∧ v.restAt = none ∧ ∀ g : Reg, v.get g = 0

/-- A room released at a tick of TB with nothing done since. -/
def Room.ReadyAt (v : Room) (tb : Nat) : Prop := v.st = .ready ∧ v.relTb = BitVec.ofNat 64 tb ∧ v.issued = 0 ∧ ∀ g : Reg, v.get g = 0

section
variable {s : State} {c : Conf} {r : RoomId} {i : Nat}

theorem setUpRoom_own_awaits {k : Task} (task : c.task i = some k) (room : c.an.rooms[i]? = some r.val) : (s.setUpRoom c i).rooms[r].Awaiting := by
  unfold State.setUpRoom
  rw [task, bind_toFin?_eq_some_iff.mpr room]
  dsimp only
  rw [State.updRoom_rooms, getElem_upd_self]
  exact ⟨rfl, rfl, fun g => by simp [Room.get, Room.init]⟩

theorem setUpRoom_awaits (awaiting : s.rooms[r].Awaiting) : (s.setUpRoom c i).rooms[r].Awaiting := by
  by_cases own : (∃ k, c.task i = some k) ∧ c.an.rooms[i]? = some r.val
  · obtain ⟨⟨k, task⟩, room⟩ := own
    exact setUpRoom_own_awaits task room
  · have same : (s.setUpRoom c i).rooms[r] = s.rooms[r] := by
      unfold State.setUpRoom
      split
      next k q task room => exact getElem_upd_other fun eq => own ⟨⟨k, task⟩, by rw [← eq]; exact bind_toFin?_eq_some_iff.mp room⟩
      · rfl
    rw [same]
    exact awaiting

theorem setUpRooms_awaits {k : Task} (task : c.task i = some k) (room : c.an.rooms[i]? = some r.val) : (s.setUpRooms c).rooms[r].Awaiting := by
  rw [setUpRooms_eq]
  exact foldl_establishes (I := fun _ => True) (P := fun s : State => s.rooms[r].Awaiting) (fun _ _ _ => trivial)
    (fun s _ => setUpRoom_own_awaits task room) (fun s b h => setUpRoom_awaits h) (List.mem_range.mpr (lt_of_task task)) trivial

theorem readyRoom_readyAt (s : State) (c : Conf) (i : Nat) (r : RoomId) {w : Room} (zero : ∀ g : Reg, w.get g = 0) :
    (s.readyRoom c i r w).ReadyAt s.tb := ⟨rfl, rfl, rfl, zero⟩

theorem roomOf_eq_some_iff (cur : s.app.cur = some c) : s.roomOf i = some r ↔ c.an.rooms[i]? = some r.val := by
  rw [← bind_toFin?_eq_some_iff]
  unfold State.roomOf
  rw [cur]
  cases room : c.an.rooms[i]? <;> simp [room]

/-- A release makes the room of its task ready, when it waits; it leaves every other room. -/
theorem release_room (cur : s.app.cur = some c) : (s.release i).rooms[r] =
    if c.an.rooms[i]? = some r.val ∧ s.rooms[r].stAt s.now = .waiting then s.readyRoom c i r s.rooms[r] else s.rooms[r] := by
  unfold State.release
  rw [cur]
  cases found : s.roomOf i with
  | none => exact (if_neg fun ⟨room, _⟩ => by rw [(roomOf_eq_some_iff cur).mpr room] at found; contradiction).symm
  | some q =>
    have own := (roomOf_eq_some_iff cur).mp found
    dsimp only
    by_cases waits : s.rooms[q].stAt s.now = .waiting
    · rw [if_pos waits, apply_ite State.rooms]
      refine (congrArg (·[r]) (ite_self (upd s.rooms q (s.readyRoom c i q)))).trans ?_
      rw [getElem_upd]
      by_cases same : q = r
      · subst same
        rw [if_pos rfl, if_pos ⟨own, waits⟩]
      · rw [if_neg same, if_neg fun ⟨room, _⟩ => same (Fin.ext (Option.some.inj (own.symm.trans room)))]
    · rw [if_neg waits]
      refine (if_neg fun ⟨room, now⟩ => waits ?_).symm
      rwa [Fin.ext (Option.some.inj (own.symm.trans room))]

end

/-- Only rooms, clock figures and night porter change, as in releases. -/
def State.OnlyReleased (s s' : State) : Prop := ∃ rooms clk np, s' = { s with rooms := rooms, clk := clk, np := np }

theorem State.OnlyReleased.refl (s : State) : s.OnlyReleased s := ⟨_, _, _, rfl⟩

theorem State.OnlyReleased.app {s s' : State} (h : s.OnlyReleased s') : s'.app = s.app := by obtain ⟨_, _, _, rfl⟩ := h; rfl
theorem State.OnlyReleased.tb {s s' : State} (h : s.OnlyReleased s') : s'.tb = s.tb := by obtain ⟨_, _, _, rfl⟩ := h; rfl

/-- Task i released when its release falls on n. -/
def State.releaseIf (s : State) (n i : Nat) : State := if s.releasedAt i n then s.release i else s

theorem releaseAll_eq (s : State) (n : Nat) : (s.releaseAll n fun _ => false) = (List.range s.taskCount).foldl (fun s i => s.releaseIf n i) s := by
  simp [State.releaseAll, State.releaseIf]

theorem State.OnlyReleased.releaseIf {s s' : State} (h : s.OnlyReleased s') (n i : Nat) : s.OnlyReleased (s'.releaseIf n i) := by
  obtain ⟨_, _, _, only⟩ := h
  unfold State.releaseIf
  split
  · rw [release_alone, only]
    exact ⟨_, _, _, rfl⟩
  · exact ⟨_, _, _, only⟩

theorem releaseAll_only (s : State) (n : Nat) : s.OnlyReleased (s.releaseAll n fun _ => false) := by
  rw [releaseAll_eq]
  exact List.foldlRecOn (motive := fun s' : State => s.OnlyReleased s') _ _ (.refl s) fun s' only i _ => only.releaseIf n i

section
variable {s : State} {c : Conf} {r : RoomId} {n i tb : Nat} (cur : s.app.cur = some c)
include cur

theorem releaseIf_ready (ready : s.rooms[r].ReadyAt tb) (now : s.tb = tb) : (s.releaseIf n i).rooms[r].ReadyAt tb := by
  have ⟨_, _, _, zero⟩ := ready
  unfold State.releaseIf
  split
  · rw [release_room cur]
    split
    · exact now ▸ readyRoom_readyAt s c i r zero
    · exact ready
  · exact ready

theorem releaseIf_awaiting (awaiting : s.rooms[r].Awaiting) (now : s.tb = tb) :
    (s.releaseIf n i).rooms[r].Awaiting ∨ (s.releaseIf n i).rooms[r].ReadyAt tb := by
  have ⟨_, _, zero⟩ := awaiting
  unfold State.releaseIf
  split
  · rw [release_room cur]
    split
    · exact .inr (now ▸ readyRoom_readyAt s c i r zero)
    · exact .inl awaiting
  · exact .inl awaiting

theorem releaseIf_due (awaiting : s.rooms[r].Awaiting) (now : s.tb = tb) (room : c.an.rooms[i]? = some r.val) (due : s.releasedAt i n = true) :
    (s.releaseIf n i).rooms[r].ReadyAt tb := by
  obtain ⟨st, rest, zero⟩ := awaiting
  have waiting : s.rooms[r].stAt s.now = .waiting := by rw [Room.stAt, rest]; exact st
  rw [State.releaseIf, if_pos due, release_room cur, if_pos ⟨room, waiting⟩]
  exact now ▸ readyRoom_readyAt s c i r zero

theorem releaseIf_other (other : r.val ∉ c.an.rooms) : (s.releaseIf n i).rooms[r] = s.rooms[r] := by
  unfold State.releaseIf
  split
  · rw [release_room cur, if_neg fun ⟨room, _⟩ => other (List.mem_of_getElem? room)]
  · rfl

theorem releaseAll_other (other : r.val ∉ c.an.rooms) : (s.releaseAll n fun _ => false).rooms[r] = s.rooms[r] := by
  rw [releaseAll_eq]
  exact (List.foldlRecOn (motive := fun s' : State => s.OnlyReleased s' ∧ s'.rooms[r] = s.rooms[r]) _ _ ⟨.refl s, rfl⟩
    fun s' ⟨only, same⟩ i _ => ⟨only.releaseIf n i, (releaseIf_other ((congrArg App.cur only.app).trans cur) other).trans same⟩).2

/-- At a tick at which its task is released a room that waits becomes ready. -/
theorem releaseAll_readies (task : i < c.way.tasks.length) (due : s.releasedAt i n = true) (room : c.an.rooms[i]? = some r.val)
    (awaiting : s.rooms[r].Awaiting) : (s.releaseAll n fun _ => false).rooms[r].ReadyAt s.tb := by
  have count : s.taskCount = c.way.tasks.length := by rw [State.taskCount, cur]
  rw [releaseAll_eq, count]
  have cur' {s' : State} (only : s.OnlyReleased s') : s'.app.cur = some c := (congrArg App.cur only.app).trans cur
  refine (foldl_establishes (I := fun s' : State => s.OnlyReleased s' ∧ (s'.rooms[r].Awaiting ∨ s'.rooms[r].ReadyAt s.tb))
    (P := fun s' : State => s.OnlyReleased s' ∧ s'.rooms[r].ReadyAt s.tb) (fun s' j ⟨only, held⟩ => ⟨only.releaseIf n j, ?_⟩)
    (fun s' ⟨only, held⟩ => ⟨only.releaseIf n i, ?_⟩)
    (fun s' j ⟨only, ready⟩ => ⟨only.releaseIf n j, releaseIf_ready (cur' only) ready only.tb⟩) (List.mem_range.mpr task) ⟨.refl s, .inl awaiting⟩).2
  · rcases held with awaiting | ready
    · exact releaseIf_awaiting (cur' only) awaiting only.tb
    · exact .inr (releaseIf_ready (cur' only) ready only.tb)
  · rcases held with awaiting | ready
    · refine releaseIf_due (cur' only) awaiting only.tb room ?_
      obtain ⟨_, _, _, rfl⟩ := only
      exact due
    · exact releaseIf_ready (cur' only) ready only.tb

end

/-! ### The start tick -/

theorem canTick_alone (s : State) (n : Nat) : s.canTick n = { s with cans := (s.canTick n).cans } := by
  unfold State.canTick
  split
  · rfl
  · refine List.foldlRecOn (motive := fun s' : State => s' = { s with cans := s'.cans }) _ _ rfl fun s' same k _ => ?_
    dsimp only
    rw [same]
    split <;> split <;> rfl

/-- The configuration stands ready to run, its rooms not yet set up. -/
def State.launching (s : State) (c : Conf) : State := State.mapChans { s with
  app := { s.app with cur := some c, running := true, startTick := s.cycle, start := none, held := false, stopSafeAt := none }
  img := { s.img with written := [], closed := [], com := c.zeroStamps s.img.com }
  edits := Edits.init
  dmem := c.clearPrivate s.dmem
  np := s.np.admitted c.an s.tb } fun x => { x with follow := false }

/-- Its rooms set up, its publications within their limits and its ports in step, nothing is released yet. -/
def State.launchedRooms (s : State) (c : Conf) : State := (((s.launching c).setUpRooms c).limitPublications c).canTick s.cycle

theorem launch_eq (s : State) (c : Conf) : s.launch c = (s.launchedRooms c).releaseAll s.cycle fun _ => false := by
  have cycle : (((s.launching c).setUpRooms c).limitPublications c).cycle = s.cycle := by
    rw [limitPublications_alone, setUpRooms_alone]
    rfl
  unfold State.launchedRooms
  rw [← cycle]
  rfl

theorem launchedRooms_alone (s : State) (c : Conf) : ∃ host marks cans, s.launchedRooms c = { s.launching c with
    rooms := ((s.launching c).setUpRooms c).rooms, host := host, marks := marks, cans := cans } ∧ ∀ k, host.EndsAs s.host k := by
  have ends := limitPublications_endsAs ((s.launching c).setUpRooms c) c
  refine ⟨(((s.launching c).setUpRooms c).limitPublications c).host, (((s.launching c).setUpRooms c).limitPublications c).marks,
    (s.launchedRooms c).cans, ?_, fun k => ?_⟩
  · have ticked := canTick_alone (((s.launching c).setUpRooms c).limitPublications c) s.cycle
    have limited := limitPublications_alone ((s.launching c).setUpRooms c) c
    have setUp := setUpRooms_alone (s.launching c) c
    unfold State.launchedRooms
    generalize State.canTick _ _ = s₃ at ticked ⊢
    generalize State.limitPublications _ _ = s₂ at ticked limited ⊢
    generalize State.setUpRooms _ _ = s₁ at limited setUp ⊢
    rw [ticked, limited, setUp]
  · rw [setUpRooms_alone] at ends ⊢
    exact ends k

/-- What a launch leaves besides rooms, ports and the rings' figures. -/
theorem launch_alone (s : State) (c : Conf) : ∃ rooms clk np host marks cans, s.launch c = { s.launching c with
    rooms := rooms, clk := clk, np := np, host := host, marks := marks, cans := cans } ∧ ∀ k, host.EndsAs s.host k := by
  obtain ⟨_, _, _, released⟩ := releaseAll_only (s.launchedRooms c) s.cycle
  obtain ⟨host, _, _, launched, ends⟩ := launchedRooms_alone s c
  rw [launch_eq, released, launched]
  exact ⟨_, _, _, host, _, _, rfl, ends⟩

theorem launchedRooms_cur (s : State) (c : Conf) : (s.launchedRooms c).app.cur = some c := by
  obtain ⟨_, _, _, launched, -⟩ := launchedRooms_alone s c
  rw [launched]
  rfl

theorem launchedRooms_room (s : State) (c : Conf) (r : RoomId) : (s.launchedRooms c).rooms[r] = ((s.launching c).setUpRooms c).rooms[r] := by
  obtain ⟨_, _, _, launched, -⟩ := launchedRooms_alone s c
  rw [launched]

/-- A room that the configuration does not assign is UNUSED. -/
theorem launch_unassigned (s : State) {c : Conf} {r : RoomId} (other : r.val ∉ c.an.rooms) : (s.launch c).rooms[r] = Room.init := by
  rw [launch_eq, releaseAll_other (launchedRooms_cur s c) other, launchedRooms_room]
  exact (setUpRooms_setUpFor _ c).1 r other

/-- Every task that has a period is released at the start tick. -/
theorem launch_ready (s : State) {c : Conf} {r : RoomId} {i : Nat} {k : Task} (task : c.task i = some k) (room : c.an.rooms[i]? = some r.val)
    (periodic : 0 < k.k) : (s.launch c).rooms[r].ReadyAt (s.launch c).tb := by
  have due : (s.launchedRooms c).releasedAt i s.cycle = true := by
    obtain ⟨_, _, _, launched, -⟩ := launchedRooms_alone s c
    rw [launched]
    simp [State.releasedAt, State.launching, State.mapChans, State.period, task, periodic]
  have awaiting : (s.launchedRooms c).rooms[r].Awaiting := by
    rw [launchedRooms_room]
    exact setUpRooms_awaits task room
  rw [launch_eq, (releaseAll_only (s.launchedRooms c) s.cycle).tb]
  exact releaseAll_readies (launchedRooms_cur s c) (lt_of_task task) due room awaiting

section
variable {s : State} {t : Nat} {q : StartReq} {c : Conf} (start : s.app.start = some q) (stored : s.app.stored = some c)
include start stored

theorem exec_startTick_due (flagOk : q.flagOk = true) (due : q.tick ≤ s.cycle) (may : s.mayRelease = true) (stopped : s.app.running = false) :
    exec (.startTick t) s = .next (((s.at t).launch c).completeOpt q.ref 0 (toLe 6 s.cycle)) := by
  change execStartTick t s = _
  have start' : (s.at t).app.start = some q := start
  have stored' : (s.at t).app.stored = some c := stored
  have now : q.flagOk = true ∧ q.tick ≤ (s.at t).cycle ∧ (s.at t).mayRelease = true ∧ (s.at t).app.running = false := ⟨flagOk, due, may, stopped⟩
  simp only [execStartTick, start', stored', if_pos now]
  rfl

theorem exec_startTick_waits (waits : q.flagOk = false ∨ s.cycle < q.tick ∨ s.mayRelease = false) : exec (.startTick t) s = .next (s.at t) := by
  change execStartTick t s = _
  have start' : (s.at t).app.start = some q := start
  have stored' : (s.at t).app.stored = some c := stored
  have later : ¬(q.flagOk = true ∧ q.tick ≤ (s.at t).cycle ∧ (s.at t).mayRelease = true ∧ (s.at t).app.running = false) := by
    rintro ⟨flagOk, due, may, -⟩
    rcases waits with open' | early | held
    · rw [flagOk] at open'; contradiction
    · exact Nat.not_lt.mpr due early
    · rw [show s.mayRelease = true from may] at held; contradiction
  simp only [execStartTick, start', stored', if_neg later]

end

/-- At its tick the application runs, or what has not come is waited for. -/
theorem startTickRuns : Stated.StartTickRuns := by
  intro s t q c inv start stored
  refine ⟨fun flagOk due may stopped => ?_, fun waits => ⟨_, exec_startTick_waits start stored waits, rfl⟩⟩
  have run := exec_startTick_due (t := t) start stored flagOk due may stopped
  have unassigned := fun {r} => launch_unassigned (s.at t) (c := c) (r := r)
  have ready := fun {r i k} => launch_ready (s.at t) (c := c) (r := r) (i := i) (k := k)
  obtain ⟨_, _, _, host, _, _, launched, ends⟩ := launch_alone (s.at t) c
  have same := completeOpt_alone ((s.at t).launch c) q.ref 0 (toLe 6 s.cycle)
  refine ⟨_, run, ?_, ?_, ?_, ?_, ?_, ?_, ?_, ?_, ?_, fun r other => ?_, fun r i k task room periodic => ?_, fun i y k task low high => ?_,
    fun y outside => ?_, fun i k task publishes j lt => ?_, fun ref awaited => ?_⟩
  case refine_10 =>
    rw [same]
    exact unassigned other
  case refine_11 =>
    rw [same]
    exact ready task room periodic
  case refine_15 =>
    have finishes := complete_finishes ((s.at t).launch c) ref 0 (toLe 6 s.cycle)
    rw [awaited]
    refine finishes.of_endsAs ?_ ?_ <;> rw [launched]
    · exact ends ref.ring
    · exact List.prefix_rfl
  all_goals rw [same, launched]
  case refine_3 => exact stored
  case refine_12 => exact clearPrivate_inside inv.dmem task low high
  case refine_13 => exact clearPrivate_outside inv.dmem outside
  case refine_14 => exact zeroStamps_stamp inv.com task publishes lt
  all_goals rfl

/-- Settles O35: START by its first check that fails or by what it schedules, the start tick by what a launch makes of rooms and memory. -/
theorem starts : Obligations.Starts := ⟨startRequested, startTickRuns⟩

end Sys2Proof.Machine
end

section
/-! PROOFS. STOP, the stop tick and the safe states after it (R230, R294, R356, R398). -/

namespace Sys2Proof.Machine

/-! ### STOP -/

/-- A STOP message names its tick (R356, R381). -/
theorem controlBytes_tick (op tick : Nat) : u8 (controlBytes op (toLe 6 tick)) 0 = op % 256 ∧ u48 (controlBytes op (toLe 6 tick)) 4 = tick % 2 ^ 48 := by
  have six : 256 ^ 6 = 2 ^ 48 := by decide
  refine ⟨controlBytes_code .., (congrArg ofLe (slice_controlBytes op (toLe 6 tick) (i := 0) (n := 6) (by simp))).trans ?_⟩
  simp [six, -Nat.reducePow]

/-- While the road is up a control message goes out. -/
theorem sendControl_sent {s s₁ : State} (link : s₁.pair.link = true) (out : s.out <+: s₁.out) (op : Nat) (args : List Byte) :
    Out.frame 5 (controlBytes op args) ∈ (s₁.sendControl op args).out.drop s.out.length := by
  obtain ⟨sent, out⟩ := out
  rw [show s₁.sendControl op args = s₁.emit (.frame 5 (controlBytes op args)) from sendFrame_linked link .., State.emit, ← out, List.append_assoc,
    List.drop_left]
  exact List.mem_append_right _ (List.mem_singleton_self _)

section
variable {s : State} {t : Nat} {c : RingId} {e : CmdEntry} (can : s.CanAnswer c) (form : e.formOk 0 [] = true) (running : s.app.running = true)
include can form running

/-- During a trial or a release the application is not stopped (R230). -/
theorem stop_onTrial (trial : s.edits.swap = .trial ∨ s.edits.swap = .releasing) :
    ∃ s', exec (.stop t c e) s = .next s' ∧ Answers s s' c e 0x0225 [] ∧ s'.app = s.app := by
  refine app_refused can rfl ?_
  rcases trial with trial | trial <;> simp [firstFail, State.stopSwap, form, running, trial]

theorem exec_stop_first (steady : s.edits.swap = .none ∨ s.edits.swap = .staged) (leads : s.isRelief = false) (first : s.app.stop = none) :
    exec (.stop t c e) s = .next
      (if s.pair.role = 1 then ((s.taken t c e 0x13).scheduleStop (s.cycle + 4) [s.refOf c e 0x13]).sendControl 3 (toLe 6 (s.cycle + 4))
      else (s.taken t c e 0x13).scheduleStop (s.cycle + 4) [s.refOf c e 0x13]) := by
  have ⟨begins, power, _⟩ := can
  refine congrArg Host.Outcome.next ((command_passes begins power ?_).trans ?_)
  · rcases steady with steady | steady <;> simp [Passes, State.stopSwap, form, running, steady, leads]
  · rw [taken_app, first]
    rfl

/-- The stop is scheduled and told to the relief; a staged swap and the points held are discarded (R230, R294, R356, R398). -/
theorem stop_schedules (steady : s.edits.swap = .none ∨ s.edits.swap = .staged) (leads : s.isRelief = false) (first : s.app.stop = none) :
    ∃ s' ref, exec (.stop t c e) s = .next s' ∧
      Awaits s s' c e 0x13 ∧ s'.host.inProg[c] = some ref ∧ s'.app = { s.app with stop := some { tick := s.cycle + 4, refs := [ref] } } ∧
      s'.edits.swap = .none ∧ s'.edits.batches = s.edits.batches ∧ (∀ g : GrpId, s'.groups[g] = s.groups[g].noPoints) ∧ LanesKept s s' ∧
      (s.pair.role = 1 → s.pair.link = true → ∃ b, Out.frame 5 b ∈ s'.out.drop s.out.length ∧ u8 b 0 = 3 ∧ u48 b 4 = (s.cycle + 4) % 2 ^ 48) := by
  let scheduled : State := (s.taken t c e 0x13).scheduleStop (s.cycle + 4) [s.refOf c e 0x13]
  have alone : ∃ out, (if s.pair.role = 1 then scheduled.sendControl 3 (toLe 6 (s.cycle + 4)) else scheduled) = { scheduled with out := out } := by
    split
    · exact ⟨_, sendControl_alone ..⟩
    · exact ⟨_, rfl⟩
  refine ⟨_, s.refOf c e 0x13, exec_stop_first can form running steady leads first, ?_⟩
  refine ⟨?_, ?_, ?_, ?_, ?_, fun g => ?_, ?_, fun primary link => ⟨_, ?_, controlBytes_tick 3 (s.cycle + 4)⟩⟩
  case refine_8 =>
    rw [if_pos primary]
    exact sendControl_sent (s₁ := scheduled) link (taken_out s t c e 0x13) ..
  all_goals
    obtain ⟨_, same⟩ := alone
    rw [same]
  · exact taken_awaits (t := t) rfl
  · exact taken_inProg s t c e 0x13
  · rfl
  · rcases steady with steady | steady <;> simp [scheduled, State.scheduleStop, steady]
  · dsimp only [scheduled, State.scheduleStop]
    split <;> rfl
  · simp [scheduled, State.scheduleStop, State.taken]
  · exact ⟨rfl, rfl, rfl⟩

end

/-! ### The stop tick -/

/-- Of a room only what a stop has to keep. -/
def Room.standing (v : Room) : Room := { Room.init with st := v.st, g := v.g, pc := v.pc }

/-- The state without reports, ports, pair and night porter, of the rooms only what a stop has to keep, and without edits and reads pending. -/
def State.standing (s : State) : State :=
  { s.portless with
    rooms := s.rooms.map Room.standing
    np := Porter.init
    pair := Pair.init
    edits := { s.edits with batches := [], reads := [] } }

theorem standing_of_portless {s s' : State} (h : s'.portless = s.portless) : s'.standing = s.standing := (congrArg State.standing h :)

theorem updRoom_standing (s : State) (r : RoomId) {f : Room → Room} (keeps : ∀ v, (f v).standing = v.standing) :
    (s.updRoom r f).standing = s.standing := by
  have rooms : (upd s.rooms r f).map Room.standing = s.rooms.map Room.standing := by
    ext i lt : 1
    rw [Vector.getElem_map, Vector.getElem_map]
    rw [show (upd s.rooms r f)[i] = _ from getElem_upd s.rooms r ⟨i, lt⟩ f]
    split
    next same =>
      subst same
      exact keeps _
    next => rfl
  exact congrArg (fun rooms => { s.standing with rooms := rooms }) rooms

theorem dropPoints_standing (s : State) : s.dropPoints.standing = s.standing := by
  refine (foldl_keeps_key State.standing (fun s p => ?_) s.nv.points s :)
  split
  · rfl
  · exact updRoom_standing _ _ fun _ => rfl

theorem canStop_portless (s : State) : s.canStop.portless = s.portless :=
  foldl_keeps_key State.portless (fun s k => (updCan_portless ..).trans (canDrain_portless s k)) (fins 4) s

theorem completeOpt_standing (s : State) (ref : Option CmdRef) (st : BitVec 16) (res : List Byte) :
    (s.completeOpt ref st res).standing = s.standing := standing_of_portless (portless_of_unreported (completeOpt_unreported s ref st res))

theorem discardEdits_standing (s : State) : s.discardEdits.standing = s.standing :=
  foldl_keeps_key State.standing (fun s r => completeOpt_standing s r 0x0228 []) _ { s with edits := { s.edits with batches := [], reads := [] } }

theorem completeOpt_edits (s : State) (ref : Option CmdRef) (st : BitVec 16) (res : List Byte) : (s.completeOpt ref st res).edits = s.edits :=
  (congrArg State.edits (completeOpt_unreported s ref st res) :)

theorem discardEdits_edits (s : State) : s.discardEdits.edits = { s.edits with batches := [], reads := [] } :=
  foldl_keeps_key State.edits (fun s r => completeOpt_edits s r 0x0228 []) _ { s with edits := { s.edits with batches := [], reads := [] } }

/-- The application has ended, its rooms and ports stopped and its edits discarded; its run flag is not yet cleared. -/
def State.ended (s : State) : State :=
  let s := { s with app := { s.app with running := false, stopSafeAt := some (s.now + tickCycles) } }
  (s.stopRooms.dropPoints.canStop).discardEdits

/-- A resynchronisation awaited has ended with it. -/
def State.joinEnded (s : State) : State :=
  { s.npBoot with pair := { s.npBoot.pair with joinRef := none } }.completeOpt s.pair.joinRef 0x0707 []

/-- The run flag is on its way to be cleared (R452). -/
def State.runFlagCleared (s : State) : State :=
  match s.app.stored with
  | none => s
  | some c => s.recWrite 4 1 (confRecord c.way.crc false) (fun _ => .stopFlag)

theorem runFlagCleared_none {s : State} (stored : s.app.stored = none) : s.runFlagCleared = s := by
  rw [State.runFlagCleared, stored]

theorem runFlagCleared_some {s : State} {c : Conf} (stored : s.app.stored = some c) :
    s.runFlagCleared = s.recWrite 4 1 (confRecord c.way.crc false) (fun _ => .stopFlag) := by
  rw [State.runFlagCleared, stored]

theorem halt_eq (s : State) : s.halt = s.ended.joinEnded.runFlagCleared := by
  unfold State.halt
  dsimp only
  generalize ended : State.discardEdits _ = s₁
  have ended' : s.ended = s₁ := ended
  generalize joined : State.completeOpt _ _ 0x0707 _ = s'
  have joined' : s₁.joinEnded = s' := joined
  rw [ended', joined']
  split
  next stored => exact (runFlagCleared_none stored).symm
  next c stored => exact (runFlagCleared_some stored).symm

theorem runFlagCleared_kept (s : State) : s.runFlagCleared.standing = s.standing ∧ s.runFlagCleared.edits = s.edits := by
  unfold State.runFlagCleared
  split
  · exact ⟨rfl, rfl⟩
  · rw [recWrite_alone]
    exact ⟨rfl, rfl⟩

theorem joinEnded_kept (s : State) : s.joinEnded.standing = s.standing ∧ s.joinEnded.edits = s.edits :=
  ⟨completeOpt_standing .., completeOpt_edits ..⟩

theorem halt_kept (s : State) : s.halt.standing = s.ended.standing ∧ s.halt.edits = s.ended.edits := by
  rw [halt_eq]
  exact ⟨(runFlagCleared_kept _).1.trans (joinEnded_kept _).1, (runFlagCleared_kept _).2.trans (joinEnded_kept _).2⟩

theorem ended_standing (s : State) : s.ended.standing =
    ({ s with app := { s.app with running := false, stopSafeAt := some (s.now + tickCycles) } } : State).stopRooms.standing :=
  (discardEdits_standing _).trans ((standing_of_portless (canStop_portless _)).trans (dropPoints_standing _))

theorem halt_standing (s : State) : s.halt.standing =
    ({ s with app := { s.app with running := false, stopSafeAt := some (s.now + tickCycles) } } : State).stopRooms.standing :=
  (halt_kept s).1.trans (ended_standing s)

/-- Nothing of the application's waits any more. -/
theorem halt_edits (s : State) : s.halt.edits.batches = [] ∧ s.halt.edits.reads = [] := by
  rw [(halt_kept s).2, State.ended, discardEdits_edits]
  exact ⟨rfl, rfl⟩

theorem room_of_standing {s s' : State} (h : s'.standing = s.standing) (r : RoomId) :
    s'.rooms[r].st = s.rooms[r].st ∧ s'.rooms[r].g = s.rooms[r].g ∧ s'.rooms[r].pc = s.rooms[r].pc := by
  have rooms : s'.rooms.map Room.standing = s.rooms.map Room.standing := congrArg State.rooms h
  have room : s'.rooms[r].standing = s.rooms[r].standing := by simpa using congrArg (·[r]) rooms
  exact ⟨(congrArg Room.st room :), (congrArg Room.g room :), (congrArg Room.pc room :)⟩

theorem stopRooms_room (s : State) (r : RoomId) :
    s.stopRooms.rooms[r].st = (if s.rooms[r].st = .waiting ∨ s.rooms[r].st = .ready then .stopped else s.rooms[r].st) ∧
      s.stopRooms.rooms[r].g = s.rooms[r].g ∧ s.stopRooms.rooms[r].pc = s.rooms[r].pc := by
  simp only [State.stopRooms, State.mapRooms, Fin.getElem_fin, Vector.getElem_map]
  split <;> exact ⟨rfl, rfl, rfl⟩

/-- A room that waits or is ready stops, with registers and PC as they are (R356). -/
theorem halt_room (s : State) (r : RoomId) : s.halt.rooms[r].st = (if s.rooms[r].st = .waiting ∨ s.rooms[r].st = .ready then .stopped
    else s.rooms[r].st) ∧ s.halt.rooms[r].g = s.rooms[r].g ∧ s.halt.rooms[r].pc = s.rooms[r].pc := by
  obtain ⟨st, g, pc⟩ := room_of_standing (halt_standing s) r
  rw [st, g, pc]
  exact stopRooms_room _ r

theorem kept_of_standing {s s' : State} (h : s'.standing = s.standing) :
    s'.app = s.app ∧ s'.dmem = s.dmem ∧ s'.edits.swap = s.edits.swap ∧ s'.chans = s.chans ∧ s'.groups = s.groups :=
  ⟨(congrArg State.app h :), (congrArg State.dmem h :), (congrArg (fun s => s.edits.swap) h :), (congrArg State.chans h :),
    (congrArg State.groups h :)⟩

/-- The stop tick ends the application and leaves memory, field and a swap as they are. -/
theorem halt_ends (s : State) : s.halt.app = { s.app with running := false, stopSafeAt := some (s.now + tickCycles) } ∧ s.halt.dmem = s.dmem ∧
    s.halt.edits.swap = s.edits.swap ∧ s.halt.chans = s.chans ∧ s.halt.groups = s.groups := kept_of_standing (halt_standing s)

section
variable {s : State} {q : StopReq} (stop : s.app.stop = some q)
include stop

theorem exec_stopTick_due (due : q.tick ≤ s.cycle) (running : s.app.running = true) (goes : s.halted = false) (t : Nat) :
    exec (.stopTick t) s = .next (s.at t).halt := by
  change execStopTick t s = _
  have stop' : (s.at t).app.stop = some q := stop
  have now : (s.at t).app.running = true ∧ q.tick ≤ (s.at t).cycle ∧ (s.at t).halted = false := ⟨running, due, goes⟩
  simp only [execStopTick, stop', if_pos now]

theorem exec_stopTick_early (early : s.cycle < q.tick) (t : Nat) : exec (.stopTick t) s = .next (s.at t) := by
  change execStopTick t s = _
  have stop' : (s.at t).app.stop = some q := stop
  have later : ¬((s.at t).app.running = true ∧ q.tick ≤ (s.at t).cycle ∧ (s.at t).halted = false) := fun ⟨_, due, _⟩ => Nat.not_lt.mpr due early
  simp only [execStopTick, stop', if_neg later]

end

/-! ### The safe states after it (R262, R356) -/

/-- Group g and its channels are in s' as in s. -/
def State.GroupKept (s s' : State) (g : GrpId) : Prop := s'.groups[g] = s.groups[g] ∧ ∀ n : ChanId, grpOf n = g → s'.chans[n] = s.chans[n]

theorem State.GroupKept.refl (s : State) (g : GrpId) : s.GroupKept s g := ⟨rfl, fun _ _ => rfl⟩

theorem State.GroupKept.trans {s s₁ s' : State} {g : GrpId} (h : s.GroupKept s₁ g) (h' : s₁.GroupKept s' g) : s.GroupKept s' g :=
  ⟨h'.1.trans h.1, fun n own => (h'.2 n own).trans (h.2 n own)⟩

/-- Where each step writes its own group only, a group is as its own step leaves it. -/
theorem foldl_ownGroup {f : State → GrpId → State} {I : State → Prop} (inv : ∀ s h, I s → I (f s h))
    (other : ∀ (s : State) (h g : GrpId), g ≠ h → s.GroupKept (f s h) g) {l : List GrpId} (distinct : l.Nodup) {g : GrpId} (mem : g ∈ l) {s : State} (start : I s) :
    ∃ s₁, I s₁ ∧ s.GroupKept s₁ g ∧ (f s₁ g).GroupKept (l.foldl f s) g := by
  obtain ⟨before, behind, rfl⟩ := List.append_of_mem mem
  obtain ⟨-, twice, apart⟩ := List.nodup_append.mp distinct
  have kept {l : List GrpId} (absent : g ∉ l) (s : State) : s.GroupKept (l.foldl f s) g :=
    List.foldlRecOn (motive := fun s' : State => s.GroupKept s' g) l f (.refl s g) fun s' h b mem =>
      h.trans (other s' b g fun same => absent (same ▸ mem))
  refine ⟨before.foldl f s, List.foldlRecOn before f start fun s i b _ => inv s b i, kept (fun mem => apart g mem g (List.mem_cons_self ..) rfl) s, ?_⟩
  rw [List.foldl_append, List.foldl_cons]
  exact kept (List.nodup_cons.mp twice).1 _

/-- The group whose safe states the stop has applied. -/
def Group.stoppedSafe (p : Group) : Group := { p with stopSafe := true }

/-- The safe states of a group with L+ applied after a stop. -/
def State.safeAfterStop (s : State) (g : GrpId) : State :=
  if s.groups[g].lplus then (s.applySafe g).updGrp g Group.stoppedSafe else s

theorem exec_stopSafeStates {s : State} {n : Nat} (due : s.app.stopSafeAt = some n) (t : Nat) : exec (.stopSafeStates t) s =
    .next ((fins 12).foldl State.safeAfterStop { s.at (max t n) with app := { s.app with stopSafeAt := none } }) := by
  change execStopSafeStates t s = _
  unfold execStopSafeStates
  rw [due]
  rfl

theorem safeAfterStop_inward (s : State) (g : GrpId) : (s.safeAfterStop g).inward = s.inward := by
  unfold State.safeAfterStop
  split
  · exact (updGrp_inward ..).trans (applySafe_inward s g)
  · rfl

theorem applySafe_otherGroup (s : State) {g h : GrpId} (other : h ≠ g) : (s.applySafe g).groups[h] = s.groups[h] := by
  rw [applySafe_eq, driveGroup_otherGroup _ other, rechan_groups, State.updGrp_group, if_neg other.symm]

theorem safeAfterStop_other (s : State) (g h : GrpId) (other : h ≠ g) : s.GroupKept (s.safeAfterStop g) h := by
  unfold State.safeAfterStop
  split
  · refine ⟨?_, fun n own => ?_⟩
    · rw [State.updGrp_group, if_neg other.symm, applySafe_otherGroup s other]
    · rw [State.updGrp_chans]
      exact applySafe_otherChan s (own ▸ other)
  · exact .refl s h

theorem safeAfterStop_own {s : State} {g : GrpId} (supplied : s.groups[g].lplus = true) :
    (s.safeAfterStop g).groups[g].stopSafe = true ∧ (s.safeAfterStop g).groups[g].supact = true ∧
      ∀ n ∈ chansOf g, (s.safeAfterStop g).chans[n].follow = false ∧ (s.groups[g].relief = false → ∀ e, s.chans[n].cfg = some e →
        e.mode = 8 ∨ e.mode = 9 → e.safe = 0 → (s.safeAfterStop g).chans[n].drive = false) := by
  have safe := applySafe_safe s g
  have group : (s.safeAfterStop g).groups[g] = (s.applySafe g).groups[g].stoppedSafe := by
    rw [State.safeAfterStop, if_pos supplied, State.updGrp_group, if_pos rfl]
  have chans : (s.safeAfterStop g).chans = (s.applySafe g).chans := by
    rw [State.safeAfterStop, if_pos supplied, State.updGrp_chans]
  rw [group, chans]
  refine ⟨rfl, (congrArg Group.supact (applySafe_group s g) :), fun n mem => ⟨safe.own n (mem_chansOf.mp mem), fun owner e entry mode off => ?_⟩⟩
  exact safe.off n e (mem_chansOf.mp mem) entry mode off owner

theorem latchRate_cans (s : State) (n : ChanId) : (s.latchRate n).cans = s.cans := by
  rcases latchChan_unreported s n Group.rateLatch (fun p x => { p with rateLatch := x }) 0x20 0x34 sevNotice false with ⟨kept, -⟩ | set
  · exact cans_of_unreported kept
  · exact (congrArg State.cans set :)

theorem driveGroup_cans (s : State) (g : GrpId) : (s.driveGroup g).cans = s.cans := by
  refine foldl_keeps_key State.cans (fun s n => ?_) (chansOf g) s
  rcases driveChan_eq s n false with eq | eq <;> rw [eq]
  · rfl
  · exact latchRate_cans ..

theorem rechan_cans (s : State) (f : Nat → ChanId → Chan → Chan) (g : GrpId) : (s.rechan g f).cans = s.cans :=
  foldl_keeps_key State.cans (fun _ _ => State.updChan_cans ..) (chansOf g) s

/-- The safe states of the groups leave the ports as they are. -/
theorem safeAfterStop_cans (s : State) (g : GrpId) : (s.safeAfterStop g).cans = s.cans := by
  unfold State.safeAfterStop
  split
  · rw [State.updGrp_cans, applySafe_eq, driveGroup_cans, rechan_cans, State.updGrp_cans]
  · rfl

theorem app_of_inward {s s' : State} (h : s'.inward = s.inward) : s'.app = s.app := (congrArg State.app h :)

/-- 50 µs after the stop tick every group with L+ stands in its safe states, and a group without is as it was (R356). -/
theorem stopSafeStates_apply {s : State} {n : Nat} (due : s.app.stopSafeAt = some n) (t : Nat) :
    ∃ s', exec (.stopSafeStates t) s = .next s' ∧ s'.now = max (s.then t) n ∧
      s'.app = { s.app with stopSafeAt := none } ∧ LanesKept s s' ∧ s'.cans = s.cans ∧
      (∀ g : GrpId, if s.groups[g].lplus then s'.groups[g].stopSafe = true ∧ s'.groups[g].supact = true ∧
          ∀ n ∈ chansOf g, s'.chans[n].follow = false ∧
            (s.groups[g].relief = false → ∀ e, s.chans[n].cfg = some e → e.mode = 8 ∨ e.mode = 9 → e.safe = 0 → s'.chans[n].drive = false)
        else s'.groups[g] = s.groups[g] ∧ ∀ n ∈ chansOf g, s'.chans[n] = s.chans[n]) := by
  let asked : State := { s.at (max t n) with app := { s.app with stopSafeAt := none } }
  have inward : ((fins 12).foldl State.safeAfterStop asked).inward = asked.inward := foldl_keeps_key State.inward safeAfterStop_inward (fins 12) asked
  obtain ⟨rooms, dmem, img⟩ := lanesKept_of_inward inward
  refine ⟨_, exec_stopSafeStates due t, (now_of_inward inward).trans (at_now_due ..), app_of_inward inward, ⟨rooms, dmem, img⟩,
    foldl_keeps_key State.cans safeAfterStop_cans (fins 12) asked, fun g => ?_⟩
  obtain ⟨s₁, -, ⟨group, chans⟩, ⟨group', chans'⟩⟩ := foldl_ownGroup (f := State.safeAfterStop) (I := fun _ => True) (fun _ _ _ => trivial)
    safeAfterStop_other (List.nodup_finRange 12) (List.mem_finRange g) (s := asked) trivial
  have group : s₁.groups[g] = s.groups[g] := group
  split
  next supplied =>
    obtain ⟨stopSafe, supact, own⟩ := safeAfterStop_own (s := s₁) (g := g) (by rw [group]; exact supplied)
    refine ⟨(congrArg Group.stopSafe group').trans stopSafe, (congrArg Group.supact group').trans supact, fun n mem => ?_⟩
    obtain ⟨follow, off⟩ := own n mem
    have same := chans' n (mem_chansOf.mp mem)
    rw [group, chans n (mem_chansOf.mp mem)] at off
    exact ⟨(congrArg Chan.follow same).trans follow, fun owner e entry mode safe => (congrArg Chan.drive same).trans (off owner e entry mode safe)⟩
  next dark =>
    have idle : s₁.safeAfterStop g = s₁ := by rw [State.safeAfterStop, if_neg (by rw [group]; exact dark)]
    rw [idle] at group' chans'
    exact ⟨group'.trans group, fun n mem => (chans' n (mem_chansOf.mp mem)).trans (chans n (mem_chansOf.mp mem))⟩

/-- Settles O36: STOP by what it refuses or schedules, the stop tick by what a stop keeps, the safe states group by group. -/
theorem stopSequence : Obligations.StopSequence := by
  intro s t c e
  refine ⟨fun can form running => ⟨stop_onTrial can form running, fun steady leads first => stop_schedules can form running steady leads first⟩,
    fun q stop goes running => ⟨fun due => ?_, fun early => ⟨_, exec_stopTick_early stop early t, rfl⟩⟩, fun n due => stopSafeStates_apply due t⟩
  obtain ⟨app, dmem, swap, chans, groups⟩ := halt_ends (s.at t)
  obtain ⟨batches, reads⟩ := halt_edits (s.at t)
  refine ⟨_, exec_stopTick_due stop due running goes t, ?_, ?_, dmem, batches, reads, swap, chans, groups, halt_room (s.at t)⟩ <;> rw [app]
  · rfl
  · rfl

end Sys2Proof.Machine
end

section
/-! PROOFS. Driver commands that complete (R353): why START of an unsettled pair queues two writes, not one. -/

namespace Sys2Proof.Machine

/-! ### What a change of role writes (R383, R404) -/

theorem channelEvent_nv (s : State) (typ src : Nat) (sev : BitVec 2) (offs : List Nat) : (s.channelEvent typ src sev offs).nv = s.nv := by
  unfold State.channelEvent
  split
  · rw [gbEvent_alone]
    rfl
  · rfl

theorem latchRate_nv (s : State) (n : ChanId) : (s.latchRate n).nv = s.nv := by
  unfold State.latchRate State.latchChan
  dsimp only
  split
  · rfl
  · exact channelEvent_nv ..

theorem driveChan_nv (s : State) (n : ChanId) (commit : Bool) : (s.driveChan n commit).nv = s.nv := by
  rcases driveChan_eq s n commit with eq | eq <;> rw [eq]
  · rfl
  · exact latchRate_nv ..

theorem driveGroup_nv (s : State) (g : GrpId) : (s.driveGroup g).nv = s.nv := foldl_keeps_key State.nv (fun s n => driveChan_nv s n false) (chansOf g) s

theorem driveAll_nv (s : State) : s.driveAll.nv = s.nv := foldl_keeps_key State.nv driveGroup_nv (fins 12) s

theorem applyRole_nv (s : State) : s.applyRole.nv = s.nv :=
  (canRefreshAll_key State.nv (fun _ _ _ => rfl) _).trans ((driveAll_nv _).trans (supervise_key State.nv (fun _ _ _ => rfl) s s.isRelief))

/-- A change of role queues the role record (R404). -/
theorem setRole_writes (s : State) (role : BitVec 2) (reason : BitVec 3) (sev : BitVec 2) :
    (s.setRole role reason sev).nv.writes = s.nv.writes + 1 := by
  unfold State.setRole State.writeRole
  dsimp only
  rw [applyRole_nv, gbEvent_alone, raiseNow_alone, recWrite_alone]

section
variable {s : State} {cf : Conf} (stored : s.app.stored = some cf) (open' : s.pair.settled = false) (pair : cf.way.pair = true)
include stored open' pair

theorem settleByStart_writes : s.settleByStart.nv.writes = s.nv.writes + 1 := by
  rw [settleByStart_settles stored open' pair, flushLate_alone]
  dsimp only
  rw [setRole_writes]

/-- START that settles a role queues the role record and the run flag. -/
theorem startAsked_writes (ref : CmdRef) : (s.startAsked cf ref).nv.writes = s.nv.writes + 2 := by
  obtain ⟨busy, queue, same⟩ := startAsked_alone stored ref
  have writes : (s.startAsked cf ref).nv.writes = s.settleByStart.nv.writes + 1 := (congrArg (fun s => s.nv.writes) same :)
  rw [writes, settleByStart_writes stored open' pair]

end

/-- The stored configuration of a pair. -/
def Conf.ofPair : Conf := { (default : Conf) with way := { (default : Conf).way with pair := true } }

/-- A module of a pair that runs alone, its role unsettled, with a command of ring 0 announced. -/
def State.unsettled : State := { State.reset with
  phase := .running
  app := { App.init with stored := some Conf.ofPair }
  host := { HostIf.init with
    active := true
    busMaster := true
    rings := Vector.replicate 21 { RingCfg.init with enable := true }
    cmdTail := Vector.replicate 8 1 } }

/-- A command entry without operands. -/
def CmdEntry.blank : CmdEntry := { flags := 0, tag := 0, body := [] }

/-- Refutes O60: its clause on START counts one write, and START of a pair whose role is not settled queues two. In `State.unsettled` it
queues the role record and the run flag. -/
theorem not_driverCommandsComplete : ¬ Obligations.DriverCommandsComplete := by
  intro h
  have begins : State.unsettled.mayBegin 0 = true := by decide
  have form : CmdEntry.blank.formOk 0 [] = true := by decide
  obtain ⟨-, -, plain, -⟩ := h.1 State.unsettled 0 0 CmdEntry.blank [] begins rfl
  obtain ⟨-, start, -⟩ := plain form
  obtain ⟨s', run, -, -, -, -, writes⟩ := start Conf.ofPair rfl rfl rfl rfl rfl rfl
  rw [exec_start begins rfl form rfl rfl rfl rfl rfl rfl] at run
  rw [← Host.Outcome.next.inj run, startAsked_writes (cf := Conf.ofPair) rfl rfl rfl] at writes
  have one : 2 = 1 := Nat.add_left_cancel writes
  contradiction

end Sys2Proof.Machine
end

section
/-! PROOFS. The night porter: keys, windows, warning and expiry (R406 to R414). -/

namespace Sys2Proof.Machine

/-! ### The warning (R411) -/

/-- The warning stands with its evidence, not yet told. -/
def State.warnedOf (s : State) (cause : Nat) : State :=
  let s := (s.latchEvidence cause false).mark 0x100C 8
  { s with np := { s.np with
      stage := true
      warn := true
      wcause := BitVec.ofNat 3 cause
      warns := satInc s.np.warns
      second := s.tb + s.np.period.toNat
      faultAt := s.tb
      appAfter := false
      stwAfter := false } }

theorem npWarn_eq {s : State} (steward : s.steward = true) (cause : Nat) : s.npWarn cause =
    ((s.warnedOf cause).raiseNow 2).gbEvent 0x70 cause sevFault ((s.warnedOf cause).raiseNow 2).npWords := by
  have runs : ((s.warnedOf cause).raiseNow 2).steward = true := by
    have phase : ((s.warnedOf cause).raiseNow 2).phase = s.phase := by
      rw [raiseNow_alone]
      rfl
    rw [State.steward, phase]
    exact steward
  exact if_pos runs

/-- From s to s' a first fault has warned: cause, evidence and second period are set, it is recorded, and the lanes run on (R411). -/
def State.Warned (s s' : State) (cause : Nat) : Prop :=
  s'.np.stage = true ∧ s'.np.warn = true ∧ s'.np.wcause = BitVec.ofNat 3 cause ∧ s'.np.warns = satInc s.np.warns ∧
    s'.np.second = s'.tb + s.np.period.toNat ∧ s'.np.expired = false ∧ s'.recorded 0x70 cause sevFault ∧ s'.scan = s.scan ∧ LanesKept s s'

theorem npWarn_alone {s : State} (steward : s.steward = true) (cause : Nat) :
    ∃ host out gb, s.npWarn cause = { s.warnedOf cause with host := host, out := out, gb := gb } := by
  rw [npWarn_eq steward, gbEvent_alone, raiseNow_alone]
  exact ⟨_, _, _, rfl⟩

theorem npWarn_warns {s : State} (steward : s.steward = true) (live : s.np.expired = false) (cause : Nat) : s.Warned (s.npWarn cause) cause := by
  have told : (s.npWarn cause).recorded 0x70 cause sevFault := by
    rw [npWarn_eq steward cause]
    exact gbEvent_recorded ..
  obtain ⟨_, _, _, same⟩ := npWarn_alone steward cause
  refine ⟨?_, ?_, ?_, ?_, ?_, ?_, told, ?_, ?_, ?_, ?_⟩ <;> rw [same]
  case refine_5 => rfl
  case refine_6 => exact live
  all_goals rfl

/-! ### The expiry (R412 to R414) -/

theorem porter_of_portless {s s' : State} (h : s'.portless = s.portless) : s'.np = s.np ∧ s'.tb = s.tb :=
  ⟨(congrArg State.np h :), (congrArg State.tb h :)⟩

theorem silence_porter (s : State) : s.silence.np = s.np ∧ s.silence.tb = s.tb := by
  have kept := porter_of_portless (canSilence_portless (s.cutHandOver s.tb))
  unfold State.silence
  dsimp only
  generalize (s.cutHandOver s.tb).canSilence = s₁ at kept
  exact kept

/-- The night porter has expired, its outputs not yet silenced. -/
def State.expiredOf (s : State) (cause : Nat) : State :=
  let s := s.latchEvidence cause true
  { s with np := { s.np with expired := true, expAt := s.tb } }

theorem npExpire_eq {s : State} (live : s.np.expired = false) (cause : Nat) : s.npExpire cause =
    if s.scan.faulted = true ∧ s.scan.faultAt ≠ s.now then
      { (s.expiredOf cause).silence with scan := (s.expiredOf cause).silence.scan.more }
    else (s.expiredOf cause).silence := by
  unfold State.npExpire
  rw [if_neg (by rw [live]; exact Bool.false_ne_true)]
  rfl

/-- From s to s' the night porter has expired: the lanes stop at once, FAULT_N is asserted within 1 µs, rooms and memory stay (R413). -/
def State.Expires (s s' : State) : Prop :=
  s'.np.expired = true ∧ s'.np.expAt = s'.tb ∧ s'.scan.lanes = false ∧ s'.pwr.faultHold = true ∧
    (∃ x, s'.pwr.faultAt = some x ∧ x ≤ s'.now + usCycles) ∧ s'.rooms = s.rooms ∧ s'.dmem = s.dmem

theorem expiredOf_silence (s : State) (cause : Nat) : s.Expires (s.expiredOf cause).silence := by
  obtain ⟨⟨rooms, dmem, -⟩, scan, asserts, hold⟩ := silence_stops (s.expiredOf cause)
  obtain ⟨np, tb⟩ := silence_porter (s.expiredOf cause)
  rw [State.Expires, np, tb, scan]
  exact ⟨rfl, rfl, rfl, hold, asserts, rooms, dmem⟩

theorem npExpire_expires {s : State} (live : s.np.expired = false) (cause : Nat) : s.Expires (s.npExpire cause) := by
  have expires := expiredOf_silence s cause
  rw [npExpire_eq live cause]
  generalize (s.expiredOf cause).silence = s₁ at expires
  split
  · exact expires
  · exact expires

theorem npExpire_now {s : State} (live : s.np.expired = false) (cause : Nat) : (s.npExpire cause).now = s.now := by
  obtain ⟨-, -, now⟩ := silence_clocking (s.expiredOf cause)
  rw [npExpire_eq live cause]
  generalize (s.expiredOf cause).silence = s₁ at now
  split
  · exact now
  · exact now

/-! ### Faults and keys (R409, R410) -/

section
variable {s : State} (live : s.np.expired = false)
include live

theorem npFault_first (first : s.np.stage = false) (cause : Nat) : s.npFault cause = s.npWarn cause := by
  simp [State.npFault, live, first]

theorem npFault_second (second : s.np.stage = true) (later : s.np.faultAt ≠ s.tb) (cause : Nat) : s.npFault cause = s.npExpire cause := by
  simp [State.npFault, live, second, later]

/-- The steward's key accepted. -/
def State.keyAccepted (s : State) : State := { s with np := { s.np with
  stwok := true
  lastStw := BitVec.ofNat 64 s.tb
  stwAfter := s.np.stwAfter || (s.np.stage && s.np.openedAfter) } }

theorem npKey_accepts (open' : s.np.open'.toNat ≤ s.tb - s.np.start) (close : s.tb - s.np.start < s.np.close.toNat) (first : s.np.stwok = false) :
    s.npKey false 0xA5C3 = s.keyAccepted.npRecover := by
  unfold State.npKey
  simp only [Bool.false_eq_true, if_false]
  rw [if_neg (by simp [stewardKeyValue]), if_neg (by omega), if_neg (by simp [first]), if_neg (by simp [live])]
  rfl

end

theorem npKey_wrong (s : State) {key : BitVec 16} (wrong : key ≠ 0xA5C3) : s.npKey false key = s.npFault 6 := by
  unfold State.npKey
  dsimp only
  rw [if_pos (by exact wrong)]

theorem npKey_outside {s : State} (outside : s.tb - s.np.start < s.np.open'.toNat ∨ s.np.close.toNat ≤ s.tb - s.np.start) :
    s.npKey false 0xA5C3 = s.npFault 4 := by
  unfold State.npKey
  dsimp only
  rw [if_neg (by simp [stewardKeyValue]), if_pos outside]

theorem npKey_again {s : State} (open' : s.np.open'.toNat ≤ s.tb - s.np.start) (close : s.tb - s.np.start < s.np.close.toNat)
    (again : s.np.stwok = true) : s.npKey false 0xA5C3 = s.npFault 5 := by
  unfold State.npKey
  dsimp only
  rw [if_neg (by simp [stewardKeyValue]), if_neg (by omega), if_pos (by simp [again])]

/-- A recovery ends the warning's stage and nothing else (R412). -/
theorem npRecover_alone (s : State) : ∃ stage, s.npRecover = { s with np := { s.np with stage := stage } } ∧ (s.np.stage = false → stage = false) := by
  unfold State.npRecover
  split
  · exact ⟨false, rfl, fun _ => rfl⟩
  · exact ⟨s.np.stage, rfl, id⟩

/-! ### Windows (R407, R410) -/

theorem tb_congr {s s' : State} (now : s'.now = s.now) (zero : s'.tb0 = s.tb0) (off : s'.pair.tbOff = s.pair.tbOff) : s'.tb = s.tb := by
  rw [State.tb, State.tb, now, zero, off]

/-- A window that closes fed, in boot mode: the next period begins (R407). -/
theorem npJudge_boot {s : State} (boot : s.np.mode = false) (fed : s.np.stwok = true) :
    s.npJudge = { s with np := s.np.begin (s.np.start + s.np.close.toNat) } := by
  simp [State.npJudge, boot, fed]

section
variable {s : State} (admitted : s.np.mode = true)
include admitted

/-- A window that closes fed, in admitted mode: nothing but that it has closed. -/
theorem npJudge_fed (app : s.np.appok = true) (stw : s.np.stwok = true) : s.npJudge = { s with np := { s.np with closed := true } } := by
  simp [State.npJudge, admitted, app, stw]

/-- The cause of the keys that a window lacks at its close (R410). -/
def Porter.lacking (n : Porter) : Nat := if n.appok then 2 else if n.stwok then 1 else 3

theorem warnedOf_mode (s : State) (cause : Nat) : (s.warnedOf cause).np.mode = s.np.mode := rfl

/-- A window that closes unfed warns, and has closed. -/
theorem npJudge_unfed (unfed : s.np.appok = false ∨ s.np.stwok = false) (live : s.np.expired = false) (first : s.np.stage = false)
    (steward : s.steward = true) : s.npJudge = { s.npWarn s.np.lacking with np := { (s.npWarn s.np.lacking).np with closed := true } } := by
  have mode (cause : Nat) : (s.npWarn cause).np.mode = true := by
    obtain ⟨_, _, _, same⟩ := npWarn_alone steward cause
    rw [same]
    exact admitted
  unfold State.npJudge Porter.lacking
  cases app : s.np.appok <;> cases stw : s.np.stwok
  · simp [admitted, npFault_first live first, mode]
  · simp [admitted, npFault_first live first, mode]
  · simp [npFault_first live first, mode]
  · simp [app, stw] at unfed

end

/-- A warning stays one as its window closes. -/
theorem State.Warned.closed {s s' : State} {cause : Nat} (h : s.Warned s' cause) : s.Warned { s' with np := { s'.np with closed := true } } cause := h

/-- Outside a boot period that is over, nothing closes before a key. -/
theorem npBootClose_stays {s : State} {t : Nat} (open' : ¬(s.np.mode = false ∧ s.np.start + s.np.close.toNat ≤ (s.at t).tb)) :
    s.npBootClose t = s := by
  refine if_neg fun ⟨boot, _, past⟩ => open' ⟨boot, ?_⟩
  simpa using past

section
variable {s : State} {t : Nat} (boot : s.np.mode = false) (live : s.np.expired = false) (past : s.np.start + s.np.close.toNat ≤ (s.at t).tb)
  (inTime : s.npCloseCycle ≤ s.then t) (fed : s.np.stwok = true)
include boot live past inTime fed

/-- A boot period that is over ends as fed before the key, which falls into the period then in progress (R407). -/
theorem npBootClose_begins : s.npBootClose t = { s.at s.npCloseCycle with np := { s.np.begin 0 with
    start := (s.at t).tb - ((s.at t).tb - (s.np.start + s.np.close.toNat)) % s.np.close.toNat } } := by
  have now : max (max s.now s.npCloseCycle) t = max s.now t := by
    have : s.npCloseCycle ≤ max s.now t := inTime
    omega
  have tb : State.tb (State.at { s.at s.npCloseCycle with np := s.np.begin (s.np.start + s.np.close.toNat) } t) = (s.at t).tb :=
    tb_congr now rfl rfl
  unfold State.npBootClose
  dsimp only
  rw [if_pos ⟨boot, live, by simpa using past⟩, npJudge_boot (s := s.at s.npCloseCycle) boot fed]
  simp only [State.at_np, tb]
  rfl

end

/-! ### The commands -/

section
variable {s : State} (steward : s.steward = true)
include steward

theorem exec_stewardKey (t : Nat) (key : BitVec 16) : exec (.stewardKey t key) s = .next (((s.npBootClose t).at t).npKey false key) :=
  congrArg Host.Outcome.next (if_pos steward)

theorem exec_stewardKey_open {t : Nat} (open' : s.np.mode = true ∨ (s.at t).tb < s.np.start + s.np.close.toNat) (key : BitVec 16) :
    exec (.stewardKey t key) s = .next ((s.at t).npKey false key) := by
  rw [exec_stewardKey steward, npBootClose_stays]
  rintro ⟨boot, past⟩
  rcases open' with admitted | inside
  · rw [boot] at admitted
    contradiction
  · omega

theorem exec_npWindowClose (open' : s.np.closed = false) (live : s.np.expired = false) (t : Nat) :
    exec (.npWindowClose t) s = .next (s.at (max t s.npCloseCycle)).npJudge := by
  refine if_neg ?_
  rintro (off | reset | closed | expired)
  · rw [State.steward, off] at steward; contradiction
  · exact not_inReset_of_steward steward reset
  · rw [open'] at closed; contradiction
  · rw [live] at expired; contradiction

theorem exec_npSecondPeriodEnd (second : s.np.stage = true) (live : s.np.expired = false) (t : Nat) :
    exec (.npSecondPeriodEnd t) s = .next ((s.at (max t (s.cycleOfTb s.np.second))).npExpire 0) := by
  refine if_pos ⟨second, live, fun off => ?_, not_inReset_of_steward steward⟩
  rw [State.steward, off] at steward
  contradiction

end

/-- What a key accepted leaves: it is noted, and no fault has come of it. -/
theorem keyAccepted_leaves (s : State) : let s' := s.keyAccepted.npRecover
    s'.np.stwok = true ∧ s'.np.lastStw = BitVec.ofNat 64 s.tb ∧ s'.np.appok = s.np.appok ∧ s'.np.warn = s.np.warn ∧ s'.np.start = s.np.start ∧
      (s.np.stage = false → s'.np.stage = false) ∧ LanesKept s s' ∧ s'.scan = s.scan := by
  obtain ⟨stage, same, recovers⟩ := npRecover_alone s.keyAccepted
  intro s'
  rw [show s' = _ from same]
  exact ⟨rfl, rfl, rfl, rfl, rfl, recovers, ⟨rfl, rfl, rfl⟩, rfl⟩

section
variable {s : State} {t : Nat} (steward : s.steward = true) (live : s.np.expired = false)
include steward live

/-- The key of a boot period after one that is over and fed is accepted in it (R407, R410). -/
theorem stewardKey_next (boot : s.np.mode = false) (open' : s.np.open' = 0) (long : s.np.close ≠ 0)
    (past : s.np.start + s.np.close.toNat ≤ (s.at t).tb) (inTime : s.npCloseCycle ≤ s.then t) (fed : s.np.stwok = true) :
    ∃ s', exec (.stewardKey t 0xA5C3) s = .next s' ∧ s'.np.stwok = true ∧ s'.np.lastStw = BitVec.ofNat 64 (s.at t).tb ∧ s'.np.warn = s.np.warn ∧
      s'.np.start ≤ (s.at t).tb ∧ (s.at t).tb < s'.np.start + s.np.close.toNat ∧
      ((s.at t).tb - s'.np.start) % s.np.close.toNat = ((s.at t).tb - s.np.start) % s.np.close.toNat ∧ LanesKept s s' ∧ s'.scan = s.scan := by
  let next : State := (s.npBootClose t).at t
  have begins := npBootClose_begins boot live past inTime fed
  have positive : 0 < s.np.close.toNat := Nat.pos_of_ne_zero fun zero => long (BitVec.eq_of_toNat_eq zero)
  have tb : next.tb = (s.at t).tb := by
    have now : max (max s.now s.npCloseCycle) t = max s.now t := by
      have : s.npCloseCycle ≤ max s.now t := inTime
      omega
    refine tb_congr ?_ ?_ ?_ <;> simp only [next, begins]
    · exact now
    · rfl
    · rfl
  have start : next.np.start = (s.at t).tb - ((s.at t).tb - (s.np.start + s.np.close.toNat)) % s.np.close.toNat := by
    simp only [next, begins]
    rfl
  have close : next.np.close = s.np.close := by simp only [next, begins]; rfl
  have opens : next.np.open' = 0 := by simp only [next, begins]; exact open'
  have unfed : next.np.stwok = false := by simp only [next, begins]; rfl
  have alive : next.np.expired = false := by simp only [next, begins]; exact live
  have kept : LanesKept s next ∧ next.scan = s.scan ∧ next.np.warn = s.np.warn := by
    simp only [next, begins]
    exact ⟨⟨rfl, rfl, rfl⟩, rfl, rfl⟩
  have inside := Nat.mod_lt ((s.at t).tb - (s.np.start + s.np.close.toNat)) positive
  have most := Nat.mod_le ((s.at t).tb - (s.np.start + s.np.close.toNat)) s.np.close.toNat
  have phase : ((s.at t).tb - (s.np.start + s.np.close.toNat)) % s.np.close.toNat = ((s.at t).tb - s.np.start) % s.np.close.toNat := by
    rw [← Nat.sub_sub, ← Nat.mod_eq_sub_mod (by omega)]
  have run : exec (.stewardKey t 0xA5C3) s = .next next.keyAccepted.npRecover := by
    rw [exec_stewardKey steward]
    exact congrArg Host.Outcome.next (npKey_accepts alive (by rw [opens]; exact Nat.zero_le _) (by rw [tb, start, close]; omega) unfed)
  obtain ⟨stwok, last, -, warn, started, -, lanes, scan⟩ := keyAccepted_leaves next
  obtain ⟨lanes', scan', warn'⟩ := kept
  refine ⟨_, run, stwok, by rw [last, tb], warn.trans warn', ?_, ?_, ?_, lanes'.trans lanes, scan.trans scan'⟩ <;> rw [started, start]
  · omega
  · omega
  · rw [← phase, Nat.sub_sub_self (by omega), Nat.mod_mod]

/-- A key that is a fault in the period in progress: the first warns, the second expires. -/
theorem stewardKey_fault (running : s.np.mode = true ∨ (s.at t).tb < s.np.start + s.np.close.toNat) {key : BitVec 16} {cause : Nat}
    (fault : (s.at t).npKey false key = (s.at t).npFault cause) :
    (s.np.stage = false → ∃ s', exec (.stewardKey t key) s = .next s' ∧ s.Warned s' cause) ∧
      (s.np.stage = true → s.np.faultAt ≠ (s.at t).tb → ∃ s', exec (.stewardKey t key) s = .next s' ∧ s.Expires s') := by
  have run := exec_stewardKey_open steward running key
  rw [fault] at run
  refine ⟨fun first => ⟨_, run, ?_⟩, fun second later => ⟨_, run, ?_⟩⟩
  · rw [npFault_first (s := s.at t) live first]
    exact npWarn_warns (s := s.at t) steward live cause
  · rw [npFault_second (s := s.at t) live second later]
    exact npExpire_expires (s := s.at t) live cause

/-- A window that closes without a key it needs warns (R410). -/
theorem npWindowClose_unfed (open' : s.np.closed = false) (first : s.np.stage = false) (admitted : s.np.mode = true) {cause : Nat}
    (unfed : s.np.appok = false ∨ s.np.stwok = false) (lacking : s.np.lacking = cause) :
    ∃ s', exec (.npWindowClose t) s = .next s' ∧ s.Warned s' cause ∧ s'.np.closed = true := by
  have run := exec_npWindowClose steward open' live t
  rw [npJudge_unfed (s := s.at _) admitted unfed live first steward] at run
  have warned := npWarn_warns (s := s.at (max t s.npCloseCycle)) steward live cause
  rw [← lacking] at warned ⊢
  exact ⟨_, run, warned.closed, rfl⟩

end

/-- Settles O46: keys by where they fall in the period, closes by what the window lacks, faults by their stage. -/
theorem nightPorter : Obligations.NightPorter := by
  intro s t key steward live tb warned expires
  refine ⟨fun right open' close first => ?accepted, fun boot open' long past inTime fed right => ?next, fun running first => ?fault,
    fun running second later wrong => (stewardKey_fault steward live running (npKey_wrong _ wrong)).2 second later, fun open' => ?close,
    fun second => ?second⟩
  case accepted =>
    subst right
    have run := exec_stewardKey steward t 0xA5C3
    rw [npBootClose_stays fun ⟨_, past⟩ => by have : s.np.start + s.np.close.toNat ≤ tb := past; omega,
      npKey_accepts (s := s.at t) live open' close first] at run
    obtain ⟨stwok, last, app, warn, -, stage, lanes, scan⟩ := keyAccepted_leaves (s.at t)
    exact ⟨_, run, stwok, last, app, warn, stage, lanes, scan⟩
  case next =>
    subst right
    exact stewardKey_next steward live boot open' long past inTime fed
  case fault =>
    refine ⟨fun wrong => ?_, fun right outside => ?_, fun right open' close again => ?_⟩
    · exact (stewardKey_fault steward live running (npKey_wrong _ wrong)).1 first
    · subst right
      exact (stewardKey_fault steward live running (npKey_outside (s := s.at t) outside)).1 first
    · subst right
      exact (stewardKey_fault steward live running (npKey_again (s := s.at t) open' close again)).1 first
  case close =>
    have run := exec_npWindowClose steward open' live t
    refine ⟨fun admitted app stw => ?_, fun first admitted => ⟨fun app stw => ?_, fun app stw => ?_, fun app stw => ?_⟩, fun boot fed => ?_⟩
    · rw [npJudge_fed (s := s.at _) admitted app stw] at run
      exact ⟨_, run, rfl, at_now_due .., rfl, rfl, rfl⟩
    · exact npWindowClose_unfed steward live open' first admitted (.inl app) (by simp [Porter.lacking, app, stw])
    · exact npWindowClose_unfed steward live open' first admitted (.inr stw) (by simp [Porter.lacking, app])
    · exact npWindowClose_unfed steward live open' first admitted (.inl app) (by simp [Porter.lacking, app, stw])
    · rw [npJudge_boot (s := s.at _) boot fed] at run
      exact ⟨_, run, rfl, rfl, rfl, live⟩
  case second =>
    have run := exec_npSecondPeriodEnd steward second live t
    exact ⟨_, run, npExpire_expires (s := s.at _) live 0, (npExpire_now (s := s.at _) live 0).trans (at_now_due ..)⟩

end Sys2Proof.Machine
end

section
/-! PROOFS. Owner keys, updates, confirmation and attestation (R480 to R490). -/

namespace Sys2Proof.Machine

/-! ### Owner keys (R480, R481) -/

theorem fld_action (val : Word) : fld val.toNat 0 2 = val.toNat % 4 := by simp [fld]
theorem fld_slot (val : Word) : fld val.toNat 2 2 = val.toNat / 4 % 4 := by simp [fld]

theorem ownResult_none (s : State) (st : BitVec 16) : s.ownResult st none = { s with sec := { s.sec with ownStatus := st } } := rfl

theorem ownResult_some (s : State) (st : BitVec 16) (n : Nat) :
    (s.ownResult st (some n)).recorded 0x96 n sevNotice ∧ s.ownResult st (some n) = { s with
      sec := { s.sec with ownStatus := st, ownSlot := BitVec.ofNat 2 n }, gb := (s.ownResult st (some n)).gb } :=
  ⟨gbEvent_recorded .., gbEvent_alone ..⟩

/-- A digest whose bytes are all zero comes from words that are all zero. -/
theorem ofLe_of_zeros {bs : List Byte} (zeros : bs.all (· == 0) = true) : ofLe bs = 0 := by
  induction bs with
  | nil => rfl
  | cons b bs ih =>
    simp only [List.all_cons, Bool.and_eq_true, beq_iff_eq] at zeros
    simp [ofLe, zeros.1, ih zeros.2]

theorem digest_not_zero {ws : Vector Word 16} {k : Fin 16} (some' : ws[k] ≠ 0) :
    (ws.toList.flatMap fun (w : Word) => toLe 4 w.toNat).all (· == 0) = false := by
  rw [Bool.eq_false_iff]
  intro zeros
  rw [List.all_flatMap, List.all_eq_true] at zeros
  have word := ofLe_of_zeros (zeros ws[k] (by simp))
  rw [ofLe_toLe, Nat.mod_eq_of_lt (by have := ws[k].isLt; omega)] at word
  exact some' (BitVec.eq_of_toNat_eq word)

/-- The lowest of four slots that is free. -/
theorem find_lowest_free {used : BitVec 4} {i : Fin 4} (free : used.getLsbD i.val = false) (low : ∀ j < i.val, used.getLsbD j = true) :
    (List.range 4).find? (fun i => !used.getLsbD i) = some i.val := by
  rw [List.find?_range_eq_some]
  exact ⟨by rw [free]; rfl, by simp, fun j less => by rw [low j less]; rfl⟩

/-- One fuse of four burns. -/
theorem getLsbD_burn (x : BitVec 4) (i : Fin 4) : (x ||| (1 <<< i.val)).getLsbD i.val = true ∧
    ∀ j, j ≠ i.val → (x ||| (1 <<< i.val)).getLsbD j = x.getLsbD j := by
  have fuse (j : Nat) : ((1 <<< i.val : Nat) : BitVec 4).getLsbD j = decide (j = i.val) := by
    rw [BitVec.natCast_eq_ofNat, BitVec.getLsbD_ofNat, Nat.one_shiftLeft, Nat.testBit_two_pow]
    grind
  refine ⟨?_, fun j other => ?_⟩ <;> rw [BitVec.getLsbD_or, fuse]
  · simp
  · simp [other]

section
variable {s : State} {val : Word} (steward : s.steward = true) (key : val.toNat / 2 ^ 16 = 0xB0E5)
include steward key

section
variable (enrol : val.toNat % 4 = 1)
include enrol

theorem ownerKeyEnrol_keyed : s.steward = true ∧ fld val.toNat 16 16 = 0xB0E5 ∧ fld val.toNat 0 2 = 1 := by
  rw [fld_upperHalf, fld_action]
  exact ⟨steward, key, enrol⟩

theorem exec_ownerKeyEnrol_busy {st : BitVec 16} (busy : s.ownBusy = some st) (t : Nat) :
    exec (.ownerKeyEnrol t val) s = .next ((s.at t).ownResult st none) := by
  change execOwnerKeyEnrol t val s = _
  have busy' : (s.at t).ownBusy = some st := busy
  simp only [execOwnerKeyEnrol, busy', State.at_steward, if_pos (ownerKeyEnrol_keyed steward key enrol)]

theorem exec_ownerKeyEnrol_full (idle : s.ownBusy = none) (full : s.sec.oset = 0xF) (t : Nat) :
    exec (.ownerKeyEnrol t val) s = .next ((s.at t).ownResult 0x0509 none) := by
  change execOwnerKeyEnrol t val s = _
  have idle' : (s.at t).ownBusy = none := idle
  have full' : (s.at t).sec.oset = 0xF := full
  have none' : (List.range 4).find? (fun i => !(0xF : BitVec 4).getLsbD i) = none := by decide
  simp only [execOwnerKeyEnrol, idle', State.at_steward, if_pos (ownerKeyEnrol_keyed steward key enrol), full', none']

theorem exec_ownerKeyEnrol_free (idle : s.ownBusy = none) {i : Fin 4} (free : s.sec.oset.getLsbD i.val = false)
    (low : ∀ j < i.val, s.sec.oset.getLsbD j = true) {k : Fin 16} (some' : s.sec.enroll[k] ≠ 0) (t : Nat) :
    exec (.ownerKeyEnrol t val) s = .next (({ s.at t with sec := { s.sec with
      oset := s.sec.oset ||| (1 <<< i.val)
      ohash := vset s.sec.ohash i.val (s.sec.enroll.toList.flatMap fun (w : Word) => toLe 4 w.toNat) } } : State).ownResult 0 (some i.val)) := by
  change execOwnerKeyEnrol t val s = _
  have idle' : (s.at t).ownBusy = none := idle
  have slot : (List.range 4).find? (fun i => !(s.at t).sec.oset.getLsbD i) = some i.val := find_lowest_free free low
  have digest : ((s.at t).sec.enroll.toList.flatMap fun (w : Word) => toLe 4 w.toNat).all (· == 0) = false := digest_not_zero some'
  simp only [execOwnerKeyEnrol, idle', State.at_steward, if_pos (ownerKeyEnrol_keyed steward key enrol), slot, digest, Bool.false_eq_true, if_false]
  rfl

end

section
variable (revoke : val.toNat % 4 = 2)
include revoke

theorem ownerKeyRevoke_keyed : s.steward = true ∧ fld val.toNat 16 16 = 0xB0E5 ∧ fld val.toNat 0 2 = 2 := by
  rw [fld_upperHalf, fld_action]
  exact ⟨steward, key, revoke⟩

theorem exec_ownerKeyRevoke_busy {st : BitVec 16} (busy : s.ownBusy = some st) (t : Nat) :
    exec (.ownerKeyRevoke t val) s = .next ((s.at t).ownResult st none) := by
  change execOwnerKeyRevoke t val s = _
  have busy' : (s.at t).ownBusy = some st := busy
  simp only [execOwnerKeyRevoke, busy', State.at_steward, if_pos (ownerKeyRevoke_keyed steward key revoke)]

theorem exec_ownerKeyRevoke_judged (idle : s.ownBusy = none) {i : Fin 4} (slot : val.toNat / 4 % 4 = i.val) (t : Nat) :
    exec (.ownerKeyRevoke t val) s = .next (if s.keepsKey i.val then (s.at t).ownResult 0x050A none
      else ({ s.at t with sec := { s.sec with orev := s.sec.orev ||| (1 <<< i.val) } } : State).ownResult 0 (some i.val)) := by
  change execOwnerKeyRevoke t val s = _
  have idle' : (s.at t).ownBusy = none := idle
  have kept : (s.at t).keepsKey i.val = s.keepsKey i.val := rfl
  simp only [execOwnerKeyRevoke, idle', State.at_steward, if_pos (ownerKeyRevoke_keyed steward key revoke), fld_slot, slot, kept]
  split <;> rfl

end

end

theorem ownBusy_running {s : State} (exam : s.inn.exam = none) (running : s.app.running = true) : s.ownBusy = some 0x0241 := by
  simp [State.ownBusy, exam, running]

theorem ownBusy_stopped {s : State} (exam : s.inn.exam = none) (stopped : s.app.running = false) : s.ownBusy = none := by
  simp [State.ownBusy, exam, stopped]

theorem ownerKeys : Stated.OwnerKeys := by
  intro s t val i steward key exam
  refine ⟨fun running => ⟨fun enrol => ?_, fun revoke => ?_⟩,
    fun stopped => ⟨fun enrol free low ⟨k, some'⟩ => ?_, fun enrol full => ?_, fun slot revoke => ⟨fun keeps => ?_, fun goes => ?_⟩⟩⟩
  · exact ⟨_, exec_ownerKeyEnrol_busy steward key enrol (ownBusy_running exam running) t, rfl⟩
  · exact ⟨_, exec_ownerKeyRevoke_busy steward key revoke (ownBusy_running exam running) t, rfl⟩
  · obtain ⟨burnt, others⟩ := getLsbD_burn s.sec.oset i
    refine ⟨_, exec_ownerKeyEnrol_free steward key enrol (ownBusy_stopped exam stopped) free low some' t, ?_⟩
    obtain ⟨recorded, same⟩ := ownResult_some ({ s.at t with sec := { s.sec with
      oset := s.sec.oset ||| (1 <<< i.val)
      ohash := vset s.sec.ohash i.val (s.sec.enroll.toList.flatMap fun (w : Word) => toLe 4 w.toNat) } } : State) 0 i.val
    refine ⟨?_, ?_, ?_, fun j other => ?_, ?_, ?_, ?_, recorded, ?_⟩ <;> rw [same]
    · exact burnt
    · exact others
    · simp [vset]
    · exact vset_other _ _ _ j fun eq => other (Fin.ext eq)
    · exact ⟨rfl, rfl, rfl⟩
  · exact ⟨_, exec_ownerKeyEnrol_full steward key enrol (ownBusy_stopped exam stopped) full t, rfl⟩
  · have run := exec_ownerKeyRevoke_judged steward key revoke (ownBusy_stopped exam stopped) slot t
    rw [if_pos keeps] at run
    exact ⟨_, run, rfl⟩
  · obtain ⟨burnt, others⟩ := getLsbD_burn s.sec.orev i
    have run := exec_ownerKeyRevoke_judged steward key revoke (ownBusy_stopped exam stopped) slot t
    rw [if_neg (by simp [goes])] at run
    refine ⟨_, run, ?_⟩
    obtain ⟨recorded, same⟩ := ownResult_some ({ s.at t with sec := { s.sec with orev := s.sec.orev ||| (1 <<< i.val) } } : State) 0 i.val
    refine ⟨?_, ?_, ?_, ?_, ?_, recorded, ?_⟩ <;> rw [same]
    · exact burnt
    · exact others
    · exact ⟨rfl, rfl, rfl⟩

/-! ### Chunks of an update (R484, R485) -/

theorem image_setImage_same (c : Sec) (x : Bool) (img : List Byte) : (c.setImage x img).image x = img := by cases x <;> rfl
theorem image_setImage_other (c : Sec) (x : Bool) (img : List Byte) : (c.setImage (!x) img).image x = c.image x := by cases x <;> rfl
theorem slotState_setState_same (c : Sec) (x : Bool) (st : SlotSt) : (c.setState x st).slotState x = st := by cases x <;> rfl
theorem slotState_setState_other (c : Sec) (x : Bool) (st : SlotSt) : (c.setState (!x) st).slotState x = c.slotState x := by cases x <;> rfl
theorem image_setState (c : Sec) (x : Bool) (st : SlotSt) : (c.setState x st).image = c.image := by cases x <;> rfl

/-- What of a slot stands below a chunk (R484). -/
def chunkHead (img : List Byte) (off : Nat) : List Byte := (img ++ List.replicate (off - img.length) 0xFF).take off

theorem length_chunkHead (img : List Byte) (off : Nat) : (chunkHead img off).length = off := by
  simp only [chunkHead, List.length_take, List.length_append, List.length_replicate]
  omega

theorem programChunk_eq (img : List Byte) (off : Nat) (bs : List Byte) : ∃ rest, programChunk img off bs = chunkHead img off ++ (bs ++ rest) :=
  ⟨_, by rw [programChunk, chunkHead, List.append_assoc, List.append_assoc]⟩

/-- A chunk reads back as it was sent. -/
theorem slice_programChunk (img : List Byte) (off : Nat) (bs : List Byte) : slice (programChunk img off bs) off bs.length = bs := by
  obtain ⟨rest, eq⟩ := programChunk_eq img off bs
  rw [eq, slice_append_right _ _ _ (length_chunkHead img off).le, length_chunkHead, Nat.sub_self, slice_append_left _ _ (Nat.zero_add _).le, slice_all]

/-- What stands below a chunk stays. -/
theorem byteAt_programChunk {img : List Byte} {off i : Nat} (below : i < off) (inside : i < img.length) (bs : List Byte) :
    byteAt (programChunk img off bs) i = byteAt img i := by
  obtain ⟨rest, eq⟩ := programChunk_eq img off bs
  rw [eq, byteAt, List.getD_append _ _ _ _ (by rwa [length_chunkHead])]
  simp [byteAt, chunkHead, List.getD_eq_getElem?_getD, below, List.getElem?_append_left inside]

/-- The security figures once a chunk has begun; the first one empties the slot that it goes to (R485). -/
def Sec.chunkBegun (c : Sec) (ref : CmdRef) (off : Nat) (d : List Byte) : Sec :=
  { if off = 0 then { c.setState (!c.active) .empty with updActive := true, updNext := 0 } else c with chunk := some (ref, off, d) }

theorem chunkBegun_slots (c : Sec) (ref : CmdRef) (off : Nat) (d : List Byte) :
    (c.chunkBegun ref off d).image c.active = c.image c.active ∧ (c.chunkBegun ref off d).slotState c.active = c.slotState c.active ∧
      (off = 0 → (c.chunkBegun ref off d).slotState (!c.active) = .empty ∧ (c.chunkBegun ref off d).updActive = true) := by
  unfold Sec.chunkBegun
  by_cases first : off = 0
  · simp only [if_pos first]
    exact ⟨congrFun (image_setState c (!c.active) .empty) _, slotState_setState_other c c.active .empty,
      fun _ => ⟨slotState_setState_same c (!c.active) .empty, trivial⟩⟩
  · simp only [if_neg first]
    exact ⟨rfl, rfl, fun zero => absurd zero first⟩

section
variable {s : State} {t : Nat} {c : RingId} {e : CmdEntry} {bs : List Byte}

theorem updateChunk_begins (can : s.CanAnswer c) (idle : s.sec.chunk = none) (passes : ∀ k ∈ chunkChecks e (some bs) s, k.1 = false) :
    ∃ s' ref, exec (.updateChunk t c e (some bs)) s = .next s' ∧
      Awaits s s' c e 0x80 ∧ s'.host.inProg[c] = some ref ∧ s'.sec.chunk = some (ref, e.w 4, slice bs 0 (e.w 8)) ∧
      s'.sec.image s.sec.active = s.sec.image s.sec.active ∧ s'.sec.slotState s.sec.active = s.sec.slotState s.sec.active ∧
      (e.w 4 = 0 → s'.sec.slotState (!s.sec.active) = .empty ∧ s'.sec.updActive = true) ∧ LanesKept s s' := by
  have run : exec (.updateChunk t c e (some bs)) s =
      .next { s.taken t c e 0x80 with sec := s.sec.chunkBegun (s.refOf c e 0x80) (e.w 4) (slice bs 0 (e.w 8)) } := by
    change execUpdateChunk t c e (some bs) s = _
    rw [execUpdateChunk, idle, if_neg (by simp), command_passes can.1 can.2.1 (by exact passes)]
    rfl
  obtain ⟨image, state, first⟩ := chunkBegun_slots s.sec (s.refOf c e 0x80) (e.w 4) (slice bs 0 (e.w 8))
  exact ⟨_, _, run, taken_awaits (t := t) rfl, taken_inProg s t c e 0x80, rfl, image, state, first, rfl, rfl, rfl⟩

theorem exec_updateChunk_busy {x : CmdRef × Nat × List Byte} (busy : s.sec.chunk = some x) (dma : Option (List Byte)) :
    exec (.updateChunk t c e dma) s = .next (s.at t) := by
  change execUpdateChunk t c e dma s = _
  rw [execUpdateChunk, busy]
  rfl

theorem exec_activate_busy {x : CmdRef × Nat × List Byte} (busy : s.sec.chunk = some x) : exec (.activate t c e) s = .next (s.at t) := by
  change execActivate t c e s = _
  rw [execActivate, busy]
  rfl

/-- The security figures once a chunk is in flash. -/
def Sec.chunkDone (c : Sec) (off : Nat) (d : List Byte) : Sec :=
  { c.setImage (!c.active) (programChunk (c.image (!c.active)) off d) with chunk := none, updNext := BitVec.ofNat 25 (off + d.length) }

theorem updateChunkComplete_programs {ref : CmdRef} {off : Nat} {d : List Byte} (busy : s.sec.chunk = some (ref, off, d)) :
    ∃ s', exec (.updateChunkComplete t) s = .next s' ∧ s'.sec = s.sec.chunkDone off d ∧ Finishes s s' ref 0 (toLe 4 d.length) ∧ LanesKept s s' := by
  have run : exec (.updateChunkComplete t) s =
      .next (({ s.at t with sec := s.sec.chunkDone off d } : State).complete ref 0 (toLe 4 d.length)) := by
    change execUpdateChunkComplete t s = _
    have busy' : (s.at t).sec.chunk = some (ref, off, d) := busy
    simp only [execUpdateChunkComplete, busy']
    rfl
  refine ⟨_, run, ?_, (complete_finishes _ ref 0 (toLe 4 d.length)).since rfl List.prefix_rfl, ?_⟩ <;> rw [complete_alone]
  exact ⟨rfl, rfl, rfl⟩

end

/-! ### Activation (R486) -/

theorem out_request {s s₁ : State} (out : s₁.out = s.out) (o : Out) : s.out <+: (s₁.request o).out := by
  rw [← out]
  exact request_out ..

theorem pushBook_out (s : State) (bs : List Byte) : s.out <+: (s.pushBook bs).out := by
  unfold State.pushBook
  dsimp only
  split
  · split
    · split <;> exact (request_out ..).trans (request_out ..)
    · exact out_request (by rfl) _
  · exact List.prefix_rfl

/-- A push to ring E is no matter to a command's end. -/
theorem pushBook_endsAs (s : State) (bs : List Byte) (k : RingId) : (s.pushBook bs).host.EndsAs s.host k := by
  unfold State.pushBook
  dsimp only
  split
  · split
    · split <;> rw [request_alone, request_alone] <;> exact ⟨rfl, rfl, rfl, rfl, rfl, rfl, fun _ _ => rfl⟩
    · rw [request_alone]
      exact ⟨rfl, rfl, rfl, rfl, rfl, rfl, fun _ _ => rfl⟩
  · exact .of_eq rfl k

theorem out_pushBook {s s₁ : State} (out : s₁.out = s.out) (bs : List Byte) : s.out <+: (s₁.pushBook bs).out := by
  rw [← out]
  exact pushBook_out ..

theorem bookNow_pushes (s : State) : ∃ nv host out marks, s.bookNow = { s with nv := nv, host := host, out := out, marks := marks } ∧
    s.out <+: out ∧ ∀ k, host.EndsAs s.host k := by
  unfold State.bookNow
  split
  · exact ⟨_, _, _, _, rfl, List.prefix_rfl, .of_eq rfl⟩
  · split
    · exact ⟨_, _, _, _, rfl, List.prefix_rfl, .of_eq rfl⟩
    · refine ⟨_, _, _, _, pushBook_alone .., ?_, ?_⟩
      · exact out_pushBook (by rfl) _
      · exact fun k => pushBook_endsAs _ _ k

/-- The security figures once the slot that is not active is on trial. -/
def Sec.tried (c : Sec) : Sec := { c.setState (!c.active) .trial with tries := 0, active := !c.active, updActive := false }

/-- A slot activated: it is on trial, and its record is placed at once when the store is ready. -/
def State.activated (s : State) : State :=
  let img := s.sec.image (!s.sec.active)
  let s₁ := ({ s with sec := s.sec.tried } : State).gbEvent 0x94 (b2n (!s.sec.active)) sevNotice
    [BitVec.ofNat 32 (imageVersion img), BitVec.ofNat 32 (u8 img 6)]
  if s₁.nv.ready then s₁.bookNow else s₁

theorem activated_alone (s : State) : ∃ gb nv host out marks,
    s.activated = { s with sec := s.sec.tried, gb := gb, nv := nv, host := host, out := out, marks := marks } ∧
      s.out <+: out ∧ ∀ k, host.EndsAs s.host k := by
  unfold State.activated
  dsimp only
  split
  · obtain ⟨nv, host, out, marks, same, longer, ends⟩ := bookNow_pushes (({ s with sec := s.sec.tried } : State).gbEvent 0x94
      (b2n (!s.sec.active)) sevNotice [BitVec.ofNat 32 (imageVersion (s.sec.image (!s.sec.active))),
        BitVec.ofNat 32 (u8 (s.sec.image (!s.sec.active)) 6)])
    rw [gbEvent_alone] at same longer ends
    rw [gbEvent_alone, same]
    exact ⟨_, _, _, _, _, rfl, longer, ends⟩
  · rw [gbEvent_alone]
    exact ⟨_, _, _, _, _, rfl, List.prefix_rfl, .of_eq rfl⟩

/-- What a reset leaves of a slot and of what has gone out (R66). -/
theorem enterReset_keeps {s : State} (out : s.phase ≠ .inReset) (cause : BitVec 8) : (s.enterReset cause).out = s.out ∧
    (s.enterReset cause).sec.active = s.sec.active ∧ (s.enterReset cause).sec.slotState = s.sec.slotState ∧
    (s.enterReset cause).sec.tries = s.sec.tries := by
  obtain ⟨hold, recent, eq⟩ := enterReset_entering out cause
  have kept (power : Bool) : (s.clear power).out = s.out ∧ ∃ c : Sec, (s.clear power).sec = c ∧ c.active = s.sec.active ∧
      c.slotState = s.sec.slotState ∧ c.tries = s.sec.tries := by
    unfold State.clear
    dsimp only
    split <;> exact ⟨rfl, _, rfl, rfl, rfl, rfl⟩
  obtain ⟨sent, c, sec, active, states, tries⟩ := kept (cause == 1)
  have sec' : (s.enterReset cause).sec = (s.clear (cause == 1)).sec := (congrArg State.sec eq :)
  rw [sec', sec]
  exact ⟨(congrArg State.out eq :).trans sent, active, states, tries⟩

section
variable {s : State} {t : Nat} {c : RingId} {e : CmdEntry} (can : s.CanAnswer c) (idle : s.sec.chunk = none) (form : e.formOk 0 [] = true)
  (exam : s.inn.exam = none) (swap : s.edits.swap = .none)
include can idle form exam swap

theorem exec_activate : exec (.activate t c e) s = .next (if s.sec.activateStatus ≠ 0 then
      (s.taken t c e 0x81).complete (s.refOf c e 0x81) (BitVec.ofNat 16 s.sec.activateStatus) []
    else ((s.taken t c e 0x81).activated.complete (s.refOf c e 0x81) 0 []).enterReset 0x0B) := by
  change execActivate t c e s = _
  rw [execActivate, idle, if_neg (by simp), command_passes can.1 can.2.1 (by simp [Passes, form, exam, swap])]
  rfl

theorem activate_refuses (unsound : s.sec.activateStatus ≠ 0) : ∃ s', exec (.activate t c e) s = .next s' ∧
    Answers s s' c e (BitVec.ofNat 16 s.sec.activateStatus) [] ∧ s'.sec = s.sec ∧ s'.phase = s.phase := by
  have run := exec_activate can idle form exam swap (t := t)
  rw [if_pos unsound] at run
  obtain ⟨s', run, answers, same⟩ := exec_answers can run rfl rfl
  exact ⟨s', run, answers, (congrArg State.sec same :), (congrArg State.phase same :)⟩

theorem activate_resets (sound : s.sec.activateStatus = 0) (running : s.phase = .running) : ∃ s', exec (.activate t c e) s = .next s' ∧
    s'.phase = .inReset ∧ s'.clk.cause = 0x0B ∧ s'.sec.active = !s.sec.active ∧ s'.sec.slotState (!s.sec.active) = .trial ∧ s'.sec.tries = 0 ∧
      ∃ b, CompletionWritten s s' (s.host.cqOf c) b ∧ u16 b 0 = e.tag.toNat ∧ u16 b 2 = 0 := by
  have run := exec_activate can idle form exam swap (t := t)
  rw [if_neg (not_not.mpr sound)] at run
  obtain ⟨_, _, host, out, _, same, longer, ends⟩ := activated_alone (s.taken t c e 0x81)
  have finishes := (complete_finishes (s.taken t c e 0x81).activated (s.refOf c e 0x81) 0 []).of_endsAs (s := s.taken t c e 0x81)
    (by rw [same]; exact ends _) (by rw [same]; exact longer)
  have alone := complete_alone (s.taken t c e 0x81).activated (s.refOf c e 0x81) 0 []
  generalize (s.taken t c e 0x81).activated.complete (s.refOf c e 0x81) 0 [] = s₁ at run finishes alone
  have outside : s₁.phase ≠ .inReset := by rw [alone, same]; exact fun reset => by simp [State.taken, running] at reset
  obtain ⟨sent, active, states, tries⟩ := enterReset_keeps outside 0x0B
  obtain ⟨phase, _, clk⟩ := enterReset_clk outside 0x0B
  have sec : s₁.sec = s.sec.tried := by rw [alone, same]; rfl
  obtain ⟨begins, -, room⟩ := can
  obtain ⟨on, master, free⟩ := rings_of_mayBegin begins
  obtain ⟨b, ⟨length, written⟩, tag, status, -⟩ := (finishes on (taken_inProg ..)).2 master room free
  refine ⟨_, run, phase, by rw [clk]; rfl, by rw [active, sec]; rfl, ?_, by rw [tries, sec]; rfl, b, ?_, tag, status⟩
  · rw [states, sec]
    exact slotState_setState_same s.sec (!s.sec.active) .trial
  · have ends : CompletionWritten (s.taken t c e 0x81) (s₁.enterReset 0x0B) (s.host.cqOf c) b := ⟨length, by rw [sent]; exact written⟩
    exact ends.since rfl rfl (List.prefix_append ..)

end

/-! ### Confirmation (R487) -/

/-- The running slot is confirmed: it is good and the other one old, and its version is burnt. -/
def State.Confirmed (s s' : State) : Prop :=
  s'.sec.slotState s.sec.slot = .good ∧ s'.sec.slotState (!s.sec.slot) = .old ∧ s'.sec.tries = 0 ∧ s.sec.svncnt ≤ s'.sec.svncnt ∧
    u8 (s.sec.image s.sec.slot) 6 ≤ s'.sec.svncnt ∧ s'.sec.image = s.sec.image ∧ s'.sec.oset = s.sec.oset ∧
    s'.recorded 0x92 (b2n s.sec.slot) sevNotice ∧ LanesKept s s'

theorem confirmImage_confirms (s : State) : s.Confirmed s.confirmImage ∧ s.confirmImage.now = s.now := by
  have recorded : s.confirmImage.recorded 0x92 (b2n s.sec.slot) sevNotice := gbEvent_recorded ..
  have same : s.confirmImage = { s with gb := s.confirmImage.gb, sec :=
    { (s.sec.setState s.sec.slot .good).setState (!s.sec.slot) .old with
      tries := 0
      svncnt := max s.sec.svncnt (u8 (s.sec.image s.sec.slot) 6)
      crev := s.sec.crev ||| BitVec.ofNat 4 (u8 (s.sec.image s.sec.slot) 18) } } := gbEvent_alone ..
  refine ⟨⟨?_, ?_, ?_, ?_, ?_, ?_, ?_, recorded, ?_⟩, ?_⟩ <;> rw [same]
  · exact (slotState_setState_other (s.sec.setState s.sec.slot .good) s.sec.slot .old).trans (slotState_setState_same ..)
  · exact slotState_setState_same (s.sec.setState s.sec.slot .good) (!s.sec.slot) .old
  · exact Nat.le_max_left ..
  · exact Nat.le_max_right ..
  · exact (image_setState (s.sec.setState s.sec.slot .good) (!s.sec.slot) .old).trans (image_setState ..)
  · cases slot : s.sec.slot <;> rfl
  · exact ⟨rfl, rfl, rfl⟩

theorem confirm_confirms {s : State} (steward : s.steward = true) (trial : s.sec.onTrial = true) {val : Word} (bit : val.getLsbD 0 = true)
    (key : val.toNat / 2 ^ 16 = 0xC0F1) (t : Nat) : ∃ s', exec (.confirm t val) s = .next s' ∧ s.Confirmed s' :=
  ⟨_, congrArg Host.Outcome.next (if_pos ⟨steward, bit, by rwa [fld_upperHalf], trial⟩), (confirmImage_confirms (s.at t)).1⟩

theorem trialConfirm_confirms {s : State} (steward : s.steward = true) (trial : s.sec.onTrial = true) (judged : s.clk.judged = true) (t : Nat) :
    ∃ s', exec (.trialConfirm t) s = .next s' ∧ s.Confirmed s' ∧
      s'.now = max (s.then t) (s.tb0 + 400 * s.clk.tjudged.toNat + 600 * secCycles) := by
  obtain ⟨confirms, now⟩ := confirmImage_confirms (s.at (max t (s.tb0 + 400 * s.clk.tjudged.toNat + 600 * secCycles)))
  exact ⟨_, if_pos ⟨steward, judged, trial⟩, confirms, now.trans (at_now_due ..)⟩

/-! ### Attestation (R490) -/

theorem reportBody_fields (s : State) (nonce : List Byte) : (s.reportBody nonce).length = 264 ∧ u32 (s.reportBody nonce) 0 = 0x5454414D ∧
    slice (s.reportBody nonce) 16 32 = slice nonce 0 32 := by
  refine ⟨?_, ?_, ?_⟩
  · cases stored : s.app.stored <;> simp [State.reportBody, stored]
  · simp [State.reportBody, u32]
  · simp [State.reportBody, slice_slice]

/-- The report that attestation sends (R490). -/
def State.report (s : State) (nonce : List Byte) : List Byte :=
  s.reportBody nonce ++ slice (Config.identitySign (slice (Config.shake256 (s.reportBody nonce)) 0 64)) 0 1280

theorem report_fields (s : State) (nonce : List Byte) :
    (s.report nonce).length = 1544 ∧ u32 (s.report nonce) 0 = 0x5454414D ∧ slice (s.report nonce) 16 32 = slice nonce 0 32 ∧
      slice (s.report nonce) 264 1280 = slice (Config.identitySign (slice (Config.shake256 (slice (s.report nonce) 0 264)) 0 64)) 0 1280 := by
  obtain ⟨length, magic, kept⟩ := reportBody_fields s nonce
  have body : slice (s.report nonce) 0 264 = s.reportBody nonce := by
    rw [State.report, slice_append_left _ _ (by omega), ← length, slice_all]
  refine ⟨?_, ?_, ?_, ?_⟩
  · simp [State.report, length]
  · rw [State.report, u32, slice_append_left _ _ (by omega)]
    exact magic
  · rw [State.report, slice_append_left _ _ (by omega), kept]
  · rw [body, State.report, slice_append_right _ _ _ length.le, length]
    simp [slice_slice]

theorem attest_sends {s : State} {t : Nat} {c : RingId} {e : CmdEntry} (can : s.CanAnswer c) (form : e.formOk 0 [(4, 12), (16, 32)] = true)
    (low : 2048 ≤ e.w 4) (high : e.w 4 ≤ 4096) (aligned : e.q 8 % 8 = 0) : ∃ s' b,
      exec (.attest t c e) s = .next s' ∧ (s.host.mute = false → Out.hostWrite (e.q 8) b ∈ s'.out.drop s.out.length) ∧ b.length = 1544 ∧
      u32 b 0 = 0x5454414D ∧ slice b 16 32 = slice e.body 12 32 ∧
      slice b 264 1280 = slice (Config.identitySign (slice (Config.shake256 (slice b 0 264)) 0 64)) 0 1280 ∧
      Answers s s' c e 0 (toLe 4 1544) ∧ s'.recorded 0x97 0 sevInfo ∧ s'.sec = s.sec ∧ LanesKept s s' := by
  obtain ⟨length, magic, nonce, signed⟩ := report_fields (s.taken t c e 0x82) (slice e.body 12 32)
  have noted := gbEvent_recorded (s.taken t c e 0x82) 0x97 0 sevInfo [BitVec.ofNat 32 (u32 e.body 12)]
  have alone := gbEvent_alone (s.taken t c e 0x82) 0x97 0 sevInfo [BitVec.ofNat 32 (u32 e.body 12)]
  have run : exec (.attest t c e) s = .next ((((s.taken t c e 0x82).gbEvent 0x97 0 sevInfo [BitVec.ofNat 32 (u32 e.body 12)]).request
      (.hostWrite (e.q 8) ((s.taken t c e 0x82).report (slice e.body 12 32)))).complete (s.refOf c e 0x82) 0 (toLe 4 1544)) :=
    congrArg Host.Outcome.next (command_passes can.1 can.2.1
      (by simp [Passes, form, aligned, Nat.not_lt.mpr low, Nat.not_lt.mpr high]))
  have master : ((s.taken t c e 0x82).gbEvent 0x97 0 sevInfo [BitVec.ofNat 32 (u32 e.body 12)]).host.busMaster = true := by
    rw [alone]; exact taken_master can t e 0x82
  generalize (s.taken t c e 0x82).gbEvent 0x97 0 sevInfo [BitVec.ofNat 32 (u32 e.body 12)] = s₁ at run noted alone master
  generalize (s.taken t c e 0x82).report (slice e.body 12 32) = b at run length magic nonce signed
  have host : s₁.host = (s.taken t c e 0x82).host := by rw [alone]
  have out : s₁.out = (s.taken t c e 0x82).out := by rw [alone]
  refine ⟨_, b, run, fun requests => ?_, length, magic, ?_, signed, ?_, ?_, ?_⟩
  · have made := request_made (s := s₁) (by rw [host]; exact requests) (.hostWrite (e.q 8) b)
    rw [if_pos master, out] at made
    refine mem_drop_of_prefix ?_ (complete_out ..)
    simp only [State.taken, List.length_append, ← List.drop_drop] at made
    exact List.mem_of_mem_drop made
  · rw [nonce, slice_slice _ (by omega)]
  · exact complete_answers_of_mayBegin can.1 can.2.2 ((request_host master _).trans host) (by rw [← out]; exact request_out ..) 0 _
  · refine complete_recorded ?_ _ _ _
    rw [request_alone]
    exact noted
  · rw [complete_alone, request_alone, alone]
    exact ⟨rfl, rfl, rfl, rfl⟩

theorem updatesAndAttestation : Stated.UpdatesAndAttestation := by
  intro s t c e bs
  refine ⟨updateChunk_begins, fun x busy => ⟨_, exec_updateChunk_busy busy _, rfl⟩, fun x busy => ⟨_, exec_activate_busy busy, rfl⟩,
    fun ref off d busy => ?_, fun can idle form exam swap => ⟨activate_refuses can idle form exam swap, activate_resets can idle form exam swap⟩,
    fun steward trial => ⟨fun val bit key => confirm_confirms steward trial bit key t, fun judged => trialConfirm_confirms steward trial judged t⟩,
    attest_sends⟩
  obtain ⟨s', run, sec, finishes, lanes⟩ := updateChunkComplete_programs busy (t := t)
  refine ⟨s', run, ?_, ?_, ?_, ?_, fun i below inside => ?_, finishes, lanes⟩ <;> rw [sec]
  · rfl
  · rfl
  · exact image_setImage_other s.sec s.sec.active _
  · exact (congrArg (slice · off d.length) (image_setImage_same s.sec (!s.sec.active) _)).trans (slice_programChunk ..)
  · exact (congrArg (byteAt · i) (image_setImage_same s.sec (!s.sec.active) _)).trans (byteAt_programChunk below inside d)

/-- Settles O47: slots and fuses by the action's own effect, activation by the completion that goes out before the reset. -/
theorem keysAndUpdates : Obligations.KeysAndUpdates := ⟨ownerKeys, updatesAndAttestation⟩

end Sys2Proof.Machine
end

section
/-! PROOFS. The rings set up and disabled (R338 to R342, R365). -/

namespace Sys2Proof.Machine

/-! ### A table of rings without use (R340, R341) -/

theorem byteAt_of_zeroFrom {bs : List Byte} {n i : Nat} (zero : zeroFrom bs 0 n = true) (inside : i < n) : byteAt bs i = 0 := by
  have all : ∀ x ∈ slice bs 0 n, x = 0 := by simpa [zeroFrom] using zero
  have here : byteAt (slice bs 0 n) i = byteAt bs i := (byteAt_slice bs inside).trans (congrArg (byteAt bs) (Nat.zero_add i))
  rw [← here, byteAt, List.getD_eq_getElem _ _ (by simpa using inside)]
  exact all _ (List.getElem_mem _)

theorem enable_of_zeroEntry {entry : List Byte} (zero : zeroFrom entry 0 64 = true) : bit (u8 entry 9) 0 = false := by
  rw [u8, byteAt_of_zeroFrom zero (by decide)]
  rfl

/-- Without a ring in use no ring exceeds the limit (R365). -/
theorem overLimit_unused {rings : List RingCfg} (unused : ∀ r, (rings.getD r RingCfg.init).enable = false) (c : Option Conf) :
    overLimit rings c = [] := by
  unfold overLimit
  dsimp only
  refine List.foldlRecOn (motive := fun acc : Nat × Nat × List Nat => acc.2.2 = []) _ _ rfl fun acc none' r _ => ?_
  rw [if_pos (.inl (unused r))]
  exact none'

theorem ringOk_unused {rings : List RingCfg} (unused : ∀ r, (rings.getD r RingCfg.init).enable = false) (bell r : Nat) :
    ringOk rings bell r = true := by
  simp only [ringOk, unused r, Bool.not_false, Bool.true_or]

/-- The rings that the entries of a table describe. -/
def ringsOf (table : List Byte) : List RingCfg := (List.range 21).map fun r => parseRing (setupEntry table r)

theorem ringsOf_unused {table : List Byte} (zero : ∀ r < 21, zeroFrom (setupEntry table r) 0 64 = true) (r : Nat) :
    ((ringsOf table).getD r RingCfg.init).enable = false := by
  by_cases inside : r < 21
  · simpa [ringsOf, List.getD_eq_getElem?_getD, inside, parseRing] using enable_of_zeroEntry (zero r inside)
  · simp [ringsOf, List.getD_eq_getElem?_getD, inside, RingCfg.init]

theorem entryReservedOk_of_zero {entry : List Byte} (zero : zeroFrom entry 0 64 = true) (r : Nat) : entryReservedOk entry r = true := by
  rw [entryReservedOk, enable_of_zeroEntry zero]
  exact zero

/-! ### What a set-up answers (R341) -/

theorem find_unreserved_none {table : List Byte} (reserved : ∀ r < 21, entryReservedOk (setupEntry table r) r = true) :
    (List.range 21).find? (fun r => !entryReservedOk (setupEntry table r) r) = none := by
  simpa using reserved

theorem setupFailure_header (s : State) {table : List Byte} (wrong : u32 table 0 ≠ 0x474E5248) (zero : zeroFrom table 16 48 = true)
    (reserved : ∀ r < 21, entryReservedOk (setupEntry table r) r = true) (bell : Option (List Byte)) :
    setupFailure s (some table) bell = some (0x0140, 31) := by
  simp [setupFailure, zero, find_unreserved_none reserved, wrong]

theorem setupFailure_none (s : State) {table bell : List Byte} (magic : u32 table 0 = 0x474E5248) (version : u16 table 4 = 1)
    (interval : u16 table 6 = 0) (page : u64 table 8 % 4096 = 0) (zero : zeroFrom table 16 48 = true)
    (entries : ∀ r < 21, zeroFrom (setupEntry table r) 0 64 = true) (tails : zeroFrom bell 0 32 = true) (heads : zeroFrom bell 64 36 = true) :
    setupFailure s (some table) (some bell) = none := by
  have reserved := find_unreserved_none fun r low => entryReservedOk_of_zero (entries r low) r
  have unused := ringsOf_unused entries
  have sound : (List.range 21).find? (fun r => !ringOk (ringsOf table) (u64 table 8) r) = none := by simp [ringOk_unused unused]
  have within := overLimit_unused unused (s.app.cur <|> s.app.stored)
  unfold ringsOf at sound within
  simp only [setupFailure, zero, reserved, magic, version, interval, page, sound, within, tails, heads]
  rfl

/-! ### APPLY (R341) -/

/-- The state in which a set-up is judged. -/
def State.applying (s : State) (t : Nat) : State := { s.at t with host := { s.host with ringErr := 0, busy := false } }

/-- A set-up that fails, with its status and ring. -/
def State.setUpFailed (s : State) (st : BitVec 16) (r : Nat) : State :=
  { s with host := { s.host with setupStatus := st, setupRing := BitVec.ofNat 5 r } }

/-- The rings of a table run with everything at zero. -/
def State.ringsUp (s : State) (table : List Byte) : State :=
  { s with host := { s.stopRings.host with
      active := true
      mute := false
      setupStatus := 0
      setupRing := 31
      polls := 0
      cmds := 0
      gbLost := 0
      belliv := if u16 table 6 = 0 then 20 else u16 table 6
      pollAt := s.now
      endAt := s.now + (if u16 table 6 = 0 then 20 else u16 table 6) * usCycles
      bellAddr := u64 table 8
      rings := Vector.ofFn (fun r => parseRing (setupEntry table r.val))
      gen := s.host.gen + 1 } }

theorem exec_apply_idle {s : State} (active : s.host.active = true) (t : Nat) (table bell : Option (List Byte)) :
    exec (.apply t table bell) s = .next (s.at t) :=
  if_pos (.inr active)

section
variable {s : State} (steward : s.steward = true) (idle : s.host.active = false)
include steward idle

theorem apply_begins (t : Nat) : ¬ ((s.at t).steward = false ∨ (s.at t).host.active = true) := by
  rw [State.at_steward, steward]
  change ¬ (true = false ∨ s.host.active = true)
  simp [idle]

theorem exec_apply_paused (paused : s.host.busMaster = false) (t : Nat) (table bell : Option (List Byte)) :
    exec (.apply t table bell) s = .next { s.at t with host := { s.host with busy := true } } :=
  (if_neg (apply_begins steward idle t)).trans (if_pos paused)

variable (master : s.host.busMaster = true)
include master

theorem exec_apply (t : Nat) (table bell : Option (List Byte)) : exec (.apply t table bell) s =
    .next ((setupFailure (s.applying t) table bell).elim ((s.applying t).ringsUp (table.getD []))
      fun x => (s.applying t).setUpFailed x.1 x.2) := by
  have requests : ¬ (s.at t).host.busMaster = false := by rw [Bool.not_eq_false]; exact master
  refine (if_neg (apply_begins steward idle t)).trans ((if_neg requests).trans ?_)
  change (match setupFailure (s.applying t) table bell with | some (st, r) => _ | none => _) = _
  cases setupFailure (s.applying t) table bell <;> rfl

theorem apply_fails {t : Nat} {table bell : Option (List Byte)} {st : BitVec 16}
    (fails : setupFailure (s.applying t) table bell = some (st, 31)) : ∃ s', exec (.apply t table bell) s = .next s' ∧
      s'.host.active = false ∧ s'.host.setupStatus = st ∧ s'.host.setupRing = 31 := by
  refine ⟨_, exec_apply steward idle master t table bell, ?_⟩
  rw [fails]
  exact ⟨idle, rfl, rfl⟩

theorem apply_runs {t : Nat} {table bell : List Byte} (sound : setupFailure (s.applying t) (some table) (some bell) = none)
    (interval : u16 table 6 = 0) (entries : ∀ r < 21, zeroFrom (setupEntry table r) 0 64 = true) :
    ∃ s', exec (.apply t (some table) (some bell)) s = .next s' ∧ s'.host.active = true ∧ s'.host.busy = false ∧ s'.host.setupStatus = 0 ∧
      s'.host.setupRing = 31 ∧ s'.host.belliv = 20 ∧ s'.host.bellAddr = u64 table 8 ∧ s'.host.polls = 0 ∧ s'.host.cmds = 0 ∧
      (∀ r : Fin 21, (s'.host.rings[r]).enable = false) ∧ (∀ c : RingId, s'.host.cmdHead[c] = 0 ∧ s'.host.inProg[c] = none) ∧
      s'.host.gen = s.host.gen + 1 ∧ LanesKept s s' := by
  have run := exec_apply steward idle master t (some table) (some bell)
  rw [sound] at run
  refine ⟨_, run, rfl, rfl, rfl, rfl, if_pos interval, rfl, rfl, rfl, fun r => ?_, fun c => ⟨?_, ?_⟩, rfl, rfl, rfl, rfl⟩
  · change ((Vector.ofFn fun r : Fin 21 => parseRing (setupEntry table r.val))[r]).enable = false
    simpa [parseRing] using enable_of_zeroEntry (entries r.val r.isLt)
  · exact Vector.getElem_replicate ..
  · exact Vector.getElem_replicate ..

end

/-! ### DISABLE (R342) -/

/-- Rings stopped: nothing of them is left, and what other requests owe the host stays. -/
theorem stopRings_stops (s : State) : s.stopRings.host.active = false ∧ s.stopRings.host.busy = false ∧
    (∀ a bs, .hostWrite a bs ∈ s.host.outbox → .hostWrite a bs ∈ s.stopRings.host.outbox) ∧
    (∀ r : Fin 21, s.stopRings.host.rings[r] = RingCfg.init) ∧
    ∀ c : RingId, s.stopRings.host.cmdHead[c] = 0 ∧ s.stopRings.host.cqTail[c] = 0 ∧ s.stopRings.host.inProg[c] = none ∧
      s.stopRings.host.heldC[c] = [] :=
  ⟨rfl, rfl, fun _ _ owed => List.mem_filter.mpr ⟨owed, rfl⟩, fun _ => Vector.getElem_replicate ..,
    fun _ => ⟨Vector.getElem_replicate .., Vector.getElem_replicate .., Vector.getElem_replicate .., Vector.getElem_replicate ..⟩⟩

theorem exec_disable {s : State} (steward : s.steward = true) (t : Nat) : exec (.disable t) s = .next (s.at t).stopRings :=
  congrArg Host.Outcome.next (if_pos steward)

/-- Settles O28: a set-up by its first failure, an empty table by that of no ring. -/
theorem ringSetUp : Obligations.RingSetUp := by
  intro s t table bell steward
  refine ⟨fun idle paused => ⟨_, exec_apply_paused steward idle paused t _ _, rfl⟩,
    fun idle master => ⟨apply_fails steward idle master rfl,
      fun wrong zero reserved => apply_fails steward idle master (setupFailure_header _ wrong zero reserved _),
      fun magic version interval page zero entries tails heads => apply_runs steward idle master
        (setupFailure_none _ magic version interval page zero entries tails heads) interval entries⟩,
    fun active => ⟨_, exec_apply_idle active t _ _, rfl⟩, ?_⟩
  obtain ⟨active, busy, owed, rings, commands⟩ := stopRings_stops (s.at t)
  exact ⟨_, exec_disable steward t, active, busy, owed, rings, commands, rfl, ⟨rfl, rfl, rfl⟩, rfl, rfl, rfl, rfl⟩

end Sys2Proof.Machine
end

section
/-! PROOFS. The bell page, access to host memory, held completions and publications (R333, R334, R343 to R351, R360 to R367). -/

namespace Sys2Proof.Machine

/-! ### Access and its failure (R333, R334) -/

section
variable {s : State} (steward : s.steward = true)
include steward

theorem mayAccess_of_active (active : s.host.active = true) (master : s.host.busMaster = true) : s.mayAccess = true := by
  simp [State.mayAccess, steward, active, master]

end

theorem ringFailure_ends (s : State) :
    s.ringFailure.host.active = false ∧ s.ringFailure.host.dmaerr = true ∧ s.ringFailure.recorded 0x09 3 sevNotice := by
  have recorded : s.ringFailure.recorded 0x09 3 sevNotice := gbEvent_recorded ..
  refine ⟨?_, ?_, recorded⟩ <;> rw [State.ringFailure, gbEvent_alone] <;> rfl

/-! ### Polls (R344, R345) -/

/-- The tails and heads that a read of the bell page gives. -/
theorem takeBell_reads (h : HostIf) (bs : List Byte) :
    (∀ k : RingId, (h.takeBell bs).cmdTail[k] = BitVec.ofNat 32 (u32 bs (4 * k.val)) ∧
      (h.takeBell bs).cqHead[k] = BitVec.ofNat 32 (u32 bs (0x40 + 4 * k.val))) ∧ (h.takeBell bs).gbHead = BitVec.ofNat 32 (u32 bs 0x60) := by
  refine ⟨fun k => ⟨?_, ?_⟩, rfl⟩
  · change (Vector.ofFn fun k : RingId => BitVec.ofNat 32 (u32 bs (4 * k.val)))[k] = _
    simp
  · change (Vector.ofFn fun k : RingId => BitVec.ofNat 32 (u32 bs (0x40 + 4 * k.val)))[k] = _
    simp

/-- A ring whose tail runs too far ahead is in error. -/
theorem takeBell_stops {h : HostIf} {bs : List Byte} {c : RingId} (enable : (h.rings[c.val]).enable = true)
    (far : 2 ^ (h.rings[c.val]).logn < (BitVec.ofNat 32 (u32 bs (4 * c.val)) - h.cmdHead[c]).toNat) :
    (h.takeBell bs).ringErr.getLsbD c.val = true ∧ (h.takeBell bs).ringerr = true := by
  have ring : vget h.rings c.val RingCfg.init = h.rings[c.val] := vget_val h.rings ⟨c.val, by omega⟩ _
  have head : vget h.cmdHead c.val 0 = h.cmdHead[c] := vget_val h.cmdHead c _
  have bad : h.tailBad bs c.val = true := by simp only [HostIf.tailBad, ring, head, enable, far, decide_true, Bool.and_self]
  have bit' : (maskOf (h.tailBad bs) 8).testBit c.val = true := by simp [testBit_maskOf, bad, c.isLt]
  have some' : maskOf (h.tailBad bs) 8 ≠ 0 := by
    intro zero
    simp [zero] at bit'
  constructor
  · change (h.ringErr ||| BitVec.ofNat 21 (maskOf (h.tailBad bs) 8)).getLsbD c.val = true
    rw [BitVec.getLsbD_or, BitVec.getLsbD_ofNat, bit']
    simp
    omega
  · change (h.ringerr || maskOf (h.tailBad bs) 8 != 0) = true
    simp [some']

/-- A poll taken (R344). -/
def State.polled (s : State) (bs : List Byte) : State :=
  { s with host := { s.host.takeBell bs with pollAt := s.now + (s.host.belliv - 2) * usCycles } }

section
variable {s : State} (steward : s.steward = true) (active : s.host.active = true) (master : s.host.busMaster = true)
include steward active master

theorem exec_bellPoll (t : Nat) (bs : List Byte) : ∃ marks, exec (.bellPoll t (some bs)) s =
    .next { (s.at (max t s.host.pollAt)).polled bs with marks := marks } := by
  have run : exec (.bellPoll t (some bs)) s = .next (if (s.host.takeBell bs).overrun bs then
      ((s.at (max t s.host.pollAt)).polled bs).mark 0x804 8 else (s.at (max t s.host.pollAt)).polled bs) :=
    if_pos (mayAccess_of_active steward active master)
  rw [run]
  split <;> exact ⟨_, rfl⟩

theorem bellPoll_fails (t : Nat) : exec (.bellPoll t none) s = .next (s.at (max t s.host.pollAt)).ringFailure :=
  if_pos (mayAccess_of_active steward active master)

theorem dmaFailure_ring (t : Nat) : exec (.dmaFailure t .ring) s = .next (s.at t).ringFailure :=
  if_pos (mayAccess_of_active (s := s.at t) steward active master)

theorem dmaFailure_buffer {c : RingId} {ref : CmdRef} (inProg : s.host.inProg[c] = some ref)
    (read : s.edits.reads.any (fun v => v.ref == some ref) = true) (t : Nat) : exec (.dmaFailure t (.buffer c)) s =
    .next (({ s.at t with edits := { s.edits with reads := s.edits.reads.filter fun v => v.ref != some ref } } : State).complete ref 0x0105 []) := by
  refine (if_pos (mayAccess_of_active (s := s.at t) steward active master)).trans ?_
  have inProg' : (s.at t).host.inProg[c] = some ref := inProg
  change (match (s.at t).host.inProg[c] with | none => _ | some ref => _) = _
  rw [inProg']
  exact if_pos read

theorem exec_heldCompletionWrite {q : RingId} {x : Completion} (held : s.host.heldC[q] = [x]) (made : s.host.outbox = [])
    (room : s.host.cqRoom q = true) (t : Nat) : exec (.heldCompletionWrite t q) s = .next (({ s.at t with host := { s.host with
      heldC := upd s.host.heldC q fun _ => [], heldSince := upd s.host.heldSince q fun _ => 0 } } : State).writeCompletion q x) := by
  change (match (s.at t).host.heldC[q] with | [] => _ | c :: rest => _) = _
  have held' : (s.at t).host.heldC[q] = [x] := held
  rw [held']
  exact if_pos ⟨mayAccess_of_active (s := s.at t) steward active master, made, room⟩

end

theorem complete_active (s : State) (ref : CmdRef) (st : BitVec 16) (res : List Byte) : (s.complete ref st res).host.active = s.host.active := by
  unfold State.complete State.writeCompletion
  dsimp only
  split
  · split <;> split <;> rfl
  · rfl

theorem writeCompletion_places (s : State) (q : RingId) (x : Completion) : (s.writeCompletion q x).host.heldC = s.host.heldC ∧
    (s.writeCompletion q x).host.cqTail[q] = s.host.cqTail[q] + 1 ∧ (s.writeCompletion q x).host.cmds = s.host.cmds + 1 ∧
    (s.writeCompletion q x).out.length = s.out.length + 2 := by
  obtain ⟨_, _, _, _, _, out⟩ := writeCompletion_out s q x
  refine ⟨?_, ?_, ?_, by rw [out]; simp⟩ <;> unfold State.writeCompletion <;> dsimp only <;> split
  · rfl
  · rfl
  · exact getElem_upd_self ..
  · exact getElem_upd_self ..
  · rfl
  · rfl

/-! ### The interrupts of an interval (R367) -/

theorem msix_alone (s : State) (v : Fin 16) :
    s.msix v = { s with host := { s.host with msixPend := (s.msix v).host.msixPend }, out := (s.msix v).out } := by
  unfold State.msix
  split <;> rfl

theorem msix_out (s : State) (v : Fin 16) : s.out <+: (s.msix v).out := by
  unfold State.msix
  split
  · exact List.prefix_rfl
  · exact List.prefix_append ..

theorem msix_pend {s : State} {k : Nat} (pending : s.host.msixPend.getLsbD k = true) (v : Fin 16) : (s.msix v).host.msixPend.getLsbD k = true := by
  unfold State.msix
  split
  · simp only [BitVec.getLsbD_or, pending, Bool.true_or]
  · exact pending

/-- Vector v has been sent since n requests had gone out, or waits for its mask. -/
def State.Signalled (mask : BitVec 16) (n : Nat) (v : Fin 16) (s : State) : Prop :=
  if mask.getLsbD v.val then s.host.msixPend.getLsbD v.val = true else .msix v ∈ s.out.drop n

theorem signalled_since {mask : BitVec 16} {n : Nat} {v : Fin 16} {s s' : State} (h : State.Signalled mask n v s)
    (pend : s.host.msixPend.getLsbD v.val = true → s'.host.msixPend.getLsbD v.val = true) (out : s.out <+: s'.out) :
    State.Signalled mask n v s' := by
  unfold State.Signalled at *
  split
  next masked => exact pend (by rwa [if_pos masked] at h)
  next clear => exact mem_drop_of_prefix (by rwa [if_neg clear] at h) out

theorem getLsbD_oneShift (v : Fin 16) : ((1 <<< v.val : Nat) : BitVec 16).getLsbD v.val = true := by
  rw [BitVec.natCast_eq_ofNat, BitVec.getLsbD_ofNat, Nat.one_shiftLeft, Nat.testBit_two_pow]
  simp

theorem msix_signals {s : State} {n : Nat} (longer : n ≤ s.out.length) (v : Fin 16) : State.Signalled s.host.msixMask n v (s.msix v) := by
  have mask : bit s.host.msixMask.toNat v.val = s.host.msixMask.getLsbD v.val := by
    rw [bit, BitVec.getLsbD, Nat.testBit_eq_decide_div_mod_eq, ← Bool.beq_eq_decide_eq]
  unfold State.Signalled State.msix
  rw [mask]
  split
  · rw [BitVec.getLsbD_or, getLsbD_oneShift, Bool.or_true]
  · simp [State.emit, List.drop_append_of_le_length longer]

/-- The vectors that an interval's end sends. -/
def HostIf.dueVectors (h : HostIf) : BitVec 16 :=
  (if h.lateVec6 && h.active then h.evtPend ||| (1 <<< 6) else h.evtPend) ||| (h.msixPend &&& ~~~h.msixMask)

theorem dueVectors_of_raised {h : HostIf} {v : Nat} (raised : h.evtPend.getLsbD v = true) : h.dueVectors.getLsbD v = true := by
  unfold HostIf.dueVectors
  rw [BitVec.getLsbD_or]
  split
  · rw [BitVec.getLsbD_or, raised, Bool.true_or, Bool.true_or]
  · rw [raised, Bool.true_or]

/-- The interface once the vectors of an interval have been taken up. -/
def HostIf.vectorsTaken (h : HostIf) : HostIf :=
  { h with evtPend := 0, lateVec6 := h.lateVec6 && !(h.lateVec6 && h.active), msixPend := h.msixPend &&& h.msixMask, sentNow := 0 }

/-- One vector's turn at the end of an interval. -/
def State.sendIf (due : BitVec 16) (s : State) (v : Fin 16) : State := if bit due.toNat v.val then s.msix v else s

theorem sendVectors_eq (s : State) :
    s.sendVectors = (fins 16).foldl (State.sendIf s.host.dueVectors) { s with host := s.host.vectorsTaken } := rfl

theorem sendIf_alone (due : BitVec 16) (s : State) (v : Fin 16) : s.sendIf due v =
    { s with host := { s.host with msixPend := (s.sendIf due v).host.msixPend }, out := (s.sendIf due v).out } := by
  unfold State.sendIf
  split
  · exact msix_alone s v
  · rfl

theorem sendIf_out (due : BitVec 16) (s : State) (v : Fin 16) : s.out <+: (s.sendIf due v).out := by
  unfold State.sendIf
  split
  · exact msix_out s v
  · exact List.prefix_rfl

theorem sendVectors_alone (s : State) : ∃ pend out, s.sendVectors =
    { s with host := { s.host.vectorsTaken with msixPend := pend }, out := out } ∧ s.out <+: out := by
  rw [sendVectors_eq]
  refine List.foldlRecOn (motive := fun s' : State => ∃ pend out, s' =
    { s with host := { s.host.vectorsTaken with msixPend := pend }, out := out } ∧ s.out <+: out) _ _ ⟨_, _, rfl, List.prefix_rfl⟩ ?_
  rintro s' ⟨pend, out, rfl, longer⟩ v _
  refine ⟨_, _, sendIf_alone .., longer.trans ?_⟩
  exact List.IsPrefix.trans (by rfl) (sendIf_out ..)

theorem sendVectors_signals {s : State} {n : Nat} (longer : n ≤ s.out.length) {v : Fin 16} (raised : s.host.evtPend.getLsbD v.val = true) :
    State.Signalled s.host.msixMask n v s.sendVectors := by
  have due : bit s.host.dueVectors.toNat v.val = true := by
    rw [bit, beq_eq_decide, ← Nat.testBit_eq_decide_div_mod_eq]
    exact dueVectors_of_raised raised
  rw [sendVectors_eq]
  refine foldl_establishes (I := fun s' : State => s'.host.msixMask = s.host.msixMask ∧ n ≤ s'.out.length) (a := v) ?_ ?_ ?_
    (List.mem_finRange v) ⟨rfl, longer⟩
  · rintro s' k ⟨mask, out⟩
    rw [sendIf_alone]
    exact ⟨mask, out.trans (sendIf_out ..).length_le⟩
  · rintro s' ⟨mask, out⟩
    rw [State.sendIf, if_pos due, ← mask]
    exact msix_signals out v
  · intro s' k signalled
    refine signalled_since signalled (fun pend => ?_) (sendIf_out ..)
    unfold State.sendIf
    split
    · exact msix_pend pend k
    · exact pend

/-! ### The end of an interval (R344) -/

/-- What the bell page is told at the end of an interval. -/
def State.bellTold (s : State) : State :=
  if s.host.active then (s.emit (.bell 0x880 (s.cycle % 2 ^ 48))).emit (.bell 0x888 (barWord s 0x40).toNat) else s

/-- The requests that waited have been made, and the next interval has begun. -/
def State.intervalEnded (s : State) : State :=
  { s.flushOutbox with host := { s.flushOutbox.host with endAt := s.now + s.host.belliv * usCycles } }

theorem exec_bellIntervalEnd {s : State} (steward : s.steward = true) (master : s.host.busMaster = true) (t : Nat) :
    exec (.bellIntervalEnd t) s = .next (s.at (max t s.host.endAt)).intervalEnded.bellTold.sendVectors :=
  if_pos ⟨steward, master⟩

theorem bellTold_alone (s : State) : ∃ out, s.bellTold = { s with out := out } ∧ s.out <+: out ∧
    (s.host.active = true → .bell 0x880 (s.cycle % 2 ^ 48) ∈ out.drop s.out.length) := by
  unfold State.bellTold
  split
  next active => exact ⟨s.out ++ [.bell 0x880 (s.cycle % 2 ^ 48)] ++ [.bell 0x888 (barWord s 0x40).toNat], rfl, by simp, by simp⟩
  next idle => exact ⟨_, rfl, List.prefix_rfl, fun active => absurd active idle⟩

theorem intervalEnd_alone (s : State) : ∃ pend out, s.intervalEnded.bellTold.sendVectors = { s with
    host := { s.host.vectorsTaken with msixPend := pend, outbox := [], endAt := s.now + s.host.belliv * 400 }, out := out } ∧
    s.out ++ s.host.outbox <+: out ∧ (s.host.active = true → .bell 0x880 (s.cycle % 2 ^ 48) ∈ out.drop (s.out ++ s.host.outbox).length) := by
  obtain ⟨out, told, longer, bell⟩ := bellTold_alone s.intervalEnded
  obtain ⟨pend, out', sent, longer'⟩ := sendVectors_alone s.intervalEnded.bellTold
  rw [told] at sent longer' ⊢
  exact ⟨pend, out', sent, longer.trans longer', fun active => mem_drop_of_prefix (bell active) longer'⟩

/-- What waited at the end of an interval goes out, the page is told, and the raised vectors are sent or wait for their masks. -/
theorem intervalEnd_sends (s : State) : ∃ pend out, s.intervalEnded.bellTold.sendVectors = { s with
    host := { s.host.vectorsTaken with msixPend := pend, outbox := [], endAt := s.now + s.host.belliv * 400 }, out := out } ∧
    (∀ o ∈ s.host.outbox, o ∈ out.drop s.out.length) ∧
    (s.host.active = true → .bell 0x880 (s.cycle % 2 ^ 48) ∈ out.drop s.out.length) ∧
    ∀ v : Fin 16, s.host.evtPend.getLsbD v.val = true →
      if s.host.msixMask.getLsbD v.val then pend.getLsbD v.val = true else .msix v ∈ out.drop s.out.length := by
  obtain ⟨pend, out, same, longer, bell⟩ := intervalEnd_alone s
  refine ⟨pend, out, same, fun o waits => ?_, fun active => ?_, fun v raised => ?_⟩
  · exact mem_drop_of_prefix (by rwa [List.drop_left]) longer
  · have here := bell active
    rw [List.length_append, Nat.add_comm, ← List.drop_drop] at here
    exact List.mem_of_mem_drop (by rwa [List.drop_drop, Nat.add_comm, ← List.drop_drop] at here)
  · obtain ⟨out₁, told, longer₁, -⟩ := bellTold_alone s.intervalEnded
    have signals : State.Signalled s.host.msixMask s.out.length v s.intervalEnded.bellTold.sendVectors := by
      rw [told]
      exact sendVectors_signals (s := { s.intervalEnded with out := out₁ })
        (((List.prefix_append s.out s.host.outbox).trans longer₁).length_le) raised
    rw [same] at signals
    exact signals

/-! ### Publications (R360 to R364) -/

theorem pubBody_fields (n task : Nat) (data : List Byte) : (pubBody n task data).length = 56 + data.length ∧
    u48 (pubBody n task data) 0 = n % 2 ^ 48 ∧ u16 (pubBody n task data) 6 = task % 2 ^ 16 ∧
    u32 (pubBody n task data) 8 = data.length % 2 ^ 32 ∧ zeroFrom (pubBody n task data) 12 44 = true ∧
    slice (pubBody n task data) 56 data.length = data := by
  refine ⟨by simp [pubBody]; omega, by simp [pubBody, u48], by simp [pubBody, u16], by simp [pubBody, u32], ?_, ?_⟩
  · have zeros : slice (pubBody n task data) 12 44 = toLe 44 0 := by simp [pubBody]
    rw [zeroFrom, zeros]
    rfl
  · simp [pubBody, slice_all]

/-- The five requests of a publication, END odd first and even last, then its announcement (R362). -/
def publication (p : Fin 4) (k a : Nat) (body : List Byte) : List Out :=
  [.publish p k (a + 8 + body.length) (toLe 8 (2 * k - 1)), .publish p k (a + 8) body, .publish p k a (toLe 8 (2 * k)),
    .publish p k (a + 8 + body.length) (toLe 8 (2 * k)), .bell (0x850 + 4 * p.val) (k % 2 ^ 32)]

theorem publish_eq (s : State) (p : Fin 4) (k a : Nat) (body : List Byte) :
    s.publish p k a body = { s with out := s.out ++ publication p k a body } := by
  simp only [State.publish, State.emit, publication, List.append_assoc, List.cons_append, List.nil_append]

/-- A vector raised for the end of the interval is seen in nothing else. -/
theorem raisedLater_alone (s : State) (irq : Bool) (v : Fin 16) : ∃ pend,
    (if irq then s.raiseLater v else s) = { s with host := { s.host with evtPend := pend } } := by
  cases irq <;> exact ⟨_, rfl⟩

/-- Ring p has its next publication's number, and owes those behind it (R362). -/
def State.numbered (s : State) (p : Fin 4) (rest : List (Nat × List Byte)) : State :=
  { s with host := { s.host with pubNum := upd s.host.pubNum p (· + 1), pubDue := upd s.host.pubDue p fun _ => rest } }

theorem exec_publication {s : State} (steward : s.steward = true) (active : s.host.active = true) (master : s.host.busMaster = true) {p : Fin 4}
    {n : Nat} {data : List Byte} {rest : List (Nat × List Byte)} {g : RingCfg} (ring : vget s.host.rings (16 + p.val) RingCfg.init = g)
    (enable : g.enable = true) (due : s.host.pubDue[p] = (n, data) :: rest) (t : Nat) : ∃ s', exec (.publication t p) s = .next s' ∧
      s'.host.pubNum[p] = s.host.pubNum[p] + 1 ∧ s'.host.pubDue[p] = rest ∧ LanesKept s s' ∧
      s'.out = s.out ++ publication p (s.host.pubNum[p] + 1) (g.entryAddr g.stride s.host.pubNum[p]) (pubBody n g.task data) := by
  have due' : (s.at t).host.pubDue[p] = (n, data) :: rest := due
  have ring' : vget (s.at t).host.rings (16 + p.val) RingCfg.init = g := ring
  have may : (s.at t).mayAccess = true ∧ g.enable = true := ⟨mayAccess_of_active (s := s.at t) steward active master, enable⟩
  have run : exec (.publication t p) s = execPublication t p s := rfl
  simp only [execPublication, due', ring', if_pos may, publish_eq] at run
  obtain ⟨pend, raised⟩ := raisedLater_alone ({ (s.at t).numbered p rest with
    out := s.out ++ publication p (s.host.pubNum[p] + 1) (g.entryAddr g.stride s.host.pubNum[p]) (pubBody n g.task data) } : State) g.irq 0
  exact ⟨_, run.trans (congrArg Host.Outcome.next raised), getElem_upd_self .., getElem_upd_self .., ⟨rfl, rfl, rfl⟩, rfl⟩

theorem publicationWritten : Stated.PublicationWritten := by
  intro s t p n data rest steward active master g k a enable due
  obtain ⟨length, fields⟩ := pubBody_fields n g.task data
  have ring : vget s.host.rings (16 + p.val) RingCfg.init = g := vget_val s.host.rings ⟨16 + p.val, by omega⟩ _
  have stop : a + 8 + (pubBody n g.task data).length = a + 64 + data.length := by omega
  obtain ⟨s', run, number, owed, lanes, out⟩ := exec_publication steward active master ring enable due t
  refine ⟨s', _, run, number, owed, lanes, ?_, length, fields⟩
  rw [← stop]
  exact out

/-! ### The statement -/

theorem exec_completionHeldTimeout {s : State} (steward : s.steward = true) {q : RingId} (since : s.host.heldSince[q] ≠ 0)
    (held : s.host.heldC[q] ≠ []) (t : Nat) : ∃ s', exec (.completionHeldTimeout t q) s = .next s' ∧ s'.recorded 0x09 4 sevNotice ∧
      s'.host.heldC[q] = s.host.heldC[q] ∧ s'.host.active = s.host.active ∧ s'.now = max (s.then t) (s.host.heldSince[q] + 400000000) := by
  refine ⟨_, if_pos ⟨steward, since, held⟩, gbEvent_recorded .., ?_, ?_, ?_⟩ <;> rw [gbEvent_alone]
  · rfl
  · rfl
  · exact at_now_due ..

theorem exec_pcieLinkDown {s : State} (steward : s.steward = true) (up : s.host.linkUp = true) (t : Nat) :
    ∃ s', exec (.pcieLinkDown t) s = .next s' ∧ s'.host = { s.host with linkUp := false } ∧ LanesKept s s' ∧ FieldKept s s' ∧
      (s.host.active = true → s'.recorded 0x09 1 sevNotice) := by
  have run : exec (.pcieLinkDown t) s = .next (if s.host.active then
      ({ s.at t with host := { s.host with linkUp := false } } : State).gbEvent 0x09 1 sevNotice
        [barWord { s.at t with host := { s.host with linkUp := false } } 0x0804]
    else { s.at t with host := { s.host with linkUp := false } }) := if_pos ⟨steward, up⟩
  rw [run]
  by_cases active : s.host.active = true
  · rw [if_pos active]
    refine ⟨_, rfl, ?_, ?_, ?_, fun _ => gbEvent_recorded ..⟩ <;> rw [gbEvent_alone]
    · exact ⟨rfl, rfl, rfl⟩
    · exact ⟨rfl, rfl, rfl, rfl⟩
  · rw [if_neg active]
    exact ⟨_, rfl, rfl, ⟨rfl, rfl, rfl⟩, ⟨rfl, rfl, rfl, rfl⟩, fun on => absurd on active⟩

section
variable {s : State} (steward : s.steward = true) (active : s.host.active = true) (master : s.host.busMaster = true)
include steward active master

theorem dmaFailure_answers {c : RingId} {ref : CmdRef} (inProg : s.host.inProg[c] = some ref) (own : ref.ring = c)
    (read : s.edits.reads.any (fun v => v.ref == some ref) = true) (room : s.host.cqRoom (s.host.cqOf c) = true)
    (free : s.host.heldC[s.host.cqOf c] = []) (t : Nat) : ∃ s', exec (.dmaFailure t (.buffer c)) s = .next s' ∧ s'.host.inProg[c] = none ∧
      s'.host.active = true ∧ ∃ b, CompletionWritten s s' (s.host.cqOf c) b ∧ u16 b 0 = ref.tag.toNat ∧ u16 b 2 = 0x0105 := by
  subst own
  have finishes : Finishes s (({ s.at t with edits := { s.edits with reads := s.edits.reads.filter fun v => v.ref != some ref } } : State).complete
    ref 0x0105 []) ref 0x0105 [] := (complete_finishes _ ref 0x0105 []).since rfl List.prefix_rfl
  obtain ⟨done, written⟩ := finishes active inProg
  obtain ⟨b, whole, tag, status, -⟩ := written master room free
  exact ⟨_, dmaFailure_buffer steward active master inProg read t, done, (complete_active ..).trans active, b, whole, tag, status⟩

theorem heldCompletion_written {q : RingId} {x : Completion} (held : s.host.heldC[q] = [x]) (made : s.host.outbox = [])
    (room : s.host.cqRoom q = true) (t : Nat) : ∃ s', exec (.heldCompletionWrite t q) s = .next s' ∧ s'.host.heldC[q] = [] ∧
      s'.host.cqTail[q] = s.host.cqTail[q] + 1 ∧ s'.host.cmds = s.host.cmds + 1 ∧
      ∃ b, CompletionWritten s s' q b ∧ s'.out.length = s.out.length + 2 ∧ u16 b 0 = x.ref.tag.toNat ∧ u16 b 2 = x.status.toNat := by
  have run := exec_heldCompletionWrite steward active master held made room t
  obtain ⟨kept, tail, cmds, length⟩ := writeCompletion_places ({ s.at t with host := { s.host with
    heldC := upd s.host.heldC q fun _ => [], heldSince := upd s.host.heldSince q fun _ => 0 } } : State) q x
  obtain ⟨b, written, tag, status, -⟩ := writeCompletion_written ({ s.at t with host := { s.host with
    heldC := upd s.host.heldC q fun _ => [], heldSince := upd s.host.heldSince q fun _ => 0 } } : State) q x
  refine ⟨_, run, ?_, tail, cmds, b, written, length, tag, status⟩
  rw [kept]
  exact getElem_upd_self ..

end

theorem bellAndHostAccess : Stated.BellAndHostAccess := by
  intro s t bs c q x steward
  refine ⟨fun active master => ⟨?poll, ⟨_, bellPoll_fails steward active master t, ringFailure_ends _⟩, ?interval,
      ⟨_, dmaFailure_ring steward active master t, ringFailure_ends _⟩,
      fun ref inProg own read room free => dmaFailure_answers steward active master inProg own read room free t,
      fun held made room => heldCompletion_written steward active master held made room t⟩, fun idle master => ?reset,
    fun paused => ⟨_, if_neg fun on => by simp [paused] at on, rfl⟩, ⟨_, rfl, rfl⟩,
    ⟨_, congrArg Host.Outcome.next (if_pos steward), rfl⟩, fun since held => exec_completionHeldTimeout steward since held t,
    fun up => exec_pcieLinkDown steward up t⟩
  case poll =>
    obtain ⟨marks, run⟩ := exec_bellPoll steward active master t bs
    obtain ⟨read, gbHead⟩ := takeBell_reads s.host bs
    exact ⟨_, run, rfl, rfl, rfl, read, gbHead, rfl, takeBell_stops, rfl, rfl, rfl⟩
  case interval =>
    obtain ⟨pend, out, same, waited, told, raised⟩ := intervalEnd_sends (s.at (max t s.host.endAt))
    refine ⟨_, exec_bellIntervalEnd steward master t, ?_⟩
    rw [same]
    exact ⟨rfl, ⟨rfl, rfl, rfl⟩, rfl, rfl, rfl, waited, told active, raised⟩
  case reset =>
    obtain ⟨pend, out, same, -, -, raised⟩ := intervalEnd_sends (s.at (max t s.host.endAt))
    refine ⟨_, exec_bellIntervalEnd steward master t, ?_⟩
    rw [same]
    exact ⟨rfl, ⟨rfl, rfl, rfl⟩, rfl, raised⟩

/-- Settles O30: each access by its own effect, an interval's end by the fold over its vectors. -/
theorem bellAndPublications : Obligations.BellAndPublications := ⟨bellAndHostAccess, publicationWritten⟩

end Sys2Proof.Machine
end

section
/-! PROOFS. What happens to one CAN port, and its errors, supply and termination (R46, R322, R323, R507). -/

namespace Sys2Proof.Machine

/-! ### One port among four -/

/-- But for port k and reports nothing changes. -/
structure State.OnPort (s s' : State) (k : PortId) : Prop where
  kept : s'.portless = s.portless
  others : ∀ j : PortId, j ≠ k → s'.cans[j] = s.cans[j]

theorem State.OnPort.refl (s : State) (k : PortId) : s.OnPort s k := ⟨rfl, fun _ _ => rfl⟩

theorem State.OnPort.trans {s s₁ s' : State} {k : PortId} (h : s.OnPort s₁ k) (h' : s₁.OnPort s' k) : s.OnPort s' k :=
  ⟨h'.kept.trans h.kept, fun j other => (h'.others j other).trans (h.others j other)⟩

section
variable {s s' : State} {k : PortId} (on : s.OnPort s' k)
include on

theorem State.OnPort.lanes : LanesKept s s' :=
  ⟨(congrArg State.rooms on.kept :), (congrArg State.dmem on.kept :), (congrArg State.img on.kept :)⟩
theorem State.OnPort.now : s'.now = s.now := now_of_portless on.kept
theorem State.OnPort.steward : s'.steward = s.steward := by rw [State.steward, phase_of_portless on.kept]; rfl
theorem State.OnPort.app : s'.app = s.app := (congrArg State.app on.kept :)
theorem State.OnPort.pwr : s'.pwr = s.pwr := (congrArg State.pwr on.kept :)
theorem State.OnPort.pair : s'.pair = s.pair := (congrArg State.pair on.kept :)

end

section
variable (s : State) (k : PortId)

theorem updCan_onPort (f : Can → Can) : s.OnPort (s.updCan k f) k := ⟨updCan_portless s k f, (updCan_cans_split s k f).2⟩
theorem updCan_self (f : Can → Can) : (s.updCan k f).cans[k] = f s.cans[k] := (updCan_cans_split s k f).1

/-- A bit of a constant with one bit set. -/
theorem getLsbD_one_shiftLeft {w b : Nat} (lt : b < w) : ((1 <<< b : Nat) : BitVec w).getLsbD b = true := by
  rw [BitVec.natCast_eq_ofNat, BitVec.getLsbD_ofNat, Nat.one_shiftLeft, Nat.testBit_two_pow]
  simp [lt]

theorem getLsbD_or_one_shiftLeft {w b : Nat} (x : BitVec w) (lt : b < w) : (x ||| ((1 <<< b : Nat) : BitVec w)).getLsbD b = true := by
  rw [BitVec.getLsbD_or, getLsbD_one_shiftLeft lt, Bool.or_true]

/-! ### Events, records and the live mode of a port -/

theorem canEvent_can (b : Nat) : (s.canEvent k b).cans[k] = { s.cans[k] with evt := s.cans[k].evt ||| ((1 <<< b : Nat) : BitVec 10) } := by
  have upd := updCan_self s k fun c => { c with evt := c.evt ||| ((1 <<< b : Nat) : BitVec 10) }
  unfold State.canEvent
  dsimp only
  split <;> exact upd

theorem canEvent_onPort (b : Nat) : s.OnPort (s.canEvent k b) k := by
  refine ⟨canEvent_portless s k b, fun j other => ?_⟩
  unfold State.canEvent
  dsimp only
  split <;> exact (updCan_onPort s k _).others j other

theorem canRecord_cans (typ : Nat) (sev : BitVec 2) (ws : List Word) : (s.canRecord k typ sev ws).cans = s.cans := by
  unfold State.canRecord
  split
  · rw [gbEvent_alone]
  · rfl

theorem canRecord_can (typ : Nat) (sev : BitVec 2) (ws : List Word) (j : PortId) : (s.canRecord k typ sev ws).cans[j] = s.cans[j] := by
  rw [canRecord_cans]

theorem canRecord_onPort (typ : Nat) (sev : BitVec 2) (ws : List Word) : s.OnPort (s.canRecord k typ sev ws) k :=
  ⟨canRecord_portless .., fun _ _ => by rw [canRecord_cans]⟩

theorem canRecord_recorded {s : State} (steward : s.steward = true) (typ : Nat) (sev : BitVec 2) (ws : List Word) :
    (s.canRecord k typ sev ws).recorded typ k.val sev := by
  rw [State.canRecord, if_pos steward]
  exact gbEvent_recorded ..

theorem canRefresh_can : ∃ relief quiet, (s.canRefresh k).cans[k] = s.cans[k].refresh relief quiet := ⟨_, _, updCan_self s k _⟩
theorem canRefresh_onPort : s.OnPort (s.canRefresh k) k := updCan_onPort s k _

/-! ### Frames withdrawn (R319, R321) -/

/-- A port from which the frame of an entry is withdrawn. -/
def Can.withdrawn (c : Can) (entry : Nat) : Can :=
  { c with
    queue := c.queue.filter (fun q => q.entry != entry)
    wdrcnt := c.wdrcnt + 1
    wdrmap := c.wdrmap ||| ((1 <<< entry : Nat) : BitVec 256)
    evt := c.evt ||| ((1 <<< 6 : Nat) : BitVec 10) }

theorem canWithdraw_can (entry : Nat) : (s.canWithdraw k entry).cans[k] = s.cans[k].withdrawn entry := by
  unfold State.canWithdraw
  dsimp only
  rw [canRecord_cans, canEvent_can]
  exact congrArg (fun c : Can => { c with evt := c.evt ||| ((1 <<< 6 : Nat) : BitVec 10) }) (updCan_self s k _)

theorem canWithdraw_onPort (entry : Nat) : s.OnPort (s.canWithdraw k entry) k := by
  refine ⟨canWithdraw_portless s k entry, fun j other => ?_⟩
  unfold State.canWithdraw
  dsimp only
  rw [canRecord_cans, (canEvent_onPort _ k 6).others j other]
  exact (updCan_onPort s k _).others j other

theorem canWithdraw_recorded {s : State} (steward : s.steward = true) (entry : Nat) : (s.canWithdraw k entry).recorded 0x50 k.val sevNotice := by
  refine canRecord_recorded k ?_ 0x50 sevNotice _
  rw [(canEvent_onPort _ k 6).steward]
  exact steward

/-- A port with its transmission emptied. -/
def Can.drained (c : Can) (wdrcnt : Word) (wdrmap : BitVec 256) (evt : BitVec 10) : Can :=
  { c with armed := [], queue := [], wdrcnt := wdrcnt, wdrmap := wdrmap, evt := evt }

theorem canWithdrawAll_onPort (l : List Nat) : s.OnPort (l.foldl (fun s e => s.canWithdraw k e) s) k :=
  List.foldlRecOn (motive := fun s' => s.OnPort s' k) l _ (.refl s k) fun s' on e _ => on.trans (canWithdraw_onPort s' k e)

/-- Withdrawing entries empties a queue of them. -/
theorem canWithdrawAll_can (l : List Nat) : ∃ wdrcnt wdrmap evt, (l.foldl (fun s e => s.canWithdraw k e) s).cans[k] =
    { s.cans[k] with queue := s.cans[k].queue.filter (fun q => q.entry ∉ l), wdrcnt := wdrcnt, wdrmap := wdrmap, evt := evt } := by
  induction l generalizing s with
  | nil => exact ⟨s.cans[k].wdrcnt, s.cans[k].wdrmap, s.cans[k].evt, by simp⟩
  | cons e l ih =>
    obtain ⟨wdrcnt, wdrmap, evt, same⟩ := ih (s.canWithdraw k e)
    have both : (s.cans[k].queue.filter fun q => q.entry != e).filter (fun q => q.entry ∉ l) =
        s.cans[k].queue.filter fun q => q.entry ∉ e :: l := by
      rw [List.filter_filter]
      exact List.filter_congr fun q _ => by grind
    refine ⟨wdrcnt, wdrmap, evt, same.trans ?_⟩
    rw [canWithdraw_can, ← both]
    rfl

theorem canDrainAll_onPort : s.OnPort (s.canDrainAll k) k := (updCan_onPort s k _).trans (canWithdrawAll_onPort _ k _)

theorem canDrainAll_can : ∃ wdrcnt wdrmap evt, (s.canDrainAll k).cans[k] = s.cans[k].drained wdrcnt wdrmap evt := by
  have upd := updCan_self s k fun c => { c with armed := [] }
  obtain ⟨wdrcnt, wdrmap, evt, same⟩ := canWithdrawAll_can (s.updCan k fun c => { c with armed := [] }) k
    ((s.updCan k fun c => { c with armed := [] }).cans[k].queue.map QFrame.entry)
  refine ⟨wdrcnt, wdrmap, evt, same.trans ?_⟩
  rw [upd, Can.drained, List.filter_eq_nil_iff.mpr]
  intro q mem
  simpa using ⟨q, mem, rfl⟩

end

/-! ### Bus-off (R322) -/

section
variable {s : State} {k : PortId}

theorem refresh_offBus (c : Can) (relief quiet : Bool) (off : c.on = false) : (c.refresh relief quiet).active = false := by
  simp [Can.refresh, off]

theorem on_busoff (c : Can) (off : c.busoff = true) : c.on = false := by simp [Can.on, off]
theorem on_unsupplied (c : Can) (off : c.vplus = false) : c.on = false := by simp [Can.on, off]
theorem on_unintegrated (c : Can) (off : c.integrated = false) : c.on = false := by simp [Can.on, off]

/-- A port bus-off: nothing is queued, every area is stale, and it is recorded. -/
theorem canBusOff_stops (s : State) (k : PortId) : s.OnPort (s.canBusOff k) k ∧ (s.canBusOff k).cans[k].busoff = true ∧
    (s.canBusOff k).cans[k].queue = [] ∧ (s.canBusOff k).cans[k].stale = BitVec.allOnes 64 ∧ (s.canBusOff k).cans[k].active = false ∧
    (s.canBusOff k).cans[k].evt.getLsbD 2 = true ∧ (s.steward = true → (s.canBusOff k).recorded 0x52 k.val sevFault) := by
  unfold State.canBusOff
  dsimp only
  generalize off : (fun c : Can => { c with
    busoff := true
    stale := BitVec.allOnes 64
    recovering := match c.cfg with | none => false | some p => p.autorec }) = f
  have busoff (c : Can) : (f c).busoff = true := by rw [← off]
  have stale (c : Can) : (f c).stale = BitVec.allOnes 64 := by rw [← off]
  have onPort : s.OnPort ((((s.updCan k f).canRefresh k).canDrainAll k).canEvent k 2) k :=
    (((updCan_onPort s k f).trans (canRefresh_onPort ..)).trans (canDrainAll_onPort ..)).trans (canEvent_onPort ..)
  obtain ⟨wdrcnt, wdrmap, evt, drained⟩ := canDrainAll_can ((s.updCan k f).canRefresh k) k
  obtain ⟨relief, quiet, refreshed⟩ := canRefresh_can (s.updCan k f) k
  have can := canEvent_can (((s.updCan k f).canRefresh k).canDrainAll k) k 2
  rw [drained, refreshed, updCan_self] at can
  generalize (((s.updCan k f).canRefresh k).canDrainAll k).canEvent k 2 = s₁ at onPort can ⊢
  refine ⟨onPort.trans (canRecord_onPort ..), ?_, ?_, ?_, ?_, ?_, fun steward => canRecord_recorded k (onPort.steward.trans steward) ..⟩ <;>
    rw [canRecord_cans, can]
  · exact busoff _
  · rfl
  · exact stale _
  · exact refresh_offBus (f s.cans[k]) relief quiet (on_busoff _ (busoff _))
  · exact getLsbD_or_one_shiftLeft _ (by decide)

/-! ### Errors (R322) -/

/-- On the bus a port is supplied and detects no rate. -/
theorem supplied_of_on {c : Can} (on : c.on = true) : c.vplus = true ∧ c.busoff = false ∧ c.det ≠ .nominal ∧ c.det ≠ .data := by
  simp only [Can.on, Bool.and_eq_true, Bool.not_eq_true'] at on
  obtain ⟨⟨⟨⟨⟨-, vplus⟩, -⟩, busoff⟩, detecting⟩, -⟩ := on
  refine ⟨vplus, busoff, ?_, ?_⟩ <;> intro det <;> simp [Can.detecting, det, detCode] at detecting

/-- The error counts and the last error do not take a port off the bus. -/
theorem on_counted (c : Can) (err : CanErr) (last : BitVec 4) : ({ c.count err with lasterr := last } : Can).on = c.on := by
  unfold Can.count
  split <;> rfl

/-- What a port shows after an error has been counted. -/
theorem counted_fields (c : Can) (err : CanErr) (last : BitVec 4) : ∃ c', { c.count err with lasterr := last } = c' ∧ c'.busoff = c.busoff ∧
    c'.queue = c.queue ∧ c'.tec = c.tec + (if err.transmitter then err.weight else 0) ∧
    c'.recc = c.recc + (if err.transmitter then 0 else err.weight) := by
  unfold Can.count
  split
  · exact ⟨_, rfl, rfl, rfl, rfl, rfl⟩
  · exact ⟨_, rfl, rfl, rfl, rfl, rfl⟩

/-- The state after a count of errors has passed the warning limit. -/
def State.warned (s : State) (k : PortId) (before after : Can) : State :=
  if (96 ≤ after.tec ∧ before.tec < 96) ∨ (96 ≤ after.recc ∧ before.recc < 96) then s.canEvent k 0 else s

theorem warned_can (s : State) (k : PortId) (before after : Can) : s.OnPort (s.warned k before after) k ∧
    ∃ evt, (s.warned k before after).cans[k] = { s.cans[k] with evt := evt } := by
  unfold State.warned
  split
  · exact ⟨canEvent_onPort .., _, canEvent_can ..⟩
  · exact ⟨.refl .., _, rfl⟩

/-- The end of an error's effect on a port that stays on the bus: it may become passive. -/
def State.passiveNoted (s : State) (k : PortId) (before : Can) : State :=
  if s.cans[k].passive && !before.passive then
    (s.canEvent k 1).canRecord k 0x51 sevNotice [barWord (s.canEvent k 1) (canReg k 0)]
  else s

theorem passiveNoted_can (s : State) (k : PortId) (before : Can) : s.OnPort (s.passiveNoted k before) k ∧
    ∃ evt, (s.passiveNoted k before).cans[k] = { s.cans[k] with evt := evt } := by
  unfold State.passiveNoted
  split
  · refine ⟨(canEvent_onPort ..).trans (canRecord_onPort ..), _, (canRecord_can ..).trans (canEvent_can ..)⟩
  · exact ⟨.refl .., _, rfl⟩

/-- An error counted on port k (R322, R330). -/
def State.erred (s : State) (k : PortId) (err : CanErr) : State :=
  s.updCan k fun c => { c.count err with lasterr := BitVec.ofNat 4 (err.code.toNat + 8 * b2n err.dphase) }

section
variable (on : s.cans[k].on = true) (free : s.cans[k].restricted = false) (talks : s.cans[k].listen = false) (t : Nat) (err : CanErr)
include on free talks

theorem exec_canError_counts : exec (.canError t k err) s = .next (
    let s₁ := ((s.at t).erred k err).warned k s.cans[k] ((s.at t).erred k err).cans[k]
    if 256 ≤ ((s.at t).erred k err).cans[k].tec then s₁.canBusOff k else (s₁.canRefresh k).passiveNoted k s.cans[k]) := by
  obtain ⟨vplus, -, nominal, data⟩ := supplied_of_on on
  change execCanError t k err s = _
  have unsupplied : ¬ (s.at t).cans[k].vplus = false := by rw [Bool.not_eq_false]; exact vplus
  have on' : (s.at t).cans[k].on = true := on
  have counts : ¬ ((s.at t).cans[k].restricted || (s.at t).cans[k].listen) = true := by
    change ¬ (s.cans[k].restricted || s.cans[k].listen) = true
    rw [free, talks]
    decide
  unfold execCanError
  dsimp only
  rw [if_neg unsupplied]
  cases det : (s.at t).cans[k].det
  case nominal => exact absurd det nominal
  case data => exact absurd det data
  all_goals
    dsimp only
    rw [if_pos on', if_neg counts]
    exact (apply_ite Host.Outcome.next _ _ _).symm

end

theorem passive_refresh {c : Can} (on : c.on = true) (relief quiet : Bool) :
    (c.refresh relief quiet).passive = decide (128 ≤ c.tec ∨ 128 ≤ c.recc) := by
  simp [Can.refresh, on]

/-- The errors that a port on the bus sees: it counts them, and goes bus-off or stays (R322). -/
theorem canError_effect (on : s.cans[k].on = true) (free : s.cans[k].restricted = false) (talks : s.cans[k].listen = false) (t : Nat)
    (err : CanErr) : ∃ s', exec (.canError t k err) s = .next s' ∧ (s.at t).OnPort s' k ∧
      (256 ≤ s.cans[k].tec + (if err.transmitter then err.weight else 0) → s'.cans[k].busoff = true ∧ s'.cans[k].queue = [] ∧
        s'.cans[k].stale = BitVec.allOnes 64 ∧ s'.cans[k].active = false ∧ s'.cans[k].evt.getLsbD 2 = true ∧
        (s.steward = true → s'.recorded 0x52 k.val sevFault)) ∧
      (s.cans[k].tec + (if err.transmitter then err.weight else 0) < 256 → s'.cans[k].busoff = s.cans[k].busoff ∧
        s'.cans[k].queue = s.cans[k].queue ∧ s'.cans[k].tec = s.cans[k].tec + (if err.transmitter then err.weight else 0) ∧
        s'.cans[k].recc = s.cans[k].recc + (if err.transmitter then 0 else err.weight) ∧
        s'.cans[k].passive = decide (128 ≤ s'.cans[k].tec ∨ 128 ≤ s'.cans[k].recc)) := by
  have run := exec_canError_counts on free talks t err
  have can : ((s.at t).erred k err).cans[k] = _ := updCan_self (s.at t) k _
  obtain ⟨c', same, busoff, queue, tec, recc⟩ := counted_fields s.cans[k] err (BitVec.ofNat 4 (err.code.toNat + 8 * b2n err.dphase))
  replace can : ((s.at t).erred k err).cans[k] = c' := can.trans same
  have on' : c'.on = true := by rw [← same, on_counted, on]
  have onPort : (s.at t).OnPort ((s.at t).erred k err) k := updCan_onPort ..
  obtain ⟨onPort', evt, warned⟩ := warned_can ((s.at t).erred k err) k s.cans[k] ((s.at t).erred k err).cans[k]
  replace onPort := onPort.trans onPort'
  rw [can] at run warned onPort
  dsimp only at run
  generalize ((s.at t).erred k err).warned k s.cans[k] c' = s₁ at run warned onPort
  by_cases far : 256 ≤ c'.tec
  · obtain ⟨offPort, off, queue', stale, active, evt', record⟩ := canBusOff_stops s₁ k
    rw [if_pos far] at run
    exact ⟨_, run, onPort.trans offPort, fun _ => ⟨off, queue', stale, active, evt', record ∘ onPort.steward.trans⟩,
      fun below => absurd below (by omega)⟩
  · obtain ⟨onPort', evt', noted⟩ := passiveNoted_can (s₁.canRefresh k) k s.cans[k]
    rw [if_neg far] at run
    refine ⟨_, run, (onPort.trans (canRefresh_onPort ..)).trans onPort', fun high => absurd high (by omega), fun _ => ?_⟩
    obtain ⟨relief, quiet, refreshed⟩ := canRefresh_can s₁ k
    rw [noted, refreshed, warned]
    exact ⟨busoff, queue, tec, recc, passive_refresh (c := { c' with evt := evt }) on' relief quiet⟩

/-! ### Recovery, supply and termination (R46, R322, R323) -/

theorem canRecovery_ends (off : s.cans[k].busoff = true) (recovering : s.cans[k].recovering = true) (t : Nat) :
    ∃ s', exec (.canRecoveryComplete t k) s = .next s' ∧ (s.at t).OnPort s' k ∧ s'.cans[k].busoff = false ∧
      s'.cans[k].tec = 0 ∧ s'.cans[k].recc = 0 ∧ s'.cans[k].evt.getLsbD 3 = true := by
  refine ⟨_, if_pos ⟨off, recovering⟩, ((updCan_onPort ..).trans (canRefresh_onPort ..)).trans (canEvent_onPort ..), ?_⟩
  obtain ⟨relief, quiet, refreshed⟩ := canRefresh_can ((s.at t).updCan k fun c => { c with busoff := false, recovering := false, tec := 0, recc := 0 }) k
  rw [canEvent_can, refreshed, updCan_self]
  exact ⟨rfl, rfl, rfl, getLsbD_or_one_shiftLeft _ (by decide)⟩

theorem exec_canRecover (steward : s.steward = true) (t : Nat) : exec (.canRecover t k) s =
    .next ((s.at t).updCan k fun c => { c with recovering := c.recovering || c.busoff }) :=
  congrArg Host.Outcome.next (if_pos steward)

/-- A port that has lost its supply (R323). -/
def Can.unsupplied (c : Can) : Can :=
  { c with
    vplus := false
    integrated := false
    busoff := false
    recovering := false
    tec := 0
    recc := 0
    term := false
    det := if c.detecting then .idle else c.det
    stale := BitVec.allOnes 64 }

theorem canVplus_lost (supplied : s.cans[k].vplus = true) (t : Nat) : ∃ s', exec (.canVplusLost t k) s = .next s' ∧ (s.at t).OnPort s' k ∧
    s'.cans[k].vplus = false ∧ s'.cans[k].integrated = false ∧ s'.cans[k].busoff = false ∧ s'.cans[k].tec = 0 ∧ s'.cans[k].recc = 0 ∧
    s'.cans[k].queue = [] ∧ s'.cans[k].term = false ∧ s'.cans[k].stale = BitVec.allOnes 64 ∧ s'.cans[k].active = false ∧
    s'.cans[k].evt.getLsbD 4 = true ∧ (s.steward = true → s'.recorded 0x53 k.val sevFault) := by
  obtain ⟨wdrcnt, wdrmap, evt, drained⟩ := canDrainAll_can (s.at t) k
  have onPort : (s.at t).OnPort (((((s.at t).canDrainAll k).updCan k Can.unsupplied).canRefresh k).canEvent k 4) k :=
    (((canDrainAll_onPort ..).trans (updCan_onPort ..)).trans (canRefresh_onPort ..)).trans (canEvent_onPort ..)
  have can := canEvent_can ((((s.at t).canDrainAll k).updCan k Can.unsupplied).canRefresh k) k 4
  obtain ⟨relief, quiet, refreshed⟩ := canRefresh_can (((s.at t).canDrainAll k).updCan k Can.unsupplied) k
  rw [refreshed, updCan_self, drained] at can
  have run : exec (.canVplusLost t k) s = .next ((((((s.at t).canDrainAll k).updCan k Can.unsupplied).canRefresh k).canEvent k 4).canRecord k 0x53
      sevFault [barWord (((((s.at t).canDrainAll k).updCan k Can.unsupplied).canRefresh k).canEvent k 4) (canReg k 0)]) := if_pos supplied
  refine ⟨_, run, onPort.trans (canRecord_onPort ..), ?_⟩
  generalize ((((s.at t).canDrainAll k).updCan k Can.unsupplied).canRefresh k).canEvent k 4 = s₁ at onPort can ⊢
  refine ⟨?_, ?_, ?_, ?_, ?_, ?_, ?_, ?_, ?_, ?_, fun steward => canRecord_recorded k (onPort.steward.trans steward) ..⟩ <;>
    rw [canRecord_can, can]
  · rfl
  · rfl
  · rfl
  · rfl
  · rfl
  · rfl
  · rfl
  · rfl
  · exact refresh_offBus _ relief quiet (on_unsupplied _ rfl)
  · exact getLsbD_or_one_shiftLeft _ (by decide)

/-- The end of a supply's return: with AUTO rate detection starts (R329). -/
def Can.autoDetect (c : Can) (now : Nat) : Can :=
  match c.cfg with
  | some p => if p.auto ∧ p.mode ≠ 0 then c.detBegin false now else c
  | none => c

theorem autoDetect_fields (c : Can) (now : Nat) : (c.autoDetect now).vplus = c.vplus ∧ (c.autoDetect now).integrated = c.integrated ∧
    (c.autoDetect now).term = c.term ∧ (c.autoDetect now).termSet = c.termSet := by
  unfold Can.autoDetect
  split
  · split <;> exact ⟨rfl, rfl, rfl, rfl⟩
  · exact ⟨rfl, rfl, rfl, rfl⟩

/-- The steward, when it runs, has applied a port's stored termination setting. -/
def State.terminated (s : State) (k : PortId) : State := if s.steward then s.applyTerm k else s

theorem terminated_can (s : State) (k : PortId) : s.OnPort (s.terminated k) k ∧ (s.terminated k).now = s.now ∧
    (s.terminated k).cans[k].vplus = s.cans[k].vplus ∧ (s.terminated k).cans[k].integrated = s.cans[k].integrated ∧
    (s.steward = true → (s.terminated k).cans[k].term = ((s.terminated k).cans[k].termSet && s.cans[k].vplus)) := by
  have upd := updCan_self s k fun c => { c with termSet := s.termStored k, term := s.termStored k && c.vplus }
  unfold State.terminated
  split
  next steward =>
    refine ⟨updCan_onPort .., rfl, ?_, ?_, fun _ => ?_⟩ <;> rw [State.applyTerm, upd]
  next off => exact ⟨.refl .., rfl, rfl, rfl, fun on => absurd on off⟩

theorem canVplus_returns (lost : s.cans[k].vplus = false) (t : Nat) : ∃ s', exec (.canVplusReturn t k) s = .next s' ∧ (s.at t).OnPort s' k ∧
    s'.cans[k].vplus = true ∧ s'.cans[k].integrated = false ∧ s'.cans[k].active = false ∧
    (s.steward = true → s'.cans[k].term = s'.cans[k].termSet) := by
  have on' : ¬ (s.at t).cans[k].vplus = true := by rw [Bool.not_eq_true]; exact lost
  have run : exec (.canVplusReturn t k) s = .next (((((s.at t).updCan k fun c => { c with vplus := true, integrated := false }).terminated k).updCan k
      fun c => c.autoDetect (((s.at t).updCan k fun c => { c with vplus := true, integrated := false }).terminated k).now).canRefresh k) := if_neg on'
  have supplied := updCan_self (s.at t) k fun c => { c with vplus := true, integrated := false }
  obtain ⟨onPort, -, vplus, integrated, term⟩ := terminated_can ((s.at t).updCan k fun c => { c with vplus := true, integrated := false }) k
  rw [supplied] at vplus integrated term
  replace onPort := (updCan_onPort (s.at t) k fun c => { c with vplus := true, integrated := false }).trans onPort
  replace term := fun steward : s.steward = true => term steward
  generalize ((s.at t).updCan k fun c => { c with vplus := true, integrated := false }).terminated k = s₁ at run onPort vplus integrated term
  obtain ⟨vplus', integrated', term', termSet'⟩ := autoDetect_fields s₁.cans[k] s₁.now
  obtain ⟨relief, quiet, refreshed⟩ := canRefresh_can (s₁.updCan k fun c => c.autoDetect s₁.now) k
  rw [updCan_self] at refreshed
  refine ⟨_, run, onPort.trans ((updCan_onPort ..).trans (canRefresh_onPort ..)), ?_⟩
  rw [refreshed]
  refine ⟨vplus'.trans vplus, integrated'.trans integrated, refresh_offBus _ relief quiet (on_unintegrated _ (integrated'.trans integrated)),
    fun steward => ?_⟩
  exact (term'.trans ((term steward).trans (Bool.and_true _))).trans termSet'.symm

theorem canPort_integrates (supplied : s.cans[k].vplus = true) (apart : s.cans[k].integrated = false) (mode : s.cans[k].cfgMode ≠ 0) (t : Nat) :
    ∃ s', exec (.canPortIntegrated t k) s = .next s' ∧ (s.at t).OnPort s' k ∧ s'.cans[k].integrated = true ∧ s'.cans[k].evt.getLsbD 5 = true := by
  obtain ⟨relief, quiet, refreshed⟩ := canRefresh_can ((s.at t).updCan k fun c => { c with integrated := true }) k
  refine ⟨_, if_pos ⟨supplied, apart, mode⟩, ((updCan_onPort ..).trans (canRefresh_onPort ..)).trans (canEvent_onPort ..), ?_⟩
  rw [canEvent_can, refreshed, updCan_self]
  exact ⟨rfl, getLsbD_or_one_shiftLeft _ (by decide)⟩

theorem canTerm_stored (steward : s.steward = true) (t : Nat) (on : Bool) : ∃ s', exec (.canTermWrite t k on) s = .next s' ∧
    (s.at t).OnPort s' k ∧ s'.cans[k].termSet = on ∧ s'.cans[k].term = (on && s.cans[k].vplus) ∧ s'.nv.writes = s.nv.writes + 1 := by
  have upd := updCan_self (s.at t) k fun c => { c with termSet := on, term := on && c.vplus }
  have others := (updCan_onPort (s.at t) k fun c => { c with termSet := on, term := on && c.vplus }).others
  refine ⟨_, if_pos steward, ?_⟩
  rw [recWrite_alone]
  refine ⟨⟨rfl, others⟩, ?_, ?_, rfl⟩
  · exact congrArg Can.termSet upd
  · exact congrArg Can.term upd

theorem exec_dominantTimeOut (supplied : s.cans[k].vplus = true) (t : Nat) : exec (.dominantTimeOut t k) s =
    .next ((s.at t).updCan k fun c => { c with domRel := true }) :=
  congrArg Host.Outcome.next (if_pos supplied)

end

/-- Settles O25: each event by what it does to its port. -/
theorem canErrorsAndSupply : Obligations.CanErrorsAndSupply := by
  intro s t k err on p others
  refine ⟨fun up free talks => ?error, fun off recovering => ?_, fun steward => ?_, fun supplied => ?_, fun lost => ?_,
    fun supplied apart mode => ?_, fun steward => ?_, fun supplied => ?_⟩
  case error =>
    obtain ⟨s', run, onPort, stops, stays⟩ := canError_effect up free talks t err
    refine ⟨s', run, ⟨onPort.lanes, onPort.others⟩, ?_⟩
    split
    next far => exact stops (by rw [if_pos far.1]; exact far.2)
    next near =>
      intro low up'
      obtain ⟨busoff, fields⟩ := stays (by
        split
        next sends => exact Nat.lt_of_not_le fun far => near ⟨sends, far⟩
        next => exact low)
      exact ⟨busoff.trans up', fields⟩
  · obtain ⟨s', run, onPort, fields⟩ := canRecovery_ends off recovering t
    exact ⟨s', run, ⟨onPort.lanes, onPort.others⟩, fields⟩
  · exact ⟨_, exec_canRecover steward t, ⟨⟨rfl, rfl, rfl⟩, (updCan_onPort (s.at t) k _).others⟩, updCan_self (s.at t) k _⟩
  · obtain ⟨s', run, onPort, fields⟩ := canVplus_lost supplied t
    exact ⟨s', run, ⟨onPort.lanes, onPort.others⟩, fields⟩
  · obtain ⟨s', run, onPort, fields⟩ := canVplus_returns lost t
    exact ⟨s', run, ⟨onPort.lanes, onPort.others⟩, fields⟩
  · obtain ⟨s', run, onPort, fields⟩ := canPort_integrates supplied apart mode t
    exact ⟨s', run, ⟨onPort.lanes, onPort.others⟩, fields⟩
  · obtain ⟨s', run, onPort, fields⟩ := canTerm_stored steward t on
    exact ⟨s', run, ⟨onPort.lanes, onPort.others⟩, fields⟩
  · exact ⟨_, exec_dominantTimeOut supplied t, ⟨⟨rfl, rfl, rfl⟩, (updCan_onPort (s.at t) k _).others⟩, updCan_self (s.at t) k _⟩

end Sys2Proof.Machine
end

section
/-! PROOFS. CAN frames received and sent, and the detection of rates (R309 to R321, R327, R329). -/

namespace Sys2Proof.Machine

section
variable {s : State} {k : PortId}

/-! ### Rate detection (R329) -/

theorem detecting_of_running {c : Can} (running : c.det = .nominal ∨ c.det = .data) : c.detecting = true := by
  rcases running with det | det <;> rw [Can.detecting, det] <;> rfl

theorem canDet_starts (steward : s.steward = true) (stopped : s.app.running = false) (idle : s.cans[k].det = .idle) (t : Nat) :
    ∃ s', exec (.canDetStart t k) s = .next s' ∧ (s.at t).OnPort s' k ∧ s'.cans[k].det = .nominal ∧
      s'.cans[k].detNom = 0 ∧ s'.cans[k].detStart = s.then t ∧ s'.cans[k].detValid = false := by
  have free : ((!(s.at t).app.running || (s.at t).cans[k].cfgMode == 0) && !(s.at t).cans[k].detecting) = true := by
    have stopped' : (s.at t).app.running = false := stopped
    have idle' : (s.at t).cans[k].det = .idle := idle
    rw [stopped', Can.detecting, idle']
    rfl
  obtain ⟨relief, quiet, refreshed⟩ := canRefresh_can ((s.at t).updCan k fun c => c.detBegin true (s.at t).now) k
  rw [updCan_self] at refreshed
  refine ⟨_, (if_pos steward).trans (if_pos free), (updCan_onPort ..).trans (canRefresh_onPort ..), ?_⟩
  rw [refreshed]
  exact ⟨rfl, rfl, rfl, rfl⟩

theorem exec_canDetStart_refused (steward : s.steward = true) (running : s.cans[k].det = .nominal ∨ s.cans[k].det = .data) (t : Nat) :
    exec (.canDetStart t k) s = .next (((s.at t).updCan k fun c => { c with detRefused := true }).mark (0x2020 + 0x400 * k.val) 8) := by
  have busy : ¬ ((!(s.at t).app.running || (s.at t).cans[k].cfgMode == 0) && !(s.at t).cans[k].detecting) = true := by
    have detecting : (s.at t).cans[k].detecting = true := detecting_of_running running
    rw [detecting]
    simp
  exact (if_pos steward).trans (if_neg busy)

/-- A port after a good frame of a nominal detection. -/
def Can.nominalFrame (c : Can) : Can := { c with rxcnt := c.rxcnt + 1, detFrames := satAdd16 c.detFrames, detGood := c.detGood + 1 }

theorem exec_canFrameReceived_nominal (supplied : s.cans[k].vplus = true) (nominal : s.cans[k].det = .nominal) (t : Nat) (x : CanFrame) :
    exec (.canFrameReceived t k x) s = .next (if 2 ≤ s.cans[k].detGood + 1 then
        ((s.at t).updCan k Can.nominalFrame).updCan k fun c => c.detDataAt 0 (s.then t)
      else (s.at t).updCan k Can.nominalFrame) := by
  change execCanFrameReceived t k x s = _
  have on : ¬ (s.at t).cans[k].vplus = false := by rw [Bool.not_eq_false]; exact supplied
  have nominal' : (s.at t).cans[k].det = .nominal := nominal
  have good : ((s.at t).updCan k Can.nominalFrame).cans[k].detGood = s.cans[k].detGood + 1 := congrArg Can.detGood (updCan_self ..)
  unfold execCanFrameReceived
  dsimp only
  rw [if_neg on, nominal']
  dsimp only
  exact congrArg (fun n : Nat => Host.Outcome.next (if 2 ≤ n then
    ((s.at t).updCan k Can.nominalFrame).updCan k fun c => c.detDataAt 0 (s.then t) else (s.at t).updCan k Can.nominalFrame)) good

theorem canDet_counts (supplied : s.cans[k].vplus = true) (nominal : s.cans[k].det = .nominal) (t : Nat) (x : CanFrame) :
    ∃ s', exec (.canFrameReceived t k x) s = .next s' ∧ (s.at t).OnPort s' k ∧ s'.cans[k].rxcnt = s.cans[k].rxcnt + 1 ∧
      (s.cans[k].detGood = 0 → s'.cans[k].det = .nominal ∧ s'.cans[k].detGood = 1) ∧
      (s.cans[k].detGood = 1 → s'.cans[k].det = .data ∧ s'.cans[k].detData = 0) := by
  refine ⟨_, exec_canFrameReceived_nominal supplied nominal t x, ?_⟩
  split
  next many =>
    refine ⟨(updCan_onPort ..).trans (updCan_onPort ..), ?_⟩
    rw [updCan_self, updCan_self]
    exact ⟨rfl, fun none' => by omega, fun _ => ⟨rfl, rfl⟩⟩
  next few =>
    refine ⟨updCan_onPort .., ?_⟩
    rw [updCan_self]
    exact ⟨rfl, fun none' => ⟨nominal, congrArg (· + 1) none'⟩, fun one => by omega⟩

theorem canDet_steps (supplied : s.cans[k].vplus = true) (nominal : s.cans[k].det = .nominal) (t : Nat) {err : CanErr}
    (header : err.dphase = false) : exec (.canError t k err) s = .next ((s.at t).updCan k fun c =>
      { c.detNominal (c.detNom + 1) with lasterr := BitVec.ofNat 4 (err.code.toNat + 8 * b2n err.dphase) }) := by
  change execCanError t k err s = _
  have on : ¬ (s.at t).cans[k].vplus = false := by rw [Bool.not_eq_false]; exact supplied
  have nominal' : (s.at t).cans[k].det = .nominal := nominal
  unfold execCanError
  dsimp only
  rw [if_neg on, nominal']
  simp only [header, Bool.false_eq_true, if_false]

/-- A port on which detection has found its rates (R329). -/
theorem detLock_locks (s : State) (k : PortId) (d : Nat) : s.OnPort (s.detLock k d) k ∧ (s.detLock k d).cans[k].det = .locked ∧
    (s.detLock k d).cans[k].detValid = true ∧ (s.detLock k d).cans[k].evt.getLsbD 8 = true := by
  unfold State.detLock
  dsimp only
  generalize locked : (fun c : Can => { c with
    det := .locked
    detValid := true
    detNomRes := nomCode c.detNom
    detDataRes := dataCode d
    nbt := nomTiming c.detNom
    dbt := dataTiming d }) = f
  have found (c : Can) : (f c).det = .locked ∧ (f c).detValid = true := by rw [← locked]; exact ⟨rfl, rfl⟩
  obtain ⟨relief, quiet, refreshed⟩ := canRefresh_can ((s.updCan k f).canEvent k 8) k
  rw [canEvent_can, updCan_self] at refreshed
  refine ⟨((updCan_onPort ..).trans (canEvent_onPort ..)).trans (canRefresh_onPort ..), ?_⟩
  rw [refreshed]
  exact ⟨(found _).1, (found _).2, getLsbD_or_one_shiftLeft _ (by decide)⟩

/-- A detection that ends without a result (R329). -/
theorem detFailed_fails (s : State) (k : PortId) : s.OnPort (s.detFailed k) k ∧ (s.detFailed k).cans[k].det = .failed ∧
    (s.detFailed k).cans[k].detFail = true ∧ (s.detFailed k).cans[k].evt.getLsbD 9 = true ∧
    (s.detFailed k).cans[k].stale = BitVec.allOnes 64 ∧ (s.steward = true → (s.detFailed k).recorded 0x54 k.val sevNotice) := by
  unfold State.detFailed
  dsimp only
  generalize failed : (fun c : Can => { c with det := .failed, detFail := true, detValid := false, stale := BitVec.allOnes 64 }) = f
  have marks (c : Can) : (f c).det = .failed ∧ (f c).detFail = true ∧ (f c).stale = BitVec.allOnes 64 := by rw [← failed]; exact ⟨rfl, rfl, rfl⟩
  obtain ⟨relief, quiet, refreshed⟩ := canRefresh_can ((s.updCan k f).canEvent k 9) k
  rw [canEvent_can, updCan_self] at refreshed
  have onPort : s.OnPort (((s.updCan k f).canEvent k 9).canRefresh k) k :=
    ((updCan_onPort ..).trans (canEvent_onPort ..)).trans (canRefresh_onPort ..)
  generalize ((s.updCan k f).canEvent k 9).canRefresh k = s₁ at onPort refreshed
  obtain ⟨det, fail, stale⟩ := marks s.cans[k]
  refine ⟨onPort.trans (canRecord_onPort ..), ?_, ?_, ?_, ?_, fun steward => canRecord_recorded k (onPort.steward.trans steward) ..⟩ <;>
    rw [canRecord_can, refreshed]
  · exact det
  · exact fail
  · exact getLsbD_or_one_shiftLeft _ (by decide)
  · exact stale

end

/-- Settles O26: each step of a detection by what it does to its port. -/
theorem canRateDetection : Obligations.CanRateDetection := by
  intro s t k x p others
  refine ⟨fun steward stopped idle => ?_, fun steward running => ?_, fun supplied nominal => ?_, fun supplied nominal => ?_, fun data none' => ?_,
    fun running limit => ?_, fun steward running => ?_⟩
  · obtain ⟨s', run, onPort, fields⟩ := canDet_starts steward stopped idle t
    exact ⟨s', run, ⟨onPort.lanes, onPort.others⟩, fields⟩
  · exact ⟨_, exec_canDetStart_refused steward running t, ⟨⟨rfl, rfl, rfl⟩, (updCan_onPort (s.at t) k _).others⟩, updCan_self (s.at t) k _⟩
  · obtain ⟨s', run, onPort, fields⟩ := canDet_counts supplied nominal t x
    exact ⟨s', run, ⟨onPort.lanes, onPort.others⟩, fields⟩
  · refine ⟨_, canDet_steps supplied nominal t rfl, ⟨⟨rfl, rfl, rfl⟩, (updCan_onPort (s.at t) k _).others⟩, ?_⟩
    rw [updCan_self]
    exact ⟨rfl, rfl, rfl⟩
  · obtain ⟨onPort, det, valid, evt⟩ := detLock_locks (s.at (max t (p.detSince + secCycles))) k 3
    exact ⟨_, if_pos ⟨data, none'⟩, ⟨onPort.lanes, onPort.others⟩, det, valid, evt, onPort.now.trans (at_now_due ..)⟩
  · obtain ⟨onPort, det, fail, evt, stale, record⟩ := detFailed_fails (s.at (max t (p.detStart + p.detTime.toNat * secCycles))) k
    exact ⟨_, if_pos ⟨detecting_of_running running, limit⟩, ⟨onPort.lanes, onPort.others⟩, det, fail, evt, stale,
      onPort.now.trans (at_now_due ..), record⟩
  · obtain ⟨onPort, det, fail, -⟩ := detFailed_fails (s.at t) k
    have both : ((s.at t).steward && (s.at t).cans[k].detecting) = true :=
      Bool.and_eq_true_iff.mpr ⟨steward, detecting_of_running running⟩
    exact ⟨_, congrArg Host.Outcome.next (if_pos both), ⟨onPort.lanes, onPort.others⟩, det, fail⟩

end Sys2Proof.Machine
end

section
/-! PROOFS. CAN frames received and sent (R309 to R321, R327). -/

namespace Sys2Proof.Machine

/-! ### Reception (R313 to R316) -/

theorem hit_iff (f : CanFilter) (x : CanFrame) : f.hit x = true ↔ x.remote = false ∧ x.ide = f.ide ∧ x.id.toNat &&& f.mask = f.id &&& f.mask ∧
    (f.fmt = 0 ∨ (f.fmt = 1 ∧ x.fd = false) ∨ (f.fmt = 2 ∧ x.fd = true)) ∧ f.src + f.len ≤ x.payload.length := by
  simp [CanFilter.hit, and_assoc, or_assoc]

theorem matching_single (f : CanFilter) (x : CanFrame) : matching [f] x = if f.hit x then [(0, f)] else [] := by
  cases hit : f.hit x <;> simp [matching, hit]

/-- A good frame changes of a port only its counts. -/
theorem goodRx_fields (c : Can) : c.goodRx.hits = c.hits ∧ c.goodRx.ovrcnt = c.ovrcnt ∧ c.goodRx.cycleStart = c.cycleStart ∧
    c.goodRx.rxcnt = c.rxcnt := by
  unfold Can.goodRx
  split <;> exact ⟨rfl, rfl, rfl, rfl⟩

/-- A good frame taken by port k. -/
def State.frameCounted (s : State) (k : PortId) : State := (s.updCan k fun c => { c.goodRx with rxcnt := c.rxcnt + 1 }).canRefresh k

theorem frameCounted_can (s : State) (k : PortId) : s.OnPort (s.frameCounted k) k ∧ (s.frameCounted k).cans[k].rxcnt = s.cans[k].rxcnt + 1 ∧
    (s.frameCounted k).cans[k].hits = s.cans[k].hits ∧ (s.frameCounted k).cans[k].ovrcnt = s.cans[k].ovrcnt ∧
    (s.frameCounted k).cans[k].cycleStart = s.cans[k].cycleStart := by
  obtain ⟨relief, quiet, refreshed⟩ := canRefresh_can (s.updCan k fun c => { c.goodRx with rxcnt := c.rxcnt + 1 }) k
  rw [updCan_self] at refreshed
  obtain ⟨hits, ovrcnt, cycleStart, -⟩ := goodRx_fields s.cans[k]
  refine ⟨(updCan_onPort ..).trans (canRefresh_onPort ..), ?_⟩
  rw [State.frameCounted, refreshed]
  exact ⟨rfl, hits, ovrcnt, cycleStart⟩

section
variable {s : State} {k : PortId}

theorem exec_canFrameReceived_on (on : s.cans[k].on = true) {c : Conf} (cur : s.app.cur = some c) {f : CanFilter}
    (single : c.way.filters.filter (fun f => f.port == k.val) = [f]) (t : Nat) (x : CanFrame) : exec (.canFrameReceived t k x) s =
      .next (if f.hit x then ((s.at t).frameCounted k).canMap k x (0, f) else (s.at t).frameCounted k) := by
  obtain ⟨vplus, -, nominal, data⟩ := supplied_of_on on
  change execCanFrameReceived t k x s = _
  have unsupplied : ¬ (s.at t).cans[k].vplus = false := by rw [Bool.not_eq_false]; exact vplus
  have on' : (s.at t).cans[k].on = true := on
  have conf : (((s.at t).frameCounted k).app.cur <|> ((s.at t).frameCounted k).app.stored) = some c := by
    rw [(frameCounted_can (s.at t) k).1.app]
    change (s.app.cur <|> s.app.stored) = some c
    rw [cur]
    rfl
  unfold execCanFrameReceived
  dsimp only
  rw [if_neg unsupplied]
  cases det : (s.at t).cans[k].det
  case nominal => exact absurd det nominal
  case data => exact absurd det data
  all_goals
    dsimp only
    rw [if_pos on']
    change (match ((s.at t).frameCounted k).app.cur <|> ((s.at t).frameCounted k).app.stored with | none => _ | some cf => _) = _
    rw [conf]
    dsimp only
    rw [single, matching_single]
    split <;> rfl

end

/-- The mapped bytes of a frame in the receive bytes (R314). -/
def State.mapped (s : State) (k : PortId) (x : CanFrame) (f : CanFilter) : State :=
  { s with img := { s.img with canRx := s.img.canRx.write (f.write k.val x).1 (f.write k.val x).2 } }

/-- A port with a hit of its filter noted (R316). -/
def Can.hitNoted (c : Can) (again : Bool) : Can :=
  { c with
    hits := if c.cycleStart.isSome then c.hits ||| ((1 <<< 0 : Nat) : BitVec 64) else c.hits
    ovrcnt := if again then c.ovrcnt + 1 else c.ovrcnt }

theorem canMap_eq (s : State) (k : PortId) (x : CanFrame) (f : CanFilter) : s.canMap k x (0, f) =
    if s.cans[k].hits.getLsbD 0 then ((s.mapped k x f).updCan k (·.hitNoted (s.cans[k].hits.getLsbD 0))).canEvent k 7
    else (s.mapped k x f).updCan k (·.hitNoted (s.cans[k].hits.getLsbD 0)) := rfl

/-- What a matching frame changes of a port (R314, R316). -/
theorem canMap_notes (s : State) (k : PortId) (x : CanFrame) (f : CanFilter) : (s.mapped k x f).OnPort (s.canMap k x (0, f)) k ∧
    (s.canMap k x (0, f)).cans[k].rxcnt = s.cans[k].rxcnt ∧
    (s.cans[k].hits.getLsbD 0 = true → (s.canMap k x (0, f)).cans[k].ovrcnt = s.cans[k].ovrcnt + 1 ∧
      (s.canMap k x (0, f)).cans[k].evt.getLsbD 7 = true) ∧
    (s.cans[k].cycleStart.isSome = true → (s.canMap k x (0, f)).cans[k].hits.getLsbD 0 = true) := by
  have noted := updCan_self (s.mapped k x f) k (·.hitNoted (s.cans[k].hits.getLsbD 0))
  have some' (open' : s.cans[k].cycleStart.isSome = true) : (s.cans[k].hitNoted (s.cans[k].hits.getLsbD 0)).hits.getLsbD 0 = true := by
    rw [Can.hitNoted, if_pos open']
    exact getLsbD_or_one_shiftLeft _ (by decide)
  rw [canMap_eq]
  split
  next again =>
    refine ⟨(updCan_onPort ..).trans (canEvent_onPort ..), ?_⟩
    rw [canEvent_can, noted]
    exact ⟨rfl, fun _ => ⟨if_pos again, getLsbD_or_one_shiftLeft _ (by decide)⟩, some'⟩
  next first =>
    refine ⟨updCan_onPort .., ?_⟩
    rw [noted]
    exact ⟨rfl, fun again => absurd again first, some'⟩

/-- The receive bytes after a frame has been mapped: its stamp, its bytes, and the rest as before (R309, R315). -/
theorem mapped_byte {m : Mem} (wf : m.wf = true) (f : CanFilter) (k : Nat) (x : CanFrame) (y : Nat) :
    (m.write (f.write k x).1 (f.write k x).2).get y =
      if f.stamp = true ∧ 0x800 + 0x100 * k + f.dst ≤ y ∧ y < 0x800 + 0x100 * k + f.dst + 4 then
        x.sofTb.extractLsb' (8 * (y - (0x800 + 0x100 * k + f.dst))) 8
      else if 0x800 + 0x100 * k + f.dst + (if f.stamp then 4 else 0) ≤ y ∧ y < 0x800 + 0x100 * k + f.dst + (if f.stamp then 4 else 0) + f.len then
        byteAt x.payload (f.src + (y - (0x800 + 0x100 * k + f.dst) - (if f.stamp then 4 else 0)))
      else m.get y := by
  generalize base : 0x800 + 0x100 * k + f.dst = b
  rw [Mem.get_write wf, CanFilter.write, base]
  cases stamp : f.stamp
  · simp only [Bool.false_eq_true, if_false, false_and, List.nil_append, length_slice, Nat.add_zero, Nat.sub_zero]
    by_cases inside : b ≤ y ∧ y < b + f.len
    · rw [if_pos inside, if_pos inside]
      exact byteAt_slice x.payload (by omega)
    · rw [if_neg inside, if_neg inside]
  · simp only [if_true, true_and, List.length_append, length_toLe, length_slice]
    by_cases head : b ≤ y ∧ y < b + 4
    · rw [if_pos head, if_pos (by omega), List.getD_append _ _ _ _ (by simp; omega)]
      exact getD_toLe_word x.sofTb (by omega)
    · rw [if_neg head]
      by_cases inside : b + 4 ≤ y ∧ y < b + 4 + f.len
      · rw [if_pos inside, if_pos (by omega), List.getD_append_right _ _ _ _ (by simp; omega), length_toLe]
        exact byteAt_slice x.payload (by omega)
      · rw [if_neg inside, if_neg (by omega)]

theorem canReception : Stated.CanReception := by
  intro s t k x c f inv on cur single hit head
  obtain ⟨onPort, rxcnt, hits, ovrcnt, cycleStart⟩ := frameCounted_can (s.at t) k
  have run := exec_canFrameReceived_on on cur single t x
  obtain ⟨rooms, dmem, img⟩ := onPort.lanes
  have others := onPort.others
  generalize (s.at t).frameCounted k = s₁ at run rxcnt hits ovrcnt cycleStart rooms dmem img others
  by_cases match' : f.hit x = true
  · rw [if_pos match'] at run
    obtain ⟨onPort', rxcnt', again, started⟩ := canMap_notes s₁ k x f
    obtain ⟨rooms', dmem', img'⟩ := onPort'.lanes
    have mapped : (s₁.canMap k x (0, f)).img = { s.img with canRx := s.img.canRx.write (f.write k.val x).1 (f.write k.val x).2 } := by
      rw [img', State.mapped, img]
      rfl
    rw [hits, ovrcnt] at again
    rw [cycleStart] at started
    refine ⟨_, run, rxcnt'.trans rxcnt, rooms'.trans rooms, dmem'.trans dmem, by rw [mapped], fun j other => (onPort'.others j other).trans (others j other),
      fun _ y => ?_, fun no => absurd ((hit_iff f x).mp match') no, fun _ => again, fun _ => started⟩
    rw [mapped]
    exact mapped_byte inv.canRx f k.val x y
  · rw [if_neg match'] at run
    have no : ¬ hit := fun yes => match' ((hit_iff f x).mpr yes)
    exact ⟨_, run, rxcnt, rooms, dmem, by rw [img]; rfl, others, fun yes => absurd yes no, fun _ => ⟨img, ovrcnt⟩, fun yes => absurd yes no,
      fun yes => absurd yes no⟩

/-! ### Transmission (R317 to R321, R327) -/

theorem canFrameBytes_fields (b : CanBuf) (payload : List Byte) :
    (canFrameBytes b payload).drop 6 = payload ∧ u32 (canFrameBytes b payload) 0 = b.id % 2 ^ 32 := by
  constructor
  · rw [canFrameBytes, List.drop_append_of_le_length (by simp), List.drop_of_length_le (by simp), List.nil_append]
  · simp [canFrameBytes, u32, List.append_assoc]

section
variable {s : State} {k : PortId} {c : Conf} {i n : Nat} {e : CanCyc} {b : CanBuf} {q : QFrame}

section
variable (cur : s.app.cur = some c) (entry : (c.way.cycs.filter (fun x => x.port == k.val))[i]? = some e)
  (buffer : (c.way.bufs.filter (fun x => x.port == k.val))[e.buf]? = some b)
include cur entry buffer

/-- The frame that a window queues (R318). -/
def State.windowFrame (s : State) (k : PortId) (i n : Nat) (e : CanCyc) (b : CanBuf) : QFrame :=
  { entry := i
    payload := s.img.com.read (0x2000 + 0x100 * k.val + b.txoff) (canPayload b.dlc)
    latest := n * tickCycles + e.wclose * usCycles - frameTime b s.cans[k].nbt s.cans[k].dbt
    attempt := false
    final := false }

theorem exec_canWindowOpen (start : s.cans[k].cycleStart = some n) (armed : s.cans[k].armed.contains i = true) (t : Nat) :
    exec (.canWindowOpen t k i) s = .next ((s.at (max t (s.cycleOfTb (n * tickCycles + e.wopen * usCycles)))).updCan k
      fun c => { c with armed := c.armed.erase i, queue := c.queue ++ [s.windowFrame k i n e b] }) := by
  change execCanWindowOpen t k i s = _
  unfold execCanWindowOpen
  dsimp only
  rw [cur, start]
  dsimp only
  rw [show (c.way.entriesOf k.val)[i]? = some e from entry]
  dsimp only
  rw [buffer]
  dsimp only
  rw [if_pos armed]
  rfl

theorem bufOf_entry (t : Nat) : (s.at t).bufOf k i = some b := by
  unfold State.bufOf
  rw [show (s.at t).app.cur = some c from cur]
  dsimp only
  rw [show (c.way.entriesOf k.val)[i]? = some e from entry]
  exact buffer

theorem canTx_attempts (on : s.cans[k].on = true) (gate : s.cans[k].gate = false) (listen : s.cans[k].listen = false)
    (restricted : s.cans[k].restricted = false) (queue : s.cans[k].queue = [q]) (idle : q.attempt = false) (retried : q.final = false)
    (own : q.entry = i) (t : Nat) (early : (s.at t).tb ≤ q.latest) (td : Byte) : ∃ s', exec (.canTxAttempt t k td) s = .next s' ∧
      (s.at t).OnPort s' k ∧ s'.cans[k].queue = [{ q with attempt := true }] ∧
      ∃ bs, s'.out = s.out ++ [.canTx k bs] ∧ bs.drop 6 = q.payload ∧ u32 bs 0 = b.id % 2 ^ 32 := by
  have ready : ((s.at t).cans[k].on && !(s.at t).cans[k].gate && !(s.at t).cans[k].listen && !(s.at t).cans[k].restricted &&
      (s.at t).cans[k].queue.all (fun q => !q.attempt)) = true := by
    change (s.cans[k].on && !s.cans[k].gate && !s.cans[k].listen && !s.cans[k].restricted && s.cans[k].queue.all (fun q => !q.attempt)) = true
    rw [on, gate, listen, restricted, queue]
    simp [idle]
  have first : (s.at t).cans[k].queue.find? (fun q => decide ((s.at t).tb ≤ q.latest) && !q.final) = some q := by
    change s.cans[k].queue.find? (fun q => decide ((s.at t).tb ≤ q.latest) && !q.final) = some q
    rw [queue]
    simp [early, retried]
  obtain ⟨payload, id⟩ := canFrameBytes_fields b q.payload
  have run : exec (.canTxAttempt t k td) s = .next (((s.at t).updCan k (fun c => { c with
      queue := c.queue.map (fun x => if x.entry = q.entry then { x with attempt := true } else x)
      tdcv := if b.fdf && bit c.dbt.toNat 22 then td else c.tdcv
      domRel := false })).emit (.canTx k (canFrameBytes b q.payload))) := by
    change execCanTxAttempt t k td s = _
    unfold execCanTxAttempt
    dsimp only
    rw [if_pos ready, first]
    dsimp only
    rw [own, bufOf_entry cur entry buffer]
  refine ⟨_, run, (updCan_onPort (s.at t) k _).trans ⟨rfl, fun _ _ => rfl⟩, ?_, _, rfl, payload, id⟩
  refine (congrArg Can.queue (updCan_self ..)).trans ?_
  change s.cans[k].queue.map _ = _
  rw [queue]
  simp

end

theorem exec_canTxAttempt_shut (shut : s.cans[k].gate = true ∨ s.cans[k].listen = true ∨ s.cans[k].restricted = true) (t : Nat) (td : Byte) :
    exec (.canTxAttempt t k td) s = .next (s.at t) := by
  refine if_neg ?_
  change ¬ (s.cans[k].on && !s.cans[k].gate && !s.cans[k].listen && !s.cans[k].restricted && s.cans[k].queue.all (fun q => !q.attempt)) = true
  rcases shut with h | h | h <;> rw [h] <;> simp

section
variable (queue : s.cans[k].queue = [q])
include queue

section
variable (attempt : q.attempt = true)
include attempt

theorem attempted (t : Nat) : (s.at t).cans[k].queue.find? QFrame.attempt = some q := by
  change s.cans[k].queue.find? QFrame.attempt = some q
  rw [queue]
  simp [attempt]

theorem canTx_sent (t : Nat) : ∃ s', exec (.canTxComplete t k .sent) s = .next s' ∧ (s.at t).OnPort s' k ∧ s'.cans[k].queue = [] ∧
    s'.cans[k].txcnt = s.cans[k].txcnt + 1 ∧ s'.cans[k].tec = s.cans[k].tec - 1 := by
  have run : exec (.canTxComplete t k .sent) s = .next (((s.at t).updCan k (fun c => { c with
      queue := c.queue.filter (fun x => x.entry != q.entry)
      txcnt := c.txcnt + 1
      tec := c.tec - 1
      domRel := false })).canRefresh k) := by
    change execCanTxComplete t k .sent s = _
    unfold execCanTxComplete
    dsimp only
    rw [attempted queue attempt]
  obtain ⟨relief, quiet, refreshed⟩ := canRefresh_can ((s.at t).updCan k (fun c => { c with
      queue := c.queue.filter (fun x => x.entry != q.entry)
      txcnt := c.txcnt + 1
      tec := c.tec - 1
      domRel := false })) k
  rw [updCan_self] at refreshed
  refine ⟨_, run, (updCan_onPort ..).trans (canRefresh_onPort ..), ?_⟩
  rw [refreshed]
  refine ⟨?_, rfl, rfl⟩
  change s.cans[k].queue.filter _ = []
  rw [queue]
  simp

/-- An attempt that has failed ends; the frame that may not be retried is withdrawn. -/
theorem exec_canTxComplete_failed {result : TxResult} (failed : result ≠ .sent) (t : Nat) : exec (.canTxComplete t k result) s = .next (
    let s₁ := (s.at t).updCan k (fun c => { c with queue := c.queue.map (fun x => { x with attempt := false }), domRel := false })
    if q.final then s₁.canWithdraw k q.entry else s₁) := by
  change execCanTxComplete t k result s = _
  unfold execCanTxComplete
  dsimp only
  rw [attempted queue attempt]
  cases result
  case sent => exact absurd rfl failed
  all_goals rfl

theorem canTx_retried (again : q.final = false) (t : Nat) : ∃ s', exec (.canTxComplete t k .error) s = .next s' ∧ (s.at t).OnPort s' k ∧
    s'.cans[k].queue = [{ q with attempt := false }] ∧ s'.cans[k].txcnt = s.cans[k].txcnt := by
  have run := exec_canTxComplete_failed queue attempt (result := .error) (by decide) t
  dsimp only at run
  rw [if_neg (by rw [again]; decide)] at run
  refine ⟨_, run, updCan_onPort .., ?_⟩
  rw [updCan_self]
  refine ⟨?_, rfl⟩
  change s.cans[k].queue.map _ = _
  rw [queue]
  rfl

theorem canTx_withdrawn (last : q.final = true) (t : Nat) : ∃ s', exec (.canTxComplete t k .lostArbitration) s = .next s' ∧
    s'.cans[k].queue = [] ∧ s'.cans[k].wdrcnt = s.cans[k].wdrcnt + 1 := by
  have run := exec_canTxComplete_failed queue attempt (result := .lostArbitration) (by decide) t
  dsimp only at run
  rw [if_pos last] at run
  refine ⟨_, run, ?_⟩
  rw [canWithdraw_can, updCan_self]
  refine ⟨?_, rfl⟩
  change (s.cans[k].queue.map _).filter _ = []
  rw [queue]
  simp

end

theorem canFrame_withdrawn (idle : q.attempt = false) (own : q.entry = i) (small : i < 256) (t : Nat) :
    ∃ s', exec (.canFrameWithdraw t k i) s = .next s' ∧ (s.at (max t (s.cycleOfTb (q.latest + 1)))).OnPort s' k ∧ s'.cans[k].queue = [] ∧
      s'.cans[k].wdrcnt = s.cans[k].wdrcnt + 1 ∧ s'.cans[k].wdrmap.getLsbD i = true ∧ s'.cans[k].evt.getLsbD 6 = true ∧
      (s.steward = true → s'.recorded 0x50 k.val sevNotice) := by
  have run : exec (.canFrameWithdraw t k i) s = .next ((s.at (max t (s.cycleOfTb (q.latest + 1)))).canWithdraw k i) := by
    change execCanFrameWithdraw t k i s = _
    unfold execCanFrameWithdraw
    rw [show s.cans[k].queue.find? (fun q => q.entry == i) = some q by rw [queue]; simp [own]]
    dsimp only
    rw [if_neg (by rw [idle]; decide)]
  refine ⟨_, run, canWithdraw_onPort .., ?_, ?_, ?_, ?_, fun steward => canWithdraw_recorded (s := s.at _) k steward i⟩ <;> rw [canWithdraw_can]
  · change s.cans[k].queue.filter _ = []
    rw [queue]
    simp [own]
  · rfl
  · exact getLsbD_or_one_shiftLeft _ small
  · exact getLsbD_or_one_shiftLeft _ (by decide)

end

end

theorem canTransmission : Stated.CanTransmission := by
  intro s t k c i n e b q td cur p others
  refine ⟨fun entry buffer => ⟨fun start armed => ?window, fun on gate listen restricted queue idle retried own early => ?attempt,
      fun _ shut => ⟨_, exec_canTxAttempt_shut shut t td, rfl⟩⟩,
    fun queue attempt => ⟨?sent, fun again => ?retried, fun last => canTx_withdrawn queue attempt last t⟩, fun queue idle own small => ?withdrawn⟩
  case window =>
    have upd := updCan_self (s.at (max t (s.cycleOfTb (n * tickCycles + e.wopen * usCycles)))) k
      fun c => { c with armed := c.armed.erase i, queue := c.queue ++ [s.windowFrame k i n e b] }
    refine ⟨_, exec_canWindowOpen cur entry buffer start armed t, ⟨⟨rfl, rfl, rfl⟩, (updCan_onPort _ k _).others⟩, ?_, ?_, ?_⟩
    · rw [Nat.mul_comm 20000, Nat.mul_comm 400]
      exact at_now_due ..
    · exact congrArg Can.armed upd
    · refine ⟨s.windowFrame k i n e b, congrArg Can.queue upd, rfl, rfl, rfl, ?_⟩
      rw [Nat.mul_comm 20000, Nat.mul_comm 400]
      exact Nat.sub_add_eq_max ..
  case attempt =>
    obtain ⟨s', run, onPort, fields⟩ := canTx_attempts cur entry buffer on gate listen restricted queue idle retried own t early td
    exact ⟨s', run, ⟨onPort.lanes, onPort.others⟩, fields⟩
  case sent =>
    obtain ⟨s', run, onPort, fields⟩ := canTx_sent queue attempt t
    exact ⟨s', run, ⟨onPort.lanes, onPort.others⟩, fields⟩
  case retried =>
    obtain ⟨s', run, onPort, fields⟩ := canTx_retried queue attempt again t
    exact ⟨s', run, ⟨onPort.lanes, onPort.others⟩, fields⟩
  case withdrawn =>
    obtain ⟨s', run, onPort, empty, count, map, evt, record⟩ := canFrame_withdrawn queue idle own small t
    exact ⟨s', run, ⟨onPort.lanes, onPort.others⟩, empty, count, map, evt, onPort.now.trans (at_now_due ..), record⟩

/-- Settles O24: a frame by the filter that takes it, a transmission by the step of its one queued frame. -/
theorem canFrames : Obligations.CanFrames := ⟨canReception, canTransmission⟩

end Sys2Proof.Machine
end

section
/-! PROOFS. Flags of analogue records and the states of analogue outputs (R203, R277 to R288). -/

namespace Sys2Proof.Machine

/-! ### A flag set or cleared (R198, R300) -/

section
variable (s : State) (n : ChanId) (f : Chan → Chan)

/-- The latched fault bit follows a rise of a record's fault. -/
def State.faultLatched (s : State) (n : ChanId) (old new : Chan) : State := if new.aFault && !old.aFault then s.latchAFault n else s
/-- The latched range bit follows a rise of a record's range flags. -/
def State.rangeLatched (s : State) (n : ChanId) (old new : Chan) : State := if new.outOfRange && !old.outOfRange then s.latchARange n else s

theorem setFlags_eq : s.setFlags n f = (((s.updChan n f).faultLatched n s.chans[n] (f s.chans[n])).rangeLatched n s.chans[n] (f s.chans[n])) := by
  have here : (s.updChan n f).chans[n] = f s.chans[n] := getElem_upd_self ..
  unfold State.setFlags
  dsimp only
  rw [here]
  rfl

theorem latchChan_now (rd : Group → BitVec 16) (wr : Group → BitVec 16 → Group) (off typ : Nat) (sev : BitVec 2) (ana : Bool) :
    (s.latchChan n rd wr off typ sev ana).now = s.now := by
  rcases latchChan_unreported s n rd wr off typ sev ana with ⟨eq, -⟩ | eq <;> exact (congrArg State.now eq :)

/-- Latched bits leave channels, rooms and time alone. -/
theorem latches_leave (old new : Chan) : let s' := (s.faultLatched n old new).rangeLatched n old new
    s'.chans = s.chans ∧ LanesKept s s' ∧ s'.now = s.now := by
  have fault : (s.faultLatched n old new).chans = s.chans ∧ LanesKept s (s.faultLatched n old new) ∧ (s.faultLatched n old new).now = s.now := by
    unfold State.faultLatched
    split
    · exact ⟨latchChan_chans .., latchChan_lanes .., latchChan_now ..⟩
    · exact ⟨rfl, ⟨rfl, rfl, rfl⟩, rfl⟩
  obtain ⟨chans, ⟨rooms, dmem, img⟩, now⟩ := fault
  intro s'
  change (State.rangeLatched _ n old new).chans = _ ∧ LanesKept s (State.rangeLatched _ n old new) ∧ (State.rangeLatched _ n old new).now = _
  generalize s.faultLatched n old new = s₁ at chans rooms dmem img now
  unfold State.rangeLatched
  split
  · obtain ⟨rooms', dmem', img'⟩ := latchChan_lanes s₁ n Group.arLatch (fun p x => { p with arLatch := x }) 0x90 0x41 sevNotice true
    exact ⟨(latchChan_chans ..).trans chans, ⟨rooms'.trans rooms, dmem'.trans dmem, img'.trans img⟩, (latchChan_now ..).trans now⟩
  · exact ⟨chans, ⟨rooms, dmem, img⟩, now⟩

/-- Only its own record of all channels changes. -/
theorem setFlags_sets : (s.setFlags n f).chans[n] = f s.chans[n] ∧ (∀ m : ChanId, m ≠ n → (s.setFlags n f).chans[m] = s.chans[m]) ∧
    LanesKept s (s.setFlags n f) ∧ (s.setFlags n f).now = s.now := by
  obtain ⟨chans, lanes, now⟩ := latches_leave (s.updChan n f) n s.chans[n] (f s.chans[n])
  rw [setFlags_eq]
  exact ⟨(congrArg (·[n]) chans).trans (getElem_upd_self ..), fun m other => (congrArg (·[m]) chans).trans (getElem_upd_other (Ne.symm other)),
    lanes, now⟩

/-- A record's first fault latches its bit and is recorded (R300, R301). -/
theorem setFlags_latches (rises : (f s.chans[n]).aFault = true) (sound : s.chans[n].aFault = false)
    (range : (f s.chans[n]).outOfRange = s.chans[n].outOfRange) :
    (s.setFlags n f).groups[grpOf n].afLatch = s.groups[grpOf n].afLatch ||| (1 <<< (idxOf n).val) ∧
      (s.groups[grpOf n].afLatch.getLsbD (idxOf n).val = false → s.steward = true → (s.setFlags n f).recorded 0x40 n.val sevFault) := by
  have eq : s.setFlags n f = (s.updChan n f).latchAFault n := by
    rw [setFlags_eq, State.rangeLatched, if_neg (by rw [range]; simp), State.faultLatched, if_pos (by rw [rises, sound]; rfl)]
  rw [eq]
  by_cases set : s.groups[grpOf n].afLatch.getLsbD (idxOf n).val = true
  · have kept : (s.updChan n f).latchAFault n = _ := if_pos ((and_oneShifted_ne_zero_iff ..).mpr set)
    refine ⟨?_, fun clear => absurd set (by rw [clear]; decide)⟩
    rw [kept]
    change s.groups[grpOf n].afLatch = _
    rw [oneShifted_eq_twoPow]
    refine BitVec.eq_of_getLsbD_eq fun j _ => ?_
    rw [BitVec.getLsbD_or, BitVec.getLsbD_twoPow]
    by_cases here : (idxOf n).val = j
    · rw [← here, set, Bool.true_or]
    · simp [here]
  · have sets : (s.updChan n f).latchAFault n = _ := if_neg ((and_oneShifted_ne_zero_iff ..).not.mpr set)
    refine ⟨?_, fun _ steward => ?_⟩
    · rw [sets, groups_of_unreported (channelEvent_unreported ..)]
      exact congrArg Group.afLatch (getElem_upd_self ..)
    · rw [sets]
      exact channelEvent_recorded (by exact steward) ..

end

/-! ### Flags of inputs and outputs (R277, R283) -/

section
variable {s : State} {ch : ChanId} {e : ChanCfg} (entry : s.chans[ch].cfg = some e) (supplied : s.groups[grpOf ch].lplus = true)
  (moded : s.groups[grpOf ch].cfg = true) {flag : AFlag} {set : Bool}
include entry supplied moded

/-- An input's flag agrees with the newest value (R277). -/
def Chan.inAgrees (c : Chan) (e : ChanCfg) (flag : AFlag) (set : Bool) : Bool :=
  match flag with
  | .under => c.beyond e true == some set
  | .over => c.beyond e false == some set
  | f => c.wiring e f set

theorem exec_analogueInputFlag (input : e.isAin = true) (agrees : s.chans[ch].inAgrees e flag set = true)
    (fed : (s.groups[grpOf ch].relief && excited e) = false) (t : Nat) :
    exec (.analogueInputFlag t ch flag set) s = .next ((s.at t).setFlags ch fun c => c.put flag set) := by
  have up : s.groups[grpOf ch].up = true := by rw [Group.up, supplied, moded]; rfl
  have all : e.isAin = true ∧ (s.at t).groups[grpOf ch].up = true ∧ (s.at t).chans[ch].inAgrees e flag set = true ∧
    ((s.at t).groups[grpOf ch].relief && excited e) = false := ⟨input, up, agrees, fed⟩
  change execAnalogueInputFlag t ch flag set s = _
  unfold execAnalogueInputFlag
  dsimp only
  rw [show (s.at t).chans[ch].cfg = some e from entry]
  cases flag <;> exact if_pos all

theorem exec_analogueOutputFault (output : e.isAout = true) (agrees : s.chans[ch].outFault e flag set = true) (t : Nat) :
    exec (.analogueOutputFault t ch flag set) s =
      .next ((s.at (max t (if set then s.chans[ch].faultFrom flag else 0))).setFlags ch fun c => c.put flag set) := by
  have up : s.groups[grpOf ch].up = true := by rw [Group.up, supplied, moded]; rfl
  change execAnalogueOutputFault t ch flag set s = _
  unfold execAnalogueOutputFault
  dsimp only
  rw [entry]
  exact if_pos ⟨output, up, agrees⟩

/-- An input's flag that agrees sets or clears in its own record. -/
theorem inputFlag_sets (input : e.isAin = true) (agrees : s.chans[ch].inAgrees e flag set = true)
    (fed : (s.groups[grpOf ch].relief && excited e) = false) (t : Nat) : ∃ s', exec (.analogueInputFlag t ch flag set) s = .next s' ∧
      s'.chans[ch] = s.chans[ch].put flag set ∧ LanesKept s s' ∧ (∀ m : ChanId, m ≠ ch → s'.chans[m] = s.chans[m]) ∧
      s' = (s.at t).setFlags ch fun c => c.put flag set := by
  obtain ⟨here, others, lanes, -⟩ := setFlags_sets (s.at t) ch fun c => c.put flag set
  exact ⟨_, exec_analogueInputFlag entry supplied moded input agrees fed t, here, lanes, others, rfl⟩

/-- An output's fault flag that agrees sets or clears in its own record. -/
theorem outputFault_sets (output : e.isAout = true) (agrees : s.chans[ch].outFault e flag set = true) (t : Nat) :
    ∃ s', exec (.analogueOutputFault t ch flag set) s = .next s' ∧ s'.chans[ch] = s.chans[ch].put flag set ∧
      (LanesKept s s' ∧ ∀ m : ChanId, m ≠ ch → s'.chans[m] = s.chans[m]) ∧
      (set = true → s.chans[ch].faultFrom flag ≤ s'.now) := by
  obtain ⟨here, others, lanes, now⟩ := setFlags_sets (s.at (max t (if set then s.chans[ch].faultFrom flag else 0))) ch fun c => c.put flag set
  refine ⟨_, exec_analogueOutputFault entry supplied moded output agrees t, here, ⟨lanes, others⟩, fun sets => ?_⟩
  rw [now, at_now_due, if_pos sets]
  exact Nat.le_max_right ..

end

theorem aFault_eq {c : Chan} {e : ChanCfg} (entry : c.cfg = some e) :
    c.aFault = (e.isAnalogue && (c.copen || c.short || c.lowv || c.cdisc)) := by
  rw [Chan.aFault, entry]

theorem isAin_of_mode {e : ChanCfg} (mode : e.mode = 0x10 ∨ e.mode = 0x11 ∨ e.mode = 0x18) : e.isAin = true := by
  rcases mode with mode | mode | mode <;> rw [ChanCfg.isAin, mode] <;> rfl

/-- A current or voltage input needs no excitation (R290). -/
theorem fed_of_mode {e : ChanCfg} (mode : e.mode = 0x10 ∨ e.mode = 0x11) (relief : Bool) : (relief && excited e) = false := by
  have none' : excited e = false := by rcases mode with mode | mode <;> rw [excited, isRtd, mode] <;> rfl
  rw [none', Bool.and_false]

theorem analogueFlags : Stated.AnalogueFlags := by
  intro s t ch set e entry supplied moded c g i others
  have input {flag : AFlag} (mode : e.mode = 0x10 ∨ e.mode = 0x11) (agrees : c.inAgrees e flag set = true) :
      ∃ s', exec (.analogueInputFlag t ch flag set) s = .next s' ∧ s'.chans[ch] = c.put flag set ∧ others s' := by
    obtain ⟨s', run, here, lanes, others', -⟩ := inputFlag_sets entry supplied moded (isAin_of_mode (mode.imp_right .inl)) agrees (fed_of_mode mode _) t
    exact ⟨s', run, here, lanes, others'⟩
  have output {flag : AFlag} (mode : e.mode = 0x20 ∨ e.mode = 0x21 ∨ e.mode = 0x22) (agrees : c.outFault e flag set = true) :
      ∃ s', exec (.analogueOutputFault t ch flag set) s = .next s' ∧ s'.chans[ch] = c.put flag set ∧ others s' := by
    obtain ⟨s', run, here, kept, -⟩ := outputFault_sets entry supplied moded (isAout_of_mode mode).1 agrees t
    exact ⟨s', run, here, kept⟩
  refine ⟨fun mode agrees => ?short, fun mode range above => input (.inl mode) ?_, fun mode range below => input (.inr mode) ?_,
    fun mode range low => input (.inl mode) ?_, fun mode leads => ?leads, fun mode => output (.inr (.inl mode)) ?_,
    fun mode => output (mode.imp_right fun m => .inl m.1) ?_, fun mode low => output (.inr (.inr mode)) ?_, fun mode off => ?disc⟩
  case short =>
    have agrees' : c.inAgrees e .short set = true := by simpa [Chan.inAgrees, Chan.wiring, mode] using agrees
    obtain ⟨s', run, here, lanes, others', eq⟩ :=
      inputFlag_sets entry supplied moded (isAin_of_mode (.inl mode)) agrees' (fed_of_mode (.inl mode) _) t
    refine ⟨s', run, here, ⟨lanes, others'⟩, fun sets copen short lowv cdisc => ?_⟩
    have analogue : e.isAnalogue = true := by rw [ChanCfg.isAnalogue, isAin_of_mode (.inl mode), Bool.true_or]
    rw [eq]
    refine setFlags_latches (s.at t) ch (fun c => c.put .short set) ?_ ?_ rfl
    · refine (aFault_eq (c := c.put .short set) entry).trans ?_
      simp [Chan.put, analogue, sets]
    · refine (aFault_eq (c := c) entry).trans ?_
      simp [copen, short, lowv, cdisc]
  case leads =>
    have rtd : c.inAgrees e .aopen set = true := by simp [Chan.inAgrees, Chan.wiring, isRtd, mode]
    obtain ⟨s', run, here, lanes, others', -⟩ := inputFlag_sets entry supplied moded (isAin_of_mode (.inr (.inr mode))) rtd
      (by rw [leads, Bool.false_and]) t
    exact ⟨s', run, here, lanes, others'⟩
  case disc =>
    obtain ⟨s', run, here, kept, from'⟩ := outputFault_sets (flag := .disc) (set := set) entry supplied moded (isAout_of_mode mode).1
      (by simp [Chan.outFault, Chan.offValue, c, off]) t
    exact ⟨s', run, here, kept, from'⟩
  · simp [Chan.inAgrees, Chan.beyond, mode, above]
  · simp [Chan.inAgrees, Chan.beyond, mode, range, below]
  · simp [Chan.inAgrees, Chan.wiring, mode, range, low]
  · simp [Chan.outFault, mode]
  · rcases mode with mode | ⟨mode, agrees⟩
    · simp [Chan.outFault, mode]
    · simpa [Chan.outFault, mode] using agrees
  · simpa [Chan.outFault, mode] using low

/-! ### The states of analogue outputs (R203, R284 to R288) -/

/-- Without a user trim an output drives what its word says (R293). -/
theorem trimOut_untrimmed {c : Chan} (gain : c.trimG = 0) (offset : c.trimO = 0) (v : Int) : trimOut c v = v := by
  have unit : ((1000000 : Int) + 0).toNat = 1000000 := rfl
  simp only [trimOut, gain, offset, roundDiv, unit]
  split <;> omega

theorem clampI_eq (lo hi x : Int) (ordered : lo ≤ hi) : clampI lo hi x = max lo (min hi x) := by
  unfold clampI
  omega

section
variable {c : Chan} {g : Group} {e : ChanCfg} (supplied : g.lplus = true)
include supplied

theorem aout_follows (moded : g.cfg = true) (follows : c.follow = true) {w : Word} (word : c.lastCom = some w) (gain : c.trimG = 0)
    (offset : c.trimO = 0) (leads : g.relief = false) (now : Nat) :
    (c.drivenAna false g e now).aout = .value (clampI (aoutLimits e).1 (aoutLimits e).2 (aoutValue e w)) := by
  change c.anaState false g e = _
  simp [Chan.anaState, supplied, moded, follows, word, leads, trimOut_untrimmed gain offset, aoutClamp]

theorem aout_silenced {quiet : Bool} (silent : (quiet || g.relief) = true) (now : Nat) :
    (c.drivenAna quiet g e now).aout = if e.mode = 0x22 then .standby else .off := by
  change c.anaState quiet g e = _
  simp only [Chan.anaState, supplied, silent, Bool.not_true, Bool.false_eq_true, if_false, if_true]

theorem aout_unmoded (leads : g.relief = false) (now : Nat) :
    (c.drivenAna false { g with cfg := false } e now).aout = if e.mode = 0x22 then .alarm (!g.almsel) else .off := by
  change c.anaState false { g with cfg := false } e = _
  simp [Chan.anaState, supplied, leads, alarmOf]

end

theorem analogueOutputStates : Stated.AnalogueOutputStates := by
  intro c g e w now supplied moded follows word gain offset
  have word' (leads : g.relief = false) := aout_follows (e := e) supplied moded follows word gain offset leads now
  refine ⟨fun leads mode => ?_, fun leads mode => ?_, fun leads mode range => ?_, fun mode => ?_, fun mode => ?_, fun relief mode => ?_,
    fun leads mode => ?_, fun leads mode => ?_⟩
  · rw [word' leads, clampI_eq] <;> simp [aoutLimits, aoutValue, mode]
  · rw [word' leads, clampI_eq] <;> simp [aoutLimits, aoutValue, mode]
  · rw [word' leads, clampI_eq] <;> simp [aoutLimits, aoutValue, mode, range]
  · rw [aout_silenced supplied rfl, if_neg (by omega)]
  · rw [aout_silenced supplied rfl, if_pos mode]
  · rw [aout_silenced supplied (by rw [relief]; rfl), if_neg (by omega)]
  · rw [aout_unmoded supplied leads, if_neg (by omega)]
  · rw [aout_unmoded supplied leads, if_pos mode]

/-- Settles O21: a flag by the record that it changes, an output by the rows of its state. -/
theorem analogueState : Obligations.AnalogueState := ⟨analogueFlags, analogueOutputStates⟩

end Sys2Proof.Machine
end

section
/-! PROOFS. The steps of calibration (R292 to R294). -/

namespace Sys2Proof.Machine

theorem unsgn_eq_ofInt (i : Int) : unsgn 32 i = (BitVec.ofInt 32 i).toNat := by
  rw [BitVec.toNat_ofInt, unsgn]

/-- A group holds no points, or those of channel n (R294). -/
def State.MayCalibrate (s : State) (n : ChanId) : Prop :=
  (s.groups[grpOf n].calLow = none ∧ s.groups[grpOf n].calHigh = none) ∨ s.groups[grpOf n].calCh.toNat = (idxOf n).val

/-- A record that can be measured (R294). -/
def State.Measurable (s : State) (n : ChanId) (k : ChanCfg) : Prop :=
  s.groups[grpOf n].lplus = true ∧ s.groups[grpOf n].engfail = false ∧ s.chans[n].stale = false ∧ s.chans[n].aFault = false ∧
    32 * k.sps ≤ s.spareSlots (grpOf n)

/-- The group of a channel with a point taken (R293). -/
def Group.pointTaken (g : Group) (n : ChanId) (high : Bool) (p : CalPoint) : Group :=
  { g with
    calCh := BitVec.ofNat 4 (idxOf n).val
    calLow := if high then g.calLow else some p
    calHigh := if high then some p else g.calHigh }

/-- A point of an input, with its commanded and its measured value. -/
def inputPoint (e : CmdEntry) (k : ChanCfg) (mean : Int) : CalPoint := { ref := (BitVec.ofNat 32 (e.w 8)).toInt, meas := mean - leadOf k }

theorem storeTrim_awaits {s : State} {t : Nat} {c : RingId} {e : CmdEntry} (m : ChanId) (g o : Int) (points : Bool) :
    ∃ s', (s.taken t c e 0x40).storeTrim (s.refOf c e 0x40) m g o points = s' ∧ Awaits s s' c e 0x40 ∧ s'.nv.writes = s.nv.writes + 1 ∧
      s'.nv.mem = s.nv.mem ∧ s'.chans = s.chans ∧ s'.groups = s.groups ∧ LanesKept s s' := by
  refine ⟨_, rfl, taken_awaits (t := t) ?_, ?_⟩ <;> rw [State.storeTrim, recWrite_alone]
  exact ⟨rfl, rfl, rfl, rfl, rfl, rfl, rfl⟩

theorem not_isAout_of_isAin {k : ChanCfg} (input : k.isAin = true) : k.isAout = false := by
  simp only [ChanCfg.isAin, Bool.and_eq_true, decide_eq_true_eq] at input
  simp only [ChanCfg.isAout, Bool.and_eq_false_iff, decide_eq_false_iff_not]
  omega

section
variable {s : State} {t : Nat} {c : RingId} {e : CmdEntry} {n : ChanId} {k : ChanCfg} (named : e.b 4 = n.val)
include named

theorem calChan_named : calChan e = some n := by rw [calChan, named, toFin?_val]

section
variable (entry : s.chans[n].cfg = some k) (input : k.isAin = true)
include entry input

theorem calCfg_named : s.calCfg e = some (n, k) := by
  rw [State.calCfg, calChan_named named]
  simp only [entry, ChanCfg.isAnalogue, input, Bool.true_or, if_true]

theorem otherPoints_eq : s.otherPoints e = ((s.groups[grpOf n].calLow.isSome || s.groups[grpOf n].calHigh.isSome) &&
    s.groups[grpOf n].calCh.toNat != (idxOf n).val) := by
  rw [State.otherPoints, calCfg_named named entry input]

theorem otherPoints_free (free : s.MayCalibrate n) : s.otherPoints e = false := by
  rw [otherPoints_eq named entry input]
  rcases free with ⟨low, high⟩ | mine
  · rw [low, high]; rfl
  · rw [mine]; simp

theorem otherPoints_held (held : ¬ s.MayCalibrate n) : s.otherPoints e = true := by
  rw [otherPoints_eq named entry input]
  obtain ⟨some', other⟩ := not_or.mp held
  rw [Bool.and_eq_true, bne_iff_ne]
  refine ⟨?_, other⟩
  cases low : s.groups[grpOf n].calLow
  · cases high : s.groups[grpOf n].calHigh
    · exact absurd ⟨low, high⟩ some'
    · rfl
  · rfl

/-! ### The measuring steps (R293) -/

theorem calTakeChecks_pass (sound : s.Measurable n k) (free : s.MayCalibrate n) (form : e.formOk 0 [(4, 1), (5, 1), (8, 4)] = true)
    {step : Nat} (asked : e.b 5 = step) : Passes (calTakeChecks e step true s) := by
  obtain ⟨lplus, engine, fresh, whole, slots⟩ := sound
  have config := calCfg_named named entry input
  have measures : s.cannotMeasure e true = false := by
    rw [State.cannotMeasure, config]
    dsimp only
    rw [lplus, engine, fresh, whole]
    rfl
  have others := otherPoints_free named entry input free
  simp [Passes, calTakeChecks, form, calChan_named named, measures, config, others, asked, slots]

theorem takePoint_input (ref : CmdRef) (high : Bool) (mean : Int) : s.takePoint ref e high mean =
    (s.updGrp (grpOf n) (·.pointTaken n high (inputPoint e k mean))).complete ref 0
      (toLe 4 (BitVec.ofInt 32 (mean - leadOf k)).toNat ++ toLe 4 64) := by
  unfold State.takePoint
  rw [calCfg_named named entry input]
  dsimp only
  rw [not_isAout_of_isAin input]
  simp only [Bool.false_eq_true, if_false, unsgn_eq_ofInt, sgn_eq_toInt]
  rfl

theorem calibration_takes (can : s.CanAnswer c) {i : Instr} {step : Nat} {high : Bool} {mean : Int}
    (run : exec i s = .next (s.command t c 0x40 e (calTakeChecks e step true) fun ref s => s.takePoint ref e high mean))
    (sound : s.Measurable n k) (free : s.MayCalibrate n) (form : e.formOk 0 [(4, 1), (5, 1), (8, 4)] = true) (asked : e.b 5 = step) :
    ∃ s', exec i s = .next s' ∧ Answers s s' c e 0 (toLe 4 (BitVec.ofInt 32 (mean - leadOf k)).toNat ++ toLe 4 64) ∧
      s'.groups[grpOf n] = s.groups[grpOf n].pointTaken n high (inputPoint e k mean) ∧ s'.chans = s.chans ∧ LanesKept s s' := by
  have passes : Passes (calTakeChecks e step true (s.taken t c e 0x40)) :=
    calTakeChecks_pass (s := s.taken t c e 0x40) named entry input sound free form asked
  rw [command_passes can.1 can.2.1 passes, takePoint_input (s := s.taken t c e 0x40) named entry input] at run
  obtain ⟨s', run', answers, same⟩ := exec_answers (t := t) can run rfl rfl
  refine ⟨s', run', answers, ?_⟩
  rw [same]
  exact ⟨getElem_upd_self .., rfl, rfl, rfl, rfl⟩

/-! ### The steps that store and discard (R293, R294) -/

section
variable (can : s.CanAnswer c) (form : e.formOk 0 [(4, 1), (5, 1)] = true)
include can form

theorem calibration_stores (asked : e.b 5 = 3) (mine : s.groups[grpOf n].calCh.toNat = (idxOf n).val) {a : CalPoint}
    (low : s.groups[grpOf n].calLow = some a) (high : s.groups[grpOf n].calHigh = none) (ready : s.nv.ready = true)
    (within : (a.ref - a.meas).natAbs * 100 ≤ spanOf k) : ∃ s', exec (.calibrationStore t c e) s = .next s' ∧ Awaits s s' c e 0x40 ∧
      s'.nv.writes = s.nv.writes + 1 ∧ s'.nv.mem = s.nv.mem ∧ s'.chans = s.chans ∧ s'.groups = s.groups ∧ LanesKept s s' := by
  have config : (s.taken t c e 0x40).calCfg e = some (n, k) := calCfg_named (s := s.taken t c e 0x40) named entry input
  have others : (s.taken t c e 0x40).otherPoints e = false := otherPoints_free (s := s.taken t c e 0x40) named entry input (.inr mine)
  have points : (s.taken t c e 0x40).pointsOf n = (some a, none) := by
    change (if s.groups[grpOf n].calCh.toNat = (idxOf n).val then (s.groups[grpOf n].calLow, s.groups[grpOf n].calHigh) else (none, none)) = _
    rw [if_pos mine, low, high]
  have ready' : (s.taken t c e 0x40).nv.ready = true := ready
  obtain ⟨s', stores, fields⟩ := storeTrim_awaits (s := s) (t := t) (c := c) (e := e) n 0 (a.ref - a.meas) true
  refine ⟨s', ?_, fields⟩
  have run : exec (.calibrationStore t c e) s = .next _ := congrArg Host.Outcome.next (command_passes can.1 can.2.1 (by
    simp [Passes, form, calChan_named named, others, config, points, asked, calTrim, tooClose, trimTooLarge, ready', within]))
  rw [run]
  simp only [config, points, calTrim]
  rw [stores]

theorem calibration_discards (asked : e.b 5 = 4) (free : s.MayCalibrate n) : ∃ s', exec (.calibrationDiscard t c e) s = .next s' ∧
    Answers s s' c e 0 [] ∧ s'.groups[grpOf n].calLow = none ∧ s'.groups[grpOf n].calHigh = none ∧ s'.chans = s.chans ∧ s'.nv = s.nv ∧
      LanesKept s s' := by
  have config : (s.taken t c e 0x40).calCfg e = some (n, k) := calCfg_named (s := s.taken t c e 0x40) named entry input
  have others : (s.taken t c e 0x40).otherPoints e = false := otherPoints_free (s := s.taken t c e 0x40) named entry input free
  have run : exec (.calibrationDiscard t c e) s = .next _ := congrArg Host.Outcome.next (command_passes can.1 can.2.1 (by
    simp [Passes, form, calChan_named named, others, config, asked]))
  simp only [config] at run
  obtain ⟨s', run', answers, same⟩ := exec_answers (t := t) can run rfl rfl
  have here : s'.groups[grpOf n] = s.groups[grpOf n].noPoints := by rw [same]; exact getElem_upd_self ..
  refine ⟨s', run', answers, by rw [here]; rfl, by rw [here]; rfl, ?_⟩
  rw [same]
  exact ⟨rfl, rfl, rfl, rfl, rfl⟩

theorem factoryCalibration_refused (held : ¬ s.MayCalibrate n) : ∃ s', exec (.factoryCalibration t c e) s = .next s' ∧
    Answers s s' c e 0x0232 [] ∧ s'.groups = s.groups ∧ s'.nv = s.nv := by
  have others : (s.taken t c e 0x40).otherPoints e = true := otherPoints_held (s := s.taken t c e 0x40) named entry input held
  obtain ⟨s', run, answers, same⟩ := exec_refused (i := .factoryCalibration t c e) (st := 0x0232) can rfl
    (by simp [firstFail, form, calChan_named named, others])
  refine ⟨s', run, answers, ?_⟩
  rw [same]
  exact ⟨rfl, rfl⟩

theorem factoryCalibration_awaits (asked : e.b 5 = 5) (free : s.MayCalibrate n) (ready : s.nv.ready = true) :
    ∃ s', exec (.factoryCalibration t c e) s = .next s' ∧ Awaits s s' c e 0x40 ∧ s'.nv.writes = s.nv.writes + 1 ∧ s'.nv.mem = s.nv.mem ∧
      s'.chans = s.chans ∧ LanesKept s s' := by
  have config : (s.taken t c e 0x40).calCfg e = some (n, k) := calCfg_named (s := s.taken t c e 0x40) named entry input
  have others : (s.taken t c e 0x40).otherPoints e = false := otherPoints_free (s := s.taken t c e 0x40) named entry input free
  have ready' : (s.taken t c e 0x40).nv.ready = true := ready
  obtain ⟨s', stores, awaits, writes, mem, chans, -, lanes⟩ := storeTrim_awaits (s := s) (t := t) (c := c) (e := e) n 0 0 false
  refine ⟨s', ?_, awaits, writes, mem, chans, lanes⟩
  have run : exec (.factoryCalibration t c e) s = .next _ := congrArg Host.Outcome.next (command_passes can.1 can.2.1 (by
    simp [Passes, form, calChan_named named, others, config, asked, ready']))
  rw [run]
  simp only [config]
  rw [stores]

end

theorem calibration_unsupplied (can : s.CanAnswer c) (form : e.formOk 0 [(4, 1), (5, 1), (8, 4)] = true)
    (lost : s.groups[grpOf n].lplus = false) (mean : Int) : ∃ s', exec (.calibrationLowPoint t c e mean true) s = .next s' ∧
      Answers s s' c e 0x0230 [] ∧ s'.groups = s.groups := by
  have config : (s.taken t c e 0x40).calCfg e = some (n, k) := calCfg_named (s := s.taken t c e 0x40) named entry input
  have lost' : (s.taken t c e 0x40).groups[grpOf n].lplus = false := lost
  have measures : (s.taken t c e 0x40).cannotMeasure e true = true := by
    rw [State.cannotMeasure, config]
    dsimp only
    rw [lost']
    rfl
  obtain ⟨s', run, answers, same⟩ := exec_refused (i := .calibrationLowPoint t c e mean true) (st := 0x0230) can rfl
    (by simp [calTakeChecks, firstFail, form, calChan_named named, measures])
  exact ⟨s', run, answers, (congrArg State.groups same :)⟩

end

end

/-- Settles O22: each step by its checks and its own effect. -/
theorem calibrationSteps : Obligations.CalibrationSteps := by
  intro s t c e mean n k can named entry input g mine lead sound point
  have index : (BitVec.ofNat 4 (idxOf n).val).toNat = (idxOf n).val := by
    rw [BitVec.toNat_ofNat]
    exact Nat.mod_eq_of_lt (idxOf n).isLt
  refine ⟨fun ⟨lplus, engine, fresh, whole, slots, free⟩ form asked => ?low, fun ⟨lplus, engine, fresh, whole, slots, free⟩ form asked => ?high,
    fun a form asked mine low high ready within => calibration_stores named entry input can form asked mine low high ready within,
    fun form asked free => calibration_discards named entry input can form asked free,
    fun form _ held => factoryCalibration_refused named entry input can form held,
    fun form asked free ready => factoryCalibration_awaits named entry input can form asked free ready,
    fun form _ lost => calibration_unsupplied named entry input can form lost mean⟩
  case low =>
    obtain ⟨s', run, answers, here, chans, lanes⟩ := calibration_takes named entry input can
      (i := .calibrationLowPoint t c e mean true) (t := t) (high := false) rfl ⟨lplus, engine, fresh, whole, slots⟩ free form asked
    exact ⟨s', run, answers, by rw [here]; rfl, by rw [here]; rfl, by rw [here]; exact index, chans, lanes⟩
  case high =>
    obtain ⟨s', run, answers, here, chans, lanes⟩ := calibration_takes named entry input can
      (i := .calibrationHighPoint t c e mean true) (t := t) (high := true) rfl ⟨lplus, engine, fresh, whole, slots⟩ free form asked
    exact ⟨s', run, answers, by rw [here]; rfl, by rw [here]; rfl, chans, lanes⟩

end Sys2Proof.Machine
end

section
/-! PROOFS. The frames of a group's engine, its failure, and the spare engine (R271 to R277, R290, R295 to R301). -/

namespace Sys2Proof.Machine

/-! ### What a frame's items leave alone -/

/-- Of a group what its frames go by. -/
def Group.schedule (p : Group) : Bool × List (Nat × Nat) × Bool × Nat × Bool × Bool × BitVec 16 × List (Sample × Nat × Bool) :=
  (p.cfg, p.sched, p.relief, p.frameAt, p.engok, p.engfail, p.zeroErr, p.held)

/-- Of a channel what scales its samples. -/
def Chan.scaling (c : Chan) : Option ChanCfg × Int × Int := (c.cfg, c.trimG, c.trimO)

/-- The state without flags, records and values. -/
def State.measuring (s : State) : State :=
  { s.unreported with now := 0, fresh := 0, chans := Vector.replicate 192 Chan.init, groups := Vector.replicate 12 Group.init }

/-- From s to s' no engine's schedule, no scaling of a record and nothing outside the field changes. -/
structure State.FrameKept (s s' : State) : Prop where
  measuring : s'.measuring = s.measuring
  scaling : s'.chans.map Chan.scaling = s.chans.map Chan.scaling
  schedule : s'.groups.map Group.schedule = s.groups.map Group.schedule

theorem State.FrameKept.refl (s : State) : s.FrameKept s := ⟨rfl, rfl, rfl⟩

theorem State.FrameKept.trans {s s₁ s' : State} (h : s.FrameKept s₁) (h' : s₁.FrameKept s') : s.FrameKept s' :=
  ⟨h'.measuring.trans h.measuring, h'.scaling.trans h.scaling, h'.schedule.trans h.schedule⟩

theorem State.FrameKept.of_unreported {s s' : State} (h : s'.unreported = s.unreported) : s.FrameKept s' :=
  ⟨(congrArg State.measuring h :), (congrArg (fun s => s.chans.map Chan.scaling) h :), (congrArg (fun s => s.groups.map Group.schedule) h :)⟩

theorem updGrp_frameKept (s : State) (g : GrpId) {f : Group → Group} (h : ∀ p, (f p).schedule = p.schedule) : s.FrameKept (s.updGrp g f) :=
  ⟨rfl, rfl, map_upd_of_eq _ _ _ h⟩

theorem updChan_frameKept (s : State) (n : ChanId) {f : Chan → Chan} (h : ∀ c, (f c).scaling = c.scaling) : s.FrameKept (s.updChan n f) :=
  ⟨rfl, map_upd_of_eq _ _ _ h, rfl⟩

section
variable {s s' : State} (kept : s.FrameKept s')
include kept

theorem State.FrameKept.lanes : LanesKept s s' :=
  ⟨(congrArg State.rooms kept.measuring :), (congrArg State.dmem kept.measuring :), (congrArg State.img kept.measuring :)⟩

theorem State.FrameKept.chan (n : ChanId) : s'.chans[n].scaling = s.chans[n].scaling := by
  have same := congrArg (·[n]) kept.scaling
  simpa using same

theorem State.FrameKept.group (g : GrpId) : s'.groups[g].schedule = s.groups[g].schedule := by
  have same := congrArg (·[g]) kept.schedule
  simpa using same

theorem State.FrameKept.cycleOfTb (tb : Nat) : s'.cycleOfTb tb = s.cycleOfTb tb := (congrArg (State.cycleOfTb · tb) kept.measuring :)

end

theorem latchChan_frameKept (s : State) (n : ChanId) {rd : Group → BitVec 16} {wr : Group → BitVec 16 → Group} (off typ : Nat) (sev : BitVec 2)
    (ana : Bool) (h : ∀ p x, (wr p x).schedule = p.schedule) : s.FrameKept (s.latchChan n rd wr off typ sev ana) := by
  rcases latchChan_unreported s n rd wr off typ sev ana with ⟨eq, -⟩ | eq
  · exact .of_unreported eq
  · exact (updGrp_frameKept s (grpOf n) fun p => h p _).trans (.of_unreported eq)

theorem setFlags_frameKept (s : State) (n : ChanId) {f : Chan → Chan} (h : ∀ c, (f c).scaling = c.scaling) : s.FrameKept (s.setFlags n f) := by
  rw [setFlags_eq]
  refine (updChan_frameKept s n h).trans (State.FrameKept.trans (s₁ := (s.updChan n f).faultLatched n s.chans[n] (f s.chans[n])) ?_ ?_)
  · unfold State.faultLatched
    split
    · exact latchChan_frameKept _ _ _ _ _ _ fun _ _ => rfl
    · exact .refl _
  · unfold State.rangeLatched
    split
    · exact latchChan_frameKept _ _ _ _ _ _ fun _ _ => rfl
    · exact .refl _

theorem coldItem_frameKept (s : State) (g : GrpId) (temp : Option Int) : s.FrameKept (s.coldItem g temp) := by
  unfold State.coldItem
  cases temp with
  | some v => exact updGrp_frameKept s g fun _ => rfl
  | none =>
    dsimp only
    split
    · refine State.FrameKept.trans ?_ (.of_unreported (channelEvent_unreported ..))
      exact updGrp_frameKept s g fun _ => rfl
    · exact updGrp_frameKept s g fun _ => rfl

theorem supplyItem_frameKept (s : State) (g : GrpId) : s.FrameKept (s.supplyItem g) :=
  State.FrameKept.trans (s₁ := s.free.2) ⟨rfl, rfl, rfl⟩ (updGrp_frameKept _ g fun _ => rfl)

theorem burnoutItem_frameKept (s : State) (g : GrpId) (isOpen : Bool) : s.FrameKept (s.burnoutItem g isOpen) := by
  unfold State.burnoutItem
  split
  · refine State.FrameKept.trans ?_ (setFlags_frameKept _ _ fun _ => rfl)
    exact updGrp_frameKept s g fun _ => rfl
  · exact .refl s

/-- The item in turn of a frame (R272). -/
def State.itemTaken (s : State) (g : GrpId) (f : EngineFrame) (start : Nat) : State :=
  let item := start / frameCycles % 8
  let s := if item = 2 then s.coldItem g f.cjTemp else s
  let s := if item = 4 then s.supplyItem g else s
  if item = 5 then s.burnoutItem g f.burnoutOpen else s

theorem itemTaken_frameKept (s : State) (g : GrpId) (f : EngineFrame) (start : Nat) : s.FrameKept (s.itemTaken g f start) := by
  have choose {p : Prop} [Decidable p] {s s' : State} (h : s.FrameKept s') : s.FrameKept (if p then s' else s) := by
    split
    · exact h
    · exact .refl s
  exact ((choose (coldItem_frameKept ..)).trans (choose (supplyItem_frameKept ..))).trans (choose (burnoutItem_frameKept ..))

theorem frameItem_eq (s : State) (g : GrpId) (f : EngineFrame) (start : Nat) :
    s.frameItem g f start = (s.itemTaken g f start).passSamples g f start := rfl

/-! ### Samples released and held (R275) -/

theorem filtered_scaling (c : Chan) (e : ChanCfg) (x : Int) (stamp : Nat) (bySpare : Bool) :
    (c.filtered e x stamp bySpare).1.scaling = c.scaling := by
  unfold Chan.filtered
  split <;> rfl

theorem takeSample_frameKept (s : State) (z : Sample) (stamp : Nat) (bySpare : Bool) : s.FrameKept (s.takeSample z stamp bySpare) := by
  have rewritten {c : Chan} (same : c.scaling = s.chans[z.ch].scaling) : s.FrameKept (s.updChan z.ch fun _ => c) := by
    refine ⟨rfl, Vector.ext fun j hj => ?_, rfl⟩
    by_cases here : z.ch.val = j
    · subst here
      simp only [State.updChan, upd, Vector.getElem_map, Vector.getElem_set_self]
      exact same
    · simp only [State.updChan, upd, Vector.getElem_map, Vector.getElem_set_ne _ _ here]
  unfold State.takeSample
  dsimp only
  split
  · exact .refl s
  · split
    · split
      · exact rewritten (filtered_scaling s.chans[z.ch] _ _ stamp bySpare)
      · exact rewritten (filtered_scaling s.chans[z.ch] _ _ stamp bySpare)
    · split
      · exact updChan_frameKept s z.ch fun _ => rfl
      · exact .refl s

theorem takeSample_groups (s : State) (z : Sample) (stamp : Nat) (bySpare : Bool) : (s.takeSample z stamp bySpare).groups = s.groups := by
  unfold State.takeSample
  dsimp only
  split
  · rfl
  · split
    · split <;> rfl
    · split <;> rfl

/-- Which samples are delivered, and their stamps, go by schedule and scaling alone. -/
theorem State.FrameKept.deliverable {s s' : State} (kept : s.FrameKept s') (g : GrpId) (start : Nat) (x : Sample) :
    s'.deliverable g start x = s.deliverable g start x ∧ s'.sampleStamp start x = s.sampleStamp start x := by
  have entry : s'.chans[x.ch].cfg = s.chans[x.ch].cfg := congrArg Prod.fst (kept.chan x.ch)
  have group := kept.group g
  simp only [Group.schedule, Prod.mk.injEq] at group
  obtain ⟨cfg, sched, relief, -⟩ := group
  constructor
  · rw [State.deliverable, State.deliverable, cfg, sched, relief, entry]
  · rw [State.sampleStamp, State.sampleStamp, entry]
    cases s.chans[x.ch].cfg with
    | none => exact kept.cycleOfTb _
    | some e => exact kept.cycleOfTb _

/-- The samples of a frame that wait for the next zero check (R275). -/
def State.newSamples (s : State) (g : GrpId) (f : EngineFrame) (start : Nat) : List (Sample × Nat × Bool) :=
  (f.samples.filter (s.deliverable g start)).map fun x => (x, s.sampleStamp start x, f.bySpare)

theorem mem_newSamples (s : State) (g : GrpId) (f : EngineFrame) (start : Nat) (x : Sample) (st : Nat) (b : Bool) :
    (x, st, b) ∈ s.newSamples g f start ↔ x ∈ f.samples ∧ s.deliverable g start x = true ∧ st = s.sampleStamp start x ∧ b = f.bySpare := by
  simp only [State.newSamples, List.mem_map, List.mem_filter, Prod.mk.injEq]
  constructor
  · rintro ⟨y, ⟨mem, sent⟩, rfl, rfl, rfl⟩
    exact ⟨mem, sent, rfl, rfl⟩
  · rintro ⟨mem, sent, rfl, rfl⟩
    exact ⟨x, ⟨mem, sent⟩, rfl, rfl, rfl⟩

theorem State.FrameKept.newSamples {s s' : State} (kept : s.FrameKept s') (g : GrpId) (f : EngineFrame) (start : Nat) :
    s'.newSamples g f start = s.newSamples g f start := by
  unfold State.newSamples
  rw [List.filter_congr fun x _ => (kept.deliverable g start x).1]
  exact List.map_congr_left fun x _ => by rw [(kept.deliverable g start x).2]

/-- The held samples released to staging. -/
def State.released (s : State) (g : GrpId) : State :=
  s.groups[g].held.foldl (fun s x => s.takeSample x.1 x.2.1 x.2.2) (s.updGrp g fun p => { p with held := [] })

theorem passSamples_own {f : EngineFrame} (own : f.bySpare = false) (s : State) (g : GrpId) (start : Nat) :
    s.passSamples g f start = (s.released g).updGrp g fun p => { p with held := (s.released g).newSamples g f start } := by
  unfold State.passSamples
  dsimp only
  rw [if_neg (by rw [own]; simp)]
  rfl

theorem released_groups (s : State) (g : GrpId) : (s.released g).groups = (s.updGrp g fun p => { p with held := [] }).groups :=
  foldl_keeps_key State.groups (fun s (x : Sample × Nat × Bool) => takeSample_groups s x.1 x.2.1 x.2.2) _ _

/-- The frame's effect on its group and its samples, when the group's own engine takes it. -/
theorem passSamples_holds {f : EngineFrame} (own : f.bySpare = false) (s : State) (g : GrpId) (start : Nat) :
    LanesKept s (s.passSamples g f start) ∧
    (s.passSamples g f start).groups[g] = { s.groups[g] with held := s.newSamples g f start } ∧
    (s.passSamples g f start).chans = (s.released g).chans := by
  have kept : (s.updGrp g fun p => { p with held := [] }).FrameKept (s.released g) :=
    List.foldlRecOn (motive := fun s' => (s.updGrp g fun p => { p with held := [] }).FrameKept s') _ _ (.refl _)
      fun s' kept x _ => kept.trans (takeSample_frameKept ..)
  have here : (s.released g).groups[g] = { s.groups[g] with held := [] } := by
    rw [released_groups]
    exact getElem_upd_self ..
  have new : (s.released g).newSamples g f start = s.newSamples g f start := by
    rw [kept.newSamples]
    have deliverable (x : Sample) : (s.updGrp g fun p => { p with held := [] }).deliverable g start x = s.deliverable g start x := by
      rw [State.deliverable, State.updGrp_group, if_pos rfl]
      rfl
    unfold State.newSamples
    rw [List.filter_congr fun x _ => deliverable x]
    rfl
  rw [passSamples_own own, new]
  refine ⟨kept.lanes, ?_, rfl⟩
  refine (getElem_upd_self ..).trans ?_
  rw [here]

/-- A current input's sample within its limits is its value (R275 to R279). -/
theorem takeSample_current {s : State} {x : Sample} {e : ChanCfg} (entry : s.chans[x.ch].cfg = some e) (mode : e.mode = 0x10)
    (plain : u8 e.param 2 % 4 = 0) (gain : s.chans[x.ch].trimG = 0) (offset : s.chans[x.ch].trimO = 0) (low : -1000000 ≤ x.raw)
    (high : x.raw ≤ 30000000) (st : Nat) (b : Bool) : (s.takeSample x st b).chans[x.ch].value = BitVec.ofInt 32 x.raw ∧
      (s.takeSample x st b).chans[x.ch].stamp = st ∧ (s.takeSample x st b).chans[x.ch].stale = false := by
  have input : e.isAin = true := isAin_of_mode (.inl mode)
  have window : lineWindow e = none := by
    have plain' : u8p e 22 % 4 = 0 := plain
    simp [lineWindow, plain']
  have scaled : clampI (measuredTo e).1 (measuredTo e).2 (trimIn s.chans[x.ch] (preTrim e x.raw x.second)) = x.raw := by
    have leads : leadOf e = 0 := by simp [leadOf, mode]
    have trimmed : trimIn s.chans[x.ch] x.raw = x.raw := by
      rw [trimIn, gain, offset, roundDiv]
      split <;> omega
    rw [preTrim, if_neg (by omega), leads, Int.sub_zero, trimmed]
    simp only [measuredTo, mode, if_true, clampI]
    omega
  have filtered : s.chans[x.ch].filtered e x.raw st b = (s.chans[x.ch], x.raw, st, true) := by rw [Chan.filtered, window]
  have values : s.recordValues x.ch e x.raw = some (x.raw, 0) := by simp [State.recordValues, isRtd, mode]
  have taken : s.takeSample x st b = s.updChan x.ch fun _ => { s.chans[x.ch] with
      value := BitVec.ofInt 32 x.raw, aux := BitVec.ofInt 32 0, stamp := st, stale := false, spare := b } := by
    unfold State.takeSample
    dsimp only
    rw [entry]
    dsimp only
    rw [if_pos input, scaled, filtered]
    dsimp only
    rw [values, entry]
  rw [taken, State.updChan_chan, if_pos rfl]
  exact ⟨rfl, rfl, rfl⟩

/-! ### A frame of a group's own engine (R271, R295) -/

/-- A frame judged at the end of its reference slot: the next one is due, and its reference results stand. -/
def State.frameJudged (s : State) (g : GrpId) (f : EngineFrame) (start : Nat) : State :=
  ({ s with now := s.cycleOfTb start + slotCycles } : State).updGrp g fun p =>
    { p.reference f (start / frameCycles % 8) (failKind f (start / frameCycles % 8)) (s.cycleOfTb start + slotCycles) with
      frameAt := start + frameCycles }

section
variable {s : State} {g : GrpId} {f : EngineFrame} (supplied : s.groups[g].lplus = true) (own : f.bySpare = false)
  (serving : s.groups[g].engfail = false)
include supplied own serving

theorem exec_engineFrame_own (t : Nat) : ∃ start, s.groups[g].frameAt ≤ start ∧ exec (.engineFrame t g f) s = .next (
    if declaresFailed (failKind f (start / frameCycles % 8)) s.groups[g].fsBad then
      ((s.at t).frameJudged g f start).engineFailed g (((s.at t).frameJudged g f start).now - slotCycles)
    else ((s.at t).frameJudged g f start).frameItem g f start) := by
  refine ⟨nextFrame (s.at t).tb (s.at t).groups[g].frameAt, Nat.le_max_right .., ?_⟩
  have spare : ¬ (f.bySpare = true ∧ (s.at t).spare.assigned = none) := by rw [own]; simp
  have taken : ¬ ((s.at t).groups[g].lplus = false ∨ (f.bySpare = true ∧
      ((s.at t).spare.assigned == some g && (s.at t).spare.connected && !(s.at t).spare.failed) = false)) := by
    rw [own, show (s.at t).groups[g].lplus = true from supplied]
    simp
  have engine (start : Nat) : ((s.at t).frameJudged g f start).groups[g].engfail = false := by
    rw [State.frameJudged, State.updGrp_group, if_pos rfl]
    exact serving
  change execEngineFrame t g f s = _
  unfold execEngineFrame
  dsimp only
  rw [if_neg spare, if_neg taken, own]
  simp only [Bool.false_eq_true, if_false]
  change (if declaresFailed _ _ = true then Host.Outcome.next (if ((s.at t).frameJudged g f _).groups[g].engfail = true then _ else _)
    else if (!((s.at t).frameJudged g f _).groups[g].engfail) = true then _ else _) = _
  rw [engine]
  exact (apply_ite Host.Outcome.next ..).symm

/-- With good checks the frame's item is taken and its samples are passed on (R272, R275). -/
theorem exec_engineFrame_good (t : Nat) (result : f.resultOk = true) (zero : f.zeroOk = true) (test : f.selfTestOk = true)
    (gain : f.gainPpm.natAbs ≤ 5000) : ∃ start, s.groups[g].frameAt ≤ start ∧ failKind f (start / frameCycles % 8) = 0 ∧
      exec (.engineFrame t g f) s = .next ((((s.at t).frameJudged g f start).itemTaken g f start).passSamples g f start) := by
  obtain ⟨start, after, run⟩ := exec_engineFrame_own supplied own serving t
  have good : failKind f (start / frameCycles % 8) = 0 := by
    have within : ¬ 5000 < f.gainPpm.natAbs := by omega
    simp [failKind, result, zero, test, within]
  refine ⟨start, after, good, run.trans (congrArg _ ?_)⟩
  rw [good, ← frameItem_eq]
  exact if_neg (by simp [declaresFailed])

end

theorem frameJudged_group (s : State) (g : GrpId) (f : EngineFrame) (start : Nat) : (s.frameJudged g f start).groups[g] =
    { s.groups[g].reference f (start / frameCycles % 8) (failKind f (start / frameCycles % 8)) (s.cycleOfTb start + slotCycles) with
      frameAt := start + frameCycles } := getElem_upd_self ..

theorem frameJudged_newSamples (s : State) (g : GrpId) (f : EngineFrame) (start : Nat) :
    (s.frameJudged g f start).newSamples g f start = s.newSamples g f start := by
  have deliverable (x : Sample) : (s.frameJudged g f start).deliverable g start x = s.deliverable g start x := by
    rw [State.deliverable, frameJudged_group]
    rfl
  unfold State.newSamples
  rw [List.filter_congr fun x _ => deliverable x]
  rfl

/-- The one sample held by a frame is the value of a current input after the next good one (R275, R277). -/
theorem released_current {s : State} {g : GrpId} {x : Sample} {st : Nat} {b : Bool} {e : ChanCfg} (held : s.groups[g].held = [(x, st, b)])
    (entry : s.chans[x.ch].cfg = some e) (mode : e.mode = 0x10) (plain : u8 e.param 2 % 4 = 0) (gain : s.chans[x.ch].trimG = 0)
    (offset : s.chans[x.ch].trimO = 0) (low : -1000000 ≤ x.raw) (high : x.raw ≤ 30000000) :
    (s.released g).chans[x.ch].value = BitVec.ofInt 32 x.raw ∧ (s.released g).chans[x.ch].stamp = st ∧
      (s.released g).chans[x.ch].stale = false := by
  rw [State.released, held]
  exact takeSample_current (s := s.updGrp g fun p => { p with held := [] }) entry mode plain gain offset low high st b

theorem engineFrame_good {s : State} {g : GrpId} {f : EngineFrame} (supplied : s.groups[g].lplus = true) (own : f.bySpare = false)
    (serving : s.groups[g].engfail = false) (t : Nat) (result : f.resultOk = true) (zero : f.zeroOk = true) (test : f.selfTestOk = true)
    (gain : f.gainPpm.natAbs ≤ 5000) :
    ∃ s' start, exec (.engineFrame t g f) s = .next s' ∧ s.groups[g].frameAt ≤ start ∧ s'.groups[g].frameAt = start + 400000 ∧
      s'.groups[g].engok = true ∧ s'.groups[g].engfail = false ∧ s'.groups[g].zeroErr = BitVec.ofInt 16 f.zeroPpm ∧ LanesKept s s' ∧
      (∀ x st b, (x, st, b) ∈ s'.groups[g].held ↔ x ∈ f.samples ∧ s.deliverable g start x = true ∧ st = s.sampleStamp start x ∧ b = false) ∧
      (∀ x st e, s.groups[g].held = [(x, st, false)] → s.chans[x.ch].cfg = some e → e.mode = 0x10 → u8 e.param 2 % 4 = 0 →
        s.chans[x.ch].trimG = 0 → s.chans[x.ch].trimO = 0 → -1000000 ≤ x.raw → x.raw ≤ 30000000 →
        s'.chans[x.ch].value = BitVec.ofInt 32 x.raw ∧ s'.chans[x.ch].stamp = st ∧ s'.chans[x.ch].stale = false) := by
  obtain ⟨start, after, good, run⟩ := exec_engineFrame_good supplied own serving t result zero test gain
  have judged := frameJudged_group (s.at t) g f start
  rw [good] at judged
  have kept := itemTaken_frameKept ((s.at t).frameJudged g f start) g f start
  have new := (kept.newSamples g f start).trans (frameJudged_newSamples (s.at t) g f start)
  have group := kept.group g
  simp only [judged, Group.schedule, Prod.mk.injEq] at group
  obtain ⟨-, -, -, frameAt, engok, engfail, zeroErr, held⟩ := group
  have scaling (n : ChanId) := kept.chan n
  have lanes : LanesKept s (((s.at t).frameJudged g f start).itemTaken g f start) := kept.lanes
  generalize ((s.at t).frameJudged g f start).itemTaken g f start = taken at *
  obtain ⟨same, here, chans⟩ := passSamples_holds own taken g start
  refine ⟨_, start, run, after, ?_, ?_, ?_, ?_, lanes.trans same, fun x st b => ?_, ?_⟩
  · rw [here]; exact frameAt
  · rw [here]; exact engok
  · rw [here]; exact engfail.trans serving
  · rw [here]; exact zeroErr
  · rw [here, new, ← own]
    exact mem_newSamples (s.at t) g f start x st b
  · intro x st e one entry mode plain trimG trimO low high
    have scale := scaling x.ch
    simp only [Chan.scaling, Prod.mk.injEq] at scale
    obtain ⟨entry', gain', offset'⟩ := scale
    rw [chans]
    exact released_current (held.trans one) (entry'.trans entry) mode plain (gain'.trans trimG) (offset'.trans trimO) low high

/-! ### A failed check (R273, R296, R297) -/

/-- The group and its records once its engine has failed. -/
def State.engineLost (s : State) (g : GrpId) : State :=
  ((s.updGrp g fun p => { p with engfail := true, failevt := true, held := [] }).mark (grpReg g 0x80) 16).rechan g
    fun _ _ c => { c with stale := c.stale || (c.cfg.map ChanCfg.isAnalogue).getD false }

theorem engineFailed_eq (s : State) (g : GrpId) (d : Nat) : s.engineFailed g d =
    ((s.engineLost g).assignSpare g d).1.engineRecord g ((s.engineLost g).assignSpare g d).2 := rfl

theorem updChan_measuring (s : State) (n : ChanId) (f : Chan → Chan) : (s.updChan n f).measuring = s.measuring := rfl

theorem rechan_measuring (s : State) (g : GrpId) (f : Nat → ChanId → Chan → Chan) : (s.rechan g f).measuring = s.measuring :=
  foldl_keeps_key State.measuring (fun s n => updChan_measuring s n (f s.now n)) (chansOf g) s

theorem engineLost_measuring (s : State) (g : GrpId) : (s.engineLost g).measuring = s.measuring := (rechan_measuring ..).trans rfl

theorem engineLost_group (s : State) (g : GrpId) : (s.engineLost g).groups[g] = { s.groups[g] with engfail := true, failevt := true, held := [] } := by
  rw [State.engineLost, rechan_groups]
  exact getElem_upd_self ..

theorem engineLost_chan (s : State) {g : GrpId} {n : ChanId} (own : grpOf n = g) : (s.engineLost g).chans[n] =
    { s.chans[n] with stale := s.chans[n].stale || (s.chans[n].cfg.map ChanCfg.isAnalogue).getD false } := rechan_chan _ _ own

theorem assignSpare_alone (s : State) (g : GrpId) (d : Nat) :
    ∃ spare gb, (s.assignSpare g d).1 = { s with spare := spare, gb := gb } := by
  unfold State.assignSpare
  dsimp only
  split
  · exact ⟨s.spare, s.gb, rfl⟩
  · split
    · exact ⟨_, s.gb, rfl⟩
    · split
      · exact ⟨_, _, rfl⟩
      · exact ⟨s.spare, s.gb, rfl⟩

theorem assignSpare_free {s : State} (sound : s.spare.failed = false) (good : s.spare.engok = true) (free : s.spare.assigned = none) (g : GrpId)
    (d : Nat) : s.assignSpare g d = ({ s with
      spare := { s.spare with assigned := some g, connected := false, started := false, since := d, fsBad := false } }, sevFault) := by
  unfold State.assignSpare
  dsimp only
  rw [if_neg (by rw [sound, good]; simp)]
  split
  · rfl
  · next h taken => cases free.symm.trans taken

theorem assignSpare_failed {s : State} (failed : s.spare.failed = true) (g : GrpId) (d : Nat) : s.assignSpare g d = (s, sevCritical) :=
  if_pos (.inl failed)

theorem engineFrame_failed {s : State} {g : GrpId} {f : EngineFrame} (supplied : s.groups[g].lplus = true) (own : f.bySpare = false)
    (serving : s.groups[g].engfail = false) (t : Nat) (result : f.resultOk = true) (zero : f.zeroOk = false) :
    ∃ s', exec (.engineFrame t g f) s = .next s' ∧ s'.groups[g].engfail = true ∧ s'.groups[g].failevt = true ∧ s'.groups[g].failkind = 1 ∧
      s'.groups[g].held = [] ∧ LanesKept s s' ∧
      (∀ n : ChanId, ∀ e, grpOf n = g → s.chans[n].cfg = some e → e.isAnalogue = true →
        s'.chans[n].stale = true ∧ s'.chans[n].value = s.chans[n].value) ∧
      (s.spare.failed = false → s.spare.engok = true → s.spare.assigned = none → s'.spare.assigned = some g ∧ s'.spare.connected = false ∧
        (s.steward = true → s'.recorded 0x42 g.val sevFault)) ∧
      (s.spare.failed = true → s'.spare = s.spare ∧ (s.steward = true → s'.recorded 0x42 g.val sevCritical)) := by
  obtain ⟨start, -, run⟩ := exec_engineFrame_own supplied own serving t
  have bad : failKind f (start / frameCycles % 8) = 1 := by simp [failKind, result, zero]
  rw [bad, if_pos (by rfl), engineFailed_eq] at run
  have judged := frameJudged_group (s.at t) g f start
  rw [bad] at judged
  have group := engineLost_group ((s.at t).frameJudged g f start) g
  rw [judged] at group
  have chan {n : ChanId} (here : grpOf n = g) := engineLost_chan ((s.at t).frameJudged g f start) here
  have measuring := engineLost_measuring ((s.at t).frameJudged g f start) g
  generalize ((s.at t).frameJudged g f start).now - slotCycles = d at run
  generalize ((s.at t).frameJudged g f start).engineLost g = lost at *
  have lanes : LanesKept s lost :=
    ⟨(congrArg State.rooms measuring :), (congrArg State.dmem measuring :), (congrArg State.img measuring :)⟩
  have spare : lost.spare = s.spare := (congrArg State.spare measuring :)
  have steward : lost.steward = s.steward := (congrArg State.steward measuring :)
  obtain ⟨taken, gb, assigned⟩ := assignSpare_alone lost g d
  have quiet : ((lost.assignSpare g d).1.engineRecord g (lost.assignSpare g d).2).unreported = { lost with spare := taken }.unreported :=
    (channelEvent_unreported ..).trans (by rw [assigned]; rfl)
  have groups : ((lost.assignSpare g d).1.engineRecord g (lost.assignSpare g d).2).groups = lost.groups := (congrArg State.groups quiet :)
  have chans : ((lost.assignSpare g d).1.engineRecord g (lost.assignSpare g d).2).chans = lost.chans := (congrArg State.chans quiet :)
  have after : LanesKept lost ((lost.assignSpare g d).1.engineRecord g (lost.assignSpare g d).2) :=
    ⟨(congrArg State.rooms quiet :), (congrArg State.dmem quiet :), (congrArg State.img quiet :)⟩
  have record (on : (lost.assignSpare g d).1.steward = true) (sev : BitVec 2) :
      ((lost.assignSpare g d).1.engineRecord g sev).recorded 0x42 g.val sev := channelEvent_recorded on ..
  have still (sev : BitVec 2) : ((lost.assignSpare g d).1.engineRecord g sev).spare = (lost.assignSpare g d).1.spare :=
    (congrArg State.spare (channelEvent_unreported (lost.assignSpare g d).1 0x42 g.val sev [grpReg g 0x80, grpReg g 0x84]) :)
  refine ⟨_, run, ?_, ?_, ?_, ?_, lanes.trans after, ?_, ?_, ?_⟩
  · rw [groups, group]
  · rw [groups, group]
  · rw [groups, group]
    rfl
  · rw [groups, group]
  · intro n e here entry analogue
    have entry' : ((s.at t).frameJudged g f start).chans[n].cfg = some e := entry
    rw [chans, chan here, entry']
    exact ⟨by simp [analogue], rfl⟩
  · intro sound good free
    have eq := assignSpare_free (s := lost) (by rw [spare]; exact sound) (by rw [spare]; exact good) (by rw [spare]; exact free) g d
    rw [still]
    rw [eq] at record ⊢
    exact ⟨rfl, rfl, fun on => record (steward.trans on) _⟩
  · intro failed
    have eq := assignSpare_failed (s := lost) (by rw [spare]; exact failed) g d
    rw [still]
    rw [eq] at record ⊢
    exact ⟨spare, fun on => record (steward.trans on) _⟩

/-! ### The spare connects, starts and gives its group back (R297, R298, R299) -/

theorem exec_spareConnect {s : State} {g : GrpId} (assigned : s.spare.assigned = some g) (apart : s.spare.connected = false) (t : Nat) :
    exec (.spareConnect t) s =
      .next { s with now := max (s.then t) (s.spare.since + 200000), spare := { s.spare with connected := true } } := by
  change execSpareConnect t s = _
  unfold execSpareConnect
  rw [assigned, apart]
  dsimp only
  rw [at_now_due]
  rfl

/-- The spare measures: it has taken over. -/
def State.spareStarted (s : State) : State :=
  ({ s with spare := { s.spare with started := true, takeevt := true, takeovers := satInc s.spare.takeovers } } : State).mark 0x3C00 128

theorem exec_spareScheduleStart {s : State} {g : GrpId} (assigned : s.spare.assigned = some g) (connected : s.spare.connected = true)
    (waits : s.spare.started = false) (sound : s.spare.failed = false) (t : Nat) : exec (.spareScheduleStart t) s = .next (
      if !s.spare.takeevt then
        (s.at (max t (s.spare.since + 17 * frameCycles))).spareStarted.channelEvent 0x44 g.val sevNotice [0x3C00]
      else (s.at (max t (s.spare.since + 17 * frameCycles))).spareStarted) := by
  change execSpareScheduleStart t s = _
  unfold execSpareScheduleStart
  rw [assigned, connected, waits, sound]
  rfl

theorem spareScheduleStart_starts {s : State} {g : GrpId} (assigned : s.spare.assigned = some g) (connected : s.spare.connected = true)
    (waits : s.spare.started = false) (sound : s.spare.failed = false) (t : Nat) :
    ∃ s', exec (.spareScheduleStart t) s = .next s' ∧ s'.now = max (s.then t) (s.spare.since + 17 * 400000) ∧ s'.spare.started = true ∧
      s'.spare.takeevt = true ∧ s'.spare.takeovers = satInc s.spare.takeovers ∧ LanesKept s s' ∧ s'.chans = s.chans ∧
      (s.spare.takeevt = false → s.steward = true → s'.recorded 0x44 g.val sevNotice) := by
  refine ⟨_, exec_spareScheduleStart assigned connected waits sound t, ?_⟩
  cases event : s.spare.takeevt with
  | true => exact ⟨at_now_due .., rfl, rfl, rfl, ⟨rfl, rfl, rfl⟩, rfl, nofun⟩
  | false =>
    rw [if_pos (by rfl)]
    have quiet := channelEvent_unreported (s.at (max t (s.spare.since + 17 * frameCycles))).spareStarted 0x44 g.val sevNotice [0x3C00]
    refine ⟨?_, (congrArg (·.spare.started) quiet :), (congrArg (·.spare.takeevt) quiet :), (congrArg (·.spare.takeovers) quiet :),
      ⟨(congrArg State.rooms quiet :), (congrArg State.dmem quiet :), (congrArg State.img quiet :)⟩, (congrArg State.chans quiet :),
      fun _ steward => channelEvent_recorded (s := (s.at _).spareStarted) steward ..⟩
    exact (congrArg State.now quiet :).trans (at_now_due ..)

/-- A completion that follows a record answers its command (R343). -/
theorem complete_answers_of_inward {s s₁ : State} {t : Nat} {c : RingId} {e : CmdEntry} {op : Nat} (can : s.CanAnswer c)
    (host : s₁.host.unraised = (s.taken t c e op).host.unraised) (out : s₁.out = (s.taken t c e op).out) (st : BitVec 16) (res : List Byte) :
    Answers s (s₁.complete (s.refOf c e op) st res) c e st res := by
  obtain ⟨begins, -, room⟩ := can
  obtain ⟨active, master, free⟩ := rings_of_mayBegin begins
  obtain ⟨done, completes⟩ := (complete_finishes s₁ (s.refOf c e op) st res).since host (out ▸ List.prefix_refl _) active (taken_inProg ..)
  obtain ⟨bs, written, fields⟩ := completes master room free
  refine ⟨done, ?_, bs, written.since rfl rfl (List.prefix_append ..), fields⟩
  rw [complete_cmdHead, show s₁.host.cmdHead = _ from (congrArg HostIf.cmdHead host :)]
  exact Vector.getElem_set_self ..

/-- The group given back by the spare, at the next frame of its own engine. -/
def State.givenBack (s : State) (g : GrpId) : State :=
  let back := (({ s with now := s.cycleOfTb (ceilDiv s.tb frameCycles * frameCycles) } : State).updGrp g fun p =>
    { p with spare := false, engfail := false, retevt := true }).mark (grpReg g 0x80) 32
  { back with spare := { s.spare with assigned := none, connected := false, started := false } }

theorem givenBack_group (s : State) (g : GrpId) :
    (s.givenBack g).groups[g] = { s.groups[g] with spare := false, engfail := false, retevt := true } := getElem_upd_self ..

/-- The state that follows `s` when a report may have been made on the way. -/
theorem reportOnce_keys (s : State) (first : Bool) (typ src : Nat) (sev : BitVec 2) (offs : List Nat) :
    (if first then s.channelEvent typ src sev offs else s).unreported = s.unreported ∧
      (if first then s.channelEvent typ src sev offs else s).inward = s.inward := by
  cases first with
  | true => exact ⟨channelEvent_unreported .., channelEvent_inward ..⟩
  | false => exact ⟨rfl, rfl⟩

section
variable {s : State} {c : RingId} {e : CmdEntry} {g : GrpId} (can : s.CanAnswer c) (form : e.formOk 0 [(4, 1)] = true) (named : e.b 4 = g.val)
include can form named

theorem spareEngineReturn_gives (t : Nat) (assigned : s.spare.assigned = some g) (good : s.groups[g].engok = true)
    (long : s.groups[g].engSince + 4000000000 ≤ s.then t) :
    ∃ s' r, exec (.spareEngineReturn t c e) s = .next s' ∧ Answers s s' c e 0 r ∧ s'.spare.assigned = none ∧ s'.spare.connected = false ∧
      s'.spare.started = false ∧ s'.groups[g].spare = false ∧ s'.groups[g].engfail = false ∧ s'.groups[g].retevt = true ∧ LanesKept s s' := by
  have group : toFin? 12 (e.b 4) = some g := by rw [named, toFin?_val]
  have assigned' : (s.taken t c e 0x41).spare.assigned = some g := assigned
  have good' : (s.taken t c e 0x41).groups[g].engok = true := good
  have long' : (s.taken t c e 0x41).groups[g].engSince + 10 * secCycles ≤ (s.taken t c e 0x41).now := long
  have run : exec (.spareEngineReturn t c e) s = .next _ := congrArg Host.Outcome.next (command_passes can.1 can.2.1 (by
    simp only [Passes, group, assigned', good', form]
    simp
    exact long'))
  simp only [group] at run
  obtain ⟨quiet, inward⟩ := reportOnce_keys ((s.taken t c e 0x41).givenBack g) (!(s.taken t c e 0x41).groups[g].retevt) 0x43 g.val sevNotice
    [grpReg g 0x80]
  have back := givenBack_group (s.taken t c e 0x41) g
  obtain ⟨res, run⟩ : ∃ res, exec (.spareEngineReturn t c e) s = .next (State.complete (if !(s.taken t c e 0x41).groups[g].retevt then
      ((s.taken t c e 0x41).givenBack g).channelEvent 0x43 g.val sevNotice [grpReg g 0x80] else (s.taken t c e 0x41).givenBack g)
        (s.refOf c e 0x41) 0 res) := ⟨_, run⟩
  generalize (if !(s.taken t c e 0x41).groups[g].retevt then
    ((s.taken t c e 0x41).givenBack g).channelEvent 0x43 g.val sevNotice [grpReg g 0x80] else (s.taken t c e 0x41).givenBack g) = told at *
  have here : told.groups[g] = _ := ((congrArg (·.groups[g]) quiet :)).trans back
  have spare : told.spare = _ := (congrArg State.spare quiet :)
  have lanes : LanesKept s told := ⟨(congrArg State.rooms quiet :), (congrArg State.dmem quiet :), (congrArg State.img quiet :)⟩
  refine ⟨_, res, run, complete_answers_of_inward (t := t) can (congrArg State.host inward :) (congrArg State.out inward :) 0 res, ?_⟩
  rw [complete_alone told (s.refOf c e 0x41) 0 res]
  dsimp only
  rw [here, spare]
  exact ⟨rfl, rfl, rfl, rfl, rfl, rfl, lanes⟩

theorem spareEngineReturn_refused (t : Nat) (other : s.spare.assigned ≠ some g) : ∃ s', exec (.spareEngineReturn t c e) s = .next s' ∧
    Answers s s' c e 0x0234 [] ∧ s'.groups = s.groups ∧ s'.spare = s.spare := by
  have group : toFin? 12 (e.b 4) = some g := by rw [named, toFin?_val]
  have other' : ((s.taken t c e 0x41).spare.assigned != some g) = true := bne_iff_ne.mpr other
  obtain ⟨s', run, answers, same⟩ := exec_refused (i := .spareEngineReturn t c e) (st := 0x0234) can rfl
    (by simp only [group]; simp [firstFail, form, other'])
  refine ⟨s', run, answers, ?_⟩
  rw [same]
  exact ⟨rfl, rfl⟩

end

/-- Settles O23, frame by frame of the group's own engine, and by the spare's instants. -/
theorem sparePaths : Obligations.SparePaths := by
  refine ⟨fun s t g f => ⟨fun supplied own serving result zero test gain => ?_, fun supplied own serving result zero => ?_,
    fun assigned apart => ⟨_, exec_spareConnect assigned apart t, rfl⟩, fun assigned connected waits sound => ?_⟩,
    fun s t c e g can form named => ⟨fun assigned good long => ?_, fun other => ?_⟩⟩
  · exact engineFrame_good supplied own serving t result zero test gain
  · exact engineFrame_failed supplied own serving t result zero
  · exact spareScheduleStart_starts assigned connected waits sound t
  · exact spareEngineReturn_gives can form named t assigned good long
  · exact spareEngineReturn_refused can form named t other

end Sys2Proof.Machine
end

section
/-! PROOFS. Lock step: the frames a relief takes, and how it falls out of step (R217, R232, R356, R379, R386, R387). -/

namespace Sys2Proof.Machine

/-! ### What a module that leaves its role keeps (R382) -/

/-- Rooms, memory and image, and the edits and reads that wait. -/
def State.bench (s : State) : Vector Room 100 × Mem × Image × List Batch × List VRead :=
  (s.rooms, s.dmem, s.img, s.edits.batches, s.edits.reads)

theorem bench_of_unreported {s s' : State} (h : s'.unreported = s.unreported) : s'.bench = s.bench := (congrArg State.bench h :)

theorem completeOpt_bench (s : State) (ref : Option CmdRef) (st : BitVec 16) (res : List Byte) : (s.completeOpt ref st res).bench = s.bench :=
  bench_of_unreported (completeOpt_unreported ..)

theorem completeAll_bench (s : State) (refs : List CmdRef) (st : BitVec 16) (res : List Byte) : (s.completeAll refs st res).bench = s.bench :=
  bench_of_unreported (completeAll_unreported ..)

theorem discardEdits_bench (s : State) : s.discardEdits.bench = (s.rooms, s.dmem, s.img, [], []) :=
  foldl_keeps_key State.bench (fun s r => completeOpt_bench s r 0x0228 []) _ { s with edits := { s.edits with batches := [], reads := [] } }

theorem abandonSwap_bench (s : State) (st : BitVec 16) : (s.abandonSwap st).bench = s.bench :=
  (bench_of_unreported (abandonSwap_unreported s st) :)

theorem app_bench (s : State) (a : App) : ({ s with app := a } : State).bench = s.bench := rfl
theorem pair_bench (s : State) (p : Pair) : ({ s with pair := p } : State).bench = s.bench := rfl

theorem dropCommands_bench (s : State) : s.dropCommands.bench = (s.rooms, s.dmem, s.img, [], []) := by
  unfold State.dropCommands
  dsimp only
  rw [completeOpt_bench, pair_bench, apply_ite State.bench, abandonSwap_bench, ite_self]
  split <;> split <;>
    simp only [completeOpt_bench, completeAll_bench, app_bench, discardEdits_bench, apply_ite State.bench, ite_self]

theorem dropPoints_edits (s : State) : s.dropPoints.edits = s.edits := by
  refine (foldl_keeps_key State.edits (fun s p => ?_) s.nv.points s :)
  split <;> rfl

/-- From s to s' the rooms have stopped with their registers, nothing waits, memory and image are as they were, and the night porter is in
boot mode. -/
structure LeftStanding (s s' : State) : Prop where
  dmem : s'.dmem = s.dmem
  img : s'.img = s.img
  batches : s'.edits.batches = []
  reads : s'.edits.reads = []
  mode : s'.np.mode = false
  room : ∀ r : RoomId, s'.rooms[r].g = s.rooms[r].g ∧
    s'.rooms[r].st = (if s.rooms[r].st = .waiting ∨ s.rooms[r].st = .ready then .stopped else s.rooms[r].st)

section
variable {s s₁ s' : State} (left : LeftStanding s s₁)
include left

theorem LeftStanding.of_outward (h : OnlyOutward s₁ s') : LeftStanding s s' := by
  obtain ⟨dmem, img, batches, reads, mode, room⟩ := left
  have np : s'.np = s₁.np := let ⟨_, eq⟩ := h; (congrArg State.np eq :)
  exact ⟨h.dmem.trans dmem, h.img.trans img, by rw [h.edits, batches], by rw [h.edits, reads], by rw [np, mode], fun r => by rw [h.rooms]; exact room r⟩

theorem LeftStanding.of_unreported (h : s'.unreported = s₁.unreported) : LeftStanding s s' := by
  obtain ⟨dmem, img, batches, reads, mode, room⟩ := left
  have rooms : s'.rooms = s₁.rooms := (congrArg State.rooms h :)
  exact ⟨(congrArg State.dmem h :).trans dmem, (congrArg State.img h :).trans img, (congrArg (·.edits.batches) h :).trans batches,
    (congrArg (·.edits.reads) h :).trans reads, (congrArg (·.np.mode) h :).trans mode, fun r => by rw [rooms]; exact room r⟩

theorem LeftStanding.pair (p : Pair) : LeftStanding s { s₁ with pair := p } := ⟨left.dmem, left.img, left.batches, left.reads, left.mode, left.room⟩
theorem LeftStanding.app (a : App) : LeftStanding s { s₁ with app := a } := ⟨left.dmem, left.img, left.batches, left.reads, left.mode, left.room⟩

end

theorem npBoot_standing (s : State) : s.npBoot.standing = s.standing := rfl
theorem npBoot_edits (s : State) : s.npBoot.edits = s.edits := rfl

/-- The commands dropped, the rooms stopped and boot mode begun. -/
def State.vacated (s : State) : State := (s.dropCommands.stopRooms.dropPoints).npBoot

theorem vacated_left (s : State) : LeftStanding s s.vacated := by
  have dropped := dropCommands_bench s
  simp only [State.bench, Prod.mk.injEq] at dropped
  obtain ⟨rooms, dmem, img, batches, reads⟩ := dropped
  have standing : s.vacated.standing = s.dropCommands.stopRooms.standing := (npBoot_standing _).trans (dropPoints_standing _)
  have edits : s.vacated.edits = s.dropCommands.edits := (npBoot_edits _).trans (dropPoints_edits _)
  have mode : s.vacated.np.mode = false := rfl
  generalize s.vacated = left at *
  generalize s.dropCommands = dropped at *
  refine ⟨(congrArg State.dmem standing :).trans dmem, (congrArg State.img standing :).trans img, by rw [edits, batches], by rw [edits, reads],
    mode, fun r => ?_⟩
  obtain ⟨st, g, -⟩ := room_of_standing standing r
  obtain ⟨stops, keeps, -⟩ := stopRooms_room dropped r
  rw [st, g, stops, keeps, rooms]
  exact ⟨rfl, rfl⟩

theorem becomeOut_left (s : State) (reason : BitVec 3) (sev : BitVec 2) : LeftStanding s (s.becomeOut reason sev) := by
  have stood := ((vacated_left s).app { s.vacated.app with running := false }).pair
    (State.restartSync { s.vacated with app := { s.vacated.app with running := false } }).pair
  exact stood.of_outward (setRole_outward ..)

/-- A module that has become RELIEF OUT, with a bit of PAIR_EVT set for it. -/
theorem becomeOut_pairEvent_left (s : State) (reason : BitVec 3) (sev : BitVec 2) (b : Nat) :
    LeftStanding s ((s.becomeOut reason sev).pairEvent b) :=
  ((becomeOut_left s reason sev).pair _).of_unreported (pairEvent_unreported ..)

/-! ### Out of step (R387) -/

/-- Lock step has ended between s and s' for a reason. -/
def State.FallsOut (s s' : State) (why : BitVec 3) : Prop :=
  s'.pair.role = 3 ∧ s'.pair.osreason = why ∧ s'.pair.epoch = s.pair.epoch + 1 ∧ s'.pair.evt.getLsbD 2 = true ∧ s'.app.running = false ∧
    s'.edits.batches = [] ∧ s'.edits.reads = [] ∧ s'.dmem = s.dmem ∧ s'.img = s.img ∧ s'.np.mode = false ∧
    ∀ r : RoomId, s'.rooms[r].g = s.rooms[r].g ∧
      s'.rooms[r].st = (if s.rooms[r].st = .waiting ∨ s.rooms[r].st = .ready then .stopped else s.rooms[r].st)

theorem fallOut_unreported {s : State} (role : s.pair.role = 2) (why : BitVec 3) : (s.fallOut why).unreported =
    ((({ s with pair := { s.pair with osreason := why } } : State).becomeOut 0 sevNotice).pairEvent evOutstep).unreported := by
  rw [State.fallOut, if_pos role]
  dsimp only
  split
  · rfl
  · exact gbEvent_unreported ..

theorem fallOut_falls {s : State} (role : s.pair.role = 2) (why : BitVec 3) : s.FallsOut (s.fallOut why) why := by
  have same := fallOut_unreported role why
  obtain ⟨dmem, img, batches, reads, mode, room⟩ :=
    (becomeOut_pairEvent_left { s with pair := { s.pair with osreason := why } } 0 sevNotice evOutstep).of_unreported same
  have pair := pair_of_unreported same
  obtain ⟨_, out⟩ := becomeOut_pair { s with pair := { s.pair with osreason := why } } 0 sevNotice
  refine ⟨fallOut_role role why, fallOut_osreason role why, ?_, ?_, fallOut_running role why, batches, reads, dmem, img, mode, room⟩
  · rw [pair, pairEvent_pair, out]
  · rw [pair]
    exact pairEvent_evt _ (by decide)

/-! ### A late digest (R387 case 3) -/

theorem controlBytes_byte (op : Nat) (b : Nat) (args : List Byte) : u8 (controlBytes op (toLe 1 b ++ args)) 4 = b % 256 := by
  rw [u8_eq_ofLe, slice_controlBytes op _ (i := 0) (n := 1) (by simp), slice_append_left _ _ (by simp)]
  simp

theorem sendControl_linked {s : State} (link : s.pair.link = true) (op : Nat) (args : List Byte) :
    s.sendControl op args = s.emit (.frame 5 (controlBytes op args)) := sendFrame_linked link ..

theorem digestLate_tells {s : State} {n : Nat} {rest : List Nat} (due : s.pair.digDue = n :: rest) (link : s.pair.link = true) (t : Nat) :
    ∃ s' b, exec (.digestLate t) s = .next s' ∧ s'.pair.digDue = rest ∧ s'.now = max (s.then t) (s.cycleOfTb (tickCycles * n + 40000)) ∧
      s'.out = s.out ++ [.frame 5 b] ∧ u8 b 0 = 5 ∧ u8 b 4 = 3 ∧ LanesKept s s' := by
  have run : exec (.digestLate t) s = .next (({ s.at (max t (s.cycleOfTb (tickCycles * n + 40000))) with
      pair := { s.pair with digDue := rest } } : State).sendControl 5 (toLe 1 3)) := by
    change execDigestLate t s = _
    unfold execDigestLate
    rw [due]
    rfl
  rw [sendControl_linked (s := { s.at (max t (s.cycleOfTb (tickCycles * n + 40000))) with pair := { s.pair with digDue := rest } }) link] at run
  exact ⟨_, _, run, rfl, at_now_due .., rfl, controlBytes_code .., controlBytes_byte 5 3 [], rfl, rfl, rfl⟩

/-! ### Frames a relief takes (R232, R356, R379) -/

theorem edit_accepts {s : State} {bs : List Byte} (steward : s.steward = true) (role : s.pair.role = 2) (ahead : s.cycle < u48 bs 0)
    (sound : s.batchStatus (u16 bs 6) (batchEntries (bs.drop 8).length (bs.drop 8)) = 0) (t : Nat) : ∃ s' b, exec (.edit t bs) s = .next s' ∧
      s'.edits.batches = s.edits.batches ++ [b] ∧ b.te = u48 bs 0 ∧ b.task = u16 bs 6 ∧ b.ref = none ∧ LanesKept s s' ∧ s'.app = s.app := by
  have run : exec (.edit t bs) s = .next ((s.at t).acceptBatch none (u16 bs 6) (u48 bs 0) (bs.drop 8)) :=
    congrArg Host.Outcome.next (if_pos ⟨steward, role, ahead, sound⟩)
  rw [acceptBatch_alone] at run
  exact ⟨_, (s.at t).batchOf none (u16 bs 6) (u48 bs 0) (bs.drop 8), run, rfl, rfl, rfl, rfl, ⟨rfl, rfl, rfl⟩, rfl⟩

/-- Settles O50, message by message. -/
theorem lockStep : Obligations.LockStep := by
  intro s t bs fallen
  refine ⟨fun awake relief ahead => ⟨_, congrArg Host.Outcome.next (if_pos ⟨awake, relief, ahead⟩), rfl⟩, fun stays => ?input, ⟨_, rfl, rfl⟩,
    fun n rest due link => digestLate_tells due link t, fun steward role => ⟨?outstep, fun ahead => ?stop, fun late => ?lateStop,
      fun ahead sound => edit_accepts steward role ahead sound t, fun late => ?lateEdit⟩, fun other => ?leads⟩
  case input =>
    refine ⟨s.at t, congrArg Host.Outcome.next (if_neg fun ⟨_, relief, ahead⟩ => ?_), rfl⟩
    rcases stays with leads | past
    · exact absurd relief (by rw [show (s.at t).isRelief = s.isRelief from rfl, leads]; decide)
    · exact absurd ahead (Nat.not_lt.mpr past)
  case outstep => exact ⟨_, congrArg Host.Outcome.next (if_pos steward), fallOut_falls (s := s.at t) role _⟩
  case stop =>
    have run : exec (.stopMessage t bs) s = .next (if s.cycle < u48 bs 0 then (s.at t).scheduleStop (u48 bs 0) [] else (s.at t).fallOut 5) :=
      if_pos ⟨steward, role⟩
    rw [if_pos ahead] at run
    exact ⟨_, run, rfl, ⟨rfl, rfl, rfl⟩, rfl⟩
  case lateStop =>
    have run : exec (.stopMessage t bs) s = .next (if s.cycle < u48 bs 0 then (s.at t).scheduleStop (u48 bs 0) [] else (s.at t).fallOut 5) :=
      if_pos ⟨steward, role⟩
    rw [if_neg (Nat.not_lt.mpr late)] at run
    exact ⟨_, run, fallOut_falls (s := s.at t) role 5⟩
  case lateEdit =>
    have past : ¬ ((s.at t).steward = true ∧ (s.at t).pair.role = 2 ∧ (s.at t).cycle < u48 bs 0 ∧
        (s.at t).batchStatus (u16 bs 6) (batchEntries (bs.drop 8).length (bs.drop 8)) = 0) := fun ⟨_, _, ahead, _⟩ => Nat.not_lt.mpr late ahead
    exact ⟨s.at t, congrArg Host.Outcome.next (if_neg past), rfl⟩
  case leads =>
    have same : (s.at t).fallOut (BitVec.ofNat 3 (u8 bs 0)) = s.at t := fallOut_of_role_ne (s := s.at t) other _
    refine ⟨s.at t, ?_, rfl⟩
    change Host.Outcome.next (if (s.at t).steward then (s.at t).fallOut _ else s.at t) = _
    rw [same, ite_self]

end Sys2Proof.Machine
end

section
/-! PROOFS. The planned switch (R393, R394, R395). -/

namespace Sys2Proof.Machine

/-! ### What follows a completion -/

theorem completeOpt_follows (s : State) (x : Option CmdRef) (st : BitVec 16) (res : List Byte) (k : RingId) :
    s.Follows (s.completeOpt x st res) k := by
  cases x with
  | none => exact .refl s k
  | some ref => exact complete_follows s ref st res k

theorem State.Follows.of_host {s s' : State} (host : s'.host = s.host) (out : s'.out = s.out) (k : RingId) : s.Follows s' k :=
  ⟨out ▸ List.prefix_rfl, fun idle => by rwa [host]⟩

theorem State.Follows.before {s s₁ s' : State} {k : RingId} (h : s₁.Follows s' k) (host : s₁.host = s.host) (out : s₁.out = s.out) :
    s.Follows s' k := (State.Follows.of_host host out k).trans h

theorem State.Follows.of_outward {s s' : State} (h : OnlyOutward s s') (k : RingId) : s.Follows s' k :=
  ⟨h.out, fun idle => by rwa [show s'.host.inProg = s.host.inProg from (congrArg HostIf.inProg h.unraised :)]⟩

theorem discardEdits_follows (s : State) (k : RingId) : s.Follows s.discardEdits k :=
  List.foldlRecOn (motive := fun s' : State => s.Follows s' k) (s.edits.batches.map Batch.ref ++ s.edits.reads.map VRead.ref) _
    ((State.Follows.refl { s with edits := { s.edits with batches := [], reads := [] } } k).before rfl rfl)
    fun s' h ref _ => h.trans (completeOpt_follows s' ref ..)

theorem abandonSwap_follows (s : State) (st : BitVec 16) (k : RingId) : s.Follows (s.abandonSwap st) k := by
  rw [abandonSwap_eq]
  exact ((completeOpt_follows s.swapBack s.edits.ref st [] k).trans (completeAll_follows ..)).before rfl rfl

/-- A start that waits is dropped. -/
def State.startDropped (s : State) : State :=
  match s.app.start with
  | none => s
  | some q => { s with app := { s.app with start := none } }.completeOpt q.ref 0x0701 []

/-- A stop that waits is dropped. -/
def State.stopDropped (s : State) : State :=
  match s.app.stop with
  | none => s
  | some q => if s.app.running then { s with app := { s.app with stop := none } }.completeAll q.refs 0x0701 [] else s

theorem startDropped_follows (s : State) (k : RingId) : s.Follows s.startDropped k := by
  unfold State.startDropped
  split
  · exact .refl s k
  · exact (completeOpt_follows ..).before rfl rfl

theorem stopDropped_follows (s : State) (k : RingId) : s.Follows s.stopDropped k := by
  unfold State.stopDropped
  split
  · exact .refl s k
  · split
    · exact (completeAll_follows ..).before rfl rfl
    · exact .refl s k

theorem dropCommands_follows (s : State) (k : RingId) : s.Follows s.dropCommands k := by
  have stopped : s.Follows s.discardEdits.startDropped.stopDropped k :=
    (discardEdits_follows s k).trans ((startDropped_follows ..).trans (stopDropped_follows ..))
  have swapped {s₁ : State} : s₁.Follows (if s₁.edits.confirmed then s₁ else s₁.abandonSwap 0x0703) k := by
    split
    · exact .refl s₁ k
    · exact abandonSwap_follows s₁ 0x0703 k
  have joined {s₁ : State} : s₁.Follows ({ s₁ with pair := { s₁.pair with joinRef := none } }.completeOpt s₁.pair.joinRef 0x0707 []) k :=
    (completeOpt_follows ..).before rfl rfl
  exact stopped.trans (swapped.trans joined)

theorem dropPoints_host (s : State) : s.dropPoints.host = s.host := by
  refine (foldl_keeps_key State.host (fun s p => ?_) s.nv.points s :)
  split <;> rfl

theorem dropPoints_out (s : State) : s.dropPoints.out = s.out := by
  refine (foldl_keeps_key State.out (fun s p => ?_) s.nv.points s :)
  split <;> rfl

theorem npBoot_host (s : State) : s.npBoot.host = s.host := rfl
theorem npBoot_out (s : State) : s.npBoot.out = s.out := rfl

theorem vacated_follows (s : State) (k : RingId) : s.Follows s.vacated k :=
  have host : s.vacated.host = s.dropCommands.host := (npBoot_host _).trans (dropPoints_host s.dropCommands.stopRooms)
  have out : s.vacated.out = s.dropCommands.out := (npBoot_out _).trans (dropPoints_out s.dropCommands.stopRooms)
  (dropCommands_follows s k).trans (.of_host host out k)

theorem becomeOut_follows (s : State) (reason : BitVec 3) (sev : BitVec 2) (k : RingId) : s.Follows (s.becomeOut reason sev) k := by
  have ended : s.Follows ({ s.vacated with app := { s.vacated.app with running := false } } : State).restartSync k :=
    (vacated_follows s k).trans ((State.Follows.refl (State.restartSync _) k).before rfl rfl)
  exact ended.trans (.of_outward (setRole_outward ..) k)

theorem pairEvent_follows (s : State) (b : Nat) (k : RingId) : s.Follows (s.pairEvent b) k := by
  unfold State.pairEvent
  dsimp only
  split
  · exact (State.Follows.refl (s.mark 0x4008 (2 ^ b)) k).before rfl rfl
  · exact (State.Follows.of_outward (raiseNow_outward ..) k).before rfl rfl

/-! ### Messages of a switch (R393) -/

theorem u48_toLe (n : Nat) (rest : List Byte) : u48 (toLe 6 n ++ rest) 0 = n % 2 ^ 48 := by
  have six : 256 ^ 6 = 2 ^ 48 := by decide
  rw [u48, slice_append_left _ _ (by simp)]
  simp [six, -Nat.reducePow]

/-- The code and the base tick of a message of a switch or a join. -/
theorem codeTick_fields (code : Byte) (tick : Nat) : u8 (code :: toLe 6 tick) 0 = code.toNat ∧ u48 (code :: toLe 6 tick) 1 = tick % 2 ^ 48 :=
  ⟨rfl, (congrArg ofLe (slice_append_right [code] (toLe 6 tick) 6 (by simp))).trans (by simp)⟩

theorem controlBytes_codeTick (op code tick : Nat) : u8 (controlBytes op (toLe 1 code ++ toLe 6 tick)) 0 = op % 256 ∧
    u8 (controlBytes op (toLe 1 code ++ toLe 6 tick)) 4 = code % 256 ∧ u48 (controlBytes op (toLe 1 code ++ toLe 6 tick)) 5 = tick % 2 ^ 48 := by
  refine ⟨controlBytes_code .., controlBytes_byte .., ?_⟩
  rw [show u48 (controlBytes op (toLe 1 code ++ toLe 6 tick)) 5 = ofLe (slice (controlBytes op (toLe 1 code ++ toLe 6 tick)) (4 + 1) 6) from rfl,
    slice_controlBytes op _ (by simp), slice_append_right _ _ _ (by simp)]
  simp

/-- While the road is up, a message with code and base tick is the one thing that goes out. -/
theorem sendControl_codeTick {s : State} (link : s.pair.link = true) (op code tick : Nat) : ∃ b,
    s.sendControl op (toLe 1 code ++ toLe 6 tick) = { s with out := s.out ++ [.frame 5 b] } ∧ u8 b 0 = op % 256 ∧ u8 b 4 = code % 256 ∧
      u48 b 5 = tick % 2 ^ 48 := ⟨_, sendControl_linked link .., controlBytes_codeTick op code tick⟩

/-- A switch proposed to the partner. -/
def State.proposes (s : State) (q : SwitchReq) : State :=
  { s with pair := { s.pair with reqSwitch := some q } }.sendControl 4 (toLe 1 0 ++ toLe 6 q.tick)

theorem proposes_sent {s : State} (link : s.pair.link = true) (q : SwitchReq) : ∃ b,
    s.proposes q = { s with pair := { s.pair with reqSwitch := some q }, out := s.out ++ [.frame 5 b] } ∧ u8 b 0 = 4 ∧ u8 b 4 = 0 ∧
      u48 b 5 = q.tick % 2 ^ 48 := sendControl_codeTick (s := { s with pair := { s.pair with reqSwitch := some q } }) link 4 0 q.tick

/-! ### PAIR SWITCH (R395) -/

section
variable {s : State} {c : RingId} {e : CmdEntry} (can : s.CanAnswer c) (form : e.formOk 0 [] = true)
include can form

theorem pairSwitch_relief (t : Nat) (relief : s.isRelief = true) :
    ∃ s', exec (.pairSwitch t c e) s = .next s' ∧ Answers s s' c e 0x0701 [] ∧ s'.pair = s.pair := by
  have relief' : (s.taken t c e 0x70).isRelief = true := relief
  obtain ⟨s', run, answers, same⟩ := exec_refused (i := .pairSwitch t c e) (st := 0x0701) can rfl (by simp [firstFail, form, relief'])
  exact ⟨s', run, answers, by rw [same]; rfl⟩

theorem pairSwitch_single (t : Nat) (leads : s.isRelief = false) (single : s.inPair = false) :
    ∃ s', exec (.pairSwitch t c e) s = .next s' ∧ Answers s s' c e 0x0708 [] ∧ s'.pair = s.pair := by
  have leads' : (s.taken t c e 0x70).isRelief = false := leads
  have single' : (s.taken t c e 0x70).inPair = false := single
  obtain ⟨s', run, answers, same⟩ := exec_refused (i := .pairSwitch t c e) (st := 0x0708) can rfl (by simp [firstFail, form, leads', single'])
  exact ⟨s', run, answers, by rw [same]; rfl⟩

theorem pairSwitch_alone (t : Nat) (leads : s.isRelief = false) (pair : s.inPair = true) (apart : s.reliefInStep = false) :
    ∃ s', exec (.pairSwitch t c e) s = .next s' ∧ Answers s s' c e 0x0705 [] ∧ s'.pair = s.pair := by
  have leads' : (s.taken t c e 0x70).isRelief = false := leads
  have pair' : (s.taken t c e 0x70).inPair = true := pair
  have apart' : (s.taken t c e 0x70).reliefInStep = false := apart
  obtain ⟨s', run, answers, same⟩ := exec_refused (i := .pairSwitch t c e) (st := 0x0705) can rfl
    (by simp [firstFail, form, leads', pair', apart'])
  exact ⟨s', run, answers, by rw [same]; rfl⟩

theorem pairSwitch_proposes (t : Nat) (pair : s.inPair = true) (step : s.reliefInStep = true) (free : s.pair.reqSwitch = none) :
    ∃ s' ref b, exec (.pairSwitch t c e) s = .next s' ∧ Awaits s s' c e 0x70 ∧ s'.host.inProg[c] = some ref ∧
      s'.pair = { s.pair with reqSwitch := some { tick := s.cycle + 40, confirmed := false, ref := some ref, reversion := false } } ∧
      Out.frame 5 b ∈ s'.out.drop s.out.length ∧ u8 b 0 = 4 ∧ u8 b 4 = 0 ∧ u48 b 5 = (s.cycle + 40) % 2 ^ 48 := by
  have role : s.pair.role = 1 := by
    simp only [State.reliefInStep, Bool.and_eq_true, beq_iff_eq] at step
    obtain ⟨⟨⟨role, -⟩, -⟩, -⟩ := step
    exact role
  have leads' : (s.taken t c e 0x70).isRelief = false := by
    change (s.pair.role == 2 || s.pair.role == 3) = false
    rw [role]
    decide
  have pair' : (s.taken t c e 0x70).inPair = true := pair
  have step' : (s.taken t c e 0x70).reliefInStep = true := step
  have free' : (s.taken t c e 0x70).pair.reqSwitch = none := free
  have run : exec (.pairSwitch t c e) s = .next _ := congrArg Host.Outcome.next (command_passes can.1 can.2.1 (by
    simp [Passes, form, leads', pair', step', free']))
  obtain ⟨b, proposed, told, tick, agreed⟩ := proposes_sent (s := s.taken t c e 0x70) (link_of_reliefInStep step)
    { tick := s.cycle + 40, confirmed := false, ref := some (s.refOf c e 0x70), reversion := false }
  have run' : exec (.pairSwitch t c e) s = .next ((s.taken t c e 0x70).proposes
    { tick := s.cycle + 40, confirmed := false, ref := some (s.refOf c e 0x70), reversion := false }) := run
  rw [proposed] at run'
  obtain ⟨sent, out⟩ : s.out <+: (s.taken t c e 0x70).out := List.prefix_append ..
  refine ⟨_, s.refOf c e 0x70, b, run', taken_awaits (t := t) rfl, taken_inProg (t := t) .., rfl, ?_, told, tick, agreed⟩
  dsimp only
  rw [← out, List.append_assoc, List.drop_left]
  exact List.mem_append_right _ (List.mem_singleton_self _)

end

/-- No switch is proposed any more. -/
def State.switchless (s : State) : State := { s with pair := { s.pair with reqSwitch := none } }

/-! ### Proposals, answers and refusals (R393, R394) -/

theorem exec_reversion {s : State} (steward : s.steward = true) (role : s.pair.role = 2) (preferred : s.pwr.rolePref = true) (hold : s.pair.hold ≠ 0)
    (free : s.pair.reqSwitch = none) (link : s.pair.link = true) (t : Nat) : ∃ s' b, exec (.reversion t) s = .next s' ∧
      s'.pair = { s.pair with reqSwitch := some { tick := s.cycle + 40, confirmed := false, ref := none, reversion := true } } ∧
      s'.out = s.out ++ [.frame 5 b] ∧ u8 b 0 = 4 ∧
      s'.now = max (s.then t) (s.pair.inStepSince + s.pair.hold.toNat * secCycles) ∧ LanesKept s s' := by
  have run : exec (.reversion t) s = .next ((s.at (max t (s.pair.inStepSince + s.pair.hold.toNat * secCycles))).proposes
      { tick := s.cycle + 40, confirmed := false, ref := none, reversion := true }) := if_pos ⟨steward, role, preferred, hold, free, link⟩
  obtain ⟨b, proposed, told, -⟩ := proposes_sent (s := s.at (max t (s.pair.inStepSince + s.pair.hold.toNat * secCycles))) link
    { tick := s.cycle + 40, confirmed := false, ref := none, reversion := true }
  rw [proposed] at run
  exact ⟨_, b, run, rfl, rfl, told, at_now_due .., rfl, rfl, rfl⟩

section
variable {s : State} (steward : s.steward = true) (role : s.pair.role = 1 ∨ s.pair.role = 2)
include steward role

theorem not_switch_ignored (t : Nat) : ¬ ((s.at t).steward = false ∨ ((s.at t).pair.role ≠ 1 ∧ (s.at t).pair.role ≠ 2)) := by
  rintro (asleep | ⟨one, two⟩)
  · cases steward.symm.trans asleep
  · rcases role with leads | follows
    · exact one leads
    · exact two follows

theorem exec_switch_proposal (t : Nat) {tick : Nat} (low : tick < 2 ^ 48) :
    exec (.switch t (0 :: toLe 6 tick)) s = .next ((s.at t).answerSwitch tick) := by
  have named : u48 (0 :: toLe 6 tick) 1 = tick := ((codeTick_fields 0 tick).2).trans (Nat.mod_eq_of_lt low)
  have run : exec (.switch t (0 :: toLe 6 tick)) s = _ := if_neg (not_switch_ignored steward role t)
  rw [run]
  exact (if_pos (by rfl)).trans (congrArg (fun n => Host.Outcome.next ((s.at t).answerSwitch n)) named)

theorem switch_confirms (t : Nat) {tick : Nat} (low : tick < 2 ^ 48) (ahead : s.cycle + 20 ≤ tick) (free : s.pair.reqSwitch = none)
    (loud : s.pwr.quietIn = false) (stays : s.app.stop = none) (running : s.app.running = true) : ∃ s',
      exec (.switch t (0 :: toLe 6 tick)) s = .next s' ∧
      s'.pair = { s.pair with reqSwitch := some { tick := tick, confirmed := true, ref := none, reversion := s.pair.role == 1 } } ∧
      LanesKept s s' := by
  have run := exec_switch_proposal steward role t low
  have accepts : (decide (s.cycle + 20 ≤ tick) && s.pair.reqSwitch.isNone && !s.pwr.quietIn && s.app.stop.isNone && s.app.running) = true := by
    simp [ahead, free, loud, stays, running]
  have answer : (s.at t).answerSwitch tick = ({ s.at t with pair := { s.pair with
      reqSwitch := some { tick := tick, confirmed := true, ref := none, reversion := s.pair.role == 1 } } } : State).sendControl 4
        (toLe 1 1 ++ toLe 6 tick) := if_pos accepts
  rw [answer, sendControl_alone] at run
  exact ⟨_, run, rfl, rfl, rfl, rfl⟩

theorem switch_refuses (t : Nat) {tick : Nat} (low : tick < 2 ^ 48) (against : tick < s.cycle + 20 ∨ s.pair.reqSwitch ≠ none)
    (link : s.pair.link = true) : ∃ s' b, exec (.switch t (0 :: toLe 6 tick)) s = .next s' ∧ s'.pair = s.pair ∧ s'.out = s.out ++ [.frame 5 b] ∧
      u8 b 0 = 4 ∧ u8 b 4 = 2 ∧ u48 b 5 = tick := by
  have run := exec_switch_proposal steward role t low
  have refuses : ¬ (decide (s.cycle + 20 ≤ tick) && s.pair.reqSwitch.isNone && !s.pwr.quietIn && s.app.stop.isNone && s.app.running) = true := by
    simp only [Bool.and_eq_true, decide_eq_true_eq, Option.isNone_iff_eq_none]
    rintro ⟨⟨⟨⟨ahead, free⟩, -⟩, -⟩, -⟩
    rcases against with late | asked
    · omega
    · exact asked free
  have answer : (s.at t).answerSwitch tick = (s.at t).sendControl 4 (toLe 1 2 ++ toLe 6 tick) := if_neg refuses
  obtain ⟨b, sent, told, code, named⟩ := sendControl_codeTick (s := s.at t) link 4 2 tick
  rw [answer, sent] at run
  exact ⟨_, b, run, rfl, rfl, told, code, named.trans (Nat.mod_eq_of_lt low)⟩

/-- An answer to the switch proposed: it stands confirmed, or is given up. -/
theorem exec_switch_answer {q : SwitchReq} (asked : s.pair.reqSwitch = some q) (open' : q.confirmed = false) (t : Nat) (low : q.tick < 2 ^ 48)
    {code : Byte} (answers : code.toNat ≠ 0) : exec (.switch t (code :: toLe 6 q.tick)) s = if code.toNat = 1 ∧ s.cycle + 20 ≤ q.tick then
      .next { s with now := s.then t, pair := { s.pair with reqSwitch := some { q with confirmed := true } } }
    else .next ((s.at t).switchless.completeOpt q.ref 0x0703 []) := by
  obtain ⟨_, named⟩ := codeTick_fields code q.tick
  rw [Nat.mod_eq_of_lt low] at named
  have stands : ¬ (q.confirmed = true ∨ q.tick ≠ u48 (code :: toLe 6 q.tick) 1) := by simp [open', named]
  change execSwitch t (code :: toLe 6 q.tick) s = _
  unfold execSwitch
  dsimp only
  rw [if_neg (not_switch_ignored steward role t), if_neg (show ¬ u8 (code :: toLe 6 q.tick) 0 = 0 from answers),
    show (s.at t).pair.reqSwitch = some q from asked]
  dsimp only
  rw [if_neg stands, named]
  rfl

end

/-- A switch given up ends its command with 0x0703. -/
theorem switchGivenUp {s : State} (t : Nat) (q : SwitchReq) :
    ((s.at t).switchless.completeOpt q.ref 0x0703 []).pair = { s.pair with reqSwitch := none } ∧
    LanesKept s ((s.at t).switchless.completeOpt q.ref 0x0703 []) ∧
    ∀ ref, q.ref = some ref → Finishes s ((s.at t).switchless.completeOpt q.ref 0x0703 []) ref 0x0703 [] := by
  refine ⟨completeOpt_pair .., ?_, fun ref awaited =>
    completeOpt_finishes (s := s) (s₁ := (s.at t).switchless) rfl List.prefix_rfl 0x0703 [] ref awaited⟩
  rw [completeOpt_alone]
  exact ⟨rfl, rfl, rfl⟩

theorem exec_confirmTimeout_switch {s : State} {q : SwitchReq} (asked : s.pair.reqSwitch = some q) (open' : q.confirmed = false)
    (swap : s.edits.swap = .none) (late : q.tick ≤ s.cycle + 20) (t : Nat) : exec (.confirmTimeout t) s =
      .next ((s.at t).switchless.completeOpt q.ref 0x0703 []) := by
  have idle : ¬ (((s.at t).edits.pending || (s.at t).edits.swap == .releasing) = true ∧ (s.at t).edits.confirmed = false ∧
      (s.at t).edits.tick ≤ (s.at t).cycle + 20) := by
    simp [Edits.pending, swap]
  change execConfirmTimeout t s = _
  unfold execConfirmTimeout
  dsimp only
  rw [if_neg idle, show (s.at t).pair.reqSwitch = some q from asked]
  exact congrArg Host.Outcome.next (if_pos ⟨open', late⟩)

/-! ### The switch at its tick (R393) -/

/-- Why the roles change: a switch asked for, or one back to the preferred module (R394). -/
def SwitchReq.reason (q : SwitchReq) : BitVec 3 := if q.reversion then 6 else 5

theorem OnlyOutward.now {s s' : State} (h : OnlyOutward s s') : s'.now = s.now := let ⟨_, eq⟩ := h; (congrArg State.now eq :)

theorem becomeOut_now (s : State) (reason : BitVec 3) (sev : BitVec 2) : (s.becomeOut reason sev).now = s.now := by
  obtain ⟨s₁, ended, kept⟩ := becomeOut_unled s reason sev
  rw [ended, (setRole_outward s₁ 3 reason sev).now]
  exact (congrArg State.now kept :)

theorem becomeOut_relief (s : State) (reason : BitVec 3) (sev : BitVec 2) {g : GrpId} (supplied : s.groups[g].lplus = true) :
    (s.becomeOut reason sev).groups[g].relief = true := by
  obtain ⟨s₁, ended, kept⟩ := becomeOut_unled s reason sev
  have groups : s₁.groups = s.groups := (congrArg State.groups kept :)
  rw [ended, setRole_relief s₁ 3 reason sev (by rw [groups]; exact supplied)]
  rfl

theorem pairEvent_now (s : State) (b : Nat) : (s.pairEvent b).now = s.now := (congrArg State.now (pairEvent_unreported s b) :)

section
variable {s : State} {q : SwitchReq} (steward : s.steward = true) (asked : s.pair.reqSwitch = some q) (confirmed : q.confirmed = true)
  (due : q.tick ≤ s.cycle) (runs : s.halted = false) (power : s.pwr.pf = .none)
include steward asked confirmed due runs power

theorem exec_plannedSwitch_primary (t : Nat) (role : s.pair.role = 1) : exec (.plannedSwitch t) s = .next ((State.becomeOut
    ((s.at (max t (s.cycleOfTb (tickCycles * q.tick + 16000)))).switchless.completeOpt q.ref 0 (toLe 6 q.tick)) q.reason sevNotice).pairEvent
      evSwitch) := by
  change execPlannedSwitch t s = _
  unfold execPlannedSwitch
  rw [asked]
  dsimp only
  rw [if_pos ⟨confirmed, due, steward, runs, power⟩, if_pos role]
  rfl

theorem exec_plannedSwitch_relief (t : Nat) (role : s.pair.role = 2) : exec (.plannedSwitch t) s =
    .next (((s.at t).switchless.lead q.reason sevNotice (tickCycles * s.cycle)).pairEvent evSwitch) := by
  change execPlannedSwitch t s = _
  unfold execPlannedSwitch
  rw [asked]
  dsimp only
  rw [if_pos ⟨confirmed, due, steward, runs, power⟩, if_neg (by rw [role]; decide), if_pos role]
  rfl

theorem plannedSwitch_primary (t : Nat) (role : s.pair.role = 1) : ∃ s', exec (.plannedSwitch t) s = .next s' ∧ s'.pair.role = 3 ∧
    s'.pair.reqSwitch = none ∧ s'.pair.reason = (if q.reversion then 6 else 5) ∧ s'.pair.epoch = s.pair.epoch + 1 ∧ s'.app.running = false ∧
    s'.pair.evt.getLsbD 8 = true ∧ s'.now = max (s.then t) (s.cycleOfTb (tickCycles * q.tick + 16000)) ∧ s'.dmem = s.dmem ∧
    (∀ g : GrpId, s.groups[g].lplus = true → s'.groups[g].relief = true) ∧ ∀ ref, q.ref = some ref → Finishes s s' ref 0 (toLe 6 q.tick) := by
  have run := exec_plannedSwitch_primary steward asked confirmed due runs power t role
  have told := completeOpt_unreported (s.at (max t (s.cycleOfTb (tickCycles * q.tick + 16000)))).switchless q.ref 0 (toLe 6 q.tick)
  have finishes (ref : CmdRef) (awaited : q.ref = some ref) := completeOpt_finishes (s := s)
    (s₁ := (s.at (max t (s.cycleOfTb (tickCycles * q.tick + 16000)))).switchless) rfl List.prefix_rfl 0 (toLe 6 q.tick) ref awaited
  generalize (s.at (max t (s.cycleOfTb (tickCycles * q.tick + 16000)))).switchless.completeOpt q.ref 0 (toLe 6 q.tick) = s₁ at *
  have pair : s₁.pair = { s.pair with reqSwitch := none } := (congrArg State.pair told :)
  have now : s₁.now = max (s.then t) (s.cycleOfTb (tickCycles * q.tick + 16000)) := (congrArg State.now told :).trans (at_now_due ..)
  have groups : s₁.groups = s.groups := (congrArg State.groups told :)
  have dmem : s₁.dmem = s.dmem := (congrArg State.dmem told :)
  have left := becomeOut_pairEvent_left s₁ q.reason sevNotice evSwitch
  obtain ⟨_, out⟩ := becomeOut_pair s₁ q.reason sevNotice
  refine ⟨_, run, ?_, ?_, ?_, ?_, ?_, pairEvent_evt _ (by decide), ?_, left.dmem.trans dmem, fun g supplied => ?_, fun ref awaited => ?_⟩
  · rw [pairEvent_role, becomeOut_role]
  · rw [pairEvent_pair, out, pair]
    rfl
  · rw [pairEvent_pair, out]
    rfl
  · rw [pairEvent_pair, out, pair]
  · rw [app_of_going (pairEvent_going ..), becomeOut_running]
  · exact (pairEvent_now ..).trans ((becomeOut_now ..).trans now)
  · rw [pairEvent_groups]
    exact becomeOut_relief s₁ q.reason sevNotice (by rw [groups]; exact supplied)
  · exact (finishes ref awaited).followed ((becomeOut_follows ..).trans (pairEvent_follows ..))

theorem plannedSwitch_relief (t : Nat) (role : s.pair.role = 2) : ∃ s', exec (.plannedSwitch t) s = .next s' ∧ s'.pair.role = 1 ∧
    s'.pair.reqSwitch = none ∧ s'.pair.reason = (if q.reversion then 6 else 5) ∧ s'.pair.epoch = s.pair.epoch + 1 ∧ s'.app = s.app ∧
    s'.pair.evt.getLsbD 8 = true ∧ (∀ g : GrpId, s.groups[g].lplus = true → s'.groups[g].relief = false) ∧ LanesKept s s' := by
  have going := (pairEvent_going ((s.at t).switchless.lead q.reason sevNotice (tickCycles * s.cycle)) evSwitch).trans (lead_going ..)
  refine ⟨_, exec_plannedSwitch_relief steward asked confirmed due runs power t role, ?_, ?_, ?_, ?_, app_of_going going,
    pairEvent_evt _ (by decide), fun g supplied => ?_, lanesKept_of_going going⟩
  · rw [pairEvent_pair, lead_pair]
  · rw [pairEvent_pair, lead_pair]
    rfl
  · rw [pairEvent_pair, lead_pair]
    rfl
  · rw [pairEvent_pair, lead_pair]
    rfl
  · rw [pairEvent_groups]
    exact lead_relief (s.at t).switchless q.reason sevNotice _ supplied

end

/-- Settles O51, by command, message and tick. -/
theorem plannedSwitch : Obligations.PlannedSwitch := by
  intro s t tick q steward low
  refine ⟨fun c e can form => ⟨fun relief => pairSwitch_relief can form t relief, fun leads single => pairSwitch_single can form t leads single,
      fun leads pair apart => pairSwitch_alone can form t leads pair apart,
      fun pair step free => pairSwitch_proposes can form t pair step free⟩,
    fun role preferred hold free link => exec_reversion steward role preferred hold free link t, fun role => ⟨?confirms, ?refuses, ?answered⟩,
    fun asked open' swap late => ⟨_, exec_confirmTimeout_switch asked open' swap late t, switchGivenUp t q⟩,
    fun asked confirmed due runs power => ⟨fun role => plannedSwitch_primary steward asked confirmed due runs power t role,
      fun role => plannedSwitch_relief steward asked confirmed due runs power t role⟩⟩
  case confirms => exact fun ahead free loud stays running => switch_confirms steward role t low ahead free loud stays running
  case refuses => exact fun against link => switch_refuses steward role t low against link
  case answered =>
    rintro asked open' rfl
    refine ⟨fun ahead => ⟨_, (exec_switch_answer steward role asked open' t low (code := 1) (by decide)).trans (if_pos ⟨rfl, ahead⟩), rfl⟩, ?_⟩
    exact ⟨_, (exec_switch_answer steward role asked open' t low (code := 2) (by decide)).trans (if_neg fun ⟨one, _⟩ => absurd one (by decide)),
      switchGivenUp t q⟩

end Sys2Proof.Machine
end

section
/-! PROOFS. Resynchronisation: the command, the stream, the join, and a primary's waybill (R385, R392, R396, R397, R398). -/

namespace Sys2Proof.Machine

/-! ### RESYNC (R398; log entry 45) -/

/-- A resynchronisation is awaited by a command. -/
def State.joinAwaited (s : State) (ref : CmdRef) : State := { s with pair := { s.pair with joinRef := some ref } }

theorem commandSync_alone (s : State) : s.commandSync = { s with pair := s.commandSync.pair } := rfl

section
variable {s : State} {r : RingId} {e : CmdEntry} (can : s.CanAnswer r) (form : e.formOk 0 [] = true)
include can form

theorem resync_single (t : Nat) (single : s.inPair = false) :
    ∃ s', exec (.resync t r e) s = .next s' ∧ Answers s s' r e 0x0708 [] ∧ s'.pair = s.pair := by
  have single' : (s.taken t r e 0x71).inPair = false := single
  obtain ⟨s', run, answers, same⟩ := exec_refused (i := .resync t r e) (st := 0x0708) can rfl (by simp [firstFail, form, single'])
  exact ⟨s', run, answers, by rw [same]; rfl⟩

theorem resync_unlinked (t : Nat) (pair : s.inPair = true) (apart : s.pair.link = false ∨ s.pair.role = 0) :
    ∃ s', exec (.resync t r e) s = .next s' ∧ Answers s s' r e 0x0704 [] ∧ s'.pair = s.pair := by
  have pair' : (s.taken t r e 0x71).inPair = true := pair
  have apart' : (!(s.taken t r e 0x71).pair.link || (s.taken t r e 0x71).pair.role == 0) = true := by
    rcases apart with down | single
    · simp [show (s.taken t r e 0x71).pair.link = false from down]
    · simp [show (s.taken t r e 0x71).pair.role = 0 from single]
  obtain ⟨s', run, answers, same⟩ := exec_refused (i := .resync t r e) (st := 0x0704) can rfl (by simp only [firstFail, form, pair', apart']; rfl)
  exact ⟨s', run, answers, by rw [same]; rfl⟩

section
variable (pair : s.inPair = true) (link : s.pair.link = true) (versions : s.pair.partner.hello = true → s.mayPair = true)
  (same : s.pair.cfgdiff = false)
include pair link versions same

theorem exec_resync (t : Nat) (role : s.pair.role ≠ 0) : exec (.resync t r e) s = .next (
    if s.pair.role = 2 ∨ s.reliefInStep = true then (s.taken t r e 0x71).complete (s.refOf r e 0x71) 0 (toLe 6 s.pair.joinTick)
    else (State.joinAwaited (if s.pair.role = 3 then (s.taken t r e 0x71).commandSync
      else (s.taken t r e 0x71).sendControl 6 (toLe 6 0 ++ toLe 1 0)) (s.refOf r e 0x71)).completeOpt s.pair.joinRef 0x0707 []) := by
  have pair' : (s.taken t r e 0x71).inPair = true := pair
  have link' : (s.taken t r e 0x71).pair.link = true := link
  have role' : (s.taken t r e 0x71).pair.role ≠ 0 := role
  have versions' : (s.taken t r e 0x71).pair.partner.hello = true → (s.taken t r e 0x71).mayPair = true := versions
  have same' : (s.taken t r e 0x71).pair.cfgdiff = false := same
  exact congrArg Host.Outcome.next (command_passes can.1 can.2.1 (by
    simpa [Passes, form, pair', link', same'] using And.intro role' versions'))

theorem resync_inStep (t : Nat) (step : s.pair.role = 2 ∨ (s.pair.role = 1 ∧ s.reliefInStep = true)) : ∃ s', exec (.resync t r e) s = .next s' ∧
    Answers s s' r e 0 (toLe 6 s.pair.joinTick) ∧ s'.pair = s.pair := by
  have role : s.pair.role ≠ 0 := by
    rcases step with relief | ⟨leads, -⟩
    · rw [relief]; decide
    · rw [leads]; decide
  have run := exec_resync can form pair link versions same t role
  rw [if_pos (step.imp_right And.right)] at run
  obtain ⟨s', run', answers, alone⟩ := exec_answers (t := t) can run rfl rfl
  exact ⟨s', run', answers, by rw [alone]; rfl⟩

theorem resync_restarts (t : Nat) (role : s.pair.role = 3) (free : s.pair.joinRef = none) : ∃ s', exec (.resync t r e) s = .next s' ∧
    Awaits s s' r e 0x71 ∧ s'.pair.joinRef = s'.host.inProg[r] ∧ s'.pair.attempts = 0 ∧ s'.pair.passDone = false ∧ s'.pair.progress = 0 ∧
    s'.pair.rsync = s.maySync ∧ LanesKept s s' := by
  have apart : ¬ (s.pair.role = 2 ∨ s.reliefInStep = true) := by simp [State.reliefInStep, role]
  have run := exec_resync can form pair link versions same t (by rw [role]; decide)
  rw [if_neg apart, if_pos role, free] at run
  refine ⟨_, run, taken_awaits (t := t) rfl, ?_, rfl, rfl, rfl, rfl, rfl, rfl, rfl⟩
  exact (taken_inProg (t := t) ..).symm

theorem resync_passedOn (t : Nat) (role : s.pair.role = 1) (apart : s.reliefInStep = false) (free : s.pair.joinRef = none) :
    ∃ s' b, exec (.resync t r e) s = .next s' ∧ Awaits s s' r e 0x71 ∧ s'.pair.joinRef = s'.host.inProg[r] ∧
      Out.frame 5 b ∈ s'.out.drop s.out.length ∧ u8 b 0 = 6 ∧ u48 b 4 = 0 ∧ u8 b 10 = 0 ∧ LanesKept s s' := by
  have apart' : ¬ (s.pair.role = 2 ∨ s.reliefInStep = true) := by simp [role, apart]
  have run := exec_resync can form pair link versions same t (by rw [role]; decide)
  rw [if_neg apart', if_neg (by rw [role]; decide), free, sendControl_linked (s := s.taken t r e 0x71) link] at run
  obtain ⟨sent, out⟩ : s.out <+: (s.taken t r e 0x71).out := List.prefix_append ..
  refine ⟨_, controlBytes 6 (toLe 6 0 ++ toLe 1 0), run, taken_awaits (t := t) rfl, (taken_inProg (t := t) ..).symm, ?_,
    by decide, by decide, by decide, rfl, rfl, rfl⟩
  change _ ∈ ((s.taken t r e 0x71).out ++ [_]).drop _
  rw [← out, List.append_assoc, List.drop_left]
  exact List.mem_append_right _ (List.mem_singleton_self _)

end
end

/-! ### Blocks of the stream (R396) -/

/-- The figures of a pass after a block. -/
def State.streamed (s : State) (c : Conf) (b : StreamBlock) : State := { s with pair := { s.pair with
  streamed := s.pair.streamed + streamLen b
  progress := if s.pair.passDone then 100 else BitVec.ofNat 7 (min 99 (100 * (s.pair.streamed + streamLen b) / max 1 c.streamBytes)) } }

theorem fromRecord_fields (v : Room) (c : Conf) (stg : Vector Stg 192) (ws : List Word) :
    (∀ k : Reg, k ≠ 0 → (v.fromRecord c stg ws).g[k] = ws.getD (k.val - 1) 0) ∧ (v.fromRecord c stg ws).mlo = ws.getD 33 0 ∧
    (v.fromRecord c stg ws).relTb = (ws.getD 39 0) ++ (ws.getD 38 0) ∧ (v.fromRecord c stg ws).st = v.st := by
  refine ⟨fun k named => ?_, rfl, by simp only [Room.fromRecord], by simp only [Room.fromRecord]⟩
  have index : k.val ≠ 0 := fun zero => named (Fin.ext zero)
  exact (Vector.getElem_ofFn ..).trans (if_neg index)

section
variable {s : State} {c : Conf} (steward : s.steward = true) (conf : s.joinConf = some c) (role : s.pair.role = 3) (sync : s.pair.rsync = true)
include steward conf role sync

theorem exec_stream (t : Nat) (b : StreamBlock) : exec (.stream t b) s = .next (((s.at t).streamed c b).takeBlock c b) := by
  change execStream t b s = _
  unfold execStream
  dsimp only
  rw [show (s.at t).joinConf = some c from conf]
  exact if_pos ⟨steward, role, sync⟩

theorem stream_passDone (t : Nat) :
    ∃ s', exec (.stream t .passDone) s = .next s' ∧ s'.pair.passDone = true ∧ s'.pair.progress = 100 ∧ LanesKept s s' :=
  ⟨_, exec_stream steward conf role sync t .passDone, rfl, rfl, rfl, rfl, rfl⟩

theorem stream_record (t : Nat) (room : RoomId) (ws : List Word) : ∃ s', exec (.stream t (.record room ws)) s = .next s' ∧
    s'.rooms[room].get 0 = 0 ∧ (∀ k : Reg, k ≠ 0 → s'.rooms[room].g[k] = ws.getD (k.val - 1) 0) ∧ s'.rooms[room].mlo = ws.getD 33 0 ∧
    s'.rooms[room].relTb = (ws.getD 39 0) ++ (ws.getD 38 0) ∧ s'.rooms[room].st = s.rooms[room].st ∧
    (∀ q : RoomId, q ≠ room → s'.rooms[q] = s.rooms[q]) ∧ s'.dmem = s.dmem ∧ s'.img = s.img := by
  have run := exec_stream steward conf role sync t (.record room ws)
  have here : (((s.at t).streamed c (.record room ws)).takeBlock c (.record room ws)).rooms[room] =
      s.rooms[room].fromRecord c ((s.at t).streamed c (.record room ws)).pair.stg ws := getElem_upd_self ..
  obtain ⟨regs, mlo, relTb, st⟩ := fromRecord_fields s.rooms[room] c ((s.at t).streamed c (.record room ws)).pair.stg ws
  rw [← here] at regs mlo relTb st
  exact ⟨_, run, rfl, regs, mlo, relTb, st, fun q other => getElem_upd_other (Ne.symm other), rfl, rfl⟩

theorem stream_window (t : Nat) (room : RoomId) (ret : Bool) (i off : Nat) (b : List Byte) (assigned : c.an.rooms.idxOf? room.val = some i)
    (inside : off + b.length ≤ ((c.task i).map (fun k => if ret then k.retLen else k.privLen)).getD 0) :
    ∃ s', exec (.stream t (.window room ret off b)) s = .next s' ∧
      s'.dmem = s.dmem.write ((if ret then c.an.retBase.getD i 0 else c.an.privBase.getD i 0) + off) b ∧ s'.rooms = s.rooms ∧ s'.img = s.img := by
  have taken : ((s.at t).streamed c (.window room ret off b)).takeBlock c (.window room ret off b) =
      { (s.at t).streamed c (.window room ret off b) with
        dmem := s.dmem.write ((if ret then c.an.retBase.getD i 0 else c.an.privBase.getD i 0) + off) b } := by
    unfold State.takeBlock
    dsimp only
    rw [assigned]
    exact if_pos inside
  exact ⟨_, exec_stream steward conf role sync t _, by rw [taken], by rw [taken]; rfl, by rw [taken]; rfl⟩

theorem stream_words (t : Nat) (pend : Bool) (addr : Nat) (b : List Byte) : ∃ s', exec (.stream t (.words pend addr b)) s = .next s' ∧
    s'.img = (if pend then { s.img with pend := s.img.pend.write addr b } else { s.img with com := s.img.com.write addr b }) ∧
    s'.rooms = s.rooms ∧ s'.dmem = s.dmem := ⟨_, exec_stream steward conf role sync t _, rfl, rfl, rfl⟩

/-! ### The join attempt (R397) -/

/-- What a join is tried on at a common tick. -/
def State.MayJoin (s : State) (c : Conf) : Prop := s.mayRelease = true ∧ s.pair.passDone = true ∧ s.commonAt c s.cycle = true

/-- The attempt told to the primary. -/
def State.joinTried (s : State) : State := s.sendControl 6 (toLe 6 s.cycle ++ toLe 1 0)

theorem exec_joinAttempt (may : s.MayJoin c) (t : Nat) (arrived : Bool) (k : Nat) : exec (.joinAttempt t arrived k) s =
    if arrived = true ∧ (s.at t).joinTried.wholeFrame c s.cycle = true then .next ((s.at t).joinTried.join c s.cycle)
    else .next (State.sendControl { (s.at t).joinTried with pair := { (s.at t).joinTried.pair with
      attempts := satInc (s.at t).joinTried.pair.attempts
      blockRoom := if arrived then (s.at t).joinTried.pair.blockRoom else BitVec.ofNat 7 k } } 6 (toLe 6 s.cycle ++ toLe 1 2)) := by
  obtain ⟨ready, pass, common⟩ := may
  change execJoinAttempt t arrived k s = _
  unfold execJoinAttempt
  dsimp only
  rw [show (s.at t).joinConf = some c from conf]
  exact if_pos ⟨ready, role, sync, pass, common⟩

theorem joinAttempt_counted (may : s.MayJoin c) (t : Nat) (k : Nat) : ∃ s', exec (.joinAttempt t false k) s = .next s' ∧
    s'.pair.attempts = satInc s.pair.attempts ∧ s'.pair.blockRoom = BitVec.ofNat 7 k ∧ s'.pair.role = 3 ∧ s'.app = s.app ∧ LanesKept s s' := by
  have run := exec_joinAttempt steward conf role sync may t false k
  have tried : (s.at t).joinTried = { s.at t with out := (s.at t).joinTried.out } := sendControl_alone ..
  rw [if_neg (by simp), sendControl_alone, tried] at run
  exact ⟨_, run, rfl, rfl, role, rfl, rfl, rfl, rfl⟩

end

/-! ### The join (R397) -/

theorem pairEvent_outward (s : State) (b : Nat) : OnlyOutward s (s.pairEvent b) := by
  unfold State.pairEvent
  dsimp only
  split
  · exact .of_inward rfl
  · exact (OnlyOutward.withPair s _).trans ((OnlyOutward.of_inward rfl).trans (raiseNow_outward _ 3))

/-- From s to s' the application and the memory stay, what has gone out stays, and ring k's commands end as before. -/
structure State.JoinKept (s s' : State) (k : RingId) : Prop where
  app : s'.app = s.app
  dmem : s'.dmem = s.dmem
  ends : s'.host.EndsAs s.host k
  out : s.out <+: s'.out

theorem HostIf.EndsAs.trans {h h₁ h' : HostIf} {k : RingId} (a : h'.EndsAs h₁ k) (b : h₁.EndsAs h k) : h'.EndsAs h k :=
  ⟨a.active.trans b.active, a.busMaster.trans b.busMaster, a.inProg.trans b.inProg, a.heldC.trans b.heldC, a.cqHead.trans b.cqHead,
    a.cqTail.trans b.cqTail, fun j low => (a.ring j low).trans (b.ring j low)⟩

theorem HostIf.EndsAs.of_unraised {h h' : HostIf} (same : h'.unraised = h.unraised) (k : RingId) : h'.EndsAs h k :=
  ⟨(congrArg HostIf.active same :), (congrArg HostIf.busMaster same :), (congrArg (·.inProg[k]) same :), (congrArg HostIf.heldC same :),
    (congrArg HostIf.cqHead same :), (congrArg HostIf.cqTail same :),
    fun j _ => (congrArg (fun h : HostIf => vget h.rings j RingCfg.init) same :)⟩

theorem State.JoinKept.trans {s s₁ s' : State} {k : RingId} (h : s.JoinKept s₁ k) (h' : s₁.JoinKept s' k) : s.JoinKept s' k :=
  ⟨h'.app.trans h.app, h'.dmem.trans h.dmem, h'.ends.trans h.ends, h.out.trans h'.out⟩

theorem State.JoinKept.of_outward {s s' : State} (h : OnlyOutward s s') (k : RingId) : s.JoinKept s' k :=
  ⟨h.app, h.dmem, .of_unraised h.unraised k, h.out⟩

/-- The relief as it joins, its rooms not yet set up. -/
def State.joining (s : State) (c : Conf) (j : Nat) : State :=
  let turned := s.edits.swap == .staged && s.pair.partner.swap == 2
  { s with
    app := { s.app with
      cur := some c
      running := true
      startTick := j
      half := if turned then 1 - s.app.half else s.app.half }
    edits := if turned then { s.edits with swap := .trial, old := s.app.cur <|> s.app.stored } else s.edits
    img := { s.img with
      written := (c.way.chans.filter ChanCfg.isOutput).map ChanCfg.ch
      closed := [] }
    np := s.np.admitted c.an s.tb
    pair := { s.pair with
      rsync := false
      marked := none
      due := none
      missing := 0
      joinTick := j
      hyper := c.hyper
      inStepSince := s.now } }

/-- Its rooms set up, their windows saved and its publications within their limits. -/
def State.joinedRooms (s : State) (c : Conf) : State :=
  (((List.range c.way.tasks.length).foldl (fun s i => s.joinRoom c i) s).saveWindows c).limitPublications c

/-- It is in step: its role is told and its first tasks are released. -/
def State.stepped (s : State) (j : Nat) : State :=
  (((s.setRole 2 0 sevNotice).pairEvent evInstep).canTick j).releaseAll j (fun _ => false)

/-- The join is told to the primary and to the command that awaits it. -/
def State.joinTold (s : State) (j : Nat) : State :=
  (({ s with pair := { s.pair with joinRef := none } } : State).sendControl 6 (toLe 6 j ++ toLe 1 1)).completeOpt s.pair.joinRef 0 (toLe 6 j)

theorem join_eq (s : State) (c : Conf) (j : Nat) : s.join c j = (((s.joining c j).joinedRooms c).stepped j).joinTold j := rfl

theorem joinRoom_alone (s : State) (c : Conf) (i : Nat) : s.joinRoom c i = { s with rooms := (s.joinRoom c i).rooms } := by
  unfold State.joinRoom
  split
  · rfl
  · dsimp only
    rw [setUpRoom_alone]
    rfl

theorem joinRooms_alone (s : State) (c : Conf) (l : List Nat) : l.foldl (fun s i => s.joinRoom c i) s =
    { s with rooms := (l.foldl (fun s i => s.joinRoom c i) s).rooms } := by
  refine List.foldlRecOn (motive := fun s' : State => s' = { s with rooms := s'.rooms }) _ _ rfl fun s' same i _ => ?_
  rw [joinRoom_alone, same]

theorem saveWindows_alone (s : State) (c : Conf) : s.saveWindows c = { s with nv := (s.saveWindows c).nv } := by
  unfold State.saveWindows
  split
  · rfl
  · dsimp only
    rw [recWrite_alone]
    split
    · rfl
    · rw [nvWrite_alone]

theorem joinedRooms_kept (s : State) (c : Conf) (k : RingId) : s.JoinKept (s.joinedRooms c) k ∧ (s.joinedRooms c).pair = s.pair := by
  unfold State.joinedRooms
  have rooms := joinRooms_alone s c (List.range c.way.tasks.length)
  generalize List.foldl _ s _ = s₁ at rooms ⊢
  have saved := saveWindows_alone s₁ c
  generalize s₁.saveWindows c = s₂ at saved ⊢
  have limited := limitPublications_alone s₂ c
  have ends := limitPublications_endsAs s₂ c k
  generalize s₂.limitPublications c = s₃ at limited ends ⊢
  have host : s₂.host = s.host := by rw [saved, rooms]
  refine ⟨⟨?_, ?_, ends.trans (.of_eq host k), ?_⟩, ?_⟩
  · rw [limited, saved, rooms]
  · rw [limited, saved, rooms]
  · rw [limited, saved, rooms]
  · rw [limited, saved, rooms]

theorem stepped_kept (s : State) (j : Nat) (k : RingId) : s.JoinKept (s.stepped j) k ∧ (s.stepped j).pair =
    { s.pair with role := 2, reason := 0, epoch := s.pair.epoch + 1, evt := s.pair.evt ||| BitVec.twoPow 10 evInstep } := by
  have told : s.JoinKept ((s.setRole 2 0 sevNotice).pairEvent evInstep) k :=
    (State.JoinKept.of_outward (setRole_outward ..) k).trans (.of_outward (pairEvent_outward ..) k)
  have pair : ((s.setRole 2 0 sevNotice).pairEvent evInstep).pair =
      { s.pair with role := 2, reason := 0, epoch := s.pair.epoch + 1, evt := s.pair.evt ||| BitVec.twoPow 10 evInstep } := by
    rw [pairEvent_pair, setRole_pair]
  unfold State.stepped
  generalize (s.setRole 2 0 sevNotice).pairEvent evInstep = s₁ at told pair ⊢
  have ticked := canTick_alone s₁ j
  generalize s₁.canTick j = s₂ at ticked ⊢
  obtain ⟨_, _, _, released⟩ := releaseAll_only s₂ j
  rw [released, ticked]
  exact ⟨⟨told.app, told.dmem, told.ends, told.out⟩, pair⟩

theorem joinTold_tells (s : State) (j : Nat) : (s.joinTold j).pair = { s.pair with joinRef := none } ∧ (s.joinTold j).app = s.app ∧
    (s.joinTold j).dmem = s.dmem ∧ ∀ s₀ : State, s₀.out <+: s.out → ∀ ref, s.host.EndsAs s₀.host ref.ring → s.pair.joinRef = some ref →
      Finishes s₀ (s.joinTold j) ref 0 (toLe 6 j) := by
  unfold State.joinTold
  have sends := sendControl_alone { s with pair := { s.pair with joinRef := none } } 6 (toLe 6 j ++ toLe 1 1)
  have out := sendControl_out { s with pair := { s.pair with joinRef := none } } 6 (toLe 6 j ++ toLe 1 1)
  generalize State.sendControl { s with pair := { s.pair with joinRef := none } } 6 (toLe 6 j ++ toLe 1 1) = s₁ at sends out ⊢
  refine ⟨?_, ?_, ?_, fun s₀ before ref ends awaited => ?_⟩
  · rw [completeOpt_pair, sends]
  · rw [completeOpt_alone, sends]
  · rw [completeOpt_alone, sends]
  · rw [awaited]
    exact (complete_finishes s₁ ref 0 (toLe 6 j)).of_endsAs (by rw [sends]; exact ends) (before.trans out)

/-- The relief is in step, as of its join at base tick j. -/
theorem join_joins (s : State) (c : Conf) (j : Nat) : (s.join c j).pair.role = 2 ∧ (s.join c j).app.running = true ∧
    (s.join c j).app.cur = some c ∧ (s.join c j).app.startTick = j ∧ (s.join c j).pair.joinTick = j ∧ (s.join c j).pair.rsync = false ∧
    (s.join c j).pair.joinRef = none ∧ (s.join c j).pair.evt.getLsbD 3 = true ∧ (s.join c j).pair.epoch = s.pair.epoch + 1 ∧
    (s.join c j).dmem = s.dmem ∧ ∀ ref, s.pair.joinRef = some ref → Finishes s (s.join c j) ref 0 (toLe 6 j) := by
  rw [join_eq]
  have rooms (k : RingId) := joinedRooms_kept (s.joining c j) c k
  have app : (s.joining c j).app.running = true ∧ (s.joining c j).app.cur = some c ∧ (s.joining c j).app.startTick = j := ⟨rfl, rfl, rfl⟩
  have before : (s.joining c j).dmem = s.dmem ∧ (s.joining c j).host = s.host ∧ (s.joining c j).out = s.out := ⟨rfl, rfl, rfl⟩
  have figures : (s.joining c j).pair.joinTick = j ∧ (s.joining c j).pair.rsync = false ∧ (s.joining c j).pair.joinRef = s.pair.joinRef ∧
    (s.joining c j).pair.epoch = s.pair.epoch := ⟨rfl, rfl, rfl, rfl⟩
  generalize s.joining c j = s₁ at *
  have steps (k : RingId) := stepped_kept (s₁.joinedRooms c) j k
  generalize s₁.joinedRooms c = s₂ at *
  generalize s₂.stepped j = s₃ at *
  obtain ⟨told, appTold, memory, finishes⟩ := joinTold_tells s₃ j
  generalize s₃.joinTold j = s' at *
  have kept (k : RingId) : s₁.JoinKept s₃ k := (rooms k).1.trans (steps k).1
  have pair := (steps 0).2
  rw [(rooms 0).2] at pair
  obtain ⟨running, cur, start⟩ := app
  obtain ⟨dmem, host, out⟩ := before
  obtain ⟨tick, sync, ref, epoch⟩ := figures
  have app' : s'.app = s₁.app := appTold.trans (kept 0).app
  rw [app', told, pair]
  refine ⟨rfl, running, cur, start, tick, sync, rfl, by simp [evInstep], congrArg (· + 1) epoch, memory.trans ((kept 0).dmem.trans dmem),
    fun ref' awaited => finishes s (out ▸ (kept 0).out) ref' (host ▸ (kept ref'.ring).ends) ?_⟩
  rw [pair]
  exact ref.trans awaited

theorem joinAttempt_joins {s : State} {c : Conf} (steward : s.steward = true) (conf : s.joinConf = some c) (role : s.pair.role = 3)
    (sync : s.pair.rsync = true) (may : s.MayJoin c) (whole : s.wholeFrame c s.cycle = true) (t : Nat) (k : Nat) : ∃ s',
      exec (.joinAttempt t true k) s = .next s' ∧ s'.pair.role = 2 ∧ s'.app.running = true ∧
      s'.app.cur = some c ∧ s'.app.startTick = s.cycle ∧ s'.pair.joinTick = s.cycle ∧ s'.pair.rsync = false ∧ s'.pair.joinRef = none ∧
      s'.pair.evt.getLsbD 3 = true ∧ s'.pair.epoch = s.pair.epoch + 1 ∧ s'.dmem = s.dmem ∧
      (∀ ref, s.pair.joinRef = some ref → Finishes s s' ref 0 (toLe 6 s.cycle)) := by
  have run := exec_joinAttempt steward conf role sync may t true k
  have tried : (s.at t).joinTried = { s.at t with out := (s.at t).joinTried.out } := sendControl_alone ..
  have out : s.out <+: (s.at t).joinTried.out := sendControl_out (s.at t) ..
  have whole' : (s.at t).joinTried.wholeFrame c s.cycle = true := by rw [tried]; exact whole
  rw [if_pos ⟨rfl, whole'⟩] at run
  obtain ⟨role', running, cur, start, tick, sync', ref, evt, epoch, dmem, finishes⟩ := join_joins (s.at t).joinTried c s.cycle
  have host : (s.at t).joinTried.host = s.host := by rw [tried]; rfl
  have pair : (s.at t).joinTried.pair = s.pair := by rw [tried]; rfl
  have memory : (s.at t).joinTried.dmem = s.dmem := by rw [tried]; rfl
  rw [pair] at epoch finishes
  exact ⟨_, run, role', running, cur, start, tick, sync', ref, evt, epoch, dmem.trans memory, fun ref awaited =>
    (finishes ref awaited).of_endsAs (.of_eq host _) out⟩

/-! ### JOIN messages (R381, R392, R398) -/

theorem join_fields (j : Nat) (code b : Byte) : u48 (toLe 6 j ++ [code, b]) 0 = j % 2 ^ 48 ∧ u8 (toLe 6 j ++ [code, b]) 6 = code.toNat := by
  refine ⟨u48_toLe j [code, b], ?_⟩
  rw [u8_eq_ofLe, slice_append_right _ _ _ (by simp)]
  simp [slice, byteAt, ofLe]

/-- The relief is in step from base tick j on, as it has told. -/
def State.joinHeard (s : State) (j : Nat) : State := { s with
  pwr := { s.pwr with quietOut := false }
  pair := { s.pair with joinTick := j, joinRef := none, partner := { s.pair.partner with role := 2 } } }

section
variable {s : State} (steward : s.steward = true)
include steward

theorem join_success (role : s.pair.role = 1) (t : Nat) {j : Nat} (low : j < 2 ^ 48) (b : Byte) : ∃ s', exec (.join t (toLe 6 j ++ [1, b])) s = .next s' ∧
    s'.pair.joinTick = j ∧ s'.pair.partner.role = 2 ∧ s'.pwr.quietOut = false ∧ s'.pair.joinRef = none ∧ LanesKept s s' ∧
    ∀ ref, s.pair.joinRef = some ref → Finishes s s' ref 0 (toLe 6 j) := by
  obtain ⟨tick, code⟩ := join_fields j 1 b
  rw [Nat.mod_eq_of_lt low] at tick
  have heard : exec (.join t (toLe 6 j ++ [1, b])) s = .next (((s.at t).joinHeard (u48 (toLe 6 j ++ [1, b]) 0)).completeOpt s.pair.joinRef 0
    (toLe 6 (u48 (toLe 6 j ++ [1, b]) 0))) := if_pos ⟨steward, role, code⟩
  rw [tick] at heard
  have finishes (ref : CmdRef) (awaited : s.pair.joinRef = some ref) :=
    completeOpt_finishes (s := s) (s₁ := (s.at t).joinHeard j) rfl List.prefix_rfl 0 (toLe 6 j) ref awaited
  refine ⟨_, heard, ?_, ?_, ?_, ?_, ?_, finishes⟩
  · rw [completeOpt_pair]; rfl
  · rw [completeOpt_pair]; rfl
  · rw [completeOpt_alone]; rfl
  · rw [completeOpt_pair]; rfl
  · rw [completeOpt_alone]
    exact ⟨rfl, rfl, rfl⟩

theorem join_abandoned (role : s.pair.role = 1) (t : Nat) (j : Nat) (b : Byte) : exec (.join t (toLe 6 j ++ [2, b])) s =
    .next { s with now := s.then t, pair := { s.pair with attempts := satInc s.pair.attempts } } := by
  obtain ⟨-, code⟩ := join_fields j 2 b
  change execJoin t (toLe 6 j ++ [2, b]) s = _
  unfold execJoin
  dsimp only
  rw [code, if_neg (by simp), if_neg (by simp [role])]
  exact if_pos ⟨steward, role, rfl⟩

theorem join_asked (role : s.pair.role = 3) (t : Nat) (b : Byte) : exec (.join t (toLe 6 0 ++ [0, b])) s = .next (s.at t).commandSync := by
  obtain ⟨-, code⟩ := join_fields 0 0 b
  change execJoin t (toLe 6 0 ++ [0, b]) s = _
  unfold execJoin
  dsimp only
  rw [code, if_neg (by simp [role])]
  exact if_pos ⟨steward, role, rfl⟩

/-! ### A primary's waybill (R385) -/

theorem exec_waybill (role : s.pair.role = 3) (stopped : s.app.running = false) (idle : s.inn.exam = none) (t : Nat) (part : List Byte) :
    exec (.waybill t (toLe 4 0 ++ part)) s = if 16 ≤ part.length ∧ u32 part 8 ≤ part.length then .next ((State.loadWaybill { s.at t with
        pair := { s.pair with wayBuf := [] }
        edits := { s.edits with swap := .none, new := none, old := none, confirmed := false } } (part.take (u32 part 8))).beginExam none false)
      else .next { s with now := s.then t, pair := { s.pair with wayBuf := part } } := by
  have first : u32 (toLe 4 0 ++ part) 0 = 0 := by
    rw [u32, slice_append_left _ _ (by simp)]
    simp
  change execWaybill t (toLe 4 0 ++ part) s = _
  unfold execWaybill
  dsimp only
  rw [first, if_pos rfl]
  exact if_pos ⟨steward, role, stopped, idle, .inl rfl⟩

end

/-- Settles O52, by command, block, tick and message. -/
theorem resynchronisation : Obligations.Resynchronisation := by
  intro s t c steward
  refine ⟨fun r e can form => ⟨fun single => resync_single can form t single, fun pair apart => resync_unlinked can form t pair apart,
      fun pair link versions same => ⟨fun role => ?inStep, fun role free => ?restarts, fun role step => ?inStepPrimary,
        fun role apart free => ?passedOn⟩⟩,
    fun conf role sync => ⟨stream_passDone steward conf role sync t, stream_record steward conf role sync t, stream_window steward conf role sync t,
      stream_words steward conf role sync t, fun ready pass common => ⟨fun k => ?counted, fun k whole => ?joins⟩⟩,
    fun j b low role => ⟨join_success steward role t low b, ⟨_, join_abandoned steward role t j b, rfl⟩⟩,
    fun b role => ⟨_, join_asked steward role t b, rfl, rfl, rfl, rfl, rfl, rfl, rfl⟩,
    fun part role stopped idle => ⟨fun less => ?part, fun most whole => ?whole⟩⟩
  case inStep => exact resync_inStep can form pair link versions same t (.inl role)
  case restarts => exact resync_restarts can form pair link versions same t role free
  case inStepPrimary => exact resync_inStep can form pair link versions same t (.inr ⟨role, step⟩)
  case passedOn => exact resync_passedOn can form pair link versions same t role apart free
  case counted => exact joinAttempt_counted steward conf role sync ⟨ready, pass, common⟩ t k
  case joins => exact joinAttempt_joins steward conf role sync ⟨ready, pass, common⟩ whole t k
  case part =>
    refine ⟨_, (exec_waybill steward role stopped idle t part).trans (if_neg fun ⟨most, whole⟩ => ?_), rfl⟩
    rcases less with short | short <;> omega
  case whole =>
    exact ⟨_, (exec_waybill steward role stopped idle t part).trans (if_pos ⟨most, whole⟩), rfl, rfl, rfl, rfl, rfl, rfl, rfl⟩

end Sys2Proof.Machine
end

section
/-! PROOFS. Discrepant inputs, proofs of outputs, and their ages (R381, R388, R399 to R402). -/

namespace Sys2Proof.Machine

theorem OnlyOutward.lanes {s s' : State} (h : OnlyOutward s s') : LanesKept s s' := ⟨h.rooms, h.dmem, h.img⟩

theorem gbEvent_nv (s : State) (typ src : Nat) (sev : BitVec 2) (ws : List Word) : (s.gbEvent typ src sev ws).nv = s.nv := by rw [gbEvent_alone]

/-- An instant not before one that is due. -/
theorem at_due_eq (s : State) (t due : Nat) : s.at (max t due) = { s with now := max (s.then t) due } :=
  congrArg (fun n => { s with now := n }) (at_now_due s t due)

/-! ### A channel made discrepant, or no longer so (R388) -/

/-- What its discrepancy makes of a channel. -/
def Chan.discrepant (c : Chan) (on : Bool) : Chan := { c with disc := on, discLatch := c.discLatch || on }

theorem setDisc_same {s : State} {n : ChanId} {on : Bool} (same : on = s.chans[n].disc) : s.setDisc n on = s := if_pos same

theorem setDisc_clears {s : State} {n : ChanId} (was : s.chans[n].disc = true) : s.setDisc n false = s.updChan n (Chan.discrepant · false) := by
  unfold State.setDisc
  rw [was, if_neg (by decide)]
  rfl

theorem latchVector_unreported (s : State) (old : Bool) : (s.latchVector old).unreported = s.unreported := by
  unfold State.latchVector
  split
  · rfl
  · exact raiseNow_unreported ..

theorem latchVector_outward (s : State) (old : Bool) : OnlyOutward s (s.latchVector old) := by
  unfold State.latchVector
  split
  · exact .of_inward rfl
  · exact raiseNow_outward ..

/-- A latched bit told: its event, its vector and its record. -/
def State.told (s : State) (off bits event : Nat) (old : Bool) (typ src : Nat) : State :=
  (((s.mark off bits).pairEvent event).latchVector old).gbEvent typ src sevFault [barWord (s.mark off bits) off]

/-- What is told besides its reports. -/
theorem told_unreported (s : State) (off bits event : Nat) (old : Bool) (typ src : Nat) : (s.told off bits event old typ src).unreported =
    ({ s with pair := { s.pair with evt := s.pair.evt ||| BitVec.twoPow 10 event } } : State).unreported := by
  unfold State.told
  rw [gbEvent_unreported, latchVector_unreported, pairEvent_unreported]
  rfl

theorem told_outward (s : State) (off bits event : Nat) (old : Bool) (typ src : Nat) : OnlyOutward s (s.told off bits event old typ src) := by
  have marked : OnlyOutward s (s.mark off bits) := .of_inward rfl
  exact ((marked.trans (pairEvent_outward ..)).trans (latchVector_outward ..)).trans (.of_inward (gbEvent_inward ..))

theorem told_recorded (s : State) (off bits event : Nat) (old : Bool) (typ src : Nat) :
    (s.told off bits event old typ src).recorded typ src sevFault := gbEvent_recorded ..

section
variable (s : State) (off bits : Nat) {event : Nat} (old : Bool) (typ src : Nat)

theorem told_event (bit : event < 10) : (s.told off bits event old typ src).pair.evt.getLsbD event = true := by
  rw [pair_of_unreported (told_unreported ..)]
  simp [bit]

theorem told_chans : (s.told off bits event old typ src).chans = s.chans := (congrArg State.chans (told_unreported s off bits event old typ src) :)

end

theorem setDisc_sets {s : State} {n : ChanId} (was : s.chans[n].disc = false) : s.setDisc n true =
    (s.updChan n (Chan.discrepant · true)).told (0x4080 + 4 * (n.val / 16)) (2 ^ (16 + n.val % 16)) evDisc s.chans[n].discLatch 0x63 n.val := by
  unfold State.setDisc
  rw [was, if_neg (by decide), if_pos rfl]
  rfl

theorem setDisc_outward (s : State) (n : ChanId) (on : Bool) : OnlyOutward s (s.setDisc n on) := by
  by_cases same : on = s.chans[n].disc
  · rw [setDisc_same same]
    exact .of_inward rfl
  · cases on with
    | false =>
      rw [setDisc_clears (by simpa using Ne.symm same)]
      exact .of_inward rfl
    | true =>
      rw [setDisc_sets (by simpa using Ne.symm same)]
      exact (OnlyOutward.of_inward (updChan_inward ..)).trans (told_outward ..)

theorem setDisc_otherChan (s : State) {n m : ChanId} (other : m ≠ n) (on : Bool) : (s.setDisc n on).chans[m] = s.chans[m] := by
  by_cases same : on = s.chans[n].disc
  · rw [setDisc_same same]
  · cases on with
    | false =>
      rw [setDisc_clears (by simpa using Ne.symm same)]
      exact getElem_upd_other (Ne.symm other)
    | true =>
      rw [setDisc_sets (by simpa using Ne.symm same), told_chans]
      exact getElem_upd_other (Ne.symm other)

/-- Its discrepancy, and its latch when it has just come. -/
theorem setDisc_chan (s : State) (n : ChanId) (on : Bool) : (s.setDisc n on).chans[n] =
    { s.chans[n] with disc := on, discLatch := s.chans[n].discLatch || (on && !s.chans[n].disc) } := by
  by_cases same : on = s.chans[n].disc
  · rw [setDisc_same same, same, Bool.and_not_self, Bool.or_false]
  · cases on with
    | false =>
      have was : s.chans[n].disc = true := by simpa using Ne.symm same
      rw [setDisc_clears was]
      exact getElem_upd_self ..
    | true =>
      have was : s.chans[n].disc = false := by simpa using Ne.symm same
      rw [setDisc_sets was, told_chans, was]
      exact getElem_upd_self ..

/-! ### The map of discrepant channels (R381, R388) -/

/-- When a relief finds channel n discrepant, or in agreement again, it judges and tells the map. -/
def State.discJudged (s : State) (t : Nat) (n : ChanId) (on : Bool) : State :=
  ((s.at t).setDisc n on).sendControl 8 ((s.at t).setDisc n on).discMap

theorem discJudged_alone (s : State) (t : Nat) (n : ChanId) (on : Bool) :
    s.discJudged t n on = { (s.at t).setDisc n on with out := (s.discJudged t n on).out } := sendControl_alone ..

theorem discMap_length (s : State) : s.discMap.length = 24 := by simp [State.discMap]

/-- The message that carries the map. -/
theorem controlBytes_discMap (s : State) : u8 (controlBytes 8 s.discMap) 0 = 8 ∧ slice (controlBytes 8 s.discMap) 4 24 = s.discMap := by
  refine ⟨controlBytes_code .., (slice_controlBytes 8 s.discMap (i := 0) (n := 24) (by rw [discMap_length])).trans ?_⟩
  have all := slice_all s.discMap
  rwa [discMap_length] at all

section
variable {s : State} {ch : ChanId} {e : ChanCfg} (steward : s.steward = true) (entry : s.chans[ch].cfg = some e) (relief : s.isRelief = true)
  (compared : comparedMode e = true)
include steward entry relief compared

theorem exec_inputDiscrepancy (t : Nat) (set : Bool) : exec (.inputDiscrepancy t ch set) s = match s.discDue ch, set with
    | some x, true => .next (s.discJudged (max t x) ch true)
    | none, false => .next (s.discJudged t ch false)
    | _, _ => .next (s.at t) := by
  change execInputDiscrepancy t ch set s = _
  unfold execInputDiscrepancy
  dsimp only
  rw [entry]
  refine (if_pos (by rw [steward, relief]; exact compared)).trans ?_
  cases s.discDue ch <;> cases set <;> rfl

theorem inputDiscrepancy_sets (t : Nat) {x : Nat} (was : s.chans[ch].disc = false) (due : s.discDue ch = some x) : ∃ s',
    exec (.inputDiscrepancy t ch true) s = .next s' ∧ s'.chans[ch].disc = true ∧
      s'.now = max (s.then t) x ∧ s'.chans[ch].discLatch = true ∧ (∀ n : ChanId, n ≠ ch → s'.chans[n] = s.chans[n]) ∧
      s'.pair.evt.getLsbD 7 = true ∧ s'.recorded 0x63 ch.val sevFault ∧ LanesKept s s' ∧
      (s.pair.link = true → ∃ b, Out.frame 5 b ∈ s'.out.drop s.out.length ∧ u8 b 0 = 8 ∧ slice b 4 24 = s'.discMap) := by
  have run := exec_inputDiscrepancy steward entry relief compared t true
  rw [due] at run
  have alone := discJudged_alone s (max t x) ch true
  have outward := setDisc_outward (s.at (max t x)) ch true
  have chan := setDisc_chan (s.at (max t x)) ch true
  have sets := setDisc_sets (s := s.at (max t x)) was
  refine ⟨_, run, ?_, ?_, ?_, fun n other => ?_, ?_, ?_, ?_, fun link => ?_⟩
  · rw [alone, chan]
  · rw [alone]
    exact outward.now.trans (at_now_due ..)
  · rw [alone, chan]
    change (s.chans[ch].discLatch || (true && !s.chans[ch].disc)) = true
    rw [was]
    exact Bool.or_true _
  · rw [alone]
    exact setDisc_otherChan (s.at (max t x)) other true
  · rw [alone, sets]
    exact told_event (bit := by decide) ..
  · rw [alone, sets]
    exact told_recorded ..
  · rw [alone]
    exact outward.lanes
  · obtain ⟨told, map⟩ := controlBytes_discMap ((s.at (max t x)).setDisc ch true)
    have link' : ((s.at (max t x)).setDisc ch true).pair.link = true := by
      rw [sets, pair_of_unreported (told_unreported ..)]
      exact link
    refine ⟨_, sendControl_sent link' outward.out 8 _, told, map.trans ?_⟩
    rw [alone]
    rfl

theorem inputDiscrepancy_clears (t : Nat) (agrees : s.discDue ch = none) : ∃ s', exec (.inputDiscrepancy t ch false) s = .next s' ∧
    s'.chans[ch] = { s.chans[ch] with disc := false } ∧ (∀ n : ChanId, n ≠ ch → s'.chans[n] = s.chans[n]) ∧ s'.pair.evt = s.pair.evt ∧
    LanesKept s s' := by
  have run := exec_inputDiscrepancy steward entry relief compared t false
  rw [agrees] at run
  have alone := discJudged_alone s t ch false
  have outward := setDisc_outward (s.at t) ch false
  have chan := setDisc_chan (s.at t) ch false
  refine ⟨_, run, ?_, fun n other => ?_, ?_, ?_⟩
  · rw [alone, chan, Bool.false_and, Bool.or_false]
    rfl
  · rw [alone]
    exact setDisc_otherChan (s.at t) other false
  · rw [alone]
    cases was : s.chans[ch].disc with
    | false => rw [setDisc_same (s := s.at t) was.symm]; rfl
    | true => rw [setDisc_clears (s := s.at t) was]; rfl
  · rw [alone]
    exact outward.lanes

theorem inputDiscrepancy_agrees (t : Nat) (agrees : s.discDue ch = none) : exec (.inputDiscrepancy t ch true) s = .next (s.at t) := by
  rw [exec_inputDiscrepancy steward entry relief compared, agrees]

end

section
variable {s : State} {ch : ChanId} {e : ChanCfg} (entry : s.chans[ch].cfg = some e)
include entry

theorem discDue_input (compared : comparedMode e = true) (input : e.isReadback = false) {x : Nat} (differs : s.chans[ch].diffAt = some x) :
    s.discDue ch = some (x + (if s.pair.dtime = 0 then 20 else s.pair.dtime.toNat) * msCycles) := by
  unfold State.discDue
  rw [entry]
  dsimp only
  rw [input, compared, differs]
  rfl

theorem discDue_readback (readback : e.isReadback = true) : (s.discDue ch).isSome = true ↔ s.chans[ch].cdisc = true := by
  unfold State.discDue
  rw [entry]
  dsimp only
  rw [if_pos readback]
  cases s.chans[ch].cdisc <;> simp

end

/-- The primary takes the relief's map (R388). -/
theorem disc_takes {s : State} (steward : s.steward = true) (role : s.pair.role = 1) (t : Nat) (bs : List Byte) : ∃ s',
    exec (.disc t bs) s = .next s' ∧ LanesKept s s' ∧ ∀ n : ChanId, s'.chans[n].disc = bit (ofLe (slice bs 0 24)) n.val ∧
      s'.chans[n].discLatch = (s.chans[n].discLatch || (bit (ofLe (slice bs 0 24)) n.val && !s.chans[n].disc)) ∧
      s'.chans[n].cfg = s.chans[n].cfg ∧ s'.chans[n].drive = s.chans[n].drive := by
  have run : exec (.disc t bs) s = .next ((fins 192).foldl (fun s n => s.setDisc n (bit (ofLe (slice bs 0 24)) n.val)) (s.at t)) :=
    congrArg Host.Outcome.next (if_pos ⟨steward, role⟩)
  have outward : OnlyOutward (s.at t) ((fins 192).foldl (fun s n => s.setDisc n (bit (ofLe (slice bs 0 24)) n.val)) (s.at t)) :=
    List.foldlRecOn (motive := fun s' => OnlyOutward (s.at t) s') (fins 192) _ (.of_inward rfl) fun s' h n _ => h.trans (setDisc_outward s' n _)
  refine ⟨_, run, outward.lanes, fun n => ?_⟩
  have chan := foldl_ownChan (f := fun s n => s.setDisc n (bit (ofLe (slice bs 0 24)) n.val)) (n := n) (I := fun _ => True)
    (F := fun c => { c with
      disc := bit (ofLe (slice bs 0 24)) n.val, discLatch := c.discLatch || (bit (ofLe (slice bs 0 24)) n.val && !c.disc) })
    (fun _ _ _ => trivial) (fun s' _ => setDisc_chan s' n _) (fun s' m other => setDisc_otherChan s' (Ne.symm other) _)
    (List.nodup_finRange 192) (List.mem_finRange n) (s := s.at t) trivial
  rw [show ((fins 192).foldl (fun s n => s.setDisc n (bit (ofLe (slice bs 0 24)) n.val)) (s.at t)).chans[n] = _ from chan]
  exact ⟨rfl, rfl, rfl, rfl⟩

/-! ### A proof window opens (R399) -/

/-- A proof tried, its window open. -/
def Chan.proving (c : Chan) (now : Nat) : Chan := { c with proofOpen := true, proofTry := some now, primMa := none }

theorem exec_proofWindowOpen {s : State} {n : ChanId} (may : s.mayProve n = true) (t : Nat)
    (early : (s.at (max t (s.cycleOfTb (tickCycles * s.proofEnd n - 240 * usCycles)))).tb + 40 * usCycles ≤ tickCycles * s.proofEnd n) :
    exec (.proofWindowOpen t n) s = .next (((s.at (max t (s.cycleOfTb (tickCycles * s.proofEnd n - 240 * usCycles)))).updChan n
      (Chan.proving · (s.at (max t (s.cycleOfTb (tickCycles * s.proofEnd n - 240 * usCycles)))).now)).driveChan n false) := if_pos ⟨may, early⟩

/-- What the conditions of a proof say of its channel and group (R399). -/
theorem mayProve_drives {s : State} {n : ChanId} (may : s.mayProve n = true) : ∃ e, s.chans[n].cfg = some e ∧ e.isDout = true ∧
    s.pwr.quietIn = false ∧ s.groups[grpOf n].lplus = true ∧ s.chans[n].held = false ∧ s.chans[n].rateHeld = false ∧
    s.chans[n].rateUntil = none := by
  unfold State.mayProve at may
  dsimp only at may
  split at may
  · exact absurd may Bool.false_ne_true
  · next e entry =>
    simp only [Bool.and_eq_true, Bool.not_eq_true', Option.isNone_iff_eq_none, Group.up] at may
    obtain ⟨⟨⟨⟨⟨⟨⟨⟨⟨⟨⟨⟨-, -⟩, dout⟩, -⟩, -⟩, quiet⟩, lplus, -⟩, -⟩, held⟩, rate⟩, interval⟩, -⟩, -⟩ := may
    exact ⟨e, entry, dout, quiet, lplus, held, rate, interval⟩

/-- A relief's switch closes in an open window (R399). -/
theorem redriven_proving {c : Chan} {e : ChanCfg} {g : Group} (entry : c.cfg = some e) (dout : e.isDout = true) (lplus : g.lplus = true)
    (free : c.held = false) (rate : c.rateHeld = false) (interval : c.rateUntil = none) (relief : g.relief = true) (opened : c.proofOpen = true)
    (now : Nat) : (c.redriven false false g now).drive = true := by
  have same := terminal_undriven c g
  have held' : (c.terminal g).held = false := (congrArg Chan.held same :).trans free
  have opened' : (c.terminal g).proofOpen = true := (congrArg Chan.proofOpen same :).trans opened
  have rates : (c.terminal g).rateUntil = none ∧ (c.terminal g).rateHeld = false := by
    unfold Chan.terminal
    rw [entry]
    exact ⟨interval, rate⟩
  rw [redriven_dout entry dout]
  simp [Chan.driven, blockedOff, rateBlocks, lplus, held', relief, opened', rates]

theorem proofWindowOpen_opens {s : State} {ch : ChanId} (may : s.mayProve ch = true) (t : Nat)
    (early : (s.at (max t (s.cycleOfTb (tickCycles * s.proofEnd ch - 240 * usCycles)))).tb + 40 * usCycles ≤ tickCycles * s.proofEnd ch) :
    ∃ s', exec (.proofWindowOpen t ch) s = .next s' ∧ s'.now = max (s.then t) (s.cycleOfTb (tickCycles * s.proofEnd ch - 240 * usCycles)) ∧
      s'.chans[ch].proofOpen = true ∧
      s'.chans[ch].proofTry = some (max (s.then t) (s.cycleOfTb (tickCycles * s.proofEnd ch - 240 * usCycles))) ∧ s'.chans[ch].primMa = none ∧
      (s.groups[grpOf ch].relief = true → s'.chans[ch].drive = true) ∧ (∀ n : ChanId, n ≠ ch → s'.chans[n] = s.chans[n]) ∧ LanesKept s s' := by
  have run := exec_proofWindowOpen may t early
  have now := at_now_due s t (s.cycleOfTb (tickCycles * s.proofEnd ch - 240 * usCycles))
  rw [now] at run
  generalize max (s.then t) (s.cycleOfTb (tickCycles * s.proofEnd ch - 240 * usCycles)) = opens at *
  generalize s.cycleOfTb (tickCycles * s.proofEnd ch - 240 * usCycles) = due at *
  have inward := (driveChan_inward ((s.at (max t due)).updChan ch (Chan.proving · opens)) ch false).trans (updChan_inward ..)
  have chan := driveChan_chan ((s.at (max t due)).updChan ch (Chan.proving · opens)) ch false
  have proving : ((s.at (max t due)).updChan ch (Chan.proving · opens)).chans[ch] = s.chans[ch].proving opens := getElem_upd_self ..
  rw [proving] at chan
  have kept := redriven_undriven (s.chans[ch].proving opens) ((s.at (max t due)).updChan ch (Chan.proving · opens)).pwr.quietIn false
    ((s.at (max t due)).updChan ch (Chan.proving · opens)).groups[grpOf ch] ((s.at (max t due)).updChan ch (Chan.proving · opens)).now
  rw [← chan] at kept
  refine ⟨_, run, (congrArg State.now inward :).trans now, (congrArg Chan.proofOpen kept :), (congrArg Chan.proofTry kept :),
    (congrArg Chan.primMa kept :), fun relief => ?_, fun n other => ?_,
    show LanesKept (s.at (max t due)) _ from lanesKept_of_inward inward⟩
  · obtain ⟨e, entry, dout, quiet, lplus, held, rate, interval⟩ := mayProve_drives may
    rw [chan, show ((s.at (max t due)).updChan ch (Chan.proving · opens)).pwr.quietIn = false from quiet]
    exact redriven_proving (c := s.chans[ch].proving opens) entry dout lplus held rate interval relief rfl _
  · rw [driveChan_otherChan _ false (Ne.symm other)]
    exact getElem_upd_other (Ne.symm other)

theorem proofWindowOpen_stays {s : State} (role : s.pair.role ≠ 2) (t : Nat) (ch : ChanId) : exec (.proofWindowOpen t ch) s = .next (s.at t) := by
  refine if_neg fun ⟨may, _⟩ => ?_
  unfold State.mayProve at may
  dsimp only at may
  split at may
  · exact absurd may Bool.false_ne_true
  · rw [show (s.pair.role == 2) = false from beq_false_of_ne role] at may
    exact absurd may (by simp)

/-! ### The primary's figure (R381, R400) -/

theorem exec_proof {s : State} {ch : ChanId} {bs : List Byte} (named : u8 bs 0 = ch.val) (t : Nat) : exec (.proof t bs) s =
    .next (if s.pair.role = 2 ∧ s.chans[ch].proofOpen = true ∧ u48 bs 1 = s.proofEnd ch then
      (s.at t).updChan ch (fun c => { c with primMa := some (u16 bs 7) }) else s.at t) := by
  change execProof t bs s = _
  unfold execProof
  dsimp only
  rw [named, toFin?_val]
  rfl

theorem proof_takes {s : State} {ch : ChanId} {bs : List Byte} (role : s.pair.role = 2) (named : u8 bs 0 = ch.val)
    (ends : u48 bs 1 = s.proofEnd ch) (opened : s.chans[ch].proofOpen = true) (t : Nat) : ∃ s', exec (.proof t bs) s = .next s' ∧
      s'.chans[ch] = { s.chans[ch] with primMa := some (u16 bs 7) } ∧ (∀ n : ChanId, n ≠ ch → s'.chans[n] = s.chans[n]) ∧ LanesKept s s' := by
  have run := exec_proof (s := s) named t
  rw [if_pos ⟨role, opened, ends⟩] at run
  exact ⟨_, run, getElem_upd_self .., fun n other => getElem_upd_other (Ne.symm other), rfl, rfl, rfl⟩

theorem proofWindowClose_reports {s : State} {ch : ChanId} (steward : s.steward = true) (role : s.pair.role = 1) (link : s.pair.link = true)
    (closed : s.chans[ch].proofOpen = false) (drive : s.chans[ch].drive = true) (t ma : Nat) : ∃ s' b,
      exec (.proofWindowClose t ch ma) s = .next s' ∧ s' = { s with now := s.then t, out := s.out ++ [.frame 5 b] } ∧ u8 b 0 = 7 ∧
      u8 b 4 = ch.val ∧ u16 b 11 = min 65535 ma := by
  have shut : ¬ s.chans[ch].proofOpen = true := by rw [closed]; decide
  have reports : (s.at t).reportProof ch ma = (s.at t).sendControl 7
      (toLe 1 ch.val ++ toLe 6 (((s.at t).tb + tickCycles / 2) / tickCycles) ++ toLe 2 (min 65535 ma)) := if_pos drive
  have run : exec (.proofWindowClose t ch ma) s = .next ((s.at t).reportProof ch ma) :=
    (if_neg shut).trans (congrArg Host.Outcome.next (if_pos ⟨role, steward⟩))
  rw [reports, sendControl_linked (s := s.at t) link] at run
  refine ⟨_, _, run, rfl, controlBytes_code .., ?_, ?_⟩
  · rw [List.append_assoc]
    exact (controlBytes_byte ..).trans (Nat.mod_eq_of_lt (by omega))
  · generalize ((s.at t).tb + tickCycles / 2) / tickCycles = ends
    refine (congrArg ofLe (slice_controlBytes 7 _ (i := 7) (n := 2) (by simp))).trans ?_
    rw [slice_append_right _ _ _ (by simp)]
    simp

/-! ### A proof judged (R400, R401) -/

/-- The channel whose window has closed, its switch not yet driven anew. -/
def Chan.proved (c : Chan) (on : Bool) (now : Nat) : Chan :=
  { c with proofOpen := false, primMa := none, drive := c.drive && !on, changedAt := now }

theorem closeProof_eq (s : State) (n : ChanId) : ∃ on, s.closeProof n = (s.updChan n (Chan.proved · on s.now)).driveChan n false := ⟨_, rfl⟩

/-- Closing a window keeps the last proof of the channel, and everything but the field. -/
theorem closeProof_keeps (s : State) (n : ChanId) : (s.closeProof n).inward = s.inward ∧ (s.closeProof n).nv = s.nv ∧
    (s.closeProof n).chans[n].proofOpen = false ∧ (s.closeProof n).chans[n].proofHours = s.chans[n].proofHours := by
  obtain ⟨on, eq⟩ := closeProof_eq s n
  have chan := driveChan_chan (s.updChan n (Chan.proved · on s.now)) n false
  have proved : (s.updChan n (Chan.proved · on s.now)).chans[n] = s.chans[n].proved on s.now := getElem_upd_self ..
  rw [proved] at chan
  have kept := redriven_undriven (s.chans[n].proved on s.now) (s.updChan n (Chan.proved · on s.now)).pwr.quietIn false
    (s.updChan n (Chan.proved · on s.now)).groups[grpOf n] (s.updChan n (Chan.proved · on s.now)).now
  rw [← chan, ← eq] at kept
  refine ⟨by rw [eq]; exact (driveChan_inward ..).trans (updChan_inward ..), by rw [eq]; exact driveChan_nv .., ?_, ?_⟩
  · exact (congrArg Chan.proofOpen kept :)
  · exact (congrArg Chan.proofHours kept :)

theorem judgeProof_fails (s : State) (n : ChanId) : s.judgeProof n false =
    (s.updChan n fun c => { c with proofFail := true, proofFailLatch := true }).told (0x4100 + 4 * (n.val / 16)) (2 ^ (16 + n.val % 16)) evProofFail
      s.chans[n].proofFailLatch 0x64 n.val := rfl

section
variable {s : State} {ch : ChanId} (opened : s.chans[ch].proofOpen = true)
include opened

theorem exec_proofWindowClose (t ma : Nat) : ∃ due, exec (.proofWindowClose t ch ma) s =
    .next (((s.at due).closeProof ch).judgeProof ch (proofPasses ma s.chans[ch].primMa)) := ⟨_, if_pos opened⟩

theorem proofWindowClose_passes (t : Nat) {ma p : Nat} (primary : s.chans[ch].primMa = some p) (share : ma + p ≤ 5 * ma) (load : 2 ≤ ma + p) :
    ∃ s', exec (.proofWindowClose t ch ma) s = .next s' ∧ s'.chans[ch].proofOpen = false ∧ s'.chans[ch].proofHours = some s.hours ∧
      s'.chans[ch].proofFail = false ∧ s'.chans[ch].exer = false ∧ s'.pair.evt = s.pair.evt ∧ LanesKept s s' := by
  obtain ⟨due, run⟩ := exec_proofWindowClose opened t ma
  have passes : proofPasses ma s.chans[ch].primMa = true := by
    rw [primary]
    simp [proofPasses, share, load]
  obtain ⟨inward, nv, shut, -⟩ := closeProof_keeps (s.at due) ch
  rw [passes] at run
  have lanes : LanesKept s ((s.at due).closeProof ch) := show LanesKept (s.at due) _ from lanesKept_of_inward inward
  have pair : ((s.at due).closeProof ch).pair = s.pair := show _ = (s.at due).pair from pair_of_inward inward
  have hours : ((s.at due).closeProof ch).hours = s.hours := by rw [State.hours, nv]; rfl
  generalize (s.at due).closeProof ch = closed at *
  have here : (closed.judgeProof ch true).chans[ch] =
    { closed.chans[ch] with proofHours := some closed.hours, proofFail := false, exer := false, agedOut := false } := getElem_upd_self ..
  refine ⟨_, run, ?_, ?_, ?_, ?_, congrArg Pair.evt pair, lanes⟩
  · rw [here]; exact shut
  · rw [here, hours]
  · rw [here]
  · rw [here]

theorem proofWindowClose_fails (t : Nat) {ma : Nat} (short : ∀ p, s.chans[ch].primMa = some p → 5 * ma < ma + p ∨ ma + p < 2) :
    ∃ s', exec (.proofWindowClose t ch ma) s = .next s' ∧ s'.chans[ch].proofOpen = false ∧ s'.chans[ch].proofFail = true ∧
      s'.chans[ch].proofFailLatch = true ∧ s'.chans[ch].proofHours = s.chans[ch].proofHours ∧ s'.pair.evt.getLsbD 6 = true ∧
      s'.recorded 0x64 ch.val sevFault ∧ LanesKept s s' := by
  obtain ⟨due, run⟩ := exec_proofWindowClose opened t ma
  have fails : proofPasses ma s.chans[ch].primMa = false := by
    unfold proofPasses
    split
    · rfl
    · next p primary =>
      rw [Bool.and_eq_false_iff, decide_eq_false_iff_not, decide_eq_false_iff_not]
      rcases short p primary with more | less
      · exact .inl (by omega)
      · exact .inr (by omega)
  obtain ⟨inward, -, shut, hours⟩ := closeProof_keeps (s.at due) ch
  rw [fails, judgeProof_fails] at run
  have lanes : LanesKept s ((s.at due).closeProof ch) := show LanesKept (s.at due) _ from lanesKept_of_inward inward
  have hours' : ((s.at due).closeProof ch).chans[ch].proofHours = s.chans[ch].proofHours := hours
  generalize (s.at due).closeProof ch = closed at *
  have here : (closed.updChan ch fun c => { c with proofFail := true, proofFailLatch := true }).chans[ch] =
    { closed.chans[ch] with proofFail := true, proofFailLatch := true } := getElem_upd_self ..
  refine ⟨_, run, ?_, ?_, ?_, ?_, told_event (bit := by decide) .., told_recorded ..,
    lanes.trans (show LanesKept (closed.updChan ch _) _ from (told_outward ..).lanes)⟩
  · rw [told_chans, here]; exact shut
  · rw [told_chans, here]
  · rw [told_chans, here]
  · rw [told_chans, here]; exact hours'

end

/-! ### Ages of proofs (R402) -/

/-- The hour is over, and the proof record is on its way. -/
def State.hourOver (s : State) (t : Nat) : State :=
  let s := s.at (max t (s.pair.agesAt + 3600 * secCycles))
  let s := { s with pair := { s.pair with agesAt := s.now } }
  s.recWrite 4 6 s.proofRecord (fun _ => .nothing)

/-- The outputs whose age exceeds AGELIM for the first time. -/
def State.newlyAged (s : State) : List Nat := s.provable.filter fun n => s.overAge n && !(vget s.chans n Chan.init).agedOut

theorem exec_proofAgeUpdate {s : State} (steward : s.steward = true) (relief : s.isRelief = true) (t : Nat) : exec (.proofAgeUpdate t) s =
    .next { (s.hourOver t).ageRecords (s.hourOver t).newlyAged sevNotice with
      chans := ((s.hourOver t).ageRecords (s.hourOver t).newlyAged sevNotice).chans.mapFinIdx fun n c _ =>
        if (s.hourOver t).newlyAged.contains n then { c with agedOut := true } else c } := if_pos ⟨steward, relief⟩

theorem ageRecords_nv (s : State) (ns : List Nat) (sev : BitVec 2) : (s.ageRecords ns sev).nv = s.nv :=
  foldl_keeps_key State.nv (fun s n => gbEvent_nv s 0x65 n sev [pairAge s n]) ns s

theorem hourOver_alone (s : State) (t : Nat) : ∃ busy queue, s.hourOver t = { s with
    now := max (s.then t) (s.pair.agesAt + 3600 * secCycles)
    pair := { s.pair with agesAt := max (s.then t) (s.pair.agesAt + 3600 * secCycles) }
    nv := { s.nv with busy := busy, queue := queue, writes := s.nv.writes + 1 } } := by
  unfold State.hourOver
  dsimp only
  rw [at_due_eq]
  exact ⟨_, _, recWrite_alone ..⟩

/-- The age limit is exceeded: the last passing proof is too long ago, or there is none. -/
theorem overAge_iff (s : State) (n : ChanId) : s.overAge n.val = true ↔ s.pair.agelim ≠ 0 ∧
    ∀ h, s.chans[n].proofHours = some h → s.pair.agelim.toNat * 24 < (s.hours - h) / 10 := by
  have limited : 0 < s.pair.agelim.toNat ↔ s.pair.agelim ≠ 0 := by
    rw [Nat.pos_iff_ne_zero, ne_eq, ne_eq, ← BitVec.toNat_inj]
    rfl
  unfold State.overAge State.proofAge
  rw [vget_val, Bool.and_eq_true, decide_eq_true_eq, limited]
  cases s.chans[n].proofHours <;> simp

theorem mem_newlyAged (s : State) (n : ChanId) : n.val ∈ s.newlyAged ↔ n.val ∈ s.provable ∧ s.chans[n].agedOut = false ∧
    s.pair.agelim ≠ 0 ∧ ∀ h, s.chans[n].proofHours = some h → s.pair.agelim.toNat * 24 < (s.hours - h) / 10 := by
  rw [State.newlyAged, List.mem_filter, Bool.and_eq_true, overAge_iff, vget_val, Bool.not_eq_true']
  tauto

theorem proofAgeUpdate_ages {s : State} (steward : s.steward = true) (relief : s.isRelief = true) (t : Nat) : ∃ s',
    exec (.proofAgeUpdate t) s = .next s' ∧ s'.nv.writes = s.nv.writes + 1 ∧ LanesKept s s' ∧
      s'.now = max (s.then t) (s.pair.agesAt + 3600 * secCycles) ∧ s'.pair.agesAt = s'.now ∧
      ∀ n : ChanId, { s'.chans[n] with agedOut := s.chans[n].agedOut } = s.chans[n] ∧
        (s'.chans[n].agedOut = true ↔ s.chans[n].agedOut = true ∨ (n.val ∈ s.provable ∧ s.pair.agelim ≠ 0 ∧
          ∀ h, s.chans[n].proofHours = some h → s.pair.agelim.toNat * 24 < (s.hours - h) / 10)) := by
  have run := exec_proofAgeUpdate steward relief t
  obtain ⟨busy, queue, same⟩ := hourOver_alone s t
  have newly (n : ChanId) := mem_newlyAged (s.hourOver t) n
  have told := ageRecords_unreported (s.hourOver t) (s.hourOver t).newlyAged sevNotice
  have nv := ageRecords_nv (s.hourOver t) (s.hourOver t).newlyAged sevNotice
  generalize (s.hourOver t).newlyAged = ns at *
  generalize (s.hourOver t).ageRecords ns sevNotice = told' at *
  generalize s.hourOver t = hour at *
  subst same
  have chans : told'.chans = s.chans := (congrArg State.chans told :)
  have lanes : LanesKept s told' := ⟨(congrArg State.rooms told :), (congrArg State.dmem told :), (congrArg State.img told :)⟩
  have chan (n : ChanId) : (told'.chans.mapFinIdx fun n c _ => if ns.contains n then { c with agedOut := true } else c)[n] =
      if n.val ∈ ns then { s.chans[n] with agedOut := true } else s.chans[n] := by
    rw [chans]
    simp
  refine ⟨_, run, (congrArg Nv.writes nv :), lanes, (congrArg State.now told :), ?_, fun n => ?_⟩
  · exact (congrArg (·.pair.agesAt) told :).trans (congrArg State.now told :).symm
  · dsimp only
    rw [chan]
    have newly' : n.val ∈ ns ↔ n.val ∈ s.provable ∧ s.chans[n].agedOut = false ∧ s.pair.agelim ≠ 0 ∧
      ∀ h, s.chans[n].proofHours = some h → s.pair.agelim.toNat * 24 < (s.hours - h) / 10 := newly n
    split
    next aged =>
      obtain ⟨proves, -, limited, old⟩ := newly'.mp aged
      exact ⟨rfl, iff_of_true rfl (.inr ⟨proves, limited, old⟩)⟩
    next young =>
      refine ⟨rfl, .inl, ?_⟩
      rintro (already | ⟨proves, limited, old⟩)
      · exact already
      · by_contra fresh
        exact young (newly'.mpr ⟨proves, Bool.eq_false_of_not_eq_true fresh, limited, old⟩)

/-- Settles O53, by event, message, window and hour. -/
theorem discrepanciesAndProofs : Obligations.DiscrepanciesAndProofs := by
  intro s t ma ch e steward entry
  refine ⟨fun relief compared => ⟨fun x was due => inputDiscrepancy_sets steward entry relief compared t was due,
      fun agrees => inputDiscrepancy_clears steward entry relief compared t agrees,
      fun agrees => ⟨_, inputDiscrepancy_agrees steward entry relief compared t agrees, rfl⟩,
      fun input x differs => discDue_input entry compared input differs, fun readback => discDue_readback entry readback⟩,
    fun bs role => disc_takes steward role t bs, fun may early => ?opens, fun role => ⟨_, proofWindowOpen_stays role t ch, rfl⟩,
    fun bs named other => ?stays, fun role link closed drive => proofWindowClose_reports steward role link closed drive t ma,
    fun bs role named ends opened => proof_takes role named ends opened t,
    fun opened => ⟨fun p primary share load => proofWindowClose_passes opened t primary share load,
      fun short => proofWindowClose_fails opened t short⟩,
    fun relief => proofAgeUpdate_ages steward relief t⟩
  case opens =>
    refine proofWindowOpen_opens may t ?_
    rw [at_due_eq]
    exact early
  case stays =>
    have run := exec_proof (s := s) named t
    rw [if_neg fun ⟨_, _, ends⟩ => other ends] at run
    exact ⟨_, run, rfl⟩

end Sys2Proof.Machine
end
